-- ==== Sys2Proof/Word.lean ====
section
/-! DEFINITION. The words, the fixed numbering of R11 and the small arithmetic every chapter uses. -/

namespace Sys2Proof

abbrev Byte := BitVec 8
abbrev W16 := BitVec 16
abbrev W32 := BitVec 32
abbrev W64 := BitVec 64
/-- A 64-byte entry, instruction or header: byte `k` is bits `8k+7 .. 8k` (R2, little-endian). -/
abbrev W512 := BitVec 512

/-- Thread id, core × 8 + thread (R11). -/
abbrev Tid := Fin 512
/-- Core number (R11). -/
abbrev CoreId := Fin 64
/-- Host port h; DMA engine h is its engine (R11). -/
abbrev PortId := Fin 16
/-- Instance number (R1). -/
abbrev InstId := Fin 8192
/-- Pipeline number (R11). -/
abbrev PipeId := Fin 8
/-- Thread channel number (R227). -/
abbrev ChanId := Fin 4096
/-- Ethernet lane; a port is named by its first lane (R13). -/
abbrev LaneId := Fin 128
/-- Downstream storage port (R11). -/
abbrev DspId := Fin 8
/-- Lookaside cipher unit (R11). -/
abbrev UnitId := Fin 32
/-- Key slot (R1). -/
abbrev SlotId := Fin 65536
/-- DMA channel of one engine. -/
abbrev DmaCh := Fin 32
/-- General register number of a thread (R188). -/
abbrev GReg := Fin 32

/-- One of the two main dies (R11). -/
inductive Half where
  | west
  | east
  deriving DecidableEq, Repr

/-- 0 West, 1 East, as TID.half writes it (R195). -/
def Half.code : Half → Nat
  | .west => 0
  | .east => 1

/-- The half that bit `n` names: 0 West, anything else East. -/
def Half.ofBit (n : Nat) : Half := if n = 0 then .west else .east

/-- The other half. -/
def Half.other : Half → Half
  | .west => .east
  | .east => .west

end Sys2Proof
end

