-- ==== Sys2Proof/Syntax/Operand.lean ====
section
/-! DEFINITION. The operand types of the commands: who accesses a register, which register, what a host read
answered, the packets of the wire. -/

namespace Sys2Proof

/-- The function or thread that accesses a register (R4, R5, R328). -/
inductive Who where
  /-- F0 of host port h. -/
  | f0 (h : PortId)
  /-- F1 of host port h. -/
  | f1 (h : PortId)
  /-- A hardware thread, through device space. -/
  | thread (t : Tid)
  /-- The MSS (R45). -/
  | mss
  deriving DecidableEq, Repr

/-- A control queue (R125). -/
inductive CtlQ where
  | ctl (h : PortId)
  | inst (i : InstId)
  | mss
  deriving DecidableEq, Repr

/-- A work queue that is fetched: WQ q of an instance, a port's CTL queue, the MSS queue. -/
inductive QRef where
  | wq (i : InstId) (q : Fin 64)
  | ctl (h : PortId)
  | mss
  deriving DecidableEq, Repr

/-- Translation fault causes (R439). -/
inductive XFault where
  | range
  | noRoot
  | notValid
  | reserved
  | permission
  | walkError
  deriving DecidableEq, Repr

/-- What a read of host memory, or the translation of a host write, answered. -/
inductive Ans where
  /-- The bytes read; for a write, the translation succeeded (no bytes). -/
  | ok (bytes : List Byte)
  /-- The address did not translate (R439). -/
  | xfault (c : XFault)
  /-- The read met a bus error (R512). -/
  | busError
  deriving DecidableEq, Repr

/-- A memory request of a host: a read of bytes, or a write with its byte enables, `none` where a byte's is clear (R513). -/
inductive MemReq where
  | read (n : Fin 4097)
  | write (l : List (Option Byte))
  deriving DecidableEq, Repr

/-- What a write changes of the MSI-X masks of a function (R72). -/
inductive MaskSet where
  | fnMask (v : Bool)
  | enable (v : Bool)
  | vector (k : Fin 2048) (v : Bool)
  deriving DecidableEq, Repr

/-- An outstanding read of a host port, as a timeout names it (R56). -/
inductive OutReq where
  /-- The fetch of an entry of a queue. -/
  | fetch (q : QRef)
  /-- A page-table read of an instance. -/
  | walk (i : InstId) (va : W64) (read write : Bool) (k : Fin 4)
  /-- A descriptor read or a burst of a DMA channel of the port. -/
  | desc (c : DmaCh)
  | burst (c : DmaCh)
  deriving DecidableEq, Repr

/-- Link power states (R74). -/
inductive LinkPm where
  | l0
  | l1
  | l11
  | l12
  deriving DecidableEq, Repr

/-- How a DMA or host read ended badly (R430). -/
inductive StopCause where
  | ur
  | ca
  | poison
  | timeout
  | fabric
  | linkLoss
  deriving DecidableEq, Repr

/-- What a read of a DMA engine answered: its data, or a stop cause (R430). Data is not looked at for system space. -/
inductive DmaAns where
  | ok (bytes : List Byte)
  | fail (c : StopCause)
  deriving DecidableEq, Repr

/-- Transport the message reached the MSS over (R454). -/
inductive Transport where
  | mailbox (h : PortId)
  | mctpPcie (h : PortId)
  | smbus
  | i3c
  | mgmt
  deriving DecidableEq, Repr

/-- A request of the MSS: transport, header length field, tag and body (R455). -/
structure MssReq where
  via : Transport
  tag : W32
  body : List Byte
  deriving DecidableEq, Repr

/-- The source bytes of one message of a QP, as a read of the instance's memory answers now (R402). -/
structure SrcRead where
  msn : BitVec 24
  ans : Ans
  deriving DecidableEq, Repr

/-- What the FEC decoder of a port counted over a frame: codewords corrected, codewords uncorrectable, symbols
corrected (R318). -/
structure FecWords where
  corrected : W16
  uncorrected : W16
  symbols : W16
  deriving DecidableEq, Repr

/-- What the receive side of a port reports with a frame: an overrun of its crossing FIFO (R41), and its FEC decoder's counts. -/
structure RxLine where
  overrun : Bool
  fec : FecWords
  deriving DecidableEq, Repr

/-- A port whose turn to send has come, and whether an HBM lookup of its egress stages misses the on-die cache (R272, R281). -/
structure PortTurn where
  lane : LaneId
  miss : Bool
  deriving DecidableEq, Repr

/-- What a host port's link partner brings to training: the highest speed of both ends, counted from 0, and whether FLIT mode
is negotiated (R52). -/
structure LinkPartner where
  top : Fin 6
  flit : Bool
  deriving DecidableEq, Repr

/-- The read of a page-table entry: the entry, none where the read failed, and the place among the live epochs of the one whose
root the walk began at (R161, R438). -/
structure WalkRead where
  entry : Option W64
  epoch : Fin 4
  deriving DecidableEq, Repr

/-- A queue in which packets wait: of a port and class, of a PKT_RECV queue, of a transport engine. -/
inductive TmRef where
  | port (l : LaneId) (tc : Fin 8)
  | deliver (i : InstId) (q : Fin 64)
  | rmt (h : Half)
  deriving DecidableEq, Repr

/-- Where a packet enters an ingress pipeline from (R264, R265). -/
inductive InSrc where
  | eth (l : LaneId)
  | host (h : PortId)
  deriving DecidableEq, Repr

/-- A memory request of a downstream device (R322). -/
inductive DsReq where
  | read (addr : W64) (n : Fin 4097)
  | write (addr : W64) (bytes : List Byte)
  deriving DecidableEq, Repr

/-- What a configuration request to a drive was answered with: data, Request Retry Status past 1 s or for the Vendor ID,
Unsupported Request (R321). -/
inductive CfgResp where
  | ok (v : W32)
  | rrs
  | ur
  deriving DecidableEq, Repr

/-- Jig test items (R100). -/
inductive JigItem where
  | arrays
  | cores
  | ethernet
  | pcie
  | hbm
  | bridge
  | pipelines
  | cipher
  deriving DecidableEq, Repr

/-- A unit that fails its training or its Jig test: those that have spares (R485), and any other with the structure code,
number and half that name it. -/
inductive FailedUnit where
  | core (c : Fin 64)
  | inlineUnit (p : PipeId) (u : Fin 32)
  | exact (p : PipeId) (k : Fin 32)
  | ternary (p : PipeId) (k : Fin 16)
  | hogshead (h : Half) (k : Fin 48)
  | bridgeLane (toEast : Bool) (k : Fin 160)
  | other (s : BitVec 8) (unit : W16) (h : Half)
  deriving DecidableEq, Repr

/-- How a data-path fault is met for HBM or an array (R481): the structure codes 0x01 to 0x14. -/
abbrev StructCode := Fin 21

/-- An uncorrectable array error: the structure of R481 and the place. -/
inductive ArrayErr where
  /-- A register of a thread. -/
  | coreRegs (t : Tid)
  /-- A line of a core's L1I. -/
  | l1i (c : CoreId) (addr : W64)
  /-- A line of L1D, L2 or LLC: `n` granules from `addr` are lost where it is dirty. -/
  | cache (llc : Bool) (addr : W64) (n : Fin 9) (dirty : Bool)
  /-- One copy of a directory entry. -/
  | directory (addr : W64)
  | hbm (addr : W64) (n : Fin 9)
  | hogshead (h : Half) (bank : Fin 48)
  | exact (p : PipeId) (bank : Fin 32)
  /-- A row of a ternary bank. -/
  | ternary (p : PipeId) (bank : Fin 16)
  | xlate (h : Half) (i : InstId) (va : W64)
  | learn (p : PipeId) (slot : Fin 262144)
  /-- A sector of MRAM: of the settings, a record slot, a seal slot, an MSS firmware bank. -/
  | mramSettings
  | mramRecord (slot : Fin 458752)
  | mramSeal (slot : Fin 512)
  | mramBank (b : Bool)
  deriving DecidableEq, Repr

/-- A reference clock (R505): of a host port, of an Ethernet lane pair, of the downstream synthesiser of a half. -/
inductive ClkRef where
  | host (h : PortId)
  | eth (k : Fin 4)
  | dsp (h : Half)
  deriving DecidableEq, Repr

/-- Size of a thread's memory access: 1, 2, 4 or 8 bytes (chapter 09). -/
inductive Sz where
  | b
  | h
  | w
  | d
  deriving DecidableEq, Repr

/-- Bytes of an access. -/
def Sz.bytes : Sz → Nat
  | .b => 1
  | .h => 2
  | .w => 4
  | .d => 8

/-- Ordering of an atomic (R221). -/
inductive AmoOrd where
  | none
  | acq
  | rel
  | acqRel
  deriving DecidableEq, Repr

/-- Item a debug READ or WRITE names (R478). -/
inductive DbgItem where
  | greg (r : GReg)
  | pc
  | sysreg (n : BitVec 12)
  | window (off : Fin 512)
  | staging (c : ChanId) (w : Fin 8)
  | recvBuf (c : ChanId) (w : Fin 8)
  deriving DecidableEq, Repr

/-- Every register that a command can name. Indices follow the block maps of the chapters. -/
inductive Reg where
  -- SPEED (R45)
  | spdMon (n : Nat) | spdDom (d : Nat) | spdStatus | spdMiss (k : Nat) | spdPower
  -- BOOT (R89), of host port h
  | bootId (h : Nat) | bootState | bootLoadCtrl (h : Nat) | bootLoadStatus (h : Nat) | bootEnable (h : Nat)
  | bootRefuse (h : Nat)
  -- CTL and INT (R123, R124)
  | ctlWqBase (h : Nat) | ctlWqCtrl (h : Nat) | ctlWqPi (h : Nat) | ctlWqCi (h : Nat) | ctlDoorbell (h : Nat)
  | ctlWqErr (h : Nat) | ctlCqBase (h : Nat) | ctlCqCtrl (h : Nat) | ctlCqPi (h : Nat) | ctlCqCi (h : Nat)
  | ctlCqMirror (h : Nat)
  | f0EqBase (h : Nat) | f0EqCtrl (h : Nat) | f0EqPi (h : Nat) | f0EqCi (h : Nat) | f0EqMirror (h : Nat)
  | intStatus (h : Nat)
  -- configuration space: Command and the BARs of function f (R54, R58), MSI-X control and tables (R72)
  | cfgCommand (f h : Nat) | cfgBar (f h k : Nat) | msixControl (f h : Nat)
  -- Device Control 2, Link Control, L1 PM Substates Control 1, Device Control 3, AER uncorrectable and correctable status (R55, R56,
  -- R74)
  -- and what PCI Express lets a host write besides: Cache Line Size, Interrupt Line, Device Control, PASID Control (R54)
  | cfgCacheLine (f h : Nat) | cfgIntLine (f h : Nat) | cfgDevCtl (f h : Nat) | cfgPasidCtl (h : Nat)
  | cfgDevCtl2 (f h : Nat) | cfgLinkCtl (h : Nat) | cfgL1Pm (h : Nat) | cfgDevCtl3 (h : Nat) | cfgAer (f h : Nat) | cfgAerCor (f h : Nat)
  -- the dwords of an MSI-X entry and of a pending bit array; the two pairs that a 64-bit access of an entry covers (R72)
  | msixAddrLo (f h v : Nat) | msixAddrHi (f h v : Nat) | msixData (f h v : Nat) | msixMask (f h v : Nat)
  | msixPba (f h k : Nat) | msixAddr (f h v : Nat) | msixDataMask (f h v : Nat)
  -- PORT (R64)
  | portInfo (h : Nat) | portDiscard (h : Nat) | portUnbound (h : Nat)
  -- doorbell page of instance i (chapter 05), LOCK (R357), triggers (R413)
  | doorbell (i : Nat) | wqPi (i q : Nat) | wqCi (i q : Nat) | cqCi (i q : Nat) | eqPi (i e : Nat) | eqCi (i e : Nat)
  | eqCtrl (i e : Nat) | wqErrIndex (i q : Nat) | cqPi (i q : Nat) | instStatus (i : Nat)
  | lock (i : Nat) | lockStatus (i : Nat) | trigSel (i : Nat) | trigValue (i : Nat) | trigAdd (i : Nat)
  -- MBX (R456)
  | mbxCtrl (h : Nat) | mbxStatus (h : Nat) | sens (n : Nat) | mbxReq (h k : Nat) | mbxResp (h k : Nat)
  -- TIME (R328)
  | tbNsec | tbGrain | tbSec | mono | tbStatus | tbFreq | tbOffset | servoIn
  | stepLogOffset (k : Nat) | stepLogMono (k : Nat)
  -- THREAD (R239)
  | thrState (t : Nat) | thrEvpend (t : Nat) | thrSignal (t : Nat) | thrGroup (t : Nat) | grpCtrl (g : Nat)
  | sup (h : Nat) | fqBase (h : Nat) | fqPi (h : Nat) | fqCi (h : Nat)
  | grpSnapId (g k : Nat) | grpSnapMask (g k : Nat) | chCfg (c : Nat)
  -- PIPE and LEARN (chapters 11, 12)
  | pipeStatus (p : Nat) | pipeCnt (p k : Nat) | puntBase (p : Nat) | puntCtrl (p : Nat) | puntPi (p : Nat)
  | puntCi (p : Nat) | pipeDrop (p r : Nat)
  | learnCfg (p : Nat) | learnStatus (p : Nat) | learnFlush (p : Nat) | learnCnt (p k : Nat)
  -- ETH (R318, R336)
  | ethLink (l : Nat) | ethCnt (l n : Nat) | tsCtrl (l : Nat) | tsStatus (l : Nat) | tsHead0 (l : Nat)
  | tsHead1 (l : Nat) | tsPop (l : Nat) | tsOvfCount (l : Nat) | launchStatus (l : Nat) | launchLate (l : Nat)
  | launchRange (l : Nat)
  -- CIPHER (R357)
  | luState (u : Nat) | luLock | luLockResult | ksStatus
  -- RMT (R395)
  | rmtCnt (h k : Nat)
  -- DSP (R322)
  | dspLink (d : Nat) | dspSlot (d : Nat) | dspMsiRoute (d : Nat) | dspMsiPend (d : Nat) | dspErr (d : Nat)
  -- DMA (chapter 18)
  | dmaEngCtrl (h : Nat) | dmaEngStatus (h : Nat) | dmaErrAddr (h : Nat) | dmaActive (h : Nat) | dmaHostMask (h : Nat)
  | dmaHaltCount (h : Nat) | dmaEngRoute (h : Nat)
  | dmaNext (h c : Nat) | dmaCfg (h c : Nat) | dmaCtrl (h c : Nat) | dmaKick (h c : Nat) | dmaStatus (h c : Nat)
  | dmaShadow (h c : Nat) | dmaCurDesc (h c : Nat) | dmaCurSrc (h c : Nat) | dmaCurDst (h c : Nat)
  | dmaRemain (h c : Nat) | dmaIdleAt (h c : Nat) | dmaDone (h c : Nat) | dmaShNext (h c : Nat) | dmaShCfg (h c : Nat)
  -- ERR (R490)
  | errCorr (s h : Nat) | errUncorr (s h : Nat) | spare (h : Nat) | errRoute
  deriving DecidableEq, Repr

end Sys2Proof
end

