-- ==== Sys2Proof/Syntax.lean ====
section
/-! DEFINITION. The commands of the block: one constructor for each row of the opcode table, in the table's order,
with the row's summary and rule. -/

namespace Sys2Proof

/-- A command. -/
inductive Instr where
  /-- A write to a register field that has no row of its own takes effect according to its access type (R6). -/
  | registerWrite (who : Who) (r : Reg) (v : W64)
  /-- A register access that is not an aligned 32-bit access, or an aligned 64-bit access to a 64-bit register, completes; a write is discarded and a read returns 0 (R3). -/
  | misalignedRegisterAccess (who : Who) (r : Reg) (off : Fin 8) (n : Fin 9) (write : Bool)
  /-- A 32-bit read of the low word of a 64-bit register latches the high word for the reading function (R4). -/
  | lowWordRead (who : Who) (r : Reg)
  /-- A 32-bit write to the high word of a 64-bit register is held in the staging latch of the writer (R5). -/
  | highWordWrite (who : Who) (r : Reg) (v : W32)
  /-- A 32-bit write to the low word commits it together with the staged high word, then clears the latch (R5). -/
  | lowWordWrite (who : Who) (r : Reg) (v : W32)
  /-- A newly committed epoch becomes visible atomically in one pipeline or core, at most 2 µs after its commit (R27). -/
  | epochVisible (u : Fin 72) (e : W64)
  /-- An epoch retires once a newer epoch is visible everywhere, no work bound to it remains and every older epoch has retired (R28). -/
  | epochRetire
  /-- Work bound to an epoch superseded for 100 ms is ended, and an EPOCH_EXPIRED event is written (R141). -/
  | epochExpired
  /-- A bridge lane fault moves the bridge to a spare lane and starts a retrain, while traffic in all classes is held (R19). -/
  | bridgeLaneFault (toEast : Bool) (lane : Fin 168)
  /-- The bridge retrain ends within 10 µs and held traffic resumes without loss or reordering (R19). -/
  | bridgeRetrainDone (toEast : Bool) (ns : W32)
  /-- Cells of a packet bound for the other half are copied across the bridge and admitted there, under backpressure (R278). -/
  | bridgeCellTransfer (h : Half)
  /-- A reset half rejoins at meeting point 3, adopting the current epoch and restoring configuration from the surviving half (R23). -/
  | halfRejoin (h : Half)
  /-- The MAC receives a frame, takes its PCS timestamp and discards frames with a bad FCS or a bad length (R314). -/
  | frameReceive (l : LaneId) (frame : List Byte) (fcsOk : Bool) (rx : RxLine)
  /-- A received PFC frame pauses the queues of the classes named for the quanta given (R283). -/
  | pfcFrameRx (l : LaneId) (qs : List (Fin 8 × W16))
  /-- The pause quanta of a paused class run out and the class is served again (R283). -/
  | pfcPauseExpire (l : LaneId) (tc : Fin 8)
  /-- While the held cell count stays at or above pfc_xon, the PFC frame is repeated every 0x7FFF quanta (R282). -/
  | pfcRefresh (l : LaneId) (prio : Fin 8)
  /-- A packet enters the parser of its ingress pipeline, is bound to the epoch in force and runs the parser and the 20 ingress stages (R25). -/
  | packetIngress (src : InSrc) (miss : Bool)
  /-- A lookup of the HBM table that missed the on-die cache returns, and the waiting packet goes on in order (R272). -/
  | hbmTableLookupReturn (p : PipeId)
  /-- A port chooses the next frame by strict priority, deficit round-robin and shapers, and the frame runs the egress stages (R281). -/
  | packetSchedule (turn : PortTurn)
  /-- The MAC sends a frame once it is wholly or 2 KiB present in its FIFO, takes any transmit timestamp and frees the packet's cells (R40). -/
  | frameTransmit (l : LaneId) (underrun : Bool)
  /-- A head packet older than 1 ms is dropped as AGED (R280). -/
  | cellAged (q : TmRef)
  /-- The head packet of a delivery queue is written into the buffer of the oldest fetched PKT_RECV entry and completed (R286). -/
  | hostDelivery (h : PortId) (ans : Ans)
  /-- A queued learn request is applied at the table bank: create, refresh, move, pin or fail (R299). -/
  | learnApply (p : PipeId)
  /-- The sweeper visits one slot of the learning table, clears an expired pin, strikes it or removes it (R302). -/
  | sweeperVisit (p : PipeId) (slot : Fin 262144)
  /-- A write of LEARN_FLUSH.go starts a flush of matching learned entries (R304). -/
  | learnFlushGo (who : Who) (p : PipeId) (v : W64)
  /-- A flush has visited every slot and ends within 1 ms (R304). -/
  | learnFlushEnd (p : PipeId)
  /-- A write of LEARN_CFG changes learning, aging, hit_action, move_limit or the sweep period, which applies from the next visit (R303). -/
  | learnCfgWrite (who : Who) (p : PipeId) (v : W64)
  /-- Firmware returns punt slots by writing PUNT_CI, which is ignored if it would pass PUNT_PI (R287). -/
  | puntCiWrite (who : Who) (p : PipeId) (v : W64)
  /-- A write of PUNT_BASE sets the ring base and enable, and enabling sets PUNT_PI and PUNT_CI to 0 (R287). -/
  | puntBaseWrite (who : Who) (p : PipeId) (v : W64)
  /-- PERST# of a host port resets its functions, CTL and INT blocks, DMA engine and bound instances (R76). -/
  | perstAssert (h : PortId)
  /-- PERST# is released and the port's link trains; F0 and F1 answer with Request Retry Status until ready (R53). -/
  | perstRelease (h : PortId) (w : BitVec 6) (partner : LinkPartner)
  /-- F0 and F1 become ready for configuration requests, within 100 ms of PERST# release (R53). -/
  | functionsReady (h : PortId)
  /-- A hot reset of a host port acts as PERST# and keeps the link equalisation settings (R76). -/
  | hotReset (h : PortId)
  /-- Initiate Function Level Reset increments generations, stops new requests and clears the INTx state and pending bits (R80). -/
  | flr (h : PortId) (f1 : Bool)
  /-- Once every outstanding request has completed or timed out, the reset effects of R76 are applied and the function is ready (R80). -/
  | flrComplete (h : PortId) (f1 : Bool)
  /-- A port's data link is lost without PERST#: its instances detach, requests end, engine h halts, and an event and a record are written (R82). -/
  | surpriseRemoval (h : PortId)
  /-- The link of a host port trains afresh after insertion, and the ROM is rebuilt (R84). -/
  | hotInsertion (h : PortId) (w : BitVec 6) (partner : LinkPartner)
  /-- A change of Bus Master Enable stalls or resumes the function's DMA channels and work queues (R78). -/
  | busMasterEnableChange (h : PortId) (f1 : Bool) (v : Bool)
  /-- A change of Function Mask, a vector Mask or MSI-X Enable lets pending messages be sent and their bits cleared (R72). -/
  | msixMaskChange (h : PortId) (f1 : Bool) (m : MaskSet)
  /-- A memory access to a disabled or uncovered BAR region completes with Unsupported Request, or reads 0 and discards the write (R59). -/
  | barAccessUnserved (h : PortId) (f1 : Bool) (write : Bool) (n : Fin 4097)
  /-- An access to a doorbell page of an unbound or DETACHED instance reads 0, and a write is discarded and counted (R61). -/
  | doorbellPageUnbound (h : PortId) (inst : InstId) (write : Bool) (n : Fin 9)
  /-- An access to the F1 device-memory aperture reaches the instance's device memory, or is discarded or refused and counted (R62). -/
  | apertureAccess (h : PortId) (inst : InstId) (off : Fin 2097152) (req : MemReq)
  /-- A write to a port's F0 BAR2 load window stores its bytes, or is discarded and recorded in BOOT_REFUSE (R92). -/
  | loadWindowWrite (h : PortId) (off : Fin 1073741824) (bytes : List (Option Byte))
  /-- A completion arrives on a host port and is used, or discarded as stale and counted in PORT_DISCARD (R80). -/
  | hostCompletionRx (h : PortId) (inst : Option InstId) (gen : BitVec 12) (lost : Bool)
  /-- An outstanding read reaches its fixed 10 ms completion timeout (R56). -/
  | completionTimeout (h : PortId) (req : OutReq)
  /-- After 8 µs with nothing waiting, the link requests entry to L1 (R74). -/
  | linkL1Entry (h : PortId) (pm : LinkPm)
  /-- After 100 µs of use below 25 %, the link narrows to half its width (R74). -/
  | l0pNarrowing (h : PortId)
  /-- When use exceeds 50 % or 4 KiB of TLPs wait, the link widens to full width (R74). -/
  | l0pWidening (h : PortId)
  /-- After 1 ms with no active work on the port, F0 sends an LTR of 100 µs (R75). -/
  | ltrIdleUpdate (h : PortId)
  /-- When work becomes active on the port, F0 sends an LTR of 2 µs (R75). -/
  | ltrActiveUpdate (h : PortId)
  /-- VIN reaches 9 V, and the MSS runs its ROM, verifies its firmware, raises the rails and builds the ROM images (R85). -/
  | powerUp (boot : BitVec 4) (owner : BitVec 4) (any : Bool) (jig : Bool)
  /-- A write of BOOT_LOAD_CTRL.verify queues or starts verification of the port's load area (R93). -/
  | bootVerifyRequest (h : PortId)
  /-- An image verify ends with pass or refusal; the first pass reaches meeting point 1 and the next queued verify starts (R91). -/
  | bootVerifyComplete (us : W16)
  /-- A write of BOOT_LOAD_CTRL.discard discards the port's load area and staged image (R89). -/
  | bootLoadDiscard (h : PortId)
  /-- SerDes, HBM, pipelines, bridge and host links finish training and meeting point 2 is reached, or the device state becomes FAILED (R20). -/
  | dataPlaneTrained (fails : List FailedUnit)
  /-- A write of BOOT_ENABLE.enable runs the consistency check and moves the state to ENABLED, or is refused (R95). -/
  | bootEnableRequest (h : PortId) (ready : Bool)
  /-- A write of BOOT_LOAD_CTRL.activate starts live activation of the staged image (R97). -/
  | liveActivate (h : PortId)
  /-- The new image has been placed in firmware memory beside the old, and thread moves begin (R97). -/
  | activationImagePlaced
  /-- One thread is halted at an instruction boundary and resumes at migrate_entry with MIG_PC and MIG_STATE set (R97). -/
  | activationThreadMove (h : Half)
  /-- After all moves, the control plane commits a program on the MSS queue that binds configuration to the new image (R97). -/
  | activationBindCommit
  /-- The MSS raises the minimum security_version, sets ACTIVATED, and writes an event and a Reel record (R97). -/
  | activationFinish
  /-- Jig mode is entered by the strap or by the MSS command and the self-tests start in parallel (R99). -/
  | jigEntry
  /-- One Jig test ends and writes a JIG Reel record with its result (R100). -/
  | jigTestDone (item : JigItem) (cores : List CoreId) (units : List (PipeId × Fin 32)) (others : List FailedUnit)
  /-- A write of DOORBELL starts a doorbell scan of the instance, or latches one more pass during a scan (R107). -/
  | doorbell (h : PortId) (inst : InstId)
  /-- A write of CTL_DOORBELL starts a scan of the port's CTL queue (R107). -/
  | ctlDoorbell (h : PortId)
  /-- The scan fetches one entry of a READY queue, checks its format and advances CI, or puts the queue into ERROR (R108). -/
  | wqeFetch (q : QRef) (ans : Ans) (ext : Ans)
  /-- A write of WQ_PI moves the producer index, or puts the queue into ERROR with INDEX_OVERRUN (R105). -/
  | wqPiWrite (h : PortId) (inst : InstId) (q : Fin 64) (v : W32)
  /-- A write of CQ_CI advances the consumer index, arms the CQ and writes held completions, or is refused with ci_error (R106). -/
  | cqCiWrite (h : PortId) (inst : InstId) (q : Fin 64) (v : W32)
  /-- A write of EQ_CI consumes entries, writes one merged entry for each source that has merged events, and may make an MSI-X due (R121). -/
  | eqCiWrite (h : PortId) (inst : InstId) (e : Fin 8) (v : W32)
  /-- A write of EQ_CTRL sets int_en and clears ci_error, which can make the EQ pending and an interrupt due (R122). -/
  | eqCtrlWrite (h : PortId) (inst : InstId) (e : Fin 8) (v : W32)
  /-- A queue in CQ_WAIT or BME_OFF returns to READY and rejoins a scan when its cause clears (R109). -/
  | queueResume (q : QRef)
  /-- An entry with fence set starts once every earlier entry of its WQ has completed (R109). -/
  | fencedEntryStart (inst : InstId) (q : Fin 64)
  /-- A completion, EQ entry or mirror write that fails translation is held on chip and its queue waits behind it (R515). -/
  | completionWriteFault (inst : InstId) (isEq : Bool) (q : Fin 64) (mirror : Bool) (cause : XFault)
  /-- A write of CTL_WQ_CTRL sets the size or enable, and enabling resets the indices while disabling discards an open program (R123). -/
  | ctlWqCtrlWrite (h : PortId) (v : W32)
  /-- A write of CTL_CQ_CTRL sets the size or enable, and enabling resets the CQ indices and releases held completions (R123). -/
  | ctlCqCtrlWrite (h : PortId) (v : W32)
  /-- A write of F0_EQ_CTRL sets size, vector and int_en, and enabling resets the indices and writes events held under R514 (R124). -/
  | f0EqCtrlWrite (h : PortId) (v : W32)
  /-- BEGIN opens a program on the control queue, refusing any program already open (R130). -/
  | begin_ (q : CtlQ)
  /-- COMMIT runs the check phase and, on a pass, waits if 4 epochs are live, then creates and announces the next epoch (R139). -/
  | commit (q : CtlQ)
  /-- A COMMIT that waited for the oldest live epoch, or for a replaced key, to retire creates its epoch (R139). -/
  | commitProceed
  /-- Once drains and FENCE conditions are met and earlier programs of the queue have completed, records, completion, mirror and event are written (R139). -/
  | programComplete (q : CtlQ) (res : Ans) (sum : Ans)
  /-- ABORT ends the open program with no effect beyond its output records and completion (R130). -/
  | abort (q : CtlQ)
  /-- FENCE makes the program's completion wait for older epochs to retire or for translation invalidations to take effect (R130). -/
  | fence (q : CtlQ)
  /-- A program open 10 s with no further instruction is refused with 0x0502 (R133). -/
  | programStalled (q : CtlQ)
  /-- A COMMIT, ABORT or other instruction that arrives with no program open is refused alone with 0x0120 (R131). -/
  | instructionOutsideProgram (q : CtlQ)
  /-- CREATE stages a new instance, QP, window, trigger, port or SA in the CREATED state (R158). -/
  | create (q : CtlQ)
  /-- ENABLE moves an object to ENABLED after the consistency check (R159). -/
  | enable (q : CtlQ)
  /-- DISABLE stops new work on an object, drains it and applies the effects for its kind (R160). -/
  | disable (q : CtlQ)
  /-- DESTROY disables an object if needed and removes it, freeing its identifier and resources (R160). -/
  | destroy (q : CtlQ)
  /-- INVALIDATE removes translation-cache entries for a range or a whole instance, and may replace the root (R161). -/
  | invalidate (q : CtlQ)
  /-- PIPE.LOAD stages one chunk of a pipeline program, and the last chunk is parsed against the load rules (R162). -/
  | pipeLoad (q : CtlQ)
  /-- TBL.INSERT adds a table entry in the named pipelines for the new epoch (R163). -/
  | tblInsert (q : CtlQ)
  /-- TBL.DELETE removes a table entry in the named pipelines for the new epoch (R163). -/
  | tblDelete (q : CtlQ)
  /-- TBL.MODIFY changes the action and data of a table entry for the new epoch (R163). -/
  | tblModify (q : CtlQ)
  /-- TBL.QUERY writes TBL_ENTRY records, and LEARNED records from one merged snapshot for table 0xFFFF (R165). -/
  | tblQuery (q : CtlQ)
  /-- RMT.CONFIG sets the transport UDP destination port for the new epoch (R166). -/
  | rmtConfig (q : CtlQ)
  /-- QP.CONNECT names the peer, paths, MTU, DSCP and traffic class of a CREATED or DISABLED QP (R167). -/
  | qpConnect (q : CtlQ)
  /-- QP.TUNE sets the retransmit timeout, retry limit, congestion profile and tracker timeout of a QP (R168). -/
  | qpTune (q : CtlQ)
  /-- WIN.MODIFY changes a window's base, length, key or access, and a narrowing waits for drain (R169). -/
  | winModify (q : CtlQ)
  /-- KEY.IMPORT unwraps key material into the slot's next register in the check phase, and the slot flips at commit (R170). -/
  | keyImport (q : CtlQ)
  /-- KEY.BIND binds an EMPTY or ERASED slot to an instance or to the device (R172). -/
  | keyBind (q : CtlQ)
  /-- KEY.RETIRE empties a slot, and with erase wipes its registers and unit copies within 2 µs (R173). -/
  | keyRetire (q : CtlQ)
  /-- TIME.STEP adds a signed offset to the timebase at commit and increments the step count (R175). -/
  | timeStep (q : CtlQ)
  /-- TIME.SERVO sets the servo gains, auto_step, hold, step threshold and held frequency (R176). -/
  | timeServo (q : CtlQ)
  /-- TIME.SOURCE selects the timebase reference without a step (R177). -/
  | timeSource (q : CtlQ)
  /-- The queue form of CREATE stages a WQ, CQ or EQ with its size, binding, base and mirror (R178). -/
  | qCreate (q : CtlQ)
  /-- The queue form of ENABLE enables a WQ, CQ or EQ after the consistency check (R178). -/
  | qEnable (q : CtlQ)
  /-- The queue form of DISABLE stops a WQ fetching or disables an unbound CQ or EQ (R178). -/
  | qDisable (q : CtlQ)
  /-- The queue form of DESTROY removes a queue (R178). -/
  | qDestroy (q : CtlQ)
  /-- Q.RESET returns a WQ in ERROR to READY, with PI and CI set to the latched index (R179). -/
  | qReset (q : CtlQ)
  /-- INST.RESIZE sets an instance's resource grants in bushels, and a shrink waits for drain (R180). -/
  | instResize (q : CtlQ)
  /-- INST.ATTACH binds a DETACHED or DISABLED instance to a host port, leaving it DISABLED with indices 0 (R181). -/
  | instAttach (q : CtlQ)
  /-- INST.DIRTY_LOG turns dirty-page logging on or off for an instance (R182). -/
  | instDirtyLog (q : CtlQ)
  /-- POOL.SET sets a port's pool of one resource for its port host (R183). -/
  | poolSet (q : CtlQ)
  /-- DEV.POWER_CAP sets or removes the device power cap (R184). -/
  | devPowerCap (q : CtlQ)
  /-- SLOT.CONTROL clears events and drives power and indicators of a downstream slot at commit (R185). -/
  | slotControl (q : CtlQ)
  /-- QUERY writes records for one object, or scans objects of a kind in the issuer's scope (R186). -/
  | query (q : CtlQ)
  /-- SUMMARY captures a state summary record for its scope into a host buffer (R147). -/
  | summary (q : CtlQ)
  /-- ALU func 0x001: rd = ra + rb (R219). -/
  | add (t : Tid) (rd : GReg) (ra : GReg) (rb : GReg)
  /-- ALU func 0x002: rd = ra - rb (R219). -/
  | sub (t : Tid) (rd : GReg) (ra : GReg) (rb : GReg)
  /-- ALU func 0x003: bitwise AND (R219). -/
  | and (t : Tid) (rd : GReg) (ra : GReg) (rb : GReg)
  /-- ALU func 0x004: bitwise OR (R219). -/
  | or (t : Tid) (rd : GReg) (ra : GReg) (rb : GReg)
  /-- ALU func 0x005: bitwise XOR (R219). -/
  | xor (t : Tid) (rd : GReg) (ra : GReg) (rb : GReg)
  /-- ALU func 0x006: rd = ra AND NOT rb (R219). -/
  | andn (t : Tid) (rd : GReg) (ra : GReg) (rb : GReg)
  /-- ALU func 0x007: shift left by rb[5:0] (R219). -/
  | sll (t : Tid) (rd : GReg) (ra : GReg) (rb : GReg)
  /-- ALU func 0x008: logical shift right (R219). -/
  | srl (t : Tid) (rd : GReg) (ra : GReg) (rb : GReg)
  /-- ALU func 0x009: arithmetic shift right (R219). -/
  | sra (t : Tid) (rd : GReg) (ra : GReg) (rb : GReg)
  /-- ALU func 0x00A: rotate right (R219). -/
  | ror (t : Tid) (rd : GReg) (ra : GReg) (rb : GReg)
  /-- ALU func 0x00B: signed set-less-than (R219). -/
  | slt (t : Tid) (rd : GReg) (ra : GReg) (rb : GReg)
  /-- ALU func 0x00C: unsigned set-less-than (R219). -/
  | sltu (t : Tid) (rd : GReg) (ra : GReg) (rb : GReg)
  /-- ALU func 0x00D: signed minimum (R219). -/
  | min (t : Tid) (rd : GReg) (ra : GReg) (rb : GReg)
  /-- ALU func 0x00E: signed maximum (R219). -/
  | max (t : Tid) (rd : GReg) (ra : GReg) (rb : GReg)
  /-- ALU func 0x00F: unsigned minimum (R219). -/
  | minu (t : Tid) (rd : GReg) (ra : GReg) (rb : GReg)
  /-- ALU func 0x010: unsigned maximum (R219). -/
  | maxu (t : Tid) (rd : GReg) (ra : GReg) (rb : GReg)
  /-- ALU func 0x011: rd = ra if rb = 0 (R219). -/
  | cmovz (t : Tid) (rd : GReg) (ra : GReg) (rb : GReg)
  /-- ALU func 0x012: rd = ra if rb is not 0 (R219). -/
  | cmovnz (t : Tid) (rd : GReg) (ra : GReg) (rb : GReg)
  /-- ALU func 0x018: count leading zeros (R219). -/
  | clz (t : Tid) (rd : GReg) (ra : GReg)
  /-- ALU func 0x019: count trailing zeros (R219). -/
  | ctz (t : Tid) (rd : GReg) (ra : GReg)
  /-- ALU func 0x01A: count set bits (R219). -/
  | popc (t : Tid) (rd : GReg) (ra : GReg)
  /-- ALU func 0x01B: reverse the bytes of ra (R219). -/
  | bswap (t : Tid) (rd : GReg) (ra : GReg)
  /-- ALU func 0x01C: sign-extend ra[31:0] (R219). -/
  | sextw (t : Tid) (rd : GReg) (ra : GReg)
  /-- ALUW func 0x001: 32-bit add, sign-extended (R219). -/
  | addw (t : Tid) (rd : GReg) (ra : GReg) (rb : GReg)
  /-- ALUW func 0x002: 32-bit subtract, sign-extended (R219). -/
  | subw (t : Tid) (rd : GReg) (ra : GReg) (rb : GReg)
  /-- ALUW func 0x007: 32-bit shift left (R219). -/
  | sllw (t : Tid) (rd : GReg) (ra : GReg) (rb : GReg)
  /-- ALUW func 0x008: 32-bit logical shift right (R219). -/
  | srlw (t : Tid) (rd : GReg) (ra : GReg) (rb : GReg)
  /-- ALUW func 0x009: 32-bit arithmetic shift right (R219). -/
  | sraw (t : Tid) (rd : GReg) (ra : GReg) (rb : GReg)
  /-- MULDIV func 0x001: low 64 bits of the product (R219). -/
  | mul (t : Tid) (rd : GReg) (ra : GReg) (rb : GReg)
  /-- MULDIV func 0x002: high 64 bits, signed by signed (R219). -/
  | mulh (t : Tid) (rd : GReg) (ra : GReg) (rb : GReg)
  /-- MULDIV func 0x003: high 64 bits, unsigned by unsigned (R219). -/
  | mulhu (t : Tid) (rd : GReg) (ra : GReg) (rb : GReg)
  /-- MULDIV func 0x004: signed quotient, with defined results for zero and overflow (R219). -/
  | div (t : Tid) (rd : GReg) (ra : GReg) (rb : GReg)
  /-- MULDIV func 0x005: unsigned quotient (R219). -/
  | divu (t : Tid) (rd : GReg) (ra : GReg) (rb : GReg)
  /-- MULDIV func 0x006: signed remainder (R219). -/
  | rem (t : Tid) (rd : GReg) (ra : GReg) (rb : GReg)
  /-- MULDIV func 0x007: unsigned remainder (R219). -/
  | remu (t : Tid) (rd : GReg) (ra : GReg) (rb : GReg)
  /-- MULDIV func 0x008: 32-bit product, sign-extended (R219). -/
  | mulw (t : Tid) (rd : GReg) (ra : GReg) (rb : GReg)
  /-- Major 0x04: rd = ra + sext(imm16) (R217). -/
  | addi (t : Tid) (rd : GReg) (ra : GReg) (imm : W16)
  /-- Major 0x05: rd = ra AND zext(imm16) (R217). -/
  | andi (t : Tid) (rd : GReg) (ra : GReg) (imm : W16)
  /-- Major 0x06: rd = ra OR zext(imm16); ORI g0, g0, 0 is the NOP (R217). -/
  | ori (t : Tid) (rd : GReg) (ra : GReg) (imm : W16)
  /-- Major 0x07: rd = ra XOR zext(imm16) (R217). -/
  | xori (t : Tid) (rd : GReg) (ra : GReg) (imm : W16)
  /-- Major 0x08: signed compare with an immediate (R217). -/
  | slti (t : Tid) (rd : GReg) (ra : GReg) (imm : W16)
  /-- Major 0x09: unsigned compare with an immediate (R217). -/
  | sltiu (t : Tid) (rd : GReg) (ra : GReg) (imm : W16)
  /-- SHIFTI with imm16[7:6] = 0: shift left by an immediate (R217). -/
  | slli (t : Tid) (rd : GReg) (ra : GReg) (sh : Fin 64)
  /-- SHIFTI with imm16[7:6] = 1: logical shift right by an immediate (R217). -/
  | srli (t : Tid) (rd : GReg) (ra : GReg) (sh : Fin 64)
  /-- SHIFTI with imm16[7:6] = 2: arithmetic shift right by an immediate (R217). -/
  | srai (t : Tid) (rd : GReg) (ra : GReg) (sh : Fin 64)
  /-- SHIFTI with imm16[7:6] = 3: rotate right by an immediate (R217). -/
  | rori (t : Tid) (rd : GReg) (ra : GReg) (sh : Fin 64)
  /-- Major 0x0B: rd = sext(imm16 << 16) (R217). -/
  | lui (t : Tid) (rd : GReg) (imm : W16)
  /-- Major 0x0C: rd = PC + sext(imm16 << 16) (R217). -/
  | auipc (t : Tid) (rd : GReg) (imm : W16)
  /-- Major 0x0D: 32-bit add of an immediate, sign-extended (R217). -/
  | addiw (t : Tid) (rd : GReg) (ra : GReg) (imm : W16)
  /-- Major 0x0E: jump to ra + sext(imm16) and link, raising MISALIGNED for a bad target (R218). -/
  | jalr (t : Tid) (rd : GReg) (ra : GReg) (imm : W16)
  /-- Major 0x1E: jump by disp21 × 4 and link (R218). -/
  | jal (t : Tid) (rd : GReg) (disp : BitVec 21)
  /-- Branch when ra equals rb (R218). -/
  | beq (t : Tid) (ra : GReg) (rb : GReg) (disp : W16)
  /-- Branch when ra differs from rb (R218). -/
  | bne (t : Tid) (ra : GReg) (rb : GReg) (disp : W16)
  /-- Branch when ra is less than rb, signed (R218). -/
  | blt (t : Tid) (ra : GReg) (rb : GReg) (disp : W16)
  /-- Branch when ra is at least rb, signed (R218). -/
  | bge (t : Tid) (ra : GReg) (rb : GReg) (disp : W16)
  /-- Branch when ra is less than rb, unsigned (R218). -/
  | bltu (t : Tid) (ra : GReg) (rb : GReg) (disp : W16)
  /-- Branch when ra is at least rb, unsigned (R218). -/
  | bgeu (t : Tid) (ra : GReg) (rb : GReg) (disp : W16)
  /-- Major 0x10: load of 1, 2, 4 or 8 bytes, optionally acquire, after the alignment, range, permission and poison checks (R220). -/
  | load (t : Tid) (sz : Sz) (sx : Bool) (acq : Bool) (rd : GReg) (ra : GReg) (disp : BitVec 12)
  /-- Major 0x11: store of 1, 2, 4 or 8 bytes, optionally release, after the same checks (R220). -/
  | store (t : Tid) (sz : Sz) (rel : Bool) (rs : GReg) (ra : GReg) (disp : BitVec 12)
  /-- Atomic aop 0x0: swap rb into memory (R221). -/
  | amoSwap (t : Tid) (o : AmoOrd) (rd : GReg) (ra : GReg) (rb : GReg)
  /-- Atomic aop 0x1: add rb to memory (R221). -/
  | amoAdd (t : Tid) (o : AmoOrd) (rd : GReg) (ra : GReg) (rb : GReg)
  /-- Atomic aop 0x2: AND rb into memory (R221). -/
  | amoAnd (t : Tid) (o : AmoOrd) (rd : GReg) (ra : GReg) (rb : GReg)
  /-- Atomic aop 0x3: OR rb into memory (R221). -/
  | amoOr (t : Tid) (o : AmoOrd) (rd : GReg) (ra : GReg) (rb : GReg)
  /-- Atomic aop 0x4: XOR rb into memory (R221). -/
  | amoXor (t : Tid) (o : AmoOrd) (rd : GReg) (ra : GReg) (rb : GReg)
  /-- Atomic aop 0x5: signed maximum into memory (R221). -/
  | amoMax (t : Tid) (o : AmoOrd) (rd : GReg) (ra : GReg) (rb : GReg)
  /-- Atomic aop 0x6: signed minimum into memory (R221). -/
  | amoMin (t : Tid) (o : AmoOrd) (rd : GReg) (ra : GReg) (rb : GReg)
  /-- Atomic aop 0x7: unsigned maximum into memory (R221). -/
  | amoMaxu (t : Tid) (o : AmoOrd) (rd : GReg) (ra : GReg) (rb : GReg)
  /-- Atomic aop 0x8: unsigned minimum into memory (R221). -/
  | amoMinu (t : Tid) (o : AmoOrd) (rd : GReg) (ra : GReg) (rb : GReg)
  /-- Atomic aop 0x9: compare with rd and swap in rb (R221). -/
  | amoCas (t : Tid) (o : AmoOrd) (rd : GReg) (ra : GReg) (rb : GReg)
  /-- SYS xop 0x0: read a system register (R195). -/
  | srRd (t : Tid) (rd : GReg) (n : BitVec 12)
  /-- SYS xop 0x1: write a system register, effective in program order (R222). -/
  | srWr (t : Tid) (ra : GReg) (n : BitVec 12)
  /-- SYS xop 0x2: raise SYSCALL with the code in ECAUSE.detail (R197). -/
  | syscall (t : Tid) (code : BitVec 12)
  /-- SYS xop 0x3: raise BREAK, or halt the thread when a debugger is attached (R197). -/
  | break_ (t : Tid) (code : BitVec 12)
  /-- SYS xop 0x4: restore priv, clear exc and resume at EPC (R198). -/
  | eret (t : Tid)
  /-- FENCE kind 1: orders earlier loads before later loads (R223). -/
  | fenceLd (t : Tid)
  /-- FENCE kind 2: orders earlier stores before later stores (R223). -/
  | fenceSt (t : Tid)
  /-- FENCE kind 3: orders all earlier accesses before all later ones (R223). -/
  | fenceAll (t : Tid)
  /-- CACHE op 0: removes a line from every core's L1I (R224). -/
  | cacheIinv (t : Tid) (ra : GReg)
  /-- CACHE op 1: hints a line toward the L1D (R224). -/
  | cachePrefetch (t : Tid) (ra : GReg)
  /-- CACHE op 2: writes 64 zero bytes as one store and clears poison (R224). -/
  | cacheZero (t : Tid) (ra : GReg)
  /-- WAIT writes EVMASK and waits for an enabled event or the armed timer (R225). -/
  | wait (t : Tid) (rd : GReg) (ra : GReg) (timer : Bool)
  /-- A thread's timer compare is met or goes out of range while its timer is armed (R247). -/
  | tcmpMet (t : Tid)
  /-- CH.OPEN reserves or returns credits on a channel, or registers the thread when none are free (R227). -/
  | chOpen (t : Tid) (rd : GReg) (ra : GReg) (n : Fin 64)
  /-- CH.PUT writes a word of the thread's staging for a channel (R227). -/
  | chPut (t : Tid) (rs : GReg) (ra : GReg) (w : Fin 8)
  /-- CH.SEND publishes the staged bytes as one message and uses one credit (R228). -/
  | chSend (t : Tid) (rd : GReg) (ra : GReg) (len : Fin 128)
  /-- CH.RECV takes the oldest queued message into the receive buffer and frees a credit (R227). -/
  | chRecv (t : Tid) (rd : GReg) (ra : GReg)
  /-- CH.GET reads a word of the receive buffer (R227). -/
  | chGet (t : Tid) (rd : GReg) (ra : GReg) (w : Fin 8)
  /-- A message arrives in the receiver's half, is queued and raises the channel's rx_event (R253). -/
  | channelMessageQueued (c : ChanId)
  /-- THR.CTL op 0 starts a STOPPED or FAULTED thread at rb with events and channels cleared (R238). -/
  | thrCtlStart (t : Tid) (rd : GReg) (ra : GReg) (rb : GReg)
  /-- THR.CTL op 1 stops a RUNNING or WAITING thread at an instruction boundary (R238). -/
  | thrCtlStop (t : Tid) (rd : GReg) (ra : GReg) (rb : GReg)
  /-- THR.CTL op 2 resumes a stopped thread, or re-issues the instruction at EPC of a FAULTED thread (R238). -/
  | thrCtlResume (t : Tid) (rd : GReg) (ra : GReg) (rb : GReg)
  /-- PKT xop 0x0: big-endian load from the header window (R231). -/
  | hwLd (t : Tid) (sz : Sz) (sx : Bool) (rd : GReg) (ra : GReg) (off : Fin 512)
  /-- PKT xop 0x1: big-endian store into the header window, extending the valid length (R231). -/
  | hwSt (t : Tid) (sz : Sz) (rs : GReg) (ra : GReg) (off : Fin 512)
  /-- PKT xop 0x2: copy n bytes from memory into the window and set the valid length (R232). -/
  | hwFill (t : Tid) (rd : GReg) (ra : GReg) (n : Fin 1024)
  /-- PKT xop 0x3: copy window bytes to memory as byte stores (R232). -/
  | hwSpill (t : Tid) (ra : GReg) (n : Fin 1024)
  /-- PKT xop 0x4: ones-complement sum over window bytes (R233). -/
  | csumHw (t : Tid) (rd : GReg) (ra : GReg) (n : Fin 1024)
  /-- PKT xop 0x5: ones-complement sum of the halves of a register (R233). -/
  | csumReg (t : Tid) (rd : GReg) (ra : GReg)
  /-- PKT xop 0x6: CRC32C update over register bytes (R234). -/
  | crcReg (t : Tid) (sz : Sz) (rd : GReg) (ra : GReg)
  /-- PKT xop 0x7: CRC32C update over window bytes (R234). -/
  | crcHw (t : Tid) (rd : GReg) (ra : GReg) (n : Fin 1024)
  /-- PKT xop 0x8: bit-field extract, zero-extended (R235). -/
  | bfx (t : Tid) (rd : GReg) (ra : GReg) (pos : Fin 64) (wm1 : Fin 64)
  /-- PKT xop 0x9: bit-field extract, sign-extended (R235). -/
  | bfxs (t : Tid) (rd : GReg) (ra : GReg) (pos : Fin 64) (wm1 : Fin 64)
  /-- PKT xop 0xA: bit-field insert (R235). -/
  | bfi (t : Tid) (rd : GReg) (ra : GReg) (pos : Fin 64) (wm1 : Fin 64)
  /-- PKT xop 0xB: one flow-hash step (R236). -/
  | fhash (t : Tid) (rd : GReg) (ra : GReg) (rb : GReg)
  /-- PKT xop 0xC: rd = the valid length of the window (R230). -/
  | hwLen (t : Tid) (rd : GReg)
  /-- An unlisted or malformed instruction word raises ILLEGAL_INSTR with no other effect (R216). -/
  | illegalInstruction (t : Tid) (word : W32)
  /-- A residue mismatch discards the thread's uncommitted instructions and re-issues them (R209). -/
  | residueReplay (t : Tid) (path : Fin 3) (recurs : Bool) (ns : W32)
  /-- One thread of a permanently faulty core moves to a spare core, or all its threads stop FAULTED when no spare remains (R210). -/
  | threadSpareMove (t : Tid) (ns : W32)
  /-- A write of TMODE.mode requests a change between Galliard and Pavane mode (R244). -/
  | tmodeWrite (t : Tid) (pavane : Bool)
  /-- The mode change takes effect at the first qualifying round, within 1 µs (R244). -/
  | tmodeSwitch (c : CoreId)
  /-- A write of THR_SIGNAL latches SOFT events in the target thread (R245). -/
  | thrSignalWrite (who : Who) (t : Tid) (v : W64)
  /-- A write of CH_CFG configures a disabled channel, or enabling or disabling it discards messages and credits (R254). -/
  | chCfgWrite (who : Who) (c : ChanId) (v : W64)
  /-- A write of FQ_BASE sets the fault ring, and enabling it writes the waiting records in order (R256). -/
  | fqBaseWrite (who : Who) (h : Half) (v : W64)
  /-- A write of FQ_CI consumes fault records, and is ignored if it would pass FQ_PI (R256). -/
  | fqCiWrite (who : Who) (h : Half) (v : W64)
  /-- A write of SUP names the supervisor thread of a half (R257). -/
  | supWrite (who : Who) (h : Half) (v : W64)
  /-- A write of THR_GROUP changes a thread's event-group membership and restarts the deadlock measure (R259). -/
  | thrGroupWrite (who : Who) (t : Tid) (v : W64)
  /-- A write of GRP_CTRL enables a group or acknowledges a raise (R260). -/
  | grpCtrlWrite (who : Who) (g : Fin 64) (v : W64)
  /-- A group whose members have all waited unbroken for 1 µs raises DEADLOCK, freezes a snapshot and writes a record (R260). -/
  | deadlockRaise (g : Fin 64)
  /-- DEBUG op HALT stops a thread in HALTED, keeping its earlier state (R261). -/
  | debugHalt (via : Transport) (tag : W32) (t : Tid)
  /-- DEBUG op GO returns a halted thread to its kept state (R261). -/
  | debugGo (via : Transport) (tag : W32) (t : Tid)
  /-- DEBUG op STEP issues one instruction of a halted thread (R261). -/
  | debugStep (via : Transport) (tag : W32) (t : Tid) (word : W32)
  /-- DEBUG op READ reads registers, window, staging or buffers of a halted thread (R261). -/
  | debugRead (via : Transport) (tag : W32) (t : Tid) (item : DbgItem)
  /-- DEBUG op WRITE writes registers or PC of a halted thread (R261). -/
  | debugWrite (via : Transport) (tag : W32) (t : Tid) (item : DbgItem) (v : W64)
  /-- DEBUG op CHANNEL_CANCEL discards a halted thread's staging and returns its credits on a channel (R261). -/
  | debugChannelCancel (via : Transport) (tag : W32) (t : Tid) (c : ChanId)
  /-- DEBUG op ATTACH makes BREAK halt the thread (R478). -/
  | debugAttach (via : Transport) (tag : W32) (t : Tid)
  /-- DEBUG op DETACH makes BREAK an exception again (R478). -/
  | debugDetach (via : Transport) (tag : W32) (t : Tid)
  /-- An Ethernet link comes up or goes down, and a PORT_LINK event is written (R312). -/
  | linkStateChange (l : LaneId) (st : Fin 6) (autoneg : Bool) (localFault : Bool) (remoteFault : Bool)
  /-- No negotiation page arrives within 500 ms and the port goes on in forced mode (R312). -/
  | autonegTimeout (l : LaneId)
  /-- A port in DOWN retries bring-up every 1 s (R317). -/
  | linkRetry (l : LaneId)
  /-- A debounced change of DS_PRSNT_N sets presence_changed, and a removal under power performs power off (R324). -/
  | dsPresenceChange (d : DspId) (present : Bool)
  /-- The attention button is pressed and debounced, setting button and writing a SLOT_EVENT (R323). -/
  | dsAttnButton (d : DspId)
  /-- dll_active of a downstream link changes, setting dll_changed and writing a SLOT_EVENT (R323). -/
  | dsDllChange (d : DspId) (up : Bool) (speed : BitVec 3) (width : BitVec 3)
  /-- 100 ms after power on, DS_PERST_N is released (R324). -/
  | dsPerstRelease (d : DspId)
  /-- A firmware write of DSP_SLOT clears events or drives power and indicators of a slot (R323). -/
  | dspSlotWrite (who : Who) (d : DspId) (v : W64)
  /-- A write of DSP_LINK.retrain retrains the downstream link (R320). -/
  | dspRetrain (who : Who) (d : DspId)
  /-- A firmware configuration access to a downstream port is forwarded, retried on RRS up to 1 s, or returns all ones (R321). -/
  | dspConfigAccess (d : DspId) (off : BitVec 28) (write : Option W32) (resp : CfgResp)
  /-- A downstream MSI write sets DSP_MSI_PEND and latches the routed UNIT event (R322). -/
  | dsMsiWrite (d : DspId) (v : Fin 64)
  /-- A downstream memory request reaches HBM coherently, or completes with Unsupported Request (R322). -/
  | dsMemoryRequest (d : DspId) (req : DsReq)
  /-- An offset sample is handled by the servo: slew, auto step, or a step request (R330). -/
  | servoSample (o : W64)
  /-- A 1PPS edge is measured against the timebase and fed to the servo as a sample (R329). -/
  | ppsEdge
  /-- The reference is lost; the servo enters HOLDOVER and a TIME_SOURCE event is written (R331). -/
  | timeSourceLost (ref : Bool)
  /-- The reference returns; the servo enters ACQUIRING and writes TIME_SOURCE (R331). -/
  | timeSourceRegained
  /-- A write of TS_POP removes the oldest transmit timestamp record (R336). -/
  | tsPop (who : Who) (l : LaneId)
  /-- The timebase reaches the launch time of a launch-queue head, and the frame is sent before any class queue (R342). -/
  | launchDue (l : LaneId) (tc : Fin 8)
  /-- A LOCK write with acquire requests a lookaside unit for the instance (R357). -/
  | lockAcquire (h : PortId) (inst : InstId) (u : UnitId)
  /-- A LOCK write with release starts the release of a held unit (R358). -/
  | lockRelease (h : PortId) (inst : InstId) (u : UnitId)
  /-- System firmware acquires a lookaside unit for an instance through LU_LOCK (R357). -/
  | luLockAcquire (t : Tid) (inst : InstId) (u : UnitId)
  /-- System firmware releases a lookaside unit for an instance through LU_LOCK (R357). -/
  | luLockRelease (t : Tid) (inst : InstId) (u : UnitId)
  /-- The jobs fetched before the release have completed and the unit becomes FREE (R358). -/
  | lockReleaseComplete (u : UnitId)
  /-- A CIPHER ENCRYPT job starts on its unit, takes an invocation and writes ciphertext and tag (R363). -/
  | cipherEncrypt (inst : InstId) (q : Fin 64) (aad : Ans) (src : Ans) (tag : Ans)
  /-- A CIPHER DECRYPT job decrypts, holding GCM output until the tag verifies (R363). -/
  | cipherDecrypt (inst : InstId) (q : Fin 64) (aad : Ans) (src : Ans) (tag : Ans)
  /-- A CIPHER VERIFY job checks a tag and writes no plaintext (R361). -/
  | cipherVerify (inst : InstId) (q : Fin 64) (aad : Ans) (src : Ans) (tag : Ans)
  /-- A CIPHER TAG job computes a tag, taking an invocation (R361). -/
  | cipherTag (inst : InstId) (q : Fin 64) (aad : Ans) (src : Ans) (tag : Ans)
  /-- A lookaside job finishes and completes with its outcome status (R363). -/
  | cipherJobDone (u : UnitId) (out : Ans)
  /-- A lookaside unit faults, is FENCED, and its job completes with 0x0701 with its lock ended (R360). -/
  | lookasideUnitFault (u : UnitId) (ns : W32)
  /-- An inline unit faults; its work moves to a spare and held packets are re-issued (R483). -/
  | cipherInlineFault (p : PipeId) (u : Fin 32) (ns : W32)
  /-- A break of the lid tamper mesh raises an alarm that wipes all keys (R368). -/
  | tamperBreak
  /-- A glitch on the key-store rail or in the crystal raises an alarm (R499). -/
  | glitchDetect
  /-- An uncorrectable key-store error raises an alarm (R481). -/
  | keyStoreError (ns : W32)
  /-- An RMT_SEND WRITE work request is checked at fetch and joins its QP's send list (R400). -/
  | wrWrite (inst : InstId) (q : Fin 64)
  /-- An RMT_SEND WRITE_IMM work request is checked and joins the send list (R400). -/
  | wrWriteImm (inst : InstId) (q : Fin 64)
  /-- An RMT_SEND READ work request is checked and joins the send list (R400). -/
  | wrRead (inst : InstId) (q : Fin 64)
  /-- An RMT_SEND SEND work request is checked and joins the send list (R400). -/
  | wrSend (inst : InstId) (q : Fin 64)
  /-- An RMT_SEND FETCH_ADD work request is checked and joins the send list (R400). -/
  | wrFetchAdd (inst : InstId) (q : Fin 64)
  /-- An RMT_SEND CMP_SWAP work request is checked and joins the send list (R400). -/
  | wrCmpSwap (inst : InstId) (q : Fin 64)
  /-- A triggered RMT_SEND entry is checked and posted against its trigger counter (R410). -/
  | triggeredPost (inst : InstId) (q : Fin 64)
  /-- A PKT_SEND entry sends a frame into the host ingress pipeline with its meta, tc and timestamp or launch settings (R268). -/
  | pktSend (inst : InstId) (q : Fin 64) (src : Ans)
  /-- A fetched PKT_RECV entry posts a receive buffer for packet delivery (R286). -/
  | pktRecv (inst : InstId) (q : Fin 64)
  /-- A fetched RMT_RECV entry posts a receive buffer for SEND messages (R404). -/
  | rmtRecv (inst : InstId) (q : Fin 64)
  /-- The head of a QP's send list becomes a message with the next msn, once the outstanding limits and a path allow (R401). -/
  | messageStart (qpn : BitVec 24) (src : List SrcRead)
  /-- A received WRITE request is classified against the window, admitted or placed, and acknowledged (R380). -/
  | rmtWrite (h : Half) (ans : Ans)
  /-- A received WRITE_IMM request is admitted or placed, and its completion and counter increment follow the full byte count (R381). -/
  | rmtWriteImm (h : Half) (ans : Ans)
  /-- A received SEND request is admitted to a reserved buffer or refused with RNR, then placed (R380). -/
  | rmtSend (h : Half) (ans : Ans)
  /-- A received READ_REQ is admitted and answered with READ_RESP packets (R383). -/
  | rmtReadReq (h : Half) (ans : Ans)
  /-- A received FETCH_ADD is performed once and answered from the atomic cache (R384). -/
  | rmtFetchAdd (h : Half) (ans : Ans)
  /-- A received CMP_SWAP is performed once and answered from the atomic cache (R384). -/
  | rmtCmpSwap (h : Half) (ans : Ans)
  /-- A READ_RESP arrives at the requester and its bytes are written to local_addr (R388). -/
  | rmtReadResp (h : Half) (ans : Ans) (src : List SrcRead)
  /-- An ATOMIC_RESP arrives and ends the atomic with its old value (R388). -/
  | rmtAtomicResp (h : Half) (ans : Ans) (src : List SrcRead)
  /-- An ACK arrives, updates paths and congestion, and ends the message when done is set (R388). -/
  | rmtAck (h : Half) (src : List SrcRead)
  /-- A NAK arrives and ends the message with a final status or triggers retransmission (R386). -/
  | rmtNak (h : Half) (src : List SrcRead)
  /-- A unit's retransmit timer expires; it is lost, resent and the path moves toward SUSPECT or FAILED (R387). -/
  | retxTimeout (qpn : BitVec 24) (msn : BitVec 24) (off : W32) (src : List SrcRead)
  /-- The RNR hold of a message ends and its unanswered packets are sent again (R389). -/
  | rnrHoldExpire (qpn : BitVec 24) (msn : BitVec 24) (src : List SrcRead)
  /-- A tracker not ended within msg_timeout_ms is abandoned and a NAK RESTART is sent (R382). -/
  | trackerAbandon (qpn : BitVec 24) (msn : BitVec 24)
  /-- 1 ms after a path fails, its re-roll count grows and it becomes SUSPECT with a new source port (R391). -/
  | pathReroll (qpn : BitVec 24) (path : Fin 64)
  /-- A write of TRIG_ADD adds an amount to one of the instance's trigger counters (R413). -/
  | trigAdd (h : PortId) (inst : InstId) (v : W32)
  /-- A write of DMA_CH_KICK sets kick_pending and wakes an IDLE channel (R422). -/
  | dmaChKick (who : Who) (h : PortId) (c : DmaCh) (v : W32)
  /-- A write of DMA_CH_CTRL.enable starts a channel or takes it out of use (R422). -/
  | dmaChEnable (who : Who) (h : PortId) (c : DmaCh) (enable : Bool)
  /-- Setting or clearing DMA_CH_CTRL.pause pauses or resumes a channel (R427). -/
  | dmaChPause (who : Who) (h : PortId) (c : DmaCh) (pause : Bool)
  /-- A PAUSING channel has issued the writes of the data already read and becomes PAUSED (R427). -/
  | dmaPauseDrained (h : PortId) (c : DmaCh)
  /-- A write of abort completes the descriptor in hand of a HALTED or PAUSED channel with an error status (R432). -/
  | dmaChAbort (who : Who) (h : PortId) (c : DmaCh)
  /-- A write of DMA_ENG_CTRL.restart returns a HALTED engine and its channels to their states at the stop (R432). -/
  | dmaRestart (who : Who) (h : PortId)
  /-- A write of DMA_CH_SHADOW.shadow_arm arms or cancels a hand-over, immediately for an idle channel (R428). -/
  | dmaShadowArm (who : Who) (h : PortId) (c : DmaCh) (arm : Bool)
  /-- A descriptor read returns and is used, dropped, or ends in IDLE at an end mark (R422). -/
  | dmaDescRead (h : PortId) (c : DmaCh) (ans : DmaAns)
  /-- The engine issues a read burst for the highest-priority ready channel (R424). -/
  | dmaBurstIssue (h : PortId)
  /-- A burst's read data returns and is written to its destination, advancing the channel registers (R424). -/
  | dmaBurstData (h : PortId) (c : DmaCh) (ans : DmaAns)
  /-- A descriptor's writes are issued, or have arrived with barrier set, and its bytes 20-23 are written back (R421). -/
  | dmaDescComplete (h : PortId) (c : DmaCh)
  /-- A failed read or a fabric error stops the whole engine in HALTING (R430). -/
  | dmaBusErrorStop (h : PortId) (c : StopCause) (addr : W64) (write : Bool) (sys : Bool)
  /-- All outstanding reads have ended; the engine is HALTED and writes an event and an error record (R431). -/
  | dmaHalted (h : PortId)
  /-- A page-table entry read returns and the walk continues, ends with a translation, or faults (R438). -/
  | translationWalk (inst : InstId) (va : W64) (read : Bool) (write : Bool) (e : WalkRead)
  /-- A dirty-log record is written for a changed page after its writes are visible (R446). -/
  | dirtyRecordWrite (inst : InstId)
  /-- While the dirty ring appears full, CI is read every 2 µs and held writes resume when room appears (R447). -/
  | dirtyCiPoll (inst : InstId) (ci : W32)
  /-- A returned device-memory bushel finishes zeroing and becomes free in the pool (R443). -/
  | devmemZeroDone (h : Half) (k : Fin 8192)
  /-- MSS command 0x0001 returns identity, versions, straps and state (R454). -/
  | getInfo (via : Transport) (tag : W32) (body : List Byte)
  /-- MSS command 0x0002 returns the next part of a long response (R456). -/
  | getMore (via : Transport) (tag : W32) (body : List Byte)
  /-- MSS command 0x0003 returns a range of sensor readings (R464). -/
  | sensorRead (via : Transport) (tag : W32) (body : List Byte)
  /-- MSS command 0x0004 returns the reduced summary from the MSS's own copy (R466). -/
  | summaryReduced (via : Transport) (tag : W32) (body : List Byte)
  /-- MSS command 0x0010 returns Reel records from a sequence number (R468). -/
  | logRead (via : Transport) (tag : W32) (body : List Byte)
  /-- MSS command 0x0011 seals the Reel now (R470). -/
  | logSeal (via : Transport) (tag : W32) (body : List Byte)
  /-- MSS command 0x0012 returns one seal slot (R469). -/
  | sealRead (via : Transport) (tag : W32) (body : List Byte)
  /-- RESET scope 0 performs an FLR of one function (R461). -/
  | resetFunction (via : Transport) (tag : W32) (body : List Byte)
  /-- RESET scope 1 acts as PERST# of one host port (R461). -/
  | resetPort (via : Transport) (tag : W32) (body : List Byte)
  /-- RESET scope 2 withdraws one half's meeting points and resets it, while the other half keeps serving (R23). -/
  | resetHalf (via : Transport) (tag : W32) (body : List Byte)
  /-- RESET scope 3 withdraws the meeting points in reverse order and restarts from meeting point 1 or from a download (R22). -/
  | resetDevice (via : Transport) (tag : W32) (body : List Byte) (pin : Bool)
  /-- MSS command 0x0021 withdraws the meeting points and removes power from the halves and HBM (R463). -/
  | powerOff (via : Transport) (tag : W32) (body : List Byte)
  /-- MSS command 0x0022 restarts start-up from step 3 of power-up unless a sensor is too hot (R463). -/
  | powerOn (via : Transport) (tag : W32) (body : List Byte)
  /-- JIG command with operand 1 resets the device into Jig mode (R99). -/
  | jigEnter (via : Transport) (tag : W32) (body : List Byte)
  /-- JIG command with operand 0 leaves Jig mode (R99). -/
  | jigExit (via : Transport) (tag : W32) (body : List Byte)
  /-- MSS command 0x0030 raises the MSS-command alarm (R368). -/
  | keyErase (via : Transport) (tag : W32) (body : List Byte)
  /-- MSS command 0x0031 re-arms the key store when no alarm source holds (R476). -/
  | keyRearm (via : Transport) (tag : W32) (body : List Byte)
  /-- MSS command 0x0032 generates an ML-KEM key pair and returns the signed encapsulation key (R477). -/
  | importOpen (via : Transport) (tag : W32) (body : List Byte)
  /-- MSS command 0x0033 decapsulates the ciphertext and sets the device import key (R477). -/
  | importSet (via : Transport) (tag : W32) (body : List Byte)
  /-- The decapsulation key is wiped 60 s after IMPORT_OPEN (R477). -/
  | importExchangeTimeout
  /-- SET of OWNER_PORT moves owner authority, device events and the DMA block to the named port (R460). -/
  | setOwnerPort (via : Transport) (tag : W32) (body : List Byte)
  /-- SET of WIDTH records the x8 or x16 mode of each port pair for the next device reset (R458). -/
  | setWidth (via : Transport) (tag : W32) (body : List Byte)
  /-- SET of MARGIN sets the adaptive-voltage margin (R458). -/
  | setMargin (via : Transport) (tag : W32) (body : List Byte)
  /-- SET of SUPERVISOR names a half's supervisor thread (R458). -/
  | setSupervisor (via : Transport) (tag : W32) (body : List Byte)
  /-- SET of MGMT_ADDR sets or unsets the management-port address (R459). -/
  | setMgmtAddr (via : Transport) (tag : W32) (body : List Byte)
  /-- MSS command 0x0050 writes bytes of an MSS image into the bank that is not running (R472). -/
  | mssWrite (via : Transport) (tag : W32) (body : List Byte)
  /-- MSS command 0x0051 verifies the other bank and restarts into it as trial (R472). -/
  | mssSwitch (via : Transport) (tag : W32) (body : List Byte)
  /-- MSS command 0x0052 makes the trial bank active and raises the MSS minimum security_version (R473). -/
  | mssConfirm (via : Transport) (tag : W32) (body : List Byte)
  /-- A trial bank not confirmed within 60 s is abandoned and the MSS restarts into the active bank (R473). -/
  | mssTrialTimeout
  /-- MSS command 0x0060 returns a signed quote over the nonce (R475). -/
  | attest (via : Transport) (tag : W32) (body : List Byte)
  /-- MSS command 0x0061 returns the certificate chain (R474). -/
  | getCert (via : Transport) (tag : W32) (body : List Byte)
  /-- MSS command 0x0080 acts as BOOT_LOAD_CTRL.activate (R97). -/
  | activate (via : Transport) (tag : W32) (body : List Byte)
  /-- An ARP request reaches the management port and is answered only when an address is set (R459). -/
  | mgmtArpRequest (target : W32)
  /-- The MSS watchdog restarts the MSS from its ROM and in-flight mailbox requests end LOST (R471). -/
  | mssRestart
  /-- The MSS returns from a restart and writes an MSS_RESTART record and event (R471). -/
  | mssReturn
  /-- Every 4,096 records or 60 s with records written, a SEAL record is written and its signing begins (R470). -/
  | reelSeal
  /-- The seal's signature is written to its seal slot within 2 s (R469). -/
  | reelSealComplete (k : Fin 512)
  /-- A comparator trips at a trip threshold, withdraws the meeting points, removes power and raises the alarm (R462). -/
  | thermalTrip (n : Fin 36) (v : W16)
  /-- The adaptive-voltage loop updates one domain's supply by at most 5 mV every 10 µs (R47). -/
  | avsLoopUpdate (d : Fin 8) (rates : List W16) (inputW : W16)
  /-- A monitor stays below its floor reading for 10 µs, setting floor_miss and writing an event and a record (R45). -/
  | floorMiss (n : Fin 96)
  /-- Input power stays above the cap for 10 ms with every domain at its setpoint, setting cap_unmet (R48). -/
  | capUnmet
  /-- A scrubber reads and corrects an array region on its scrub period (R482). -/
  | scrubPass (a : StructCode) (addr : W64) (n : Fin 1025)
  /-- An array error is corrected inline and counted, with predictive sparing beyond 1,000 per second (R481). -/
  | arrayErrorCorrected (a : StructCode) (h : Half) (unit : W16) (sub : W16) (addr : W64)
  /-- An uncorrectable array error is handled by refetch, poison, rebuild or sparing per structure (R481). -/
  | arrayErrorUncorrectable (e : ArrayErr) (ns : W32)
  /-- A pipeline lane faults, is fenced, and its packets are replayed from the Hogshead ingress copy (R483). -/
  | pipeLaneFault (p : PipeId) (lane : Fin 4) (ns : W32)
  /-- A fenced lane's self-test ends and the lane returns to service or stays fenced (R483). -/
  | laneSelftestDone (p : PipeId) (lane : Fin 4) (ok : Bool)
  /-- A stage table bank fails; a spare is assigned and lookups are served from the HBM shadow (R483). -/
  | tableBankFault (p : PipeId) (ternary : Bool) (bank : Fin 32) (ns : W32)
  /-- The spare bank has been rebuilt from the shadow and serves the bank (R483). -/
  | bankRebuildDone (p : PipeId) (ternary : Bool) (ns : W32)
  /-- A Hogshead bank fails and is spared or retired (R485). -/
  | hogsheadBankFault (h : Half) (bank : Fin 48) (ns : W32)
  /-- A power phase fails and is shed (R481). -/
  | powerPhaseLoss (h : Half) (rail : Fin 16) (phase : Fin 64) (ns : W32)
  /-- A half-fatal fault makes the MSS reset that half without a request (R491). -/
  | halfFatalFault (h : Half) (rail : Bool) (ns : W32)
  /-- VIN stays below 8.0 V for 1 µs; keys are wiped and all power is removed in sequence (R497). -/
  | vinLockout
  /-- VIN stays above 63 V for 1 µs, raising an alarm and powering off (R499). -/
  | vinOvervoltage
  /-- VIN crosses 8.5 V falling or 8.7 V rising and PWR_WARN is released or driven low (R496). -/
  | pwrWarnChange (driven : Bool)
  /-- The key-store rail leaves ±10 % of nominal for 100 ns and raises an alarm (R499). -/
  | keyRailExcursion
  /-- The management die falls below -25 °C and raises an alarm (R499). -/
  | mssDieCold
  /-- The 25 MHz crystal is absent or off frequency; an alarm is raised and the MSS runs on its internal oscillator (R499). -/
  | crystalLoss
  /-- A host, Ethernet or downstream reference clock is lost or returns, with the effects on links that follow (R505). -/
  | refclkLoss (r : ClkRef) (lost : Bool)
  /-- A host link leaves L1 or an L1 substate, within 4 µs, or within 44 µs of CLKREQ# assertion for L1.2 (R74). -/
  | linkL1Exit (h : PortId)
  /-- A function enters D3hot and behaves as if Bus Master Enable were 0, or returns to D0 and resumes, writing F0 events held under R514 (R78). -/
  | d3hotChange (h : PortId) (f1 : Bool) (v : Bool)
  /-- A sensor reading crosses its warn level, setting or clearing SENS[n].warn and, for junction sensors, SPD_STATUS.hot and the end of the floor guarantee (R467). -/
  | sensorWarnChange (n : Fin 41) (v : W16)
  /-- PPS_OUT rises when TB_NSEC carries to 0 and falls 100 ms later (R331). -/
  | ppsOutEdge
  /-- A read of TB_NSEC, or a 64-bit read at +0x0000, latches TB_GRAIN and TB_SEC of the same instant for the reader (R328). -/
  | tbNsecRead (who : Who) (wide : Bool)
  /-- An ERR_COR, ERR_NONFATAL or ERR_FATAL message from a downstream device is received and counted in DSP_ERR.err_msg (R322). -/
  | dsErrMessage (d : DspId)
  deriving DecidableEq, Repr

end Sys2Proof
end

