-- ==== Sys2Proof/Decode.lean ====
section
/-! DEFINITION. The command that a word spells. The opcode table gives no row any bits: the commands of this block are
not encoded, so no word spells one. -/

namespace Sys2Proof

/-- No row of the table has bits, so there is nothing to read. -/
def decodeTableWord (_nbits _w : Nat) : Option Instr := none

end Sys2Proof
end

