-- ==== Sys2Proof/Config.lean ====
section
/-! DEFINITION. What the spec leaves open, as constants with no body: free values, and the outputs of standards the
spec only names. Nothing in Lean can evaluate them, so a statement that holds of them holds of every value. -/

namespace Sys2Proof.Config
open Sys2Proof

/-- The free value drawn at count `n` of `Blk.fresh`: every value the spec calls undefined or does not state (R6). -/
opaque freeBits : Nat → W64

/-- The two hashes that choose a key's buckets in the learning table (R300: fixed, not documented). -/
opaque learnHash : Nat → Nat → Nat

/-- SHA-256 (FIPS 180-4), named by R469 and R475. -/
opaque sha256 : List Byte → BitVec 256

/-- AES-256 key unwrap with padding (RFC 5649), named by R170: wrapping key, wrapped bytes; `none` where it fails. -/
opaque unwrap : List Byte → List Byte → Option (List Byte)

/-- AES-GCM in counter mode (NIST SP 800-38D): key, IV, data. Encryption and decryption are the same. -/
opaque gcmStream : List Byte → List Byte → List Byte → List Byte

/-- The 16-byte tag of AES-GCM: key, IV, authenticated data, ciphertext. -/
opaque gcmTag : List Byte → List Byte → List Byte → List Byte → List Byte

/-- AES-XTS-256 (IEEE 1619): encrypt, key, data unit number, data. -/
opaque xts : Bool → List Byte → List Byte → List Byte → List Byte

/-- The 16-byte AES-CMAC (NIST SP 800-38B): key, data. -/
opaque cmac : List Byte → List Byte → List Byte

/-- The 40 body bytes of a Reel record of a type whose body the spec lists without a layout (R468): type, fields. -/
opaque reelBody : Nat → List Nat → List Byte

/-- SLH-DSA verification under image signing key `k` of the four (R91): message, signature. -/
opaque imageSigOk : Nat → List Byte → List Byte → Bool

/-- The 8-byte identifier of image signing key `k` of the module, 0 to 3 (R91, R474). -/
opaque imageKeyId : Nat → List Byte

/-- Image signing key `k` of the module has been revoked (R91, R474). -/
opaque imageKeyRevoked : Nat → Bool

/-- SLH-DSA signature by the identity key (`false`) or the attestation key (`true`) of the module (R469, R475). -/
opaque sign : Bool → List Byte → List Byte

/-- The key pair that ML-KEM-768 generates at draw `n`: encapsulation key, decapsulation key (R477). -/
opaque kemPair : Nat → List Byte × List Byte

/-- The shared secret ML-KEM-768 decapsulates: decapsulation key, ciphertext (R477). -/
opaque kemSecret : List Byte → List Byte → List Byte

/-- The module's serial number (R56), and its management-port MAC address (R459). -/
opaque serial : W64
opaque mgmtMac : List Byte

/-- The Device Description Table (R67): version of a capability, whether it is enabled on a port, length of a region. -/
opaque capVersion : Nat → BitVec 8
opaque capEnabled : Nat → Nat → Bool
opaque regionLen : Nat → W64

/-- The certificates of the module as DER, root, identity, attestation (R474). -/
opaque certs : List Byte

/-- The body of a response whose layout the spec does not give: command, fields (R454). -/
opaque mssBody : Nat → List Nat → List Byte

/-- Transport settings of a QP that QP.TUNE has not set: R168 states no default. -/
opaque untuned : Nat → Nat

/-- The HBM table slot that holds the entry of a key: pipeline, table, key bytes (R292, R293: not stated). -/
opaque hbmSlot : Nat → Nat → List Byte → Nat

/-- Nominal and maximum supply of voltage domain `d`, in mV (R47: not stated). -/
opaque nominalMv : Nat → Nat
opaque maxMv : Nat → Nat

end Sys2Proof.Config
end

