-- ==== Sys2Proof/Machine/Bytes.lean ====
section
/-! DEFINITION. Byte order, bit fields, saturating counters and the CRC32C: the small helpers of every meaning. -/

namespace Sys2Proof.Machine
open Sys2Proof

/-- Saturating increment of a 64-bit counter by `n`. -/
def sat64 (x n : Nat) : Nat := min (x + n) (2 ^ 64 - 1)

/-- Saturating increment of a 32-bit counter by `n`. -/
def sat32 (x n : Nat) : Nat := min (x + n) (2 ^ 32 - 1)

/-- `1` for true, `0` for false, as a field of width `w`. -/
def bit (w : Nat) (b : Bool) : BitVec w := if b then 1#w else 0#w

/-- Bits `[lo + n - 1 : lo]` of a word as a number. -/
def fieldNat {w : Nat} (x : BitVec w) (lo n : Nat) : Nat := x.toNat / 2 ^ lo % 2 ^ n

/-- Place the number `v` at bit `lo` of a 64-bit word. -/
def at64 (v lo : Nat) : W64 := BitVec.ofNat 64 (v * 2 ^ lo)

/-- The bytes of a number, `n` of them, least significant first (R2). -/
def bytesLE : Nat → Nat → List Byte
  | 0, _ => []
  | n + 1, v => BitVec.ofNat 8 v :: bytesLE n (v / 256)

/-- The number a list of bytes spells, least significant first (R2). -/
def natLE : List Byte → Nat
  | [] => 0
  | b :: r => b.toNat + 256 * natLE r

/-- The number a list of bytes spells, most significant first: wire fields (R2). -/
def natBE (l : List Byte) : Nat := l.foldl (fun a b => a * 256 + b.toNat) 0

/-- The bytes of a number, `n` of them, most significant first (R2). -/
def bytesBE (n v : Nat) : List Byte := (bytesLE n v).reverse

/-- Ceiling of a division. -/
def ceilDiv (a b : Nat) : Nat := (a + b - 1) / b

/-- Byte `i` of a list, 0 beyond its end. -/
def byteAt (l : List Byte) (i : Nat) : Byte := l.getD i 0

/-- `n` bytes of a list from offset `i`; bytes beyond the end read 0. -/
def slice (l : List Byte) (i n : Nat) : List Byte := (List.range n).map (fun k => byteAt l (i + k))

/-- The little-endian number in `n` bytes from offset `i` (R2). -/
def leAt (l : List Byte) (i n : Nat) : Nat := natLE (slice l i n)

/-- The big-endian number in `n` bytes from offset `i`: a wire field (R2). -/
def beAt (l : List Byte) (i n : Nat) : Nat := natBE (slice l i n)

/-- Every byte from offset `i`, `n` of them, is 0 (R8). -/
def zeroAt (l : List Byte) (i n : Nat) : Bool := (slice l i n).all (· == 0)

/-- Write bytes `v` into a list from offset `i`; a byte that falls beyond the end is discarded. -/
def spliceAt (l : List Byte) (i : Nat) (v : List Byte) : List Byte :=
  l.mapIdx (fun k b => if i ≤ k ∧ k < i + v.length then byteAt v (k - i) else b)

/-- Byte `k` of a 64-byte entry. -/
def ent (e : W512) (k n : Nat) : Nat := e.toNat / 2 ^ (8 * k) % 2 ^ (8 * n)

/-- Bits [lo + n - 1 : lo] of a number. -/
def bits (x lo n : Nat) : Nat := x / 2 ^ lo % 2 ^ n

/-- Bit `i` of a number. -/
def bitOf (x i : Nat) : Bool := x / 2 ^ i % 2 == 1

/-- A list of at most 64 bytes as an entry. -/
def entOf (l : List Byte) : W512 := BitVec.ofNat 512 (natLE l)

/-- A number read as a signed one of `w` bits. -/
def signed (w x : Nat) : Int := if x % 2 ^ w < 2 ^ (w - 1) then (x % 2 ^ w : Nat) else (x % 2 ^ w : Nat) - (2 ^ w : Nat)

/-- A signed number as `w` bits, two's complement. -/
def unsigned (w : Nat) (x : Int) : Nat := (x % (2 ^ w : Nat)).toNat

/-- One bit step of the reflected CRC32C (polynomial 0x1EDC_6F41, R234). -/
def crcBit (c : W32) : W32 := if c.getLsbD 0 then (c >>> 1) ^^^ 0x82F63B78#32 else c >>> 1

/-- CRC32C update over one byte. -/
def crcByte (c : W32) (b : Byte) : W32 :=
  crcBit (crcBit (crcBit (crcBit (crcBit (crcBit (crcBit (crcBit (c ^^^ b.setWidth 32))))))))

/-- CRC32C update over bytes, without the initial value and the final XOR (R234). -/
def crcUpd (c : W32) (l : List Byte) : W32 := l.foldl crcByte c

/-- CRC32C of a list of bytes, initial value and final XOR 0xFFFF_FFFF. -/
def crc32c (l : List Byte) : W32 := crcUpd 0xFFFFFFFF#32 l ^^^ 0xFFFFFFFF#32

/-- One bit of the CRC-32 of IEEE 802.3. -/
def fcsBit (c : W32) : W32 := if c.getLsbD 0 then (c >>> 1) ^^^ 0xEDB88320#32 else c >>> 1

/-- FCS of a frame: the CRC-32 of IEEE 802.3, as its four bytes are sent (R314). -/
def fcsOf (l : List Byte) : List Byte :=
  bytesLE 4 ((l.foldl (fun c v => fcsBit^[8] (c ^^^ v.setWidth 32)) 0xFFFFFFFF#32) ^^^ 0xFFFFFFFF#32).toNat

/-- The ones-complement sum of a list of 16-bit numbers, carries folded in (R233). -/
def onesSum (l : List Nat) : Nat :=
  l.foldl (fun a x => (a + x) % 65536 + (a + x) / 65536) 0

/-- Big-endian 16-bit words of a byte list, an odd last byte padded with 0. -/
def words16 : List Byte → List Nat
  | [] => []
  | [a] => [a.toNat * 256]
  | a :: b :: r => (a.toNat * 256 + b.toNat) :: words16 r

end Sys2Proof.Machine
end

