-- ==== Sys2Proof/Machine/Tab.lean ====
section
/-! DEFINITION. Sparse tables: a list of (key, value) pairs, keys strictly rising, no value equal to what an
unlisted key reads as. Memory is such a table of bytes (`Host.Cell`). -/

namespace Sys2Proof

/-- A sparse table from natural-number keys. -/
abbrev Tab (α : Type) := List (Nat × α)

/-- The value of key `i`; an unlisted key reads as `d`. -/
def Tab.get {α : Type} (d : α) : Tab α → Nat → α
  | [], _ => d
  | (k, v) :: r, i => if k = i then v else Tab.get d r i

/-- List key `i` with the value `v`, at its place in the order or instead of its entry. -/
def Tab.ins {α : Type} : Tab α → Nat → α → Tab α
  | [], i, v => [(i, v)]
  | (k, w) :: r, i, v =>
    if k = i then (i, v) :: r else if i < k then (i, v) :: (k, w) :: r else (k, w) :: Tab.ins r i v

/-- Give key `i` the value `v`, keeping the canonical form: the default is not listed. -/
def Tab.put {α : Type} [DecidableEq α] (d : α) (t : Tab α) (i : Nat) (v : α) : Tab α :=
  if v = d then t.filter (fun e => e.1 != i) else Tab.ins t i v

/-- Every listed key is at least `lo`, keys rise strictly, and no value is the default `d`. -/
def Tab.wfFrom {α : Type} [DecidableEq α] (d : α) : Nat → Tab α → Bool
  | _, [] => true
  | lo, (k, v) :: r => decide (lo ≤ k) && !decide (v = d) && Tab.wfFrom d (k + 1) r

/-- The canonical form: equal tables are equal data. -/
def Tab.wf {α : Type} [DecidableEq α] (d : α) (t : Tab α) : Bool := Tab.wfFrom d 0 t

/-- Change the value of key `i` by `f`. -/
def Tab.upd {α : Type} [DecidableEq α] (d : α) (t : Tab α) (i : Nat) (f : α → α) : Tab α :=
  Tab.put d t i (f (Tab.get d t i))

/-- Every key whose entry satisfies `p`. -/
def Tab.keysWhere {α : Type} (p : Nat → α → Bool) (t : Tab α) : List Nat :=
  (t.filter (fun e => p e.1 e.2)).map (·.1)

/-- Change every listed entry by `f`, dropping those that become the default. -/
def Tab.mapVals {α : Type} [DecidableEq α] (d : α) (f : Nat → α → α) : Tab α → Tab α
  | [] => []
  | (k, v) :: r => if f k v = d then Tab.mapVals d f r else (k, f k v) :: Tab.mapVals d f r

/-- Drop every entry whose key satisfies `p`: those keys read as the default again. -/
def Tab.dropKeys {α : Type} (p : Nat → Bool) (t : Tab α) : Tab α := t.filter (fun e => !p e.1)

end Sys2Proof
end

