-- ==== Sys2Proof/Machine/StPipe.lean ====
section
/-! DEFINITION. The state of the packet pipelines, of the Hogsheads and their queues (chapter 11) and of the
learning tables (chapter 12); pipeline programs and table entries, which are configuration. -/

namespace Sys2Proof.Machine
open Sys2Proof

/-- The 1,024 bits of metadata of a packet (R268). -/
abbrev Meta := BitVec 1024

/-- One parse state (chapter 11, "Parser"). -/
structure ParseState where
  valid : Bool
  record : Bool
  l3 : Nat
  slot : Nat
  fixedLen : Nat
  lenOff : Nat
  lenMask : Nat
  lenShift : Nat
  var : Bool
  lenUnit : Nat
  lenAdd : Nat
  selOff : Nat
  selEn : Bool
  sel16 : Bool
  defaultNext : Nat
  /-- Transitions in use, in order: value, mask, next. -/
  trans : List (Nat × Nat × Nat)
  deriving DecidableEq, Repr

/-- One stage descriptor (chapter 11, "Stages"). -/
structure Stage where
  enable : Bool
  predEn : Bool
  predValue : Bool
  runAhead : Bool
  ahead : Nat
  predOff : Nat
  /-- 0 NONE, 1 EXACT, 2 TERNARY, 3 LPM, 4 DIRECT. -/
  kind : Nat
  fields : List W32
  table : Nat
  missAction : Nat
  missData : BitVec 128
  deriving DecidableEq, Repr

/-- One table descriptor. -/
structure TblDesc where
  table : Nat
  kind : Nat
  keyLen : Nat
  entries : Nat
  hbm : Bool
  deriving DecidableEq, Repr

/-- The class part of a traffic-manager entry; the defaults are those of the manual. -/
structure TmClass where
  level : Nat := 0
  weight : Nat := 1
  rate : Nat := 0
  burst : Nat := 0
  minCells : Nat := 0
  alpha : Nat := 4
  ecnEn : Bool := false
  ecnMin : Nat := 0
  ecnMax : Nat := 0
  ecnPmax : Nat := 0
  deriving DecidableEq, Repr

/-- A traffic-manager port entry; the defaults are those of the manual. -/
structure TmPort where
  lane : Nat := 0
  rate : Nat := 0
  burst : Nat := 0
  pfcXoff : Nat := 512
  pfcXon : Nat := 256
  headroom : Nat := 2048
  classes : List TmClass := []
  deriving DecidableEq, Repr

/-- A pipeline program as PIPE.LOAD parsed it (R162, R266). -/
structure PipeProg where
  parse : List ParseState
  stages : List Stage
  tables : List TblDesc
  actions : List (List W64)
  tm : List TmPort
  crc : W32
  /-- SHA-256 of the program's bytes (R475). -/
  digest : List Byte
  deriving DecidableEq, Repr

/-- A table entry, of the static partition too (R163). -/
structure TblEntry where
  table : Nat
  key : List Byte
  mask : List Byte
  prefixLen : Nat
  prio : Nat
  action : Nat
  data : BitVec 128
  /-- Names the entry's counters: new at TBL.INSERT, kept by TBL.MODIFY (R271). -/
  uid : Nat
  deriving DecidableEq, Repr

/-- Where a frame came from. -/
structure Origin where
  /-- First lane of the ingress Ethernet port. -/
  lane : Nat := 0
  fromHost : Bool := false
  hostPort : Nat := 0
  inst : Nat := 0
  /-- Work queue and index of the PKT_SEND entry, when there is one. -/
  wq : Option (Nat × W16) := none
  /-- Instance generation at the fetch of the entry. -/
  gen : BitVec 12 := 0
  deriving DecidableEq, Repr

/-- What egress writes into a transport packet (R375, R377), and what the packet stands for. -/
structure TxStamp where
  /-- Offset of the transport header; the packet is IPv6. -/
  hdr : Nat
  ipv6 : Bool
  /-- The UDP destination port is as built, not that of the transport (R386). -/
  fixedPort : Bool := false
  /-- An answer: receive stamp and step count of the packet answered. -/
  answer : Option (Nat × BitVec 8) := none
  /-- A request: QP, msn and offset of the unit sent. -/
  unit : Option (Nat × Nat × Nat) := none
  /-- The last READ_RESP of a READ_REQ: epoch, window (instance × 65,536 + id) and queue pair that it leaves with (R383). -/
  serves : Option (Nat × Nat × Nat) := none
  deriving DecidableEq, Repr

/-- A packet in the Hogshead: its frame and its descriptor. -/
structure Packet where
  /-- Names the packet's one ingress copy; the copies of a flood share it (R278). -/
  uid : Nat
  frame : List Byte
  md : Meta
  epoch : Nat
  pipe : Nat
  origin : Origin
  /-- MONO of the writing of its first cell (R280). -/
  born : Nat
  /-- CE chosen at admission (R284). -/
  markCe : Bool := false
  /-- A transmit timestamp is wanted under this id (R336). -/
  tsId : W16 := 0
  /-- Launch time in grains, when the entry asked for one (R341); it reached the head of its queue late (R342). -/
  launch : Option Nat := none
  late : Bool := false
  /-- Set for a packet of the transport. -/
  stamp : Option TxStamp := none
  /-- Admitted into the headroom of its ingress port (R282). -/
  inHeadroom : Bool := false
  deriving DecidableEq, Repr

/-- Where packets wait. A queue's key says which (R279, R285). -/
inductive QKey where
  /-- (port, class) -/
  | port (l tc : Nat)
  /-- (instance, WQ): the delivery queue assigned to it. -/
  | deliver (i q : Nat)
  deriving DecidableEq, Repr

/-- A queue of the traffic manager, first in first out. -/
structure TmQueue where
  key : QKey
  pkts : List Packet := []
  /-- Bytes the class's shaper bucket holds, in units of 1/8000 byte, as of MONO `asOf`. -/
  tokens : Int := 0
  asOf : Nat := 0
  /-- Deficit counter, bytes. -/
  deficit : Int := 0
  /-- Paused by PFC until this MONO (R283). -/
  pausedTo : Option Nat := none
  deriving DecidableEq, Repr

/-- What a packet that crosses the bridge goes to: a queue of the other half, or its transport engine (R278, R372). -/
inductive CrossDest where
  | queue (k : QKey)
  | engine (h : Half)
  deriving DecidableEq, Repr

/-- A packet that has left ingress and waits in the sending Hogshead for the bridge, or is on it (R18, R278). -/
structure Crossing where
  pkt : Packet
  dest : CrossDest
  deriving DecidableEq, Repr

/-- A packet whose stage waits for the HBM table (R272): the next stage to run. -/
structure HbmWait where
  pkt : Packet
  stage : Nat
  /-- The packet before its stages ran: what a replay after a lane fault starts from (R30). -/
  start : Packet
  /-- First lane of the egress port, where the stage is one of its egress stages. -/
  port : Option Nat := none
  /-- Predicted keys of run-ahead stages, and the learn requested so far. -/
  preds : List (Nat × Nat) := []
  learn : Option (Option (Nat × Nat)) := none
  deriving DecidableEq, Repr

/-- A frame scheduled and handed to the MAC, until its last byte is sent (R40). -/
structure Egressing where
  lane : Nat
  pkt : Packet
  deriving DecidableEq, Repr

/-- One slot of the learning table (R299-R302). -/
structure Learned where
  key : Nat
  port : Nat
  hit : Bool
  strike : Bool
  moves : Nat
  /-- Window of MONO, in s, the moves are counted in. -/
  window : Nat
  flapping : Bool
  pinUntil : Nat
  deriving DecidableEq, Repr

/-- A learn request (R298): key value and port. -/
structure LearnReq where
  key : Nat
  port : Nat
  deriving DecidableEq, Repr

/-- LEARN_CFG, LEARN_FLUSH and the learning table of one pipeline (chapter 12). -/
structure LearnUnit where
  learnEn : Bool := false
  ageEn : Bool := true
  hitAction : BitVec 12 := 0
  moveLimit : BitVec 8 := 10
  sweepS : BitVec 12 := 150
  flBd : BitVec 14 := 0
  flByBd : Bool := false
  flPort : BitVec 7 := 0
  flByPort : Bool := false
  flGo : Bool := false
  /-- A flush in progress started by a PORT's DISABLE or DESTROY: that port (R304). -/
  flOwn : List Nat := []
  /-- The slot the sweeper visits next, and MONO of its last visit (R302, R303). -/
  sweepPos : Nat := 0
  sweepAt : Nat := 0
  /-- Slots by number, 0 to 262,143. -/
  slots : Tab (Option Learned) := []
  queue : List LearnReq := []
  /-- Counters LEARN_NEW to FLOOD_EMPTY, by offset ÷ 8 from LEARN_NEW. -/
  counts : Tab Nat := []
  deriving DecidableEq, Repr

/-- One pipeline (chapter 11). -/
structure Pipe where
  laneFenced : BitVec 4 := 0
  /-- Counters PIPE_IN_PKTS (0) to PIPE_PFC_RX (9). -/
  counts : Tab Nat := []
  drops : Tab Nat := []
  puntEnable : Bool := false
  puntBase : BitVec 52 := 0
  puntLog2 : BitVec 5 := 4
  puntPi : W32 := 0
  puntCi : W32 := 0
  learn : LearnUnit := {}
  /-- Packets and bytes of table entries, by entry uid (R271). -/
  entPackets : Tab Nat := []
  entBytes : Tab Nat := []
  waits : List HbmWait := []
  /-- The tables are undefined since a store to the table area (R293). -/
  undef : Bool := false
  /-- Fenced lanes whose self-test runs (R483). -/
  lanesTesting : BitVec 4 := 0
  deriving DecidableEq, Repr

/-- PFC state of one ingress port and priority: XOFF stands since this MONO (R282). -/
structure Xoff where
  lane : Nat
  prio : Nat
  since : Nat
  deriving DecidableEq, Repr

/-- The traffic managers and the Hogsheads (R278-R286). -/
structure Hog where
  queues : List TmQueue := []
  crossing : List Crossing := []
  egress : List Egressing := []
  xoff : List Xoff := []
  /-- Port shaper buckets by first lane: tokens in units of 1/8000 byte, and the MONO they were brought to. -/
  portTokens : Tab (Int × Nat) := []
  /-- Cells retired with their banks, West and East (R486). -/
  retiredWest : Nat := 0
  retiredEast : Nat := 0
  nextUid : Nat := 0
  deriving DecidableEq, Repr

end Sys2Proof.Machine
end

