-- ==== Sys2Proof/Machine/StQueue.lean ====
section
/-! DEFINITION. The state of queues and of events: work queues, completion queues, event queues, the doorbell scan
(chapter 05) and what a control queue holds of its programs (chapter 06). -/

namespace Sys2Proof.Machine
open Sys2Proof

/-- WQ states other than DISABLED, which the configuration decides (R108, R109). -/
inductive WqSt where
  | ready
  | error
  | cqWait
  | bmeOff
  deriving DecidableEq, Repr

/-- A completion as it will stand in its ring: 32 bytes, byte k in bits 8k+7 .. 8k. -/
abbrev Cpl := BitVec 256

/-- Where a fetched entry stands. -/
inductive EntrySt where
  /-- Fetched and not started: behind a fence, or waiting for its start command. -/
  | fetched
  /-- Started: its unit has it. -/
  | started
  /-- Finished; the completion waits for earlier ones of the queue. `none`: quiet, nothing is written. -/
  | finished (c : Option Cpl)
  deriving DecidableEq, Repr

/-- An entry fetched from a WQ and not yet completed (R104, R113). -/
structure Entry where
  idx : W16
  raw : W512
  /-- Epoch the work is bound to (R25). -/
  epoch : Nat
  /-- Instance generation at the fetch (R444). -/
  gen : BitVec 12
  st : EntrySt := .fetched
  /-- The entry's fence has been lifted: every earlier entry of its WQ has completed (R109). -/
  lifted : Bool := false
  /-- Count of the instance's fetches before this one: fetch order over its queues (R359). -/
  order : Nat := 0
  /-- CIPHER: the unit named was held by the instance when the entry was fetched (R358). -/
  held : Bool := true
  /-- CIPHER: the invocation the job took when it started (R365). -/
  inv : Option Nat := none
  deriving DecidableEq, Repr

/-- The indices, state and fetched entries of one WQ (R101, R103, R105). -/
structure Wq where
  pi : W16 := 0
  ci : W16 := 0
  st : WqSt := .ready
  errIndex : W16 := 0
  errReason : W16 := 0
  fetched : List Entry := []
  deriving DecidableEq, Repr

/-- A completion that waits for its ring: the entry, the trigger counter that its writing increments (R409), and
whether it notifies as if the CQ were armed (R406). -/
structure HeldCpl where
  raw : Cpl
  bump : Option Nat := none
  solicited : Bool := false
  /-- The message whose completion it is: its epoch and queue pair, 0 for an entry that is no message (R28). -/
  epoch : Nat := 0
  qpn : Nat := 0
  deriving DecidableEq, Repr

/-- The indices and held completions of one CQ (R113, R115, R515). -/
structure Cq where
  pi : W16 := 0
  ci : W16 := 0
  armed : Bool := false
  ciError : Bool := false
  /-- Completions waiting in the reservation, oldest first. -/
  held : List HeldCpl := []
  /-- The next ring write of the queue fails translation, the next mirror write does (R515). -/
  xfault : Bool := false
  mfault : Bool := false
  /-- A PI mirror write that failed translation is held (R515). -/
  mirrorHeld : Bool := false
  deriving DecidableEq, Repr

/-- One event as it arose (R116). -/
structure Ev where
  type : W16
  index : W16
  reason : W16 := 0
  value : W16 := 0
  mono : W64 := 0
  detail : W64 := 0
  deriving DecidableEq, Repr

/-- One source of an event queue (R121). -/
structure EvSrc where
  /-- Index of the entry that software has not consumed. -/
  standing : Option W16 := none
  /-- The last event merged, and how many were merged. -/
  last : Option Ev := none
  merged : Nat := 0
  deriving DecidableEq, Repr

/-- The indices and sources of one event queue (R116-R122). -/
structure EvQ where
  pi : W16 := 0
  ci : W16 := 0
  intEn : Bool := false
  ciError : Bool := false
  /-- Sources by number: CQ q is q (CQ_NOTIFY) and 64 + q (CQ_FULL, CQ_CI_ERROR), WQ q is 128 + q, an event type
  t from 0x0010 on is 256 + t (R117, R118). -/
  srcs : Tab EvSrc := []
  /-- Entries held by a failed translation, oldest first, with their merged counts (R515). -/
  held : List (Ev × Nat) := []
  xfault : Bool := false
  mfault : Bool := false
  mirrorHeld : Bool := false
  deriving DecidableEq, Repr

/-- The doorbell scan of one instance or CTL queue (R107, R108). -/
structure Scan where
  active : Bool := false
  rescan : Bool := false
  /-- Queues still in the list of this pass; the number of the queue served last in the turn. -/
  list : List Nat := []
  turn : List Nat := []
  deriving DecidableEq, Repr

end Sys2Proof.Machine
end

