-- ==== Sys2Proof/Machine/StCfg.lean ====
section
/-! DEFINITION. What follows epochs: the configuration a commit creates (chapters 01, 06, 07), and the control programs
that make it. -/

namespace Sys2Proof.Machine
open Sys2Proof

/-- Lifecycle of an object or a queue (R155). -/
inductive Life where
  | absent
  | created
  | enabled
  | disabled
  deriving DecidableEq, Repr

/-- An instance's configuration (R158). -/
structure InstCfg where
  life : Life := .absent
  port : BitVec 4 := 0
  pasidEn : Bool := false
  pasid : BitVec 20 := 0
  /-- Page-table root; 0 is none. -/
  root : W64 := 0
  /-- Grants in bushels, by resource code (R180). -/
  grants : Tab Nat := []
  deriving DecidableEq, Repr

/-- A WQ's configuration (R178); key instance × 64 + number. -/
structure WqCfg where
  life : Life := .absent
  kind : BitVec 4 := 0
  log2 : BitVec 4 := 0
  cq : BitVec 6 := 0
  base : W64 := 0
  deriving DecidableEq, Repr

/-- A CQ's configuration; key instance × 64 + number. -/
structure CqCfg where
  life : Life := .absent
  log2 : BitVec 4 := 0
  eq : BitVec 6 := 0
  reserve : W16 := 0
  base : W64 := 0
  mirror : W64 := 0
  deriving DecidableEq, Repr

/-- An EQ's configuration; key instance × 8 + number. -/
structure EqCfg where
  life : Life := .absent
  log2 : BitVec 4 := 0
  vector : BitVec 11 := 0
  base : W64 := 0
  mirror : W64 := 0
  deriving DecidableEq, Repr

/-- What QP.CONNECT gives (R167). -/
structure Conn where
  ipv6 : Bool
  remoteQpn : Nat
  paths : Nat
  remoteIp : BitVec 128
  mtu : Nat
  dscp : Nat
  tc : Nat
  localIp : BitVec 128
  deriving DecidableEq, Repr

/-- What QP.TUNE gives (R168). -/
structure Tune where
  rtoUs : Nat := 0
  retryLimit : Nat := 0
  ccProfile : Nat := 0
  msgTimeoutMs : Nat := 0
  deriving DecidableEq, Repr

/-- A queue pair's configuration (R158, R167, R168). -/
structure QpCfg where
  life : Life := .absent
  inst : Nat := 0
  sendCq : BitVec 6 := 0
  recvCq : BitVec 6 := 0
  /-- 0xFF for none. -/
  recvWq : BitVec 8 := 0
  maxOut : Nat := 0
  conn : Option Conn := none
  tune : Tune := {}
  deriving DecidableEq, Repr

/-- A memory window; key instance × 65,536 + id. -/
structure WinCfg where
  life : Life := .absent
  base : Nat := 0
  length : Nat := 0
  key : W32 := 0
  access : BitVec 3 := 0
  devmem : Bool := false
  qpn : Nat := 0
  deriving DecidableEq, Repr

/-- A trigger counter's configuration. -/
structure TrigCfg where
  life : Life := .absent
  inst : Nat := 0
  initial : W32 := 0
  homeQpn : Nat := 0
  deriving DecidableEq, Repr

/-- An Ethernet port, keyed by its first lane. -/
structure PortCfg where
  life : Life := .absent
  lanes : Nat := 0
  rate : BitVec 2 := 0
  fec : BitVec 8 := 0
  macsec : Bool := false
  pfc : Bool := false
  maxFrame : W16 := 0
  pfcMask : BitVec 8 := 0
  deriving DecidableEq, Repr

/-- An inline security association. -/
structure SaCfg where
  life : Life := .absent
  encrypt : Bool := false
  esp : Bool := false
  slot : Nat := 0
  alg : BitVec 8 := 0
  /-- The unit asked for (0xFF: any), and the one ENABLE gave. -/
  unit : BitVec 8 := 0
  given : Option Nat := none
  port : BitVec 7 := 0
  sciSpi : W64 := 0
  nextPn : W64 := 0
  replayWin : W32 := 0
  deriving DecidableEq, Repr

/-- A key slot's binding: `none` is the device (R172). -/
abbrev Binding := Option Nat

/-- The configuration of one epoch. -/
structure Cfg where
  insts : Tab InstCfg := []
  wqs : Tab WqCfg := []
  cqs : Tab CqCfg := []
  eqs : Tab EqCfg := []
  qps : Tab QpCfg := []
  wins : Tab WinCfg := []
  trigs : Tab TrigCfg := []
  ports : Tab PortCfg := []
  sas : Tab SaCfg := []
  /-- Pipeline programs, by pipeline (R162). -/
  progs : Tab (Option PipeProg) := []
  /-- Table entries, by pipeline, in order of insertion (R163). -/
  tbls : Tab (List TblEntry) := []
  nextUid : Nat := 0
  /-- UDP destination port of the transport (R166). -/
  udpPort : Nat := 49301
  bindings : Tab Binding := []
  /-- Pools in bushels, key port × 16 + resource code (R183). -/
  pools : Tab Nat := []
  deriving DecidableEq, Repr

/-- One live epoch (R27-R29, R141). -/
structure EpochRec where
  num : Nat
  cfg : Cfg
  /-- Pipelines (0-7) and cores (8 + c) at which the epoch is visible. -/
  seen : List Nat
  /-- MONO at which a newer commit superseded it. -/
  superseded : Option Nat
  /-- Work bound to it has been ended under R141. -/
  expired : Bool
  /-- The half whose control queue committed it: the other half learns of it across the bridge (R16, R31). -/
  src : Half := .west
  deriving DecidableEq, Repr

/-- Who issues a program (R125). -/
inductive Issuer where
  | owner
  | portHost (h : Nat)
  | tenant (i : Nat)
  | mss
  deriving DecidableEq, Repr

/-- A control queue's key, as a number: port h is h, instance i is 16 + i, the MSS queue is 16 + 8,192. -/
abbrev CqKey := Nat

/-- An instruction in staging (R127). -/
structure CInstr where
  seq : Nat
  raw : W512
  ext : List Byte
  deriving DecidableEq, Repr

/-- An open program (R126, R130, R131). -/
structure Prog where
  issuer : Issuer
  /-- Queue index of BEGIN. -/
  idx : W16
  tag : W64
  resultAddr : W64
  resultLen : Nat
  expect : Option Nat
  beginEpoch : Nat
  /-- Configuration current at BEGIN, against which staging reads and checks (R134, R145). -/
  beginCfg : Cfg
  lastSeq : Nat
  /-- Staging bytes taken (R129). -/
  bytes : Nat
  /-- First refusal: reason and bad_index. -/
  refused : Option (Nat × Nat)
  staged : List CInstr
  /-- Output records of its queries so far, in program order (R134, R135). -/
  records : List (List Byte)
  lastFetch : Nat
  deriving DecidableEq, Repr

/-- A change that waits for drain (R140). -/
structure Drain where
  /-- Epochs from this one on do not count: work of older ones must have left. -/
  before : Nat
  /-- What it waits for: 1 a QP, 2 a window, 3 an instance, 4 a grant, 5 the records of a dirty log. -/
  kind : Nat
  inst : Nat
  id : Nat
  deriving DecidableEq, Repr

/-- A program that has ended and whose completion is due (R139 steps 4 to 6). -/
structure Ended where
  idx : W16
  tag : W64
  outcome : Nat
  status : Nat
  badIndex : Nat
  epoch : Nat
  waited : Bool
  waitUs : Nat
  resultAddr : W64
  resultLen : Nat
  /-- Output records, as the program's queries produced them. -/
  records : List (List Byte)
  /-- State summary records, with their addresses (R147, R150). -/
  sums : List (Nat × List Byte)
  drains : List Drain
  /-- FENCE retire: every epoch older than this must have retired. -/
  fenceRetire : Bool
  /-- FENCE xlate: requests that used a removed translation must have ended. -/
  fenceXlate : Bool
  /-- MONO at the commit; when step 4 of R139 was over, and when step 5 was. -/
  since : Nat
  visAt : Option Nat := none
  metAt : Option Nat := none
  /-- The completion is not written: the queue was reset meanwhile (R77, R133). -/
  unreported : Bool
  deriving DecidableEq, Repr

/-- A COMMIT in the serialised line (R32, R139 step 2). -/
structure InLine where
  queue : CqKey
  prog : Prog
  /-- seq of the COMMIT, and its no_wait. -/
  seq : Nat
  noWait : Bool
  /-- The check phase has passed. -/
  checked : Bool
  /-- MONO at which it began to wait. -/
  since : Nat
  /-- Its queue was reset while it waited (R77): no completion. -/
  unreported : Bool
  /-- State summary records captured in the check phase, with their addresses (R148). -/
  sums : List (Nat × List Byte) := []
  deriving DecidableEq, Repr

/-- What one control queue holds (R125, R126). -/
structure CtlState where
  /-- The instruction that was fetched and has not been handled: index, bytes, extension, staging refusal. -/
  arrived : Option (W16 × W512 × List Byte × Nat) := none
  prog : Option Prog := none
  ended : List Ended := []
  /-- last_refusal and refusal_index of the state summary (R149). -/
  lastRefusal : Nat := 0
  refusalIndex : W16 := 0
  deriving DecidableEq, Repr

/-- An error record of the state summary (R149). -/
structure ErrRec where
  type : Nat
  reason : Nat
  index : Nat
  port : Nat
  mono : Nat
  epoch : Nat
  detail : Nat
  deriving DecidableEq, Repr

/-- Epochs and control programs (chapters 01, 06). -/
structure Ctl where
  /-- The newest epoch; 0 before the first commit. -/
  newest : Nat := 0
  /-- Configuration of the newest epoch. -/
  cfg : Cfg := {}
  /-- Live epochs, oldest first (R28, R29). -/
  live : List EpochRec := []
  queues : Tab CtlState := []
  line : List InLine := []
  errs : List ErrRec := []
  /-- Instances destroyed whose work still drains, each with the configuration it was destroyed from (R155, R160). -/
  dying : List (Nat × Cfg) := []
  deriving DecidableEq, Repr

end Sys2Proof.Machine
end

