-- ==== Sys2Proof/Machine/StDma.lean ====
section
/-! DEFINITION. The state of the DMA engines (chapter 18) and of the instances beside their configuration: states,
generations, translation, device memory and dirty logging (chapter 19). -/

namespace Sys2Proof.Machine
open Sys2Proof

/-- Channel states in the order of DMA_CH_STATUS.state. -/
inductive ChSt where
  | disabled
  | idle
  | active
  | pausing
  | paused
  | halted
  | bmeOff
  | error
  deriving DecidableEq, Repr

/-- A descriptor address with its space: sys true is system space (DMA_CH_NEXT). -/
structure DAddr where
  sys : Bool := false
  /-- Bits [63:5]. -/
  addr : BitVec 59 := 0
  deriving DecidableEq, Repr

/-- DMA_CH_CFG. -/
structure ChCfg where
  priority : BitVec 3 := 7
  intEq : Bool := false
  intThread : Bool := false
  thread : BitVec 9 := 0
  unitBit : BitVec 3 := 0
  deriving DecidableEq, Repr

/-- A burst issued and not yet written (R424): source offset from the descriptor's start, and length. -/
structure Burst where
  src : Nat
  len : Nat
  deriving DecidableEq, Repr

/-- A descriptor as it was read: its 32 bytes. -/
abbrev Desc := BitVec 256

/-- One DMA channel: its registers and what it has in hand (chapter 18). -/
structure Dch where
  next : DAddr := {}
  cfg : ChCfg := {}
  enable : Bool := false
  pause : Bool := false
  st : ChSt := .disabled
  kick : Bool := false
  srcSys : Bool := false
  dstSys : Bool := false
  reason : W16 := 0
  arm : Bool := false
  reject : Bool := false
  handed : Bool := false
  shNext : DAddr := {}
  shCfg : ChCfg := {}
  curDesc : DAddr := {}
  curSrc : W64 := 0
  curDst : W64 := 0
  remain : BitVec 25 := 0
  idleAt : DAddr := {}
  done : Nat := 0
  /-- The descriptor in hand. -/
  desc : Option Desc := none
  /-- Source address of the next byte to read, and bytes not yet read. -/
  rdSrc : Nat := 0
  rdLeft : Nat := 0
  /-- Bursts issued whose data has not been written, oldest first. -/
  bursts : List Burst := []
  /-- A descriptor read is outstanding at this address; it is the end-mark read (R422). -/
  reading : Option DAddr := none
  endMark : Bool := false
  /-- A descriptor read ahead with own = 1; the read ahead has been made for the descriptor in hand (R422). -/
  ahead : Option Desc := none
  aheadDone : Bool := false
  /-- A hand-over came while a descriptor was being read: that read is dropped when it returns (R428). -/
  dropRead : Bool := false
  /-- State kept at a bus-error stop (R431, R432). -/
  kept : ChSt := .disabled
  /-- State before BME_OFF (R429). -/
  before : ChSt := .disabled
  deriving DecidableEq, Repr

/-- Engine states. -/
inductive EngSt where
  | running
  | halting
  | halted
  deriving DecidableEq, Repr

/-- One DMA engine (chapter 18). -/
structure Dma where
  st : EngSt := .running
  errWrite : Bool := false
  errSys : Bool := false
  cause : BitVec 4 := 0
  gen : BitVec 12 := 0
  errAddr : W64 := 0
  hostMask : W32 := 0xFFFF0000#32
  haltCount : Nat := 0
  rThread : BitVec 9 := 0
  rUnit : BitVec 3 := 0
  rEnable : Bool := false
  chans : Tab Dch := []
  /-- Channel last served, per priority level (R424). -/
  served : Tab Nat := []
  /-- Reads outstanding when the engine stopped, that have neither completed nor timed out (R431). -/
  ending : Nat := 0
  /-- MONO of the last stop. -/
  stopAt : Nat := 0
  deriving DecidableEq, Repr

/-- An entry of a translation cache (R440). -/
structure XEntry where
  inst : Nat
  gen : BitVec 12
  /-- First instance address of the page, and its size in bytes. -/
  va : Nat
  size : Nat
  pa : Nat
  read : Bool
  write : Bool
  deriving DecidableEq, Repr

/-- A walk in flight (R438). -/
structure Walk where
  inst : Nat
  gen : BitVec 12
  va : Nat
  read : Bool
  write : Bool
  /-- The root it began at: that of its work's epoch (R161). -/
  root : Nat := 0
  /-- Level of the next entry, and the table that holds it. -/
  level : Nat
  table : Nat
  permR : Bool
  permW : Bool
  /-- The root is that of the newest epoch, so the result may be cached (R161). -/
  cache : Bool
  deriving DecidableEq, Repr

/-- A page waiting to be recorded in a dirty log: writer code and page (R446). -/
structure DirtyRec where
  writer : Nat
  page : Nat
  deriving DecidableEq, Repr

/-- The dirty log of an instance (R446-R449). -/
structure Dirty where
  on : Bool := false
  base : Nat := 0
  log2 : BitVec 5 := 0
  mirror : Nat := 0
  pi : W32 := 0
  ci : W32 := 0
  /-- The ring appears full, so writes are held (R448). -/
  held : Bool := false
  ciError : Bool := false
  lost : Bool := false
  waiting : List DirtyRec := []
  deriving DecidableEq, Repr

/-- What an instance has beside its configuration (chapter 19). -/
structure InstDyn where
  detached : Bool := false
  gen : BitVec 12 := 0
  stale : Nat := 0
  xfaults : Nat := 0
  faultReported : Bool := false
  dirty : Dirty := {}
  dirtyRecords : Nat := 0
  /-- Device-memory bushels: block numbers in the home half's pool, in offset order (R442). -/
  blocks : List Nat := []
  /-- Entries fetched from the queues of the instance. -/
  fetches : Nat := 0
  deriving DecidableEq, Repr

/-- A device-memory bushel that a shrink or a DESTROY has taken: work of epochs before `before` still reaches it at its
offset, until the drain ends (R140, R451). -/
structure Leaving where
  inst : Nat
  before : Nat
  index : Nat
  east : Bool
  block : Nat
  deriving DecidableEq, Repr

/-- The instances of the device (chapter 19). -/
structure Insts where
  dyn : Tab InstDyn := []
  /-- Bushels that wait for a drain, then those being zeroed: (half, block); both count as used (R443, R451). -/
  leaving : List Leaving := []
  zeroing : List (Bool × Nat) := []
  cacheWest : List XEntry := []
  cacheEast : List XEntry := []
  walks : List Walk := []
  deriving DecidableEq, Repr

end Sys2Proof.Machine
end

