-- ==== Sys2Proof/Machine/StHost.lean ====
section
/-! DEFINITION. The state of the host ports and of the two functions of each (chapter 03), of the CTL and INT blocks
(R123, R124), and of the Ethernet and downstream ports (chapters 13, 14). -/

namespace Sys2Proof.Machine
open Sys2Proof

/-- One MSI-X vector (R72, R73). -/
structure MsiVec where
  addr : W64 := 0
  data : W32 := 0
  mask : Bool := true
  deriving DecidableEq, Repr

/-- A function's configuration space and readiness (R54, R58, R72, R78, R80). -/
structure Fn where
  memEn : Bool := false
  busMaster : Bool := false
  parity : Bool := false
  serr : Bool := false
  intDis : Bool := false
  /-- The writable bits of the BARs. -/
  bar0 : W64 := 0
  bar2 : W64 := 0
  bar4 : W64 := 0
  rom : W32 := 0
  msixEn : Bool := false
  fnMask : Bool := false
  vecs : Tab MsiVec := []
  /-- The pending bit array: vectors whose bit is set. -/
  pba : Tab Bool := []
  /-- INTA state as last sent (R68, R69). -/
  inta : Bool := false
  /-- Answers configuration requests (R53). -/
  ready : Bool := false
  /-- A function-level reset runs (R80). -/
  flr : Bool := false
  d3 : Bool := false
  /-- Device Control 2 AtomicOp Requester Enable (R56). -/
  atomicReq : Bool := false
  /-- Fields that R54 leaves to PCI Express, which a host reads back: Cache Line Size, Interrupt Line, Device Control but its
  FLR bit, PASID Control of F1. PRESUMED: their reset values, as PCI Express gives them. -/
  cacheLine : BitVec 8 := 0
  intLine : BitVec 8 := 0
  /-- The error bits of Status, 8 and 11 to 15: RW1C (R54). -/
  errStat : W16 := 0
  devCtl : W16 := 0x2810
  pasidCtl : Bool := false
  deriving DecidableEq, Repr

/-- One host port (chapter 03). -/
structure HostPort where
  f0 : Fn := {}
  f1 : Fn := {}
  /-- PERST# is asserted. -/
  perst : Bool := true
  linkUp : Bool := false
  /-- The link was lost without PERST# and has not trained since (R82). -/
  removed : Bool := false
  /-- Lanes negotiated (PORT_INFO.width), and lanes in use under L0p (R74). -/
  width : BitVec 6 := 0
  lanes : BitVec 6 := 0
  flit : Bool := false
  /-- Link speed: 1 is 2.5 GT/s and 6 is 64 GT/s, 0 while the link is down (R52). -/
  speed : BitVec 4 := 0
  /-- ROM image built (R65, R84). -/
  rom : Bool := false
  /-- Link Control, L1 PM Substates Control, Device Control 3 L0p, LTR Mechanism Enable: as the host set them. -/
  l1En : Bool := false
  l11En : Bool := false
  l12En : Bool := false
  /-- The PCI-PM enables of L1.1 and L1.2 (R56, R74). -/
  pl11En : Bool := false
  pl12En : Bool := false
  l0pEn : Bool := false
  ltrEn : Bool := false
  /-- L1.2 threshold: LTR_L1.2_THRESHOLD value and scale. PRESUMED: as PCI Express lays them out. -/
  l12Value : BitVec 10 := 0
  l12Scale : BitVec 3 := 0
  /-- Last LTR value sent, in µs. -/
  ltr : Option Nat := none
  /-- MONO at which the port last had work of R75. -/
  busyAt : Nat := 0
  /-- AER uncorrectable error status of F0 and of F1: they outlast every reset of the port (R56). -/
  aer : W32 := 0
  aerF1 : W32 := 0
  /-- AER correctable error status of F0 and of F1, sticky like those above (R56). -/
  aerCor : W32 := 0
  aerCorF1 : W32 := 0
  discard : Nat := 0
  unbound : Nat := 0
  /-- Link equalisation settings, kept over hot reset (R76). -/
  equalised : Bool := false
  -- CTL block (R123)
  ctlWqBase : BitVec 52 := 0
  ctlWqEn : Bool := false
  ctlWqLog2 : BitVec 4 := 4
  ctlWq : Wq := {}
  ctlCqBase : BitVec 52 := 0
  ctlCqEn : Bool := false
  ctlCqLog2 : BitVec 4 := 4
  ctlCq : Cq := {}
  ctlMirrorEn : Bool := false
  ctlMirror : BitVec 62 := 0
  -- INT block (R124)
  eqBase : BitVec 52 := 0
  eqEn : Bool := false
  eqLog2 : BitVec 4 := 5
  eqVector : BitVec 5 := 0
  eq : EvQ := {}
  eqMirrorEn : Bool := false
  eqMirror : BitVec 62 := 0
  deriving DecidableEq, Repr

/-- Ethernet link state (R312). -/
inductive LinkSt where
  | disabled
  | negotiating
  | training
  | up
  | fault
  | down
  deriving DecidableEq, Repr

/-- A frame between the MAC and the parser: bytes without FCS, receive stamp, and what decryption found. -/
structure RxFrame where
  frame : List Byte
  rxNsec : Nat
  rxSecLo : Nat
  step : Nat
  /-- Epoch it was decrypted under, which binds it (R350). -/
  epoch : Option Nat
  deriving DecidableEq, Repr

/-- A transmit timestamp record (R336). -/
structure TsRec where
  id : W16
  sec : Nat
  nsec : Nat
  grain : Nat
  step : BitVec 8
  deriving DecidableEq, Repr

/-- One Ethernet lane as first lane of a port (chapters 13, 14). -/
structure EthLane where
  link : LinkSt := .disabled
  autoneg : Bool := false
  localFault : Bool := false
  remoteFault : Bool := false
  /-- MONO since which the port is DOWN, and since which it negotiates; no page came, forced mode (R312). -/
  downAt : Nat := 0
  negAt : Nat := 0
  forced : Bool := false
  counts : Tab Nat := []
  rx : List RxFrame := []
  -- TS_CTRL (R336)
  oneStep : Bool := false
  tcCorr : Bool := false
  l2 : Bool := false
  udp4 : Bool := false
  udp6 : Bool := false
  tThread : BitVec 9 := 0
  tUnit : BitVec 3 := 0
  tEnable : Bool := false
  ts : List TsRec := []
  tsOverflow : Bool := false
  tsOvf : Nat := 0
  /-- The launch queue, by launch time (R341-R343); late and range counts. -/
  launch : List Packet := []
  launchLate : Nat := 0
  launchRange : Nat := 0
  deriving DecidableEq, Repr

/-- One downstream storage port (R320-R324). -/
structure Dsp where
  dllActive : Bool := false
  speed : BitVec 3 := 0
  width : BitVec 3 := 0
  training : Bool := false
  retrain : Bool := false
  presence : Bool := false
  presenceChanged : Bool := false
  button : Bool := false
  dllChanged : Bool := false
  power : BitVec 2 := 2
  attention : BitVec 2 := 1
  powerLed : BitVec 2 := 1
  perst : Bool := true
  autoOff : Bool := false
  /-- DS_PWREN and the slot clock; MONO of the power on while DS_PERST_N is still to be released (R324). -/
  pwren : Bool := false
  clock : Bool := false
  onAt : Option Nat := none
  thread : BitVec 9 := 0
  unit : BitVec 3 := 0
  routeEn : Bool := false
  pend : W64 := 0
  ur : Nat := 0
  errMsg : Nat := 0
  deriving DecidableEq, Repr

end Sys2Proof.Machine
end

