-- ==== Sys2Proof/Machine/StKey.lean ====
section
/-! DEFINITION. The state of the key store, of the inline security associations and of the lookaside units
(chapter 15). -/

namespace Sys2Proof.Machine
open Sys2Proof

/-- Slot states (R364). -/
inductive SlotSt where
  | empty
  | active
  | exhausted
  | erased
  deriving DecidableEq, Repr

/-- A key in a register: material, limit and invocation counter (R364, R365). -/
structure KeyReg where
  material : List Byte
  limit : Nat
  counter : Nat
  deriving DecidableEq, Repr

/-- One key slot (R364, R171). -/
structure Slot where
  st : SlotSt := .empty
  alg : BitVec 8 := 0
  /-- The current register. -/
  cur : Option KeyReg := none
  /-- First epoch the current register serves; the first it serves no more, once retired (R173). -/
  curFrom : Nat := 0
  curTo : Option Nat := none
  /-- The replaced key: it serves epochs before `oldTo` until they retire. -/
  old : Option KeyReg := none
  oldTo : Nat := 0
  /-- First epoch that the replaced key served. -/
  oldFrom : Nat := 0
  /-- Algorithm of the replaced key. -/
  oldAlg : BitVec 8 := 0
  /-- An unwrapped key waits for the flip: in the next register, or in the staging register (R364). -/
  next : Option KeyReg := none
  /-- KEY_EXHAUSTED has been written for the current register (R366). -/
  noted : Bool := false
  deriving DecidableEq, Repr

/-- Sequence state and counters of an SA (R348, R355, R356). -/
structure SaState where
  nextPn : Nat := 0
  /-- dir 0: the highest number accepted plus 1, and which of the numbers below it were received: bit k is
  highest − k. -/
  seen : Nat := 0
  /-- dir 1: end of the block of numbers reserved from the management die. -/
  blockEnd : Nat := 0
  /-- dir 0: every number up to this one counts as received (R355). -/
  floor : Nat := 0
  /-- dir 0: the highest number recorded on the management die, and frames accepted since. -/
  recorded : Nat := 0
  sinceRec : Nat := 0
  packets : Nat := 0
  bytes : Nat := 0
  authFail : Nat := 0
  replay : Nat := 0
  keyDrops : Nat := 0
  deriving DecidableEq, Repr

/-- Lookaside unit states (LU_STATE). -/
inductive LuSt where
  | free
  | held
  | releasing
  | fenced
  deriving DecidableEq, Repr

/-- One lookaside unit (R357-R360). -/
structure Lu where
  st : LuSt := .free
  inst : Nat := 0
  thread : BitVec 9 := 0
  gen : BitVec 12 := 0
  /-- The job in hand: instance, WQ, entry index. -/
  job : Option (Nat × Nat × W16) := none
  /-- Status and payload bytes the job in hand will complete with, and the writes it will make, as (address, bytes) in
  order: output, tag, the IV used (R362, R363). -/
  status : Nat := 0
  length : Nat := 0
  outs : List (Nat × List Byte) := []
  deriving DecidableEq, Repr

/-- The key store and the cipher units (chapter 15). -/
structure Keys where
  slots : Tab Slot := []
  importKey : Option (List Byte) := none
  /-- KS_STATUS (R368). -/
  armed : Bool := true
  alarm : Bool := false
  cause : BitVec 6 := 0
  eraseNs : W16 := 0
  alarms : Nat := 0
  sas : Tab SaState := []
  units : Tab Lu := []
  /-- LOCK_STATUS.reason by instance; LU_LOCK_RESULT by thread. -/
  lockReason : Tab Nat := []
  luResult : Tab Nat := []
  /-- Inline units of each pipeline that are fenced with no spare left, by number (R12, R486). -/
  unitsLost : Tab (List Nat) := []
  /-- Invocations left in the batches that home units have taken: by home unit (32 × pipeline + unit) and slot, as
  unit × 65,536 + slot, then by the first epoch of the register they were taken from (R365). -/
  batches : Tab (Tab Nat) := []
  deriving DecidableEq, Repr

end Sys2Proof.Machine
end

