-- ==== Sys2Proof/Machine/StMss.lean ====
section
/-! DEFINITION. The state of the management die: requests, sensors, settings, the Reel, MSS firmware (chapter 20), of
start-up and images (chapter 04), of reliability (chapter 21) and of the electrical inputs (chapter 22). -/

namespace Sys2Proof.Machine
open Sys2Proof

/-- MBX_STATUS.state (R457). -/
inductive MbxSt where
  | idle
  | busy
  | done
  | reset
  | lost
  deriving DecidableEq, Repr

/-- A transport of the MSS: mailbox and MCTP over PCIe of each port, SMBus or I3C, the management port (R454). -/
structure MssPort where
  st : MbxSt := .idle
  doneEv : Bool := false
  /-- Request and response buffers; unlisted bytes read 0. -/
  req : Tab Byte := []
  resp : Tab Byte := []
  /-- Response parts not fetched yet, with their tag and command (R456). -/
  rest : List Byte := []
  restTag : W32 := 0
  restCmd : Nat := 0
  restStatus : Nat := 0
  deriving DecidableEq, Repr

/-- SENS[n] (R466, R467). -/
structure Sensor where
  value : W16 := 0
  valid : Bool := false
  warn : Bool := false
  trip : Bool := false
  deriving DecidableEq, Repr

/-- A Reel record (R468). -/
structure ReelRec where
  seq : Nat
  type : Nat
  severity : Nat
  origin : Nat
  tbSec : Nat
  mono : Nat
  body : List Byte
  deriving DecidableEq, Repr

/-- A seal: its SEAL record's seq and the signature, once made (R469). -/
structure Seal where
  index : Nat
  seq : Nat
  sig : Option (List Byte)
  deriving DecidableEq, Repr

/-- The Reel (R468-R470). Records by slot; the newest 458,752 stand. -/
structure Reel where
  next : Nat := 0
  recs : Tab (Option ReelRec) := []
  chain : List Byte := []
  seals : Tab (Option Seal) := []
  nextSeal : Nat := 0
  discarded : Nat := 0
  /-- Records accepted in the second of MONO named: the limit of R468. -/
  second : Nat := 0
  inSecond : Nat := 0
  /-- Records since the last seal, and the MONO of the last seal. -/
  sinceSeal : Nat := 0
  lastSeal : Nat := 0
  deriving DecidableEq, Repr

/-- A firmware image the part holds: what its header says and its digest (R91). -/
structure Image where
  version : Nat
  secVersion : Nat
  entry : Nat
  migrate : Nat
  live : Bool
  digest : List Byte
  /-- Sections: (firmware memory address, bytes). -/
  sections : List (Nat × List Byte)
  deriving DecidableEq, Repr

/-- Persistent settings (R458). -/
structure Settings where
  ownerPort : BitVec 8 := 0xFF
  width : BitVec 8 := 0
  mgmtAddr : W32 := 0
  mgmtPrefix : Nat := 0
  deriving DecidableEq, Repr

/-- MSS firmware and its banks (R85, R472, R473). -/
structure MssFw where
  up : Bool := true
  /-- Neither bank verified: the MSS stays in its ROM (R87). -/
  inRom : Bool := false
  /-- Banks: true is B. -/
  running : Bool := false
  active : Bool := false
  /-- The running bank is on trial since this MONO (R473). -/
  trial : Option Nat := none
  /-- The bank that MSS_SWITCH marked runs after the restart. -/
  trialNext : Bool := false
  validA : Bool := true
  validB : Bool := true
  versionA : Nat := 0
  versionB : Nat := 0
  secA : Nat := 0
  secB : Nat := 0
  /-- Bytes MSS_WRITE has put into the bank that is not running. -/
  written : Tab Byte := []
  minSec : Nat := 0
  imageMinSec : Nat := 0
  restarts : Nat := 0
  /-- Cause of the restart in hand: 0 watchdog, 1 MSS_SWITCH, 2 a trial abandoned. -/
  cause : Nat := 0
  /-- Digests of the running image, and of the one on trial. -/
  digest : List Byte := []
  trialDigest : List Byte := []
  deriving DecidableEq, Repr

/-- What a RESET in progress resets (R461). -/
inductive ResetKey where
  | fn (h : Nat) (f1 : Bool)
  | half (h : Half)
  deriving DecidableEq, Repr

/-- The management die (chapter 20). -/
structure Mss where
  mbx : Tab MssPort := []
  mctp : Tab MssPort := []
  smbus : MssPort := {}
  mgmt : MssPort := {}
  sens : Tab Sensor := []
  set : Settings := {}
  /-- Width modes in force since the last device reset or power-up. -/
  widthNow : BitVec 8 := 0
  reel : Reel := {}
  fw : MssFw := {}
  /-- Reel records and events latched in hardware while the MSS restarts, oldest first (R471). -/
  latched : List ReelRec := []
  latchedEv : List Ev := []
  /-- An IMPORT_OPEN exchange: encapsulation key, decapsulation key, MONO (R477). -/
  exchange : Option (List Byte × List Byte × Nat) := none
  /-- RESET requests whose response is due when a reset in progress ends: transport, tag, what is reset (R461). -/
  resetting : List (Transport × W32 × ResetKey) := []
  /-- Power: halves and HBM are powered. -/
  powered : Bool := false
  /-- The lid tamper mesh is broken; a key-store error is latched (R476). -/
  meshOpen : Bool := false
  storeError : Bool := false
  deriving DecidableEq, Repr

/-- BOOT_STATE.state encoding (R89). -/
abbrev BootCode := BitVec 4

/-- One port's part of the BOOT block and its load area (R89, R92). -/
structure BootPort where
  /-- Load status; the verify bit is QUEUED or BUSY (R89). -/
  status : BitVec 4 := 0
  winner : BitVec 4 := 0
  verifyUs : W16 := 0
  reason : W16 := 0
  source : BitVec 2 := 0
  /-- The load area; unlisted bytes read 0 (R513). -/
  area : Tab Byte := []
  /-- A reset of the port waits for the verify or the activation in hand (R90). -/
  rst : Bool := false
  deriving DecidableEq, Repr

/-- Live activation (R97, R98). -/
structure Activation where
  port : Nat
  /-- 0 accepted, 1 image placed, threads moving, 2 all moved, 3 bind commit done. -/
  phase : Nat
  /-- Threads moved. -/
  moved : List Nat
  image : Image
  deriving DecidableEq, Repr

/-- Start-up (chapter 04). -/
structure Boot where
  state : BootCode := 0
  /-- State to return to when a half rejoins. -/
  before : BootCode := 0
  jig : Bool := false
  /-- Straps as sampled: BOOT_PORT, OWNER_PORT, LOADER_ANY, JIG_EN (R507). -/
  strapBoot : BitVec 4 := 0
  strapOwner : BitVec 4 := 0
  strapAny : Bool := false
  strapJig : Bool := false
  enable : Bool := false
  refused : Bool := false
  ports : Tab BootPort := []
  /-- Ports whose verify waits, oldest first; the head is being verified. -/
  verifyLine : List Nat := []
  image : Option Image := none
  /-- Port whose image is in force, and port whose image reached meeting point 1 (R89, R93). -/
  imagePort : BitVec 4 := 0
  winner : BitVec 4 := 0
  /-- A reset of the device verifies the retained image again: the image, and what that verify will refuse it with (R94). -/
  retained : Option (Image × Option Nat) := none
  /-- The image that an activation replaced, until the epoch before its step 4 retires: that epoch, the image (R97). -/
  old : Option (Nat × Image) := none
  staged : Option Image := none
  /-- Port whose load area holds the staged image. -/
  stagedPort : Nat := 0
  act : Option Activation := none
  /-- Half resets held by an activation: 0 West, 1 East (R98). -/
  heldReset : List Nat := []
  /-- Halves that a second half-fatal fault within an hour leaves withdrawn (R491). -/
  shutOut : List Nat := []
  mpWest : BitVec 3 := 0
  mpEast : BitVec 3 := 0
  /-- A unit failed training with no spare (R88, R95). -/
  trainFailed : Bool := false
  /-- Units whose failure in Jig mode no spare covers: they fail the next normal start-up (R100). -/
  jigFailed : List FailedUnit := []
  /-- Jig tests not done yet (R100). -/
  jigLeft : List Nat := []
  deriving DecidableEq, Repr

/-- A table bank whose spare is being rebuilt (R483): pipeline, ternary or exact, bank, replaced before it failed. -/
structure Rebuild where
  pipe : Nat
  ternary : Bool
  bank : Nat
  predictive : Bool
  deriving DecidableEq, Repr

/-- Reliability (chapter 21). -/
structure Rel where
  /-- ERR_CORR and ERR_UNCORR, key half × 32 + structure code. -/
  corr : Tab Nat := []
  uncorr : Tab Nat := []
  /-- Spares used, kept in MRAM: key kind × 16 + pool. Kinds: 0 cores and 4 Hogshead banks, by half; 1 inline units,
  2 exact banks and 3 ternary banks, by pipeline. Bridge lanes stand in the bridge. -/
  sparesUsed : Tab Nat := []
  rThread : BitVec 9 := 0
  rUnit : BitVec 3 := 0
  rEnable : Bool := false
  /-- MONO of the last fault of pipeline lanes, key pipeline × 4 + lane, plus 1. -/
  laneFault : Tab Nat := []
  /-- Table banks being rebuilt, oldest first, and banks that stay on their HBM shadow. -/
  rebuilding : List Rebuild := []
  onShadow : List (Nat × Bool × Nat) := []
  /-- Corrected errors of a bank in a second of MONO: (structure, unit, bank), second, count. -/
  bankErrs : List ((Nat × Nat × Nat) × Nat × Nat) := []
  /-- Corrected errors since the last record of the structure and unit: (structure, half, unit), count (R489). -/
  merged : List ((Nat × Nat × Nat) × Nat) := []
  /-- MONO of the last ERROR record for corrected errors, plus 1, key half × 32 + structure. -/
  lastCorr : Tab Nat := []
  /-- MONO of half-fatal resets, West and East, plus 1. -/
  fatalWest : Nat := 0
  fatalEast : Nat := 0
  deriving DecidableEq, Repr

/-- Electrical inputs and pins (chapter 22). -/
structure Elec where
  /-- VIN is present above lockout. -/
  vin : Bool := false
  /-- References lost: host port h is h, Ethernet pair k is 16 + k, the downstream synthesiser of a half is 32 + half. -/
  refLost : List Nat := []
  /-- MONO at which a reference was last lost or came back. -/
  refAt : Tab Nat := []
  crystalLost : Bool := false
  /-- Phases shed, by half × 16 + rail. -/
  phasesShed : Tab Nat := []
  /-- PWR_WARN is driven low: VIN can be trusted (R496); THERMTRIP_N is pulled low (R508). -/
  warnDriven : Bool := false
  thermTrip : Bool := false
  deriving DecidableEq, Repr

end Sys2Proof.Machine
end

