-- ==== Sys2Proof/Machine/StRmt.lean ====
section
/-! DEFINITION. The state of the transport engines: queue pairs at both ends, windows' counts, trigger counters and
posted requests (chapters 16 and 17). -/

namespace Sys2Proof.Machine
open Sys2Proof

/-- Path states (R391). -/
inductive PathSt where
  | healthy
  | suspect
  | failed
  deriving DecidableEq, Repr

/-- One path of a QP (R391-R394). -/
structure Path where
  st : PathSt := .healthy
  /-- r[p] (R374). -/
  reroll : Nat := 0
  cwnd : Nat := 0
  inflight : Nat := 0
  srtt : Int := 0
  rttvar : Int := 0
  sampled : Bool := false
  /-- Samples of the last 10 s of MONO: (mono, rtt). -/
  samples : List (Nat × Nat) := []
  cutUntil : Nat := 0
  /-- Timer expiries without an answer between. -/
  expiries : Nat := 0
  failedAt : Nat := 0
  deriving DecidableEq, Repr

/-- A packet, READ segment or atomic in flight (R387). -/
structure TUnit where
  off : Nat
  len : Nat
  path : Nat
  attempts : Nat
  /-- MONO at which its timer started. -/
  since : Nat
  /-- Order of sending on the QP, and answers on its path to packets sent later. -/
  order : Nat
  later : Nat := 0
  step : BitVec 8
  /-- Bytes of it that still count as in flight. -/
  flying : Nat
  deriving DecidableEq, Repr

/-- A unit that is to be sent: its attempt, and the path on which it was lost (R387). -/
structure Unsent where
  off : Nat
  len : Nat
  attempt : Nat := 0
  lostOn : Option Nat := none
  deriving DecidableEq, Repr

/-- A message the requester has outstanding (R378, R387-R390). -/
structure OutMsg where
  msn : Nat
  inst : Nat
  wq : Nat
  idx : W16
  epoch : Nat
  op : Nat
  localAddr : Nat
  remoteAddr : Nat
  rkey : Nat
  total : Nat
  imm : Nat
  op0 : Nat
  op1 : Nat
  solicited : Bool
  mtu : Nat
  tune : Tune
  unsent : List Unsent := []
  /-- Times that every packet was sent again (R388). -/
  restarts : Nat := 0
  units : List TUnit := []
  /-- Bytes acknowledged; for a READ, offsets of the packets that arrived. -/
  acked : Nat := 0
  got : List Nat := []
  /-- RNR NAKs so far, and the MONO until which the message is held. -/
  rnr : Nat := 0
  holdTo : Option Nat := none
  /-- Set when the message has ended and waits for older ones (R403). -/
  ended : Option Nat := none
  deriving DecidableEq, Repr

/-- State of a msn at the responder (R379). -/
inductive MsnSt where
  | done
  | opened
  | refused (code : Nat)
  deriving DecidableEq, Repr

/-- A tracker (R381). -/
structure Tracker where
  msn : Nat
  op : Nat
  epoch : Nat
  inst : Nat
  /-- Window id, for all but SEND. -/
  win : Option Nat
  addr : Nat
  rkey : Nat
  total : Nat
  imm : Nat
  solicited : Bool
  /-- Packet indices placed. -/
  bits : List Nat := []
  counted : Nat := 0
  born : Nat
  /-- Reserved RMT_RECV buffer: WQ, entry index (R404). -/
  buf : Option (Nat × W16) := none
  /-- Path and source port of the last packet counted (R382). -/
  lastPath : Nat := 0
  lastPort : Nat := 0
  /-- tx_ts, receive stamp and step count of that packet. -/
  lastTs : Nat := 0
  lastRx : Nat := 0
  lastStep : BitVec 8 := 0
  deriving DecidableEq, Repr

/-- A queue pair's transport state (R397). -/
structure Qp where
  nextMsn : Nat := 0
  /-- Requests that have passed R400 and wait for a msn: instance, WQ, entry index, epoch. -/
  sendList : List (Nat × Nat × W16 × Nat) := []
  out : List OutMsg := []
  stopped : Bool := false
  paths : Tab Path := []
  lastPath : Nat := 0
  order : Nat := 0
  head : Nat := 0xFFFFFF
  states : Tab MsnSt := []
  /-- Message lengths of DONE msns, by msn mod 1,024 (R379). -/
  totals : Tab Nat := []
  trackers : List Tracker := []
  /-- The newest 64 atomics, newest first: msn and old value (R384). -/
  atoms : List (Nat × W64) := []
  draining : Bool := false
  sent : Nat := 0
  received : Nat := 0
  retx : Nat := 0
  nakRx : Nat := 0
  dup : Nat := 0
  abandoned : Nat := 0
  deriving DecidableEq, Repr

/-- A trigger counter's state (R409). -/
structure Trig where
  value : Nat := 0
  increments : Nat := 0
  discarded : Nat := 0
  deriving DecidableEq, Repr

/-- A posted triggered request (R410). -/
structure Posted where
  east : Bool
  counter : Nat
  threshold : Nat
  inst : Nat
  wq : Nat
  idx : W16
  qpn : Nat
  deriving DecidableEq, Repr

/-- The transport engines (chapters 16, 17). -/
structure Rmt where
  qps : Tab Qp := []
  trigs : Tab Trig := []
  /-- Counters whose increment is due, oldest first (R409). -/
  incs : List Nat := []
  /-- Posted requests, oldest first. -/
  posted : List Posted := []
  /-- Messages admitted through a window, by instance × 65,536 + id (R415). -/
  winAdmitted : Tab Nat := []
  trigSel : Tab Nat := []
  /-- Packets that the pipelines handed to an engine, by half, oldest first (R372). -/
  inWest : List Packet := []
  inEast : List Packet := []
  /-- RMT_RX_PKTS (0) to RMT_PATH_FAILED (11), West then East at 16 (R395). -/
  counts : Tab Nat := []
  /-- MONO of the last NAK BAD_QP sent to a packet that named no QP, per half (R386). -/
  nakWest : Option Nat := none
  nakEast : Option Nat := none
  /-- Windows with a DISABLE, DESTROY or narrowing in drain, by instance × 65,536 + id. -/
  winDraining : List Nat := []
  deriving DecidableEq, Repr

end Sys2Proof.Machine
end

