-- ==== Sys2Proof/Machine/StThread.lean ====
section
/-! DEFINITION. The state of the Polward cores: threads, channels, event groups, fault rings (chapters 08, 09, 10). -/

namespace Sys2Proof.Machine
open Sys2Proof

/-- Thread state encoding (R237). -/
inductive ThrSt where
  | stopped
  | running
  | waiting
  | faulted
  | halted
  deriving DecidableEq, Repr

/-- One service region: SVC_RGN_BASE[k] and SVC_RGN_LIMIT[k] (R195). -/
structure Region where
  valid : Bool := false
  r : Bool := false
  w : Bool := false
  x : Bool := false
  dev : Bool := false
  base : BitVec 52 := 0
  limit : BitVec 52 := 0
  deriving DecidableEq, Repr

/-- The thread-scope system registers of R195, but for those of waiting. -/
structure SysRegs where
  /-- STATUS.priv: true is system (reset 1). -/
  priv : Bool := true
  prevPriv : Bool := false
  exc : Bool := false
  epc : W64 := 0
  cause : BitVec 8 := 0
  detail : W16 := 0
  fromSystem : Bool := false
  eaddr : W64 := 0
  evecValid : Bool := false
  evecBase : BitVec 52 := 0
  scratch0 : W64 := 0
  scratch1 : W64 := 0
  migPc : W64 := 0
  migValid : Bool := false
  migWasExc : Bool := false
  migOldPriv : Bool := false
  regions : Tab Region := []
  deriving DecidableEq, Repr

/-- PMC_CTRL and the counters PMC[0..3] (R214). -/
structure Pmc where
  sel : BitVec 32 := 0
  enable : BitVec 4 := 0
  svcRead : Bool := false
  svcOnly : Bool := false
  overflow : BitVec 4 := 0
  count : Tab Nat := []
  deriving DecidableEq, Repr

/-- Events, timer and the WAIT in hand (R225, R243-R248). -/
structure Waiting where
  tcmp : W64 := 0
  /-- TCMP_BASE.base: true is MONO. -/
  baseMono : Bool := false
  wakeCause : BitVec 12 := 0
  evmask : BitVec 58 := 0
  /-- Latched event bits (R245). -/
  latched : BitVec 58 := 0
  /-- The WAIT in hand has its timer armed. -/
  armed : Bool := false
  /-- Destination register of the WAIT in hand. -/
  rd : GReg := 0
  /-- The timebase was stepped during the wait. -/
  stepped : Bool := false
  /-- The wait was held by STOP, a halt or a move and resumed. -/
  resumed : Bool := false
  /-- The thread was moved in the wait: it goes on at migrate_entry, where its pc already stands (R97, R226). -/
  moved : Bool := false
  /-- A STOPPED or HALTED thread resumes in WAIT (THR_STATE.wait_resume). -/
  waitResume : Bool := false
  /-- MONO when the WAIT in hand began. -/
  since : Nat := 0
  deriving DecidableEq, Repr

/-- The header window and its valid length (R230); unlisted bytes read 0. -/
structure HdrWin where
  bytes : Tab Byte := []
  len : Nat := 0
  deriving DecidableEq, Repr

/-- A receive buffer: eight words and the length of the message in it (R227). -/
structure RecvBuf where
  words : Tab W64 := []
  len : Nat := 0
  deriving DecidableEq, Repr

/-- One hardware thread (R188, R237, R239). -/
structure Thread where
  st : ThrSt := .stopped
  started : Bool := false
  /-- A fault record of the thread is unconsumed (R256). -/
  record : Bool := false
  /-- ECAUSE.cause of the last fault (THR_STATE.cause). -/
  lastCause : BitVec 8 := 0
  /-- STOPPED by a STOP, so RESUME is accepted (R238). -/
  byStop : Bool := false
  /-- The state a debug halt keeps for GO (R261). -/
  kept : ThrSt := .stopped
  /-- A debugger is attached (R478). -/
  attached : Bool := false
  /-- The word of a debug STEP that waits for the thread's slot on a Pavane core (R242, R261). -/
  stepping : Option W32 := none
  /-- General registers; g0 is never listed (R188). -/
  g : Tab W64 := []
  pc : W64 := 0
  sr : SysRegs := {}
  pmc : Pmc := {}
  wt : Waiting := {}
  win : HdrWin := {}
  /-- Staging words, keyed by channel × 8 + word (R227). -/
  staging : Tab W64 := []
  /-- Reserved credits by channel (R251). -/
  credits : Tab Nat := []
  /-- Receive buffers by channel (R227). -/
  recv : Tab RecvBuf := []
  /-- THR_GROUP (R259). -/
  group : BitVec 6 := 0
  member : Bool := false
  /-- MONO at the thread's last issue, for the one slot a Pavane round has (R242). -/
  lastIssue : Option Nat := none
  deriving DecidableEq, Repr

/-- State kept once for a core (R195, R209, R243). -/
structure Core where
  /-- TMODE.mode: true is Pavane. -/
  pavane : Bool := false
  /-- The mode TMODE.switching is on its way to, and MONO when the write committed (R244). -/
  switchTo : Option Bool := none
  switchAt : Nat := 0
  /-- Threads of the core, 0 to 7, that have issued in the Galliard round in hand, in order (R240, R241). -/
  issued : List Nat := []
  rounds : W64 := 0
  instrs : W64 := 0
  /-- RESIDUE_STAT (R209). -/
  replays : W32 := 0
  lastThread : BitVec 3 := 0
  lastPath : BitVec 2 := 0
  spared : Bool := false
  /-- MONO of the mismatches of the last second (R210, R482). -/
  mismatches : List Nat := []
  /-- Declared permanently faulty; threads still to be moved (R210). A spare has been taken; the core is replaced for
  its replays alone (R482). -/
  moving : List Nat := []
  claimed : Bool := false
  predictive : Bool := false
  /-- Lines the L1I holds, by address ÷ 64: it does not snoop stores (R212, R224). -/
  l1i : Tab (Option W512) := []
  deriving DecidableEq, Repr

/-- One message on its way or queued (R227, R253). -/
structure ChMsg where
  words : Tab W64
  len : Nat
  /-- Half of the sender: where it is not the receiver's, the message crosses the bridge (R253). -/
  src : Half
  deriving DecidableEq, Repr

/-- One thread channel: CH_CFG[c] and its queue (R251-R254). -/
structure Channel where
  receiver : BitVec 9 := 0
  enable : Bool := false
  creditsM1 : BitVec 8 := 0
  rxEvent : BitVec 5 := 0
  creditEvent : BitVec 5 := 0
  senders : BitVec 2 := 0
  sender : BitVec 9 := 0
  hw : Bool := false
  /-- Messages queued in the receiver's half, oldest first. -/
  queue : List ChMsg := []
  /-- Messages sent but not yet queued in the receiver's half, oldest first. -/
  transit : List ChMsg := []
  /-- Threads registered for credit_event (R251). -/
  registered : List Nat := []
  deriving DecidableEq, Repr

/-- One event group: GRP_CTRL[g] and its snapshot (R259, R260). -/
structure Group where
  enable : Bool := false
  east : Bool := false
  raised : Bool := false
  episodes : Nat := 0
  /-- MONO at which the 1 µs measure last restarted. -/
  measureFrom : Nat := 0
  /-- The group's record is unconsumed (R256). -/
  record : Bool := false
  /-- GRP_SNAP_ID and GRP_SNAP_MASK: (thread, mask), ascending thread id. -/
  snap : List (Nat × BitVec 58) := []
  deriving DecidableEq, Repr

/-- Whose fault record it is (R256). -/
inductive RecOwner where
  | thread (t : Nat)
  | group (g : Nat)
  | core (c : Nat)
  deriving DecidableEq, Repr

/-- The supervisor and the fault ring of one half (R256, R257). -/
structure FaultQ where
  /-- SUP.thread. -/
  sup : BitVec 9 := 0
  enable : Bool := false
  base : BitVec 52 := 0
  pi : W16 := 0
  ci : W16 := 0
  /-- Owners of the records FQ_CI has not passed, oldest first. -/
  unconsumed : List RecOwner := []
  /-- Records waiting on chip until FQ_BASE.enable is 1, oldest first: 32 bytes each. -/
  waitingRecs : List (RecOwner × List Byte) := []
  deriving DecidableEq, Repr

/-- The cores: chapters 08 to 10. -/
structure Cores where
  threads : Tab Thread := []
  cores : Tab Core := []
  chans : Tab Channel := []
  groups : Tab Group := []
  fqWest : FaultQ := {}
  fqEast : FaultQ := { sup := 256 }
  deriving DecidableEq, Repr

end Sys2Proof.Machine
end

