-- ==== Sys2Proof/Machine/StTime.lean ====
section
/-! DEFINITION. The state of the timebase, the servo, timestamps and launch queues (chapter 14), the speed monitors
(chapter 02) and the bridge (chapter 01). -/

namespace Sys2Proof.Machine
open Sys2Proof

/-- Servo state encoding (R331). -/
inductive Servo where
  | free
  | acquiring
  | locked
  | hold
  | stepRequest
  | holdover
  deriving DecidableEq, Repr

/-- The timebase as one number of grains: seconds × 10^9 × 2^16 + nanoseconds × 2^16 + grains (R325). -/
abbrev Grains := Nat

/-- The clocks (R325, R326), the TIME block (R328) and the servo (R330). -/
structure Clock where
  /-- Counting: the PHY islands are raised and VIN is held (R326). -/
  on : Bool := false
  mono : Nat := 0
  tb : Grains := 0
  stepCount : BitVec 8 := 0
  servo : Servo := .free
  /-- TB_STATUS.source and ref_pair (R177). -/
  source : BitVec 2 := 2
  refPair : BitVec 2 := 0
  /-- The last two 1PPS edges came no more than 1.5 s apart; the 10 MHz input is present (R328). -/
  ppsPresent : Bool := false
  refPresent : Bool := false
  /-- MONO at which the source was put in force (R177). -/
  srcSince : Nat := 0
  /-- TB_FREQ, signed, in 2^-32 ns per ns. -/
  freq : Int := 0
  /-- TB_OFFSET, signed, in grains. -/
  offset : Int := 0
  /-- Servo integrator (R330). -/
  acc : Int := 0
  /-- What TIME.SERVO sets (R176, R330). -/
  kpShift : Nat := 14
  kiShift : Nat := 18
  autoStep : Bool := false
  hold : Bool := false
  threshold : Nat := 1000000
  freqAdj : Int := 0
  /-- The last four samples, newest first (R330). -/
  samples : List Int := []
  /-- Consecutive 1PPS edges since the source was lost (R331). -/
  ppsEdges : Nat := 0
  /-- MONO of the last 1PPS edge. -/
  lastPps : Option Nat := none
  /-- STEP_LOG_OFFSET[k], STEP_LOG_MONO[k] (R332). -/
  logOffset : Tab W64 := []
  logMono : Tab W64 := []
  /-- TB_NSEC has carried to 0, and the 1PPS output has not risen for it yet; the output pin and the MONO of its last rise
  (R331). -/
  ppsDue : Bool := false
  ppsOut : Bool := false
  ppsRise : Nat := 0
  deriving DecidableEq, Repr

/-- One speed monitor: SPD_MON[n] (R45); kind and domain follow from n (R43). -/
structure SpdMon where
  rate : W16 := 0
  belowFloor : Bool := false
  /-- MONO since which the rate has been below its floor reading. -/
  belowSince : Nat := 0
  deriving DecidableEq, Repr

/-- One voltage domain: SPD_DOM[d] (R45). -/
structure SpdDom where
  supplyMv : BitVec 12 := 0
  margin : BitVec 8 := 50
  slowest : BitVec 7 := 0
  /-- The setpoint in mV that the loop found at its last update (R48): the model's own field, a free value within what the
  readings say. -/
  setMv : Nat := 0
  /-- The loop holds the domain below nominal supply to meet the cap (R45, SPD_STATUS.capped). -/
  capHeld : Bool := false
  deriving DecidableEq, Repr

/-- The SPEED block (R45). -/
structure Speed where
  mons : Tab SpdMon := []
  doms : Tab SpdDom := []
  floorMiss : Bool := false
  capUnmet : Bool := false
  capped : Bool := false
  hot : Bool := false
  miss : BitVec 96 := 0
  inputW : W16 := 0
  capW : W16 := 0
  /-- MONO since which the input power has been above the cap with every domain at its setpoint (R45, R48). -/
  overSince : Option Nat := none
  deriving DecidableEq, Repr

/-- One direction of the bridge (R16-R19). -/
structure BridgeDir where
  /-- A retrain is in progress since this MONO; traffic of every class is held. -/
  retrain : Option Nat := none
  /-- Faulty lanes, the one being replaced first (R484). -/
  lanes : List Nat := []
  spareLanesUsed : Nat := 0
  /-- Lanes retired with no spare left (R486). -/
  retired : Nat := 0
  /-- Bytes of cells less bytes of data that the shared class has carried since both last waited (R16). -/
  lead : Int := 0
  deriving DecidableEq, Repr

/-- The bridge between the halves. -/
structure Bridge where
  toEast : BridgeDir := {}
  toWest : BridgeDir := {}
  deriving DecidableEq, Repr

end Sys2Proof.Machine
end

