-- ==== Sys2Proof/Machine/State.lean ====
section
/-! DEFINITION. The state of the block: the queue of waiting commands and everything the spec gives the part, as plain
data; the faults, the refusals, and the state after reset. -/

namespace Sys2Proof.Machine
open Sys2Proof

/-- A frame that waits to enter a host ingress pipeline (R264): of a PKT_SEND entry, or built by a transport engine. -/
structure HostFrame where
  frame : List Byte
  hostMeta : Nat := 0
  tc : Nat := 0
  tsReq : Bool := false
  tsId : W16 := 0
  launch : Option Nat := none
  origin : Origin
  /-- Set for a packet of the transport (R371, R377). -/
  stamp : Option TxStamp := none
  deriving DecidableEq, Repr

/-- Something the block sent outward. The list of them is the model's own record, not state of the part. -/
inductive Emit where
  /-- A posted write of F0 or F1 (`f1`) of host port `h` to a bus address. -/
  | bus (h : Nat) (f1 : Bool) (addr : Nat) (bytes : List Byte)
  /-- A posted write to an instance's device-visible address, whose translation succeeded. -/
  | inst (i : Nat) (va : Nat) (bytes : List Byte)
  /-- An AtomicOp on host memory at an instance's address: its operation and operands (R384). -/
  | atomicOp (i : Nat) (va : Nat) (op a b : Nat)
  /-- An MSI-X message (R72). -/
  | msix (h : Nat) (f1 : Bool) (vector : Nat) (addr : W64) (data : W32)
  /-- Assert_INTA or Deassert_INTA (R68). -/
  | intx (h : Nat) (f1 : Bool) (level : Bool)
  /-- A completion with Unsupported Request (R59). -/
  | ur (h : Nat)
  /-- A read's data, to its reader. -/
  | readData (who : Who) (value : W64)
  /-- A read of memory space by a host: its data. -/
  | hostRead (h : Nat) (bytes : List Byte)
  /-- A frame sent on an Ethernet port, with its FCS (R314). -/
  | frame (lane : Nat) (bytes : List Byte)
  /-- The part of a frame sent before the transmit FIFO ran empty; the MAC ends it with an invalid code group (R40). -/
  | cutFrame (lane : Nat) (bytes : List Byte)
  /-- Remote-fault ordered sets start, or stop (R313). -/
  | remoteFault (lane : Nat) (on : Bool)
  /-- A PFC frame: priority and quanta (R282). -/
  | pfc (lane : Nat) (prio : Nat) (quanta : Nat)
  /-- A link state entered or left (R74). -/
  | link (h : Nat) (pm : LinkPm)
  /-- An LTR message in µs (R75). -/
  | ltr (h : Nat) (us : Nat)
  /-- A response of the MSS over a transport other than a mailbox: its bytes, header first (R455). -/
  | mss (via : Transport) (msg : List Byte)
  /-- A completion entry of the MSS control queue (R125). -/
  | mssCpl (raw : Cpl)
  /-- Output records of the MSS control queue's programs, to an address on the management die (R135). -/
  | mssData (addr : Nat) (bytes : List Byte)
  /-- An answer of the management port to an ARP request (R459). -/
  | arp (addr : W32)
  /-- A configuration access forwarded to a downstream port: address, write data (R321). -/
  | dsp (d : Nat) (addr : Nat) (write : Option W32)
  /-- A memory request of `n` bytes forwarded to a downstream port by a load or store: its offset, write data (R320). -/
  | dspMem (d : Nat) (off : Nat) (write : Option (List Byte)) (n : Nat)
  /-- A configuration result or a memory read's data returned through a downstream port. -/
  | dspData (d : Nat) (bytes : List Byte)
  /-- A completion with Unsupported Request to the drive of a downstream port (R322). -/
  | dspUr (d : Nat)
  deriving DecidableEq, Repr

/-- Everything the spec gives the part. -/
structure Blk where
  clk : Clock := {}
  spd : Speed := {}
  brg : Bridge := {}
  cores : Cores := {}
  /-- System memory: bytes by location. HBM is at its address; firmware memory of West at its address and of East at
  its address plus 2^30. -/
  mem : Tab Byte := []
  /-- Poisoned granules of 8 bytes, by location ÷ 8 (R200). -/
  poison : Tab Bool := []
  /-- Directory states of HBM lines, by location ÷ 64 (R213). -/
  dir : Tab Nat := []
  ctl : Ctl := {}
  ports : Tab HostPort := []
  /-- Power states of the host links: L0 where not listed (R74). -/
  pm : Tab LinkPm := []
  /-- Doorbell scans: CTL queue of port h at h, instance i at 16 + i, the MSS queue at 16 + 8,192 (R107). -/
  scans : Tab Scan := []
  /-- Queues of instances: WQ q and CQ q of instance i at i × 64 + q, EQ e at i × 8 + e (R101). -/
  wqs : Tab Wq := []
  cqs : Tab Cq := []
  eqs : Tab EvQ := []
  /-- The MSS control queue, and completions of it. -/
  mssWq : Wq := {}
  mssCq : Cq := {}
  insts : Insts := {}
  pipes : Tab Pipe := []
  hog : Hog := {}
  eth : Tab EthLane := []
  dsp : Tab Dsp := []
  keys : Keys := {}
  rmt : Rmt := {}
  dma : Tab Dma := []
  mss : Mss := {}
  boot : Boot := {}
  rel : Rel := {}
  elec : Elec := {}
  /-- Staged high words of 64-bit registers, by writer and register (R5). -/
  stg : List ((Who × Reg) × W32) := []
  /-- High words latched by low-word reads, by reader and register (R4). -/
  hlat : List ((Who × Reg) × W32) := []
  /-- TB_GRAIN, unless its value went with the read, and TB_SEC, latched by a read of TB_NSEC, by reader (R328). -/
  tbLat : List (Who × Option W32 × W64) := []
  /-- Frames waiting to enter a host ingress pipeline, by host port (R264). -/
  hostFrames : Tab (List HostFrame) := []
  /-- Packets and doorbells discarded before meeting point 3, by port (R21); packets for a half that is down, by half
  (R23). -/
  preEpoch : Tab Nat := []
  halfDown : Tab Nat := []
  /-- The model's own: what was sent outward, newest first. -/
  out : List Emit := []
  /-- The model's own: free values drawn so far. -/
  fresh : Nat := 0
  deriving DecidableEq, Repr

/-- The block and the commands that wait, first in, first out. -/
structure State where
  pending : List Instr := []
  blk : Blk := {}
  deriving DecidableEq, Repr

/-- Faults: none. Every command of the table has an effect by the spec, a stop of the part itself included. -/
inductive Fault where
  deriving DecidableEq, Repr

/-- Refusals. -/
inductive Refusal where
  /-- Raised by an arm of `exec` whose command has no meaning yet. Safe: nothing follows from it. -/
  | notModelled (mnemonic : String)
  deriving DecidableEq, Repr

/-- A meaning: an effect on everything but the queue. -/
def State.run (s : State) (f : Blk → Blk) : Host.Outcome State Fault Refusal := .next { s with blk := f s.blk }

/-- The machine right after reset: every field at the value its structure states, no command waiting. -/
def State.reset : State := {}

end Sys2Proof.Machine
end

