-- ==== Sys2Proof/Machine/Ops.lean ====
section
/-! DEFINITION. The named operations over the block's state: access to its tables, free values, what is sent outward,
memory, the owner's port, the Reel. -/

namespace Sys2Proof.Machine
open Sys2Proof

/-- MONO (R325). -/
def Blk.mono (b : Blk) : Nat := b.clk.mono

/-- The free value at the present count. -/
def Blk.freeVal (b : Blk) : W64 := Config.freeBits b.fresh

/-- Advance the count of free values drawn by `n`. -/
def Blk.drawn (b : Blk) (n : Nat) : Blk := { b with fresh := b.fresh + n }

/-! Access to the tables of the state. -/

def Blk.port (b : Blk) (h : Nat) : HostPort := b.ports.get {} h
def Blk.updPort (b : Blk) (h : Nat) (f : HostPort → HostPort) : Blk := { b with ports := b.ports.upd {} h f }
/-- F0 (`false`) or F1 (`true`) of host port h. -/
def Blk.fn (b : Blk) (h : Nat) (f1 : Bool) : Fn := if f1 then (b.port h).f1 else (b.port h).f0
def Blk.updFn (b : Blk) (h : Nat) (f1 : Bool) (f : Fn → Fn) : Blk :=
  b.updPort h (fun p => if f1 then { p with f1 := f p.f1 } else { p with f0 := f p.f0 })
def Blk.wq (b : Blk) (i q : Nat) : Wq := b.wqs.get {} (i * 64 + q)
def Blk.updWq (b : Blk) (i q : Nat) (f : Wq → Wq) : Blk := { b with wqs := b.wqs.upd {} (i * 64 + q) f }
def Blk.cq (b : Blk) (i q : Nat) : Cq := b.cqs.get {} (i * 64 + q)
def Blk.updCq (b : Blk) (i q : Nat) (f : Cq → Cq) : Blk := { b with cqs := b.cqs.upd {} (i * 64 + q) f }
def Blk.eq (b : Blk) (i e : Nat) : EvQ := b.eqs.get {} (i * 8 + e)
def Blk.updEq (b : Blk) (i e : Nat) (f : EvQ → EvQ) : Blk := { b with eqs := b.eqs.upd {} (i * 8 + e) f }
def Blk.inst (b : Blk) (i : Nat) : InstDyn := b.insts.dyn.get {} i
def Blk.updInst (b : Blk) (i : Nat) (f : InstDyn → InstDyn) : Blk :=
  { b with insts := { b.insts with dyn := b.insts.dyn.upd {} i f } }
def Blk.thread (b : Blk) (t : Nat) : Thread := b.cores.threads.get {} t
def Blk.updThread (b : Blk) (t : Nat) (f : Thread → Thread) : Blk :=
  { b with cores := { b.cores with threads := b.cores.threads.upd {} t f } }
def Blk.core (b : Blk) (c : Nat) : Core := b.cores.cores.get {} c
def Blk.updCore (b : Blk) (c : Nat) (f : Core → Core) : Blk :=
  { b with cores := { b.cores with cores := b.cores.cores.upd {} c f } }
def Blk.chan (b : Blk) (c : Nat) : Channel := b.cores.chans.get {} c
def Blk.updChan (b : Blk) (c : Nat) (f : Channel → Channel) : Blk :=
  { b with cores := { b.cores with chans := b.cores.chans.upd {} c f } }
def Blk.group (b : Blk) (g : Nat) : Group := b.cores.groups.get {} g
def Blk.updGroup (b : Blk) (g : Nat) (f : Group → Group) : Blk :=
  { b with cores := { b.cores with groups := b.cores.groups.upd {} g f } }
def Blk.fq (b : Blk) : Half → FaultQ
  | .west => b.cores.fqWest
  | .east => b.cores.fqEast
def Blk.updFq (b : Blk) (h : Half) (f : FaultQ → FaultQ) : Blk :=
  match h with
  | .west => { b with cores := { b.cores with fqWest := f b.cores.fqWest } }
  | .east => { b with cores := { b.cores with fqEast := f b.cores.fqEast } }
def Blk.pipe (b : Blk) (p : Nat) : Pipe := b.pipes.get {} p
def Blk.updPipe (b : Blk) (p : Nat) (f : Pipe → Pipe) : Blk := { b with pipes := b.pipes.upd {} p f }
def Blk.updLearn (b : Blk) (p : Nat) (f : LearnUnit → LearnUnit) : Blk :=
  b.updPipe p (fun x => { x with learn := f x.learn })
def Blk.lane (b : Blk) (l : Nat) : EthLane := b.eth.get {} l
def Blk.updLane (b : Blk) (l : Nat) (f : EthLane → EthLane) : Blk := { b with eth := b.eth.upd {} l f }
def Blk.dsport (b : Blk) (d : Nat) : Dsp := b.dsp.get {} d
def Blk.updDsp (b : Blk) (d : Nat) (f : Dsp → Dsp) : Blk := { b with dsp := b.dsp.upd {} d f }
def Blk.eng (b : Blk) (h : Nat) : Dma := b.dma.get {} h
def Blk.updEng (b : Blk) (h : Nat) (f : Dma → Dma) : Blk := { b with dma := b.dma.upd {} h f }
def Blk.chn (b : Blk) (h c : Nat) : Dch := (b.eng h).chans.get {} c
def Blk.updChn (b : Blk) (h c : Nat) (f : Dch → Dch) : Blk :=
  b.updEng h (fun e => { e with chans := e.chans.upd {} c f })
def Blk.slot (b : Blk) (k : Nat) : Slot := b.keys.slots.get {} k
def Blk.updSlot (b : Blk) (k : Nat) (f : Slot → Slot) : Blk :=
  { b with keys := { b.keys with slots := b.keys.slots.upd {} k f } }
def Blk.sa (b : Blk) (k : Nat) : SaState := b.keys.sas.get {} k
def Blk.updSa (b : Blk) (k : Nat) (f : SaState → SaState) : Blk :=
  { b with keys := { b.keys with sas := b.keys.sas.upd {} k f } }
def Blk.unit (b : Blk) (u : Nat) : Lu := b.keys.units.get {} u
def Blk.updUnit (b : Blk) (u : Nat) (f : Lu → Lu) : Blk :=
  { b with keys := { b.keys with units := b.keys.units.upd {} u f } }
def Blk.qp (b : Blk) (n : Nat) : Qp := b.rmt.qps.get {} n
def Blk.updQp (b : Blk) (n : Nat) (f : Qp → Qp) : Blk :=
  { b with rmt := { b.rmt with qps := b.rmt.qps.upd {} n f } }
def Blk.trig (b : Blk) (k : Nat) : Trig := b.rmt.trigs.get {} k
def Blk.updTrig (b : Blk) (k : Nat) (f : Trig → Trig) : Blk :=
  { b with rmt := { b.rmt with trigs := b.rmt.trigs.upd {} k f } }
def Blk.bport (b : Blk) (h : Nat) : BootPort := b.boot.ports.get {} h
def Blk.updBport (b : Blk) (h : Nat) (f : BootPort → BootPort) : Blk :=
  { b with boot := { b.boot with ports := b.boot.ports.upd {} h f } }
def Blk.ctlq (b : Blk) (k : CqKey) : CtlState := b.ctl.queues.get {} k
def Blk.updCtlq (b : Blk) (k : CqKey) (f : CtlState → CtlState) : Blk :=
  { b with ctl := { b.ctl with queues := b.ctl.queues.upd {} k f } }
def Blk.scan (b : Blk) (k : CqKey) : Scan := b.scans.get {} k
def Blk.updScan (b : Blk) (k : CqKey) (f : Scan → Scan) : Blk := { b with scans := b.scans.upd {} k f }

/-! Configuration of the newest epoch, and of the others. -/

def Cfg.inst (c : Cfg) (i : Nat) : InstCfg := c.insts.get {} i
def Cfg.wq (c : Cfg) (i q : Nat) : WqCfg := c.wqs.get {} (i * 64 + q)
def Cfg.cq (c : Cfg) (i q : Nat) : CqCfg := c.cqs.get {} (i * 64 + q)
def Cfg.eq (c : Cfg) (i e : Nat) : EqCfg := c.eqs.get {} (i * 8 + e)
def Cfg.qp (c : Cfg) (n : Nat) : QpCfg := c.qps.get {} n
def Cfg.win (c : Cfg) (i w : Nat) : WinCfg := c.wins.get {} (i * 65536 + w)
def Cfg.trig (c : Cfg) (k : Nat) : TrigCfg := c.trigs.get {} k
def Cfg.port (c : Cfg) (l : Nat) : PortCfg := c.ports.get {} l
def Cfg.sa (c : Cfg) (k : Nat) : SaCfg := c.sas.get {} k
def Cfg.prog (c : Cfg) (p : Nat) : Option PipeProg := c.progs.get none p
def Cfg.entries (c : Cfg) (p : Nat) : List TblEntry := c.tbls.get [] p
def Cfg.binding (c : Cfg) (k : Nat) : Binding := c.bindings.get none k
def Blk.cfg (b : Blk) : Cfg := b.ctl.cfg

/-- The configuration that holds an instance and its queues: the newest one; for an instance destroyed whose work still
drains, the one it was destroyed from (R155, R160). -/
def Blk.instCfg (b : Blk) (i : Nat) : Cfg :=
  if (b.cfg.inst i).life ≠ .absent then b.cfg
  else match b.ctl.dying.find? (fun d => d.1 == i) with
    | some d => d.2
    | none => b.cfg

/-- Host port whose link carries what is sent. -/
def Blk.emitPort (b : Blk) : Emit → Option Nat
  | .bus h _ _ _ | .msix h _ _ _ _ | .intx h _ _ | .ur h | .hostRead h _ | .ltr h _ => some h
  | .inst i _ _ | .atomicOp i _ _ _ _ => some ((b.instCfg i).inst i).port.toNat
  | .readData (.f0 h) _ | .readData (.f1 h) _ | .mss (.mctpPcie h) _ => some h.val
  | _ => none

/-- The link of a host port is in L0: it leaves L1 of its own accord when there is something to send (R74). -/
def Blk.linkAwake (b : Blk) (h : Nat) : Blk := { b with pm := b.pm.put .l0 h .l0 }

/-- Send something outward, over a link that leaves L1 for it (R74). -/
def Blk.emit (b : Blk) (e : Emit) : Blk :=
  { b with out := e :: b.out, pm := match b.emitPort e with
    | some h => b.pm.put .l0 h .l0
    | none => b.pm }

/-- The reference clock of Ethernet pair `k` is present (R505). -/
def Blk.ethRef (b : Blk) (k : Nat) : Bool := !b.elec.refLost.contains (16 + k)

/-- TB_STATUS.ref_present: the selected reference clock is present; free running selects none (R328). -/
def Blk.refHere (b : Blk) : Bool :=
  if b.clk.source = 0 then b.clk.refPresent else if b.clk.source = 1 then b.ethRef b.clk.refPair.toNat else false

/-- TB_STATUS.pps_present: 1PPS edges arrive no more than 1.5 s apart (R328). -/
def Blk.ppsHere (b : Blk) : Bool :=
  b.clk.ppsPresent && (b.clk.lastPps.map (fun t => decide (b.mono ≤ t + 1500000000))).getD false

/-- The configuration of epoch `e`: that of its live record, else the newest. -/
def Blk.cfgOf (b : Blk) (e : Nat) : Cfg :=
  match b.ctl.live.find? (fun r => r.num == e) with
  | some r => r.cfg
  | none => b.ctl.cfg

/-- The oldest live epoch, 0 before the first commit. -/
def Blk.oldestLive (b : Blk) : Nat := (b.ctl.live.head?.map (·.num)).getD 0

/-- The epoch in force in pipeline p (`k` = p) or core c (`k` = 8 + c): the newest that is visible there (R27). Epoch 0 is never
in force (R25): a unit that has none yet, from the first commit until EPOCH_VISIBLE, works under epoch 1 (DESIGN CHOICE, log
104). -/
def Blk.epochAt (b : Blk) (k : Nat) : Nat :=
  (b.ctl.live.filter (fun r => r.seen.contains k)).foldl (fun a r => max a r.num) b.oldestLive

/-- An epoch is visible everywhere when every pipeline and core has it (R27). -/
def EpochRec.everywhere (r : EpochRec) : Bool := (List.range 72).all (fun k => r.seen.contains k)

/-! Halves, ports and homes (R11, R14, R51). -/

/-- Half of host port h. -/
def halfOfPort (h : Nat) : Half := if h < 8 then .west else .east
/-- Half of Ethernet lane l. -/
def halfOfLane (l : Nat) : Half := if l < 64 then .west else .east
/-- Half of pipeline p. -/
def halfOfPipe (p : Nat) : Half := if p < 4 then .west else .east
/-- Half of thread t. -/
def halfOfThread (t : Nat) : Half := if t < 256 then .west else .east
/-- Pipeline that serves lane l. -/
def pipeOfLane (l : Nat) : Nat := l / 16
/-- Host ingress pipeline of host port h. -/
def pipeOfPort (h : Nat) : Nat := h / 2
/-- Home half of instance i: that of the host port it is bound to (R14). -/
def Blk.homeOf (b : Blk) (i : Nat) : Half := halfOfPort ((b.instCfg i).inst i).port.toNat

/-- Meeting points that a half holds. -/
def Blk.mp (b : Blk) : Half → Nat
  | .west => b.boot.mpWest.toNat
  | .east => b.boot.mpEast.toNat
/-- A half holds meeting point k (R20): bit k − 1. -/
def Blk.atPoint (b : Blk) (h : Half) (k : Nat) : Bool := bitOf (b.mp h) (k - 1)
/-- Device states (R89). -/
def bsWait : BootCode := 0
def bsVerifying : BootCode := 1
def bsTraining : BootCode := 2
def bsTrained : BootCode := 3
def bsEnabled : BootCode := 4
def bsRunning : BootCode := 5
def bsActivating : BootCode := 6
def bsRecovery : BootCode := 7
def bsJig : BootCode := 8
def bsFailed : BootCode := 15

/-- A half admits work: meeting point 3 (R20). -/
def Blk.serving (b : Blk) (h : Half) : Bool := b.atPoint h 3

/-- A pair is in x16 mode (R51). -/
def Blk.x16 (b : Blk) (h : Nat) : Bool := bitOf b.mss.widthNow.toNat (h / 2)
/-- A host port is absent (R51). -/
def Blk.absent (b : Blk) (h : Nat) : Bool := h % 2 == 1 && b.x16 h
/-- The port a number names: 2k in place of an absent 2k + 1 (R51). -/
def Blk.present (b : Blk) (h : Nat) : Nat := if b.absent h then h - 1 else h
/-- The owner host's port: the MSS setting, else the straps (R50, R458). -/
def Blk.ownerPort (b : Blk) : Nat :=
  b.present (if b.mss.set.ownerPort = 0xFF then b.boot.strapOwner.toNat else b.mss.set.ownerPort.toNat % 16)
/-- The port the BOOT_PORT straps name (R51). -/
def Blk.bootPort (b : Blk) : Nat := b.present b.boot.strapBoot.toNat
/-- The straps let a port load firmware (R57). -/
def Blk.loaderAllowed (b : Blk) (h : Nat) : Bool := b.boot.strapAny || h == b.bootPort

/-- A function may issue memory requests: Bus Master Enable, D0, no FLR, its link up (R78, R80). -/
def Blk.canIssue (b : Blk) (h : Nat) (f1 : Bool) : Bool :=
  (b.fn h f1).busMaster && !(b.fn h f1).d3 && !(b.fn h f1).flr && (b.port h).linkUp

/-! Memory: bytes by location (R191, R192). -/

/-- First address of the East half's HBM (R191). -/
def hbmEast : Nat := 0x000C00000000
/-- Bytes of HBM in system space in each half (R191). -/
def hbmSize : Nat := 0x000BC0000000
/-- First address of firmware memory (R191). -/
def fwBase : Nat := 0x002000000000
/-- Bytes of firmware memory. -/
def fwSize : Nat := 0x40000000
/-- First address of device space (R191). -/
def devBase : Nat := 0x003000000000

/-- Read one byte at a location; a byte that nothing has written reads 0. -/
def Blk.byte (b : Blk) (a : Nat) : Byte := b.mem.get 0 a
/-- Write one byte at a location. -/
def Blk.setByte (b : Blk) (a : Nat) (v : Byte) : Blk := { b with mem := b.mem.put 0 a v }
/-- Read `n` bytes from a location. -/
def Blk.bytes (b : Blk) (a n : Nat) : List Byte := (List.range n).map (fun k => b.byte (a + k))
/-- Write bytes of a table from a location. -/
def memPut (m : Tab Byte) (a : Nat) : List Byte → Tab Byte
  | [] => m
  | v :: r => memPut (m.put 0 a v) (a + 1) r
/-- Write bytes from a location. -/
def Blk.setBytes (b : Blk) (a : Nat) (l : List Byte) : Blk := { b with mem := memPut b.mem a l }

/-- A granule of 8 bytes is poisoned (R200). -/
def Blk.poisoned (b : Blk) (a : Nat) : Bool := b.poison.get false (a / 8)
/-- Granules that `n` bytes from `a` touch. -/
def granules (a n : Nat) : List Nat := if n = 0 then [] else (List.range ((a + n - 1) / 8 + 1 - a / 8)).map (· + a / 8)
/-- Granules that `n` bytes from `a` cover wholly. -/
def wholeGranules (a n : Nat) : List Nat := (granules a n).filter (fun g => a ≤ 8 * g && 8 * g + 8 ≤ a + n)
/-- Any byte of the range lies in a poisoned granule. -/
def Blk.anyPoison (b : Blk) (a n : Nat) : Bool := (granules a n).any (fun g => b.poison.get false g)
/-- Set or clear poison over granules. -/
def Blk.setPoison (b : Blk) (gs : List Nat) (v : Bool) : Blk :=
  { b with poison := gs.foldl (fun p g => p.put false g v) b.poison }
/-- The lines `lo` to below `hi` leave the L1I of every core (R212, R224). -/
def Blk.l1iDrop (b : Blk) (lo hi : Nat) : Blk :=
  { b with cores := { b.cores with cores := b.cores.cores.mapVals {} (fun _ c =>
      { c with l1i := c.l1i.dropKeys (fun k => decide (lo ≤ k ∧ k < hi)) }) } }

/-- First location of the table area of a pipeline, which is 2 GiB long (R293). -/
def tableArea (p : Nat) : Nat := (if p < 4 then 0x0009C0000000 else 0x0015C0000000) + p % 4 * 0x80000000

/-- Bytes from a location have been stored to: where they lie in a table area, that pipeline's tables are undefined (R293). -/
def Blk.tablesHit (b : Blk) (a n : Nat) : Blk :=
  (List.range 8).foldl (fun b p =>
    if 0 < n ∧ a < tableArea p + 0x80000000 ∧ tableArea p < a + n then
      { b with pipes := b.pipes.upd {} p (fun x => { x with undef := true }) }
    else b) b

/-- A write by a device unit to HBM: bytes, whole granules cleared of poison (R200), every cached copy of its lines
invalidated, those of the L1Is too (R212); tables that it hits are undefined (R293). -/
def Blk.devWrite (b : Blk) (a : Nat) (l : List Byte) : Blk :=
  let b1 := ((b.setBytes a l).setPoison (wholeGranules a l.length) false).tablesHit a l.length
  Blk.l1iDrop { b1 with
    dir := (List.range ((a + l.length + 63) / 64 - a / 64)).foldl (fun d k => d.put 0 (a / 64 + k) 0) b1.dir }
    (a / 64) ((a + l.length + 63) / 64)

/-- Key of ERR_CORR and ERR_UNCORR (R490). -/
def errKey (s : Nat) (h : Half) : Nat := h.code * 32 + s

/-- Count an uncorrectable or unit-fault event (R490). -/
def Blk.errUncorr (b : Blk) (s : Nat) (h : Half) : Blk :=
  { b with rel := { b.rel with uncorr := b.rel.uncorr.upd 0 (errKey s h) (fun c => sat64 c 1) } }

/-- Location of the 64-byte HBM table slot of a key (R293): which slot it is, the spec does not say. -/
def hbmSlotLoc (p table : Nat) (key : List Byte) : Nat := tableArea p + Config.hbmSlot p table key % 20971520 * 64

/-! The Reel (R468). -/

/-- Bytes of a Reel record (R468). -/
def ReelRec.bytes (r : ReelRec) : List Byte :=
  bytesLE 8 r.seq ++ bytesLE 2 r.type ++ bytesLE 1 r.severity ++ bytesLE 1 r.origin ++ bytesLE 4 r.tbSec ++
  bytesLE 8 r.mono ++ slice r.body 0 40

/-- SHA-256 as 32 bytes. -/
def sha (l : List Byte) : List Byte := bytesBE 32 (Config.sha256 l).toNat

/-- Seconds of the timebase. -/
def Blk.tbSec (b : Blk) : Nat := b.clk.tb / (1000000000 * 65536)

/-- Records in the Reel's record area (R468). -/
def reelSlots : Nat := 458752

/-- Put a record at the end of the Reel: its slot, the chain (R469), the counts (R470). -/
def Reel.add (r : Reel) (x : ReelRec) : Reel :=
  let x := { x with seq := r.next }
  { r with next := r.next + 1, recs := r.recs.put none (r.next % reelSlots) (some x),
           chain := sha ((if r.chain = [] then List.replicate 32 0 else r.chain) ++ x.bytes),
           sinceSeal := r.sinceSeal + 1 }

/-- Accept a record under the rate limit of 10,000 a second (R468). -/
def Reel.accept (r : Reel) (sec : Nat) (x : ReelRec) : Reel :=
  let n := if r.second = sec then r.inSecond else 0
  if 10000 ≤ n then { r with discarded := r.discarded + 1 }
  else { r.add x with second := sec, inSecond := n + 1 }

/-- Write a Reel record; while the MSS restarts it is latched (R471). -/
def Blk.reelRaw (b : Blk) (type severity origin : Nat) (body : List Byte) : Blk :=
  let x : ReelRec := { seq := 0, type := type, severity := severity, origin := origin,
                       tbSec := b.tbSec % 2 ^ 32, mono := b.mono, body := body }
  if b.mss.fw.up then { b with mss := { b.mss with reel := b.mss.reel.accept (b.mono / 1000000000) x } }
  else { b with mss := { b.mss with latched := b.mss.latched ++ [x] } }

/-- Write a Reel record whose severity and body layout the spec does not state: free values of its fields (R468). -/
def Blk.reel (b : Blk) (type origin : Nat) (fields : List Nat) : Blk :=
  (b.reelRaw type (b.freeVal.toNat % 4) origin (Config.reelBody type fields)).drawn 1

/-- Origin code of a half (R468). -/
def originOf : Half → Nat
  | .west => 1
  | .east => 2

end Sys2Proof.Machine
end

