-- ==== Sys2Proof/Machine/Operands.lean ====
section
/-! DEFINITION. The operand forms of work-queue entries: their fields (chapter 05, "Entry layouts"), the format checks
of R110, and the completion entry. -/

namespace Sys2Proof.Machine
open Sys2Proof

/-- Opcode, flags and user tag of the common header. -/
def weOp (e : W512) : Nat := ent e 0 1
def weQuiet (e : W512) : Bool := bitOf (ent e 1 1) 0
def weFence (e : W512) : Bool := bitOf (ent e 1 1) 1
def weTag (e : W512) : Nat := ent e 8 8

/-! PKT_SEND. -/
def psAddr (e : W512) : Nat := ent e 16 8
def psLen (e : W512) : Nat := ent e 24 4
def psTsId (e : W512) : Nat := ent e 28 2
def psTc (e : W512) : Nat := ent e 30 1 % 8
def psTsReq (e : W512) : Bool := bitOf (ent e 30 1) 3
def psLaunch (e : W512) : Bool := bitOf (ent e 30 1) 4
def psSec (e : W512) : Nat := ent e 32 6
def psNsec (e : W512) : Nat := ent e 40 4 % 2 ^ 30
def psMeta (e : W512) : Nat := ent e 44 4

/-! PKT_RECV and RMT_RECV. -/
def rvQpn (e : W512) : Nat := ent e 4 3
def rvAddr (e : W512) : Nat := ent e 16 8
def rvLen (e : W512) : Nat := ent e 24 4

/-! RMT_SEND. -/
def rsSolicited (e : W512) : Bool := bitOf (ent e 1 1) 2
def rsTriggered (e : W512) : Bool := bitOf (ent e 1 1) 3
def rsCountDone (e : W512) : Bool := bitOf (ent e 1 1) 4
def rsTrig (e : W512) : Nat := ent e 2 2
def rsQpn (e : W512) : Nat := ent e 4 3
def rsLocal (e : W512) : Nat := ent e 16 8
def rsLen (e : W512) : Nat := ent e 24 4
def rsRkey (e : W512) : Nat := ent e 28 4
def rsRemote (e : W512) : Nat := ent e 32 8
def rsThreshold (e : W512) : Nat := ent e 40 4
def rsDone (e : W512) : Nat := ent e 44 2
def rsOp0 (e : W512) : Nat := ent e 48 8
def rsOp1 (e : W512) : Nat := ent e 56 8
def rsImm (e : W512) : Nat := ent e 56 4

/-! CIPHER. -/
def cpAutoIv (e : W512) : Bool := bitOf (ent e 1 1) 2
def cpUnit (e : W512) : Nat := ent e 2 2
def cpSlot (e : W512) : Nat := ent e 4 2
def cpAlg (e : W512) : Nat := ent e 6 1
def cpSrc (e : W512) : Nat := ent e 16 8
def cpDst (e : W512) : Nat := ent e 24 8
def cpLen (e : W512) : Nat := ent e 32 4
def cpAad (e : W512) : Nat := ent e 36 4
def cpTagAddr (e : W512) : Nat := ent e 40 8
def cpIv (e : W512) : Nat := ent e 48 16

/-- WQ kind codes (R101). -/
def kPktSend : Nat := 1
def kPktRecv : Nat := 2
def kRmtSend : Nat := 3
def kRmtRecv : Nat := 4
def kCipher : Nat := 5
def kControl : Nat := 6

/-- Families of algorithms for a CIPHER entry (R347, R361). -/
inductive Mode where
  | gcm
  | xts
  | cmac
  | gmac
  deriving DecidableEq, Repr

/-- Family of an algorithm code that lookaside work may name (R347). -/
def modeOf (alg : Nat) : Option Mode :=
  if alg = 1 ∨ alg = 2 then some .gcm
  else if alg = 6 then some .xts
  else if alg = 7 ∨ alg = 8 then some .cmac
  else if alg = 9 ∨ alg = 0x0A then some .gmac
  else none

/-- R347 allows the opcode for the family: 0x20 ENCRYPT, 0x21 DECRYPT, 0x22 VERIFY, 0x23 TAG. -/
def modeOp (m : Mode) (op : Nat) : Bool :=
  match m with
  | .gcm => 0x20 ≤ op && op ≤ 0x23
  | .xts => op == 0x20 || op == 0x21
  | .cmac => op == 0x22 || op == 0x23
  | .gmac => op == 0x22 || op == 0x23

/-- RMT_SEND opcodes. -/
def rmtOp (op : Nat) : Bool := op == 0x10 || op == 0x11 || op == 0x12 || op == 0x13 || op == 0x15 || op == 0x16
/-- The atomics among them. -/
def atomicOp (op : Nat) : Bool := op == 0x15 || op == 0x16

/-- Check 1 of R110: the opcode is known for the kind, and suits the algorithm. -/
def fmtOpcode (kind : Nat) (e : W512) : Bool :=
  if kind = kPktSend then weOp e == 0x01
  else if kind = kPktRecv then weOp e == 0x02
  else if kind = kRmtSend then rmtOp (weOp e)
  else if kind = kRmtRecv then weOp e == 0x14
  else
    match modeOf (cpAlg e) with
    | some m => modeOp m (weOp e)
    | none => false

/-- Check 2 of R110: reserved fields are 0, as the opcode and the algorithm define them. DESIGN CHOICE (log 112): a qpn other than
0 in a PKT_RECV, and bytes 2, 3 and 7 of PKT_RECV and RMT_RECV, which the layout does not list, are judged here. -/
def fmtRsv (kind : Nat) (e : W512) : Bool :=
  let flags := ent e 1 1
  if kind = kPktSend then
    flags / 4 == 0 && ent e 2 6 == 0 && ent e 30 1 / 32 == 0 && ent e 31 1 == 0 && ent e 38 2 == 0 &&
    ent e 40 4 / 2 ^ 30 == 0 && ent e 48 16 == 0
  else if kind = kPktRecv then
    flags / 4 == 0 && ent e 2 6 == 0 && ent e 28 36 == 0
  else if kind = kRmtRecv then
    flags / 4 == 0 && ent e 2 2 == 0 && ent e 7 1 == 0 && ent e 28 36 == 0
  else if kind = kRmtSend then
    flags / 32 == 0 && ent e 7 1 == 0 && ent e 46 2 == 0 && (weOp e != 0x11 || ent e 60 4 == 0)
  else
    let m := modeOf (cpAlg e)
    let tagging := weOp e == 0x20 || weOp e == 0x23
    flags / 8 == 0 && ent e 7 1 == 0 &&
    (!cpAutoIv e || (tagging && (m == some .gcm || m == some .gmac))) &&
    (!(m == some .gcm || m == some .gmac) || ent e 60 4 == 0) &&
    (m != some .cmac || cpIv e == 0) &&
    (!(weOp e == 0x22 || weOp e == 0x23) || cpDst e == 0) &&
    (m != some .xts || cpTagAddr e == 0)

/-- Check 3 of R110: lengths. -/
def fmtLength (kind : Nat) (e : W512) : Bool :=
  let within := fun n lo hi : Nat => decide (lo ≤ n) && decide (n ≤ hi)
  if kind = kPktSend then within (psLen e) 60 9600
  else if kind = kPktRecv then within (rvLen e) 64 16384
  else if kind = kRmtRecv then within (rvLen e) 0 1073741824
  else if kind = kRmtSend then
    if atomicOp (weOp e) then rsLen e == 8 else within (rsLen e) 0 1073741824
  else
    match modeOf (cpAlg e) with
    | some .gcm =>
      within (cpAad e) 0 65535 && within (cpLen e) 1 (if weOp e = 0x20 ∨ weOp e = 0x21 then 1048576 else 16777216)
    | some .xts => cpAad e == 0 && within (cpLen e) 16 16777216
    | _ => cpAad e == 0 && within (cpLen e) 1 16777216

/-- Check 4 of R110: alignment of an atomic's addresses. -/
def fmtAlign (kind : Nat) (e : W512) : Bool :=
  !(kind == kRmtSend && atomicOp (weOp e)) || (rsLocal e % 8 == 0 && rsRemote e % 8 == 0)

/-- Check 5 of R110: reference ranges. -/
def fmtRef (kind : Nat) (e : W512) : Bool :=
  if kind = kRmtSend then decide (2 ≤ rsQpn e) && decide (rsQpn e ≤ 1048575)
  else if kind = kRmtRecv then rvQpn e == 0 || (decide (2 ≤ rvQpn e) && decide (rvQpn e ≤ 1048575))
  else if kind = kCipher then decide (cpUnit e ≤ 31)
  else true

/-- The format checks of R110, in order: the reason of the first that fails. -/
def fmtCheck (kind : Nat) (e : W512) : Option Nat :=
  if !fmtOpcode kind e then some 0x0102
  else if !fmtRsv kind e then some 0x0101
  else if !fmtLength kind e then some 0x0103
  else if !fmtAlign kind e then some 0x0105
  else if !fmtRef kind e then some 0x0106
  else none

/-- The fields of a completion entry (chapter 05). -/
structure CplF where
  status : Nat := 0
  opcode : Nat := 0
  immValid : Bool := false
  tsValid : Bool := false
  wq : Nat := 0xFFFF
  idx : Nat := 0
  tag : Nat := 0
  length : Nat := 0
  imm : Nat := 0
  /-- Bytes 24 to 31. -/
  tail : Nat := 0
  deriving DecidableEq, Repr

/-- The 32 bytes of a completion entry. -/
def CplF.raw (c : CplF) : Cpl :=
  BitVec.ofNat 256 (natLE (bytesLE 2 c.status ++ bytesLE 1 c.opcode ++
    bytesLE 1 ((if c.immValid then 1 else 0) + (if c.tsValid then 2 else 0)) ++ bytesLE 2 c.wq ++ bytesLE 2 c.idx ++
    bytesLE 8 c.tag ++ bytesLE 4 c.length ++ bytesLE 4 c.imm ++ bytesLE 8 c.tail))

/-- The completion of an entry with a status and a length (R113). -/
def cplOf (e : Entry) (q status length : Nat) : CplF :=
  { status := status, opcode := weOp e.raw, wq := q, idx := e.idx.toNat, tag := weTag e.raw, length := length }

end Sys2Proof.Machine
end

