-- ==== Sys2Proof/Machine/CtlFields.lean ====
section
/-! DEFINITION. The control instruction as the queue carries it (R127): opcodes, operand fields, reserved bits
(chapters 06 and 07). -/

namespace Sys2Proof.Machine
open Sys2Proof

/-- The control instructions of R152. -/
inductive COp where
  | create | enable | disable | destroy | invalidate
  | tblInsert | tblDelete | tblModify | tblQuery | pipeLoad
  | qpConnect | qpTune | winModify | rmtConfig
  | keyImport | keyBind | keyRetire
  | timeStep | timeServo | timeSource
  | qCreate | qEnable | qDisable | qDestroy | qReset
  | instResize | instAttach | dirtyLog | poolSet | powerCap | slotControl
  | query | summary
  | begin_ | commit | abort | fence
  deriving DecidableEq, Repr

/-- The opcodes of R152. -/
def copTable : List (Nat × COp) :=
  [(0x0100, .create), (0x0101, .enable), (0x0102, .disable), (0x0103, .destroy), (0x0104, .invalidate),
   (0x0200, .tblInsert), (0x0201, .tblDelete), (0x0202, .tblModify), (0x0203, .tblQuery), (0x0210, .pipeLoad),
   (0x0300, .qpConnect), (0x0301, .qpTune), (0x0302, .winModify), (0x0310, .rmtConfig),
   (0x0400, .keyImport), (0x0401, .keyBind), (0x0402, .keyRetire),
   (0x0500, .timeStep), (0x0501, .timeServo), (0x0502, .timeSource),
   (0x0600, .qCreate), (0x0601, .qEnable), (0x0602, .qDisable), (0x0603, .qDestroy), (0x0604, .qReset)] ++
  [(0x0610, .instResize), (0x0611, .instAttach), (0x0612, .dirtyLog), (0x0620, .poolSet), (0x0630, .powerCap),
   (0x0640, .slotControl), (0x0700, .query), (0x0701, .summary),
   (0x0F00, .begin_), (0x0F01, .commit), (0x0F02, .abort), (0x0F03, .fence)]

/-! Header fields (R127). -/
def ciOpcode (e : W512) : Nat := ent e 0 2
def ciOp (e : W512) : Option COp := (copTable.find? (fun x => x.1 == ciOpcode e)).map (·.2)
def ciVersion (e : W512) : Nat := ent e 2 1 % 16
def ciExt (e : W512) : Bool := bitOf (ent e 2 1) 4
def ciSeq (e : W512) : Nat := ent e 4 2 % 4096
def ciTag (e : W512) : Nat := ent e 8 8
def ciExtAddr (e : W512) : Nat := ent e 48 8
def ciExtLen (e : W512) : Nat := ent e 56 4

/-! Object reference (R154). -/
def ciKind (e : W512) : Nat := ent e 16 1
def ciInst (e : W512) : Nat := ent e 18 2 % 8192
def ciId (e : W512) : Nat := ent e 20 3

/-- Instance number in bytes 16 to 17 (R180 to R182). -/
def ciInst16 (e : W512) : Nat := ent e 16 2 % 8192
/-- QP number in bytes 16 to 18. -/
def ciQpn (e : W512) : Nat := ent e 16 3
/-- Pipelines mask in byte 16. -/
def ciPipes (e : W512) : List Nat := (List.range 8).filter (fun p => bitOf (ent e 16 1) p)

/-- Kind codes of R154. -/
def oInst : Nat := 1
def oWq : Nat := 2
def oCq : Nat := 3
def oEq : Nat := 4
def oQp : Nat := 5
def oWin : Nat := 6
def oTrig : Nat := 7
def oPort : Nat := 8
def oSa : Nat := 9

/-- Kinds of the queue forms. -/
def isQueueKind (k : Nat) : Bool := 2 ≤ k && k ≤ 4

/-- Highest id of a kind (R154). -/
def idMax (k : Nat) : Nat :=
  if k = oWq ∨ k = oCq then 63 else if k = oEq then 7 else if k = oQp then 1048575
  else if k = oWin ∨ k = oTrig then 65535 else if k = oPort then 127 else if k = oSa then 262143 else 0
/-- Lowest id of a kind. -/
def idMin (k : Nat) : Nat := if k = oQp then 2 else 0

/-- Pairs (resource code, bushels) of INST.RESIZE (R180). -/
def rzCount (e : W512) : Nat := ent e 20 1
def rzPairs (e : W512) : List (Nat × Nat) :=
  (List.range (rzCount e)).map (fun k => (ent e (24 + 4 * k) 1, ent e (25 + 4 * k) 3))

/-- Bits of the instruction that its layout names, as (first bit, width): header, then operands (R127, R130, R154 to
R187). -/
def refBits (k : Nat) : List (Nat × Nat) :=
  if k = oPort ∨ k = oSa then [(128, 8), (160, 24)] else [(128, 8), (144, 13), (160, 24)]

/-- Operand bits of CREATE by kind (R158). -/
def createBits (k : Nat) (e : W512) : List (Nat × Nat) :=
  if k = oInst then [(192, 4), (200, 1), (224, 20), (256, 64)]
  else if k = oQp then [(192, 6), (200, 6), (208, 8), (224, 10)]
  else if k = oWin then [(192, 64), (256, 64), (320, 32), (352, 3), (360, 1), (384, 24)]
  else if k = oTrig then [(192, 32), (224, 24)]
  else if k = oPort then [(192, 8), (200, 2), (208, 8), (216, 2), (224, 16), (240, 8)]
  else if k = oSa then
    [(192, 1), (200, 2), (208, 16), (224, 8), (232, 8), (240, 7), (256, if ent e 25 1 % 4 = 1 then 32 else 64),
     (320, 64), (384, 32)]
  else [(192, 320)]

/-- Operand bits of the queue CREATE by kind (R178). -/
def qCreateBits (k : Nat) : List (Nat × Nat) :=
  if k = oWq then [(192, 4), (200, 4), (208, 6), (256, 64)]
  else if k = oCq then [(200, 4), (208, 6), (224, 16), (256, 64), (320, 64)]
  else if k = oEq then [(200, 4), (208, 11), (256, 64), (320, 64)]
  else [(192, 320)]

/-- Operand bits by instruction. -/
def opBits (o : COp) (e : W512) : List (Nat × Nat) :=
  let k := ciKind e
  match o with
  | .create => refBits k ++ createBits k e
  | .enable | .disable | .destroy | .qEnable | .qDisable | .qDestroy | .qReset => refBits k
  | .invalidate => refBits k ++ [(192, 2), (256, 64), (320, 64), (384, 64)]
  | .tblInsert | .tblDelete | .tblModify => [(128, 8), (144, 16), (160, 8), (168, 8), (192, 32), (224, 16), (256, 128)]
  | .tblQuery => [(128, 8), (144, 16), (160, 8), (192, 1), (208, 16), (256, 64)]
  | .pipeLoad => [(128, 8), (160, 32), (192, 32), (224, 1)]
  | .qpConnect => [(128, 24), (152, 1), (160, 24), (184, 8), (192, 128), (320, 16), (336, 6), (344, 3), (384, 128)]
  | .qpTune => [(128, 24), (160, 32), (192, 8), (200, 3), (208, 16)]
  | .winModify => refBits k ++ [(192, 64), (256, 64), (320, 32), (352, 3), (360, 1), (368, 4)]
  | .rmtConfig => [(128, 16)]
  | .keyImport => [(128, 16), (144, 8), (152, 8), (160, 16), (192, 64)]
  | .keyBind => [(128, 16), (144, 13), (160, 1)]
  | .keyRetire => [(128, 16), (144, 1)]
  | .timeStep => [(128, 64), (192, 16)]
  | .timeServo => [(128, 5), (136, 5), (144, 2), (160, 32), (192, 64)]
  | .timeSource => [(128, 8), (136, 8)]
  | .qCreate => refBits k ++ qCreateBits k
  | .instResize => [(128, 13), (160, 8), (192, 32 * rzCount e)]
  | .instAttach => [(128, 13), (144, 4)]
  | .dirtyLog => [(128, 13), (144, 1), (152, 5), (192, 64), (256, 64)]
  | .poolSet => [(128, 8), (136, 8), (160, 32)]
  | .powerCap => [(128, 16)]
  | .slotControl => [(128, 3), (136, 2), (144, 2), (152, 2), (160, 1)]
  | .query => refBits k ++ [(192, 1), (208, 16)]
  | .summary => [(128, 2), (144, 16), (192, 64), (256, 32)]
  | .begin_ => [(128, 64), (192, 32), (224, 1), (256, 64)]
  | .commit => [(128, 1)]
  | .abort => []
  | .fence => [(128, 2)]

/-- Bits of the header that R127 names, and those of the extension reference. -/
def headerBits (ext : Bool) : List (Nat × Nat) :=
  [(0, 16), (16, 5), (32, 12), (64, 64)] ++ (if ext then [(384, 64), (448, 32)] else [])

/-- A mask of bits. -/
def maskOf (l : List (Nat × Nat)) : Nat := l.foldl (fun m f => m ||| ((2 ^ f.2 - 1) * 2 ^ f.1)) 0

/-- Reserved header bits are 0: bytes 2 to 7. -/
def hdrRsvOk (e : W512) : Bool := bits (ent e 2 1) 5 3 == 0 && ent e 3 1 == 0 && ent e 4 2 / 4096 == 0 && ent e 6 2 == 0

/-- Reserved operand bits are 0 (R8). -/
def opRsvOk (o : COp) (e : W512) : Bool :=
  (e &&& ~~~(BitVec.ofNat 512 (maskOf (headerBits (ciExt e) ++ opBits o e)))) == 0

/-- The instruction names extension data (R153, R165). -/
def needsExt (o : COp) (e : W512) : Bool :=
  match o with
  | .tblInsert | .tblDelete | .tblModify | .pipeLoad | .keyImport => true
  | .tblQuery => ent e 24 1 % 2 == 0
  | _ => false

/-- The first refusal of a list of checks. -/
def firstOf : List (Option Nat) → Option Nat
  | [] => none
  | some r :: _ => some r
  | none :: l => firstOf l

/-- A check: none when the condition holds, the reason otherwise. -/
def chk (c : Bool) (reason : Nat) : Option Nat := if c then none else some reason

end Sys2Proof.Machine
end

