-- ==== Sys2Proof/Machine/Events.lean ====
section
/-! DEFINITION. Completions, events and interrupts: how an entry reaches a completion queue, an event queue, MSI-X or
INTx (R68 to R73, R113 to R122, R514, R515), and the writes an instance makes to its own memory (R446, R448). -/

namespace Sys2Proof.Machine
open Sys2Proof

/-! Writes of an instance. -/

/-- Pages of 4 KiB that `n` bytes from `a` touch. -/
def pagesOf (a n : Nat) : List Nat :=
  if n = 0 then [] else (List.range ((a + n - 1) / 4096 + 1 - a / 4096)).map (· + a / 4096)

/-- The pages a write changes wait to be recorded, once for each writer and page (R446). -/
def Dirty.note (d : Dirty) (writer a n : Nat) : Dirty :=
  if d.on then
    (pagesOf a n).foldl (fun d p =>
      if d.waiting.contains { writer := writer, page := p } then d
      else { d with waiting := d.waiting ++ [{ writer := writer, page := p }] }) d
  else d

/-- A translated write of an instance becomes visible (R436, R446). -/
def Blk.instWrite (b : Blk) (i writer va : Nat) (l : List Byte) : Blk :=
  (b.emit (.inst i va l)).updInst i (fun d => { d with dirty := d.dirty.note writer va l.length })

/-- The ring appears full: PI − CI, as last read, is its size (R447). -/
def Dirty.full (d : Dirty) : Bool := 2 ^ d.log2.toNat ≤ (d.pi - d.ci).toNat

/-- The instance may issue requests and its writes are not held: its dirty ring is not full, and does not appear full
before CI is read again (R78, R447, R448). -/
def Blk.instCan (b : Blk) (i : Nat) : Bool :=
  b.canIssue ((b.instCfg i).inst i).port.toNat true && !(b.inst i).detached && !(b.inst i).dirty.held &&
  !((b.inst i).dirty.on && (b.inst i).dirty.full)

/-! Interrupts. -/

/-- An event queue: the F0 EQ of a port, or EQ e of an instance (R101, R124). -/
inductive EqR where
  | f0 (h : Nat)
  | inst (i e : Nat)
  deriving DecidableEq, Repr

def Blk.evq (b : Blk) : EqR → EvQ
  | .f0 h => (b.port h).eq
  | .inst i e => b.eq i e
def Blk.updEvq (b : Blk) (r : EqR) (f : EvQ → EvQ) : Blk :=
  match r with
  | .f0 h => b.updPort h (fun p => { p with eq := f p.eq })
  | .inst i e => b.updEq i e f

/-- An EQ is pending while PI ≠ CI and int_en is 1 (R122). -/
def EvQ.pending (q : EvQ) : Bool := q.pi != q.ci && q.intEn

/-- Host port and function of an EQ. -/
def Blk.eqPort (b : Blk) : EqR → Nat
  | .f0 h => h
  | .inst i _ => ((b.instCfg i).inst i).port.toNat
def EqR.isF1 : EqR → Bool
  | .f0 _ => false
  | .inst _ _ => true
/-- The MSI-X vector an EQ names. -/
def Blk.eqVector (b : Blk) : EqR → Nat
  | .f0 h => (b.port h).eqVector.toNat
  | .inst i e => ((b.instCfg i).eq i e).vector.toNat
def Blk.eqSize (b : Blk) : EqR → Nat
  | .f0 h => 2 ^ (b.port h).eqLog2.toNat
  | .inst i e => 2 ^ ((b.instCfg i).eq i e).log2.toNat
def Blk.eqBase (b : Blk) : EqR → Nat
  | .f0 h => (b.port h).eqBase.toNat * 4096
  | .inst i e => ((b.instCfg i).eq i e).base.toNat

/-- An instance is bound to port h and attached (R61). -/
def Blk.boundTo (b : Blk) (i h : Nat) : Bool :=
  (b.cfg.inst i).life != .absent && (b.cfg.inst i).port.toNat == h && !(b.inst i).detached

/-- Some interrupt source of the function is pending (R68). -/
def Blk.intSource (b : Blk) (h : Nat) (f1 : Bool) : Bool :=
  if f1 then b.eqs.any (fun e => e.2.pending && b.boundTo (e.1 / 8) h) else (b.port h).eq.pending

/-- Send Assert_INTA or Deassert_INTA where the state of R68 has changed (R69, R71). -/
def Blk.evalIntx (b : Blk) (h : Nat) (f1 : Bool) : Blk :=
  let f := b.fn h f1
  let st := !f.intDis && !f.msixEn && b.intSource h f1
  if (b.port h).linkUp && !f.flr && st != f.inta then (b.updFn h f1 (fun x => { x with inta := st })).emit (.intx h f1 st)
  else b

/-- The vector may send: not masked, Bus Master Enable (R72). -/
def Blk.msiOpen (b : Blk) (h : Nat) (f1 : Bool) (v : Nat) : Bool :=
  (b.fn h f1).msixEn && !(b.fn h f1).fnMask && !((b.fn h f1).vecs.get {} v).mask && b.canIssue h f1

/-- The vector's address is not dword-aligned: nothing is sent (R73). -/
def Blk.msiBad (b : Blk) (h : Nat) (f1 : Bool) (v : Nat) : Bool := ((b.fn h f1).vecs.get {} v).addr.toNat % 4 != 0

/-- A message is due on a vector: sent, or its pending bit set (R72, R73). -/
def Blk.msiSend (b : Blk) (h : Nat) (f1 : Bool) (v : Nat) : Blk :=
  if b.msiOpen h f1 v then
    if b.msiBad h f1 v then b
    else b.emit (.msix h f1 v ((b.fn h f1).vecs.get {} v).addr ((b.fn h f1).vecs.get {} v).data)
  else if (b.fn h f1).msixEn then b.updFn h f1 (fun x => { x with pba := x.pba.put false v true })
  else b

/-! Events. -/

/-- Bytes of an EQ entry. -/
def Ev.bytes (e : Ev) (merged : Nat) : List Byte :=
  bytesLE 2 e.type.toNat ++ bytesLE 2 e.index.toNat ++ bytesLE 2 e.reason.toNat ++ bytesLE 2 e.value.toNat ++
  bytesLE 4 (min merged 0xFFFFFFFF) ++ bytesLE 4 0 ++ bytesLE 8 e.mono.toNat ++ bytesLE 8 e.detail.toNat

/-- The source of an event in its EQ (R117, R118). -/
def Ev.source (e : Ev) : Nat :=
  if e.type = 1 then e.index.toNat
  else if e.type = 2 ∨ e.type = 4 then 64 + e.index.toNat
  else if e.type = 3 then 128 + e.index.toNat
  else 256 + e.type.toNat

/-- The EQ can be written now (R514, R515, R448). -/
def Blk.eqCan (b : Blk) : EqR → Bool
  | .f0 h => (b.port h).eqEn && b.canIssue h false
  | .inst i e => b.instCan i && !(b.eq i e).xfault && !(b.eq i e).mirrorHeld

/-- A write of the EQ or of its mirror, on its port's path. -/
def Blk.eqWrite (b : Blk) (r : EqR) (a : Nat) (l : List Byte) : Blk :=
  match r with
  | .f0 h => b.emit (.bus h false a l)
  | .inst i _ => b.instWrite i 4 a l

/-- Write the PI mirror of an EQ (R116); a write whose translation fails is held (R515). -/
def Blk.eqMirror (b : Blk) (r : EqR) : Blk :=
  match r with
  | .f0 h =>
    if (b.port h).eqMirrorEn then b.eqWrite r ((b.port h).eqMirror.toNat * 4) (bytesLE 4 (b.port h).eq.pi.toNat) else b
  | .inst i e =>
    if (b.eq i e).mfault then b.updEq i e (fun q => { q with mirrorHeld := true })
    else b.eqWrite r ((b.instCfg i).eq i e).mirror.toNat (bytesLE 4 (b.eq i e).pi.toNat)

/-- Write one entry and the mirror; the source's entry stands from now (R113, R121). -/
def Blk.eqPut (b : Blk) (r : EqR) (ev : Ev) (merged : Nat) : Blk :=
  let q := b.evq r
  let b1 := b.eqWrite r (b.eqBase r + q.pi.toNat % b.eqSize r * 32) (ev.bytes merged)
  (b1.updEvq r (fun q => { q with
    pi := q.pi + 1, srcs := q.srcs.put {} ev.source { standing := some q.pi } })).eqMirror r

/-- An event arises: written, merged under R121, or held (R514, R515). No interrupt. -/
def Blk.eqTake (b : Blk) (r : EqR) (ev : Ev) : Blk :=
  let q := b.evq r
  let s := q.srcs.get {} ev.source
  let merge := fun q : EvQ =>
    { q with srcs := q.srcs.upd {} ev.source (fun s => { s with last := some ev, merged := s.merged + 1 }) }
  if s.standing.isSome || q.held.any (fun h => h.1.source == ev.source) then b.updEvq r merge
  else if !r.isF1 && !b.eqCan r then b.updEvq r merge
  else if r.isF1 && (!b.eqCan r || !q.held.isEmpty) then b.updEvq r (fun q => { q with held := q.held ++ [(ev, 0)] })
  else b.eqPut r ev 0

/-- An event arises in an EQ, with the interrupt that follows (R121, R122); a misaligned MSI-X address makes an
MSIX_ADDR event in the owner's F0 EQ (R73). `fuel` bounds that chain, which ends at the owner's own queue. -/
def Blk.raise : Nat → Blk → EqR → Ev → Blk
  | 0, b, r, ev => b.eqTake r ev
  | fuel + 1, b, r, ev =>
    let was := (b.evq r).pending
    let b1 := b.eqTake r ev
    if !was && (b1.evq r).pending then
      let h := b1.eqPort r
      let v := b1.eqVector r
      let b2 := (b1.msiSend h r.isF1 v).evalIntx h r.isF1
      if b1.msiOpen h r.isF1 v && b1.msiBad h r.isF1 v then
        Blk.raise fuel b2 (.f0 b2.ownerPort)
          { type := 0x0011, index := BitVec.ofNat 16 h, value := BitVec.ofNat 16 v, mono := BitVec.ofNat 64 b2.mono }
      else b2
    else b1.evalIntx (b1.eqPort r) r.isF1

/-- An event with the present MONO. -/
def Blk.ev (b : Blk) (type index reason value detail : Nat) : Ev :=
  { type := BitVec.ofNat 16 type, index := BitVec.ofNat 16 index, reason := BitVec.ofNat 16 reason,
    value := BitVec.ofNat 16 value, mono := BitVec.ofNat 64 b.mono, detail := BitVec.ofNat 64 detail }

/-- A device event, to the owner host's F0 EQ (R124). -/
def Blk.devEvent (b : Blk) (type index : Nat) (reason : Nat := 0) (value : Nat := 0) (detail : Nat := 0) : Blk :=
  Blk.raise 3 b (.f0 b.ownerPort) (b.ev type index reason value detail)

/-- A device event of the management die: latched while the MSS restarts (R471). -/
def Blk.mssEvent (b : Blk) (type index : Nat) (reason : Nat := 0) (value : Nat := 0) (detail : Nat := 0) : Blk :=
  if b.mss.fw.up then b.devEvent type index reason value detail
  else { b with mss := { b.mss with latchedEv := b.mss.latchedEv ++ [b.ev type index reason value detail] } }

/-- A message is due on the EQ's vector: after a write of EQ_CI or EQ_CTRL (R122). -/
def Blk.msiDue (b : Blk) (r : EqR) : Blk :=
  let h := b.eqPort r
  let v := b.eqVector r
  let b1 := (b.msiSend h r.isF1 v).evalIntx h r.isF1
  if b.msiOpen h r.isF1 v && b.msiBad h r.isF1 v then b1.devEvent 0x0011 h 0 v 0 else b1

/-- The entry with index `x` is below the consumer index `ci` (R121). -/
def eqConsumed (pi ci x : W16) : Bool := decide ((pi - ci).toNat < (pi - x).toNat)

/-- Consume entries: standing entries below CI end (R121). -/
def EvQ.consume (q : EvQ) (ci : W16) : EvQ :=
  { q with ci := ci,
           srcs := q.srcs.mapVals {} (fun _ s =>
             match s.standing with
             | some x => if eqConsumed q.pi ci x then { s with standing := none } else s
             | none => s) }

/-- Sources whose events wait with no entry standing: their last events, in order of source. -/
def EvQ.due (q : EvQ) : List (Ev × Nat) :=
  q.srcs.filterMap (fun e =>
    match e.2.standing, e.2.last with
    | none, some ev => some (ev, e.2.merged - 1)
    | _, _ => none)

/-- Write one entry for each source whose merged events wait (R121, R514); held ones of an instance EQ wait behind
earlier ones (R515). -/
def Blk.eqFlush (b : Blk) (r : EqR) : Blk :=
  if b.eqCan r && (b.evq r).held.isEmpty then
    (b.evq r).due.foldl (fun b e => b.eqPut r e.1 e.2) b
  else if r.isF1 then
    b.updEvq r (fun q =>
      { q with held := q.held ++ q.due,
               srcs := q.due.foldl (fun t e => t.put {} e.1.source {}) q.srcs })
  else b

/-- A held mirror write of an instance EQ is tried again (R515). -/
def Blk.eqMirrorRetry (b : Blk) (r : EqR) : Blk :=
  match r with
  | .f0 _ => b
  | .inst i e =>
    if b.instCan i && (b.eq i e).mirrorHeld && !(b.eq i e).mfault then
      (b.updEq i e (fun q => { q with mirrorHeld := false })).eqMirror r
    else b

/-- Try the held mirror and the held entries of an instance EQ again (R515, R78, R448). -/
def Blk.eqRetry (b0 : Blk) (r : EqR) : Blk :=
  let b := b0.eqMirrorRetry r
  if b.eqCan r then
    let was := (b.evq r).pending
    let hs := (b.evq r).held
    let src := (b.evq r).srcs
    -- events merged while an entry was held stay merged behind it
    let b1 := hs.foldl (fun b e =>
      (b.eqPut r e.1 e.2).updEvq r (fun q => { q with srcs := q.srcs.upd {} e.1.source (fun s =>
        { s with last := (src.get {} e.1.source).last, merged := (src.get {} e.1.source).merged }) }))
      (b.updEvq r (fun q => { q with held := [] }))
    if !was && (b1.evq r).pending then b1.msiDue r else b1.evalIntx (b1.eqPort r) r.isF1
  else b

/-- F0 EQ of a port can be written again: one entry for each source that kept events (R514). -/
def Blk.f0Flush (b : Blk) (h : Nat) : Blk :=
  if b.eqCan (.f0 h) then
    let was := (b.evq (.f0 h)).pending
    let b1 := b.eqFlush (.f0 h)
    if !was && (b1.evq (.f0 h)).pending then b1.msiDue (.f0 h) else b1
  else b

/-- A write of EQ_CI or F0_EQ_CI (R106, R121, R122). -/
def Blk.eqCiWrite (b : Blk) (r : EqR) (ci : W16) : Blk :=
  if b.eqSize r < ((b.evq r).pi - ci).toNat then b.updEvq r (fun q => { q with ciError := true })
  else
    let b1 := (b.updEvq r (fun q => q.consume ci)).eqFlush r
    if (b1.evq r).pending then b1.msiDue r else b1.evalIntx (b1.eqPort r) r.isF1

/-- A write of int_en, or of ci_error as 1 (R122). -/
def Blk.eqCtrlWrite (b : Blk) (r : EqR) (intEn clear : Bool) : Blk :=
  let was := (b.evq r).pending
  let b1 := b.updEvq r (fun q => { q with intEn := intEn, ciError := q.ciError && !clear })
  if !was && (b1.evq r).pending then b1.msiDue r else b1.evalIntx (b1.eqPort r) r.isF1

/-! Completions. -/

/-- A completion queue: of a port's CTL block, of an instance, of the MSS queue. -/
inductive CqR where
  | ctl (h : Nat)
  | inst (i q : Nat)
  | mss
  deriving DecidableEq, Repr

def Blk.cqOf (b : Blk) : CqR → Cq
  | .ctl h => (b.port h).ctlCq
  | .inst i q => b.cq i q
  | .mss => b.mssCq
def Blk.updCqOf (b : Blk) (r : CqR) (f : Cq → Cq) : Blk :=
  match r with
  | .ctl h => b.updPort h (fun p => { p with ctlCq := f p.ctlCq })
  | .inst i q => b.updCq i q f
  | .mss => { b with mssCq := f b.mssCq }
def Blk.cqSize (b : Blk) : CqR → Nat
  | .ctl h => 2 ^ (b.port h).ctlCqLog2.toNat
  | .inst i q => 2 ^ ((b.instCfg i).cq i q).log2.toNat
  | .mss => 65535
def Blk.cqBase (b : Blk) : CqR → Nat
  | .ctl h => (b.port h).ctlCqBase.toNat * 4096
  | .inst i q => ((b.instCfg i).cq i q).base.toNat
  | .mss => 0

/-- The EQ that carries a CQ's events, and the index they name. -/
def Blk.cqEq (b : Blk) : CqR → Option (EqR × Nat)
  | .ctl h => some (.f0 h, 0)
  | .inst i q => some (.inst i ((b.instCfg i).cq i q).eq.toNat, q)
  | .mss => none

/-- The ring is full: PI − CI = size (R103). -/
def Blk.cqFull (b : Blk) (r : CqR) : Bool := decide (b.cqSize r ≤ ((b.cqOf r).pi - (b.cqOf r).ci).toNat)

/-- The ring can be written now (R123, R515, R78). -/
def Blk.cqCan (b : Blk) : CqR → Bool
  | .ctl h => (b.port h).ctlCqEn && b.canIssue h false
  | .inst i q => b.instCan i && !(b.cq i q).xfault && !(b.cq i q).mirrorHeld
  | .mss => b.mss.fw.up

/-- A write of a ring entry or mirror of a CQ. -/
def Blk.cqWrite (b : Blk) (r : CqR) (a : Nat) (l : List Byte) : Blk :=
  match r with
  | .ctl h => b.emit (.bus h false a l)
  | .inst i _ => b.instWrite i 4 a l
  | .mss => b.emit (.mssCpl (BitVec.ofNat 256 (natLE l)))

/-- Write the PI mirror (R114); a write whose translation fails is held (R515). -/
def Blk.cqMirror (b : Blk) (r : CqR) : Blk :=
  match r with
  | .ctl h =>
    if (b.port h).ctlMirrorEn then
      b.emit (.bus h false ((b.port h).ctlMirror.toNat * 4) (bytesLE 4 (b.port h).ctlCq.pi.toNat))
    else b
  | .inst i q =>
    if (b.cq i q).mfault then b.updCq i q (fun c => { c with mirrorHeld := true })
    else b.instWrite i 4 ((b.instCfg i).cq i q).mirror.toNat (bytesLE 4 (b.cq i q).pi.toNat)
  | .mss => b

/-- Raise an event of a CQ in its EQ. -/
def Blk.cqEvent (b : Blk) (r : CqR) (type : Nat) : Blk :=
  match b.cqEq r with
  | some (e, x) => Blk.raise 3 b e (b.ev type x 0 0 0)
  | none => b

/-- Write CQ_NOTIFY where the CQ is armed, and disarm it (R120); behind a held mirror write it waits (R113). -/
def Blk.cqNotify (b : Blk) (r : CqR) : Blk :=
  if (b.cqOf r).armed && !(b.cqOf r).mirrorHeld then (b.updCqOf r (fun c => { c with armed := false })).cqEvent r 1 else b

/-- Write the oldest held completion: entry, PI, mirror, event (R113). -/
def Blk.cqPut (b : Blk) (r : CqR) (x : HeldCpl) : Blk :=
  let pi := (b.cqOf r).pi.toNat
  let b1 := b.cqWrite r (b.cqBase r + pi % b.cqSize r * 32) (bytesLE 32 x.raw.toNat)
  let b2 := b1.updCqOf r (fun q => { q with pi := q.pi + 1, held := q.held.tail, armed := q.armed || x.solicited })
  let b3 := (b2.cqMirror r).cqNotify r
  { b3 with rmt := { b3.rmt with incs := b3.rmt.incs ++ x.bump.toList } }

/-- Write held completions while the ring has room and can be written; `fuel` bounds their number (R115). -/
def Blk.cqDrain : Nat → Blk → CqR → Blk
  | 0, b, _ => b
  | fuel + 1, b, r =>
    match (b.cqOf r).held with
    | [] => b
    | c :: _ => if b.cqFull r || !b.cqCan r then b else Blk.cqDrain fuel (b.cqPut r c) r

/-- A completion falls due: it takes its place behind those held, and CQ_FULL arises where it must wait for ring room
(R113, R115); writing it makes the increment of `bump` due (R409). -/
def Blk.complete (b : Blk) (r : CqR) (c : Cpl) (bump : Option Nat := none) (solicited : Bool := false)
    (epoch : Nat := 0) (qpn : Nat := 0) : Blk :=
  let b1 := b.updCqOf r (fun q => { q with held := q.held ++ [{ raw := c, bump := bump, solicited := solicited, epoch := epoch, qpn := qpn }] })
  let b2 := Blk.cqDrain (b1.cqOf r).held.length b1 r
  if !(b2.cqOf r).held.isEmpty && b2.cqFull r then b2.cqEvent r 2 else b2

/-- A held mirror write of an instance CQ is tried again, then the event that waited behind it (R113, R515). -/
def Blk.cqMirrorRetry (b : Blk) (r : CqR) : Blk :=
  match r with
  | .inst i q =>
    if b.instCan i && (b.cq i q).mirrorHeld && !(b.cq i q).mfault then
      ((b.updCq i q (fun c => { c with mirrorHeld := false })).cqMirror r).cqNotify r
    else b
  | _ => b

/-- Try the held mirror and the held completions again (R515, R78, R448). -/
def Blk.cqRetry (b0 : Blk) (r : CqR) : Blk :=
  let b := b0.cqMirrorRetry r
  if b.cqCan r then Blk.cqDrain (b.cqOf r).held.length b r else b

/-- A write of CQ_CI: advance, arm, write held completions (R106, R115, R120). -/
def Blk.cqCiWrite (b : Blk) (r : CqR) (ci : W16) (arm : Bool) : Blk :=
  if b.cqSize r < ((b.cqOf r).pi - ci).toNat then
    (b.updCqOf r (fun q => { q with ciError := true })).cqEvent r 4
  else
    let b1 := b.updCqOf r (fun q => { q with ci := ci, armed := q.armed || arm })
    let b2 := if arm && (b1.cqOf r).pi != ci then b1.cqNotify r else b1
    Blk.cqDrain (b2.cqOf r).held.length b2 r

/-! Pending MSI-X messages. -/

/-- Send every pending message that may go now, and clear its bit (R72). -/
def Blk.pbaFlush (b : Blk) (h : Nat) (f1 : Bool) : Blk :=
  ((b.fn h f1).pba.filter (fun e => b.msiOpen h f1 e.1)).foldl (fun b e =>
    let b1 := (b.updFn h f1 (fun x => { x with pba := x.pba.put false e.1 false })).msiSend h f1 e.1
    if b.msiBad h f1 e.1 then b1.devEvent 0x0011 h 0 e.1 0 else b1) b

/-- The writes of an instance may go again: its held completions and EQ entries are tried (R78, R448, R515). -/
def Blk.instRetry (b : Blk) (i : Nat) : Blk :=
  let b1 := ((b.cqs.filter (fun e => e.1 / 64 == i)).map (fun e => e.1 % 64)).foldl (fun b q => b.cqRetry (.inst i q)) b
  ((b1.eqs.filter (fun e => e.1 / 8 == i)).map (fun e => e.1 % 8)).foldl (fun b e => b.eqRetry (.inst i e)) b1

/-- The fault that an address meets before any entry is read (R438). -/
def preFault (root va : Nat) : Option XFault :=
  if 2 ^ 48 ≤ va then some .range else if root = 0 then some .noRoot else none

/-- No configuration that may serve work of an instance gives it a page table (R435, R438). -/
def Blk.rootless (b : Blk) (i : Nat) : Bool :=
  ((b.instCfg i).inst i).root == 0 && b.ctl.live.all (fun r => (r.cfg.inst i).root == 0)

/-- The answer to an access of an instance at an address: what R438 faults before any entry is read has no other answer. -/
def Blk.xlated (b : Blk) (i va : Nat) (a : Ans) : Ans :=
  match preFault (if b.rootless i then 0 else 1) va with
  | some c => .xfault c
  | none => a

/-- A translation fault of an instance is counted, and reported by the rule of R439. -/
def Blk.xlateFault (b : Blk) (i cause va : Nat) : Blk :=
  let d := b.inst i
  let b1 := b.updInst i (fun d => { d with xfaults := sat64 d.xfaults 1, faultReported := true })
  if d.faultReported then b1 else b1.devEvent 0x002E i 0 cause va

/-- Code of a translation fault cause (R439). -/
def xcode : XFault → Nat
  | .range => 1
  | .noRoot => 2
  | .notValid => 3
  | .reserved => 4
  | .permission => 5
  | .walkError => 6

end Sys2Proof.Machine
end

