-- ==== Sys2Proof/Machine/Queues.lean ====
section
/-! DEFINITION. Work queues: states, the doorbell scan, fetches, errors, completions in order (R101 to R113, R115,
R123). -/

namespace Sys2Proof.Machine
open Sys2Proof

/-- A work queue: of an instance, the CTL queue of a port, the MSS queue. -/
inductive WqR where
  | inst (i q : Nat)
  | ctl (h : Nat)
  | mss
  deriving DecidableEq, Repr

/-- Key of a control queue: port h is h, instance i is 16 + i, the MSS queue is 16 + 8,192. -/
def mssKey : CqKey := 16 + 8192
/-- The control queue a work queue is, if it is one. -/
def WqR.key : WqR → Option CqKey
  | .inst i q => if q = 0 then some (16 + i) else none
  | .ctl h => some h
  | .mss => some mssKey
/-- Owner of the scan that serves a queue. -/
def WqR.scanKey : WqR → CqKey
  | .inst i _ => 16 + i
  | .ctl h => h
  | .mss => mssKey

def Blk.wqOf (b : Blk) : WqR → Wq
  | .inst i q => b.wq i q
  | .ctl h => (b.port h).ctlWq
  | .mss => b.mssWq
def Blk.updWqOf (b : Blk) (r : WqR) (f : Wq → Wq) : Blk :=
  match r with
  | .inst i q => b.updWq i q f
  | .ctl h => b.updPort h (fun p => { p with ctlWq := f p.ctlWq })
  | .mss => { b with mssWq := f b.mssWq }
/-- Ring size (R102). -/
def Blk.wqSize (b : Blk) : WqR → Nat
  | .inst i q => 2 ^ ((b.instCfg i).wq i q).log2.toNat
  | .ctl h => 2 ^ (b.port h).ctlWqLog2.toNat
  | .mss => 32768
/-- The queue is created and enabled. -/
def Blk.wqEnabled (b : Blk) : WqR → Bool
  | .inst i q => (b.cfg.wq i q).life = .enabled
  | .ctl h => (b.port h).ctlWqEn
  | .mss => true
/-- Kind of a WQ. -/
def Blk.wqKind (b : Blk) : WqR → Nat
  | .inst i q => ((b.instCfg i).wq i q).kind.toNat
  | .ctl _ => kControl
  | .mss => kControl
/-- The CQ a WQ is bound to. -/
def Blk.wqCq (b : Blk) : WqR → CqR
  | .inst i q => .inst i ((b.instCfg i).wq i q).cq.toNat
  | .ctl h => .ctl h
  | .mss => .mss

/-- Host function whose Bus Master Enable the fetches need (R78, R123). -/
def Blk.wqCanIssue (b : Blk) : WqR → Bool
  | .inst i _ => b.canIssue ((b.instCfg i).inst i).port.toNat true
  | .ctl h => b.canIssue h false
  | .mss => true

/-- The plane lets the queue run: an instance ENABLED in a serving half (R21, R23, R433), a CTL queue from meeting
point 2 of its half (R20, R21). -/
def Blk.wqRuns (b : Blk) : WqR → Bool
  | .inst i _ =>
    (b.cfg.inst i).life = .enabled && !(b.inst i).detached &&
    (b.serving (b.homeOf i) || (i == 0 && b.atPoint (b.homeOf i) 2))
  | .ctl h => b.atPoint (halfOfPort h) 2
  | .mss => b.mss.fw.up

/-- A CTL WQ whose CQ is disabled waits for it (R123). -/
def Blk.cqOff (b : Blk) : WqR → Bool
  | .ctl h => !(b.port h).ctlCqEn
  | _ => false

/-- WQ_CI.state (chapter 05): 0 DISABLED, 1 READY, 2 ERROR, 3 CQ_WAIT, 4 BME_OFF. -/
def Blk.wqState (b : Blk) (r : WqR) : Nat :=
  if !b.wqEnabled r then 0
  else
    match (b.wqOf r).st with
    | .ready => 1
    | .error => 2
    | .cqWait => 3
    | .bmeOff => if b.cqOff r then 3 else 4

/-- Completion slots that a control queue's programs hold: the instruction in hand, the open program, those whose
completion is due (R115). -/
def Blk.ctlSlots (b : Blk) (k : CqKey) : Nat :=
  let c := b.ctlq k
  (if c.arrived.isSome then 1 else 0) + (if c.prog.isSome then 1 else 0) + c.ended.length +
  (b.ctl.line.filter (fun l => l.queue == k)).length

/-- Trackers of WRITE_IMM messages whose completion goes to a CQ of an instance: each has its slot reserved (R380). -/
def Blk.immTrackers (b : Blk) (i c : Nat) : Nat :=
  b.rmt.qps.foldl (fun a q =>
    if (b.cfg.qp q.1).inst = i ∧ (b.cfg.qp q.1).recvCq.toNat = c then a + (q.2.trackers.filter (fun t => t.op == 2)).length
    else a) 0

/-- Fetched entries of a CQ that have not completed, and messages with a slot reserved (R115). -/
def Blk.cqAssigned (b : Blk) : CqR → Nat
  | .inst i c => b.immTrackers i c +
    ((List.range 64).filter (fun q => ((b.instCfg i).wq i q).life != .absent && ((b.instCfg i).wq i q).cq.toNat == c)).foldl
      (fun a q => a + (b.wq i q).fetched.length + (if q = 0 then b.ctlSlots (16 + i) else 0)) 0
  | .ctl h => b.ctlSlots h
  | .mss => b.ctlSlots mssKey

/-- Entries of the on-chip reservation of a CQ; a CTL CQ has the 16 that R115 gives at least. -/
def Blk.cqReserve (b : Blk) : CqR → Nat
  | .inst i c => ((b.instCfg i).cq i c).reserve.toNat
  | .ctl _ => 16
  | .mss => 16

/-- Room of a CQ beyond everything that will need it; a ring whose write is held counts as full (R115, R515). -/
def Blk.cqRoom (b : Blk) (r : CqR) : Nat :=
  let c := b.cqOf r
  let used := (c.pi - c.ci).toNat
  let cap := (if c.xfault || c.mirrorHeld then used else b.cqSize r) + b.cqReserve r
  cap - (used + c.held.length + b.cqAssigned r)

/-- A completion slot is free for one more entry (R115). -/
def Blk.cqSlotFree (b : Blk) (r : CqR) : Bool := decide (0 < b.cqRoom r)

/-- Raise WQ_ERROR where the queue's events go. -/
def Blk.wqErrorEvent (b : Blk) (r : WqR) (reason idx : Nat) : Blk :=
  match r with
  | .inst i q => Blk.raise 3 b (.inst i ((b.instCfg i).cq i ((b.instCfg i).wq i q).cq.toNat).eq.toNat) (b.ev 3 q reason idx 0)
  | .ctl h => Blk.raise 3 b (.f0 h) (b.ev 3 0 reason idx 0)
  | .mss => b

/-- A queue enters ERROR: CI latched, the event written (R105, R110). -/
def Blk.wqError (b : Blk) (r : WqR) (reason : Nat) : Blk :=
  let ci := (b.wqOf r).ci
  (b.updWqOf r (fun w => { w with st := .error, errIndex := ci, errReason := BitVec.ofNat 16 reason })).wqErrorEvent r
    reason ci.toNat

/-- A write of WQ_PI: taken as written, or ERROR with INDEX_OVERRUN (R105). DESIGN CHOICE (log 112): a write beyond the size to
a queue that is not enabled raises no ERROR. -/
def Blk.wqPiWrite (b : Blk) (r : WqR) (pi : W16) : Blk :=
  let b1 := b.updWqOf r (fun w => { w with pi := pi })
  if b.wqEnabled r && (b.wqOf r).st != .error && b.wqSize r < (pi - (b.wqOf r).ci).toNat then b1.wqError r 0x0104 else b1

/-- Queues of an owner that are READY, ascending (R108). -/
def Blk.readyList (b : Blk) (k : CqKey) : List Nat :=
  if k < 16 then (if b.wqState (.ctl k) = 1 then [0] else [])
  else if k = mssKey then [0]
  else (List.range 64).filter (fun q => b.wqState (.inst (k - 16) q) = 1)

/-- The queue of number `q` of a scan's owner. -/
def wqRefOf (k : CqKey) (q : Nat) : WqR := if k < 16 then .ctl k else if k = mssKey then .mss else .inst (k - 16) q

/-- A DOORBELL write: start a scan, or latch one more pass (R107, R108). -/
def Blk.ring (b : Blk) (k : CqKey) : Blk :=
  if (b.scan k).active then b.updScan k (fun s => { s with rescan := true })
  else b.updScan k (fun _ => { active := true, list := b.readyList k })

/-- Leave queue `q` out of the present pass. -/
def Scan.drop (s : Scan) (q : Nat) : Scan := { s with list := s.list.filter (· != q), turn := s.turn.filter (· != q) }

/-- The queue's instance is not in service: its queues stop fetching (R160, R433). -/
def Blk.wqGone (b : Blk) : WqR → Bool
  | .inst i _ => (b.cfg.inst i).life != .enabled || (b.inst i).detached
  | _ => false

/-- A control queue has an instruction in hand or a COMMIT in the line: its next entry waits (R126). -/
def Blk.wqBusy (b : Blk) (r : WqR) : Bool :=
  match r.key with
  | some k => (b.ctlq k).arrived.isSome || b.ctl.line.any (fun l => l.queue == k)
  | none => false

/-- Settle the scan of an owner until its next queue can be fetched from, or the scan ends; `fuel` bounds the queues
and passes examined (R108). -/
def Blk.settle : Nat → Blk → CqKey → Blk
  | 0, b, _ => b
  | fuel + 1, b, k =>
    let s := b.scan k
    if !s.active then b
    else
      match s.turn with
      | [] =>
        if s.list.isEmpty then
          if s.rescan then Blk.settle fuel (b.updScan k (fun _ => { active := true, list := b.readyList k })) k
          else b.updScan k (fun _ => {})
        else if s.list.all (fun q => b.wqBusy (wqRefOf k q)) then b
        else Blk.settle fuel (b.updScan k (fun s => { s with turn := s.list })) k
      | q :: _ =>
        let r := wqRefOf k q
        let w := b.wqOf r
        let drop := fun b : Blk => b.updScan k (fun s => s.drop q)
        if b.wqState r ≠ 1 ∨ b.wqGone r = true then Blk.settle fuel (drop b) k
        else if b.wqSize r < (w.pi - w.ci).toNat then Blk.settle fuel (drop (b.wqError r 0x0104)) k
        else if w.pi = w.ci then Blk.settle fuel (drop b) k
        else if b.wqBusy r then Blk.settle fuel (b.updScan k (fun s => { s with turn := s.turn.tail })) k
        else if b.cqOff r || !b.cqSlotFree (b.wqCq r) then Blk.settle fuel (drop (b.updWqOf r (fun w => { w with st := .cqWait }))) k
        else if !b.wqCanIssue r then Blk.settle fuel (drop (b.updWqOf r (fun w => { w with st := .bmeOff }))) k
        else b

/-- Queues examined before a fetch: two passes over 64 queues, with their turns. -/
def settleFuel : Nat := 400

/-- Epoch in force in a half. DESIGN CHOICE (log 104): R25 speaks of the epoch in force in a job's home half and does not say
which that is while pipelines and cores of the half differ; here it is the newest that is visible in all of them, and the oldest
live one before any is. -/
def Blk.epochOfHalf (b : Blk) (h : Half) : Nat :=
  let ks := match h with
    | .west => (List.range 4) ++ (List.range 32).map (· + 8)
    | .east => (List.range 4).map (· + 4) ++ (List.range 32).map (· + 40)
  (b.ctl.live.filter (fun r => ks.all (fun k => r.seen.contains k))).foldl (fun a r => max a r.num) b.oldestLive

/-- The next queue of a scan is served: its turn passes. -/
def Blk.served (b : Blk) (k : CqKey) : Blk := b.updScan k (fun s => { s with turn := s.turn.tail })

/-- The reason of a failed entry fetch (R111, R439). -/
def fetchReason (c : XFault) : Nat := if c = .walkError then 0x0521 else 0x0520
/-- The status of a failed data access (R111, R439). -/
def dataReason (c : XFault) : Nat := if c = .walkError then 0x0523 else 0x0522

/-- A fetched entry of a queue that is not a control queue: format check, then it belongs to the part (R104, R110). -/
def Blk.takeEntry (b : Blk) (i q : Nat) (raw : W512) : Blk :=
  let r : WqR := .inst i q
  match fmtCheck (b.wqKind r) raw with
  | some reason => (b.wqError r reason).updScan (16 + i) (fun s => s.drop q)
  | none =>
    let u := b.unit (cpUnit raw)
    let e : Entry := { idx := (b.wqOf r).ci, raw := raw, epoch := b.epochOfHalf (b.homeOf i), gen := (b.inst i).gen, order := (b.inst i).fetches,
                       held := b.wqKind r != kCipher || (u.st = .held && u.inst == i && u.gen == (b.inst i).gen) }
    ((b.updWqOf r (fun w => { w with ci := w.ci + 1, fetched := w.fetched ++ [e] })).updInst i
      (fun d => { d with fetches := d.fetches + 1 })).served (16 + i)

/-- A failed fetch puts the queue into ERROR and out of the pass (R110, R111). -/
def Blk.fetchFailed (b : Blk) (r : WqR) (q reason : Nat) : Blk :=
  (b.wqError r reason).updScan r.scanKey (fun s => s.drop q)

/-- Index of an entry's queue in its scan. -/
def WqR.num : WqR → Nat
  | .inst _ q => q
  | _ => 0

/-- The scan has settled on this queue. -/
def Blk.nextIs (b : Blk) (r : WqR) : Bool := (b.scan r.scanKey).active && (b.scan r.scanKey).turn.head? == some r.num

/-- A queue in CQ_WAIT or BME_OFF whose cause has cleared (R109). -/
def Blk.canResume (b : Blk) (r : WqR) : Bool :=
  b.wqEnabled r &&
  (((b.wqOf r).st == .cqWait && !b.cqOff r && b.cqSlotFree (b.wqCq r)) || ((b.wqOf r).st == .bmeOff && !b.cqOff r && b.wqCanIssue r))

/-- The queue returns to READY and rejoins a scan (R109). -/
def Blk.resumeQueue (b : Blk) (r : WqR) : Blk :=
  (b.updWqOf r (fun w => { w with st := .ready })).updScan r.scanKey (fun s =>
    { s with active := true, list := if s.list.contains r.num then s.list else (s.list ++ [r.num]).mergeSort (· ≤ ·) })

/-! Starting and completing entries. -/

/-- The entry that may start next: the first not started, its fence lifted or absent (R109). -/
def Wq.nextStart (w : Wq) : Option Entry :=
  match w.fetched.find? (fun e => e.st == .fetched) with
  | some e => if !weFence e.raw || e.lifted then some e else none
  | none => none

/-- The fenced entry whose earlier entries have all completed (R109). -/
def Wq.fenceReady (w : Wq) : Bool :=
  match w.fetched.head? with
  | some e => e.st == .fetched && weFence e.raw && !e.lifted
  | none => false

/-- Change the entry with index `idx`. -/
def Wq.updEntry (w : Wq) (idx : W16) (f : Entry → Entry) : Wq :=
  { w with fetched := w.fetched.map (fun e => if e.idx = idx then f e else e) }

/-- The entry with index `idx`. -/
def Wq.entry (w : Wq) (idx : W16) : Option Entry := w.fetched.find? (fun e => e.idx == idx)

/-- Drop the entry with index `idx`. -/
def Wq.dropEntry (w : Wq) (idx : W16) : Wq := { w with fetched := w.fetched.filter (fun e => e.idx != idx) }

/-- Completions of finished entries at the head of a queue, in fetch order (R113); `fuel` bounds their number. -/
def Blk.release : Nat → Blk → Nat → Nat → Blk
  | 0, b, _, _ => b
  | fuel + 1, b, i, q =>
    match (b.wq i q).fetched with
    | [] => b
    | e :: r =>
      match e.st with
      | .finished c =>
        let b1 := b.updWq i q (fun w => { w with fetched := r })
        let b2 := match c with
          | some x => b1.complete (.inst i ((b.instCfg i).wq i q).cq.toNat) x
          | none => b1
        Blk.release fuel b2 i q
      | _ => b

/-- An entry of a PKT_SEND, PKT_RECV or CIPHER queue finishes; a quiet success writes nothing (R113). -/
def Blk.finish (b : Blk) (i q : Nat) (idx : W16) (status : Nat) (c : CplF) : Blk :=
  match (b.wq i q).entry idx with
  | none => b
  | some e =>
    let out := if weQuiet e.raw && status == 0 then none else some c.raw
    let b1 := b.updWq i q (fun w => w.updEntry idx (fun e => { e with st := .finished out }))
    Blk.release (b1.wq i q).fetched.length b1 i q

/-- A transport entry leaves its queue, and its completion falls due at once (R403, R404); a quiet success writes none,
and its increment is due at that moment (R403). -/
def Blk.finishNow (b : Blk) (i q : Nat) (idx : W16) (status : Nat) (c : CplF) (bump : Option Nat) (solicited : Bool)
    (qpn : Nat) : Blk :=
  match (b.wq i q).entry idx with
  | none => b
  | some e =>
    let b1 := b.updWq i q (fun w => w.dropEntry idx)
    if weQuiet e.raw && status == 0 then { b1 with rmt := { b1.rmt with incs := b1.rmt.incs ++ bump.toList } }
    else b1.complete (.inst i ((b.instCfg i).wq i q).cq.toNat) c.raw bump solicited e.epoch qpn

/-- A write of CTL_WQ_CTRL (R123): enabling resets the indices and sets READY. The program side of disabling is the
control plane's. DESIGN CHOICE (log 112): an enable keeps CTL_WQ_ERR. -/
def Blk.ctlWqCtrl (b : Blk) (h : Nat) (v : W32) : Blk :=
  let p := b.port h
  let en := v.getLsbD 0
  let lg := fieldNat v 1 4
  if p.ctlWqEn then b.updPort h (fun p => { p with ctlWqEn := en })
  else if lg < 4 ∨ 15 < lg then b
  else
    b.updPort h (fun p => { p with
      ctlWqLog2 := BitVec.ofNat 4 lg, ctlWqEn := en,
      ctlWq := if en then { p.ctlWq with pi := 0, ci := 0, st := if p.ctlCqEn then .ready else .cqWait } else p.ctlWq })

/-- A write of CTL_CQ_CTRL (R123): enabling resets the indices and releases held completions; while the CQ is disabled the
WQ is in CQ_WAIT. -/
def Blk.ctlCqCtrl (b : Blk) (h : Nat) (v : W32) : Blk :=
  let p := b.port h
  let en := v.getLsbD 0
  let lg := fieldNat v 1 4
  if p.ctlCqEn then
    b.updPort h (fun p => { p with
      ctlCqEn := en
      ctlWq := if !en && p.ctlWqEn && p.ctlWq.st == .ready then { p.ctlWq with st := .cqWait } else p.ctlWq })
  else if lg < 4 ∨ 15 < lg then b
  else
    let b1 := b.updPort h (fun p => { p with
      ctlCqLog2 := BitVec.ofNat 4 lg, ctlCqEn := en,
      ctlCq := if en then { p.ctlCq with pi := 0, ci := 0 } else p.ctlCq })
    if en then b1.cqRetry (.ctl h) else b1

/-- A write of F0_EQ_CTRL (R124): size, vector, int_en; enabling resets the indices and writes events held (R514). -/
def Blk.f0EqCtrl (b : Blk) (h : Nat) (v : W32) : Blk :=
  let p := b.port h
  let en := v.getLsbD 0
  let lg := fieldNat v 1 4
  let was := p.eq.pending
  let fields := fun p : HostPort => { p with
    eqEn := en, eqVector := v.extractLsb' 5 5,
    eq := { p.eq with intEn := v.getLsbD 10, ciError := p.eq.ciError && !v.getLsbD 11 } }
  let after := fun b : Blk =>
    if !was && (b.evq (.f0 h)).pending then b.msiDue (.f0 h) else b.evalIntx h false
  if p.eqEn then after (b.updPort h fields)
  else if lg < 5 ∨ 15 < lg then b
  else
    let b1 := b.updPort h (fun p => { fields p with eqLog2 := BitVec.ofNat 4 lg })
    if en then
      (b1.updEvq (.f0 h) (fun q => { q with
        pi := 0, ci := 0, srcs := q.srcs.mapVals {} (fun _ s => { s with standing := none }) })).f0Flush h |>.evalIntx h false
    else after b1

end Sys2Proof.Machine
end

