-- ==== Sys2Proof/Machine/CtlObj.lean ====
section
/-! DEFINITION. Objects of the configuration: which one a control instruction names, its life, who may act on it
(R125, R144, R145, R152), and what the grants and pools bound (R138, R450, R451). -/

namespace Sys2Proof.Machine
open Sys2Proof

/-- An object or a queue that an instruction names. -/
inductive Obj where
  | inst (i : Nat)
  | wq (i q : Nat)
  | cq (i q : Nat)
  | eq (i e : Nat)
  | qp (i : Option Nat) (n : Nat)
  | win (i w : Nat)
  | trig (i : Option Nat) (k : Nat)
  | port (l : Nat)
  | sa (k : Nat)
  deriving DecidableEq, Repr

/-- The object of a reference (R154). -/
def refObj (k i id : Nat) : Option Obj :=
  if k = oInst then some (.inst i) else if k = oWq then some (.wq i id) else if k = oCq then some (.cq i id)
  else if k = oEq then some (.eq i id) else if k = oQp then some (.qp (some i) id) else if k = oWin then some (.win i id)
  else if k = oTrig then some (.trig (some i) id) else if k = oPort then some (.port id)
  else if k = oSa then some (.sa id) else none

/-- State of an object in a configuration. A device-wide number whose object belongs to another instance than the one
named is absent. -/
def Cfg.life (c : Cfg) : Obj → Life
  | .inst i => (c.inst i).life
  | .wq i q => (c.wq i q).life
  | .cq i q => (c.cq i q).life
  | .eq i e => (c.eq i e).life
  | .qp i n => if i.isSome && i != some (c.qp n).inst then .absent else (c.qp n).life
  | .win i w => (c.win i w).life
  | .trig i k => if i.isSome && i != some (c.trig k).inst then .absent else (c.trig k).life
  | .port l => (c.port l).life
  | .sa k => (c.sa k).life

/-- The object's identifier is in use, whichever instance owns it. -/
def Cfg.taken (c : Cfg) : Obj → Bool
  | .qp _ n => (c.qp n).life != .absent
  | .trig _ k => (c.trig k).life != .absent
  | o => c.life o != .absent

/-- Set the state of an object. -/
def Cfg.setLife (c : Cfg) (o : Obj) (l : Life) : Cfg :=
  match o with
  | .inst i => { c with insts := c.insts.upd {} i (fun x => { x with life := l }) }
  | .wq i q => { c with wqs := c.wqs.upd {} (i * 64 + q) (fun x => { x with life := l }) }
  | .cq i q => { c with cqs := c.cqs.upd {} (i * 64 + q) (fun x => { x with life := l }) }
  | .eq i e => { c with eqs := c.eqs.upd {} (i * 8 + e) (fun x => { x with life := l }) }
  | .qp _ n => { c with qps := c.qps.upd {} n (fun x => { x with life := l }) }
  | .win i w => { c with wins := c.wins.upd {} (i * 65536 + w) (fun x => { x with life := l }) }
  | .trig _ k => { c with trigs := c.trigs.upd {} k (fun x => { x with life := l }) }
  | .port p => { c with ports := c.ports.upd {} p (fun x => { x with life := l }) }
  | .sa k => { c with sas := c.sas.upd {} k (fun x => { x with life := l }) }

/-- Remove an object: its number is free again. -/
def Cfg.drop (c : Cfg) (o : Obj) : Cfg :=
  match o with
  | .inst i => { c with insts := c.insts.put {} i {} }
  | .wq i q => { c with wqs := c.wqs.put {} (i * 64 + q) {} }
  | .cq i q => { c with cqs := c.cqs.put {} (i * 64 + q) {} }
  | .eq i e => { c with eqs := c.eqs.put {} (i * 8 + e) {} }
  | .qp _ n => { c with qps := c.qps.put {} n {} }
  | .win i w => { c with wins := c.wins.put {} (i * 65536 + w) {} }
  | .trig _ k => { c with trigs := c.trigs.put {} k {} }
  | .port p => { c with ports := c.ports.put {} p {} }
  | .sa k => { c with sas := c.sas.put {} k {} }

/-- The instance an object belongs to; none for PORT and SA, and for a number that no object has. -/
def Cfg.objInst (c : Cfg) : Obj → Option Nat
  | .inst i => some i
  | .wq i _ => some i
  | .cq i _ => some i
  | .eq i _ => some i
  | .qp i n => if (c.qp n).life != .absent then some (c.qp n).inst else i
  | .win i _ => some i
  | .trig i k => if (c.trig k).life != .absent then some (c.trig k).inst else i
  | .port _ => none
  | .sa _ => none

/-- The object a control instruction acts on, beside the one of KEY.* (R154, R167 to R169, R180 to R182). -/
def ciObj (o : COp) (e : W512) : Option Obj :=
  match o with
  | .create | .enable | .disable | .destroy | .invalidate | .winModify | .qCreate | .qEnable | .qDisable | .qDestroy
  | .qReset | .query => refObj (ciKind e) (ciInst e) (ciId e)
  | .qpConnect | .qpTune => some (.qp none (ciQpn e))
  | .instResize | .instAttach | .dirtyLog => some (.inst (ciInst16 e))
  | _ => none

/-! Authority (R144, R145, R152). -/

/-- Who issues the programs of a control queue (R125). -/
def Blk.issuerOf (b : Blk) (k : CqKey) : Issuer :=
  if k < 16 then (if k = b.ownerPort then .owner else .portHost k)
  else if k = mssKey then .mss else .tenant (k - 16)

/-- An instance lies in the issuer's scope (R125). -/
def Cfg.inScope (c : Cfg) (s : Issuer) (i : Nat) : Bool :=
  match s with
  | .owner | .mss => true
  | .portHost h => (c.inst i).life != .absent && (c.inst i).port.toNat == h
  | .tenant j => i == j

/-- The issuer may give the instruction for that kind (R152). -/
def mayGive (s : Issuer) (o : COp) (kind : Nat) : Bool :=
  match s with
  | .owner | .mss => true
  | .portHost _ =>
    match o with
    | .create | .destroy => kind == oQp || kind == oWin || kind == oTrig
    | .enable | .disable | .invalidate | .qpConnect | .qpTune | .winModify | .keyImport | .keyBind | .keyRetire
    | .qCreate | .qEnable | .qDisable | .qDestroy | .qReset | .instResize | .query | .summary | .begin_ | .commit
    | .abort | .fence => true
    | _ => false
  | .tenant _ =>
    match o with
    | .create | .destroy => kind == oQp || kind == oWin || kind == oTrig
    | .enable | .disable => kind != oInst
    | .qpConnect | .qpTune | .winModify | .keyImport | .keyBind | .keyRetire
    | .qCreate | .qEnable | .qDisable | .qDestroy | .qReset | .query | .summary | .begin_ | .commit
    | .abort | .fence => true
    | _ => false

/-- Scope over an instance, not judged while it is absent (R145). -/
def Cfg.scopeInst (c : Cfg) (s : Issuer) (i : Nat) : Bool := (c.inst i).life == .absent || c.inScope s i

/-- Scope over a key slot: the instance it is bound to; a slot of the device belongs to the owner host alone. -/
def Cfg.scopeSlot (c : Cfg) (s : Issuer) (k : Nat) : Bool :=
  match c.binding k with
  | some i => c.inScope s i
  | none => s == .owner || s == .mss

/-- Scope of an instruction against a configuration (R144, R145, R186, R187). -/
def Cfg.scopeOk (c : Cfg) (s : Issuer) (o : COp) (e : W512) : Bool :=
  match o with
  | .keyImport | .keyRetire => c.scopeSlot s (ent e 16 2)
  | .keyBind => c.scopeSlot s (ent e 16 2) &&
      (if bitOf (ent e 20 1) 0 then s == .owner || s == .mss else c.scopeInst s (ent e 18 2 % 8192))
  | .summary => ent e 16 1 % 4 == 0 || s == .owner || s == .mss
  | _ =>
    match ciObj o e with
    | none => true
    | some x =>
      if o == .query && bitOf (ent e 24 1) 0 then true
      else
        match x with
        | .qp none n => (c.qp n).life == .absent || c.inScope s (c.qp n).inst
        | _ =>
          match c.objInst x with
          | some i => c.scopeInst s i
          | none => s == .owner || s == .mss

/-! Grants and pools (R450, R451). -/

/-- Units in one bushel of a resource. -/
def bushel (code : Nat) : Nat :=
  if code = 1 then 4 else if code = 2 then 8 else if code = 3 then 64 else if code = 4 then 16 else if code = 5 then 16
  else if code = 6 then 16 else if code = 7 then 1 else if code = 8 then 64 else 1

/-- Most bushels one instance may hold. -/
def grantMax (code : Nat) : Nat :=
  if code = 1 then 34 else if code = 2 then 256 else if code = 3 then 16384 else if code = 4 then 4096
  else if code = 5 then 4096 else if code = 6 then 16384 else if code = 7 then 8192 else if code = 8 then 384 else 16

/-- Bushels of the device pool that holds a resource. -/
def poolMax (code : Nat) : Nat :=
  if code = 1 then 16384 else if code = 2 then 256 else if code = 3 then 16384 else if code = 4 then 65536
  else if code = 5 then 4096 else if code = 6 then 16384 else if code = 7 then 8192 else if code = 8 then 384 else 16

/-- Bushels granted to an instance. -/
def Cfg.grant (c : Cfg) (i code : Nat) : Nat := (c.inst i).grants.get 0 code
/-- Units granted. -/
def Cfg.units (c : Cfg) (i code : Nat) : Nat := c.grant i code * bushel code

/-- Number of listed entries of a table that satisfy a condition. -/
def countWhere {α : Type} (t : Tab α) (p : Nat → α → Bool) : Nat := (t.filter (fun e => p e.1 e.2)).length

/-- Units an instance uses of a resource that CREATE takes (R450). -/
def Cfg.used (c : Cfg) (i code : Nat) : Nat :=
  if code = 1 then
    countWhere c.wqs (fun k w => k / 64 == i && w.life != .absent) +
    countWhere c.cqs (fun k w => k / 64 == i && w.life != .absent) +
    countWhere c.eqs (fun k w => k / 8 == i && w.life != .absent)
  else if code = 2 then countWhere c.eqs (fun k w => k / 8 == i && w.life != .absent)
  else if code = 3 then countWhere c.qps (fun _ q => q.inst == i && q.life != .absent)
  else if code = 4 then countWhere c.wins (fun k w => k / 65536 == i && w.life != .absent)
  else if code = 5 then countWhere c.trigs (fun _ t => t.inst == i && t.life != .absent)
  else if code = 6 then
    c.cqs.foldl (fun a e => if e.1 / 64 == i && e.2.life != .absent then a + e.2.reserve.toNat else a) 0
  else 0

/-- Lookaside units an instance holds now (R451). -/
def Blk.locksHeld (b : Blk) (i : Nat) : Nat :=
  countWhere b.keys.units (fun _ u => u.inst == i && (u.st == .held || u.st == .releasing))

/-- The instances that draw on the same device pool as instance `i`: of its port for VECTORS, of the whole device for QPS
and TRIGGERS, of its half for the others. -/
def Cfg.poolMates (c : Cfg) (i code : Nat) : List Nat :=
  let p := (c.inst i).port.toNat
  (c.insts.filter (fun e => e.2.life != .absent &&
    (if code = 2 then e.2.port.toNat == p
     else if code = 3 ∨ code = 5 then true
     else decide (e.2.port.toNat < 8) == decide (p < 8)))).map (·.1)

/-- Bushels of the pool that hold no grant but still count as used: device memory that drains or is being zeroed (R443, R451). -/
def Blk.zeroingIn (b : Blk) (i code : Nat) : Nat :=
  let east := decide (8 ≤ (b.cfg.inst i).port.toNat)
  if code = 7 then (b.insts.zeroing.filter (fun z => z.1 == east)).length + (b.insts.leaving.filter (fun z => z.east == east)).length
  else 0

/-- Bushels granted from the pool of an instance's resource. -/
def Blk.poolUsed (b : Blk) (i code : Nat) : Nat :=
  (b.cfg.poolMates i code).foldl (fun a j => a + b.cfg.grant j code) 0 + b.zeroingIn i code

/-- Bushels granted to the instances bound to a port. -/
def Cfg.portGrants (c : Cfg) (h code : Nat) : Nat :=
  (c.insts.filter (fun e => e.2.life != .absent && e.2.port.toNat == h)).foldl (fun a e => a + e.2.grants.get 0 code) 0

/-- Pool of a port (R183). -/
def Cfg.pool (c : Cfg) (h code : Nat) : Nat := c.pools.get 0 (h * 16 + code)

/-- Instance queues that exist in the half of instance `i` (R151). -/
def Cfg.halfQueues (c : Cfg) (i : Nat) : Nat :=
  (c.poolMates i 1).foldl (fun a j => a + c.used j 1) 0

/-- Objects and queues lie within the instance's bushels. -/
def Cfg.withinGrants (c : Cfg) (i : Nat) : Bool := [1, 2, 3, 4, 5, 6].all (fun k => c.used i k ≤ c.units i k)

/-- The home half of an instance is in service (R138, R23): it holds meeting point 2, where instance 0 exists and the
CTL queues run. -/
def Blk.halfUp (b : Blk) (i : Nat) : Bool := b.atPoint (b.homeOf i) 2

/-! Blocks of device memory (R442, R443, R451). -/

/-- Blocks of a half's pool that hold no bushel. -/
def Blk.freeBlocks (b : Blk) (h : Half) : List Nat :=
  let used := (b.insts.dyn.filter (fun e => b.homeOf e.1 == h)).flatMap (fun e => e.2.blocks) ++
    (b.insts.leaving.filter (fun x => x.east == (h == .east))).map (·.block)
  (List.range 8192).filter (fun k => !used.contains k && !b.insts.zeroing.contains (h == .east, k))

/-- Take `n` blocks of the home half's pool for an instance; which ones is not stated: a free choice (R442). -/
def Blk.takeBlocks : Nat → Blk → Nat → Blk
  | 0, b, _ => b
  | n + 1, b, i =>
    let free := b.freeBlocks (b.homeOf i)
    match free[b.freeVal.toNat % free.length]? with
    | none => b
    | some k => Blk.takeBlocks n ((b.updInst i (fun d => { d with blocks := d.blocks ++ [k] })).drawn 1) i

/-- Every block from number `n` on leaves an instance at the commit of epoch `before` (R451). -/
def Blk.giveBlocks (b : Blk) (i n before : Nat) : Blk :=
  let gone := ((b.inst i).blocks.drop n).zipIdx
  let h := b.homeOf i
  let b1 := b.updInst i (fun d => { d with blocks := d.blocks.take n })
  { b1 with insts := { b1.insts with leaving := b1.insts.leaving ++ gone.map (fun k =>
      { inst := i, before := before, index := n + k.2, east := h == .east, block := k.1 }) } }

/-- The drain is over: blocks that left an instance by epoch `before` are zeroed next (R443, R451). -/
def Blk.zeroLeft (b : Blk) (i before : Nat) : Blk :=
  let gone := fun x : Leaving => x.inst == i && decide (x.before ≤ before)
  { b with insts := { b.insts with
      leaving := b.insts.leaving.filter (fun x => !gone x),
      zeroing := b.insts.zeroing ++ (b.insts.leaving.filter gone).map (fun x => (x.east, x.block)) } }

/-- Grants of device memory take or give up blocks (R180, R442, R451). -/
def Blk.resizeBlocks (b : Blk) (i n before : Nat) : Blk :=
  let have_ := (b.inst i).blocks.length
  if n < have_ then b.giveBlocks i n before else Blk.takeBlocks (n - have_) b i

end Sys2Proof.Machine
end

