-- ==== Sys2Proof/Machine/PipeProg.lean ====
section
/-! DEFINITION. Reading a pipeline program image and its load rules (R266, R270, R273, R275, R294). -/

namespace Sys2Proof.Machine
open Sys2Proof

/-- Read a parse state of 64 bytes at offset `o`. -/
def readParse (l : List Byte) (o : Nat) : ParseState :=
  let b := leAt l o 1
  let f := leAt l (o + 2) 2
  let s := leAt l (o + 6) 1
  let e := leAt l (o + 11) 1
  { valid := bitOf b 0, record := bitOf b 1, l3 := bits b 2 2, slot := leAt l (o + 1) 1 % 16,
    fixedLen := f % 1024, lenOff := leAt l (o + 4) 1, lenMask := leAt l (o + 5) 1, lenShift := s % 8,
    var := bitOf s 7, lenUnit := leAt l (o + 7) 1, lenAdd := leAt l (o + 8) 2, selOff := leAt l (o + 10) 1,
    selEn := bitOf e 0, sel16 := bitOf e 1, defaultNext := leAt l (o + 12) 1,
    trans := (List.range 6).filterMap (fun j =>
      let q := o + 16 + 8 * j
      if bitOf (leAt l (q + 5) 1) 0 then some (leAt l q 2, leAt l (q + 2) 2, leAt l (q + 4) 1) else none) }

/-- The reserved fields of a parse state are 0. -/
def parseRsv (l : List Byte) (o : Nat) : Bool :=
  bits (leAt l o 1) 4 4 == 0 && bits (leAt l (o + 1) 1) 4 4 == 0 && bits (leAt l (o + 2) 2) 10 6 == 0 &&
  bits (leAt l (o + 6) 1) 3 4 == 0 && bits (leAt l (o + 11) 1) 2 6 == 0 && zeroAt l (o + 13) 3 &&
  (List.range 6).all (fun j => bits (leAt l (o + 21 + 8 * j) 1) 1 7 == 0 && zeroAt l (o + 22 + 8 * j) 2)

/-- A next-state code names a state, REJECT or ACCEPT. -/
def nextOk (n : Nat) : Bool := n < 64 || n == 0xFE || n == 0xFF

/-- The load rule of a parse state, in use or not: its next codes, and the ranges of its table. -/
def parseOk (p : ParseState) : Bool :=
  nextOk p.defaultNext && p.trans.all (fun t => nextOk t.2.2) && p.l3 < 3 && p.fixedLen ≤ 512

/-- The next codes of the transitions that a parse state does not use are next codes too. -/
def parseNexts (l : List Byte) (o : Nat) : Bool := (List.range 6).all (fun j => nextOk (leAt l (o + 20 + 8 * j) 1))

/-- Read a stage descriptor of 128 bytes at offset `o`. -/
def readStage (l : List Byte) (o : Nat) : Stage :=
  let b := leAt l o 1
  { enable := bitOf b 0, predEn := bitOf b 1, predValue := bitOf b 2, runAhead := bitOf b 3,
    ahead := leAt l (o + 1) 1 % 8, predOff := leAt l (o + 2) 2 % 1024, kind := leAt l (o + 4) 1,
    fields := (List.range (min (leAt l (o + 5) 1 % 32) 16)).map (fun f => BitVec.ofNat 32 (leAt l (o + 16 + 4 * f) 4)),
    table := leAt l (o + 6) 2, missAction := leAt l (o + 8) 2, missData := BitVec.ofNat 128 (leAt l (o + 80) 16) }

/-- The reserved fields of a stage descriptor are 0. Key fields not in use are read as reserved. -/
def stageRsv (l : List Byte) (o : Nat) : Bool :=
  bits (leAt l o 1) 4 4 == 0 && bits (leAt l (o + 1) 1) 3 5 == 0 && bits (leAt l (o + 2) 2) 10 6 == 0 &&
  bits (leAt l (o + 5) 1) 5 3 == 0 && zeroAt l (o + 10) 6 && zeroAt l (o + 96) 32 &&
  leAt l (o + 5) 1 % 32 ≤ 16 &&
  (List.range 16).all (fun f => f < leAt l (o + 5) 1 % 32 || zeroAt l (o + 16 + 4 * f) 4)

/-- Source of a key field: 1 metadata, 2 header. -/
def kfSrc (f : W32) : Nat := fieldNat f 0 2
/-- Header slot of a key field. -/
def kfSlot (f : W32) : Nat := fieldNat f 2 4
/-- Bit offset of a key field. -/
def kfOff (f : W32) : Nat := fieldNat f 6 10
/-- Width of a key field, 1 to 64. -/
def kfWidth (f : W32) : Nat := fieldNat f 16 6 + 1

/-- Sum of the widths of a stage's key fields. -/
def keyBits (s : Stage) : Nat := (s.fields.map kfWidth).foldl (· + ·) 0

/-- Load rules of one stage, number `n`, enabled or not, against the program (R270, R273, R294). -/
def stageOk (tables : List TblDesc) (nact n : Nat) (s : Stage) : Bool :=
  s.kind ≤ 4 && (s.missAction < nact || s.missAction == 0xFFFF) &&
  s.fields.all (fun f => (kfSrc f == 1 || kfSrc f == 2) && fieldNat f 22 10 == 0 &&
    (kfSrc f == 2 || kfOff f + kfWidth f ≤ 1024)) &&
  keyBits s ≤ 640 &&
  (!s.runAhead || (1 ≤ s.ahead && s.ahead ≤ 4 && s.ahead ≤ (if n < 20 then n else n - 20))) &&
  (s.kind == 0 ||
    (s.table == 0xFFFF && s.kind == 1 && ceilDiv (keyBits s) 8 == 8) ||
    tables.any (fun t => t.table == s.table && t.kind == s.kind && ceilDiv (keyBits s) 8 == t.keyLen &&
      (s.kind != 4 || keyBits s ≤ 32)))

/-- Read a table descriptor of 32 bytes. -/
def readTable (l : List Byte) (o : Nat) : TblDesc :=
  { table := leAt l o 2, kind := leAt l (o + 2) 1, keyLen := leAt l (o + 3) 1, entries := leAt l (o + 4) 4,
    hbm := bitOf (leAt l (o + 8) 1) 0 }

/-- The reserved fields of a table descriptor are 0. -/
def tableRsv (l : List Byte) (o : Nat) : Bool := bits (leAt l (o + 8) 1) 1 7 == 0 && zeroAt l (o + 9) 23

/-- Load rules of a table descriptor (R291). -/
def tableOk (t : TblDesc) : Bool :=
  t.table != 0xFFFF && 1 ≤ t.kind && t.kind ≤ 4 && 1 ≤ t.keyLen && t.keyLen ≤ 80 &&
  (!t.hbm || (t.kind == 1 && t.keyLen ≤ 30))

/-- The bits of metadata that an action may write: the RW fields of R268, low bit first, as (offset, width). -/
def mdRw : List (Nat × Nat) :=
  [(448, 32), (512, 3), (520, 7), (528, 13), (544, 6), (560, 12), (576, 3), (579, 1), (580, 1), (581, 1),
   (584, 8), (592, 14), (608, 18), (639, 1), (640, 384)]

/-- Every bit of [o, o + w) of the metadata is RW. -/
def mdWritable (o w : Nat) : Bool := (List.range w).all (fun k => mdRw.any (fun f => f.1 ≤ o + k && o + k < f.1 + f.2))

/-- Operation of an action slot. -/
def slotOp (x : W64) : Nat := fieldNat x 0 6
/-- Its destination lies in a header. -/
def slotHdr (x : W64) : Bool := fieldNat x 6 1 == 1
/-- Its destination bit offset. -/
def slotOff (x : W64) : Nat := fieldNat x 8 10
/-- Its width. -/
def slotWidth (x : W64) : Nat := fieldNat x 18 6 + 1
/-- Its header slot. -/
def slotHslot (x : W64) : Nat := fieldNat x 48 4

/-- The slot writes a destination. -/
def slotWrites (x : W64) : Bool := 1 ≤ slotOp x && slotOp x ≤ 0x0B
/-- The slot reads source A. -/
def slotReadsA (x : W64) : Bool := 1 ≤ slotOp x && slotOp x ≤ 0x0A
/-- The slot reads source B. -/
def slotReadsB (x : W64) : Bool := 2 ≤ slotOp x && slotOp x ≤ 0x0A

/-- A source operand stays within its space: 1,024 bits, 128 bits of action data. -/
def srcOk (kind off w : Nat) : Bool :=
  if kind = 0 then off + w ≤ 1024 else if kind = 1 then off + w ≤ 128 else if kind = 3 then off + w ≤ 1024 else true

/-- The load rules of one slot alone (chapter 11, "Action words"). -/
def slotOk (x : W64) : Bool :=
  slotOp x ≤ 0x0C && fieldNat x 7 1 == 0 && fieldNat x 52 12 == 0 &&
  (!slotWrites x || (slotOff x + slotWidth x ≤ 1024 && (slotHdr x || mdWritable (slotOff x) (slotWidth x)))) &&
  (!slotReadsA x || srcOk (fieldNat x 24 2) (fieldNat x 26 10) (slotWidth x)) &&
  (!slotReadsB x || srcOk (fieldNat x 36 2) (fieldNat x 38 10) (slotWidth x))

/-- Two slots of one word share a destination bit (R275). -/
def slotsClash (x y : W64) : Bool :=
  slotWrites x && slotWrites y && slotHdr x == slotHdr y && (!slotHdr x || slotHslot x == slotHslot y) &&
  slotOff x < slotOff y + slotWidth y && slotOff y < slotOff x + slotWidth x

/-- The load rules of an action word. -/
def actionOk (w : List W64) : Bool := w.all slotOk && decide (w.Pairwise (fun x y => slotsClash x y = false))

/-- The word asks for a learn, which only ingress stages may (R275). -/
def actionLearns (w : List W64) : Bool := w.any (fun x => slotOp x == 0x0C)

/-- Read a class part at offset `o`. -/
def readClass (l : List Byte) (o : Nat) : TmClass :=
  { level := leAt l o 1 % 8, weight := leAt l (o + 1) 1, rate := leAt l (o + 4) 4, burst := leAt l (o + 8) 4,
    minCells := leAt l (o + 12) 4, alpha := leAt l (o + 16) 1 % 8, ecnEn := bitOf (leAt l (o + 17) 1) 0,
    ecnMin := leAt l (o + 20) 4, ecnMax := leAt l (o + 24) 4, ecnPmax := leAt l (o + 28) 1 }

/-- The reserved bytes of a class part are 0. -/
def classRsv (l : List Byte) (o : Nat) : Bool :=
  bits (leAt l o 1) 3 5 == 0 && zeroAt l (o + 2) 2 && bits (leAt l (o + 16) 1) 3 5 == 0 &&
  bits (leAt l (o + 17) 1) 1 7 == 0 && zeroAt l (o + 18) 2 && zeroAt l (o + 29) 3

/-- The ranges of a class part. -/
def classOk (c : TmClass) : Bool := 1 ≤ c.weight && (!c.ecnEn || c.ecnMin < c.ecnMax)

/-- Read a traffic-manager port entry of 288 bytes; `none` when it is not in use. -/
def readTm (l : List Byte) (o : Nat) : Option TmPort :=
  if bitOf (leAt l (o + 1) 1) 0 then
    some { lane := leAt l o 1 % 16, rate := leAt l (o + 4) 4, burst := leAt l (o + 8) 4, pfcXoff := leAt l (o + 12) 4,
           pfcXon := leAt l (o + 16) 4, headroom := leAt l (o + 20) 4,
           classes := (List.range 8).map (fun c => readClass l (o + 32 + 32 * c)) }
  else none

/-- The reserved bytes of a port entry are 0. -/
def tmRsv (l : List Byte) (o : Nat) : Bool :=
  bits (leAt l o 1) 4 4 == 0 && bits (leAt l (o + 1) 1) 1 7 == 0 && zeroAt l (o + 2) 2 && zeroAt l (o + 24) 8 &&
  (List.range 8).all (fun c => classRsv l (o + 32 + 32 * c))

/-- The ranges of a port entry. -/
def tmOk (t : TmPort) : Bool :=
  t.pfcXon < t.pfcXoff && (t.rate == 0 || (1600 ≤ t.burst && t.burst ≤ 16777216)) && t.classes.all classOk

/-- Two byte ranges [a, a + m) and [b, b + n) share a byte. -/
def rangesClash (a m b n : Nat) : Bool := decide (0 < m ∧ 0 < n ∧ a < b + n ∧ b < a + m)

/-- Read a whole image: the program, or `none` when a load rule fails (R266). -/
def readProg (l : List Byte) : Option PipeProg :=
  let np := leAt l 12 2
  let nt := leAt l 14 2
  let na := leAt l 16 2
  let nm := leAt l 18 2
  let po := leAt l 20 4
  let so := leAt l 24 4
  let tO := leAt l 28 4
  let ao := leAt l 32 4
  let mo := leAt l 36 4
  let secs := [(0, 64), (po, np * 64), (so, 4096), (tO, nt * 32), (ao, na * 64), (mo, nm * 288)]
  let crcBytes := l.take 40 ++ [0, 0, 0, 0] ++ l.drop 44
  let stages := (List.range 32).map (fun n => readStage l (so + 128 * n))
  let tables := (List.range nt).map (fun n => readTable l (tO + 32 * n))
  let actions := (List.range na).map (fun n => (List.range 8).map (fun k => BitVec.ofNat 64 (leAt l (ao + 64 * n + 8 * k) 8)))
  let parse := (List.range np).map (fun n => readParse l (po + 64 * n))
  let tms := (List.range nm).filterMap (fun n => readTm l (mo + 288 * n))
  let ok :=
    slice l 0 6 == [0x45, 0x4C, 0x46, 0x50, 0x49, 0x50] && leAt l 6 2 == 1 && leAt l 8 4 == l.length &&
    1 ≤ np && np ≤ 64 && nt ≤ 32 && 1 ≤ na && na ≤ 4096 && nm ≤ 16 && (nm != 0 || mo == 0) && zeroAt l 44 20 &&
    secs.all (fun s => s.2 == 0 || (s.1 % 64 == 0 && s.1 + s.2 ≤ l.length)) &&
    decide (secs.Pairwise (fun a b => rangesClash a.1 a.2 b.1 b.2 = false)) &&
    crc32c crcBytes == BitVec.ofNat 32 (leAt l 40 4) &&
    (List.range np).all (fun n => parseRsv l (po + 64 * n) && parseNexts l (po + 64 * n)) && parse.all parseOk &&
    (List.range 32).all (fun n => stageRsv l (so + 128 * n)) &&
    (stages.zipIdx).all (fun s => stageOk tables na s.2 s.1) &&
    (stages.zipIdx).all (fun s => s.2 < 20 || !s.1.enable || s.1.missAction == 0xFFFF ||
      !actionLearns (actions.getD s.1.missAction [])) &&
    (List.range nt).all (fun n => tableRsv l (tO + 32 * n)) && tables.all tableOk &&
    decide (tables.Pairwise (fun a b => a.table ≠ b.table)) &&
    tables.all (fun t => (stages.filter (fun s => s.kind != 0 && s.table == t.table)).length == 1) &&
    (stages.filter (fun s => s.kind != 0 && s.table == 0xFFFF)).length ≤ 1 &&
    (tables.filter (·.hbm)).length ≤ 1 && actions.all actionOk &&
    (List.range nm).all (fun n => tmRsv l (mo + 288 * n)) && tms.all tmOk
  if ok then some { parse := parse, stages := stages, tables := tables, actions := actions, tm := tms,
                    crc := BitVec.ofNat 32 (leAt l 40 4), digest := bytesBE 32 (Config.sha256 l).toNat } else none

/-- Capacity of the exact pool, of the ternary pool and of the HBM slots (R290). -/
def poolSizes : Nat × Nat × Nat := (1048576, 131072, 20971520)

/-- Pool cost of a table: words of the exact pool, rows of the ternary pool, HBM slots (R291). -/
def poolCost (t : TblDesc) : Nat × Nat × Nat :=
  if t.kind = 1 then
    (if t.hbm then (0, 0, ceilDiv (t.entries * 5) 4)
     else (ceilDiv (t.entries * 5) 4 * ceilDiv (t.keyLen + 34) 16, 0, 0))
  else if t.kind = 3 then (ceilDiv (t.entries * 3) 2 * ceilDiv (t.keyLen + 35) 16, 0, 0)
  else if t.kind = 4 then (t.entries * 3, 0, 0)
  else (t.entries * 3, t.entries * ceilDiv t.keyLen 40, 0)

/-- A table of the new program keeps the entries of a table of the old one (R162). -/
def keepsTable (t o : TblDesc) : Bool := t.table == o.table && t.kind == o.kind && t.keyLen == o.keyLen

/-- The settings of a port of the pipeline: its entry, or the defaults. -/
def tmOf (p : Option PipeProg) (lane : Nat) : TmPort :=
  match p with
  | some g => (g.tm.find? (fun t => t.lane == lane % 16)).getD {}
  | none => {}

/-- The settings of a class of a port. -/
def classOf (t : TmPort) (tc : Nat) : TmClass := t.classes.getD tc {}

end Sys2Proof.Machine
end

