-- ==== Sys2Proof/Machine/CtlStage.lean ====
section
/-! DEFINITION. The checks of a control instruction that staging makes (R128, R129, R132, R152 to R154, and the
operand ranges of R158 to R187). -/

namespace Sys2Proof.Machine
open Sys2Proof

/-- A value lies in a range. -/
def within (x lo hi : Nat) : Bool := decide (lo ≤ x) && decide (x ≤ hi)

/-- Lanes, lane_rate and FEC are a combination of R311. -/
def portCombo (lanes rate fec : Nat) : Bool :=
  (lanes == 1 || lanes == 2 || lanes == 4 || lanes == 8) && rate ≤ 2 && (rate != 2 || lanes ≤ 4) &&
  (fec == 1 || (fec == 2 && rate == 2))

/-- The algorithm suits the protocol of an SA (R347): 0 MACsec, 1 ESP. -/
def saAlg (proto alg : Nat) : Bool := if proto = 0 then within alg 1 3 else alg == 4 || alg == 5

/-- Operand ranges of CREATE (R158). -/
def createRanges (b : Blk) (e : W512) : Option Nat :=
  let k := ciKind e
  if k = oInst then firstOf [chk (!b.absent (ent e 24 1 % 16)) 0x0124, chk (ent e 32 8 % 4096 == 0) 0x0125]
  else if k = oQp then chk ((ent e 26 1 ≤ 63 || ent e 26 1 == 0xFF) && within (ent e 28 2 % 1024) 1 512) 0x0124
  else if k = oWin then
    firstOf [chk (within (ent e 32 8) 1 (2 ^ 40)) 0x0124, chk (ent e 48 3 == 0 || within (ent e 48 3) 2 1048575) 0x0106]
  else if k = oTrig then chk (within (ent e 28 3) 2 1048575) 0x0106
  else if k = oPort then
    chk (portCombo (ent e 24 1) (ent e 25 1 % 4) (ent e 26 1) && ciId e % ent e 24 1 == 0 &&
      within (ent e 28 2) 1518 9604) 0x0124
  else
    chk (ent e 25 1 % 4 ≤ 1 && saAlg (ent e 25 1 % 4) (ent e 28 1) && (ent e 29 1 ≤ 31 || ent e 29 1 == 0xFF) &&
      (ent e 25 1 % 4 == 0 || ent e 30 1 % 128 == 0)) 0x0124

/-- Operand ranges of the queue CREATE (R178). -/
def qCreateRanges (e : W512) : Option Nat :=
  let k := ciKind e
  firstOf [
    chk (within (ent e 25 1 % 16) 4 15) 0x0124,
    chk (k != oWq || (within (ent e 24 1 % 16) 1 6 && decide (ent e 24 1 % 16 = kControl) == decide (ciId e = 0))) 0x0124,
    chk (k != oCq || (ent e 26 1 % 64 ≤ 7 && ent e 28 2 % 16 == 0 && 16 ≤ ent e 28 2)) 0x0124,
    chk (ent e 32 8 % 4096 == 0) 0x0125,
    chk (k == oWq || ent e 40 8 % 4 == 0) 0x0125]

/-! Pipeline programs in chunks (R162). -/

/-- A pipeline program that a control program is carrying. -/
structure Loading where
  pipes : List Nat
  total : Nat
  bytes : List Byte
  deriving DecidableEq, Repr

/-- The pipeline programs that PIPE.LOAD instructions carry: those complete, and the one still open. -/
def loadings (l : List CInstr) : List Loading × Option Loading :=
  l.foldl (fun a i =>
    if ciOp i.raw = some .pipeLoad then
      let g := (a.2.getD { pipes := ciPipes i.raw, total := ent i.raw 24 4, bytes := [] })
      let g := { g with bytes := g.bytes ++ i.ext }
      if bitOf (ent i.raw 28 1) 0 then (a.1 ++ [g], none) else (a.1, some g)
    else a) ([], none)

/-- The chunk rules of R162, and the parse at the last chunk (R266). -/
def pipeLoadRanges (prior : List CInstr) (e : W512) (ext : List Byte) : Option Nat :=
  let (_, opened) := loadings prior
  let total := ent e 24 4
  let off := ent e 20 4
  let last := bitOf (ent e 28 1) 0
  let have_ := (opened.map (·.bytes)).getD []
  let same := match opened with
    | some g => g.pipes == ciPipes e && g.total == total
    | none => true
  let whole := have_ ++ ext
  firstOf [
    chk (within total 64 983040 && same && off == have_.length && whole.length ≤ total &&
      (last || ext.length == 65536) && (!last || whole.length == total)) 0x0124,
    chk (!last || (readProg whole).isSome) 0x0124]

/-! Table instructions (R163, R165, R270, R294, R305). -/

/-- The table a pipeline's program has under an id. -/
def Cfg.table (c : Cfg) (p id : Nat) : Option TblDesc :=
  (c.prog p).bind (fun g => g.tables.find? (fun t => t.table == id))

/-- Key width and kind of a table: table 0xFFFF is EXACT with 8 bytes (R294). -/
def Cfg.tableShape (c : Cfg) (p id : Nat) : Option (Nat × Nat) :=
  if id = 0xFFFF then some (1, 8) else (c.table p id).map (fun t => (t.kind, t.keyLen))

/-- Table id of the table instructions. -/
def tbTable (e : W512) : Nat := ent e 18 2
def tbKeyLen (e : W512) : Nat := ent e 20 1
def tbPrefix (e : W512) : Nat := ent e 21 1
def tbPrio (e : W512) : Nat := ent e 24 4
def tbAction (e : W512) : Nat := ent e 28 2
def tbData (e : W512) : BitVec 128 := BitVec.ofNat 128 (ent e 32 16)

/-- Every pipeline named has the table, of one kind, with this key width; answers the kind. -/
def Cfg.tableKind (c : Cfg) (ps : List Nat) (id keyLen : Nat) : Option Nat :=
  let kinds := ps.map (fun p => c.tableShape p id)
  match kinds with
  | some (k, n) :: r => if n = keyLen ∧ r.all (· == some (k, n)) then some k else none
  | _ => none

/-- Operand checks of TBL.INSERT, TBL.DELETE and TBL.MODIFY. -/
def tblRanges (c : Cfg) (o : COp) (e : W512) (ext : List Byte) : Option Nat :=
  match c.tableKind (ciPipes e) (tbTable e) (tbKeyLen e) with
  | none => some 0x0124
  | some k =>
    firstOf [
      chk (within (tbKeyLen e) 1 80 && ext.length == (if k = 2 then 2 else 1) * tbKeyLen e) 0x0124,
      chk (if k = 3 then tbPrefix e ≤ 8 * tbKeyLen e else tbPrefix e == 0) 0x0124,
      chk (k == 2 || tbPrio e == 0) 0x0124,
      chk (tbTable e != 0xFFFF || (byteAt ext 7).toNat % 4 == 0) 0x0124,
      chk (o == .tblDelete ||
        (ciPipes e).all (fun p => tbAction e < ((c.prog p).map (·.actions.length)).getD 0)) 0x0124]

/-- Operand checks of TBL.QUERY. -/
def tblQueryRanges (c : Cfg) (e : W512) (ext : List Byte) : Option Nat :=
  let dump := bitOf (ent e 24 1) 0
  firstOf [
    chk (tbTable e == 0xFFFF || (ciPipes e).length == 1) 0x0124,
    (match c.tableKind (ciPipes e) (tbTable e) (tbKeyLen e) with
      | none => some 0x0124
      | some k => chk (dump || ext.length == (if k = 2 then 2 else 1) * tbKeyLen e) 0x0124),
    chk (!dump || within (ent e 26 2) (if tbTable e = 0xFFFF then 9 else 1) 4096) 0x0124]

/-- Key-material algorithms of R347. -/
def knownAlg (a : Nat) : Bool := within a 1 0x0B

/-- Operand ranges by instruction. -/
def opRanges (b : Blk) (prior : List CInstr) (o : COp) (e : W512) (ext : List Byte) : Option Nat :=
  match o with
  | .create => createRanges b e
  | .qCreate => qCreateRanges e
  | .invalidate =>
    let all := bitOf (ent e 24 1) 0
    firstOf [chk (all || ent e 32 8 % 4096 == 0) 0x0125, chk (all || ent e 40 8 % 4096 == 0) 0x0124,
      chk (!bitOf (ent e 24 1) 1 || ent e 48 8 % 4096 == 0) 0x0125]
  | .tblInsert | .tblDelete | .tblModify => tblRanges b.cfg o e ext
  | .tblQuery => tblQueryRanges b.cfg e ext
  | .pipeLoad => pipeLoadRanges prior e ext
  | .qpConnect =>
    firstOf [chk (within (ciQpn e) 2 1048575 && within (ent e 20 3) 2 1048575) 0x0106,
      chk (within (ent e 23 1) 1 64 && [1024, 2048, 4096, 8192].contains (ent e 40 2)) 0x0124]
  | .qpTune =>
    firstOf [chk (within (ciQpn e) 2 1048575) 0x0106,
      chk (within (ent e 20 4) 20 1000000 && 1 ≤ ent e 24 1 && within (ent e 26 2) 1 60000) 0x0124]
  | .winModify => chk (!bitOf (ent e 46 1) 1 || within (ent e 32 8) 1 (2 ^ 40)) 0x0124
  | .rmtConfig => chk (1024 ≤ ent e 16 2) 0x0124
  | .keyImport => chk (knownAlg (ent e 18 1) && ent e 19 1 == 1 && 1 ≤ ent e 24 8) 0x0124
  | .timeServo =>
    chk (within (ent e 20 4) 1 1000000000 && decide (-2147483 ≤ signed 64 (ent e 24 8)) &&
      decide (signed 64 (ent e 24 8) ≤ 2147483)) 0x0124
  | .timeSource => chk (ent e 16 1 ≤ 2 && ent e 17 1 ≤ 3) 0x0124
  | .instResize =>
    chk (within (rzCount e) 1 10 && (rzPairs e).all (fun p => within p.1 1 9 && p.2 ≤ grantMax p.1) &&
      decide ((rzPairs e).Pairwise (fun x y => x.1 ≠ y.1))) 0x0124
  | .instAttach => chk (!b.absent (ent e 18 1 % 16)) 0x0124
  | .dirtyLog =>
    let on := bitOf (ent e 18 1) 0
    firstOf [chk (!on || within (ent e 19 1 % 32) 4 20) 0x0124,
      chk (!on || (ent e 24 8 % 4096 == 0 && ent e 32 8 % 4 == 0)) 0x0125]
  | .poolSet => chk (ent e 16 1 ≤ 15 && within (ent e 17 1) 1 9) 0x0124
  | .slotControl => chk (ent e 17 1 % 4 ≤ 2) 0x0124
  | .query => chk (!bitOf (ent e 24 1) 0 || within (ent e 26 2) 1 4096) 0x0124
  | .summary =>
    firstOf [chk (ent e 16 1 % 4 ≤ 2) 0x0124,
      chk (ent e 16 1 % 4 == 0 || (if ent e 16 1 % 4 = 1 then ent e 18 2 ≤ 15 else ent e 18 2 ≤ 8191)) 0x0106,
      chk (ent e 24 8 % 4096 == 0) 0x0125, chk (512 ≤ ent e 32 4) 0x0103]
  | .begin_ => chk (ent e 16 8 % 64 == 0) 0x0125
  | .enable | .disable | .destroy | .qEnable | .qDisable | .qDestroy | .qReset | .keyBind | .keyRetire | .timeStep
  | .powerCap | .commit | .abort | .fence => none

/-- The reference rules of R154. -/
def refRules (o : COp) (e : W512) : Option Nat :=
  let k := ciKind e
  let queue := match o with
    | .qCreate | .qEnable | .qDisable | .qDestroy | .qReset => true
    | _ => false
  match o with
  | .create | .enable | .disable | .destroy | .invalidate | .qCreate | .qEnable | .qDisable | .qDestroy | .qReset
  | .query | .winModify =>
    firstOf [chk (within k 1 9) 0x0124, chk (within (ciId e) (idMin k) (idMax k)) 0x0106,
      chk (o == .query || isQueueKind k == queue) 0x0124, chk (o != .invalidate || k == oInst) 0x0124,
      chk (o != .winModify || k == oWin) 0x0124]
  | _ => none

/-- The staging checks of an instruction by itself (R127, R128, R152, R153): layout, opcode, reserved bits, extension. DESIGN
CHOICE (log 112): an ext_len outside 1 to 65,536 is refused with 0x0124. -/
def formFaults (e : W512) (extRead : Nat) : Option Nat :=
  firstOf [
    chk (ciVersion e == 1) 0x0123,
    chk (hdrRsvOk e) 0x0101,
    (match ciOp e with
      | none => some 0x0102
      | some o =>
        firstOf [chk (opRsvOk o e) 0x0101, chk (ciExt e == needsExt o e) 0x0124,
          chk (!ciExt e || within (ciExtLen e) 1 65536) 0x0124, chk (!ciExt e || ciExtAddr e % 64 == 0) 0x0125]),
    chk (extRead == 0) extRead]

/-- Staging bytes of an instruction (R129). -/
def stagingBytes (e : W512) : Nat := 64 + (if ciExt e then ceilDiv (ciExtLen e) 64 * 64 else 0)

/-- Every staging check of an instruction of an open program (R132, R145), against the staged state `b` as of BEGIN. -/
def stageFaults (b : Blk) (p : Prog) (e : W512) (ext : List Byte) (extRead : Nat) : Option Nat :=
  firstOf [
    chk (p.staged.length + 2 ≤ 4096) 0x0301,
    chk (ciVersion e == 1) 0x0123,
    chk (ciSeq e == p.lastSeq + 1) 0x0122,
    formFaults e 0,
    chk (p.bytes + stagingBytes e ≤ 1048576) 0x0302,
    chk (extRead == 0) extRead,
    (match ciOp e with
      | none => none
      | some o =>
        firstOf [refRules o e, chk (mayGive p.issuer o (ciKind e)) 0x0202, chk (b.cfg.scopeOk p.issuer o e) 0x0203,
          opRanges b p.staged o e ext])]

end Sys2Proof.Machine
end

