-- ==== Sys2Proof/Machine/PipeRun.lean ====
section
/-! DEFINITION. What a pipeline does to one packet: the parser, keys, lookups, actions and stages of R267 to R277 and
R294 to R298, as functions of the packet, the program and the tables. -/

namespace Sys2Proof.Machine
open Sys2Proof

/-- A field of the metadata: bit offset and width (R268). -/
def mdGet (m : Meta) (o w : Nat) : Nat := fieldNat m o w

/-- Write a field of the metadata. -/
def mdPut (m : Meta) (o w v : Nat) : Meta :=
  (m &&& ~~~(BitVec.ofNat 1024 ((2 ^ w - 1) * 2 ^ o))) ||| BitVec.ofNat 1024 (v % 2 ^ w * 2 ^ o)

/-- dest_kind, eg_port, dst_instance, dst_wq, punt_channel, tc, reason, bd (R268). -/
def mdDest (m : Meta) : Nat := mdGet m 512 3
def mdEgPort (m : Meta) : Nat := mdGet m 520 7
def mdDstInst (m : Meta) : Nat := mdGet m 528 13
def mdDstWq (m : Meta) : Nat := mdGet m 544 6
def mdPunt (m : Meta) : Nat := mdGet m 560 12
def mdTc (m : Meta) : Nat := mdGet m 576 3
def mdTsReq (m : Meta) : Bool := mdGet m 579 1 == 1
def mdCsum (m : Meta) : Bool := mdGet m 580 1 == 1
def mdEcnOff (m : Meta) : Bool := mdGet m 581 1 == 1
def mdReason (m : Meta) : Nat := mdGet m 584 8
def mdBd (m : Meta) : Nat := mdGet m 592 14
def mdSa (m : Meta) : Option Nat := if mdGet m 639 1 == 1 then some (mdGet m 608 18) else none
def mdFrameLen (m : Meta) : Nat := mdGet m 96 14
def mdInPort (m : Meta) : Nat := mdGet m 64 7
def mdFromHost (m : Meta) : Bool := mdGet m 71 1 == 1
def mdParse (m : Meta) : Nat := mdGet m 112 8
def mdL3Slot (m : Meta) : Nat := mdGet m 120 4
def mdL3Kind (m : Meta) : Nat := mdGet m 124 2
def mdHostMeta (m : Meta) : Nat := mdGet m 448 32
/-- Start of header slot `k`, when it is recorded. -/
def mdHdr (m : Meta) (k : Nat) : Option Nat :=
  if mdGet m (128 + 16 * k + 15) 1 == 1 then some (mdGet m (128 + 16 * k) 9) else none

/-- What the parser leaves: recorded slots, the IP slot, the status. -/
structure ParseOut where
  slots : List (Nat × Nat) := []
  l3Slot : Nat := 0
  l3Kind : Nat := 0
  /-- parse_status; `none` where the walk enters a state that the program does not have. -/
  status : Option Nat := some 0
  deriving DecidableEq, Repr

/-- Length of the header at `pos` under a parse state. -/
def hdrLen (st : ParseState) (win : List Byte) (pos : Nat) : Nat :=
  if st.var then ((byteAt win (pos + st.lenOff)).toNat &&& st.lenMask) / 2 ^ st.lenShift * st.lenUnit + st.lenAdd
  else st.fixedLen

/-- The next state chosen from the select field (R267). -/
def parseNext (st : ParseState) (win : List Byte) (pos : Nat) : Nat :=
  if st.selEn then
    let v := if st.sel16 then beAt win (pos + st.selOff) 2 else (byteAt win (pos + st.selOff)).toNat
    match st.trans.find? (fun t => (v &&& t.2.1) == (t.1 &&& t.2.1)) with
    | some t => t.2.2
    | none => st.defaultNext
  else st.defaultNext

/-- The parse walk, `fuel` states left to enter (R267). -/
def parseWalk (states : List ParseState) (win : List Byte) (frameLen : Nat) :
    Nat → Nat → Nat → ParseOut → ParseOut
  | 0, _, _, o => { o with status := some 3 }
  | fuel + 1, s, pos, o =>
    match states[s]? with
    | none => { o with status := none }
    | some st =>
      if !st.valid then { o with status := none }
      else if st.var && win.length ≤ pos + st.lenOff then { o with status := some 1 }
      else
        let h := hdrLen st win pos
        if st.selEn && h < st.selOff + (if st.sel16 then 2 else 1) then { o with status := some 5 }
        else if 512 < pos + h then { o with status := some 2 }
        else if frameLen < pos + h then { o with status := some 1 }
        else
          let o1 := if st.record then
              { o with slots := o.slots.filter (fun e => e.1 != st.slot) ++ [(st.slot, pos)],
                       l3Slot := if st.l3 = 0 then o.l3Slot else st.slot,
                       l3Kind := if st.l3 = 0 then o.l3Kind else st.l3 }
            else o
          let n := parseNext st win pos
          if n = 0xFF then o1
          else if n = 0xFE then { o1 with status := some 4 }
          else parseWalk states win frameLen fuel n (pos + h) o1

/-- Run the parser over a frame: at most 32 states are entered (R267). -/
def parseFrame (states : List ParseState) (frame : List Byte) : ParseOut :=
  parseWalk states (frame.take 512) frame.length 32 0 0 {}

/-- What a packet enters its parser with, beside its frame. -/
structure Entering where
  epoch : Nat
  origin : Origin
  rxNsec : Nat := 0
  rxSecLo : Nat := 0
  stepCount : Nat := 0
  hostMeta : Nat := 0
  tc : Nat := 0
  tsReq : Bool := false
  deriving DecidableEq, Repr

/-- The metadata at the end of the parser (R268); `free` is the status of a walk that left the program. -/
def mkMeta (e : Entering) (frame : List Byte) (p : ParseOut) (free : Nat) : Meta :=
  let m0 := [(0, 64, e.epoch), (64, 7, e.origin.lane), (71, 1, if e.origin.fromHost then 1 else 0),
    (72, 4, e.origin.hostPort), (80, 13, e.origin.inst), (96, 14, frame.length),
    (112, 8, p.status.getD (free % 6)), (120, 4, p.l3Slot), (124, 2, p.l3Kind), (384, 30, e.rxNsec),
    (416, 16, e.rxSecLo), (432, 8, e.stepCount), (448, 32, e.hostMeta), (576, 3, e.tc),
    (579, 1, if e.tsReq then 1 else 0)].foldl (fun m f => mdPut m f.1 f.2.1 f.2.2) (0 : Meta)
  p.slots.foldl (fun m s => mdPut m (128 + 16 * s.1) 16 (32768 + s.2)) m0

/-- A header field: bit 0 is the most significant bit of the header's first byte; `none` where the slot is not valid or
the field lies beyond the frame (R269). -/
def hdrField (frame : List Byte) (m : Meta) (slot off w : Nat) : Option Nat :=
  match mdHdr m slot with
  | none => none
  | some pos =>
    if frame.length * 8 < pos * 8 + off + w then none
    else
      let n := (off % 8 + w + 7) / 8
      some (beAt frame (pos + off / 8) n / 2 ^ (8 * n - off % 8 - w) % 2 ^ w)

/-- Write a header field; `none` where it is skipped (R275). -/
def hdrPut (frame : List Byte) (m : Meta) (slot off w v : Nat) : Option (List Byte) :=
  match mdHdr m slot with
  | none => none
  | some pos =>
    if frame.length * 8 < pos * 8 + off + w then none
    else
      let n := (off % 8 + w + 7) / 8
      let sh := 8 * n - off % 8 - w
      let old := beAt frame (pos + off / 8) n
      let new := old / 2 ^ (sh + w) * 2 ^ (sh + w) + v % 2 ^ w * 2 ^ sh + old % 2 ^ sh
      some (spliceAt frame (pos + off / 8) (bytesBE n new))

/-- The joined value of a key and the header operands that read 0 (R269). -/
def joinKey (s : Stage) (frame : List Byte) (m : Meta) : Nat × Nat :=
  s.fields.foldl (fun a f =>
    if kfSrc f = 1 then (a.1 * 2 ^ kfWidth f + mdGet m (kfOff f) (kfWidth f), a.2)
    else match hdrField frame m (kfSlot f) (kfOff f) (kfWidth f) with
      | some v => (a.1 * 2 ^ kfWidth f + v, a.2)
      | none => (a.1 * 2 ^ kfWidth f, a.2 + 1)) (0, 0)

/-- The key bytes: the joined value, padded with zero bits to a whole byte (R269). -/
def keyBytes (s : Stage) (joined : Nat) : List Byte :=
  let n := ceilDiv (keyBits s) 8
  bytesBE n (joined * 2 ^ (8 * n - keyBits s))

/-- The first `n` bits of two byte strings are equal. -/
def prefixEq (a b : List Byte) (n : Nat) : Bool :=
  natBE a / 2 ^ (8 * a.length - n) == natBE b / 2 ^ (8 * a.length - n)

/-- The better of two matches: lowest priority value, longest prefix; the earlier of equals (R271). -/
def bestBy (better : TblEntry → TblEntry → Bool) : List TblEntry → Option TblEntry
  | [] => none
  | e :: r => some (r.foldl (fun b x => if better x b then x else b) e)

/-- Look a key up among the entries of a table (R271). -/
def lookup (es : List TblEntry) (s : Stage) (cap joined : Nat) : Option TblEntry :=
  let key := keyBytes s joined
  let es := es.filter (fun e => e.table == s.table)
  if s.kind = 2 then
    bestBy (fun x b => decide (x.prio < b.prio))
      (es.filter (fun e => (natBE key &&& natBE e.mask) == (natBE e.key &&& natBE e.mask)))
  else if s.kind = 3 then
    bestBy (fun x b => decide (b.prefixLen < x.prefixLen)) (es.filter (fun e => prefixEq key e.key e.prefixLen))
  else if s.kind = 4 then
    if cap ≤ joined then none else es.find? (fun e => e.key == key)
  else es.find? (fun e => e.key == key)

/-- The key value of table 0xFFFF: bd × 2^48 + MAC (R294). -/
def macKey (bd mac : Nat) : Nat := bd * 2 ^ 48 + mac

/-- A value read by a slot's source (chapter 11, "Action words"). -/
def slotSrc (frame : List Byte) (m : Meta) (data : BitVec 128) (hs kind off w : Nat) : Option Nat :=
  if kind = 0 then some (mdGet m off w)
  else if kind = 1 then some (fieldNat data off w)
  else if kind = 2 then some (off % 2 ^ w)
  else hdrField frame m hs off w

/-- The value a slot computes from its sources (action op encoding). -/
def slotVal (op w a b : Nat) (key : List Byte) : Nat :=
  if op = 1 then a
  else if op = 2 then (a + b) % 2 ^ w
  else if op = 3 then (a + 2 ^ w - b) % 2 ^ w
  else if op = 4 then a &&& b
  else if op = 5 then a ||| b
  else if op = 6 then a ^^^ b
  else if op = 7 then min a b
  else if op = 8 then max a b
  else if op = 9 then a * 2 ^ (b % 64) % 2 ^ w
  else if op = 10 then a / 2 ^ (b % 64)
  else (crc32c key).toNat % 2 ^ w

/-- The learn a packet requests, and whether it is one (R298): key value, port; `none` where it is discarded. -/
def learnKey (frame : List Byte) (m : Meta) : Option (Nat × Nat) :=
  match mdHdr m 0 with
  | none => none
  | some pos =>
    if frame.length < pos + 12 then none
    else
      let mac := beAt frame (pos + 6) 6
      if mac = 0 ∨ mac / 2 ^ 40 % 2 = 1 ∨ mdFromHost m then none
      else some (macKey (mdBd m) mac, mdInPort m)

/-- A packet while its stages run. -/
structure RunSt where
  frame : List Byte
  md : Meta
  /-- Predicted keys of run-ahead stages: (stage, joined value) (R273). -/
  preds : List (Nat × Nat) := []
  skips : Nat := 0
  issued : Nat := 0
  replays : Nat := 0
  /-- Entries that a committed lookup hit, by uid (R271). -/
  hits : List Nat := []
  /-- Learned keys that a committed lookup hit (R295). -/
  lhits : List Nat := []
  /-- Lookups that met poison in the HBM table (R487). -/
  bad : Nat := 0
  /-- What the first LEARN of the packet requests, as the packet stood before its word; the inner `none` is discarded
  (R275, R298). -/
  learn : Option (Option (Nat × Nat)) := none
  /-- A stage waits for the HBM table (R272). -/
  waitAt : Option Nat := none
  deriving DecidableEq, Repr

/-- Run one action word: every slot reads the packet as it stood before the word (R275). -/
def runWord (word : List W64) (data : BitVec 128) (key : List Byte) (r : RunSt) : RunSt :=
  word.foldl (fun acc x =>
    let op := slotOp x
    if op = 0 then acc
    else if op = 0x0C then { acc with learn := some (r.learn.getD (learnKey r.frame r.md)) }
    else
      let w := slotWidth x
      let a := if slotReadsA x then slotSrc r.frame r.md data (slotHslot x) (fieldNat x 24 2) (fieldNat x 26 10) w else some 0
      let b := if slotReadsB x then slotSrc r.frame r.md data (slotHslot x) (fieldNat x 36 2) (fieldNat x 38 10) w else some 0
      let v := slotVal op w (a.getD 0) (b.getD 0) key
      let sk := (if a.isNone then 1 else 0) + (if b.isNone then 1 else 0)
      if slotHdr x then
        match hdrPut acc.frame r.md (slotHslot x) (slotOff x) w v with
        | some f => { acc with frame := f, skips := acc.skips + sk }
        | none => { acc with skips := acc.skips + sk + 1 }
      else { acc with md := mdPut acc.md (slotOff x) w v, skips := acc.skips + sk }) r

/-- Run the action with this id; 0xFFFF is none. -/
def runAction (prog : PipeProg) (id : Nat) (data : BitVec 128) (key : List Byte) (r : RunSt) : RunSt :=
  if id = 0xFFFF then r else runWord (prog.actions.getD id []) data key r

/-- What a stage finds around it: the entries of the packet's epoch, the learned table, LEARN_CFG.hit_action, the free
values of undefined tables (R293), and whether a lookup of the HBM table misses the cache (R272). -/
structure Around where
  entries : List TblEntry
  learned : List Learned
  hitAction : Nat
  undef : Option Nat := none
  hbmMiss : Bool := false
  /-- Entries, by uid, whose slot of the HBM table holds poison (R487). -/
  bad : List Nat := []
  deriving DecidableEq, Repr

/-- The stage runs for this packet: enabled, and its predicate holds (R271). -/
def stageRuns (s : Stage) (m : Meta) : Bool :=
  s.enable && (!s.predEn || ((mdGet m s.predOff 1 == 1) == s.predValue))

/-- The table of a stage in a program. -/
def stageTable (prog : PipeProg) (s : Stage) : Option TblDesc := prog.tables.find? (fun t => t.table == s.table)

/-- Run the action of a lookup's outcome (R271, R295); an entry of the HBM table that holds poison is a miss (R487). -/
def stageAct (prog : PipeProg) (ar : Around) (n : Nat) (s : Stage) (joined : Nat) (r : RunSt) : RunSt :=
  let key := keyBytes s joined
  match ar.undef with
  | some f =>
    if s.kind = 0 then runAction prog s.missAction s.missData key r
    else
      let x := (Config.freeBits (f + 2 * n)).toNat
      if x % 2 = 0 then runAction prog s.missAction s.missData key r
      else runAction prog (x / 2 % max prog.actions.length 1)
        (BitVec.ofNat 128 ((Config.freeBits (f + 2 * n)).toNat * 2 ^ 64 + (Config.freeBits (f + 2 * n + 1)).toNat)) key r
  | none =>
    if s.kind = 0 then runAction prog s.missAction s.missData key r
    else
      let cap := ((stageTable prog s).map (·.entries)).getD 0
      match lookup ar.entries s cap joined with
      | some e =>
        if ar.bad.contains e.uid then runAction prog s.missAction s.missData key { r with bad := r.bad + 1 }
        else runAction prog e.action e.data key { r with hits := r.hits ++ [e.uid] }
      | none =>
        if s.table = 0xFFFF then
          match ar.learned.find? (fun l => l.key == joined) with
          | some l =>
            let r1 := { r with lhits := r.lhits ++ [l.key] }
            if ar.hitAction < prog.actions.length then
              runAction prog ar.hitAction (BitVec.ofNat 128 (l.port % 128)) key r1
            else runAction prog s.missAction s.missData key r1
          | none => runAction prog s.missAction s.missData key r
        else runAction prog s.missAction s.missData key r

/-- Keep the final fields of R276 in an egress stage, but for a dest_kind set to 0, which drops. -/
def egressKeep (old : Meta) (r : RunSt) : RunSt :=
  let d := mdDest r.md
  let m := [(520, 7), (528, 13), (544, 6), (560, 12), (576, 3), (592, 14)].foldl
    (fun m f => mdPut m f.1 f.2 (mdGet old f.1 f.2)) r.md
  { r with md := mdPut m 512 3 (if d = 0 then 0 else mdDest old) }

/-- One stage, number `n`. -/
def runStage (prog : PipeProg) (ar : Around) (n : Nat) (r : RunSt) : RunSt :=
  match prog.stages[n]? with
  | none => r
  | some s =>
    let r1 :=
      if stageRuns s r.md then
        let (joined, sk) := joinKey s r.frame r.md
        let ra := s.runAhead && s.kind != 0
        let replay := ra && (r.preds.any (fun p => p.1 == n && p.2 != joined))
        let r0 := { r with skips := r.skips + sk, replays := r.replays + (if replay then 1 else 0) }
        let r2 := stageAct prog ar n s joined r0
        if 20 ≤ n then egressKeep r.md r2 else r2
      else r
    -- the lookups issued ahead as the packet leaves this stage (R273)
    let ahead := (List.range 32).filter (fun k =>
      match prog.stages[k]? with
      | some t => t.enable && t.runAhead && t.kind != 0 && k == n + t.ahead && (decide (k < 20) == decide (n < 20))
      | none => false)
    { r1 with
      issued := r1.issued + ahead.length,
      preds := r1.preds ++ ahead.map (fun k => (k, ((prog.stages[k]?).map (fun t => (joinKey t r1.frame r1.md).1)).getD 0)) }

/-- The stage looks up the HBM table (R272). -/
def stageHbm (prog : PipeProg) (n : Nat) (m : Meta) : Bool :=
  match prog.stages[n]? with
  | some s => stageRuns s m && ((stageTable prog s).map (·.hbm)).getD false
  | none => false

/-- Stages in order from the list; a stage whose HBM lookup misses the cache holds the packet there. A packet dropped
in egress runs no later stage. -/
def runStages (prog : PipeProg) (ar : Around) : List Nat → RunSt → RunSt
  | [], r => r
  | n :: ns, r =>
    if r.waitAt.isSome then r
    else if ar.hbmMiss && stageHbm prog n r.md then { r with waitAt := some n }
    else if 20 ≤ n && mdDest r.md = 0 then r
    else runStages prog ar ns (runStage prog ar n r)

/-- The ingress stages from stage `n` on. -/
def ingressFrom (n : Nat) : List Nat := (List.range 20).filter (n ≤ ·)

/-- The egress stages. -/
def egressStages : List Nat := (List.range 32).filter (20 ≤ ·)

/-- Recompute the IPv4 header checksum of the header at l3_slot (R276). -/
def ipv4Checksum (frame : List Byte) (m : Meta) : List Byte :=
  match mdHdr m (mdL3Slot m) with
  | none => frame
  | some pos =>
    let n := (byteAt frame pos).toNat % 16 * 4
    let h := spliceAt (slice frame pos n) 10 [0, 0]
    spliceAt frame (pos + 10) (bytesBE 2 (65535 - onesSum (words16 h)))

/-- ECN field of the IP header, and where its byte is (R284). -/
def ecnAt (m : Meta) : Option (Nat × Nat) :=
  match mdHdr m (mdL3Slot m) with
  | none => none
  | some pos => if mdL3Kind m = 1 then some (pos + 1, 0) else if mdL3Kind m = 2 then some (pos + 1, 4) else none

/-- The packet is ECN-capable: ECT(0) or ECT(1) in an IP header, and ecn_off 0 (R284). -/
def ecnCapable (frame : List Byte) (m : Meta) : Bool :=
  match ecnAt m with
  | none => false
  | some (o, b) =>
    let v := (byteAt frame o).toNat / 2 ^ b % 4
    !mdEcnOff m && (v == 1 || v == 2)

/-- Set the ECN field to CE and, for IPv4, update the header checksum in the same act (R284). -/
def setCe (frame : List Byte) (m : Meta) : List Byte :=
  match ecnAt m with
  | none => frame
  | some (o, b) =>
    let v := (byteAt frame o).toNat
    let f := spliceAt frame o [BitVec.ofNat 8 (v / 2 ^ (b + 2) * 2 ^ (b + 2) + 3 * 2 ^ b + v % 2 ^ b)]
    if mdL3Kind m = 1 then ipv4Checksum f m else f

end Sys2Proof.Machine
end

