-- ==== Sys2Proof/Machine/CtlApply.lean ====
section
/-! DEFINITION. What the control instructions change in the configuration (R155 to R185). -/

namespace Sys2Proof.Machine
open Sys2Proof

/-- The configuration a CREATE gives its object (R158). -/
def Cfg.create (c : Cfg) (e : W512) : Cfg :=
  let k := ciKind e
  let i := ciInst e
  let id := ciId e
  if k = oInst then
    { c with
      insts := c.insts.put {} i
        { life := .created, port := BitVec.ofNat 4 (ent e 24 1), pasidEn := bitOf (ent e 25 1) 0,
          pasid := BitVec.ofNat 20 (ent e 28 4), root := BitVec.ofNat 64 (ent e 32 8) } }
  else if k = oQp then
    { c with
      qps := c.qps.put {} id
        { life := .created, inst := i, sendCq := BitVec.ofNat 6 (ent e 24 1), recvCq := BitVec.ofNat 6 (ent e 25 1),
          recvWq := BitVec.ofNat 8 (ent e 26 1), maxOut := ent e 28 2 % 1024 } }
  else if k = oWin then
    { c with
      wins := c.wins.put {} (i * 65536 + id)
        { life := .created, base := ent e 24 8, length := ent e 32 8, key := BitVec.ofNat 32 (ent e 40 4),
          access := BitVec.ofNat 3 (ent e 44 1), devmem := bitOf (ent e 45 1) 0, qpn := ent e 48 3 } }
  else if k = oTrig then
    { c with
      trigs := c.trigs.put {} id
        { life := .created, inst := i, initial := BitVec.ofNat 32 (ent e 24 4), homeQpn := ent e 28 3 } }
  else if k = oPort then
    { c with
      ports := c.ports.put {} id
        { life := .created, lanes := ent e 24 1, rate := BitVec.ofNat 2 (ent e 25 1), fec := BitVec.ofNat 8 (ent e 26 1),
          macsec := bitOf (ent e 27 1) 0, pfc := bitOf (ent e 27 1) 1, maxFrame := BitVec.ofNat 16 (ent e 28 2),
          pfcMask := BitVec.ofNat 8 (ent e 30 1) } }
  else
    { c with
      sas := c.sas.put {} id
        { life := .created, encrypt := bitOf (ent e 24 1) 0, esp := ent e 25 1 % 4 == 1, slot := ent e 26 2,
          alg := BitVec.ofNat 8 (ent e 28 1), unit := BitVec.ofNat 8 (ent e 29 1), given := none,
          port := BitVec.ofNat 7 (ent e 30 1), sciSpi := BitVec.ofNat 64 (ent e 32 8),
          nextPn := BitVec.ofNat 64 (ent e 40 8), replayWin := BitVec.ofNat 32 (ent e 48 4) } }

/-- The configuration a queue CREATE gives (R178). -/
def Cfg.qCreate (c : Cfg) (e : W512) : Cfg :=
  let k := ciKind e
  let i := ciInst e
  let id := ciId e
  let log2 := BitVec.ofNat 4 (ent e 25 1)
  let base := BitVec.ofNat 64 (ent e 32 8)
  let mirror := BitVec.ofNat 64 (ent e 40 8)
  if k = oWq then
    { c with
      wqs := c.wqs.put {} (i * 64 + id)
        { life := .created, kind := BitVec.ofNat 4 (ent e 24 1), log2 := log2, cq := BitVec.ofNat 6 (ent e 26 1), base := base } }
  else if k = oCq then
    { c with
      cqs := c.cqs.put {} (i * 64 + id)
        { life := .created, log2 := log2, eq := BitVec.ofNat 6 (ent e 26 1), reserve := BitVec.ofNat 16 (ent e 28 2),
          base := base, mirror := mirror } }
  else
    { c with
      eqs := c.eqs.put {} (i * 8 + id)
        { life := .created, log2 := log2, vector := BitVec.ofNat 11 (ent e 26 2), base := base, mirror := mirror } }

/-- Work of inline units: SAs homed on unit `u` of a pipeline (R348). -/
def Cfg.saHomed (c : Cfg) (p u : Nat) : Nat :=
  countWhere c.sas (fun k s => k / 32768 == p && s.given == some u)

/-- Working inline units of a pipeline: all but those lost; a spare takes the number of the unit it replaces (R12, R348,
R485). -/
def Blk.inlineUnits (b : Blk) (p : Nat) : List Nat :=
  (List.range 32).filter (fun u => !(b.keys.unitsLost.get [] p).contains u)

/-- The unit of a list that homes the fewest SAs, the earliest of the list on a tie (R348). -/
def Cfg.emptiest (c : Cfg) (p : Nat) (units : List Nat) : Option Nat :=
  match units with
  | [] => none
  | u :: r => some (r.foldl (fun m x => if c.saHomed p x < c.saHomed p m then x else m) u)

/-- The home unit that ENABLE gives an SA: the one it has kept since an earlier ENABLE (R160); else the one named, or the one with the fewest SAs, the lowest number first; none
where no unit has room for one more of its 1,024 (R348). -/
def Blk.saUnit (b : Blk) (k : Nat) : Option Nat :=
  let p := k / 32768
  let s := b.cfg.sa k
  let kept := s.given.filter (fun u => (b.inlineUnits p).contains u)
  if kept.isSome then kept else
  let room := (b.inlineUnits p).filter (fun u => b.cfg.saHomed p u < 1024)
  if s.unit = 0xFF then
    b.cfg.emptiest p room
  else if room.contains s.unit.toNat then some s.unit.toNat else none

/-- Queues of an instance that are CREATED: (WQs, CQs, EQs) by number (R156). -/
def Cfg.createdQueues (c : Cfg) (i : Nat) : List Obj :=
  ((List.range 8).filter (fun e => (c.eq i e).life == .created)).map (Obj.eq i) ++
  ((List.range 64).filter (fun q => (c.cq i q).life == .created)).map (Obj.cq i) ++
  ((List.range 64).filter (fun q => (c.wq i q).life == .created)).map (Obj.wq i)

/-- Remove an instance with all its objects and queues; its key slots are bound to the device (R160). -/
def Cfg.dropInst (c : Cfg) (i : Nat) : Cfg :=
  { c with
    insts := c.insts.put {} i {},
    wqs := c.wqs.dropKeys (fun k => k / 64 == i),
    cqs := c.cqs.dropKeys (fun k => k / 64 == i),
    eqs := c.eqs.dropKeys (fun k => k / 8 == i),
    qps := c.qps.filter (fun x => x.2.inst != i),
    wins := c.wins.dropKeys (fun k => k / 65536 == i),
    trigs := c.trigs.filter (fun x => x.2.inst != i),
    bindings := c.bindings.filter (fun x => x.2 != some i) }

/-- ENABLE of an object; an instance's CREATED queues follow it (R156), an SA gets its home unit (R348). -/
def Blk.cfgEnable (b : Blk) (o : Obj) : Cfg :=
  let c := b.cfg.setLife o .enabled
  match o with
  | .inst i => (b.cfg.createdQueues i).foldl (fun c q => c.setLife q .enabled) c
  | .sa k => { c with sas := c.sas.upd {} k (fun s => { s with given := b.saUnit k }) }
  | _ => c

/-- DISABLE of an object; an SA keeps its unit until DESTROY (R160). -/
def Cfg.disable (c : Cfg) (o : Obj) : Cfg := c.setLife o .disabled

/-- DESTROY of an object. -/
def Cfg.destroy (c : Cfg) (o : Obj) : Cfg :=
  match o with
  | .inst i => c.dropInst i
  | _ => c.drop o

/-- Two entries have the same key: the prefix bits of an LPM key, key and mask of a TERNARY one, the whole key of the
other kinds. -/
def sameKey (kind : Nat) (x y : TblEntry) : Bool :=
  x.table == y.table &&
  (if kind = 3 then x.prefixLen == y.prefixLen && prefixEq x.key y.key x.prefixLen
   else x.mask == y.mask && x.key == y.key)

/-- Kind of a table a pipeline has; EXACT where it has none. -/
def Cfg.kindOf (c : Cfg) (p id : Nat) : Nat := ((c.tableShape p id).map (·.1)).getD 1

/-- The entry that a table instruction names in one pipeline. -/
def Cfg.tblEntryOf (c : Cfg) (p : Nat) (e : W512) (ext : List Byte) (uid : Nat) : TblEntry :=
  { table := tbTable e, key := ext.take (tbKeyLen e),
    mask := if c.kindOf p (tbTable e) = 2 then ext.drop (tbKeyLen e) else [], prefixLen := tbPrefix e, prio := tbPrio e,
    action := tbAction e, data := tbData e, uid := uid }

/-- The entry with the key named, as the pipeline holds it. -/
def Cfg.tblFind (c : Cfg) (p : Nat) (e : W512) (ext : List Byte) : Option TblEntry :=
  (c.entries p).find? (fun x => sameKey (c.kindOf p (tbTable e)) x (c.tblEntryOf p e ext 0))

/-- Change the entries of a pipeline. -/
def Cfg.setEntries (c : Cfg) (p : Nat) (l : List TblEntry) : Cfg := { c with tbls := c.tbls.put [] p l }

/-- TBL.INSERT, TBL.MODIFY and TBL.DELETE in one pipeline (R163, R271). -/
def Cfg.tblApply (c : Cfg) (o : COp) (e : W512) (ext : List Byte) (p : Nat) : Cfg :=
  let n := c.tblEntryOf p e ext c.nextUid
  let same := sameKey (c.kindOf p (tbTable e))
  match o with
  | .tblInsert => { c.setEntries p (c.entries p ++ [n]) with nextUid := c.nextUid + 1 }
  | .tblModify => c.setEntries p ((c.entries p).map (fun x => if same x n then { n with uid := x.uid } else x))
  | _ => c.setEntries p ((c.entries p).filter (fun x => !same x n))

/-- PIPE.LOAD of a whole program into one pipeline: matching tables keep their entries (R162). -/
def Cfg.loadProg (c : Cfg) (g : PipeProg) (p : Nat) : Cfg :=
  let old := (c.prog p).map (·.tables)
  let keep := fun t : TblEntry => t.table == 0xFFFF ||
    g.tables.any (fun n => n.table == t.table && (old.getD []).any (fun o => keepsTable n o))
  { c.setEntries p ((c.entries p).filter keep) with progs := c.progs.put none p (some g) }

/-- The pipeline program a last chunk completes. -/
def loadedBy (prior : List CInstr) (i : CInstr) : Option (List Nat × PipeProg) :=
  if bitOf (ent i.raw 28 1) 0 then
    match (loadings (prior ++ [i])).1.getLast? with
    | some g => (readProg g.bytes).map (fun x => (g.pipes, x))
    | none => none
  else none

/-- The window that WIN.MODIFY leaves (R169). -/
def WinCfg.modify (w : WinCfg) (e : W512) : WinCfg :=
  let m := ent e 46 1
  { w with base := if bitOf m 0 then ent e 24 8 else w.base, length := if bitOf m 1 then ent e 32 8 else w.length,
           key := if bitOf m 2 then BitVec.ofNat 32 (ent e 40 4) else w.key,
           access := if bitOf m 3 then BitVec.ofNat 3 (ent e 44 1) else w.access }

/-- A change narrows the window (R169). -/
def narrows (w n : WinCfg) : Bool :=
  !(decide (n.base ≤ w.base) && decide (w.base + w.length ≤ n.base + n.length)) ||
  (w.access &&& ~~~n.access) != 0 || w.key != n.key

/-- The peer QP.CONNECT names (R167). -/
def connOf (e : W512) : Conn :=
  { ipv6 := bitOf (ent e 19 1) 0, remoteQpn := ent e 20 3, paths := ent e 23 1,
    remoteIp := BitVec.ofNat 128 (natBE (bytesLE 16 (ent e 24 16))), mtu := ent e 40 2, dscp := ent e 42 1 % 64,
    tc := ent e 43 1 % 8, localIp := BitVec.ofNat 128 (natBE (bytesLE 16 (ent e 48 16))) }

/-- The configuration after one instruction; `prior` are the instructions of the program before it (R156). -/
def Blk.cfgApply (b : Blk) (prior : List CInstr) (x : CInstr) : Cfg :=
  let c := b.cfg
  let e := x.raw
  match ciOp e with
  | none => c
  | some o =>
    match o with
    | .create => c.create e
    | .qCreate => c.qCreate e
    | .enable | .qEnable => match ciObj o e with
      | some ob => b.cfgEnable ob
      | none => c
    | .disable | .qDisable => match ciObj o e with
      | some ob => c.disable ob
      | none => c
    | .destroy | .qDestroy => match ciObj o e with
      | some ob => c.destroy ob
      | none => c
    | .invalidate =>
      if bitOf (ent e 24 1) 1 then
        { c with insts := c.insts.upd {} (ciInst e) (fun v => { v with root := BitVec.ofNat 64 (ent e 48 8) }) }
      else c
    | .pipeLoad => match loadedBy prior x with
      | some (ps, g) => ps.foldl (fun c p => c.loadProg g p) c
      | none => c
    | .tblInsert | .tblDelete | .tblModify => (ciPipes e).foldl (fun c p => c.tblApply o e x.ext p) c
    | .rmtConfig => { c with udpPort := ent e 16 2 }
    | .qpConnect => { c with qps := c.qps.upd {} (ciQpn e) (fun q => { q with conn := some (connOf e) }) }
    | .qpTune =>
      { c with qps := c.qps.upd {} (ciQpn e) (fun q => { q with
          tune := { rtoUs := ent e 20 4, retryLimit := ent e 24 1, ccProfile := ent e 25 1 % 8, msgTimeoutMs := ent e 26 2 } }) }
    | .winModify => { c with wins := c.wins.upd {} (ciInst e * 65536 + ciId e) (fun w => w.modify e) }
    | .keyBind =>
      let bound := if bitOf (ent e 20 1) 0 then none else some (ent e 18 2 % 8192)
      { c with bindings := c.bindings.put none (ent e 16 2) bound }
    | .instResize =>
      { c with insts := c.insts.upd {} (ciInst16 e) (fun v => { v with
          grants := (rzPairs e).foldl (fun g p => g.put 0 p.1 p.2) v.grants }) }
    | .instAttach =>
      { c with insts := c.insts.upd {} (ciInst16 e) (fun v => { v with
          life := .disabled, port := BitVec.ofNat 4 (ent e 18 1) }) }
    | .poolSet => { c with pools := c.pools.put 0 (ent e 16 1 * 16 + ent e 17 1) (ent e 20 4) }
    | .keyImport | .keyRetire | .timeStep | .timeServo | .timeSource | .qReset | .dirtyLog | .powerCap | .slotControl
    | .tblQuery | .query | .summary | .begin_ | .commit | .abort | .fence => c

end Sys2Proof.Machine
end

