-- ==== Sys2Proof/Machine/CtlCheck.lean ====
section
/-! DEFINITION. The check phase (R136 to R138, R159, R162, R163, R169, R170, R178 to R185, R450, R451): each instruction
against the staged state, in the order of R136. -/

namespace Sys2Proof.Machine
open Sys2Proof

/-- Key material bytes of an algorithm (R347). -/
def keyLen (alg : Nat) : Nat :=
  if alg = 1 ∨ alg = 7 ∨ alg = 9 then 16 else if alg = 3 then 48 else if alg = 4 then 20 else if alg = 5 then 36
  else if alg = 6 then 64 else 32

/-- The material suits the algorithm: its length, and two different halves for XTS (R347). -/
def materialOk (alg : Nat) (m : List Byte) : Bool :=
  m.length == keyLen alg && (alg != 6 || m.take 32 != m.drop 32)

/-- The wrapping key a KEY.IMPORT names (R367). -/
def Blk.wrapKey (b : Blk) (s : Issuer) (k : Nat) : Option (List Byte) :=
  if k = 0xFFFF then b.keys.importKey
  else
    let bound := match b.cfg.binding k with
      | none => true
      | some i => b.cfg.inScope s i
    if (b.slot k).st = .active ∧ (b.slot k).alg = 0x0B ∧ bound = true then (b.slot k).cur.map (·.material) else none

/-- The key that a KEY.IMPORT unwraps, when it suits (R170, R347, R367). -/
def Blk.importMaterial (b : Blk) (s : Issuer) (x : CInstr) : Option KeyReg :=
  match b.wrapKey s (ent x.raw 20 2) with
  | none => none
  | some kek =>
    match Config.unwrap kek x.ext with
    | none => none
    | some m =>
      if materialOk (ent x.raw 18 1) m then some { material := m, limit := ent x.raw 24 8, counter := 0 } else none

/-- The ENABLED SAs that name a slot. -/
def Cfg.saNames (c : Cfg) (k : Nat) : List SaCfg := (c.sas.filter (fun s => s.2.life == .enabled && s.2.slot == k)).map (·.2)

/-- The bound port of an SA is a MACsec port that is ENABLED (R159). -/
def Cfg.macsecPort (c : Cfg) (s : SaCfg) : Bool :=
  s.esp || ((c.port s.port.toNat).life == .enabled && (c.port s.port.toNat).macsec)

/-- Lanes of a port. -/
def lanesOf (l : Nat) (p : PortCfg) : List Nat := (List.range p.lanes).map (· + l)

/-- Two ports claim the same lane, or share a lane group at different lane rates (R159, R310). -/
def portsClash (l : Nat) (p : PortCfg) (m : Nat) (q : PortCfg) : Bool :=
  (lanesOf l p).any (fun x => (lanesOf m q).contains x) ||
  (p.rate != q.rate && (lanesOf l p).any (fun x => (lanesOf m q).any (fun y => x / 4 == y / 4)))

/-- Sources of an EQ of an instance (R117): two for each CQ bound to it, one for each WQ bound to one of those. -/
def Cfg.eqSources (c : Cfg) (i e : Nat) : Nat :=
  let cqs := (List.range 64).filter (fun q => (c.cq i q).life != .absent && (c.cq i q).eq.toNat == e)
  2 * cqs.length +
  ((List.range 64).filter (fun q => (c.wq i q).life != .absent && cqs.contains (c.wq i q).cq.toNat)).length

/-- The queue an object is bound to. -/
def Cfg.boundQueue (c : Cfg) : Obj → Option Obj
  | .wq i q => some (.cq i (c.wq i q).cq.toNat)
  | .cq i q => some (.eq i (c.cq i q).eq.toNat)
  | _ => none

/-- The EQ that carries a queue's events. -/
def Cfg.eqOfQueue (c : Cfg) : Obj → Option Nat
  | .wq i q => some (c.cq i (c.wq i q).cq.toNat).eq.toNat
  | .cq i q => some (c.cq i q).eq.toNat
  | .eq _ e => some e
  | _ => none

/-- ENABLED EQs of other instances or numbers on the same port that name vector `v`. -/
def Cfg.vectorTaken (c : Cfg) (i e v : Nat) : Bool :=
  c.eqs.any (fun x => x.1 != i * 8 + e && x.2.life == .enabled && x.2.vector.toNat == v &&
    (c.inst (x.1 / 8)).port == (c.inst i).port)

/-- PKT_RECV WQs that hold a delivery queue of a port (R285). -/
def Cfg.deliveryQueues (c : Cfg) (h : Nat) : Nat :=
  countWhere c.wqs (fun k w => w.life == .enabled && w.kind.toNat == kPktRecv && (c.inst (k / 64)).port.toNat == h)

/-- The rings of an instance's ENABLED queues: each queue with the first address and the length of its ring (R102, R138). -/
def Cfg.rings (c : Cfg) (i : Nat) : List (Obj × Nat × Nat) :=
  (((List.range 64).filter (fun q => (c.wq i q).life == .enabled)).map (fun q =>
    (Obj.wq i q, (c.wq i q).base.toNat, 64 * 2 ^ (c.wq i q).log2.toNat))) ++
  (((List.range 64).filter (fun q => (c.cq i q).life == .enabled)).map (fun q =>
    (Obj.cq i q, (c.cq i q).base.toNat, 32 * 2 ^ (c.cq i q).log2.toNat))) ++
  (((List.range 8).filter (fun e => (c.eq i e).life == .enabled)).map (fun e =>
    (Obj.eq i e, (c.eq i e).base.toNat, 32 * 2 ^ (c.eq i e).log2.toNat)))

/-- The ring of a queue lies apart from those of the instance's other ENABLED queues (R138; that the address ranges objects
claim are their rings is the model's reading, log 107). -/
def Cfg.ringsApart (c : Cfg) (i : Nat) (o : Obj) : Bool :=
  let l := c.rings i
  match l.find? (fun x => x.1 == o) with
  | some x => !l.any (fun y => y.1 != o && decide (x.2.1 < y.2.1 + y.2.2) && decide (y.2.1 < x.2.1 + x.2.2))
  | none => true

/-- The consistency check of queues that one instruction enables (R138, R156); `c` has them ENABLED already, and the EQs
`own` are the instance's. -/
def Blk.queueCheck (b : Blk) (c : Cfg) (i : Nat) (qs : List Obj) (own : List Nat := []) : Option Nat :=
  firstOf [
    chk (qs.all (fun q => match c.boundQueue q with
      | some t => c.life t != .absent
      | none => true)) 0x0402,
    chk (qs.all (fun q => match c.boundQueue q with
      | some t => c.life t == .enabled
      | none => true)) 0x0401,
    chk (qs.all (fun q => match c.eqOfQueue q with
      | some e => c.eqSources i e ≤ 2 ^ (c.eq i e).log2.toNat
      | none => true)) 0x0440,
    chk (qs.all (fun q => match q with
      | .eq j e => !c.vectorTaken j e (c.eq j e).vector.toNat
      | _ => true) && own.all (fun e => !c.vectorTaken i e (c.eq i e).vector.toNat) && qs.all (c.ringsApart i)) 0x0403,
    chk (c.withinGrants i) 0x0303,
    chk (c.deliveryQueues (c.inst i).port.toNat ≤ 1024) 0x0304,
    chk (b.halfUp i) 0x0505]

/-- The consistency check of an ENABLE (R138, then R159). -/
def Blk.enableCheck (b : Blk) (o : Obj) : Option Nat :=
  let c := b.cfg
  match o with
  | .inst i =>
    let qs := c.createdQueues i
    let c1 := qs.foldl (fun c q => c.setLife q .enabled) c
    b.queueCheck c1 i qs ((List.range 8).filter (fun e => (c1.eq i e).life == .enabled))
  | .wq i _ => b.queueCheck (c.setLife o .enabled) i [o]
  | .cq i _ => b.queueCheck (c.setLife o .enabled) i [o]
  | .eq i _ => b.queueCheck (c.setLife o .enabled) i [o]
  | .qp _ n =>
    let q := c.qp n
    let rw := c.wq q.inst q.recvWq.toNat
    let none_ := q.recvWq == 0xFF
    firstOf [
      chk ((c.cq q.inst q.sendCq.toNat).life != .absent && (c.cq q.inst q.recvCq.toNat).life != .absent &&
        (none_ || rw.life != .absent)) 0x0402,
      chk ((c.cq q.inst q.sendCq.toNat).life == .enabled && (c.cq q.inst q.recvCq.toNat).life == .enabled) 0x0401,
      chk (c.withinGrants q.inst) 0x0303, chk (b.halfUp q.inst) 0x0505,
      chk ((c.inst q.inst).life == .enabled) 0x0501, chk q.conn.isSome 0x0401,
      chk (none_ || (rw.kind.toNat == kRmtRecv && rw.cq == q.recvCq)) 0x0401]
  | .win i w =>
    let x := c.win i w
    firstOf [
      chk (x.qpn == 0 || ((c.qp x.qpn).life != .absent && (c.qp x.qpn).inst == i)) 0x0402,
      chk (c.withinGrants i) 0x0303, chk (b.halfUp i) 0x0505,
      chk (!c.wins.any (fun y => y.1 / 65536 == i && y.1 % 65536 != w && y.2.life != .absent && y.2.key == x.key)) 0x0404,
      chk (!x.devmem || x.base + x.length ≤ c.grant i 7 * 2097152) 0x0303]
  | .trig _ k =>
    let t := c.trig k
    firstOf [chk ((c.qp t.homeQpn).life != .absent && (c.qp t.homeQpn).inst == t.inst) 0x0402,
      chk (c.withinGrants t.inst) 0x0303, chk (b.halfUp t.inst) 0x0505]
  | .port l =>
    let p := c.port l
    firstOf [
      chk (!c.ports.any (fun q => q.1 != l && (q.2.life == .enabled || q.2.life == .disabled) && portsClash l p q.1 q.2)) 0x0403,
      chk (b.atPoint (halfOfLane l) 2) 0x0505]
  | .sa k =>
    let s := c.sa k
    let slot := b.slot s.slot
    firstOf [
      chk (s.esp || (c.port s.port.toNat).life != .absent) 0x0402,
      chk (b.atPoint (halfOfPipe (k / 32768)) 2) 0x0505,
      chk (slot.st == .active || slot.st == .exhausted) 0x0631,
      chk (!(s.encrypt && slot.st == .exhausted)) 0x0630,
      chk (c.binding s.slot == none) 0x0201,
      chk (slot.alg == s.alg) 0x0501,
      chk (c.macsecPort s) 0x0401,
      chk (b.saUnit k).isSome 0x0304,
      chk (s.encrypt || !c.sas.any (fun t => t.1 != k && t.1 / 32768 == k / 32768 && t.2.life == .enabled &&
        !t.2.encrypt && t.2.esp == s.esp &&
        (if s.esp then t.2.sciSpi.toNat % 2 ^ 32 == s.sciSpi.toNat % 2 ^ 32
         else t.2.port == s.port && t.2.sciSpi == s.sciSpi && t.1 % 4 == k % 4))) 0x0404]

/-- Sum of min_cells and headroom of a half over the programs of the live epochs and the staged one (R279). -/
def progCells (g : PipeProg) : Nat :=
  g.tm.foldl (fun a t => a + t.headroom + t.classes.foldl (fun x k => x + k.minCells) 0) 0

/-- Programs of a pipeline in the live epochs, with the one staged. -/
def Blk.liveProgs (b : Blk) (p : Nat) : List PipeProg :=
  ((b.ctl.live.map (fun r => r.cfg.prog p)) ++ [b.cfg.prog p]).filterMap id |>.dedup

/-- Cells reserved in a half by the programs of the live epochs (R279). -/
def Blk.reservedCells (b : Blk) (h : Half) : Nat :=
  ((List.range 8).filter (fun p => halfOfPipe p == h)).foldl (fun a p =>
    a + (b.liveProgs p).foldl (fun x g => x + progCells g) 0) 0

/-- Programs of a pipeline in the live epochs and the one staged, in their order: a program that stays from one epoch to the
next stands once. -/
def Blk.progRun (b : Blk) (p : Nat) : List PipeProg :=
  (((b.ctl.live.map (fun r => r.cfg.prog p)) ++ [b.cfg.prog p]).filterMap id).foldr (fun g r =>
    if r.head? = some g then r else g :: r) []

/-- Distinct tables of programs that follow one another: a table that a program keeps from the one before it (R162) counts
once, at its larger capacity (R292). The first list holds the tables of the program reached. -/
def mergeTables (cur gone : List TblDesc) : List PipeProg → List TblDesc
  | [] => cur ++ gone
  | g :: r =>
    let same := fun t x : TblDesc => keepsTable t x && t.hbm == x.hbm
    mergeTables (g.tables.map (fun t => match cur.find? (same t) with
      | some x => { t with entries := max x.entries t.entries }
      | none => t)) (gone ++ cur.filter (fun x => !g.tables.any (fun t => same t x))) r

/-- Pool space of a pipeline in use (R292). -/
def Blk.poolSpace (b : Blk) (p : Nat) : Nat × Nat × Nat :=
  (mergeTables [] [] (b.progRun p)).foldl (fun a t =>
    let c := poolCost t
    (a.1 + c.1, a.2.1 + c.2.1, a.2.2 + c.2.2)) (0, 0, 0)

/-- A PIPE.LOAD fits: pools (R292), tables kept (R292), cells (R279). `n` is the state with it applied. -/
def Blk.pipeLoadCheck (n : Blk) (ps : List Nat) : Option Nat :=
  firstOf [
    chk (ps.all (fun p => let s := n.poolSpace p
      s.1 ≤ poolSizes.1 && s.2.1 ≤ poolSizes.2.1 && s.2.2 ≤ poolSizes.2.2)) 0x0304,
    chk (ps.all (fun p => ((n.cfg.prog p).map (·.tables)).getD [] |>.all (fun t =>
      ((n.cfg.entries p).filter (fun x => x.table == t.table)).length ≤ t.entries))) 0x0304,
    chk ([Half.west, Half.east].all (fun h => !ps.any (fun p => halfOfPipe p == h) || n.reservedCells h ≤ 196608)) 0x0304]

/-- Capacity of a table of a pipeline. -/
def Cfg.tableCap (c : Cfg) (p id : Nat) : Nat := if id = 0xFFFF then 65536 else ((c.table p id).map (·.entries)).getD 0

/-- Checks of the table instructions in the check phase (R163). -/
def Cfg.tblCheck (c : Cfg) (o : COp) (e : W512) (ext : List Byte) : Option Nat :=
  let ps := ciPipes e
  let there := fun p => c.tableShape p (tbTable e) == (c.tableKind ps (tbTable e) (tbKeyLen e)).map (fun k => (k, tbKeyLen e))
  match o with
  | .tblInsert =>
    firstOf [chk (ps.all (fun p => (c.tableShape p (tbTable e)).isSome && there p)) 0x0402,
      chk (ps.all (fun p => (c.tblFind p e ext).isNone)) 0x0404,
      chk (ps.all (fun p => ((c.entries p).filter (fun x => x.table == tbTable e)).length < c.tableCap p (tbTable e))) 0x0304]
  | .tblDelete | .tblModify =>
    chk (ps.all (fun p => (c.tableShape p (tbTable e)).isSome && there p && (c.tblFind p e ext).isSome)) 0x0402
  | _ => none

/-- Grants that INST.RESIZE asks for (R180, R450, R451); `n` is the state with them. -/
def Blk.resizeCheck (b n : Blk) (s : Issuer) (e : W512) : Option Nat :=
  let i := ciInst16 e
  let h := (b.cfg.inst i).port.toNat
  let portHost := match s with
    | .portHost _ => true
    | _ => false
  let per := (rzPairs e).map (fun p => firstOf [
    chk (!within p.1 1 6 || n.cfg.used i p.1 ≤ n.cfg.units i p.1) 0x0303,
    chk (p.1 != 7 || !n.cfg.wins.any (fun w => w.1 / 65536 == i && w.2.life == .enabled && w.2.devmem &&
      decide (p.2 * 2097152 < w.2.base + w.2.length))) 0x0303,
    chk (p.1 != 9 || b.locksHeld i ≤ p.2) 0x0303,
    chk (p.2 ≤ b.cfg.grant i p.1 || n.poolUsed i p.1 ≤ poolMax p.1) 0x0304,
    chk (!portHost || p.2 ≤ b.cfg.grant i p.1 || n.cfg.portGrants h p.1 ≤ b.cfg.pool h p.1) 0x0304])
  firstOf per

/-- Resource that CREATE of a kind takes (R450). -/
def createCodes (o : COp) (kind : Nat) : List Nat :=
  match o with
  | .create => if kind = oQp then [3] else if kind = oWin then [4] else if kind = oTrig then [5] else []
  | .qCreate => if kind = oWq then [1] else if kind = oCq then [1, 6] else [1, 2]
  | _ => []

/-- The instance that an instruction names, or whose object it names (R157). -/
def Cfg.namedInst (c : Cfg) (o : COp) (e : W512) : Option Nat := (ciObj o e).bind c.objInst

/-- Check 1 of R136: operands that depend on state. -/
def Blk.ckOperand (b : Blk) (o : COp) (e : W512) : Option Nat :=
  match o with
  | .enable => if ciKind e = oInst then
      chk ((b.cfg.inst (ciInst e)).life == .absent || !b.absent (b.cfg.inst (ciInst e)).port.toNat) 0x0124 else none
  | .instAttach => chk (!b.absent (ent e 18 1 % 16)) 0x0124
  | .timeStep =>
    let t : Int := (b.clk.tb : Int) + signed 64 (ent e 16 8) * 65536 + (ent e 24 2 : Nat)
    chk (decide (0 ≤ t) && decide (t < ((2 ^ 48 * 1000000000 * 65536 : Nat) : Int))) 0x0124
  | _ => none

/-- A QP number is free after the drain of its DESTROY (R160). -/
def Blk.numberHeld (b : Blk) : Obj → Bool
  | .qp _ n => (b.cfg.qp n).life == .absent && (b.qp n).draining
  | _ => false

/-- Check 2: existence. -/
def Blk.ckExist (b : Blk) (o : COp) (e : W512) : Option Nat :=
  let c := b.cfg
  match o with
  | .create | .qCreate =>
    if o = .create ∧ ciKind e = oInst then
      if ciInst e = 0 then some 0x0501 else chk ((c.inst (ciInst e)).life == .absent) 0x0404
    else
      let instOk := (ciKind e == oPort || ciKind e == oSa || (c.inst (ciInst e)).life != .absent)
      firstOf [chk instOk 0x0402,
        match ciObj o e with
        | some x => chk (!c.taken x && !b.numberHeld x) 0x0404
        | none => none]
  | .keyBind => chk (bitOf (ent e 20 1) 0 || (c.inst (ent e 18 2 % 8192)).life != .absent) 0x0402
  | .query => none
  | _ =>
    match ciObj o e with
    | some x => chk (c.life x != .absent) 0x0402
    | none => none

/-- Check 4: the state of the object accepts the instruction (R155, R157, R167, R170, R172, R173, R179, R181, R182). -/
def Blk.ckState (b : Blk) (o : COp) (e : W512) : Option Nat :=
  let c := b.cfg
  let named := if o = .keyBind then (if bitOf (ent e 20 1) 0 then none else some (ent e 18 2 % 8192))
    else if o = .summary then (if ent e 16 1 % 4 = 2 then some (ent e 18 2 % 8192) else none) else c.namedInst o e
  let free := o == .query || o == .instAttach || o == .destroy || o == .qDestroy
  firstOf [
    chk (free || !(named.map (fun i => (b.inst i).detached)).getD false) 0x0504,
    match o with
    | .enable | .qEnable => (ciObj o e).bind (fun x => chk (c.life x == .created || c.life x == .disabled) 0x0501)
    | .disable | .qDisable => (ciObj o e).bind (fun x =>
        chk (c.life x == .enabled && x != .inst 0 && !(o == .qDisable && ciKind e == oWq && ciId e == 0)) 0x0501)
    | .destroy | .qDestroy => (ciObj o e).bind (fun x =>
        chk (x != .inst 0 && !(o == .qDestroy && ciKind e == oWq && ciId e == 0)) 0x0501)
    | .qpConnect => chk ((c.qp (ciQpn e)).life != .enabled) 0x0501
    | .qReset => chk (ciKind e == oWq && (b.wq (ciInst e) (ciId e)).st == .error && (c.wq (ciInst e) (ciId e)).life == .enabled) 0x0501
    | .keyImport => chk ((c.saNames (ent e 16 2)).all (fun s => s.alg.toNat == ent e 18 1)) 0x0501
    | .keyBind => chk ((b.slot (ent e 16 2)).st == .empty || (b.slot (ent e 16 2)).st == .erased) 0x0501
    | .keyRetire => chk (bitOf (ent e 18 1) 0 || (c.saNames (ent e 16 2)).isEmpty) 0x0501
    | .instAttach => chk ((b.inst (ciInst16 e)).detached || (c.inst (ciInst16 e)).life == .disabled) 0x0501
    | .dirtyLog => chk (((c.inst (ciInst16 e)).life == .enabled || (c.inst (ciInst16 e)).life == .disabled) &&
        !(bitOf (ent e 18 1) 0 && (b.inst (ciInst16 e)).dirty.on)) 0x0501
    | .slotControl => chk (ent e 17 1 % 4 != 1 || (b.dsport (ent e 16 1 % 8)).presence) 0x0501
    | _ => none]

/-- Check 6: everything else of the instruction's entry. `n` is the state with the instruction applied. -/
def Blk.ckOther (b n : Blk) (s : Issuer) (prior : List CInstr) (others : List CInstr) (o : COp) (x : CInstr) : Option Nat :=
  let e := x.raw
  let c := b.cfg
  match o with
  | .create | .qCreate =>
    firstOf [
      chk (o != .create || ciKind e != oSa || ent e 25 1 % 4 != 0 || pipeOfLane (ent e 30 1 % 128) == ciId e / 32768) 0x0405,
      chk ((createCodes o (ciKind e)).all (fun k => n.cfg.used (ciInst e) k ≤ n.cfg.units (ciInst e) k)) 0x0303,
      chk (o != .qCreate || n.cfg.halfQueues (ciInst e) ≤ 65536) 0x0304]
  | .qDisable | .qDestroy =>
    let bound := fun t : Obj => match t with
      | .cq i q => c.wqs.any (fun w => w.1 / 64 == i && w.2.life == .enabled && w.2.cq.toNat == q)
      | .eq i q => c.cqs.any (fun w => w.1 / 64 == i && w.2.life == .enabled && w.2.eq.toNat == q)
      | _ => false
    (ciObj o e).bind (fun t => chk (!bound t) 0x0401)
  | .pipeLoad => match loadedBy prior x with
    | some (ps, _) => n.pipeLoadCheck ps
    | none => none
  | .tblInsert | .tblDelete | .tblModify => c.tblCheck o e x.ext
  | .winModify =>
    let w := (c.win (ciInst e) (ciId e)).modify e
    chk (!bitOf (ent e 46 1) 2 || !c.wins.any (fun y => y.1 / 65536 == ciInst e && y.1 % 65536 != ciId e &&
      y.2.life != .absent && y.2.key == w.key)) 0x0404
  | .keyImport => firstOf [chk b.keys.armed 0x0620, chk (b.importMaterial s x).isSome 0x0633]
  | .instResize => b.resizeCheck n s e
  | .instAttach =>
    firstOf [chk (halfOfPort (ent e 18 1 % 16) == b.homeOf (ciInst16 e)) 0x0405,
      chk (n.poolUsed (ciInst16 e) 2 ≤ poolMax 2) 0x0304]
  | .poolSet => chk (c.portGrants (ent e 16 1) (ent e 17 1) ≤ ent e 20 4) 0x0303
  | .powerCap => chk (ent e 16 2 == 0 || within (ent e 16 2) 400 950) 0x0311
  | .summary => chk (others.all (fun y => match ciOp y.raw with
      | some .query | some .summary | some .tblQuery => true
      | _ => false)) 0x0406
  | _ => none

/-- The key slots after an instruction, as the check phase sees them (R156, R170, R173, R160). -/
def Blk.slotsStaged (b : Blk) (s : Issuer) (o : COp) (x : CInstr) : Tab Slot :=
  let e := x.raw
  let t := b.keys.slots
  match o with
  | .keyImport =>
    t.upd {} (ent e 16 2) (fun z => { z with
      st := .active, alg := BitVec.ofNat 8 (ent e 18 1), cur := b.importMaterial s x, curTo := none })
  | .keyRetire => t.upd {} (ent e 16 2) (fun z => { z with st := if bitOf (ent e 18 1) 0 then .erased else .empty, cur := none })
  | .destroy =>
    if ciKind e = oInst then
      (b.cfg.bindings.filter (fun y => y.2 == some (ciInst e))).foldl (fun t y =>
        t.upd {} y.1 (fun z => { z with st := .erased, cur := none })) t
    else t
  | _ => t

/-- The state that a CREATE gives its object (R158, R318, R355, R434); of an instance number, the generation stays. -/
def Blk.objNew (b : Blk) (o : Obj) (e : W512) : Blk :=
  match o with
  | .inst i => { b with insts := { b.insts with dyn := b.insts.dyn.put {} i { gen := (b.inst i).gen } } }
  | .wq i q => b.updWq i q (fun _ => {})
  | .cq i q => b.updCq i q (fun _ => {})
  | .eq i k => b.updEq i k (fun _ => {})
  | .qp _ n => b.updQp n (fun _ => {})
  | .win i w => { b with rmt := { b.rmt with winAdmitted := b.rmt.winAdmitted.put 0 (i * 65536 + w) 0 } }
  | .trig _ k => b.updTrig k (fun _ => {})
  | .port l => b.updLane l (fun x => { x with counts := [], tsOvf := 0, launchLate := 0, launchRange := 0 })
  | .sa k => b.updSa k (fun _ => { nextPn := ent e 40 8 })

/-- Q.RESET (R112): the indices are those of the fault, the queue is READY. -/
def Wq.restart (w : Wq) : Wq := { w with pi := w.errIndex, ci := w.errIndex, st := .ready, errIndex := 0, errReason := 0 }

/-- The queues of an instance after INST.ATTACH: indices 0 and no error (R181). -/
def Blk.freshQueues (b : Blk) (i : Nat) : Blk :=
  { b with
    wqs := b.wqs.dropKeys (fun k => k / 64 == i),
    cqs := b.cqs.mapVals {} (fun k c => if k / 64 = i then { armed := c.armed } else c),
    eqs := b.eqs.mapVals {} (fun k q => if k / 8 = i then { intEn := q.intEn } else q) }

/-- What of the state beside the configuration later instructions of a program find changed (R134, R156): the state of an
object made or gone, an instance attached, its dirty log, a queue reset, device memory that leaves, a counter set, a QP
number that drains unless the program made the QP itself. -/
def Blk.dynStaged (b : Blk) (prior : List CInstr) (o : COp) (e : W512) : Blk :=
  match o, ciObj o e with
  | .instAttach, _ => (b.freshQueues (ciInst16 e)).updInst (ciInst16 e) (fun d => { d with detached := false })
  | .dirtyLog, _ => b.updInst (ciInst16 e) (fun d => { d with dirty := { d.dirty with on := bitOf (ent e 18 1) 0 } })
  | .instResize, _ =>
    match (rzPairs e).find? (fun p => p.1 == 7) with
    | some p => b.resizeBlocks (ciInst16 e) p.2 0
    | none => b
  | .qReset, some (.wq i q) => b.updWq i q Wq.restart
  | .create, some o | .qCreate, some o => b.objNew o e
  | .destroy, some (.inst i) => (b.giveBlocks i 0 0).updInst i (fun d => { gen := d.gen })
  | .qDestroy, some (.wq i q) => b.updWq i q (fun _ => {})
  | .qDestroy, some (.cq i q) => b.updCq i q (fun _ => {})
  | .qDestroy, some (.eq i q) => b.updEq i q (fun _ => {})
  | .destroy, some (.qp _ n) =>
    if prior.any (fun x => ciOp x.raw == some .create && (match ciObj .create x.raw with
        | some (.qp _ k) => k == n
        | _ => false)) then b
    else b.updQp n (fun q => { q with draining := true })
  | _, _ => b

/-- The staged state after one instruction. -/
def Blk.staged1 (b0 : Blk) (s : Issuer) (prior : List CInstr) (x : CInstr) : Blk :=
  let b := match ciOp x.raw with
    | some o => b0.dynStaged prior o x.raw
    | none => b0
  { b with ctl := { b.ctl with cfg := b0.cfgApply prior x },
           keys := { b.keys with slots := match ciOp x.raw with
             | some o => b0.slotsStaged s o x
             | none => b.keys.slots },
           clk := if ciOp x.raw = some .timeStep then
               { b.clk with tb := ((b.clk.tb : Int) + signed 64 (ent x.raw 16 8) * 65536 + (ent x.raw 24 2 : Nat)).toNat }
             else b.clk }

/-- The staged state after a run of instructions. -/
def Blk.stagedAll (s : Issuer) : Blk → List CInstr → List CInstr → Blk
  | b, _, [] => b
  | b, prior, x :: r => Blk.stagedAll s (b.staged1 s prior x) (prior ++ [x]) r

/-- The checks of one instruction, in the order of R136. -/
def Blk.checkInstr (b : Blk) (s : Issuer) (prior all : List CInstr) (x : CInstr) : Option Nat :=
  match ciOp x.raw with
  | none => none
  | some o =>
    let n := b.staged1 s prior x
    firstOf [
      b.ckOperand o x.raw, b.ckExist o x.raw, chk (b.cfg.scopeOk s o x.raw) 0x0203, b.ckState o x.raw,
      (match o with
        | .enable | .qEnable => (ciObj o x.raw).bind b.enableCheck
        | _ => none),
      b.ckOther n s prior all o x]

/-- The first failure of a program's instructions: reason and seq (R136); the staged state when there is none. -/
def Blk.checkAll (s : Issuer) (all : List CInstr) : Blk → List CInstr → List CInstr → Option (Nat × Nat)
  | _, _, [] => none
  | b, prior, x :: r =>
    match b.checkInstr s prior all x with
    | some reason => some (reason, x.seq)
    | none => Blk.checkAll s all (b.staged1 s prior x) (prior ++ [x]) r

end Sys2Proof.Machine
end

