-- ==== Sys2Proof/Machine/Keys.lean ====
section
/-! DEFINITION. The key store: registers by epoch, invocations, flips, retirement, erasure (R170 to R174, R364 to R368),
and the lookaside units with their locks and jobs (R357 to R363). -/

namespace Sys2Proof.Machine
open Sys2Proof

/-- A register stops serving at an epoch, if it has been retired. -/
def servesYet (to_ : Option Nat) (epoch : Nat) : Bool := to_.all (fun t => decide (epoch < t))
/-- The register of a slot that serves an epoch (R171, R173). -/
def Slot.reg (s : Slot) (epoch : Nat) : Option KeyReg :=
  if s.curFrom ≤ epoch then (if servesYet s.curTo epoch then s.cur else none)
  else if epoch < s.oldTo then s.old else none
/-- Algorithm of that register. -/
def Slot.algFor (s : Slot) (epoch : Nat) : BitVec 8 := if s.curFrom ≤ epoch then s.alg else s.oldAlg
/-- First epoch of that register: it tells the two keys of a slot apart. -/
def Slot.firstOf (s : Slot) (epoch : Nat) : Nat := if s.curFrom ≤ epoch then s.curFrom else s.oldFrom
/-- The register is exhausted. -/
def KeyReg.spent (r : KeyReg) : Bool := decide (r.limit ≤ r.counter)

/-- Value of KEY_EXHAUSTED: the owner of a slot (R366). -/
def slotOwner (x : Binding) : Nat :=
  match x with
  | some i => i
  | none => 32768

/-- Take `n` invocations of the register that serves an epoch: the counter rises, never past the limit; the first time
the current register is spent the slot is EXHAUSTED and the event written (R365, R366). -/
def Blk.takeInv (b : Blk) (k epoch n : Nat) : Blk :=
  let s := b.slot k
  let bump := fun r : KeyReg => { r with counter := min (r.counter + n) r.limit }
  if s.curFrom ≤ epoch then
    let spent := s.curTo.isNone && (s.cur.map (fun r => (bump r).spent)).getD false
    let b1 := b.updSlot k (fun s => { s with
      cur := s.cur.map bump, st := if spent && s.st == .active then .exhausted else s.st, noted := s.noted || spent })
    if spent && !s.noted then b1.devEvent 0x0029 k 0 (slotOwner (b.cfg.binding k)) ((s.cur.map (·.limit)).getD 0) else b1
  else b.updSlot k (fun s => { s with old := s.old.map bump })

/-- A flip at the commit that creates `epoch`: the imported key becomes current, the key it replaces goes on serving
older epochs (R170, R171). -/
def Blk.flip (b : Blk) (k alg epoch : Nat) (key : KeyReg) : Blk :=
  b.updSlot k (fun s =>
    let keeps := s.cur.isSome && s.curFrom < epoch
    { s with
      st := .active, alg := BitVec.ofNat 8 alg, cur := some key, next := none, curFrom := epoch, curTo := none, noted := false,
      old := if keeps then s.cur else s.old, oldAlg := if keeps then s.alg else s.oldAlg,
      oldTo := if keeps then s.curTo.getD epoch else s.oldTo, oldFrom := if keeps then s.curFrom else s.oldFrom })

/-- KEY.RETIRE without erase: the new epoch finds the slot EMPTY; its key goes on serving the epochs it served, and so
does the key that it replaced (R171, R173). -/
def Blk.retireSlot (b : Blk) (k epoch : Nat) : Blk :=
  b.updSlot k (fun s => { s with st := .empty, next := none, curTo := some (s.curTo.getD epoch), noted := false })

/-- Replaced and retired keys that no live epoch can use any more are wiped (R171, R173). -/
def Blk.wipeOld (b : Blk) : Blk :=
  let oldest := b.ctl.live.foldl (fun m r => min m r.num) b.ctl.newest
  { b with keys := { b.keys with slots := b.keys.slots.mapVals {} (fun _ s =>
      let s1 := if s.old.isSome && s.oldTo ≤ oldest then { s with old := none, oldAlg := 0 } else s
      if s1.cur.isSome && !servesYet s1.curTo oldest then { s1 with cur := none, curTo := none, curFrom := 0 } else s1) } }

/-! Lookaside units. -/

/-- Half of a lookaside unit. -/
def halfOfUnit (u : Nat) : Half := if u < 16 then .west else .east

/-- CIPHER entries of an instance that name a unit and have not finished, as (queue, entry). -/
def Blk.unitJobs (b : Blk) (i u : Nat) : List (Nat × Entry) :=
  (List.range 64).flatMap (fun q =>
    if ((b.instCfg i).wq i q).life = .absent ∨ ((b.instCfg i).wq i q).kind.toNat ≠ kCipher then []
    else ((b.wq i q).fetched.filter (fun e => cpUnit e.raw == u && (match e.st with
      | .finished _ => false
      | _ => true))).map (fun e => (q, e)))

/-- Jobs of the holder that were fetched for the unit before its release (R358). -/
def Blk.unitBusy (b : Blk) (u : Nat) : Bool := (b.unitJobs (b.unit u).inst u).any (fun e => e.2.held)

/-- Outcome of a LOCK write (R357). -/
def Blk.lockReason (b : Blk) (i u : Nat) (acquire release : Bool) : Nat :=
  let x := b.unit u
  let mine := (x.st == .held || x.st == .releasing) && x.inst == i
  if acquire == release then 0x0124
  else if halfOfUnit u ≠ b.homeOf i then 0x0405
  else if release then (if mine then 0 else 0x0201)
  else if x.st = .fenced ∨ (x.st ≠ .free ∧ ¬ mine) then 0x0501
  else if ¬ mine ∧ b.cfg.grant i 9 ≤ b.locksHeld i then 0x0303
  else 0

/-- A released unit whose earlier jobs have all completed becomes FREE (R358). -/
def Blk.releaseUnit (b : Blk) (u : Nat) : Blk :=
  if (b.unit u).st = .releasing ∧ b.unitBusy u = false then b.updUnit u (fun _ => {}) else b

/-- The effect of a LOCK write on the unit. -/
def Blk.lockUnit (b : Blk) (i u thread : Nat) (acquire release : Bool) : Blk :=
  if b.lockReason i u acquire release ≠ 0 then b
  else if acquire then
    b.updUnit u (fun x => if x.st = .free then
        { st := .held, inst := i, thread := BitVec.ofNat 9 thread, gen := (b.inst i).gen }
      else { x with st := .held })
  else (b.updUnit u (fun x => { x with st := .releasing })).releaseUnit u

/-- A LOCK write of an instance's page: outcome in LOCK_STATUS (R357). -/
def Blk.lockWrite (b : Blk) (i u : Nat) (acquire release : Bool) : Blk :=
  let r := b.lockReason i u acquire release
  let b1 := b.lockUnit i u 0x1FF acquire release
  { b1 with keys := { b1.keys with lockReason := b1.keys.lockReason.put 0 i r } }

/-- A write of LU_LOCK by a thread: outcome in LU_LOCK_RESULT (R357). -/
def Blk.luLockWrite (b : Blk) (t i u : Nat) (acquire release : Bool) : Blk :=
  let r := b.lockReason i u acquire release
  let b1 := b.lockUnit i u t acquire release
  { b1 with keys := { b1.keys with luResult := b1.keys.luResult.put 0 t r } }

/-- A job leaves its unit: the entry finishes with a status, the unit takes the next, and a waiting release is tried. -/
def Blk.jobEnd (b : Blk) (i q : Nat) (idx : W16) (u status length : Nat) : Blk :=
  match (b.wq i q).entry idx with
  | none => b
  | some e =>
    let b1 := if (b.unit u).job = some (i, q, idx) then
        b.updUnit u (fun x => { x with job := none, status := 0, length := 0, outs := [] })
      else b
    (b1.finish i q idx status (cplOf e q status (if status = 0 then length else 0))).releaseUnit u

end Sys2Proof.Machine
end

