-- ==== Sys2Proof/Machine/Lookaside.lean ====
section
/-! DEFINITION. Lookaside cipher jobs (R358 to R363): start, work, completion; the end of a lock with its generation;
erasure of keys under jobs and associations (R174, R368). -/

namespace Sys2Proof.Machine
open Sys2Proof

/-- Status of a failed access to an instance's memory, counted under R439; `none` where it went through. -/
def Blk.ansFault (b : Blk) (i va : Nat) (a : Ans) : Option (Nat × Blk) :=
  match b.xlated i va a with
  | .ok _ => none
  | .xfault c => some (dataReason c, b.xlateFault i (xcode c) va)
  | .busError => some (0x0523, b)

/-- The same for a write: a posted write that translates counts as made, whatever the host does with it (R512). -/
def Blk.writeFault (b : Blk) (i va : Nat) (a : Ans) : Option (Nat × Blk) :=
  match b.xlated i va a with
  | .xfault c => some (dataReason c, b.xlateFault i (xcode c) va)
  | _ => none

/-- Bytes of an answer; none of a failed one. -/
def ansBytes : Ans → List Byte
  | .ok l => l
  | _ => []

/-- The entry of a CIPHER queue that may start with this opcode: next of its queue, first of its unit in fetch order,
its unit idle (R109, R359). -/
def Blk.jobNext (b : Blk) (i q op : Nat) : Option Entry :=
  if ((b.instCfg i).wq i q).kind.toNat ≠ kCipher then none
  else
    match (b.wq i q).nextStart with
    | some e =>
      if weOp e.raw = op ∧ (b.unitJobs i (cpUnit e.raw)).all (fun x => e.order ≤ x.2.order) = true ∧
         (b.unit (cpUnit e.raw)).job = none then some e else none
    | none => none

/-- Status a job finds at its start, in the order of R363; 0 where it may run. -/
def Blk.startStatus (b : Blk) (i : Nat) (e : Entry) : Nat :=
  let u := b.unit (cpUnit e.raw)
  let s := b.slot (cpSlot e.raw)
  let bound := (b.cfgOf e.epoch).binding (cpSlot e.raw)
  let enc := weOp e.raw == 0x20 || weOp e.raw == 0x23
  if (b.cfg.inst i).life ≠ .enabled then 0x0501
  else if ¬ (e.held = true ∧ (u.st = .held ∨ u.st = .releasing) ∧ u.inst = i) then 0x0201
  else if ¬ (bound = some i ∨ (i = 0 ∧ bound = none)) then 0x0201
  else
    match s.reg e.epoch with
    | none => 0x0631
    | some r =>
      if s.algFor e.epoch ≠ BitVec.ofNat 8 (cpAlg e.raw) then 0x0501
      else if enc ∧ r.spent then 0x0630
      else 0

/-- The IV of a GCM or GMAC job (R361, R362); `inv` is its invocation number. -/
def jobIv (e : W512) (inv : Nat) : List Byte :=
  if cpAutoIv e then slice (bytesLE 16 (cpIv e)) 0 4 ++ bytesBE 8 inv else slice (bytesLE 16 (cpIv e)) 0 12

/-- What the cipher gives for a job: output bytes, and its tag; `data` is AAD then payload. -/
def jobCipher (e : W512) (key : List Byte) (inv : Nat) (data : List Byte) : List Byte × List Byte :=
  let aad := slice data 0 (cpAad e)
  let text := slice data (cpAad e) (cpLen e)
  let iv := jobIv e inv
  let dec := weOp e == 0x21 || weOp e == 0x22
  match modeOf (cpAlg e) with
  | some .gcm =>
    let out := slice (Config.gcmStream key iv text) 0 text.length
    (out, slice (Config.gcmTag key iv aad (if dec then text else out)) 0 16)
  | some .xts => (slice (Config.xts (!dec) key (bytesLE 16 (cpIv e)) text) 0 text.length, [])
  | some .cmac => ([], slice (Config.cmac key text) 0 16)
  | some .gmac => ([], slice (Config.gcmTag key iv text []) 0 16)
  | none => ([], [])

/-- The job has a tag that is read and compared. -/
def jobChecks (e : W512) : Bool := (weOp e == 0x21 && modeOf (cpAlg e) != some .xts) || weOp e == 0x22

/-- The job writes a tag. -/
def jobTags (e : W512) : Bool := (weOp e == 0x20 && modeOf (cpAlg e) != some .xts) || weOp e == 0x23

/-- The writes of a job that succeeds, in order (R362, R363): ciphertext or plaintext, the tag, the IV that was used. -/
def jobOuts (e : W512) (inv : Nat) (o t : List Byte) : List (Nat × List Byte) :=
  (if o.isEmpty || weOp e == 0x22 || weOp e == 0x23 then [] else [(cpDst e, o)]) ++
  (if jobTags e then [(cpTagAddr e, t)] else []) ++
  (if jobTags e && cpAutoIv e then [(cpTagAddr e + 16, jobIv e inv)] else [])

/-- A job is in hand of its unit, with the status it will complete with and the writes it will make. -/
def Blk.inHand (b : Blk) (i q : Nat) (e : Entry) (status : Nat) (outs : List (Nat × List Byte)) : Blk :=
  (b.updWq i q (fun w => w.updEntry e.idx (fun x => { x with st := .started }))).updUnit (cpUnit e.raw)
    (fun u => { u with job := some (i, q, e.idx), status := status, length := cpLen e.raw, outs := outs })

/-- What a job reads from src: its AAD, then its payload, each with an answer of its own; a failed one gives the fault, the
AAD's first (R361, R363). -/
def jobRead (e : W512) (aad src : Ans) : Ans :=
  match (if cpAad e = 0 then .ok [] else aad), src with
  | .ok a, .ok l => .ok (slice a 0 (cpAad e) ++ l)
  | .ok _, f => f
  | f, _ => f

/-- Start a job and do its work (R361 to R363): `aad` and `src` are AAD and payload as read, `tag` the tag read. What it writes is
written when it is done, so a job that is ended before has released nothing (R141, R174). It waits while the function of
its instance may issue no request (R78, R80). -/
def Blk.cipherStart (b : Blk) (i q op : Nat) (aad src tag : Ans) : Blk :=
  match b.jobNext i q op with
  | none => b
  | some e =>
    let w := e.raw
    let st := b.startStatus i e
    if st ≠ 0 then b.jobEnd i q e.idx (cpUnit w) st 0
    else if ¬ b.canIssue ((b.instCfg i).inst i).port.toNat true then b
    else
      let s := b.slot (cpSlot w)
      let key := ((s.reg e.epoch).map (·.material)).getD []
      let enc := op == 0x20 || op == 0x23
      let b1 := if enc then b.takeInv (cpSlot w) e.epoch 1 else b
      let inv := (((b1.slot (cpSlot w)).reg e.epoch).map (·.counter)).getD 0
      let b1 := b1.updWq i q (fun z => z.updEntry e.idx (fun x => { x with inv := some inv }))
      let src := jobRead w aad src
      match b1.ansFault i (cpSrc w) src with
      | some (r, b2) => b2.inHand i q e r []
      | none =>
        let (o, t) := jobCipher w key inv (ansBytes src)
        match (if jobChecks w then b1.ansFault i (cpTagAddr w) tag else none) with
        | some (r, b2) => b2.inHand i q e r []
        | none =>
          if jobChecks w ∧ slice (ansBytes tag) 0 16 ≠ t then b1.inHand i q e 0x0632 []
          else b1.inHand i q e 0 (jobOuts w inv o t)

/-- The job in hand of a unit finishes: its writes are made, while the instance may write, then the completion (R363);
`out` is whether they translate. -/
def Blk.cipherDone (b : Blk) (u : Nat) (out : Ans) : Blk :=
  match (b.unit u).job with
  | none => b
  | some (i, q, idx) =>
    let x := b.unit u
    match (if x.status = 0 then x.outs else []) with
    | [] => b.jobEnd i q idx u x.status x.length
    | (va, l) :: rest =>
      if ¬ b.instCan i then b
      else
        match b.writeFault i va out with
        | some (r, b1) => b1.jobEnd i q idx u r 0
        | none => (((va, l) :: rest).foldl (fun b y => b.instWrite i 3 y.1 y.2) b).jobEnd i q idx u 0 x.length

/-- Lookaside jobs of every instance that have not finished and satisfy a condition, as (instance, queue, entry). -/
def Blk.jobsWhere (b : Blk) (p : Nat → Entry → Bool) : List (Nat × Nat × Entry) :=
  b.wqs.flatMap (fun x =>
    let i := x.1 / 64
    let q := x.1 % 64
    if ((b.instCfg i).wq i q).kind.toNat ≠ kCipher then []
    else (x.2.fetched.filter (fun e => p i e && (match e.st with
      | .finished _ => false
      | _ => true))).map (fun e => (i, q, e)))

/-- End lookaside jobs with a status; nothing more of them is released. -/
def Blk.endJobs (b : Blk) (status : Nat) (p : Nat → Entry → Bool) : Blk :=
  (b.jobsWhere p).foldl (fun b x => b.jobEnd x.1 x.2.1 x.2.2.idx (cpUnit x.2.2.raw) status 0) b

/-- The locks of an instance end (R358). -/
def Blk.endLocks (b : Blk) (i : Nat) : Blk :=
  { b with keys := { b.keys with units := b.keys.units.mapVals {} (fun _ u =>
      if u.inst = i ∧ (u.st = .held ∨ u.st = .releasing) then {} else u) } }

/-- A lookaside unit faults: its job completes with 0x0701, its lock ends, it is FENCED (R360). -/
def Blk.unitFault (b : Blk) (u : Nat) : Blk :=
  let b1 := match (b.unit u).job with
    | some (i, q, idx) => b.jobEnd i q idx u 0x0701 0
    | none => b
  b1.updUnit u (fun _ => { st := .fenced })

/-- Wipe a slot (R174): it reads ERASED, and operations in flight on it end with 0x0631. -/
def Blk.eraseSlot (b : Blk) (k : Nat) : Blk :=
  (b.updSlot k (fun s => { s with st := .erased, cur := none, curTo := none, old := none, next := none, noted := false })).endJobs 0x0631
    (fun _ e => cpSlot e.raw == k && (match e.st with
      | .started => true
      | _ => false))

/-- An alarm (R368): every key is wiped, the store is disarmed, the event and the record are written. `cause` is the bit
of the field KS_STATUS.cause. -/
def Blk.alarm (b : Blk) (cause : Nat) : Blk :=
  let held := (b.keys.slots.filter (fun s => s.2.cur.isSome || s.2.old.isSome || s.2.next.isSome)).map (·.1)
  let b1 := held.foldl Blk.eraseSlot b
  let b2 := { b1 with keys := { b1.keys with
    importKey := none, armed := false, alarm := true, cause := BitVec.ofNat 6 (2 ^ cause),
    eraseNs := BitVec.ofNat 16 (b1.freeVal.toNat % 2001), alarms := sat32 b1.keys.alarms 1 } }
  let b3 := { b2.drawn 1 with mss := { b2.mss with exchange := none } }
  let rec6 : ErrRec := { type := 6, reason := 0, index := 0, port := 0xFFFF, mono := b3.mono, epoch := 0, detail := 0 }
  let b4 := { b3 with ctl := { b3.ctl with errs := b3.ctl.errs ++ [rec6] } }
  (b4.mssEvent 0x002A 0 0 (2 ^ cause) b4.mono).reel 5 3 [2 ^ cause]

end Sys2Proof.Machine
end

