-- ==== Sys2Proof/Machine/Inline.lean ====
section
/-! DEFINITION. Inline security associations: MACsec and ESP on ingress and egress, sequence state, replay windows
(R315 to R317, R348 to R355), and the inline units of a pipeline. -/

namespace Sys2Proof.Machine
open Sys2Proof

/-- Count in ETH_CNT[n] of a port (R318). -/
def Blk.ethCnt (b : Blk) (l n k : Nat) : Blk := b.updLane l (fun x => { x with counts := x.counts.upd 0 n (fun c => sat64 c k) })

/-- Count in a PIPE counter: 0 PIPE_IN_PKTS to 9 PIPE_PFC_RX. -/
def Blk.pipeCnt (b : Blk) (p n k : Nat) : Blk := b.updPipe p (fun x => { x with counts := x.counts.upd 0 n (fun c => sat64 c k) })

/-- Count a drop of a pipeline with its reason (R288). -/
def Blk.drop (b : Blk) (p reason : Nat) : Blk := b.updPipe p (fun x => { x with drops := x.drops.upd 0 reason (fun c => sat64 c 1) })

/-- What an inline unit did with a frame. -/
inductive SaRes where
  | pass (b : Blk) (frame : List Byte)
  | lost (b : Blk) (reason : Nat)

/-- Where the IP header of a frame lies, and its kind: behind at most one 802.1Q tag (R337, R352). -/
def ipAt (f : List Byte) : Option (Nat × Nat) :=
  let t := beAt f 12 2
  let (o, t) := if t = 0x8100 then (18, beAt f 16 2) else (14, t)
  if t = 0x0800 ∧ (byteAt f o).toNat / 16 = 4 then some (o, 1)
  else if t = 0x86DD then some (o, 2) else none

/-- The header that follows an IP header which is not a fragment and has no extension headers: protocol, offset, end of
the IP packet. -/
def l4At (f : List Byte) : Option (Nat × Nat × Nat) :=
  match ipAt f with
  | none => none
  | some (o, 1) =>
    if beAt f (o + 6) 2 % 16384 ≠ 0 then none
    else some ((byteAt f (o + 9)).toNat, o + (byteAt f o).toNat % 16 * 4, min f.length (o + beAt f (o + 2) 2))
  | some (o, _) => some ((byteAt f (o + 6)).toNat, o + 40, min f.length (o + 40 + beAt f (o + 4) 2))

/-- The high half of a 64-bit sequence number, from its low half and the lowest number still accepted (IEEE 802.1AE
XPN). -/
def xpnHigh (lowest low : Nat) : Nat :=
  if low / 2 ^ 31 = 0 ∧ lowest % 2 ^ 32 / 2 ^ 31 = 1 then lowest / 2 ^ 32 + 1 else lowest / 2 ^ 32

/-- The high half of an extended sequence number (RFC 4303 appendix A2.2), from the highest accepted and the window. -/
def esnHigh (top window low : Nat) : Nat :=
  let th := top / 2 ^ 32
  let tl := top % 2 ^ 32
  if window ≤ tl + 1 then (if tl + 1 ≤ low + window then th else th + 1)
  else (if tl + 1 + 2 ^ 32 ≤ low + window then th - 1 else th)

/-- The number lies outside the window, or was received (R316, R352, R355). -/
def SaState.replayed (s : SaState) (esp : Bool) (window n : Nat) : Bool :=
  decide (n ≤ s.floor ∧ 0 < s.floor) ||
  (if esp then
     decide (n < s.nextPn) && (decide (window ≤ s.nextPn - 1 - n) || bitOf s.seen (s.nextPn - 1 - n))
   else decide (n + window < s.nextPn))

/-- A frame is accepted: window, counts, and the record on the management die after every 1,024 (R355). -/
def SaState.accept (s : SaState) (window n len : Nat) : SaState :=
  let keep := max window 1
  let seen := if s.nextPn ≤ n then (if keep ≤ n + 1 - s.nextPn then 1 else s.seen * 2 ^ (n + 1 - s.nextPn) + 1)
    else s.seen ||| 2 ^ (s.nextPn - 1 - n)
  let next := max s.nextPn (n + 1)
  let due := decide (1024 ≤ s.sinceRec + 1)
  { s with nextPn := next, seen := seen % 2 ^ keep, packets := sat64 s.packets 1, bytes := sat64 s.bytes len,
           recorded := if due then next - 1 else s.recorded, sinceRec := if due then 0 else s.sinceRec + 1 }

/-- Key bytes of a GCM algorithm: the key alone, then salt and SSCI (R347). -/
def saKey (alg : Nat) (m : List Byte) : List Byte := if alg = 3 ∨ alg = 5 then m.take 32 else if alg = 4 then m.take 16 else m
/-- Salt of the material. -/
def saSalt (alg : Nat) (m : List Byte) : List Byte :=
  if alg = 3 then slice m 32 12 else if alg = 4 then slice m 16 4 else slice m 32 4

/-- XOR of two byte strings. -/
def xorBytes (a b : List Byte) : List Byte := List.zipWith (· ^^^ ·) a b

/-- GCM IV of a MACsec frame (R351). -/
def macsecIv (alg : Nat) (m : List Byte) (sci : List Byte) (pn : Nat) : List Byte :=
  if alg = 3 then xorBytes (saSalt 3 m) (slice m 44 4 ++ bytesBE 8 pn) else sci ++ bytesBE 4 pn

/-- Count a drop of an association. -/
def Blk.saCount (b : Blk) (k reason : Nat) : Blk :=
  b.updSa k (fun s =>
    if reason = 0x10 then { s with authFail := sat64 s.authFail 1 }
    else if reason = 0x13 then { s with replay := sat64 s.replay 1 }
    else { s with keyDrops := sat64 s.keyDrops 1 })

/-- The SA of direction 0 of a port that matches SCI and AN in a configuration (R316). -/
def Cfg.macsecSa (c : Cfg) (l : Nat) (sci an : Nat) : Option Nat :=
  (c.sas.find? (fun s => s.2.life == .enabled && !s.2.encrypt && !s.2.esp && s.2.port.toNat == l &&
    s.2.sciSpi.toNat == sci && s.1 % 4 == an)).map (·.1)

/-- MACsec on ingress, of a port with macsec = 1, under `epoch` (R316, R354). A short length in the SecTAG ends the secured
data before the frame's padding (PRESUMED, IEEE 802.1AE, log 62). -/
def Blk.macsecIn (b : Blk) (l epoch : Nat) (f : List Byte) : SaRes :=
  let c := b.cfgOf epoch
  if beAt f 12 2 ≠ 0x88E5 then
    let has := c.sas.any (fun s => s.2.life == .enabled && !s.2.encrypt && !s.2.esp && s.2.port.toNat == l)
    .pass (if has then b.ethCnt l 16 1 else b) f
  else
    let tci := (byteAt f 14).toNat
    -- V 0, ES 0, SCB 0, E 1, C 1; SC 0 or 1
    if tci / 4 % 8 ≠ 3 ∨ tci / 64 ≠ 0 then .lost (b.ethCnt l 17 1) 0x10
    else
      let sc := tci / 32 % 2 = 1
      let sci := if sc then slice f 20 8 else slice f 6 6 ++ [0, 1]
      let hl := if sc then 28 else 20
      match c.macsecSa l (natBE sci) (tci % 4) with
      | none => .lost (b.ethCnt l 18 1) 0x0F
      | some k =>
        let s := c.sa k
        let st := b.sa k
        let alg := s.alg.toNat
        let w := s.replayWin.toNat
        let low := beAt f 16 4
        let pn := if alg = 3 then xpnHigh (st.nextPn - w) low * 2 ^ 32 + low else low
        if st.replayed false w pn then .lost ((b.ethCnt l 19 1).saCount k 0x13) 0x13
        else
          match (b.slot s.slot).reg epoch with
          | none => .lost (b.saCount k 0x12) 0x12
          | some r =>
            let iv := macsecIv alg r.material sci pn
            let key := saKey alg r.material
            let sl := (byteAt f 15).toNat % 64
            let n := if sl = 0 then f.length - hl - 16 else sl
            let body := slice f hl n
            if f.length < hl + n + 16 ∨ slice (Config.gcmTag key iv (f.take hl) body) 0 16 ≠ slice f (hl + n) 16 then
              .lost ((b.ethCnt l 19 1).saCount k 0x10) 0x10
            else
              let out := f.take 12 ++ slice (Config.gcmStream key iv body) 0 body.length
              .pass (b.updSa k (fun s => s.accept w pn out.length)) out

/-- ESP on ingress, before the parser of pipeline `p` (R352, R354). -/
def Blk.espIn (b : Blk) (p epoch : Nat) (f : List Byte) : SaRes :=
  let c := b.cfgOf epoch
  match l4At f with
  | some (50, o, fin) =>
    let spi := beAt f o 4
    match c.sas.find? (fun s => s.1 / 32768 == p && s.2.life == .enabled && !s.2.encrypt && s.2.esp &&
        s.2.sciSpi.toNat % 2 ^ 32 == spi) with
    | none => .pass b f
    | some (k, s) =>
      let st := b.sa k
      let w := s.replayWin.toNat
      let n := esnHigh (st.nextPn - 1) w (beAt f (o + 4) 4) * 2 ^ 32 + beAt f (o + 4) 4
      match (b.slot s.slot).reg epoch with
      | none => .lost (b.saCount k 0x12) 0x12
      | some r =>
        let alg := s.alg.toNat
        let iv := saSalt alg r.material ++ slice f (o + 8) 8
        let aad := slice f o 4 ++ bytesBE 8 n
        let body := slice f (o + 16) (fin - 16 - (o + 16))
        if fin < o + 32 ∨ slice (Config.gcmTag (saKey alg r.material) iv aad body) 0 16 ≠ slice f (fin - 16) 16 then
          .lost (b.saCount k 0x10) 0x10
        else if st.replayed true w n then .lost (b.saCount k 0x13) 0x13
        else
          let f1 := spliceAt f (o + 16) (slice (Config.gcmStream (saKey alg r.material) iv body) 0 body.length)
          .pass (b.updSa k (fun s => s.accept w n f.length)) (spliceAt f1 (fin - 16) (List.replicate 16 0))
  | _ => .pass b f

/-- The home unit of an SA and a slot, as the key of the batches taken (R348, R365). -/
def Cfg.batchKey (c : Cfg) (k slot : Nat) : Nat := (32 * (k / 32768) + (c.sa k).given.getD 0) * 65536 + slot

/-- Invocations left to a home unit, of the register that begins at `first`. -/
def Blk.setBatch (b : Blk) (key first n : Nat) : Blk :=
  { b with keys := { b.keys with batches := b.keys.batches.upd [] key (fun t => t.put 0 first n) } }

/-- One invocation for a packet of an egress SA, from the batch that its home unit holds of the slot's register (R365);
`none` where the register is spent. -/
def Blk.saInvoke (b : Blk) (k slot epoch : Nat) : Option Blk :=
  let key := (b.cfgOf epoch).batchKey k slot
  let first := (b.slot slot).firstOf epoch
  let left := Tab.get 0 (Tab.get [] b.keys.batches key) first
  if 0 < left then some (b.setBatch key first (left - 1))
  else
    match (b.slot slot).reg epoch with
    | none => none
    | some r =>
      if r.spent then none
      else
        let n := min 1024 (r.limit - r.counter)
        some ((b.takeInv slot epoch n).setBatch key first (n - 1))

/-- The next packet number of an egress SA; a new block of 1,024 is reserved as needed (R355). -/
def SaState.nextNumber (s : SaState) (len : Nat) : SaState :=
  { s with nextPn := s.nextPn + 1, blockEnd := if s.blockEnd ≤ s.nextPn then s.nextPn + 1024 else s.blockEnd,
           packets := sat64 s.packets 1, bytes := sat64 s.bytes len }

/-- Where the ESP header of a packet lies on egress: directly after the IP header at l3_slot, with room for the IV and the
ICV; `none` where l3_kind is 0 or the IP protocol is not 50 (R352). A packet too short for its framing counts as one without
it (DESIGN CHOICE, log 62). -/
def espHeader (m : Meta) (f : List Byte) : Option Nat :=
  match mdHdr m (mdL3Slot m) with
  | none => none
  | some o =>
    let (proto, len) := if mdL3Kind m = 1 then ((byteAt f (o + 9)).toNat, (byteAt f o).toNat % 16 * 4)
      else ((byteAt f (o + 6)).toNat, 40)
    if mdL3Kind m = 0 ∨ proto ≠ 50 ∨ f.length < o + len + 32 then none else some (o + len)

/-- Egress encryption by the SA that the metadata names (R276, R315, R317, R351, R352, R354). -/
def Blk.saOut (b : Blk) (p epoch k : Nat) (m : Meta) (f : List Byte) : SaRes :=
  let s := (b.cfgOf epoch).sa k
  if ¬ (k / 32768 = p ∧ s.life = .enabled ∧ s.encrypt = true) then .lost b 0x0F
  else
    let alg := s.alg.toNat
    match (b.slot s.slot).reg epoch with
    | none => .lost (b.saCount k 0x12) 0x12
    | some r =>
      let pn := (b.sa k).nextPn
      let last := if s.esp ∨ alg = 3 then 2 ^ 64 - 1 else 2 ^ 32 - 1
      let espAt := espHeader m f
      if s.esp ∧ espAt = none then .lost b 0x0F
      else if last < pn then .lost (b.saCount k 0x11) 0x11
      else
        match b.saInvoke k s.slot epoch with
        | none => .lost (b.saCount k 0x11) 0x11
        | some b1 =>
          let b2 := b1.updSa k (fun s => s.nextNumber f.length)
          let key := saKey alg r.material
          if s.esp then
            let o := espAt.getD 0
            let ivb := bytesBE 8 pn
            let f1 := spliceAt f o (bytesBE 4 s.sciSpi.toNat ++ bytesBE 4 pn ++ ivb)
            let iv := saSalt alg r.material ++ ivb
            let body := slice f1 (o + 16) (f1.length - 16 - (o + 16))
            let ct := slice (Config.gcmStream key iv body) 0 body.length
            let tag := slice (Config.gcmTag key iv (bytesBE 4 s.sciSpi.toNat ++ bytesBE 8 pn) ct) 0 16
            .pass b2 (spliceAt (spliceAt f1 (o + 16) ct) (f1.length - 16) tag)
          else
            let body := f.drop 12
            let sci := bytesBE 8 s.sciSpi.toNat
            let tagHdr := [0x88, 0xE5, BitVec.ofNat 8 (0x2C + k % 4),
              BitVec.ofNat 8 (if body.length < 48 then body.length else 0)] ++ bytesBE 4 pn ++ sci
            let aad := f.take 12 ++ tagHdr
            let iv := macsecIv alg r.material sci pn
            let ct := slice (Config.gcmStream key iv body) 0 body.length
            .pass b2 (aad ++ ct ++ slice (Config.gcmTag key iv aad ct) 0 16)

/-- Sequence state of an SA after a reset of its half (R355). -/
def SaState.resume (s : SaState) (encrypt : Bool) (window : Nat) : SaState :=
  if encrypt then { s with nextPn := max s.nextPn s.blockEnd }
  else
    let top := s.recorded + 1024
    { s with nextPn := top + 1, floor := top, recorded := top, sinceRec := 0, seen := 2 ^ window - 1 }

end Sys2Proof.Machine
end

