-- ==== Sys2Proof/Machine/Learn.lean ====
section
/-! DEFINITION. The learn unit of a pipeline: learn queue, learning table, moves, aging, flushes (R298 to R304, R308). -/

namespace Sys2Proof.Machine
open Sys2Proof

/-- Count in a LEARN counter: 0 LEARN_NEW to 8 FLOOD_EMPTY. -/
def LearnUnit.cnt (u : LearnUnit) (n k : Nat) : LearnUnit := { u with counts := u.counts.upd 0 n (fun c => sat64 c k) }

/-- The eight candidate slots of a key: four in each of two buckets of the 65,536 (R300). -/
def learnSlots (key : Nat) : List Nat :=
  ((List.range 4).map (· + 4 * (Config.learnHash 0 key % 65536)) ++
   (List.range 4).map (· + 4 * (Config.learnHash 1 key % 65536))).dedup

/-- The slot that holds a key. -/
def LearnUnit.find (u : LearnUnit) (key : Nat) : Option Nat :=
  (learnSlots key).find? (fun i => match u.slots.get none i with
    | some e => e.key == key
    | none => false)

/-- The learned entries of a table. -/
def LearnUnit.entries (u : LearnUnit) : List Learned := u.slots.filterMap (·.2)

/-- The entry of a key, when it is learned. -/
def LearnUnit.entry (u : LearnUnit) (key : Nat) : Option Learned :=
  match u.find key with
  | some i => u.slots.get none i
  | none => none

/-- Write one slot. -/
def LearnUnit.put (u : LearnUnit) (i : Nat) (e : Option Learned) : LearnUnit := { u with slots := u.slots.put none i e }

/-- The pin of an entry ends (R301). -/
def Learned.unpin (e : Learned) : Learned := { e with flapping := false, hit := true, strike := false, moves := 0 }

/-- A request is queued, or discarded (R298, R299). `isStatic`: the key is in the static partition of the newest
epoch. -/
def LearnUnit.request (u : LearnUnit) (k : Option (Nat × Nat)) (isStatic : Nat → Bool) : LearnUnit :=
  match k with
  | none => u.cnt 6 1
  | some (key, port) =>
    if ¬ u.learnEn ∨ isStatic key then u.cnt 6 1
    else if 1024 ≤ u.queue.length then u.cnt 5 1
    else { u with queue := u.queue ++ [{ key := key, port := port }] }

/-- What a learn raises: an entry that became FLAPPING, or a failed learn. -/
inductive LearnEv where
  | quiet
  | flap (key port : Nat)
  | failed (key : Nat)
  deriving DecidableEq, Repr

/-- Apply one learn at the table bank (R299 to R301). -/
def LearnUnit.learn (u : LearnUnit) (mono key port : Nat) : LearnUnit × LearnEv :=
  match u.find key with
  | none =>
    match (learnSlots key).find? (fun i => u.slots.get none i == none) with
    | none => (u.cnt 2 1, .failed key)
    | some i =>
      ((u.put i (some { key := key, port := port, hit := true, strike := false, moves := 0,
                        window := mono / 1000000000, flapping := false, pinUntil := 0 })).cnt 0 1, .quiet)
  | some i =>
    match u.slots.get none i with
    | none => (u, .quiet)
    | some e0 =>
      let e := if e0.flapping && e0.pinUntil ≤ mono then e0.unpin else e0
      if e.port = port then (u.put i (some { e with hit := true, strike := false }), .quiet)
      else if e.flapping then (u.cnt 4 1, .quiet)
      else
        let w := mono / 1000000000
        let n := (if e.window = w then e.moves else 0) + 1
        let flap := decide (u.moveLimit.toNat ≠ 0 ∧ u.moveLimit.toNat < n)
        ((u.put i (some { e with port := port, hit := true, strike := false, moves := n, window := w, flapping := flap,
                                 pinUntil := if flap then mono + u.sweepS.toNat * 1000000000 else e.pinUntil })).cnt 1 1,
         if flap then .flap key port else .quiet)

/-- The learn unit of pipeline `p` applies its oldest request (R299, R308). -/
def Blk.learnApply (b : Blk) (p : Nat) : Blk :=
  match (b.pipe p).learn.queue with
  | [] => b
  | r :: rest =>
    let (u, ev) := ((b.pipe p).learn).learn b.mono r.key r.port
    let b1 := b.updLearn p (fun _ => { u with queue := rest })
    match ev with
    | .quiet => b1
    | .flap k port => b1.devEvent 0x0022 p 0 port k
    | .failed k => b1.devEvent 0x0023 p 0 0 k

/-- One sweeper visit of a slot (R302). -/
def LearnUnit.visit (u : LearnUnit) (mono i : Nat) : LearnUnit :=
  match u.slots.get none i with
  | none => u
  | some e =>
    if e.flapping then (if e.pinUntil ≤ mono then u.put i (some e.unpin) else u)
    else if ¬ u.ageEn then u
    else if ¬ e.hit ∧ e.strike then (u.put i none).cnt 3 1
    else u.put i (some { e with hit := false, strike := true })

/-- The sweeper's next visit is due: a slot each sweep_s ÷ 262,144 seconds (R303). -/
def LearnUnit.sweepDue (u : LearnUnit) (mono : Nat) : Bool :=
  decide (u.sweepAt * 262144 + u.sweepS.toNat * 1000000000 ≤ mono * 262144)

/-- The sweeper visits the slot that its order has next, at its pace; the fixed order of slots is not stated: here it is
ascending (DESIGN CHOICE, log 105). -/
def LearnUnit.sweep (u : LearnUnit) (mono i : Nat) : LearnUnit :=
  if u.sweepPos = i ∧ u.sweepDue mono = true then
    { u.visit mono i with sweepPos := (i + 1) % 262144, sweepAt := mono }
  else u

/-- A committed learned hit of a lookup (R295, R302). -/
def LearnUnit.touch (u : LearnUnit) (key : Nat) : LearnUnit :=
  match u.find key with
  | some i => { u with slots := u.slots.upd none i (fun x => x.map (fun e => { e with hit := true, strike := false })) }
  | none => u

/-- A flush removes every entry that matches (R304). -/
def LearnUnit.flush (u : LearnUnit) (p : Learned → Bool) : LearnUnit :=
  let n := (u.slots.filter (fun e => (e.2.map p).getD false)).length
  ({ u with slots := u.slots.filter (fun e => !(e.2.map p).getD false) }).cnt 7 n

/-- Entries that a LEARN_FLUSH of the present fields matches. -/
def LearnUnit.flushMatch (u : LearnUnit) (e : Learned) : Bool :=
  (!u.flByBd || e.key / 2 ^ 48 == u.flBd.toNat) && (!u.flByPort || e.port == u.flPort.toNat)

/-- A write of LEARN_FLUSH (R304): ignored while a flush runs. -/
def LearnUnit.flushWrite (u : LearnUnit) (v : W64) : LearnUnit :=
  if u.flGo then u
  else { u with flBd := v.extractLsb' 0 14, flByBd := v.getLsbD 14, flPort := v.extractLsb' 16 7, flByPort := v.getLsbD 23,
                flGo := v.getLsbD 24 }

/-- The flushes in progress end: the one of LEARN_FLUSH, and those of ports that a commit disabled (R304). -/
def LearnUnit.flushEnd (u : LearnUnit) : LearnUnit :=
  let u1 := if u.flGo then { (u.flush u.flushMatch) with flGo := false } else u
  { (u1.flush (fun e => u1.flOwn.contains e.port)) with flOwn := [] }

/-- A write of LEARN_CFG (R301 to R303). -/
def LearnUnit.cfgWrite (u : LearnUnit) (v : W64) : LearnUnit :=
  let s := fieldNat v 32 12
  { u with learnEn := v.getLsbD 0, ageEn := v.getLsbD 1, hitAction := v.extractLsb' 2 12, moveLimit := v.extractLsb' 16 8,
           sweepS := if 10 ≤ s ∧ s ≤ 3600 then v.extractLsb' 32 12 else u.sweepS }

/-- The key is in the static partition of the newest epoch, in pipeline `p` (R298); of undefined tables a free value says so
(R293). -/
def Blk.staticKey (b : Blk) (p key : Nat) : Bool :=
  if (b.pipe p).undef then b.freeVal.getLsbD 0
  else (b.cfg.entries p).any (fun e => e.table == 0xFFFF && natBE e.key / 4 == key)

end Sys2Proof.Machine
end

