-- ==== Sys2Proof/Machine/Threads.lean ====
section
/-! DEFINITION. Operations over hardware threads: registers, counters, events and waiting, channels, fault records,
exceptions, event groups, thread control and debug (chapters 08 and 10). -/

namespace Sys2Proof.Machine
open Sys2Proof

/-! General registers and counters. -/

/-- Read a general register; g0 reads 0 (R188). -/
def Thread.reg (x : Thread) (r : Nat) : W64 := if r = 0 then 0 else x.g.get 0 r
/-- Write a general register; a write of g0 is discarded (R188). -/
def Thread.setReg (x : Thread) (r : Nat) (v : W64) : Thread := if r = 0 then x else { x with g := x.g.put 0 r v }
/-- An address as a program counter holds it: always a multiple of 4 (R188). The spec does not say what a PC taken from a
register or an image with other low bits becomes: here they read 0 (DESIGN CHOICE, log 102). -/
def pcOf (v : W64) : W64 := v &&& 0xFFFFFFFFFFFFFFFC#64
/-- Read a general register of thread t. -/
def Blk.greg (b : Blk) (t : Nat) (r : GReg) : W64 := (b.thread t).reg r.val
/-- Write a general register of thread t. -/
def Blk.setG (b : Blk) (t : Nat) (r : GReg) (v : W64) : Blk := b.updThread t (fun x => x.setReg r.val v)

/-- Event number that counter `k` selects, when it counts (R214). -/
def Thread.pmcEvent (x : Thread) (k : Nat) : Nat :=
  if x.pmc.enable.getLsbD k && (!x.pmc.svcOnly || !x.sr.priv) then fieldNat x.pmc.sel (8 * k) 8 else 0

/-- Add to the counter `k`; reaching 2^63 sets its overflow bit and latches the PMC event (R214, R245). -/
def Thread.pmcBump (x : Thread) (k n : Nat) : Thread :=
  let old := x.pmc.count.get 0 k
  let new := sat64 old n
  let ovf := decide (old < 2 ^ 63) && decide (2 ^ 63 ≤ new)
  { x with
    pmc := { x.pmc with count := x.pmc.count.put 0 k new,
                        overflow := if ovf then x.pmc.overflow ||| BitVec.ofNat 4 (2 ^ k) else x.pmc.overflow },
    wt := if ovf then { x.wt with latched := x.wt.latched ||| BitVec.ofNat 58 (2 ^ 56) } else x.wt }

/-- Count `n` occurrences of event `code` in the counters that select it. -/
def Thread.pmcAdd (x : Thread) (code n : Nat) : Thread :=
  if n = 0 then x
  else (List.range 4).foldl (fun x k => if x.pmcEvent k = code then x.pmcBump k n else x) x

/-- Counters of events whose number the spec does not fix (stalls, predictions, misses, lines) advance by a free
amount (R208, R214). -/
def Blk.pmcFree (b : Blk) (t : Nat) : Blk :=
  (b.updThread t (fun x => (List.range 4).foldl (fun x k =>
    let e := x.pmcEvent k
    if 4 ≤ e ∧ e ≤ 12 then x.pmcBump k (Config.freeBits (b.fresh + k)).toNat else x) x)).drawn 4

/-! Events and waiting (R245 to R250). -/

/-- Level events of thread t: a queued message of a channel that it receives, FAULTQ (R245). -/
def Blk.levels (b : Blk) (t : Nat) : Nat :=
  let ch := b.cores.chans.foldl (fun a e =>
    if e.2.enable && e.2.receiver.toNat == t && !e.2.queue.isEmpty then a ||| 2 ^ e.2.rxEvent.toNat else a) 0
  let f := b.fq (halfOfThread t)
  if f.sup.toNat == t && f.pi != f.ci then ch ||| 2 ^ 57 else ch

/-- Pending events of thread t (R245). -/
def Blk.evPending (b : Blk) (t : Nat) : Nat := (b.thread t).wt.latched.toNat ||| b.levels t

/-- Seconds and nanoseconds of the timebase (R325). -/
def Blk.tbNsec (b : Blk) : Nat := b.clk.tb / 65536 % 1000000000

/-- Difference of a timebase compare from now, in ns (R247). -/
def Blk.tcmpDiff (b : Blk) (tcmp : W64) : Int :=
  signed 32 (fieldNat tcmp 32 32 + 2 ^ 32 - b.tbSec % 2 ^ 32) * 1000000000 + (fieldNat tcmp 0 30 : Nat) - (b.tbNsec : Nat)

/-- The timer compare is met (R247). -/
def Blk.tcmpMet (b : Blk) (w : Waiting) : Bool :=
  if w.baseMono then decide (w.tcmp.toNat ≤ b.mono) else decide (b.tcmpDiff w.tcmp ≤ 0)

/-- The timer compare is out of range (R247). -/
def Blk.tcmpRange (b : Blk) (w : Waiting) : Bool :=
  !w.baseMono && (decide (1000000000 < b.tcmpDiff w.tcmp) || decide (1000000000 ≤ fieldNat w.tcmp 0 30))

/-- Lowest set bit of a number below 2^58. -/
def lowBit (n : Nat) : Option Nat := (List.range 58).find? (fun k => bitOf n k)

/-- A condition that ends the WAIT in hand holds (R248). -/
def Blk.waitEnds (b : Blk) (t : Nat) : Bool :=
  let w := (b.thread t).wt
  (b.evPending t &&& w.evmask.toNat) != 0 || (w.armed && (b.tcmpMet w || b.tcmpRange w))

/-- A member leaves WAIT: raised clears and the measure of its group starts again (R260). -/
def Blk.leaveWait (b : Blk) (t : Nat) : Blk :=
  let x := b.thread t
  if x.member then b.updGroup x.group.toNat (fun g => { g with raised := false, measureFrom := b.mono }) else b

/-- One evaluation that ends a WAIT: consume, WAKE_CAUSE, rd, the next instruction (R248). -/
def Blk.wake (b : Blk) (t : Nat) : Blk :=
  let w := (b.thread t).wt
  let en := b.evPending t &&& w.evmask.toNat
  let latched := match lowBit en with
    | some e => w.latched &&& ~~~(BitVec.ofNat 58 (2 ^ e))
    | none => w.latched
  let b1 := b.updThread t (fun x => { x with wt := { x.wt with latched := latched } })
  let left := match lowBit en with
    | some e => (b1.evPending t &&& w.evmask.toNat) &&& (2 ^ 58 - 1 - 2 ^ e)
    | none => 0
  let cause : Nat := (match lowBit en with
    | some e => e + 64
    | none => 0) + (if w.armed && b.tcmpMet w then 128 else 0) + (if w.armed && b.tcmpRange w then 256 else 0) +
    (if left != 0 then 512 else 0) + (if w.stepped && w.armed && !w.baseMono then 1024 else 0) +
    (if w.resumed then 2048 else 0)
  (b1.updThread t (fun x => { x.setReg w.rd.val (BitVec.ofNat 64 cause) with
    st := .running, pc := if w.moved then x.pc else x.pc + 4,
    wt := { x.wt with wakeCause := BitVec.ofNat 12 cause, armed := false, stepped := false, resumed := false,
                      moved := false } })).leaveWait t

/-- Evaluate the WAIT of a waiting thread (R248). -/
def Blk.evalWait (b : Blk) (t : Nat) : Blk :=
  if (b.thread t).st = .waiting && b.waitEnds t then b.wake t else b

/-- Count `n` occurrences of event `code` for thread t; a counter that reaches 2^63 may end its WAIT (R214, R245, R248). -/
def Blk.pmcCount (b : Blk) (t code n : Nat) : Blk :=
  let x := b.thread t
  let b1 := b.updThread t (fun x => x.pmcAdd code n)
  if (x.pmcAdd code n).wt.latched = x.wt.latched then b1 else b1.evalWait t

/-- Evaluate the WAIT of every thread of a list. -/
def Blk.evalWaits (b : Blk) (ts : List Nat) : Blk := ts.foldl Blk.evalWait b

/-- Latch event bits in thread t (R246). -/
def Blk.latch (b : Blk) (t bitsv : Nat) : Blk :=
  (b.updThread t (fun x => { x with wt := { x.wt with latched := x.wt.latched ||| BitVec.ofNat 58 bitsv } })).evalWait t

/-- A device unit raises the UNIT event `k` of thread t (R245). -/
def Blk.unitEvent (b : Blk) (t k : Nat) : Blk := b.latch t (2 ^ (48 + k))

/-- Threads that wait on a timer of base 0 see a step of the timebase, and are evaluated again (R250). -/
def Blk.stepWaits (b : Blk) : Blk :=
  let ts := b.cores.threads.keysWhere (fun _ x => (x.st = .waiting || x.wt.waitResume) && x.wt.armed && !x.wt.baseMono)
  let b1 := ts.foldl (fun b t => b.updThread t (fun x => { x with wt := { x.wt with stepped := true } })) b
  b1.evalWaits ts

/-! Fault records (R256 to R258). -/

/-- Write waiting records to the ring of a half, in order (R256). -/
def Blk.fqFlush (b : Blk) (h : Half) : Blk :=
  let f := b.fq h
  if f.enable then
    let b1 := f.waitingRecs.foldl (fun (acc : Blk × Nat) r =>
      (acc.1.devWrite (f.base.toNat * 4096 + acc.2 % 512 * 32) (r.2 ++ bytesLE 8 b.mono), acc.2 + 1)) (b, f.pi.toNat)
    (b1.1.updFq h (fun q => { q with
      pi := q.pi + BitVec.ofNat 16 q.waitingRecs.length,
      unconsumed := q.unconsumed ++ q.waitingRecs.map (·.1), waitingRecs := [] })).evalWait f.sup.toNat
  else b

/-- The first 24 bytes of a fault record. -/
def faultRec (kind cause id detail epc eaddr : Nat) : List Byte :=
  bytesLE 1 kind ++ bytesLE 1 cause ++ bytesLE 2 id ++ bytesLE 4 detail ++ bytesLE 8 epc ++ bytesLE 8 eaddr

/-- A fault record arises in a half (R256). -/
def Blk.fqRecord (b : Blk) (h : Half) (o : RecOwner) (r : List Byte) : Blk :=
  (b.updFq h (fun q => { q with waitingRecs := q.waitingRecs ++ [(o, r)] })).fqFlush h

/-- A thread stops in FAULTED with its record; a supervisor's fault is told to the MSS (R238, R256, R258). -/
def Blk.faultStop (b : Blk) (t cause detail : Nat) (epc eaddr : W64) : Blk :=
  let x := b.thread t
  let h := halfOfThread t
  let b0 := if x.st = .waiting then b.leaveWait t else b
  let b1 := (b0.updThread t (fun x => { x with
    st := .faulted, lastCause := BitVec.ofNat 8 cause, record := true,
    wt := { x.wt with waitResume := false, armed := false, moved := false },
    sr := { x.sr with epc := epc, cause := BitVec.ofNat 8 cause, detail := BitVec.ofNat 16 detail,
                      fromSystem := x.sr.priv, eaddr := eaddr } }))
  let b2 := if x.record then b1
    else b1.fqRecord h (.thread t) (faultRec 1 cause t (detail % 65536 + (if x.sr.priv then 65536 else 0)) epc.toNat eaddr.toNat)
  if (b.fq h).sup.toNat = t then
    (b2.reel 0x000A 0 [h.code, t]).mssEvent 0x0021 h.code 0 t
  else b2

/-! Exceptions (R197, R198). -/

/-- Enter the handler of a vectored cause (R198). -/
def Blk.enterVector (b : Blk) (t cause detail : Nat) (epc eaddr : W64) : Blk :=
  b.updThread t (fun x => { x with
    pc := BitVec.ofNat 64 (x.sr.evecBase.toNat * 4096 + 0x40 * cause),
    sr := { x.sr with epc := epc, cause := BitVec.ofNat 8 cause, detail := BitVec.ofNat 16 detail,
                      fromSystem := x.sr.priv, eaddr := eaddr, prevPriv := x.sr.priv, priv := true, exc := true } })

/-- Take an exception: the one operation every exception goes through (R197, R198, R238). `epc` is the address R197
gives for the cause; a second vectored cause makes DOUBLE, whose EADDR is an address or 0. -/
def Blk.takeException (b : Blk) (t cause detail : Nat) (epc eaddr : W64) : Blk :=
  let x := b.thread t
  let b0 := b.updThread t (fun x => x.pmcAdd 0x10 1)
  if cause ≤ 9 then
    if x.sr.exc then
      b0.faultStop t 0x0B 0 x.pc (if cause = 3 ∨ cause = 4 ∨ cause = 5 then eaddr else 0)
    else if x.sr.evecValid then b0.enterVector t cause detail epc eaddr
    else b0.faultStop t cause detail epc eaddr
  else b0.faultStop t cause detail epc eaddr

/-- Return from an exception (R198). -/
def Blk.eretTo (b : Blk) (t : Nat) : Blk :=
  b.updThread t (fun x => { x with pc := pcOf x.sr.epc, sr := { x.sr with priv := x.sr.prevPriv, exc := false } })

/-! Channels (R227, R251 to R255). -/

/-- Credits C of a channel. -/
def Channel.credits (c : Channel) : Nat := c.creditsM1.toNat + 1

/-- Credits of channel c that threads hold. -/
def Blk.reserved (b : Blk) (c : Nat) : Nat :=
  (List.range 512).foldl (fun a t => a + (b.thread t).credits.get 0 c) 0

/-- Free credits of channel c (R251). -/
def Blk.freeCredits (b : Blk) (c : Nat) : Nat :=
  (b.chan c).credits - b.reserved c - (b.chan c).queue.length - (b.chan c).transit.length

/-- The free credits of a channel rise: credit_event in every registered thread, registrations cleared (R251). -/
def Blk.creditsRise (b : Blk) (c : Nat) : Blk :=
  let ch := b.chan c
  ch.registered.foldl (fun b t => b.latch t (2 ^ ch.creditEvent.toNat)) (b.updChan c (fun x => { x with registered := [] }))

/-- Discard a thread's staging for channel c. -/
def Thread.dropStaging (x : Thread) (c : Nat) : Thread := { x with staging := x.staging.dropKeys (fun k => k / 8 == c) }

/-- Return a thread's credits on channel c and discard its staging (R251). -/
def Blk.returnCredits (b : Blk) (t c : Nat) : Blk :=
  let n := (b.thread t).credits.get 0 c
  let b1 := b.updThread t (fun x => { x.dropStaging c with credits := x.credits.put 0 c 0 })
  if n = 0 then b1 else b1.creditsRise c

/-- Two threads are members of one event group. -/
def Blk.sameGroup (b : Blk) (s t : Nat) : Bool :=
  (b.thread s).member && (b.thread t).member && (b.thread s).group == (b.thread t).group

/-- Thread t may send on channel c (R254). -/
def Blk.maySend (b : Blk) (t c : Nat) : Bool :=
  let ch := b.chan c
  ch.enable && (ch.senders == 0 || (ch.senders == 1 && b.sameGroup t ch.receiver.toNat) ||
    (ch.senders == 2 && ch.sender.toNat == t))

/-- Thread t may receive on channel c. -/
def Blk.mayRecv (b : Blk) (t c : Nat) : Bool := (b.chan c).enable && (b.chan c).receiver.toNat == t

/-- A device unit sends a message on a channel with hw = 1, taking one free credit (R255). `none`: no credit is free. -/
def Blk.unitSend (b : Blk) (c : Nat) (src : Half) (words : Tab W64) (len : Nat) : Option Blk :=
  if (b.chan c).enable && (b.chan c).hw && 0 < b.freeCredits c then
    some (b.updChan c (fun ch => { ch with transit := ch.transit ++ [{ words := words, len := len, src := src }] }))
  else none

/-- Bytes as words of a channel message, little-endian. -/
def wordsOf (l : List Byte) : Tab W64 :=
  (List.range ((l.length + 7) / 8)).foldl (fun t k => t.put 0 k (BitVec.ofNat 64 (leAt l (8 * k) 8))) []

/-- The oldest message on its way is queued in the receiver's half and raises rx_event (R249, R253). -/
def Blk.chQueue (b : Blk) (c : Nat) : Blk :=
  match (b.chan c).transit with
  | [] => b
  | m :: r =>
    (b.updChan c (fun ch => { ch with transit := r, queue := ch.queue ++ [m] })).evalWait (b.chan c).receiver.toNat

/-- Sum of the credits of the enabled channels whose receivers a half holds (R254). -/
def Blk.halfCredits (b : Blk) (h : Half) : Nat :=
  b.cores.chans.foldl (fun a e => if e.2.enable && halfOfThread e.2.receiver.toNat = h then a + e.2.credits else a) 0

/-! Event groups (R259, R260). -/

/-- Members of a group, ascending. -/
def Blk.members (b : Blk) (g : Nat) : List Nat :=
  b.cores.threads.keysWhere (fun _ x => x.member && x.group.toNat == g)

/-- CHAN bits that are the rx_event of an enabled channel with hw = 1 (R259). -/
def Blk.hwBits (b : Blk) : Nat :=
  b.cores.chans.foldl (fun a e => if e.2.enable && e.2.hw then a ||| 2 ^ e.2.rxEvent.toNat else a) 0

/-- Every member of a group is blocked in the sense of R259. -/
def Blk.deadlocked (b : Blk) (g : Nat) : Bool :=
  let ms := b.members g
  !ms.isEmpty && ms.all (fun t =>
    let x := b.thread t
    x.st = .waiting && !x.wt.armed && x.wt.evmask.toNat / 2 ^ 48 == 0 && (x.wt.evmask.toNat &&& b.hwBits) == 0)

/-- MONO since which the condition of R259 has held without a break. -/
def Blk.deadSince (b : Blk) (g : Nat) : Nat :=
  (b.members g).foldl (fun a t => max a (b.thread t).wt.since) (b.group g).measureFrom

/-- The measure of groups starts again where the condition came to hold through a change of channels. -/
def Blk.remeasure (before after : Blk) : Blk :=
  (List.range 64).foldl (fun b g =>
    if !before.deadlocked g && after.deadlocked g then b.updGroup g (fun x => { x with measureFrom := b.mono }) else b) after

/-- Raise DEADLOCK in a group (R260). -/
def Blk.deadlockRaise (b : Blk) (g : Nat) : Blk :=
  let x := b.group g
  let ms := b.members g
  let ep := sat32 x.episodes 1
  let h : Half := if x.east then .east else .west
  let b1 := b.updGroup g (fun x => { x with
    raised := true, episodes := ep, record := true, snap := ms.map (fun t => (t, (b.thread t).wt.evmask)) })
  if x.record then b1 else b1.fqRecord h (.group g) (faultRec 2 0 g ms.length (b.deadSince g) ep)

/-! Thread control (R238) and debug (R261). -/

/-- START of a thread at an address, with EVEC.valid = 0 as every start has (R190, R238). -/
def Blk.startThread (b : Blk) (t : Nat) (pc : W64) : Blk :=
  let chs := (b.thread t).credits.map (·.1)
  let b1 := chs.foldl (fun b c => b.returnCredits t c) b
  b1.updThread t (fun x => { x with
    st := .running, started := true, byStop := false, pc := pcOf pc, staging := [], credits := [], win := {},
    sr := { x.sr with priv := true, exc := false, evecValid := false },
    wt := { x.wt with evmask := 0, latched := 0, armed := false, waitResume := false, resumed := false, stepped := false,
                      moved := false } })

/-- STOP of a running or waiting thread (R238). -/
def Blk.stopThread (b : Blk) (t : Nat) : Blk :=
  let w := (b.thread t).st = .waiting
  let b1 := b.updThread t (fun x => { x with st := .stopped, byStop := true, wt := { x.wt with waitResume := w } })
  if w then b1.leaveWait t else b1

/-- A thread goes back into the WAIT it was held in (R226). -/
def Blk.resumeWait (b : Blk) (t : Nat) : Blk :=
  (b.updThread t (fun x => { x with
    st := .waiting, wt := { x.wt with waitResume := false, resumed := true, since := b.mono } })).evalWait t

/-- RESUME of a stopped or faulted thread (R238). -/
def Blk.resumeThread (b : Blk) (t : Nat) : Blk :=
  let x := b.thread t
  if x.st = .faulted then b.updThread t (fun x => { x with st := .running, pc := pcOf x.sr.epc })
  else if x.wt.waitResume then (b.updThread t (fun x => { x with byStop := false })).resumeWait t
  else b.updThread t (fun x => { x with st := .running, byStop := false })

/-- The target's state accepts the op of THR.CTL (R238): 0 START, 1 STOP, 2 RESUME. -/
def Blk.thrAccepts (b : Blk) (t op : Nat) : Bool :=
  let x := b.thread t
  if op = 0 then x.st = .stopped || (x.st = .faulted && !x.record)
  else if op = 1 then x.st = .running || x.st = .waiting
  else (x.st = .stopped && x.byStop) || (x.st = .faulted && !x.record)

/-- Apply an op of THR.CTL (R238). -/
def Blk.thrApply (b : Blk) (t op : Nat) (pc : W64) : Blk :=
  if op = 0 then b.startThread t pc else if op = 1 then b.stopThread t else b.resumeThread t

/-- HALT (R261). -/
def Blk.haltThread (b : Blk) (t : Nat) : Blk :=
  let x := b.thread t
  let b1 := b.updThread t (fun x => { x with
    st := .halted, kept := x.st, wt := { x.wt with waitResume := x.wt.waitResume || x.st = .waiting } })
  if x.st = .waiting then b1.leaveWait t else b1

/-- GO (R261). -/
def Blk.goThread (b : Blk) (t : Nat) : Blk :=
  let x := b.thread t
  if x.kept = .waiting then (b.updThread t (fun x => { x with stepping := none })).resumeWait t
  else b.updThread t (fun x => { x with st := x.kept, stepping := none })

end Sys2Proof.Machine
end

