-- ==== Sys2Proof/Machine/Hog.lean ====
section
/-! DEFINITION. The Hogsheads and the traffic managers: cells, admission, PFC, ECN, scheduling, shaping, flooding, the
way across the bridge, delivery to hosts (R278 to R288, R296, R297). -/

namespace Sys2Proof.Machine
open Sys2Proof

/-- Cells of a packet (chapter 11, "The Hogshead"). -/
def Packet.cells (p : Packet) : Nat := ceilDiv p.frame.length 256
/-- Cells of a list of packets. -/
def cellSum (l : List Packet) : Nat := l.foldl (fun a p => a + p.cells) 0

/-- Half of a queue. -/
def Blk.halfOfQ (b : Blk) : QKey → Half
  | .port l _ => halfOfLane l
  | .deliver i _ => b.homeOf i
/-- Pipeline that counts the drops of a queue (R288). -/
def Blk.pipeOfQ (b : Blk) : QKey → Nat
  | .port l _ => pipeOfLane l
  | .deliver i _ => pipeOfPort ((b.instCfg i).inst i).port.toNat

/-- A queue of the traffic manager. -/
def Hog.queue (h : Hog) (k : QKey) : TmQueue := (h.queues.find? (fun q => q.key == k)).getD { key := k }
/-- Replace a queue. -/
def Hog.setQueue (h : Hog) (q : TmQueue) : Hog :=
  { h with queues := if h.queues.any (fun x => x.key == q.key) then h.queues.map (fun x => if x.key == q.key then q else x)
                     else h.queues ++ [q] }
def Blk.tmq (b : Blk) (k : QKey) : TmQueue := b.hog.queue k
def Blk.setTmq (b : Blk) (q : TmQueue) : Blk := { b with hog := b.hog.setQueue q }

/-- Packets whose egress stages wait for the HBM table (R272). -/
def Blk.egressWaits (b : Blk) : List HbmWait := b.pipes.flatMap (fun p => p.2.waits.filter (·.port.isSome))

/-- Every packet that holds cells: queues, the bridge, the MACs, the transport engines' queues, egress stages. -/
def Blk.allPackets (b : Blk) : List Packet :=
  b.hog.queues.flatMap (·.pkts) ++ b.hog.crossing.map (·.pkt) ++ b.hog.egress.map (·.pkt) ++ b.rmt.inWest ++ b.rmt.inEast ++
  b.egressWaits.map (·.pkt)

/-- One packet for each ingress copy: a flooded packet is held once. -/
def oncePer (l : List Packet) : List Packet :=
  l.foldl (fun a p => if a.any (fun x => x.uid == p.uid) then a else a ++ [p]) []

/-- Settings of a port in an epoch. -/
def Blk.tmAt (b : Blk) (epoch l : Nat) : TmPort := tmOf ((b.cfgOf epoch).prog (pipeOfLane l)) l

/-- Sum of min_cells and headroom over the ENABLED ports of a half, in an epoch (R277, R279). -/
def Blk.halfReserve (b : Blk) (epoch : Nat) (h : Half) : Nat :=
  ((b.cfgOf epoch).ports.filter (fun p => p.2.life == .enabled && halfOfLane p.1 == h)).foldl (fun a p =>
    let t := b.tmAt epoch p.1
    a + t.headroom + t.classes.foldl (fun x c => x + c.minCells) 0) 0

/-- shared_size of a half, in an epoch (R277, R279). -/
def Blk.sharedSize (b : Blk) (epoch : Nat) (h : Half) : Nat :=
  393216 - (match h with
    | .west => b.hog.retiredWest
    | .east => b.hog.retiredEast) - b.halfReserve epoch h

/-- Half that a crossing packet goes to. -/
def Blk.crossHalf (b : Blk) : CrossDest → Half
  | .queue k => b.halfOfQ k
  | .engine h => h

/-- Packets that wait in the sending Hogshead for the bridge towards a half, oldest first (R18). -/
def Blk.crossingTo (b : Blk) (h : Half) : List Crossing := b.hog.crossing.filter (fun c => b.crossHalf c.dest == h)

/-- min_cells of a queue, for a packet's epoch; delivery queues have none (R279). -/
def Blk.minCells (b : Blk) (epoch : Nat) : QKey → Nat
  | .port l tc => (classOf (b.tmAt epoch l) tc).minCells
  | .deliver _ _ => 0

/-- Cells of the shared part in use in a half, in an epoch: what its queues hold beyond their min_cells and outside
headroom, and what waits there for the bridge (R18, R277, R279). -/
def Blk.sharedUsed (b : Blk) (epoch : Nat) (h : Half) : Nat :=
  (b.hog.queues.filter (fun q => b.halfOfQ q.key == h)).foldl (fun a q =>
    a + (cellSum (q.pkts.filter (fun p => !p.inHeadroom)) - b.minCells epoch q.key)) 0 +
  cellSum (((b.crossingTo h.other).map (·.pkt)).filter (fun p => !p.inHeadroom))

/-- The α test of R279: a queue of `len` cells, `mn` of them reserved, takes `n` more of the shared part of a half. -/
def Blk.sharedFits (b : Blk) (epoch : Nat) (h : Half) (alpha len mn n : Nat) : Bool :=
  let s := b.sharedSize epoch h
  let u := b.sharedUsed epoch h
  decide (u + n ≤ s) && decide (((len : Int) - mn + n) * 16 ≤ (2 ^ alpha * (s - u) : Nat))

/-- alpha of a queue, in an epoch: delivery queues have α = 1 (R279). -/
def Blk.alphaOf (b : Blk) (epoch : Nat) : QKey → Nat
  | .port l tc => (classOf (b.tmAt epoch l) tc).alpha
  | .deliver _ _ => 4

/-- Admission of `n` cells to a queue, by the settings of the packet's epoch (R277, R279). -/
def Blk.admits (b : Blk) (epoch : Nat) (k : QKey) (n : Nat) : Bool :=
  let len := cellSum (b.tmq k).pkts
  let mn := b.minCells epoch k
  decide (len + n ≤ mn) || b.sharedFits epoch (b.halfOfQ k) (b.alphaOf epoch k) len mn n

/-- Half in whose Hogshead the ingress copy of a packet lies. -/
def Packet.half (p : Packet) : Half := halfOfPipe p.pipe

/-- Under backpressure of the bridge a packet is held in the sending Hogshead by the rules of its class: the α test of R279
in that half, where its queue has no reserved cells (R18). -/
def Blk.heldFits (b : Blk) (p : Packet) (d : CrossDest) : Bool :=
  let len := cellSum ((b.hog.crossing.filter (fun c => c.dest == d)).map (·.pkt))
  let alpha := match d with
    | .queue k => b.alphaOf p.epoch k
    | .engine _ => 4
  b.sharedFits p.epoch p.half alpha len 0 p.cells

/-- The class of a packet is lossless on its ingress port (R282). -/
def Blk.lossless (b : Blk) (p : Packet) : Bool :=
  let port := (b.cfgOf p.epoch).port p.origin.lane
  !p.origin.fromHost && port.life == .enabled && port.pfc && bitOf port.pfcMask.toNat (mdTc p.md)

/-- Headroom of the ingress port has room for the packet (R282). -/
def Blk.headroomFits (b : Blk) (p : Packet) : Bool :=
  let used := cellSum (b.allPackets.filter (fun x => x.inHeadroom && x.origin.lane == p.origin.lane && !x.origin.fromHost))
  decide (used + p.cells ≤ (b.tmAt p.epoch p.origin.lane).headroom)

/-! PFC (R282, R283). -/

/-- Packets that hold cells in the Hogshead of a half: its queues, MACs, egress stages and engine (R278). -/
def Blk.packetsIn (b : Blk) (h : Half) : List Packet :=
  (b.hog.queues.filter (fun q => b.halfOfQ q.key == h)).flatMap (·.pkts) ++
  (b.hog.egress.filter (fun e => halfOfLane e.lane == h)).map (·.pkt) ++
  (b.egressWaits.filter (fun w => halfOfLane (w.port.getD 0) == h)).map (·.pkt) ++
  (match h with
   | .west => b.rmt.inWest
   | .east => b.rmt.inEast)

/-- Packets of the other half's pipelines whose copy lies in a half: they crossed the bridge (R278). -/
def Blk.copiesIn (b : Blk) (h : Half) : List Packet := (b.packetsIn h).filter (fun p => p.half != h)

/-- Cells that the frames of an ingress port and priority hold in the Hogsheads: each ingress copy once, and each copy across
the bridge (R278, R282). -/
def Blk.pfcHeld (b : Blk) (l prio : Nat) : Nat :=
  let mine := fun p : Packet => !p.origin.fromHost && p.origin.lane == l && mdTc p.md == prio
  cellSum (oncePer (b.allPackets.filter mine)) + cellSum (oncePer ((b.copiesIn .west ++ b.copiesIn .east).filter mine))

/-- Send a PFC frame, while the link is UP (R313). -/
def Blk.pfcSend (b : Blk) (l prio quanta : Nat) : Blk :=
  if (b.lane l).link = .up then ((b.emit (.pfc l prio quanta)).ethCnt l 10 1).pipeCnt (pipeOfLane l) 8 1 else b

/-- XOFF or XON of one port and priority, as the count of cells asks (R282). -/
def Blk.pfcEval (b : Blk) (l prio : Nat) : Blk :=
  let t := b.tmAt b.ctl.newest l
  let n := b.pfcHeld l prio
  let on := b.hog.xoff.any (fun x => x.lane == l && x.prio == prio)
  let rest := b.hog.xoff.filter (fun x => !(x.lane == l && x.prio == prio))
  if !on && t.pfcXoff ≤ n then
    Blk.pfcSend { b with hog := { b.hog with xoff := rest ++ [{ lane := l, prio := prio, since := b.mono }] } } l prio 0xFFFF
  else if on && n < t.pfcXon then Blk.pfcSend { b with hog := { b.hog with xoff := rest } } l prio 0
  else b

/-- PFC of every port that runs it. -/
def Blk.pfcSettle (b : Blk) : Blk :=
  (b.cfg.ports.filter (fun p => p.2.life == .enabled && p.2.pfc)).foldl (fun b p =>
    ((List.range 8).filter (fun c => bitOf p.2.pfcMask.toNat c)).foldl (fun b c => b.pfcEval p.1 c) b) b

/-- Mbit/s of a port (R311). -/
def portRate (p : PortCfg) : Nat := p.lanes * (if p.rate = 0 then 200000 else if p.rate = 1 then 100000 else 50000)

/-- A PFC frame is received: classes named with their quanta (R283). -/
def Blk.pfcRx (b : Blk) (l : Nat) (qs : List (Nat × Nat)) : Blk :=
  let p := b.cfg.port l
  if p.life ≠ .enabled then b
  else
    let b1 := (b.ethCnt l 11 1).pipeCnt (pipeOfLane l) 9 1
    if !p.pfc then b1
    else
      qs.foldl (fun b q =>
        if bitOf p.pfcMask.toNat q.1 then
          let until_ := if q.2 = 0 then none else some (b.mono + q.2 * 512 * 1000 / max (portRate p) 1)
          b.setTmq { b.tmq (.port l q.1) with pausedTo := until_ }
        else b) b1

/-- A queue is paused now. -/
def Blk.paused (b : Blk) (q : TmQueue) : Bool := (q.pausedTo.map (fun t => decide (b.mono < t))).getD false

/-- The entry of a PKT_SEND with a launch time is resolved: it completes with a status (R344). -/
def Blk.endLaunch (b : Blk) (p : Packet) (status : Nat) : Blk :=
  match p.launch, p.origin.wq with
  | some _, some (q, idx) =>
    match (b.wq p.origin.inst q).entry idx with
    | some e =>
      if e.gen = p.origin.gen then b.finish p.origin.inst q idx status (cplOf e q status (if status = 0 then psLen e.raw else 0))
      else b
    | none => b
  | _, _ => b

/-- A packet is dropped: counted with its reason (R288), a launch entry resolved. -/
def Blk.dropPkt (b : Blk) (p : Packet) (pipe reason : Nat) : Blk := (b.drop pipe reason).endLaunch p 0

/-! Admission. -/

/-- ECN at admission: whether the packet is marked, with a free draw of the queue's pseudo-random sequence (R284). -/
def Blk.ecnMark (b : Blk) (p : Packet) (k : QKey) : Bool :=
  match k with
  | .deliver _ _ => false
  | .port l tc =>
    let c := classOf (b.tmAt p.epoch l) tc
    let len := cellSum (b.tmq k).pkts
    c.ecnEn && ecnCapable p.frame p.md &&
    (decide (c.ecnMax ≤ len) ||
     (decide (c.ecnMin ≤ len) &&
      decide (b.freeVal.toNat % ((c.ecnMax - c.ecnMin) * 256) < c.ecnPmax * (len - c.ecnMin))))

/-- Put an admitted packet at the end of its queue. -/
def Blk.enqueue (b : Blk) (p : Packet) (k : QKey) (headroom : Bool) : Blk :=
  let ce := b.ecnMark p k
  let b1 := b.drawn 1
  let b2 := if ce then b1.pipeCnt (b.pipeOfQ k) 7 1 else b1
  let q := b2.tmq k
  (b2.setTmq { q with pkts := q.pkts ++ [{ p with markCe := ce, inHeadroom := headroom }] }).pfcSettle

/-- Admission of a packet to a queue of its own half (R279, R282, R313). -/
def Blk.takeIn (b : Blk) (p : Packet) (k : QKey) : Blk :=
  let down := match k with
    | .port l _ => decide ((b.lane l).link ≠ .up ∨ (b.cfg.port l).life ≠ .enabled)
    | .deliver _ _ => false
  if down = true then b.dropPkt p (b.pipeOfQ k) 0x09
  else if b.admits p.epoch k p.cells then b.enqueue p k false
  else if b.lossless p then
    if b.headroomFits p then b.enqueue p k true else b.dropPkt p (b.pipeOfQ k) 0x06
  else b.dropPkt p (b.pipeOfQ k) 0x05

/-! The bridge (R16 to R19, R23). -/

/-- Traffic bound for a half that is down ends at the bridge interface and is counted there (R23). -/
def Blk.countDown (b : Blk) (h : Half) : Blk := { b with halfDown := b.halfDown.upd 0 h.code (fun n => sat64 n 1) }

/-- A packet bound for a half that is down. -/
def Blk.dropDown (b : Blk) (p : Packet) (h : Half) : Blk := (b.dropPkt p p.pipe 0x03).countDown h

/-- Bridge direction towards a half. -/
def Blk.bridgeTo (b : Blk) : Half → BridgeDir
  | .east => b.brg.toEast
  | .west => b.brg.toWest

/-- Change the direction towards a half. -/
def Blk.updBridgeTo (b : Blk) (h : Half) (f : BridgeDir → BridgeDir) : Blk :=
  match h with
  | .east => { b with brg := { b.brg with toEast := f b.brg.toEast } }
  | .west => { b with brg := { b.brg with toWest := f b.brg.toWest } }

/-- The bridge towards a half takes nothing more at once: traffic waits there, or it retrains (R18, R19). -/
def Blk.backpressure (b : Blk) (h : Half) : Bool := (b.bridgeTo h).retrain.isSome || !(b.crossingTo h).isEmpty

/-- A packet sets out for the other half: dropped at the bridge where that half is down; taken by the bridge, or under
backpressure held in the sending Hogshead by the rules of its class, headroom for a lossless one (R18, R23, R278, R282). -/
def Blk.cross (b : Blk) (p : Packet) (d : CrossDest) (pipe : Nat) : Blk :=
  let h := b.crossHalf d
  let put := fun q : Packet => Blk.pfcSettle { b with hog := { b.hog with crossing := b.hog.crossing ++ [{ pkt := q, dest := d }] } }
  if ¬ b.serving h then b.dropDown p h
  else if ¬ b.backpressure h ∨ b.heldFits p d then put p
  else if b.lossless p then
    (if b.headroomFits p then put { p with inHeadroom := true } else b.dropPkt p pipe 0x06)
  else b.dropPkt p pipe 0x05

/-- A packet leaves ingress for a queue: admitted in its own half, or on its way across the bridge (R278). -/
def Blk.toQueue (b : Blk) (p : Packet) (k : QKey) : Blk :=
  if b.halfOfQ k = p.half then b.takeIn p k else b.cross p (.queue k) (b.pipeOfQ k)

/-- A crossing packet is cells, not placement data of the transport (R16). -/
def Crossing.isCells (c : Crossing) : Bool := match c.dest with
  | .queue _ => true
  | .engine _ => false

/-- A channel holds a message that must cross the bridge towards a half (R253). -/
def Channel.crossesTo (c : Channel) (h : Half) : Bool :=
  halfOfThread c.receiver.toNat == h && (match c.transit with
    | m :: _ => m.src != h
    | [] => false)

/-- Cells wait for the bridge towards a half. -/
def Blk.cellsWait (b : Blk) (h : Half) : Bool := (b.crossingTo h).any (·.isCells)
/-- Data wait for it: transport packets, channel messages (R16). -/
def Blk.dataWait (b : Blk) (h : Half) : Bool :=
  (b.crossingTo h).any (fun c => !c.isCells) || b.cores.chans.any (fun e => e.2.crossesTo h)

/-- Deficit round-robin of the shared class, equal weights: cells may go while data are not owed a turn, and data while
cells are not (R16). The quantum is not stated: one cell or message at a time (log 103). -/
def Blk.cellsTurn (b : Blk) (h : Half) : Bool := b.cellsWait h && (!b.dataWait h || decide ((b.bridgeTo h).lead ≤ 0))
def Blk.dataTurn (b : Blk) (h : Half) : Bool := b.dataWait h && (!b.cellsWait h || decide (0 ≤ (b.bridgeTo h).lead))

/-- The shared class towards a half has carried `n` bytes, of cells or of data. -/
def Blk.carried (b : Blk) (h : Half) (cells : Bool) (n : Nat) : Blk :=
  let both := b.cellsWait h && b.dataWait h
  b.updBridgeTo h (fun d => { d with lead := if both then (if cells then d.lead + n else d.lead - n) else 0 })

/-- Hand an RMT packet to an engine's queue in its own half. -/
def Blk.engineTake (b : Blk) (p : Packet) (h : Half) : Blk :=
  match h with
  | .west => { b with rmt := { b.rmt with inWest := b.rmt.inWest ++ [p] } }
  | .east => { b with rmt := { b.rmt with inEast := b.rmt.inEast ++ [p] } }

/-- A crossing packet reaches the other half: it is admitted to its queue there, or to the engine (R278, R372). -/
def Blk.crossed (b : Blk) (c : Crossing) : Blk :=
  let b1 := (b.carried (b.crossHalf c.dest) c.isCells c.pkt.frame.length)
  let b2 : Blk := { b1 with hog := { b1.hog with crossing := b1.hog.crossing.erase c } }
  if ¬ b2.serving (b2.crossHalf c.dest) then (b2.dropDown c.pkt (b2.crossHalf c.dest)).pfcSettle
  else
    match c.dest with
    | .queue k => (b2.takeIn { c.pkt with inHeadroom := false } k).pfcSettle
    | .engine h => (b2.engineTake { c.pkt with inHeadroom := false } h).pfcSettle

/-- The oldest packet whose turn it is is copied across the bridge; a retrain holds it (R16 to R19, R278). -/
def Blk.bridgeTransfer (b : Blk) (h : Half) : Blk :=
  if (b.bridgeTo h).retrain.isSome then b
  else
    match (b.crossingTo h).find? (fun c => c.isCells == b.cellsTurn h) with
    | none => b
    | some c => b.crossed c

/-- The oldest message on its way is queued in the receiver's half and raises rx_event (R249, R253); one of the other half's
thread or unit crosses the bridge in the shared class, and ends there, its credit free again, while that half is down (R16,
R19, R23). -/
def Blk.chArrive (b : Blk) (c : Nat) : Blk :=
  let h := halfOfThread (b.chan c).receiver.toNat
  match (b.chan c).transit with
  | [] => b
  | m :: r =>
    if m.src = h then b.chQueue c
    else if (b.bridgeTo h).retrain.isSome ∨ ¬ b.dataTurn h then b
    else if b.boot.state = bsRecovery ∧ b.mp h = 0 then
      ((b.updChan c (fun ch => { ch with transit := r })).creditsRise c).countDown h
    else (b.carried h false m.len).chQueue c

/-! Flooding (R296, R297). -/

/-- Ports of the flood set of a bridge domain, in an epoch and pipeline. -/
def Cfg.floodSet (c : Cfg) (p bd : Nat) : List Nat :=
  match (c.entries p).find? (fun e => e.table == 0xFFFF && natBE e.key / 4 == macKey bd 0xFFFFFFFFFFFF) with
  | none => []
  | some e => (List.range 128).filter (fun l => bitOf e.data.toNat l && (c.port l).life == .enabled)

/-- Flood a packet: one copy for each port of the set but the one it came in on. The set of undefined tables is free
(R293). -/
def Blk.flood (b : Blk) (p : Packet) : Blk :=
  let undef := (b.pipe p.pipe).undef
  let set := if undef then (List.range 128).filter (fun l => ((b.cfgOf p.epoch).port l).life == .enabled &&
      (Config.freeBits (b.fresh + l / 64)).getLsbD (l % 64)) else (b.cfgOf p.epoch).floodSet p.pipe (mdBd p.md)
  let b0 := if undef then b.drawn 2 else b
  let ports := set.filter (fun l => p.origin.fromHost || l != p.origin.lane)
  if ports.isEmpty then b0.updLearn p.pipe (fun u => u.cnt 8 1)
  else
    ports.foldl (fun b l =>
      b.toQueue { p with md := mdPut p.md 520 7 l, launch := none } (.port l (mdTc p.md))) (b0.pipeCnt p.pipe 1 1)

/-! Punting (R287). -/

/-- The punt message. -/
def puntMsg (p : Packet) (addr idx : Nat) : List Byte :=
  bytesLE 8 addr ++ bytesLE 2 p.frame.length ++ bytesLE 2 idx ++
  [BitVec.ofNat 8 (p.pipe % 8 + (if mdFromHost p.md then 8 else 0)), BitVec.ofNat 8 (mdInPort p.md),
   BitVec.ofNat 8 (mdReason p.md), BitVec.ofNat 8 (mdParse p.md)] ++
  bytesLE 8 p.epoch ++ bytesLE 4 (mdGet p.md 384 30) ++ bytesLE 2 (mdGet p.md 416 16) ++
  [BitVec.ofNat 8 (mdGet p.md 432 8), 0]

/-- Bits of metadata as 128 bytes (R268). -/
def mdBytes (m : Meta) : List Byte := bytesLE 128 m.toNat

/-- Punt a packet: checks in the order of R287, slot written, message queued on the channel. -/
def Blk.punt (b : Blk) (p : Packet) : Blk :=
  let c := mdPunt p.md
  let x := b.pipe p.pipe
  let size := 2 ^ x.puntLog2.toNat
  if ¬ ((b.chan c).enable ∧ (b.chan c).hw ∧ x.puntEnable) then b.dropPkt p p.pipe 0x0C
  else if b.freeCredits c = 0 then b.dropPkt p p.pipe 0x0D
  else if (x.puntPi - x.puntCi).toNat = size then b.dropPkt p p.pipe 0x0E
  else
    let idx := x.puntPi.toNat
    let addr := x.puntBase.toNat * 4096 + idx % size * 16384
    let b1 := (b.devWrite addr (p.frame.take 16256)).devWrite (addr + 16256) (mdBytes p.md)
    let b2 := b1.updPipe p.pipe (fun x => { x with puntPi := x.puntPi + 1 })
    (b2.unitSend c p.half (wordsOf (puntMsg p addr (idx % 65536))) 32).getD b2

/-- The packet is an RMT packet: UDP to the transport's port of its epoch, in a whole IP packet (R372). -/
def Blk.isRmt (b : Blk) (p : Packet) : Bool :=
  let k := mdL3Kind p.md
  match mdHdr p.md (mdL3Slot p.md) with
  | none => false
  | some o =>
    let v4 := k == 1 && beAt p.frame (o + 6) 2 % 16384 == 0 && byteAt p.frame (o + 9) == 17
    let v6 := k == 2 && byteAt p.frame (o + 6) == 17
    let u := if k = 1 then o + (byteAt p.frame o).toNat % 16 * 4 else o + 40
    (v4 || v6) && beAt p.frame (u + 2) 2 == (b.cfgOf p.epoch).udpPort

/-- Offset of the transport header of an RMT packet, behind UDP. -/
def rmtAt (p : Packet) : Nat :=
  match mdHdr p.md (mdL3Slot p.md) with
  | none => 0
  | some o => (if mdL3Kind p.md = 1 then o + (byteAt p.frame o).toNat % 16 * 4 else o + 40) + 8

/-- Half whose engine takes an RMT packet: the home half of the QP named, or the half of the receiving pipeline (R372). -/
def Blk.rmtHalf (b : Blk) (p : Packet) : Half :=
  let n := beAt p.frame (rmtAt p + 5) 3
  let q := (b.cfgOf p.epoch).qp n
  if q.life = .absent then halfOfPipe p.pipe else halfOfPort ((b.cfgOf p.epoch).inst q.inst).port.toNat

/-- Hand an RMT packet to an engine: that of its own half, or of the other across the bridge (R372). -/
def Blk.toEngine (b : Blk) (p : Packet) (h : Half) : Blk :=
  if h = p.half then (b.engineTake p h).pfcSettle else b.cross p (.engine h) p.pipe

/-- The end of ingress: its cells are written (R278, R280), and where the packet goes (R268, R276, R285, R287, R297, R372). -/
def Blk.dispatch (b : Blk) (p0 : Packet) : Blk :=
  let p := { p0 with born := b.mono }
  let m := p.md
  let c := b.cfgOf p.epoch
  let handed := b.pipeCnt p.pipe 1 1
  let k := mdDest m
  if k = 0 then b.dropPkt p p.pipe (mdReason m)
  else if k = 1 then
    if (c.port (mdEgPort m)).life ≠ .enabled then b.dropPkt p p.pipe 0x01
    else handed.toQueue p (.port (mdEgPort m) (mdTc m))
  else if k = 2 then
    if b.isRmt p then (b.endLaunch p 0).toEngine { p with launch := none } (b.rmtHalf p)
    else
      let w := c.wq (mdDstInst m) (mdDstWq m)
      if ¬ ((c.inst (mdDstInst m)).life = .enabled ∧ (b.inst (mdDstInst m)).detached = false ∧ w.life = .enabled ∧
            w.kind.toNat = kPktRecv) then b.dropPkt p p.pipe 0x0A
      else (handed.endLaunch p 0).toQueue { p with launch := none } (.deliver (mdDstInst m) (mdDstWq m))
  else if k = 3 then (b.endLaunch p 0).punt { p with launch := none }
  else if k = 4 then (b.endLaunch p 0).flood { p with launch := none }
  else b.dropPkt p p.pipe 0x01

end Sys2Proof.Machine
end

