-- ==== Sys2Proof/Machine/Egress.lean ====
section
/-! DEFINITION. From the queue to the wire or to the host: scheduling and shaping (R281), egress stages (R276), launch-time
queues (R341 to R344), PTP changes and transmit stamps (R334 to R340), transmission (R40), delivery (R285, R286), aging
(R280). -/

namespace Sys2Proof.Machine
open Sys2Proof

/-! Scheduling. -/

/-- Bytes a frame takes from its buckets: the frame with its FCS, preamble and gap (R281), in units of 1/8000 byte. -/
def shaperCost (p : Packet) : Int := (p.frame.length + 4 + 20 : Nat) * 8000

/-- A bucket brought to the present: rate Mbit/s fills `rate` units of 1/8000 byte each ns, capped at burst. -/
def fillBucket (tokens : Int) (rate burst dt : Nat) : Int := min (tokens + (rate * dt : Nat)) ((burst * 8000 : Nat) : Int)

/-- Class settings of a queue's head packet (R277). -/
def Blk.headClass (b : Blk) (l tc : Nat) (p : Packet) : TmClass := classOf (b.tmAt p.epoch l) tc

/-- Tokens of a class now. -/
def Blk.classTokens (b : Blk) (l tc : Nat) (p : Packet) (q : TmQueue) : Int :=
  let c := b.headClass l tc p
  fillBucket q.tokens c.rate c.burst (b.mono - q.asOf)

/-- Tokens of a port now. -/
def Blk.portTokens (b : Blk) (l : Nat) (p : Packet) : Int :=
  let t := b.tmAt p.epoch l
  let s := b.hog.portTokens.get (0, 0) l
  fillBucket s.1 t.rate t.burst (b.mono - s.2)

/-- Frames held in launch queue `tc` of a port. -/
def EthLane.launchHeld (x : EthLane) (tc : Nat) : List Packet := x.launch.filter (fun p => mdTc p.md == tc)

/-- A class may send its head now: not paused, tokens in both buckets, room in its launch queue (R281, R341), and no packet of
the class before it still in the egress stages (R265, R272). -/
def Blk.mayServe (b : Blk) (l tc : Nat) : Bool :=
  let q := b.tmq (.port l tc)
  match q.pkts with
  | [] => false
  | p :: _ =>
    !b.paused q &&
    ((b.headClass l tc p).rate == 0 || decide (8000 ≤ b.classTokens l tc p q)) &&
    ((b.tmAt p.epoch l).rate == 0 || decide (8000 ≤ b.portTokens l p)) &&
    !(p.launch.isSome && 64 ≤ ((b.lane l).launchHeld tc).length) &&
    !(b.egressWaits.any (fun w => w.port == some l && mdTc w.pkt.md == tc))

/-- Level of a class: that of its head packet. -/
def Blk.levelOf (b : Blk) (l tc : Nat) : Nat :=
  match (b.tmq (.port l tc)).pkts with
  | [] => 8
  | p :: _ => (b.headClass l tc p).level

/-- Rounds of deficit round-robin until a head of `len` bytes fits a deficit. -/
def drrRounds (deficit : Int) (quantum len : Nat) : Nat := ((((len : Int) - deficit).toNat) + quantum - 1) / max quantum 1

/-- Deficit round-robin over candidates (key, quantum, head length): rounds are run until one fits; the first that fits is
served. Answers its key and the rounds. -/
def drrPick (b : Blk) (l : List (QKey × Nat × Nat)) : Option (QKey × Nat) :=
  match l with
  | [] => none
  | x :: r =>
    let need := fun y : QKey × Nat × Nat => drrRounds (b.tmq y.1).deficit y.2.1 y.2.2
    let k := r.foldl (fun m y => min m (need y)) (need x)
    (l.find? (fun y => need y ≤ k)).map (fun y => (y.1, k))

/-- Credit every candidate with the rounds run, and take the length of the one served; an emptied queue keeps none. -/
def Blk.drrCharge (b : Blk) (l : List (QKey × Nat × Nat)) (served : QKey) (rounds len : Nat) : Blk :=
  l.foldl (fun b y =>
    let q := b.tmq y.1
    let d := q.deficit + (rounds * y.2.1 : Nat) - (if y.1 = served then (len : Int) else 0)
    b.setTmq { q with deficit := if q.pkts.isEmpty then 0 else d }) b

/-- Candidates of a port: eligible classes of the lowest level that has one (R281). -/
def Blk.portCandidates (b : Blk) (l : Nat) : List (QKey × Nat × Nat) :=
  let cs := (List.range 8).filter (fun c => b.mayServe l c)
  let lv := cs.foldl (fun m c => min m (b.levelOf l c)) 8
  (cs.filter (fun c => b.levelOf l c == lv)).map (fun c =>
    let p := (b.tmq (.port l c)).pkts.head?
    (.port l c, (p.map (fun p => (b.headClass l c p).weight * 256)).getD 256, (p.map (·.frame.length)).getD 0))

/-- Take tokens of the class and of the port for a frame (R281). -/
def Blk.takeTokens (b : Blk) (l tc : Nat) (p : Packet) : Blk :=
  let q := b.tmq (.port l tc)
  let ct := b.classTokens l tc p q
  let pt := b.portTokens l p
  let b1 := if (b.headClass l tc p).rate = 0 then b
    else b.setTmq { q with tokens := ct - shaperCost p, asOf := b.mono }
  if (b.tmAt p.epoch l).rate = 0 then b1
  else { b1 with hog := { b1.hog with portTokens := b1.hog.portTokens.put (0, 0) l (pt - shaperCost p, b.mono) } }

/-! Launch queues. -/

/-- Grains in one second. -/
def secGrains : Nat := 1000000000 * 65536

/-- The launch time lies out of range: more than 1 s ahead (R343). -/
def Blk.launchFar (b : Blk) (t : Nat) : Bool := decide (b.clk.tb + secGrains < t)

/-- The frame that has come to the head of a launch queue is late if its launch time has passed (R342). -/
def Blk.lateHead (b : Blk) (l tc : Nat) : Blk :=
  b.updLane l (fun x =>
    let head := (x.launchHeld tc).head?
    { x with launch := x.launch.map (fun p =>
        if head = some p ∧ (p.launch.map (fun t => decide (t < b.clk.tb))).getD false then { p with late := true } else p) })

/-- A frame out of range is dropped and counted; its entry completes with 0x0540 (R343, R344). -/
def Blk.launchDrop (b : Blk) (l : Nat) (p : Packet) : Blk :=
  (b.updLane l (fun x => { x with launchRange := sat64 x.launchRange 1 })).endLaunch p 0x0540

/-- A launch frame enters its launch queue (R341, R343). -/
def Blk.launchEnter (b : Blk) (l : Nat) (p : Packet) : Blk :=
  match p.launch with
  | none => b
  | some t =>
    if b.launchFar t then b.launchDrop l p
    else
      let empty := ((b.lane l).launchHeld (mdTc p.md)).isEmpty
      b.updLane l (fun x => { x with launch := x.launch ++ [{ p with late := empty && decide (t < b.clk.tb) }] })

/-- At a step, held frames out of range are dropped, and what comes to the head of a queue by that is judged there (R342,
R343). -/
def Blk.launchCheck (b : Blk) : Blk :=
  (b.eth.map (·.1)).foldl (fun b l =>
    let far := (b.lane l).launch.filter (fun p => (p.launch.map b.launchFar).getD false)
    let moved := (List.range 8).filter (fun c => (((b.lane l).launchHeld c).head?.map far.contains).getD false)
    let b1 := b.updLane l (fun x => { x with launch := x.launch.filter (fun p => !far.contains p) })
    moved.foldl (fun b c => b.lateHead l c) (far.foldl (fun b p => b.launchDrop l p) b1)) b

/-- The head of a launch queue, where it is due (R342). -/
def Blk.dueHead (b : Blk) (l tc : Nat) : Option Packet :=
  ((b.lane l).launchHeld tc).head?.filter (fun p => (p.launch.map (fun t => decide (t ≤ b.clk.tb))).getD true)

/-- A head of a launch queue is due: it goes to the MAC (R342). -/
def Blk.launchDue (b : Blk) (l tc : Nat) : Blk :=
  match b.dueHead l tc with
  | none => b
  | some p =>
    let b1 := b.updLane l (fun x => { x with launch := x.launch.erase p, launchLate := sat64 x.launchLate (if p.late then 1 else 0) })
    Blk.lateHead { b1 with hog := { b1.hog with egress := b1.hog.egress ++ [{ lane := l, pkt := p }] } } l tc

/-! Egress. -/

/-- Update a UDP checksum over IPv6 for bytes changed from `old` to `new` (R340). -/
def udpFix (c : Nat) (old new : List Byte) : Nat :=
  65535 - onesSum ([65535 - c] ++ (words16 old).map (fun w => 65535 - w) ++ words16 new)

/-- A stamp of R377: seconds modulo 4 and nanoseconds. -/
def Clock.stamp (c : Clock) : Nat := c.tb / secGrains % 4 * 1000000000 + c.tb / 65536 % 1000000000

/-- tx_ts, step_count and hold of a transport packet that leaves stage 31 (R375, R377). -/
def stampFrame (x : TxStamp) (c : Clock) (f : List Byte) : List Byte :=
  let h := x.hdr
  let hold := match x.answer with
    | none => 0
    | some (rx, st) => if st = c.stepCount then (c.stamp + 4000000000 - rx % 4000000000) % 4000000000 else 0xFFFFFFFF
  let g := spliceAt (spliceAt (spliceAt f (h + 4) (bytesLE 1 c.stepCount.toNat)) (h + 16) (bytesBE 4 c.stamp)) (h + 44)
    (bytesBE 4 hold)
  if x.ipv6 then spliceAt g (h - 2) (bytesBE 2 (udpFix (beAt f (h - 2) 2) (slice f h 48) (slice g h 48))) else g

/-- A transport packet leaves stage 31: its stamps are written, and its unit is timed by the present step count (R392). -/
def Blk.stampTx (b : Blk) (st : Option TxStamp) : Blk :=
  match st with
  | some { unit := some (n, msn, off), .. } =>
    b.updQp n (fun q => { q with out := q.out.map (fun m =>
      if m.msn = msn then { m with units := m.units.map (fun u => if u.off = off then { u with step := b.clk.stepCount } else u) }
      else m) })
  | _ => b

/-- Entries of the HBM table of a pipeline whose slot holds poison, by uid (R487). -/
def Blk.badEntries (b : Blk) (pipe epoch : Nat) : List Nat :=
  if b.poison.isEmpty then []
  else
    let g := b.cfgOf epoch
    (((g.entries pipe).filter (fun e =>
      ((g.prog pipe).map (·.tables)).getD [] |>.any (fun t => t.table == e.table && t.hbm))).filter
        (fun e => b.anyPoison (hbmSlotLoc pipe e.table e.key) 64)).map (·.uid)

/-- What the stages of a pipeline find around a packet (R277, R293, R295). -/
def Blk.around (b : Blk) (pipe epoch : Nat) (miss : Bool) : Around :=
  let x := b.pipe pipe
  { entries := (b.cfgOf epoch).entries pipe, learned := x.learn.entries, hitAction := x.learn.hitAction.toNat,
    undef := if x.undef then some b.fresh else none, hbmMiss := miss, bad := b.badEntries pipe epoch }

/-- Commit what the stages did beside the packet: hits, counters (R271, R273, R302). -/
def Blk.commitRun (b : Blk) (pipe : Nat) (r : RunSt) : Blk :=
  let b0 := if (b.pipe pipe).undef then b.drawn 64 else b
  let b1 := b0.updPipe pipe (fun x => { x with
    entPackets := r.hits.foldl (fun t u => t.upd 0 u (fun n => sat64 n 1)) x.entPackets,
    entBytes := r.hits.foldl (fun t u => t.upd 0 u (fun n => sat64 n (mdFrameLen r.md))) x.entBytes,
    learn := r.lhits.foldl (fun u k => u.touch k) x.learn })
  let b1 := (List.range r.bad).foldl (fun b _ => b.errUncorr 7 (halfOfPipe pipe)) b1
  ((b1.pipeCnt pipe 5 r.skips).pipeCnt pipe 2 r.issued).pipeCnt pipe 3 r.replays

/-- What follows egress stage 31: checksum, stamps, the association named, the length check (R276, R314, R316); then the
frame goes to the MAC, or to its launch queue (R341). -/
def Blk.egressEnd (b : Blk) (l : Nat) (p : Packet) : Blk :=
  let pipe := pipeOfLane l
  if mdDest p.md = 0 then b.dropPkt p pipe (mdReason p.md)
  else
    let f0 := if mdCsum p.md then ipv4Checksum p.frame p.md else p.frame
    let f1 := match p.stamp with
      | some x => stampFrame x b.clk f0
      | none => f0
    let b2 := b.stampTx p.stamp
    let res := match mdSa p.md with
      | some k => b2.saOut pipe p.epoch k p.md f1
      | none => .pass b2 f1
    match res with
    | .lost b3 reason => b3.dropPkt p pipe reason
    | .pass b3 f2 =>
      let q := { p with frame := f2, stamp := none }
      if ((b.cfgOf p.epoch).port l).maxFrame.toNat < f2.length + 4 then b3.dropPkt q pipe 0x08
      else if p.launch.isSome then b3.launchEnter l q
      else { b3 with hog := { b3.hog with egress := b3.hog.egress ++ [{ lane := l, pkt := q }] } }

/-- A packet runs the egress stages of its port's pipeline from stage `n` on; a lookup of the HBM table that misses the cache
holds it beside the lanes (R272, R276). `start` is the packet as it left its queue. -/
def Blk.egressRun (b : Blk) (l : Nat) (start p : Packet) (n : Nat) (preds : List (Nat × Nat)) (miss : Bool) : Blk :=
  let pipe := pipeOfLane l
  match (b.cfgOf p.epoch).prog pipe with
  | none => b.dropPkt p pipe 0x04
  | some g =>
    let r := runStages g (b.around pipe p.epoch miss) (egressStages.filter (n ≤ ·)) { frame := p.frame, md := p.md, preds := preds }
    let b1 := b.commitRun pipe r
    let q := { p with frame := r.frame, md := r.md }
    match r.waitAt with
    | some k => b1.updPipe pipe (fun x => { x with
        waits := x.waits ++ [{ pkt := q, stage := k, start := start, port := some l, preds := r.preds }] })
    | none => b1.egressEnd l q

/-- A packet enters egress: CE is set, and the stages run (R276, R284). -/
def Blk.egress (b : Blk) (l : Nat) (p : Packet) (miss : Bool) : Blk :=
  let q := { p with frame := if p.markCe then setCe p.frame p.md else p.frame, markCe := false }
  b.egressRun l q q 20 [] miss

/-- The port chooses its next frame (R281) and the frame runs the egress stages; `miss`: a lookup of the HBM table misses the
cache. A launch head that is due goes first (R342). -/
def Blk.schedule (b : Blk) (l : Nat) (miss : Bool) : Blk :=
  if (b.cfg.port l).life ≠ .enabled ∨ (b.lane l).link ≠ .up ∨ (List.range 8).any (fun c => (b.dueHead l c).isSome) = true then b
  else
    let cs := b.portCandidates l
    match drrPick b cs with
    | none => b
    | some (k, rounds) =>
      let q := b.tmq k
      match q.pkts, k with
      | p :: rest, .port _ tc =>
        let b1 := b.takeTokens l tc p
        let b2 := b1.setTmq { b1.tmq k with pkts := rest }
        let b3 := b2.drrCharge cs k rounds p.frame.length
        (b3.egress l p miss).pfcSettle
      | _, _ => b

/-! PTP (R337 to R340). -/

/-- Where a PTP message lies in a frame, and how: 0 Ethernet, 1 UDP over IPv4, 2 UDP over IPv6, with the UDP offset. -/
def ptpAt (x : EthLane) (f : List Byte) : Option (Nat × Nat × Nat) :=
  let t := beAt f 12 2
  let (o, t) := if t = 0x8100 then (18, beAt f 16 2) else (14, t)
  if t = 0x88F7 then (if x.l2 then some (o, 0, 0) else none)
  else
    match l4At f, ipAt f with
    | some (17, u, _), some (_, k) =>
      if beAt f (u + 2) 2 = 319 ∧ ((k = 1 ∧ x.udp4 = true) ∨ (k = 2 ∧ x.udp6 = true)) then some (u + 8, k, u) else none
    | _, _ => none

/-- One-step Sync and transparent correction of an event frame that is sent at timebase `tb` (R338, R339). -/
def ptpChange (x : EthLane) (m : Meta) (encrypted : Bool) (tb : Nat) (f : List Byte) : List Byte :=
  match ptpAt x f with
  | none => f
  | some (o, kind, u) =>
    let mt := (byteAt f o).toNat % 16
    if encrypted ∨ 3 < mt ∨ 256 < o + 34 ∨ f.length < o + 34 then f
    else
      let sec := tb / secGrains
      let ns := tb / 65536 % 1000000000
      let grain := tb % 65536
      let oneStep := x.oneStep ∧ mt = 0 ∧ (byteAt f (o + 6)).toNat / 2 % 2 = 0 ∧ o + 44 ≤ f.length
      let corr := x.tcCorr ∧ ¬ mdFromHost m
      let dsec := (sec + 65536 - mdGet m 416 16) % 65536
      let resid : Int := ((dsec * 1000000000 + ns : Nat) : Int) - (mdGet m 384 30 : Nat)
      let add : Int := (if oneStep then (grain : Int) else 0) + (if corr then resid * 65536 + grain else 0)
      let cf := unsigned 64 (signed 64 (beAt f (o + 8) 8) + add)
      let f1 := if oneStep ∨ corr then spliceAt f (o + 8) (bytesBE 8 cf) else f
      let f2 := if oneStep then spliceAt f1 (o + 34) (bytesBE 6 (sec % 2 ^ 48) ++ bytesBE 4 ns) else f1
      if f2 = f then f
      else if kind = 1 then spliceAt f2 (u + 6) [0, 0]
      else if kind = 2 then
        spliceAt f2 (u + 6) (bytesBE 2 (udpFix (beAt f (u + 6) 2) (slice f (o + 8) 36) (slice f2 (o + 8) 36)))
      else f2

/-- Add a transmit timestamp record, or count it lost (R336). -/
def Blk.txStamp (b : Blk) (l id : Nat) : Blk :=
  let x := b.lane l
  if 16 ≤ x.ts.length then
    let b1 := b.updLane l (fun x => { x with tsOverflow := true, tsOvf := sat64 x.tsOvf 1 })
    if x.tsOverflow then b1 else b1.devEvent 0x0028 l 0 0 (sat64 x.tsOvf 1)
  else
    let r : TsRec := { id := BitVec.ofNat 16 id, sec := b.clk.tb / secGrains, nsec := b.clk.tb / 65536 % 1000000000,
                       grain := b.clk.tb % 65536, step := b.clk.stepCount }
    let b1 := b.updLane l (fun x => { x with ts := x.ts ++ [r] })
    if x.tEnable then b1.unitEvent x.tThread.toNat x.tUnit.toNat else b1

/-- Bytes of a frame, FCS included, that must be in the transmit FIFO before its first is sent (R40). -/
def startBytes (n : Nat) : Nat := min n 2048

/-- The MAC sends the next frame handed to it, its FCS added, while the link is UP (R313, R314); its cells are freed. The MAC
starts with the whole frame or 2 KiB in its FIFO, so only a longer frame can meet an underrun: it ends with an invalid code
group after what was sent by then, a free part of 2 KiB or more (R40). The stamp is of its first bit, sent either way (R336). -/
def Blk.transmit (b : Blk) (l : Nat) (underrun : Bool) : Blk :=
  match b.hog.egress.find? (fun e => e.lane == l) with
  | none => b
  | some e =>
    let p := e.pkt
    let b1 := { b with hog := { b.hog with egress := b.hog.egress.erase e } }
    let n := p.frame.length + 4
    let f := ptpChange (b1.lane l) p.md (mdSa p.md).isSome b1.clk.tb p.frame
    let id := if p.origin.wq.isSome then p.tsId.toNat else mdHostMeta p.md % 65536
    let stamped := fun b : Blk => if mdTsReq p.md then b.txStamp l id else b
    if (b.lane l).link ≠ .up then (b1.dropPkt p (pipeOfLane l) 0x09).pfcSettle
    else if underrun ∧ startBytes n < n then
      let sent := startBytes n + b1.freeVal.toNat % (n - startBytes n)
      ((stamped (((b1.drawn 1).emit (.cutFrame l ((f ++ fcsOf f).take sent))).ethCnt l 9 1)).endLaunch p 0).pfcSettle
    else
      let b2 := ((b1.emit (.frame l (f ++ fcsOf f))).ethCnt l 7 1).ethCnt l 8 (f.length + 4)
      ((stamped b2).endLaunch p 0).pfcSettle

/-! Delivery to hosts. -/

/-- The oldest posted buffer of a PKT_RECV queue: the oldest started entry (R286). -/
def Wq.posted (w : Wq) : Option Entry := w.fetched.find? (fun e => match e.st with
  | .started => true
  | _ => false)

/-- Delivery queues of a host port that hold a packet and a receive buffer. -/
def Blk.deliverCandidates (b : Blk) (h : Nat) : List (QKey × Nat × Nat) :=
  b.hog.queues.filterMap (fun q =>
    match q.key, q.pkts with
    | .deliver i w, p :: _ =>
      if ((b.instCfg i).inst i).port.toNat = h ∧ ((b.wq i w).posted).isSome = true ∧ b.instCan i = true then
        some (.deliver i w, 256, p.frame.length) else none
    | _, _ => none)

/-- Host port `h` delivers one packet (R281, R286); `ans` is whether the buffer's address translates. -/
def Blk.deliver (b : Blk) (h : Nat) (ans : Ans) : Blk :=
  let cs := b.deliverCandidates h
  match drrPick b cs with
  | some (.deliver i w, rounds) =>
    match (b.tmq (.deliver i w)).pkts, (b.wq i w).posted with
    | p :: rest, some e =>
      let b1 := (b.setTmq { b.tmq (.deliver i w) with pkts := rest }).drrCharge cs (.deliver i w) rounds p.frame.length
      if rvLen e.raw < p.frame.length then (b1.dropPkt p (pipeOfPort h) 0x0B).pfcSettle
      else
        match b1.writeFault i (rvAddr e.raw) ans with
        | some (st, b2) => (b2.finish i w e.idx st (cplOf e w st 0)).pfcSettle
        | none =>
          let ts := !p.origin.fromHost
          let c := { cplOf e w 0 p.frame.length with
            tsValid := ts,
            tail := if ts then mdGet p.md 384 30 + mdGet p.md 416 16 * 2 ^ 32 + mdGet p.md 432 8 * 2 ^ 48 else 0 }
          ((b1.instWrite i 1 (rvAddr e.raw) p.frame).finish i w e.idx 0 c).pfcSettle
    | _, _ => b
  | _ => b

/-! Aging (R280). -/

/-- A head packet is older than 1 ms. -/
def Blk.aged (b : Blk) (p : Packet) : Bool := decide (1000000 < b.mono - p.born)

/-- The oldest packet that waits for the bridge to a destination is dropped as AGED when it is older than 1 ms (R18, R280). -/
def Blk.ageCrossing (b : Blk) (d : CrossDest) (pipe : Nat) : Blk :=
  match b.hog.crossing.find? (fun c => c.dest == d) with
  | none => b
  | some c =>
    if b.aged c.pkt then
      (Blk.dropPkt { b with hog := { b.hog with crossing := b.hog.crossing.erase c } } c.pkt pipe 0x07).pfcSettle
    else b

/-- The head of a queue is dropped as AGED when it is older than 1 ms, and the head of what waits for the bridge to it. -/
def Blk.ageQueue (b : Blk) (k : QKey) : Blk :=
  let b0 := b.ageCrossing (.queue k) (b.pipeOfQ k)
  match (b0.tmq k).pkts with
  | [] => b0
  | p :: rest =>
    if b0.aged p then ((b0.setTmq { b0.tmq k with pkts := rest }).dropPkt p (b0.pipeOfQ k) 0x07).pfcSettle else b0

/-- The same for the queue of a transport engine (R372), and for what waits for the bridge to it. -/
def Blk.ageEngine (b00 : Blk) (h : Half) : Blk :=
  let b := match b00.hog.crossing.find? (fun c => c.dest == .engine h) with
    | some c => b00.ageCrossing (.engine h) c.pkt.pipe
    | none => b00
  match (match h with
    | .west => b.rmt.inWest
    | .east => b.rmt.inEast) with
  | [] => b
  | p :: rest =>
    if b.aged p then
      let b1 := match h with
        | .west => { b with rmt := { b.rmt with inWest := rest } }
        | .east => { b with rmt := { b.rmt with inEast := rest } }
      (b1.dropPkt p p.pipe 0x07).pfcSettle
    else b

end Sys2Proof.Machine
end

