-- ==== Sys2Proof/Machine/Pipes.lean ====
section
/-! DEFINITION. Ingress of a pipeline: the parser, the ingress stages, a wait for the HBM table, and the way on (R21, R25,
R264 to R277, R298, R350). -/

namespace Sys2Proof.Machine
open Sys2Proof

/-- The learn that the stages just run requested, if it is the packet's first (R298). -/
def Blk.learnRequest (b : Blk) (pipe : Nat) (before after : Option (Option (Nat × Nat))) : Blk :=
  match before, after with
  | none, some k =>
    let b1 := if (b.pipe pipe).undef then b.drawn 1 else b
    b1.updLearn pipe (fun u => u.request k (b.staticKey pipe))
  | _, _ => b

/-- Run the ingress stages of a packet from stage `n` on, as far as they go: a learn is requested as it commits; the packet
waits beside the lanes for HBM, or ingress ends with its destination (R272, R276, R298). `start` is the packet as the parser
left it. -/
def Blk.ingressRun (b : Blk) (start p : Packet) (n : Nat) (preds : List (Nat × Nat)) (learn : Option (Option (Nat × Nat)))
    (miss : Bool) : Blk :=
  match (b.cfgOf p.epoch).prog p.pipe with
  | none => b.dropPkt p p.pipe 0x04
  | some g =>
    let r := runStages g (b.around p.pipe p.epoch miss) (ingressFrom n)
      { frame := p.frame, md := p.md, preds := preds, learn := learn }
    let b1 := (b.commitRun p.pipe r).learnRequest p.pipe learn r.learn
    let q := { p with frame := r.frame, md := r.md }
    match r.waitAt with
    | some k => b1.updPipe p.pipe (fun x => { x with
        waits := x.waits ++ [{ pkt := q, stage := k, start := start, preds := r.preds, learn := r.learn }] })
    | none => b1.dispatch q

/-- Two frames come from one source: an Ethernet port, or a host's WQ (R265). -/
def sameSource (x y : Origin) : Bool :=
  if x.fromHost then y.fromHost && x.hostPort == y.hostPort && x.inst == y.inst && x.wq.map (·.1) == y.wq.map (·.1)
  else !y.fromHost && x.lane == y.lane

/-- A frame enters the parser of pipeline `p`, bound to its epoch there (R25). -/
def Blk.parserEntry (b : Blk) (p : Nat) (frame : List Byte) (e : Entering) (tsId : W16) (launch : Option Nat)
    (stamp : Option TxStamp) (miss : Bool) : Blk :=
  let uid := b.hog.nextUid
  let b1 := ({ b with hog := { b.hog with nextUid := uid + 1 } }).pipeCnt p 0 1
  let pkt : Packet := { uid := uid, frame := frame, md := 0, epoch := e.epoch, pipe := p, origin := e.origin,
                        born := b.mono, tsId := tsId, launch := launch, stamp := stamp }
  if ¬ b1.serving (halfOfPipe p) then b1.dropPkt pkt p 0x02
  else
    match (b1.cfgOf e.epoch).prog p with
    | none => b1.dropPkt pkt p 0x04
    | some g =>
      let out := parseFrame g.parse frame
      let m := mkMeta e frame out b1.freeVal.toNat
      let b2 := if out.status.isNone then b1.drawn 1 else b1
      let b3 := if mdParse m = 0 then b2 else b2.pipeCnt p 6 1
      b3.ingressRun { pkt with md := m } { pkt with md := m } 0 [] none miss

/-- The UDP destination port of a transport packet is that of its own epoch (R373). -/
def rmtPort (st : Option TxStamp) (port : Nat) (f : List Byte) : List Byte :=
  match st with
  | none => f
  | some x =>
    let u := x.hdr - 8
    if x.fixedPort then f
    else
    let g := spliceAt f (u + 2) (bytesBE 2 port)
    if x.ipv6 then spliceAt g (u + 6) (bytesBE 2 (udpFix (beAt f (u + 6) 2) (slice f (u + 2) 2) (slice g (u + 2) 2))) else g

/-- A packet of the source waits for the HBM table: later ones stay before the parser (R265, R272). -/
def Blk.sourceHeld (b : Blk) (p : Nat) (o : Origin) : Bool := (b.pipe p).waits.any (fun w => w.port.isNone && sameSource w.pkt.origin o)

/-- The next frame of a source enters its ingress pipeline; `miss`: a lookup of the HBM table misses the cache. -/
def Blk.ingress (b : Blk) (src : InSrc) (miss : Bool) : Blk :=
  match src with
  | .eth l =>
    match (b.lane l.val).rx with
    | [] => b
    | f :: rest =>
      let p := pipeOfLane l.val
      let o : Origin := { lane := l.val }
      if b.sourceHeld p o then b
      else
        (b.updLane l.val (fun x => { x with rx := rest })).parserEntry p f.frame
          { epoch := f.epoch.getD (b.epochAt p), origin := o, rxNsec := f.rxNsec, rxSecLo := f.rxSecLo,
            stepCount := f.step } 0 none none miss
  | .host h =>
    match b.hostFrames.get [] h.val with
    | [] => b
    | f :: rest =>
      let p := pipeOfPort h.val
      if b.sourceHeld p f.origin then b
      else
        let epoch := b.epochAt p
        Blk.parserEntry { b with hostFrames := b.hostFrames.put [] h.val rest } p
          (rmtPort f.stamp (b.cfgOf epoch).udpPort f.frame)
          { epoch := epoch, origin := f.origin, hostMeta := f.hostMeta, tc := f.tc, tsReq := f.tsReq }
          f.tsId f.launch f.stamp miss

/-- The lookup that the oldest waiting packet of a pipeline waits for returns, and the packet goes on (R272). -/
def Blk.hbmReturn (b : Blk) (p : Nat) : Blk :=
  match (b.pipe p).waits with
  | [] => b
  | w :: rest =>
    let b1 := b.updPipe p (fun x => { x with waits := rest })
    match w.port with
    | none => b1.ingressRun w.start w.pkt w.stage w.preds w.learn false
    | some l => (b1.egressRun l w.start w.pkt w.stage w.preds false).pfcSettle

/-- A lane of a pipeline faults: the packets it had taken, here a free choice among those that wait beside the lanes, are
replayed from the Hogshead under their own epoch, and each is counted; their stages run again from the first (R30). A packet
that has run its stages since holds no lane any more. -/
def Blk.laneReplay (b : Blk) (p : Nat) : Blk :=
  let ws := (b.pipe p).waits
  let hit := (List.range ws.length).map (fun k => (Config.freeBits (b.fresh + k)).getLsbD 0)
  ((b.drawn ws.length).updPipe p (fun x => { x with
    waits := (ws.zip hit).map (fun w =>
      if w.2 then { w.1 with pkt := w.1.start, stage := if w.1.port.isSome then 20 else 0, preds := [] } else w.1) })).pipeCnt p 4
    (hit.filter id).length

/-! Punt rings (R287). -/

/-- A write of PUNT_CI: ignored where it would pass PUNT_PI. -/
def Pipe.puntCiWrite (x : Pipe) (v : W32) : Pipe :=
  if (v - x.puntCi).toNat ≤ (x.puntPi - x.puntCi).toNat then { x with puntCi := v } else x

/-- A write of PUNT_BASE: the base is written only while enable is 0, and enabling sets both indices to 0. -/
def Pipe.puntBaseWrite (x : Pipe) (v : W64) : Pipe :=
  if x.puntEnable then { x with puntEnable := v.getLsbD 0 }
  else if v.getLsbD 0 then { x with puntEnable := true, puntBase := v.extractLsb' 12 52, puntPi := 0, puntCi := 0 }
  else { x with puntBase := v.extractLsb' 12 52 }

end Sys2Proof.Machine
end

