-- ==== Sys2Proof/Machine/Access.lean ====
section
/-! DEFINITION. A thread's access to system space: ranges, service regions, poison, the directory, and the line an
instruction is fetched from (R191 to R194, R200, R212, R213, R220). -/

namespace Sys2Proof.Machine
open Sys2Proof

/-- What an address range of system space is (R191). -/
inductive Space where
  /-- Normal memory: the location of its first byte. -/
  | mem (loc : Nat)
  /-- Device space: the address. -/
  | dev (addr : Nat)
  | none
  deriving DecidableEq, Repr

/-- The 48 bits of an address that are decoded. -/
def addr48 (a : W64) : Nat := a.toNat % 2 ^ 48

/-- The space of `n` bytes from address `a` for a core of a half; firmware memory is the half's own copy (R191, R192). -/
def spaceOf (h : Half) (a n : Nat) : Space :=
  if a + n ≤ hbmSize then .mem a
  else if hbmEast ≤ a ∧ a + n ≤ hbmEast + hbmSize then .mem a
  else if fwBase ≤ a ∧ a + n ≤ fwBase + fwSize then .mem (a + h.code * fwSize)
  else if devBase ≤ a ∧ a + n ≤ devBase + 0x100000000 then .dev a
  else .none

/-- Permissions an access needs. -/
structure Need where
  r : Bool := false
  w : Bool := false
  x : Bool := false
  dev : Bool := false
  deriving DecidableEq, Repr

/-- A service region covers every byte of the access with the permissions needed (R194). -/
def Region.covers (g : Region) (a n : Nat) (k : Need) : Bool :=
  g.valid && decide (g.base.toNat ≤ a / 4096) && decide ((a + n - 1) / 4096 ≤ g.limit.toNat) &&
  (!k.r || g.r) && (!k.w || g.w) && (!k.x || g.x) && (!k.dev || g.dev)

/-- A thread may make the access: system code always, service code by its regions (R194). -/
def Thread.allowed (x : Thread) (a n : Nat) (k : Need) : Bool :=
  x.sr.priv || (List.range 16).any (fun j => (x.sr.regions.get {} j).covers a n k)

/-- Poison over the bytes of a normal access. -/
def Blk.spacePoison (b : Blk) (s : Space) (n : Nat) : Bool :=
  match s with
  | .mem loc => b.anyPoison loc n
  | _ => false

/-- Cause of a refused data access of `n` bytes, checked in the order alignment, range and permission, poison (R220).
`align`: the multiple the address must be; `poison`: the access consumes poison. -/
def Blk.accessCause (b : Blk) (t a n align : Nat) (k : Need) (atomic poison : Bool) : Option Nat :=
  if a % align ≠ 0 then some 3
  else
    match spaceOf (halfOfThread t) a n with
    | .none => some 4
    | .dev _ =>
      if atomic || (n != 4 && n != 8) then some 5
      else if (b.thread t).allowed a n { k with dev := true } then none else some 4
    | .mem loc =>
      if !(b.thread t).allowed a n k then some 4
      else if poison && b.anyPoison loc n then some 10
      else none

/-- Home half of an HBM location (R14). -/
def homeOfLoc (loc : Nat) : Half := if loc < hbmEast then .west else .east

/-- Directory state of a line after a core of half `h` has read or written it (R213). -/
def dirNext (st : Nat) (home h : Half) (write : Bool) : Nat :=
  if write then (if h = home then 1 else 3)
  else if h = home then (if st = 2 then 2 else 1)
  else if st = 3 then 3 else 2

/-- A core of half `h` touches the lines of `n` bytes from a location of HBM (R213). -/
def Blk.dirTouch (b : Blk) (h : Half) (loc n : Nat) (write : Bool) : Blk :=
  if fwBase ≤ loc ∨ n = 0 then b
  else
    { b with dir := (List.range ((loc + n - 1) / 64 + 1 - loc / 64)).foldl (fun d k =>
        d.put 0 (loc / 64 + k) (dirNext (d.get 0 (loc / 64 + k)) (homeOfLoc loc) h write)) b.dir }

/-- Load `n` bytes of normal memory, little-endian. -/
def Blk.loadMem (b : Blk) (loc n : Nat) : Nat := natLE (b.bytes loc n)

/-- Store bytes of normal memory; whole granules lose their poison (R200); tables that it hits are undefined (R293). -/
def Blk.storeMem (b : Blk) (h : Half) (loc : Nat) (l : List Byte) : Blk :=
  (((b.setBytes loc l).setPoison (wholeGranules loc l.length) false).tablesHit loc l.length).dirTouch h loc l.length true

/-- Lines that an L1I of 64 KiB holds (R1, chapter 08). -/
def l1iLines : Nat := 1024

/-- The line at a location enters the L1I of a core, unless it holds it (R212). A full L1I first gives up one line: the
spec does not say which, so a free value chooses. -/
def Blk.fillL1i (b : Blk) (c loc : Nat) : Blk :=
  let held := (b.core c).l1i
  if held.any (fun e => e.1 == loc / 64) then b
  else
    let line := some (entOf (b.bytes (loc / 64 * 64) 64))
    if held.length < l1iLines then b.updCore c (fun x => { x with l1i := x.l1i.put none (loc / 64) line })
    else
      (b.drawn 1).updCore c (fun x => { x with
        l1i := Tab.put none (held.eraseIdx (b.freeVal.toNat % held.length)) (loc / 64) line })

/-- A line leaves the L1I of every core (R224). -/
def Blk.iinv (b : Blk) (line : Nat) : Blk := b.l1iDrop line (line + 1)

/-- What a fetch from a location leaves in the caches: the directory sees the read of an HBM line, and the core's L1I
holds it (R212, R213). -/
def Blk.fetched (b : Blk) (t loc : Nat) : Blk := (b.dirTouch (halfOfThread t) loc 4 false).fillL1i (t / 8) loc

/-- A core of half `h` reaches a line of HBM through the coherence class of the bridge: the line must come from the other
half, or its copies there must be called back (R16, R213). -/
def Blk.lineCrosses (b : Blk) (h : Half) (line : Nat) (write : Bool) : Bool :=
  let st := b.dir.get 0 line
  if fwBase ≤ line * 64 then false
  else if homeOfLoc (line * 64) = h then st == 3 || (write && st == 2)
  else if write then st != 3 else st != 2 && st != 3

/-- Cause of a refused fetch at an address: range, device space, x permission, poison (R191, R194, R200). -/
def Blk.fetchCause (b : Blk) (t a : Nat) : Option Nat :=
  match spaceOf (halfOfThread t) a 4 with
  | .mem loc =>
    if !(b.thread t).allowed a 4 { x := true } then some 4
    else if b.anyPoison loc 4 then some 10 else none
  | _ => some 4

end Sys2Proof.Machine
end

