-- ==== Sys2Proof/Machine/Pol.lean ====
section
/-! DEFINITION. The Polward instructions as decoded operations, and their 32-bit words: the encoder and the decoder of
the formats and code tables of chapter 09 (R215, R216). -/

namespace Sys2Proof.Machine
open Sys2Proof

/-- Two-operand ALU funcs, major 0x00. -/
inductive AluF where
  | add | sub | and_ | or_ | xor_ | andn | sll | srl | sra | ror | slt | sltu | min_ | max_ | minu | maxu | cmovz | cmovnz
  deriving DecidableEq, Repr
/-- One-operand ALU funcs, major 0x00. -/
inductive Alu1F where
  | clz | ctz | popc | bswap | sextw
  deriving DecidableEq, Repr
/-- ALUW funcs, major 0x01. -/
inductive AluwF where
  | addw | subw | sllw | srlw | sraw
  deriving DecidableEq, Repr
/-- MULDIV funcs, major 0x02. -/
inductive MulF where
  | mul | mulh | mulhu | div | divu | rem | remu | mulw
  deriving DecidableEq, Repr
/-- Register-immediate operations, majors 0x04 to 0x09 and 0x0D. -/
inductive ImmF where
  | addi | andi | ori | xori | slti | sltiu | addiw
  deriving DecidableEq, Repr
/-- SHIFTI, by imm16[7:6]. -/
inductive ShF where
  | slli | srli | srai | rori
  deriving DecidableEq, Repr
/-- Conditional branches, majors 0x18 to 0x1D. -/
inductive BrF where
  | beq | bne | blt | bge | bltu | bgeu
  deriving DecidableEq, Repr
/-- Atomic aop. -/
inductive AmoF where
  | swap | add | and_ | or_ | xor_ | max_ | min_ | maxu | minu | cas
  deriving DecidableEq, Repr
/-- FENCE kind. -/
inductive FenF where
  | ld | st | all
  deriving DecidableEq, Repr
/-- CACHE op. -/
inductive CacheF where
  | iinv | prefetch | zero
  deriving DecidableEq, Repr
/-- THR.CTL op. -/
inductive ThrF where
  | start | stop | resume
  deriving DecidableEq, Repr
/-- Bit-field instructions. -/
inductive BfF where
  | bfx | bfxs | bfi
  deriving DecidableEq, Repr

/-- One decoded Polward instruction. -/
inductive Pol where
  | alu (f : AluF) (rd ra rb : GReg)
  | alu1 (f : Alu1F) (rd ra : GReg)
  | aluw (f : AluwF) (rd ra rb : GReg)
  | mul (f : MulF) (rd ra rb : GReg)
  | imm (f : ImmF) (rd ra : GReg) (i : W16)
  | shift (f : ShF) (rd ra : GReg) (sh : Fin 64)
  | lui (rd : GReg) (i : W16)
  | auipc (rd : GReg) (i : W16)
  | jalr (rd ra : GReg) (i : W16)
  | jal (rd : GReg) (d : BitVec 21)
  | br (f : BrF) (ra rb : GReg) (d : W16)
  | load (sz : Sz) (sx acq : Bool) (rd ra : GReg) (d : BitVec 12)
  | store (sz : Sz) (rel : Bool) (rs ra : GReg) (d : BitVec 12)
  | amo (f : AmoF) (o : AmoOrd) (rd ra rb : GReg)
  | srRd (rd : GReg) (n : BitVec 12)
  | srWr (ra : GReg) (n : BitVec 12)
  | syscall (code : BitVec 12)
  | brk (code : BitVec 12)
  | eret
  | fence (k : FenF)
  | cache (f : CacheF) (ra : GReg)
  | wait (rd ra : GReg) (timer : Bool)
  | chOpen (rd ra : GReg) (n : Fin 64)
  | chPut (rs ra : GReg) (w : Fin 8)
  | chSend (rd ra : GReg) (len : Fin 128)
  | chRecv (rd ra : GReg)
  | chGet (rd ra : GReg) (w : Fin 8)
  | thrCtl (f : ThrF) (rd ra rb : GReg)
  | hwLd (sz : Sz) (sx : Bool) (rd ra : GReg) (off : Fin 512)
  | hwSt (sz : Sz) (rs ra : GReg) (off : Fin 512)
  | hwFill (rd ra : GReg) (n : Fin 1024)
  | hwSpill (ra : GReg) (n : Fin 1024)
  | csumHw (rd ra : GReg) (n : Fin 1024)
  | csumReg (rd ra : GReg)
  | crcReg (sz : Sz) (rd ra : GReg)
  | crcHw (rd ra : GReg) (n : Fin 1024)
  | bf (f : BfF) (rd ra : GReg) (pos : Fin 64) (wm1 : Fin 64)
  | fhash (rd ra rb : GReg)
  | hwLen (rd : GReg)
  deriving DecidableEq, Repr

/-- A count of window bytes is 1 to 512. -/
def cntOk (n : Fin 1024) : Bool := decide (1 ≤ n.val ∧ n.val ≤ 512)

/-- The operand values that the entry of the instruction allows (R216). -/
def Pol.wf : Pol → Bool
  | .load .d sx _ _ _ _ => !sx
  | .chSend _ _ n => decide (1 ≤ n.val ∧ n.val ≤ 64)
  | .hwFill _ _ n => cntOk n
  | .hwSpill _ n => cntOk n
  | .csumHw _ _ n => cntOk n
  | .crcHw _ _ n => cntOk n
  | .bf _ _ _ p w => decide (p.val + w.val + 1 ≤ 64)
  | _ => true

/-! Code tables. -/

def AluF.func : AluF → Nat
  | .add => 0x001 | .sub => 0x002 | .and_ => 0x003 | .or_ => 0x004 | .xor_ => 0x005 | .andn => 0x006 | .sll => 0x007
  | .srl => 0x008 | .sra => 0x009 | .ror => 0x00A | .slt => 0x00B | .sltu => 0x00C | .min_ => 0x00D | .max_ => 0x00E
  | .minu => 0x00F | .maxu => 0x010 | .cmovz => 0x011 | .cmovnz => 0x012
def Alu1F.func : Alu1F → Nat
  | .clz => 0x018 | .ctz => 0x019 | .popc => 0x01A | .bswap => 0x01B | .sextw => 0x01C
def AluwF.func : AluwF → Nat
  | .addw => 0x001 | .subw => 0x002 | .sllw => 0x007 | .srlw => 0x008 | .sraw => 0x009
def MulF.func : MulF → Nat
  | .mul => 1 | .mulh => 2 | .mulhu => 3 | .div => 4 | .divu => 5 | .rem => 6 | .remu => 7 | .mulw => 8
def ImmF.major : ImmF → Nat
  | .addi => 0x04 | .andi => 0x05 | .ori => 0x06 | .xori => 0x07 | .slti => 0x08 | .sltiu => 0x09 | .addiw => 0x0D
def ShF.code : ShF → Nat
  | .slli => 0 | .srli => 1 | .srai => 2 | .rori => 3
def BrF.major : BrF → Nat
  | .beq => 0x18 | .bne => 0x19 | .blt => 0x1A | .bge => 0x1B | .bltu => 0x1C | .bgeu => 0x1D
def AmoF.aop : AmoF → Nat
  | .swap => 0 | .add => 1 | .and_ => 2 | .or_ => 3 | .xor_ => 4 | .max_ => 5 | .min_ => 6 | .maxu => 7 | .minu => 8
  | .cas => 9
def szCode : Sz → Nat
  | .b => 0 | .h => 1 | .w => 2 | .d => 3
def ordCode : AmoOrd → Nat
  | .none => 0 | .acq => 1 | .rel => 2 | .acqRel => 3
def FenF.code : FenF → Nat
  | .ld => 1 | .st => 2 | .all => 3
def CacheF.code : CacheF → Nat
  | .iinv => 0 | .prefetch => 1 | .zero => 2
def ThrF.code : ThrF → Nat
  | .start => 0 | .stop => 1 | .resume => 2
def BfF.xop : BfF → Nat
  | .bfx => 8 | .bfxs => 9 | .bfi => 10

/-- Put a word together: major, [25:21], [20:16], [15:0] (R215). -/
def pack (major x y z : Nat) : W32 := BitVec.ofNat 32 (major * 67108864 + x * 2097152 + y * 65536 + z)

/-- The same for format X: xop and ximm. -/
def packX (major x y xop ximm : Nat) : W32 := pack major x y (xop * 4096 + ximm)

/-- 1 or 0. -/
def b01 (c : Bool) : Nat := if c then 1 else 0

/-- The word of an instruction (chapter 09). -/
def encodePol : Pol → W32
  | .alu f rd ra rb => pack 0x00 rd.val ra.val (rb.val * 2048 + f.func)
  | .alu1 f rd ra => pack 0x00 rd.val ra.val f.func
  | .aluw f rd ra rb => pack 0x01 rd.val ra.val (rb.val * 2048 + f.func)
  | .mul f rd ra rb => pack 0x02 rd.val ra.val (rb.val * 2048 + f.func)
  | .imm f rd ra i => pack f.major rd.val ra.val i.toNat
  | .shift f rd ra sh => pack 0x0A rd.val ra.val (f.code * 64 + sh.val)
  | .lui rd i => pack 0x0B rd.val 0 i.toNat
  | .auipc rd i => pack 0x0C rd.val 0 i.toNat
  | .jalr rd ra i => pack 0x0E rd.val ra.val i.toNat
  | .jal rd d => pack 0x1E rd.val 0 d.toNat
  | .br f ra rb d => pack f.major ra.val rb.val d.toNat
  | .load sz sx acq rd ra d => pack 0x10 rd.val ra.val (szCode sz * 16384 + b01 sx * 8192 + b01 acq * 4096 + d.toNat)
  | .store sz rel rs ra d => pack 0x11 rs.val ra.val (szCode sz * 16384 + b01 rel * 4096 + d.toNat)
  | .amo f o rd ra rb => pack 0x12 rd.val ra.val (f.aop * 4096 + rb.val * 128 + ordCode o * 32)
  | .srRd rd n => packX 0x3F rd.val 0 0x0 n.toNat
  | .srWr ra n => packX 0x3F 0 ra.val 0x1 n.toNat
  | .syscall c => packX 0x3F 0 0 0x2 c.toNat
  | .brk c => packX 0x3F 0 0 0x3 c.toNat
  | .eret => packX 0x3F 0 0 0x4 0
  | .fence k => packX 0x3F 0 0 0x5 k.code
  | .cache f ra => packX 0x3F 0 ra.val 0x6 f.code
  | .wait rd ra t => packX 0x3F rd.val ra.val 0x7 (b01 t)
  | .chOpen rd ra n => packX 0x3F rd.val ra.val 0x8 n.val
  | .chPut rs ra w => packX 0x3F rs.val ra.val 0x9 w.val
  | .chSend rd ra n => packX 0x3F rd.val ra.val 0xA n.val
  | .chRecv rd ra => packX 0x3F rd.val ra.val 0xB 0
  | .chGet rd ra w => packX 0x3F rd.val ra.val 0xC w.val
  | .thrCtl f rd ra rb => packX 0x3F rd.val ra.val 0xD (rb.val * 128 + f.code)
  | .hwLd sz sx rd ra off => packX 0x3E rd.val ra.val 0x0 (b01 sx * 2048 + szCode sz * 512 + off.val)
  | .hwSt sz rs ra off => packX 0x3E rs.val ra.val 0x1 (szCode sz * 512 + off.val)
  | .hwFill rd ra n => packX 0x3E rd.val ra.val 0x2 n.val
  | .hwSpill ra n => packX 0x3E 0 ra.val 0x3 n.val
  | .csumHw rd ra n => packX 0x3E rd.val ra.val 0x4 n.val
  | .csumReg rd ra => packX 0x3E rd.val ra.val 0x5 0
  | .crcReg sz rd ra => packX 0x3E rd.val ra.val 0x6 (szCode sz)
  | .crcHw rd ra n => packX 0x3E rd.val ra.val 0x7 n.val
  | .bf f rd ra p w => packX 0x3E rd.val ra.val f.xop (w.val * 64 + p.val)
  | .fhash rd ra rb => packX 0x3E rd.val ra.val 0xB (rb.val * 128)
  | .hwLen rd => packX 0x3E rd.val 0 0xC 0

/-! Decoding, total: every word is an instruction or none (R216). -/

def aluOf (f : Nat) : Option AluF :=
  [AluF.add, .sub, .and_, .or_, .xor_, .andn, .sll, .srl, .sra, .ror, .slt, .sltu, .min_, .max_, .minu, .maxu, .cmovz,
   .cmovnz].find? (fun x => x.func == f)
def alu1Of (f : Nat) : Option Alu1F := [Alu1F.clz, .ctz, .popc, .bswap, .sextw].find? (fun x => x.func == f)
def aluwOf (f : Nat) : Option AluwF := [AluwF.addw, .subw, .sllw, .srlw, .sraw].find? (fun x => x.func == f)
def mulOf (f : Nat) : Option MulF :=
  [MulF.mul, .mulh, .mulhu, .div, .divu, .rem, .remu, .mulw].find? (fun x => x.func == f)
def immOf (m : Nat) : Option ImmF :=
  [ImmF.addi, .andi, .ori, .xori, .slti, .sltiu, .addiw].find? (fun x => x.major == m)
def brOf (m : Nat) : Option BrF := [BrF.beq, .bne, .blt, .bge, .bltu, .bgeu].find? (fun x => x.major == m)
def amoOf (a : Nat) : Option AmoF :=
  [AmoF.swap, .add, .and_, .or_, .xor_, .max_, .min_, .maxu, .minu, .cas].find? (fun x => x.aop == a)
def szOf (n : Nat) : Sz := if n = 0 then .b else if n = 1 then .h else if n = 2 then .w else .d
def ordOf (n : Nat) : AmoOrd := if n = 0 then .none else if n = 1 then .acq else if n = 2 then .rel else .acqRel
def shOf (n : Nat) : ShF := if n = 0 then .slli else if n = 1 then .srli else if n = 2 then .srai else .rori

/-- General register of a 5-bit field. -/
def gr (w : W32) (lo : Nat) : GReg := Fin.ofNat 32 (fieldNat w lo 5)

/-- The SYS words: rd, ra, xop, ximm. -/
def decodeSys (rd ra : GReg) (xop x : Nat) : Option Pol :=
  if xop = 0x0 then (if ra = 0 then some (.srRd rd (BitVec.ofNat 12 x)) else none)
  else if xop = 0x1 then (if rd = 0 then some (.srWr ra (BitVec.ofNat 12 x)) else none)
  else if xop = 0x2 then (if rd = 0 ∧ ra = 0 then some (.syscall (BitVec.ofNat 12 x)) else none)
  else if xop = 0x3 then (if rd = 0 ∧ ra = 0 then some (.brk (BitVec.ofNat 12 x)) else none)
  else if xop = 0x4 then (if rd = 0 ∧ ra = 0 ∧ x = 0 then some .eret else none)
  else if xop = 0x5 then
    (if rd = 0 ∧ ra = 0 then
      (if x = 1 then some (.fence .ld) else if x = 2 then some (.fence .st) else if x = 3 then some (.fence .all) else none)
     else none)
  else if xop = 0x6 then
    (if rd = 0 then
      (if x = 0 then some (.cache .iinv ra) else if x = 1 then some (.cache .prefetch ra)
       else if x = 2 then some (.cache .zero ra) else none)
     else none)
  else if xop = 0x7 then (if x < 2 then some (.wait rd ra (x == 1)) else none)
  else if xop = 0x8 then (if x < 64 then some (.chOpen rd ra (Fin.ofNat 64 x)) else none)
  else if xop = 0x9 then (if x < 8 then some (.chPut rd ra (Fin.ofNat 8 x)) else none)
  else if xop = 0xA then (if 1 ≤ x ∧ x ≤ 64 then some (.chSend rd ra (Fin.ofNat 128 x)) else none)
  else if xop = 0xB then (if x = 0 then some (.chRecv rd ra) else none)
  else if xop = 0xC then (if x < 8 then some (.chGet rd ra (Fin.ofNat 8 x)) else none)
  else if xop = 0xD then
    let rb : GReg := Fin.ofNat 32 (x / 128)
    let op := x % 128
    (if op = 0 then some (.thrCtl .start rd ra rb) else if op = 1 then some (.thrCtl .stop rd ra rb)
     else if op = 2 then some (.thrCtl .resume rd ra rb) else none)
  else none

/-- The PKT words: rd, ra, xop, ximm. -/
def decodePkt (rd ra : GReg) (xop x : Nat) : Option Pol :=
  if xop = 0x0 then some (.hwLd (szOf (x / 512 % 4)) (x / 2048 == 1) rd ra (Fin.ofNat 512 x))
  else if xop = 0x1 then (if x < 2048 then some (.hwSt (szOf (x / 512)) rd ra (Fin.ofNat 512 x)) else none)
  else if xop = 0x2 then (if 1 ≤ x ∧ x ≤ 512 then some (.hwFill rd ra (Fin.ofNat 1024 x)) else none)
  else if xop = 0x3 then (if rd = 0 ∧ 1 ≤ x ∧ x ≤ 512 then some (.hwSpill ra (Fin.ofNat 1024 x)) else none)
  else if xop = 0x4 then (if 1 ≤ x ∧ x ≤ 512 then some (.csumHw rd ra (Fin.ofNat 1024 x)) else none)
  else if xop = 0x5 then (if x = 0 then some (.csumReg rd ra) else none)
  else if xop = 0x6 then (if x < 4 then some (.crcReg (szOf x) rd ra) else none)
  else if xop = 0x7 then (if 1 ≤ x ∧ x ≤ 512 then some (.crcHw rd ra (Fin.ofNat 1024 x)) else none)
  else if xop = 0x8 ∨ xop = 0x9 ∨ xop = 0xA then
    (if x % 64 + x / 64 + 1 ≤ 64 then
      some (.bf (if xop = 0x8 then .bfx else if xop = 0x9 then .bfxs else .bfi) rd ra (Fin.ofNat 64 (x % 64)) (Fin.ofNat 64 (x / 64)))
     else none)
  else if xop = 0xB then (if x % 128 = 0 then some (.fhash rd ra (Fin.ofNat 32 (x / 128))) else none)
  else if xop = 0xC then (if ra = 0 ∧ x = 0 then some (.hwLen rd) else none)
  else none

/-- The instruction a word spells, or none where it raises ILLEGAL_INSTR (R215, R216). -/
def decodePol (w : W32) : Option Pol :=
  let major := fieldNat w 26 6
  let x := gr w 21
  let y := gr w 16
  let z := fieldNat w 0 16
  let i : W16 := BitVec.ofNat 16 z
  if major = 0x00 then
    match aluOf (z % 2048) with
    | some f => some (.alu f x y (gr w 11))
    | none =>
      match alu1Of (z % 2048) with
      | some f => if z / 2048 = 0 then some (.alu1 f x y) else none
      | none => none
  else if major = 0x01 then (aluwOf (z % 2048)).map (fun f => .aluw f x y (gr w 11))
  else if major = 0x02 then (mulOf (z % 2048)).map (fun f => .mul f x y (gr w 11))
  else if major = 0x0A then
    (if z < 256 then some (.shift (shOf (z / 64)) x y (Fin.ofNat 64 z)) else none)
  else if major = 0x0B then (if y = 0 then some (.lui x i) else none)
  else if major = 0x0C then (if y = 0 then some (.auipc x i) else none)
  else if major = 0x0E then some (.jalr x y i)
  else if major = 0x10 then
    let sz := szOf (z / 16384)
    let sx := z / 8192 % 2 == 1
    (if sz = .d ∧ sx then none else some (.load sz sx (z / 4096 % 2 == 1) x y (BitVec.ofNat 12 z)))
  else if major = 0x11 then
    (if z / 8192 % 2 = 0 then some (.store (szOf (z / 16384)) (z / 4096 % 2 == 1) x y (BitVec.ofNat 12 z)) else none)
  else if major = 0x12 then
    (if z % 32 = 0 then
      (amoOf (z / 4096)).map (fun f => .amo f (ordOf (z / 32 % 4)) x y (Fin.ofNat 32 (z / 128 % 32)))
     else none)
  else if major = 0x1E then some (.jal x (BitVec.ofNat 21 (fieldNat w 0 21)))
  else if major = 0x3E then decodePkt x y (z / 4096) (z % 4096)
  else if major = 0x3F then decodeSys x y (z / 4096) (z % 4096)
  else
    match immOf major with
    | some f => some (.imm f x y i)
    | none => (brOf major).map (fun f => .br f x y i)

end Sys2Proof.Machine
end

