-- ==== Sys2Proof/Machine/Alu.lean ====
section
/-! DEFINITION. What the integer, bit-field, checksum, hash and atomic operations compute (R217, R219, R221, R233 to
R236): exact integers narrowed at the end. -/

namespace Sys2Proof.Machine
open Sys2Proof

/-- Sign extension of the low 32 bits. -/
def sext32 (x : W64) : W64 := (x.setWidth 32).signExtend 64

/-- Rotate right by `n` mod 64. -/
def rotr (x : W64) (n : Nat) : W64 := x.rotateRight (n % 64)

/-- Trailing zeros of a word, 0 to 64. -/
def ctz64 (x : W64) : Nat := ((List.range 64).find? (fun k => x.getLsbD k)).getD 64
/-- Leading zeros of a word, 0 to 64. -/
def clz64 (x : W64) : Nat := ((List.range 64).find? (fun k => x.getLsbD (63 - k))).getD 64
/-- Set bits of a word. -/
def popc64 (x : W64) : Nat := ((List.range 64).filter (fun k => x.getLsbD k)).length
/-- The bytes of a word reversed. -/
def bswap64 (x : W64) : W64 := BitVec.ofNat 64 (natBE (bytesLE 8 x.toNat))

/-- A one-bit result. -/
def one64 (c : Bool) : W64 := if c then 1 else 0

/-- Result of a two-operand ALU func; `old` is rd before (R219). -/
def aluVal (f : AluF) (old x y : W64) : W64 :=
  match f with
  | .add => x + y
  | .sub => x - y
  | .and_ => x &&& y
  | .or_ => x ||| y
  | .xor_ => x ^^^ y
  | .andn => x &&& ~~~y
  | .sll => x <<< (y.toNat % 64)
  | .srl => x >>> (y.toNat % 64)
  | .sra => x.sshiftRight (y.toNat % 64)
  | .ror => rotr x y.toNat
  | .slt => one64 (x.slt y)
  | .sltu => one64 (x.ult y)
  | .min_ => if x.slt y then x else y
  | .max_ => if x.slt y then y else x
  | .minu => if x.ult y then x else y
  | .maxu => if x.ult y then y else x
  | .cmovz => if y = 0 then x else old
  | .cmovnz => if y = 0 then old else x

/-- Result of a one-operand ALU func. -/
def alu1Val (f : Alu1F) (x : W64) : W64 :=
  match f with
  | .clz => BitVec.ofNat 64 (clz64 x)
  | .ctz => BitVec.ofNat 64 (ctz64 x)
  | .popc => BitVec.ofNat 64 (popc64 x)
  | .bswap => bswap64 x
  | .sextw => sext32 x

/-- Result of an ALUW func. -/
def aluwVal (f : AluwF) (x y : W64) : W64 :=
  let a := x.setWidth 32
  match f with
  | .addw => sext32 (x + y)
  | .subw => sext32 (x - y)
  | .sllw => (a <<< (y.toNat % 32)).signExtend 64
  | .srlw => (a >>> (y.toNat % 32)).signExtend 64
  | .sraw => (a.sshiftRight (y.toNat % 32)).signExtend 64

/-- Signed quotient rounded toward zero, and remainder with the sign of the dividend (R219). -/
def divS (x y : W64) : W64 := if y = 0 then BitVec.allOnes 64 else BitVec.ofInt 64 (x.toInt.tdiv y.toInt)
def remS (x y : W64) : W64 := if y = 0 then x else BitVec.ofInt 64 (x.toInt.tmod y.toInt)

/-- Result of a MULDIV func. -/
def mulVal (f : MulF) (x y : W64) : W64 :=
  match f with
  | .mul => x * y
  | .mulh => BitVec.ofInt 64 (x.toInt * y.toInt / 2 ^ 64)
  | .mulhu => BitVec.ofNat 64 (x.toNat * y.toNat / 2 ^ 64)
  | .div => divS x y
  | .divu => if y = 0 then BitVec.allOnes 64 else BitVec.ofNat 64 (x.toNat / y.toNat)
  | .rem => remS x y
  | .remu => if y = 0 then x else BitVec.ofNat 64 (x.toNat % y.toNat)
  | .mulw => (x.setWidth 32 * y.setWidth 32).signExtend 64

/-- Result of a register-immediate operation. -/
def immVal (f : ImmF) (x : W64) (i : W16) : W64 :=
  let s := i.signExtend 64
  let z := i.setWidth 64
  match f with
  | .addi => x + s
  | .andi => x &&& z
  | .ori => x ||| z
  | .xori => x ^^^ z
  | .slti => one64 (x.slt s)
  | .sltiu => one64 (x.ult s)
  | .addiw => sext32 (x + s)

/-- Result of SHIFTI. -/
def shVal (f : ShF) (x : W64) (n : Nat) : W64 :=
  match f with
  | .slli => x <<< n
  | .srli => x >>> n
  | .srai => x.sshiftRight n
  | .rori => rotr x n

/-- sext(imm16 << 16), of LUI and AUIPC. -/
def upper (i : W16) : W64 := sext32 (i.setWidth 64 <<< 16)

/-- A conditional branch is taken (chapter 09, "Major opcodes"). -/
def brTaken (f : BrF) (x y : W64) : Bool :=
  match f with
  | .beq => x == y
  | .bne => x != y
  | .blt => x.slt y
  | .bge => !x.slt y
  | .bltu => x.ult y
  | .bgeu => !x.ult y

/-- What memory becomes under an atomic: `c` is rd before, the compare value of CAS (R221). -/
def amoVal (f : AmoF) (old x c : W64) : W64 :=
  match f with
  | .swap => x
  | .add => old + x
  | .and_ => old &&& x
  | .or_ => old ||| x
  | .xor_ => old ^^^ x
  | .max_ => if old.slt x then x else old
  | .min_ => if old.slt x then old else x
  | .maxu => if old.ult x then x else old
  | .minu => if old.ult x then old else x
  | .cas => if old = c then x else old

/-- The value a load of `n` bytes writes: zero- or sign-extended. -/
def loadVal (n : Nat) (sx : Bool) (v : Nat) : W64 :=
  if sx then BitVec.ofInt 64 (signed (8 * n) v) else BitVec.ofNat 64 v

/-- Bit-field extract and insert (R235): `old` is rd before. -/
def bfVal (f : BfF) (old x : W64) (pos width : Nat) : W64 :=
  let v := fieldNat x pos width
  match f with
  | .bfx => BitVec.ofNat 64 v
  | .bfxs => BitVec.ofInt 64 (signed width v)
  | .bfi =>
    let m := BitVec.ofNat 64 ((2 ^ width - 1) * 2 ^ pos)
    (old &&& ~~~m) ||| BitVec.ofNat 64 (x.toNat % 2 ^ width * 2 ^ pos)

/-- One flow-hash step (R236). -/
def fhashVal (old x y : W64) : W64 :=
  let h := (old ^^^ x) * 0x9E3779B97F4A7C15
  let h := h ^^^ (h >>> 29)
  let h := (h ^^^ y) * 0xBF58476D1CE4E5B9
  h ^^^ (h >>> 32)

/-- Ones-complement sum of words into rd[15:0] (R233). -/
def csumVal (old : W64) (ws : List Nat) : W64 := BitVec.ofNat 64 (onesSum (old.toNat % 65536 :: ws))

/-- CRC32C update of rd[31:0] over bytes (R234). -/
def crcVal (old : W64) (l : List Byte) : W64 := (crcUpd (old.setWidth 32) l).setWidth 64

end Sys2Proof.Machine
end

