-- ==== Sys2Proof/Machine/SysRegs.lean ====
section
/-! DEFINITION. The system registers of a thread and of its core: who may read and write each, and what a read and a
write do (R195, R243). -/

namespace Sys2Proof.Machine
open Sys2Proof

/-- What a privilege may do with a system register. -/
inductive SrAcc where
  | no
  | ro
  | rw
  deriving DecidableEq, Repr

/-- Service and system access of a register number; `none` where the index does not list it (R195, R243). -/
def srAccess (n : Nat) : Option (SrAcc × SrAcc) :=
  if n = 0x000 then some (.ro, .ro)
  else if n = 0x001 then some (.ro, .rw)
  else if 0x002 ≤ n ∧ n ≤ 0x007 then some (.no, .rw)
  else if n = 0x008 then some (.no, .ro)
  else if n = 0x009 then some (.no, .rw)
  else if n = 0x010 then some (.ro, .rw)
  else if n = 0x011 ∨ n = 0x012 then some (.rw, .rw)
  else if n = 0x013 then some (.ro, .ro)
  else if n = 0x014 then some (.rw, .rw)
  else if 0x020 ≤ n ∧ n ≤ 0x03F then some (.no, .rw)
  else if n = 0x040 then some (.ro, .rw)
  else if 0x048 ≤ n ∧ n ≤ 0x04B then some (.ro, .rw)
  else if n = 0x04C ∨ n = 0x04D then some (.ro, .ro)
  else if n = 0x050 then some (.no, .rw)
  else if n = 0x060 then some (.ro, .ro)
  else none

/-- Cause of a refused read: none where it is allowed (R195). PMC[n] is readable by service code while svc_read is 1. -/
def Thread.srReadCause (x : Thread) (n : Nat) : Option Nat :=
  match srAccess n with
  | none => some 1
  | some (svc, _) =>
    if x.sr.priv then none
    else if svc = .no ∨ (0x048 ≤ n ∧ n ≤ 0x04B ∧ !x.pmc.svcRead) then some 2 else none

/-- Cause of a refused write (R189, R195): a register that system code may write is refused to service code with
PRIV_INSTR, a read-only one is illegal. -/
def Thread.srWriteCause (x : Thread) (n : Nat) : Option Nat :=
  match srAccess n with
  | none => some 1
  | some (svc, sys) =>
    if sys = .ro then (if !x.sr.priv ∧ svc = .no then some 2 else some 1)
    else if x.sr.priv then none
    else if svc = .rw then none else some 2

/-- Replace the bits of `mask` by free ones: RSV bits, whose reads are undefined (R6). -/
def rsv64 (free : W64) (mask : Nat) (v : Nat) : W64 :=
  let m := BitVec.ofNat 64 mask
  (BitVec.ofNat 64 v &&& ~~~m) ||| (free &&& m)

/-- RSV bits of a system register (R195, R243). -/
def srRsv (n : Nat) (baseMono : Bool) : Nat :=
  let above := fun k : Nat => 2 ^ 64 - 2 ^ k
  if n = 0x000 then above 19
  else if n = 0x001 then above 4
  else if n = 0x003 then above 25
  else if n = 0x005 then 0xFFE
  else if n = 0x010 then above 2
  else if n = 0x011 then (if baseMono then 0 else 0xC0000000)
  else if n = 0x012 then above 1
  else if n = 0x013 then above 12
  else if n = 0x014 then above 58
  else if 0x020 ≤ n ∧ n ≤ 0x03F then (if n % 2 = 0 then 0xFE0 else 0xFFF)
  else if n = 0x040 then above 42
  else if n = 0x050 then above 38
  else 0

/-- The named fields of a system register, RSV bits 0 (R195, R201, R209, R214, R243). -/
def Blk.srFields (b : Blk) (t n : Nat) : Nat :=
  let x := b.thread t
  let c := b.core (t / 8)
  if n = 0x000 then t + t % 8 * 2 ^ 9 + t / 8 * 2 ^ 12 + (halfOfThread t).code * 2 ^ 18
  else if n = 0x001 then
    (if x.sr.priv then 1 else 0) + (if x.sr.prevPriv then 2 else 0) + (if x.sr.exc then 4 else 0) +
      (if c.pavane then 8 else 0)
  else if n = 0x002 then x.sr.epc.toNat
  else if n = 0x003 then x.sr.cause.toNat + x.sr.detail.toNat * 2 ^ 8 + (if x.sr.fromSystem then 2 ^ 24 else 0)
  else if n = 0x004 then x.sr.eaddr.toNat
  else if n = 0x005 then (if x.sr.evecValid then 1 else 0) + x.sr.evecBase.toNat * 4096
  else if n = 0x006 then x.sr.scratch0.toNat
  else if n = 0x007 then x.sr.scratch1.toNat
  else if n = 0x008 then x.sr.migPc.toNat
  else if n = 0x009 then
    (if x.sr.migValid then 1 else 0) + (if x.sr.migWasExc then 2 else 0) + (if x.sr.migOldPriv then 4 else 0)
  else if n = 0x010 then (if c.pavane then 1 else 0) + (if c.switchTo.isSome then 2 else 0)
  else if n = 0x011 then x.wt.tcmp.toNat
  else if n = 0x012 then (if x.wt.baseMono then 1 else 0)
  else if n = 0x013 then x.wt.wakeCause.toNat
  else if n = 0x014 then x.wt.evmask.toNat
  else if 0x020 ≤ n ∧ n ≤ 0x03F then
    let r := x.sr.regions.get {} ((n - 0x020) / 2)
    if n % 2 = 0 then
      (if r.valid then 1 else 0) + (if r.r then 2 else 0) + (if r.w then 4 else 0) + (if r.x then 8 else 0) +
        (if r.dev then 16 else 0) + r.base.toNat * 4096
    else r.limit.toNat * 4096
  else if n = 0x040 then
    x.pmc.sel.toNat + x.pmc.enable.toNat * 2 ^ 32 + (if x.pmc.svcRead then 2 ^ 36 else 0) +
      (if x.pmc.svcOnly then 2 ^ 37 else 0) + x.pmc.overflow.toNat * 2 ^ 38
  else if 0x048 ≤ n ∧ n ≤ 0x04B then x.pmc.count.get 0 (n - 0x048)
  else if n = 0x04C then c.rounds.toNat
  else if n = 0x04D then c.instrs.toNat
  else if n = 0x050 then
    c.replays.toNat + c.lastThread.toNat * 2 ^ 32 + c.lastPath.toNat * 2 ^ 35 + (if c.spared then 2 ^ 37 else 0)
  else b.mono

/-- The value that a read of a system register gives (R6, R195). -/
def Blk.srRead (b : Blk) (t n : Nat) : W64 :=
  rsv64 b.freeVal (srRsv n (b.thread t).wt.baseMono) (b.srFields t n)

/-- A write of TMODE.mode: a change is requested, to take effect at the first qualifying round (R244). -/
def Blk.tmodeWrite (b : Blk) (c : Nat) (pavane : Bool) : Blk :=
  b.updCore c (fun x => { x with switchTo := if x.pavane = pavane then none else some pavane, switchAt := b.mono })

/-- A write of MIG_STATE: with valid 0 both move registers are 0; with no move valid they stay 0 (R201). -/
def SysRegs.migWrite (s : SysRegs) (v : W64) : SysRegs :=
  if s.migValid && v.getLsbD 0 then { s with migWasExc := v.getLsbD 1, migOldPriv := v.getLsbD 2 }
  else { s with migValid := false, migWasExc := false, migOldPriv := false, migPc := 0 }

/-- The effect of a write of a system register that is allowed (R195, R222, R243). -/
def Blk.srWrite (b : Blk) (t n : Nat) (v : W64) : Blk :=
  let sr := fun f : SysRegs → SysRegs => b.updThread t (fun x => { x with sr := f x.sr })
  let wt := fun f : Waiting → Waiting => b.updThread t (fun x => { x with wt := f x.wt })
  if n = 0x001 then sr (fun s => { s with priv := v.getLsbD 0, prevPriv := v.getLsbD 1, exc := v.getLsbD 2 })
  else if n = 0x002 then sr (fun s => { s with epc := v })
  else if n = 0x003 then sr (fun s => { s with
    cause := v.extractLsb' 0 8, detail := v.extractLsb' 8 16, fromSystem := v.getLsbD 24 })
  else if n = 0x004 then sr (fun s => { s with eaddr := v })
  else if n = 0x005 then sr (fun s => { s with evecValid := v.getLsbD 0, evecBase := v.extractLsb' 12 52 })
  else if n = 0x006 then sr (fun s => { s with scratch0 := v })
  else if n = 0x007 then sr (fun s => { s with scratch1 := v })
  else if n = 0x009 then sr (fun s => s.migWrite v)
  else if n = 0x010 then b.tmodeWrite (t / 8) (v.getLsbD 0)
  else if n = 0x011 then wt (fun w => { w with tcmp := v })
  else if n = 0x012 then wt (fun w => { w with baseMono := v.getLsbD 0 })
  else if n = 0x014 then wt (fun w => { w with evmask := v.extractLsb' 0 58 })
  else if 0x020 ≤ n ∧ n ≤ 0x03F then
    sr (fun s => { s with regions := s.regions.upd {} ((n - 0x020) / 2) (fun r =>
      if n % 2 = 0 then { r with valid := v.getLsbD 0, r := v.getLsbD 1, w := v.getLsbD 2, x := v.getLsbD 3,
                                 dev := v.getLsbD 4, base := v.extractLsb' 12 52 }
      else { r with limit := v.extractLsb' 12 52 }) })
  else if n = 0x040 then b.updThread t (fun x => { x with pmc := { x.pmc with
    sel := v.extractLsb' 0 32, enable := v.extractLsb' 32 4, svcRead := v.getLsbD 36, svcOnly := v.getLsbD 37,
    overflow := x.pmc.overflow &&& ~~~(v.extractLsb' 38 4) } })
  else if 0x048 ≤ n ∧ n ≤ 0x04B then
    b.updThread t (fun x => { x with pmc := { x.pmc with count := x.pmc.count.put 0 (n - 0x048) v.toNat } })
  else if n = 0x050 then b.updCore (t / 8) (fun c => { c with replays := c.replays &&& ~~~(v.extractLsb' 0 32) })
  else b

/-- A change of issue mode is due: into Pavane mode at the first nanosecond after the write with MONO mod 8 = 0, into
Galliard mode at the round, here the nanosecond, that follows the write (R244). -/
def Blk.switchDue (b : Blk) (c : Nat) : Bool :=
  match (b.core c).switchTo with
  | none => false
  | some m => decide ((b.core c).switchAt < b.mono) && (!m || b.mono % 8 == 0)

/-- The mode in which a core issues at this moment: true is Pavane (R244). -/
def Blk.modeNow (b : Blk) (c : Nat) : Bool := if b.switchDue c then (b.core c).switchTo.getD false else (b.core c).pavane

/-- A change of issue mode that is due takes effect; a Galliard round begins afresh (R244). -/
def Blk.tmodeSwitch (b : Blk) (c : Nat) : Blk :=
  if b.switchDue c then
    b.updCore c (fun x => { x with pavane := x.switchTo.getD x.pavane, switchTo := none, issued := [] })
  else b

end Sys2Proof.Machine
end

