-- ==== Sys2Proof/Machine/Polward.lean ====
section
/-! DEFINITION. The issue of one Polward instruction by a thread: what each decoded operation does to the block, and
what surrounds it (slots, fetch checks, counters, exceptions) (chapters 08 to 10). -/

namespace Sys2Proof.Machine
open Sys2Proof

/-- How an instruction ends. -/
inductive PolRes where
  /-- The block after it; the thread goes on at `pc`. -/
  | done (b : Blk) (pc : W64)
  /-- The block after it; its program counter is already what it must be (WAIT, ERET, a stop of the thread itself). -/
  | stay (b : Blk)
  /-- An exception: cause, detail, EADDR (R197). -/
  | exc (cause detail : Nat) (eaddr : W64)
  deriving DecidableEq, Repr

/-- Device space as a thread reaches it: a read (thread, address, bytes) and a write. -/
structure DevBus where
  read : Blk → Nat → Nat → Nat → Blk × W64
  write : Blk → Nat → Nat → Nat → W64 → Blk

/-- Write rd and go on. -/
def Blk.retire (b : Blk) (t : Nat) (rd : GReg) (v pc : W64) : PolRes := .done (b.setG t rd v) pc

/-- A load (R220). -/
def Blk.doLoad (dev : DevBus) (b : Blk) (t : Nat) (n : Nat) (sx : Bool) (rd : GReg) (a pc : W64) : PolRes :=
  match b.accessCause t (addr48 a) n n { r := true } false true with
  | some c => .exc c 0 a
  | none =>
    match spaceOf (halfOfThread t) (addr48 a) n with
    | .mem loc => (b.dirTouch (halfOfThread t) loc n false).retire t rd (loadVal n sx (b.loadMem loc n)) (pc + 4)
    | .dev x =>
      let (b1, v) := dev.read (b.updThread t (fun y => y.pmcAdd 0x0D 1)) t x n
      b1.retire t rd (loadVal n sx (v.toNat % 2 ^ (8 * n))) (pc + 4)
    | .none => .exc 4 0 a

/-- A store (R220). -/
def Blk.doStore (dev : DevBus) (b : Blk) (t : Nat) (n : Nat) (v a pc : W64) : PolRes :=
  match b.accessCause t (addr48 a) n n { w := true } false false with
  | some c => .exc c 0 a
  | none =>
    match spaceOf (halfOfThread t) (addr48 a) n with
    | .mem loc => .done (b.storeMem (halfOfThread t) loc (bytesLE n v.toNat)) (pc + 4)
    | .dev x => .done (dev.write (b.updThread t (fun y => y.pmcAdd 0x0D 1)) t x n v) (pc + 4)
    | .none => .exc 4 0 a

/-- An atomic (R206, R221). -/
def Blk.doAmo (b : Blk) (t : Nat) (f : AmoF) (rd : GReg) (a x pc : W64) : PolRes :=
  match b.accessCause t (addr48 a) 8 8 { r := true, w := true } true true with
  | some c => .exc c 0 a
  | none =>
    match spaceOf (halfOfThread t) (addr48 a) 8 with
    | .mem loc =>
      let old := BitVec.ofNat 64 (b.loadMem loc 8)
      let new := amoVal f old x (b.greg t rd)
      let b0 := b.updThread t (fun y => y.pmcAdd 0x0E 1)
      let b1 := if f = .cas ∧ old ≠ b.greg t rd then b0.dirTouch (halfOfThread t) loc 8 true
        else b0.storeMem (halfOfThread t) loc (bytesLE 8 new.toNat)
      b1.retire t rd old (pc + 4)
    | _ => .exc 4 0 a

/-- Read a system register, or the exception it raises; `word` is the instruction word (R195). -/
def Blk.doSrRd (b : Blk) (t : Nat) (rd : GReg) (n : Nat) (word pc : W64) : PolRes :=
  match (b.thread t).srReadCause n with
  | some c => .exc c 0 word
  | none => (b.drawn 1).retire t rd (b.srRead t n) (pc + 4)

/-- Write a system register, or the exception it raises (R195, R222). System code leaves its privilege only by ERET, so a
write of STATUS keeps priv at 1 (R189). -/
def Blk.doSrWr (b : Blk) (t : Nat) (v : W64) (n : Nat) (word pc : W64) : PolRes :=
  match (b.thread t).srWriteCause n with
  | some c => .exc c 0 word
  | none => .done (b.srWrite t n (if n = 0x001 then v ||| 1#64 else v)) (pc + 4)

/-- CACHE (R224). -/
def Blk.doCache (b : Blk) (t : Nat) (f : CacheF) (a word pc : W64) : PolRes :=
  match f with
  | .iinv =>
    if !(b.thread t).sr.priv then .exc 2 0 word
    else
      match spaceOf (halfOfThread t) (addr48 a) 1 with
      | .mem _ =>
        let b1 := b.iinv (addr48 a / 64)
        .done (if addr48 a < fwBase then b1 else b1.iinv ((addr48 a + fwSize) / 64)) (pc + 4)
      | _ => .done b (pc + 4)
  | .prefetch => .done b (pc + 4)
  | .zero =>
    match b.accessCause t (addr48 a) 64 64 { w := true } false false with
    | some c => .exc c 0 a
    | none =>
      match spaceOf (halfOfThread t) (addr48 a) 64 with
      | .mem loc => .done (b.storeMem (halfOfThread t) loc (List.replicate 64 0)) (pc + 4)
      | _ => .exc 4 0 a

/-- WAIT: write EVMASK, then go on at once or wait (R225, R248). -/
def Blk.doWait (b : Blk) (t : Nat) (rd : GReg) (mask : W64) (timer : Bool) (word : W64) : PolRes :=
  if mask = 0 ∧ !timer then .exc 1 0 word
  else
    .stay ((b.updThread t (fun x => { x with
      st := .waiting,
      wt := { x.wt with evmask := mask.extractLsb' 0 58, armed := timer, rd := rd, stepped := false, resumed := false,
                        moved := false, since := b.mono } })).evalWait t)

/-- A CH.OPEN that returns rd = 0 registers the thread on the channel (R251). -/
def Blk.register (b : Blk) (t c : Nat) : Blk :=
  b.updChan c (fun ch => { ch with
    registered := if ch.registered.contains t then ch.registered else ch.registered ++ [t] })

/-- CH.OPEN (R227, R251, R252): n = 0 returns the credits held, and rd = 0 registers here too. -/
def Blk.doChOpen (b : Blk) (t : Nat) (rd : GReg) (c n : Nat) (pc : W64) : PolRes :=
  let held := (b.thread t).credits.get 0 c
  if !b.maySend t c then .exc 9 0 (BitVec.ofNat 64 c)
  else if n = 0 then ((b.returnCredits t c).register t c).retire t rd 0 (pc + 4)
  else if held = 0 ∧ 8 ≤ ((b.thread t).credits.filter (fun e => e.1 != c)).length then .exc 9 0 (BitVec.ofNat 64 c)
  else if n ≤ b.freeCredits c ∧ held + n ≤ 32 then
    (b.updThread t (fun x => { x with credits := x.credits.put 0 c (held + n) })).retire t rd 1 (pc + 4)
  else (b.register t c).retire t rd 0 (pc + 4)

/-- CH.PUT (R227). -/
def Blk.doChPut (b : Blk) (t c w : Nat) (v pc : W64) : PolRes :=
  if !b.maySend t c || (b.thread t).credits.get 0 c == 0 then .exc 9 0 (BitVec.ofNat 64 c)
  else .done (b.updThread t (fun x => { x with staging := x.staging.put 0 (c * 8 + w) v })) (pc + 4)

/-- The first `len` bytes of a thread's staging, as the words of a message. -/
def Thread.message (x : Thread) (c len : Nat) : Tab W64 :=
  wordsOf (((List.range 8).flatMap (fun w => bytesLE 8 (x.staging.get 0 (c * 8 + w)).toNat)).take len)

/-- CH.SEND (R227, R228, R251). -/
def Blk.doChSend (b : Blk) (t : Nat) (rd : GReg) (c len : Nat) (pc : W64) : PolRes :=
  let held := (b.thread t).credits.get 0 c
  if !b.maySend t c || held == 0 then .exc 9 0 (BitVec.ofNat 64 c)
  else
    let m : ChMsg := { words := (b.thread t).message c len, len := len, src := halfOfThread t }
    ((b.updChan c (fun ch => { ch with transit := ch.transit ++ [m] })).updThread t (fun x =>
      { x.dropStaging c with credits := x.credits.put 0 c (held - 1) })).retire t rd (BitVec.ofNat 64 (held - 1)) (pc + 4)

/-- CH.RECV (R227, R251). -/
def Blk.doChRecv (b : Blk) (t : Nat) (rd : GReg) (c : Nat) (pc : W64) : PolRes :=
  if !b.mayRecv t c then .exc 9 0 (BitVec.ofNat 64 c)
  else
    match (b.chan c).queue with
    | [] => b.retire t rd 0 (pc + 4)
    | m :: r =>
      (((b.updChan c (fun ch => { ch with queue := r })).updThread t (fun x =>
        { x with recv := x.recv.put {} c { words := m.words, len := m.len } })).creditsRise c).retire t rd
        (BitVec.ofNat 64 m.len) (pc + 4)

/-- CH.GET (R227). -/
def Blk.doChGet (b : Blk) (t : Nat) (rd : GReg) (c w : Nat) (pc : W64) : PolRes :=
  if !b.mayRecv t c then .exc 9 0 (BitVec.ofNat 64 c)
  else b.retire t rd (((b.thread t).recv.get {} c).words.get 0 w) (pc + 4)

/-- THR.CTL (R229, R238): on the issuing thread itself only STOP applies. -/
def Blk.doThrCtl (b : Blk) (t : Nat) (f : ThrF) (rd : GReg) (target : Nat) (start word pc : W64) : PolRes :=
  if !(b.thread t).sr.priv then .exc 2 0 word
  else if target = t then
    if f = .stop then
      .stay ((b.setG t rd 0).updThread t (fun x => { x with pc := pc + 4 }) |>.stopThread t)
    else b.retire t rd 1 (pc + 4)
  else if b.thrAccepts target f.code then ((b.thrApply target f.code start)).retire t rd 0 (pc + 4)
  else b.retire t rd 1 (pc + 4)

/-- Bytes of the header window. -/
def HdrWin.slice (w : HdrWin) (off n : Nat) : List Byte := (List.range n).map (fun k => w.bytes.get 0 (off + k))

/-- HW.LD (R230, R231). -/
def Blk.doHwLd (b : Blk) (t n : Nat) (sx : Bool) (rd : GReg) (a : W64) (off : Nat) (pc : W64) : PolRes :=
  let o := a + BitVec.ofNat 64 off
  if (b.thread t).win.len < o.toNat + n then .exc 8 0 o
  else b.retire t rd (loadVal n sx (natBE ((b.thread t).win.slice o.toNat n))) (pc + 4)

/-- Store bytes into a header window, extending the valid length (R231). -/
def HdrWin.store (w : HdrWin) (off : Nat) (l : List Byte) : HdrWin :=
  let gap := (List.range off).foldl (fun t k => if w.len ≤ k then t.put 0 k 0 else t) w.bytes
  { bytes := memPut gap off l, len := max w.len (off + l.length) }

/-- HW.ST (R230, R231). -/
def Blk.doHwSt (b : Blk) (t n : Nat) (v a : W64) (off : Nat) (pc : W64) : PolRes :=
  let o := a + BitVec.ofNat 64 off
  if 512 < o.toNat + n then .exc 8 0 o
  else .done (b.updThread t (fun x => { x with win := x.win.store o.toNat (bytesBE n v.toNat) })) (pc + 4)

/-- First byte of a span whose byte access is refused, with the cause (R232). -/
def Blk.spanCause (b : Blk) (t : Nat) (a : W64) (n : Nat) (k : Need) (poison : Bool) : Option (Nat × W64) :=
  (List.range n).findSome? (fun j =>
    let x := a + BitVec.ofNat 64 j
    (b.accessCause t (addr48 x) 1 1 k false poison).map (fun c => (c, x)))

/-- Location of one byte of normal memory for a thread. -/
def byteLoc (t : Nat) (x : W64) : Nat :=
  match spaceOf (halfOfThread t) (addr48 x) 1 with
  | .mem loc => loc
  | _ => 0

/-- HW.FILL (R232). -/
def Blk.doHwFill (b : Blk) (t : Nat) (rd : GReg) (a : W64) (n : Nat) (pc : W64) : PolRes :=
  match b.spanCause t a n { r := true } true with
  | some (c, x) => .exc c 0 x
  | none =>
    let l := (List.range n).map (fun j => b.byte (byteLoc t (a + BitVec.ofNat 64 j)))
    let b1 := (List.range n).foldl (fun b j => b.dirTouch (halfOfThread t) (byteLoc t (a + BitVec.ofNat 64 j)) 1 false) b
    (b1.updThread t (fun x => { x with win := { bytes := memPut x.win.bytes 0 l, len := n } })).retire t rd
      (BitVec.ofNat 64 n) (pc + 4)

/-- HW.SPILL: plain byte stores (R232). -/
def Blk.doHwSpill (b : Blk) (t : Nat) (a : W64) (n : Nat) (pc : W64) : PolRes :=
  if (b.thread t).win.len < n then .exc 8 0 0
  else
    match b.spanCause t a n { w := true } false with
    | some (c, x) => .exc c 0 x
    | none =>
      .done ((List.range n).foldl (fun b j =>
        b.storeMem (halfOfThread t) (byteLoc t (a + BitVec.ofNat 64 j)) [(b.thread t).win.bytes.get 0 j]) b) (pc + 4)

/-- CSUM.HW (R233). -/
def Blk.doCsumHw (b : Blk) (t : Nat) (rd : GReg) (off n : Nat) (pc : W64) : PolRes :=
  if (b.thread t).win.len < off + n then .exc 8 0 (BitVec.ofNat 64 off)
  else b.retire t rd (csumVal (b.greg t rd) (words16 ((b.thread t).win.slice off n))) (pc + 4)

/-- CRC.HW (R234). -/
def Blk.doCrcHw (b : Blk) (t : Nat) (rd : GReg) (off n : Nat) (pc : W64) : PolRes :=
  if (b.thread t).win.len < off + n then .exc 8 0 (BitVec.ofNat 64 off)
  else b.retire t rd (crcVal (b.greg t rd) ((b.thread t).win.slice off n)) (pc + 4)

/-- BREAK: a halt while a debugger is attached, else the exception (R197). -/
def Blk.doBreak (b : Blk) (t : Nat) (code : Nat) : PolRes :=
  if (b.thread t).attached then .stay (b.updThread t (fun x => { x with st := .halted, kept := .running }))
  else .exc 7 code 0

/-- ERET (R198). -/
def Blk.doEret (b : Blk) (t : Nat) (word : W64) : PolRes :=
  if (b.thread t).sr.priv then .stay (b.eretTo t) else .exc 2 0 word

/-- The effect of one instruction at `pc` (chapter 09). -/
def Blk.polStep (dev : DevBus) (b : Blk) (t : Nat) (i : Pol) (word pc : W64) : PolRes :=
  let g := b.greg t
  match i with
  | .alu f rd ra rb => b.retire t rd (aluVal f (g rd) (g ra) (g rb)) (pc + 4)
  | .alu1 f rd ra => b.retire t rd (alu1Val f (g ra)) (pc + 4)
  | .aluw f rd ra rb => b.retire t rd (aluwVal f (g ra) (g rb)) (pc + 4)
  | .mul f rd ra rb => b.retire t rd (mulVal f (g ra) (g rb)) (pc + 4)
  | .imm f rd ra x => b.retire t rd (immVal f (g ra) x) (pc + 4)
  | .shift f rd ra n => b.retire t rd (shVal f (g ra) n.val) (pc + 4)
  | .lui rd x => b.retire t rd (upper x) (pc + 4)
  | .auipc rd x => b.retire t rd (pc + upper x) (pc + 4)
  | .jalr rd ra x =>
    let target := g ra + x.signExtend 64
    if target.toNat % 4 ≠ 0 then .exc 3 0 target else b.retire t rd (pc + 4) target
  | .jal rd d => b.retire t rd (pc + 4) (pc + (d.signExtend 64 <<< 2))
  | .br f ra rb d => .done b (if brTaken f (g ra) (g rb) then pc + (d.signExtend 64 <<< 2) else pc + 4)
  | .load sz sx _ rd ra d => b.doLoad dev t sz.bytes sx rd (g ra + d.signExtend 64) pc
  | .store sz _ rs ra d => b.doStore dev t sz.bytes (g rs) (g ra + d.signExtend 64) pc
  | .amo f _ rd ra rb => b.doAmo t f rd (g ra) (g rb) pc
  | .srRd rd n => b.doSrRd t rd n.toNat word pc
  | .srWr ra n => b.doSrWr t (g ra) n.toNat word pc
  | .syscall c => .exc 6 c.toNat 0
  | .brk c => b.doBreak t c.toNat
  | .eret => b.doEret t word
  | .fence _ => .done b (pc + 4)
  | .cache f ra => b.doCache t f (g ra) word pc
  | .wait rd ra timer => b.doWait t rd (g ra) timer word
  | .chOpen rd ra n => b.doChOpen t rd ((g ra).toNat % 4096) n.val pc
  | .chPut rs ra w => b.doChPut t ((g ra).toNat % 4096) w.val (g rs) pc
  | .chSend rd ra n => b.doChSend t rd ((g ra).toNat % 4096) n.val pc
  | .chRecv rd ra => b.doChRecv t rd ((g ra).toNat % 4096) pc
  | .chGet rd ra w => b.doChGet t rd ((g ra).toNat % 4096) w.val pc
  | .thrCtl f rd ra rb => b.doThrCtl t f rd ((g ra).toNat % 512) (g rb) word pc
  | .hwLd sz sx rd ra off => b.doHwLd t sz.bytes sx rd (g ra) off.val pc
  | .hwSt sz rs ra off => b.doHwSt t sz.bytes (g rs) (g ra) off.val pc
  | .hwFill rd ra n => b.doHwFill t rd (g ra) n.val pc
  | .hwSpill ra n => b.doHwSpill t (g ra) n.val pc
  | .csumHw rd ra n => b.doCsumHw t rd ((g ra).toNat % 512) n.val pc
  | .csumReg rd ra =>
    b.retire t rd (csumVal (g rd) [fieldNat (g ra) 48 16, fieldNat (g ra) 32 16, fieldNat (g ra) 16 16, fieldNat (g ra) 0 16])
      (pc + 4)
  | .crcReg sz rd ra => b.retire t rd (crcVal (g rd) (bytesLE sz.bytes (g ra).toNat)) (pc + 4)
  | .crcHw rd ra n => b.doCrcHw t rd ((g ra).toNat % 512) n.val pc
  | .bf f rd ra p w => b.retire t rd (bfVal f (g rd) (g ra) p.val (w.val + 1)) (pc + 4)
  | .fhash rd ra rb => b.retire t rd (fhashVal (g rd) (g ra) (g rb)) (pc + 4)
  | .hwLen rd => b.retire t rd (BitVec.ofNat 64 (b.thread t).win.len) (pc + 4)

/-- The slot of a thread of a Pavane core: round r is the nanosecond in which MONO reads r, and thread r mod 8 issues in it,
once (R242). -/
def Blk.inSlot (b : Blk) (t : Nat) : Bool := b.mono % 8 == t % 8 && (b.thread t).lastIssue != some b.mono

/-- A thread can issue now: RUNNING, and where its core is in Pavane mode in its slot (R237, R242, R244). -/
def Blk.canIssueNow (b : Blk) (t : Nat) : Bool :=
  (b.thread t).st = .running && (!(b.modeNow (t / 8)) || b.inSlot t)

/-- One round of a core: CORE_ROUNDS, and the ROUNDS event of its threads (R37, R214, R241, R242). -/
def Blk.coreRound (b : Blk) (c : Nat) : Blk :=
  (List.range 8).foldl (fun b k => b.pmcCount (c * 8 + k) 1 1)
    (b.updCore c (fun x => { x with rounds := BitVec.ofNat 64 (sat64 x.rounds.toNat 1) }))

/-- Place of thread k of a core in the order of its Galliard round in hand, which is r = CORE_ROUNDS − 1: r mod 8 is first,
then r mod 8 + 1, and so on around (R241). -/
def Core.place (x : Core) (k : Nat) : Nat := (k + 8 - (x.rounds.toNat - 1) % 8) % 8

/-- Thread k of a core still issues in the Galliard round in hand: fewer than four threads have issued in it, and none that
comes at or after k in its order (R240, R241). -/
def Core.takes (x : Core) (k : Nat) : Bool :=
  !x.issued.isEmpty && decide (x.issued.length < 4) && x.issued.all (fun j => decide (x.place j < x.place k))

/-- The Galliard round that an issue of thread t belongs to: the one in hand while the order admits the thread, else the
next, with the thread its first to issue (R37, R240, R241). A thread passed over was not ready: readiness rests on operands,
misses and fences, which the commands stand for (log 101). -/
def Blk.galliardSlot (b : Blk) (t : Nat) : Blk :=
  let c := t / 8
  if (b.core c).takes (t % 8) then b.updCore c (fun x => { x with issued := x.issued ++ [t % 8] })
  else (b.coreRound c).updCore c (fun x => { x with issued := [t % 8] })

/-- The slot an issue takes: rounds in Galliard mode, SLOTS, the counters the spec leaves free (R214, R241, R242). -/
def Blk.takeSlot (b : Blk) (t : Nat) : Blk :=
  let b1 := if (b.core (t / 8)).pavane then b else b.galliardSlot t
  (b1.updThread t (fun x => { x.pmcAdd 3 1 with lastIssue := some b.mono })).pmcFree t

/-- An instruction commits: CORE_INSTR and INSTR; the count may end a WAIT that the instruction began (R214, R248). -/
def Blk.commitInstr (b : Blk) (t : Nat) : Blk :=
  (b.updCore (t / 8) (fun x => { x with instrs := BitVec.ofNat 64 (sat64 x.instrs.toNat 1) })).pmcCount t 2 1

/-- The lines of memory that `n` bytes from an address lie in, with whether they are written. -/
def linesOf (t a n : Nat) (write : Bool) : List (Nat × Bool) :=
  match spaceOf (halfOfThread t) a n with
  | .mem loc => if n = 0 then [] else (List.range ((loc + n - 1) / 64 + 1 - loc / 64)).map (fun k => (loc / 64 + k, write))
  | _ => []

/-- The lines that the data access of an instruction touches. -/
def Blk.polLines (b : Blk) (t : Nat) (i : Pol) : List (Nat × Bool) :=
  let g := fun r : GReg => b.greg t r
  let each := fun (a : W64) (n : Nat) (w : Bool) => (List.range n).flatMap (fun j => linesOf t (addr48 (a + BitVec.ofNat 64 j)) 1 w)
  match i with
  | .load sz _ _ _ ra d => linesOf t (addr48 (g ra + d.signExtend 64)) sz.bytes false
  | .store sz _ _ ra d => linesOf t (addr48 (g ra + d.signExtend 64)) sz.bytes true
  | .amo _ _ _ ra _ => linesOf t (addr48 (g ra)) 8 true
  | .cache .zero ra => linesOf t (addr48 (g ra)) 64 true
  | .hwFill _ ra n => each (g ra) n.val false
  | .hwSpill ra n => each (g ra) n.val true
  | _ => []

/-- A direction of the bridge retrains: traffic of every class is held (R19). -/
def Blk.retrains (b : Blk) : Bool := b.brg.toEast.retrain.isSome || b.brg.toWest.retrain.isSome

/-- The coherence class is held by a retrain and a line that the instruction needs, its own among them, must cross: the
thread is not ready (R16, R19, R240). -/
def Blk.bridgeHolds (b : Blk) (t : Nat) (i : Option Pol) : Bool :=
  b.retrains &&
  (((linesOf t (addr48 (b.thread t).pc) 4 false).filter (fun l => !(b.core (t / 8)).l1i.any (fun e => e.1 == l.1))) ++
    (match i with
     | some op => b.polLines t op
     | none => [])).any (fun l => b.lineCrosses (halfOfThread t) l.1 l.2)

/-- An exception of an instruction: SYSCALL commits, with the next instruction saved, unless it makes DOUBLE (R197, R207,
R214). -/
def Blk.raised (b : Blk) (t c d : Nat) (pc a : W64) : Blk :=
  if c = 6 then
    let b1 := b.takeException t c d (pc + 4) a
    if (b.thread t).sr.exc then b1 else b1.commitInstr t
  else b.takeException t c d pc a

/-- What a thread does with a fetched instruction, the slot taken: fetch checks, effect, exception (R197 to R199). -/
def Blk.runInstr (dev : DevBus) (b : Blk) (t : Nat) (i : Option Pol) (word : W32) : Blk :=
  let pc := (b.thread t).pc
  match b.fetchCause t (addr48 pc) with
  | some c => b.takeException t c 0 pc pc
  | none =>
    let b1 := match spaceOf (halfOfThread t) (addr48 pc) 4 with
      | .mem loc => b.fetched t loc
      | _ => b
    match i with
    | none => b1.takeException t 1 0 pc (word.setWidth 64)
    | some op =>
      match b1.polStep dev t op (word.setWidth 64) pc with
      | .done b2 pc2 => (b2.updThread t (fun x => { x with pc := pc2 })).commitInstr t
      | .stay b2 => b2.commitInstr t
      | .exc c d a => b1.raised t c d pc a

/-- A thread issues one instruction, a change of its core's mode that is due first; a thread that is not ready, or has no
slot, issues nothing (R240 to R242, R244). -/
def Blk.issueWord (dev : DevBus) (b : Blk) (t : Nat) (i : Option Pol) (word : W32) : Blk :=
  if b.canIssueNow t && !b.bridgeHolds t i then ((b.tmodeSwitch (t / 8)).takeSlot t).runInstr dev t i word else b

/-- A thread issues a decoded instruction; one with a forbidden operand value is illegal (R216). -/
def Blk.issue (dev : DevBus) (b : Blk) (t : Nat) (i : Pol) : Blk :=
  b.issueWord dev t (if i.wf then some i else none) (encodePol i)

/-- A HALTED thread whose kept state is RUNNING issues one instruction, and is HALTED again (R261). -/
def Blk.stepNow (dev : DevBus) (b : Blk) (t : Nat) (word : W32) : Blk :=
  let b0 := (b.tmodeSwitch (t / 8)).updThread t (fun x => { x with st := .running, stepping := none })
  let b1 := (b0.takeSlot t).runInstr dev t (decodePol word) word
  if (b1.thread t).st = .halted then b1 else b1.haltThread t

/-- STEP of a debugger: the instruction issues at once, or on a Pavane core in the thread's slot; where it is not ready now
it waits for that (R242, R261). -/
def Blk.stepThread (dev : DevBus) (b : Blk) (t : Nat) (word : W32) : Blk :=
  if (!(b.modeNow (t / 8)) || b.inSlot t) && !b.bridgeHolds t (decodePol word) then b.stepNow dev t word
  else b.updThread t (fun x => { x with stepping := some word })

end Sys2Proof.Machine
end

