-- ==== Sys2Proof/Machine/Ports.lean ====
section
/-! DEFINITION. Ethernet ports and downstream ports (chapter 13): frames received, link states, slots, requests of a
drive. -/

namespace Sys2Proof.Machine
open Sys2Proof

/-- Code of a link state (ETH_LINK). -/
def linkCode : LinkSt → Nat
  | .disabled => 0
  | .negotiating => 1
  | .training => 2
  | .up => 3
  | .fault => 4
  | .down => 5

/-- Classes and quanta of a PFC frame: the enable vector at byte 16, quanta from byte 18 (IEEE 802.1Qbb). -/
def pfcOf (f : List Byte) : List (Nat × Nat) :=
  ((List.range 8).filter (fun c => bitOf (beAt f 16 2) c)).map (fun c => (c, beAt f (18 + 2 * c) 2))

/-- A MAC Control PFC frame (R283). -/
def isPfc (f : List Byte) : Bool := beAt f 12 2 == 0x8808 && beAt f 14 2 == 0x0101

/-- A frame without its FCS passes the MAC: decrypted under the epoch in force where an association names it (R316, R350,
R352), then it waits for the parser. -/
def Blk.toParser (b : Blk) (l : Nat) (f : List Byte) : Blk :=
  let p := pipeOfLane l
  let e := b.epochAt p
  let put := fun (b : Blk) (g : List Byte) =>
    b.updLane l (fun x => { x with rx := x.rx ++ [{
      frame := g, rxNsec := b.clk.tb / 65536 % 1000000000, rxSecLo := b.clk.tb / secGrains % 65536,
      step := b.clk.stepCount.toNat, epoch := if g = f then none else some e }] })
  match (if ((b.cfgOf e).port l).macsec then b.macsecIn l e f else .pass b f) with
  | .lost b1 r => b1.drop p r
  | .pass b1 f1 =>
    match b1.espIn p e f1 with
    | .lost b2 r => b2.drop p r
    | .pass b2 f2 => put b2 f2

/-- The FEC counters of a port move by what its decoder met; RS544_DETECT corrects nothing (R318). -/
def Blk.fecCount (b : Blk) (l : Nat) (detect : Bool) (w : FecWords) : Blk :=
  let b1 := b.ethCnt l 13 w.uncorrected.toNat
  if detect then b1 else (b1.ethCnt l 12 w.corrected.toNat).ethCnt l 14 w.symbols.toNat

/-- The MAC of a port receives a frame, FCS left off (R21, R41, R283, R314). An overrun is possible only under
SPD_STATUS.floor_miss (R41); under RS544_DETECT an uncorrectable codeword errors the frame (R311). -/
def Blk.macRx (b : Blk) (l : Nat) (f : List Byte) (fcsOk overrun : Bool) : Blk :=
  let c := b.cfg.port l
  if ¬ b.serving (halfOfLane l) then
    { (b.ethCnt l 6 1).drop (pipeOfLane l) 2 with preEpoch := b.preEpoch.upd 0 l (fun n => sat64 n 1) }
  else if overrun && b.spd.floorMiss then b.ethCnt l 5 1
  else if ¬ fcsOk then b.ethCnt l 2 1
  else if f.length + 4 < 64 then b.ethCnt l 4 1
  else if c.maxFrame.toNat < f.length + 4 then b.ethCnt l 3 1
  else if isPfc f then b.pfcRx l (pfcOf f)
  else ((b.ethCnt l 0 1).ethCnt l 1 (f.length + 4)).toParser l f

/-- A frame arrives at a port whose link is UP, with what the FEC decoder met on the way (R311, R318). -/
def Blk.frameRx (b : Blk) (l : Nat) (f : List Byte) (fcsOk overrun : Bool) (fec : FecWords) : Blk :=
  let c := b.cfg.port l
  if c.life ≠ .enabled ∨ (b.lane l).link ≠ .up then b
  else
    let detect := c.fec == 2
    (b.fecCount l detect fec).macRx l f (fcsOk && !(detect && fec.uncorrected != 0)) overrun

/-! Links (R312, R313, R317, R505). -/

/-- A crossing packet is for a port. -/
def Crossing.forLane (c : Crossing) (l : Nat) : Bool := match c.dest with
  | .queue (.port x _) => x == l
  | _ => false

/-- Drop every packet queued for a port: queues, launch queues, frames the MAC has, packets that wait for the bridge on
their way to it (R313). -/
def Blk.dropQueued (b : Blk) (l : Nat) : Blk :=
  let b1 := (List.range 8).foldl (fun b c =>
    let q := b.tmq (.port l c)
    q.pkts.foldl (fun b p => b.dropPkt p (pipeOfLane l) 0x09) (b.setTmq { q with pkts := [], pausedTo := none })) b
  let held := (b1.lane l).launch ++ (b1.hog.egress.filter (·.lane == l)).map (·.pkt) ++
    (b1.hog.crossing.filter (·.forLane l)).map (·.pkt)
  let b2 := { b1.updLane l (fun x => { x with launch := [] }) with
    hog := { b1.hog with egress := b1.hog.egress.filter (·.lane != l), crossing := b1.hog.crossing.filter (!·.forLane l) } }
  (held.foldl (fun b p => b.dropPkt p (pipeOfLane l) 0x09) b2).pfcSettle

/-- The link of a port takes a state: PORT_LINK when it comes up or goes down; leaving UP drops what waits (R312, R313). -/
def Blk.setLink (b : Blk) (l : Nat) (s : LinkSt) : Blk :=
  let was := (b.lane l).link
  let b1 := b.updLane l (fun x => { x with
    link := s, downAt := if s = .down then b.mono else x.downAt, negAt := if s = .negotiating then b.mono else x.negAt,
    forced := x.forced && s != .negotiating })
  if was = .up ∧ s ≠ .up then ((b1.ethCnt l 15 1).dropQueued l).devEvent 0x0024 l 0 (linkCode s)
  else if was ≠ .up ∧ s = .up then b1.devEvent 0x0024 l 0 3
  else b1

/-- The link of a port may be brought up: ENABLED in the newest epoch, after meeting point 2, its reference clock present
(R312, R505). -/
def Blk.linkWanted (b : Blk) (l : Nat) : Bool := (b.cfg.port l).life == .enabled && b.atPoint (halfOfLane l) 2

/-- The Ethernet reference of a lane's pair is there (R505). -/
def Blk.laneRef (b : Blk) (l : Nat) : Bool := b.ethRef (l / 32)

/-- The link may run: it is wanted and has its reference. -/
def Blk.linkAllowed (b : Blk) (l : Nat) : Bool := b.linkWanted l && b.laneRef l

/-- The faults of a link as detected; remote-fault ordered sets go out while a local fault lasts (R313). -/
def Blk.setFaults (b : Blk) (l : Nat) (local_ remote : Bool) : Blk :=
  let was := (b.lane l).localFault
  let b1 := b.updLane l (fun x => { x with localFault := local_, remoteFault := remote })
  if was = local_ then b1 else b1.emit (.remoteFault l local_)

/-- The state that a link takes: no frames pass under a fault (ETH_LINK). -/
def linkTaken (s : LinkSt) (local_ remote : Bool) : LinkSt := if s = .up ∧ (local_ || remote) then .fault else s

/-- A link moves to a state its bring-up or its partner gives it. One that comes up came up by auto-negotiation unless it was
forced, so no link comes up otherwise (R312). -/
def Blk.linkChange (b : Blk) (l : Nat) (s : LinkSt) (autoneg local_ remote : Bool) : Blk :=
  let s1 := linkTaken s local_ remote
  if ¬ b.linkAllowed l ∨ s = .disabled ∨ (s1 = .up ∧ autoneg = (b.lane l).forced) then b
  else
    ((b.setFaults l local_ remote).updLane l (fun x => { x with
      autoneg := if s1 = .up then autoneg else x.autoneg })).setLink l s1

/-- No page within 500 ms: forced mode, and training follows (R312). -/
def Blk.autonegTimeout (b : Blk) (l : Nat) : Blk :=
  if (b.lane l).link = .negotiating ∧ (b.lane l).negAt + 500000000 ≤ b.mono then
    (b.updLane l (fun x => { x with autoneg := false, forced := true })).setLink l .training
  else b

/-- A port DOWN for 1 s tries again (R317, link state encoding). -/
def Blk.linkRetry (b : Blk) (l : Nat) : Blk :=
  if b.linkAllowed l ∧ (b.lane l).link = .down ∧ (b.lane l).downAt + 1000000000 ≤ b.mono then b.setLink l .negotiating
  else b

/-- Bring-up of a port starts, or its link is taken down, as its configuration and its half now ask. -/
def Blk.linkSettle (b : Blk) (l : Nat) : Blk :=
  if b.linkAllowed l then (if (b.lane l).link = .disabled then b.setLink l .negotiating else b)
  else if b.linkWanted l then (if (b.lane l).link = .down then b else b.setLink l .down)
  else if (b.lane l).link = .disabled then b
  else ((b.setFaults l false false).updLane l (fun x => { x with autoneg := false })).setLink l .disabled

/-! Slots (R323, R324). -/

/-- DSP_SLOT[15:0]. -/
def Dsp.slotBits (x : Dsp) : Nat :=
  (if x.presence then 1 else 0) + (if x.presenceChanged then 2 else 0) + (if x.button then 4 else 0) +
  (if x.dllChanged then 8 else 0) + x.power.toNat * 16 + x.attention.toNat * 64 + x.powerLed.toNat * 256 +
  (if x.perst then 1024 else 0) + (if x.autoOff then 2048 else 0)

/-- The UNIT event that DSP_MSI_ROUTE names. -/
def Blk.dspEvent (b : Blk) (d : Nat) : Blk :=
  let x := b.dsport d
  if x.routeEn then b.unitEvent x.thread.toNat x.unit.toNat else b

/-- A slot bit of [3:1] rose: SLOT_EVENT, and the UNIT event of DSP_MSI_ROUTE (R323). -/
def Blk.slotEvent (b : Blk) (d : Nat) (rose : Bool) : Blk :=
  if rose then (b.devEvent 0x0025 d 0 (b.dsport d).slotBits).dspEvent d else b

/-- One change of slot state; each bit of [3:1] that goes from 0 to 1 raises SLOT_EVENT (R323). -/
def Blk.slotSet (b : Blk) (d : Nat) (f : Dsp → Dsp) : Blk :=
  let x := b.dsport d
  let b1 := b.updDsp d f
  let y := b1.dsport d
  ((b1.slotEvent d (y.presenceChanged && !x.presenceChanged)).slotEvent d (y.button && !x.button)).slotEvent d
    (y.dllChanged && !x.dllChanged)

/-- Power on (R324): DS_PWREN, clock, and DS_PERST_N 100 ms later; DSP_ERR is cleared. -/
def Dsp.powerOn (x : Dsp) (mono : Nat) : Dsp :=
  if x.power = 1 then x
  else { x with power := 1, pwren := true, clock := true, onAt := some mono, autoOff := false, ur := 0, errMsg := 0 }

/-- Power off (R324): DS_PERST_N, clock, DS_PWREN; the link is gone. -/
def Dsp.powerOff (x : Dsp) : Dsp :=
  { x with power := 2, perst := true, clock := false, pwren := false, onAt := none,
           dllActive := false, dllChanged := x.dllChanged || x.dllActive, speed := 0, width := 0, training := false, retrain := false }

/-- Presence, debounced, takes a value; a removal under power removes power (R324). -/
def Blk.presence (b : Blk) (d : Nat) (v : Bool) : Blk :=
  if (b.dsport d).presence = v then b
  else
    let b1 := b.slotSet d (fun x => { x with presence := v, presenceChanged := true })
    if !v ∧ (b.dsport d).power = 1 then b1.slotSet d (fun x => { x.powerOff with autoOff := true }) else b1

/-- The attention button is pressed (R323). -/
def Blk.attnButton (b : Blk) (d : Nat) : Blk := b.slotSet d (fun x => { x with button := true })

/-- The link of a powered slot, out of reset, changes: dll_active, speed and width (R320, R323). -/
def Blk.dllChange (b : Blk) (d : Nat) (up : Bool) (speed width : BitVec 3) : Blk :=
  let x := b.dsport d
  if up = true ∧ (x.perst = true ∨ x.power ≠ 1) then b
  else b.slotSet d (fun x => { x with
    dllActive := up, speed := if up then speed else 0, width := if up then width else 0,
    training := !up && x.power == 1 && !x.perst, retrain := x.retrain && !up,
    dllChanged := x.dllChanged || x.dllActive != up })

/-- DS_PERST_N is released 100 ms after power on, and the link trains (R324). -/
def Blk.dsPerstRelease (b : Blk) (d : Nat) : Blk :=
  match (b.dsport d).onAt with
  | none => b
  | some t => if t + 100000000 ≤ b.mono then b.updDsp d (fun x => { x with perst := false, onAt := none, training := true }) else b

/-- Drive the power of a slot: 1 on, ignored while no drive is present; 2 off. -/
def Dsp.setPower (x : Dsp) (mono v : Nat) : Dsp :=
  if v = 1 then (if x.presence then x.powerOn mono else x) else if v = 2 then x.powerOff else x

/-- An indicator field: 0 leaves it unchanged. -/
def ledSet (old : BitVec 2) (v : Nat) : BitVec 2 := if v % 4 = 0 then old else BitVec.ofNat 2 v

/-- One act on a slot: bits of [3:1] cleared, then power, attention and power_led, in that order (R323). -/
def Blk.slotAct (b : Blk) (d : Nat) (clear : BitVec 3) (power attention led : Nat) : Blk :=
  let b1 := b.slotSet d (fun x => { x with
    presenceChanged := x.presenceChanged && !clear.getLsbD 0, button := x.button && !clear.getLsbD 1,
    dllChanged := x.dllChanged && !clear.getLsbD 2 })
  let b2 := b1.slotSet d (·.setPower b.mono power)
  b2.slotSet d (fun x => { x with attention := ledSet x.attention attention, powerLed := ledSet x.powerLed led })

/-- A write of DSP_SLOT by firmware (R323): its fields in the order of SLOT.CONTROL (DEDUCED: the spec orders the acts, and
the fields of SLOT.CONTROL only; log 106). -/
def Blk.dspSlotWrite (b : Blk) (d : Nat) (v : W64) : Blk :=
  b.slotAct d (v.extractLsb' 1 3) (fieldNat v 4 2) (fieldNat v 6 2) (fieldNat v 8 2)

/-- SLOT.CONTROL: clear_events, power, attention, power_led, in that order (R323). -/
def Blk.slotControl (b : Blk) (d : Nat) (clear : Bool) (power attention led : Nat) : Blk :=
  b.slotAct d (if clear then 7 else 0) power attention led

/-- A write of DSP_LINK.retrain as 1 (R320): the bit reads 1 until training ends. -/
def Blk.dspRetrain (b : Blk) (d : Nat) : Blk :=
  if (b.dsport d).dllActive then
    b.slotSet d (fun x => { x with retrain := true, training := true, dllActive := false, dllChanged := true })
  else b

/-- Count in DSP_ERR.ur. -/
def Blk.dspUr (b : Blk) (d : Nat) : Blk := b.updDsp d (fun x => { x with ur := sat32 x.ur 1 })

/-- A request of a drive that reaches nothing: completed with Unsupported Request, and counted (R322). -/
def Blk.dspRefuse (b : Blk) (d : Nat) : Blk := (b.dspUr d).emit (.dspUr d)

/-- An MSI of a drive: vector `v` pends and its UNIT event is latched (R322). -/
def Blk.dsMsi (b : Blk) (d v : Nat) : Blk :=
  (b.updDsp d (fun x => { x with pend := x.pend ||| (1#64 <<< v) })).dspEvent d

/-- The bytes lie in HBM (R191). -/
def inHbm (a n : Nat) : Bool := decide (a + n ≤ hbmSize) || (decide (hbmEast ≤ a) && decide (a + n ≤ hbmEast + hbmSize))

/-- A memory request of a drive (R322). -/
def Blk.dsMemory (b : Blk) (d : Nat) (r : DsReq) : Blk :=
  match r with
  | .read a n => if inHbm a.toNat n.val then b.emit (.dspData d (b.bytes a.toNat n.val)) else b.dspRefuse d
  | .write a l =>
    let off := a.toNat - (0x001800000000 + d * 0x10000)
    if inHbm a.toNat l.length then b.devWrite a.toNat l
    else if l.length = 4 ∧ 0x001800000000 + d * 0x10000 ≤ a.toNat ∧ off % 4 = 0 ∧ off < 256 then b.dsMsi d (off / 4)
    else b.dspRefuse d

/-- A configuration access of firmware to a drive, with what the drive answered (R321). After a Request Retry Status the two
bytes beside the Vendor ID's 0x0001 are free. -/
def Blk.dsConfig (b : Blk) (d off : Nat) (write : Option W32) (resp : CfgResp) : Blk :=
  let up := (b.dsport d).dllActive
  let b1 := if up then b.emit (.dsp d off write) else b
  let ones := (b1.dspUr d).emit (.dspData d [0xFF, 0xFF, 0xFF, 0xFF])
  match write, up, resp with
  | some _, true, .ok _ => b1
  | some _, _, _ => b1.dspUr d
  | none, true, .ok v => b1.emit (.dspData d (bytesLE 4 v.toNat))
  | none, true, .rrs => if off % 4096 / 4 = 0 then (b1.drawn 1).emit (.dspData d ([0x01, 0x00] ++ bytesLE 2 b1.freeVal.toNat)) else ones
  | none, _, _ => ones

end Sys2Proof.Machine
end

