-- ==== Sys2Proof/Machine/Time.lean ====
section
/-! DEFINITION. The timebase (chapter 14): steps, the servo, the sources, 1PPS, and reads of TB_NSEC. -/

namespace Sys2Proof.Machine
open Sys2Proof

/-- Code of a servo state (R331). -/
def servoCode : Servo → Nat
  | .free => 0
  | .acquiring => 1
  | .locked => 2
  | .hold => 3
  | .stepRequest => 4
  | .holdover => 5

/-- The step keeps the timebase in [0, 2^48 s] (R332). -/
def Clock.stepOk (c : Clock) (d : Int) : Bool := decide (0 ≤ (c.tb : Int) + d) && decide ((c.tb : Int) + d ≤ (2 ^ 48 * secGrains : Nat))

/-- Add a signed amount to the timebase, with its log entry (R332). -/
def Clock.step (c : Clock) (d : Int) : Clock :=
  let n := c.stepCount + 1
  { c with tb := ((c.tb : Int) + d).toNat, stepCount := n, servo := .acquiring,
           logOffset := c.logOffset.put 0 (n.toNat % 16) (BitVec.ofInt 64 d),
           logMono := c.logMono.put 0 (n.toNat % 16) (BitVec.ofNat 64 c.mono) }

/-- A step in one atomic act: held launch frames and waiting timers see it (R332, R333, R343, R250). -/
def Blk.applyStep (b : Blk) (d : Int) : Blk := (Blk.launchCheck { b with clk := b.clk.step d }).stepWaits

/-- ±500 ppm (R330). -/
def fmax : Int := 2147483
/-- Bound a frequency. -/
def clampF (x : Int) : Int := max (-fmax) (min fmax x)

/-- The servo asks for a step: slewing stops, the event is written once (R330). -/
def Blk.stepRequest (b : Blk) (o : Int) : Blk :=
  if b.clk.servo = .stepRequest then b
  else Blk.devEvent { b with clk := { b.clk with servo := .stepRequest } } 0x0026 0 0 4 (unsigned 64 o)

/-- An arithmetic right shift of a signed number. -/
def asr (x : Int) (n : Nat) : Int := x / (2 ^ n : Nat)

/-- The servo slews on a sample that is already noted: integrator, frequency, state (R330). -/
def Clock.slew (c : Clock) (o : Int) : Clock :=
  let e := -o
  let acc := clampF (c.acc + asr e c.kiShift)
  { c with acc := acc, freq := clampF (acc + asr e c.kpShift),
           servo := if 4 ≤ c.samples.length ∧ c.samples.all (fun x => decide (x.natAbs ≤ 100 * 65536)) then .locked else .acquiring }

/-- One offset sample in grains, local minus reference (R330); ignored in HOLDOVER (R331). -/
def Blk.servoSample (b : Blk) (o : Int) : Blk :=
  if b.clk.servo = .holdover then b
  else
    let b1 := { b with clk := { b.clk with offset := o, samples := (o :: b.clk.samples).take 4 } }
    let c := b1.clk
    if c.hold then b1
    else if c.threshold * 65536 < o.natAbs then
      if c.autoStep ∧ c.stepOk (-o) = true then b1.applyStep (-o) else b1.stepRequest o
    else { b1 with clk := c.slew o }

/-- A rising 1PPS edge: its arrival, and for source 0 its sample, the reading less the nearest whole second, measured with
a free error of up to 2 ns either way (R329). -/
def Blk.ppsEdge (b : Blk) : Blk :=
  let c := b.clk
  let near := (c.lastPps.map (fun t => decide (c.mono ≤ t + 1500000000))).getD false
  let c1 := { c with lastPps := some c.mono, ppsPresent := near,
                     ppsEdges := if near then c.ppsEdges + 1 else 1 }
  let b1 := { b with clk := c1 }
  if c.source = 0 then
    let r := c.tb % secGrains
    let err : Int := (b.freeVal.toNat % 262145 : Nat) - 131072
    (b1.drawn 1).servoSample ((if r * 2 ≤ secGrains then (r : Int) else (r : Int) - secGrains) + err)
  else b1

/-- TIME_SOURCE (R331). -/
def Blk.timeSourceEvent (b : Blk) : Blk :=
  b.devEvent 0x0027 b.clk.source.toNat 0 (servoCode b.clk.servo) b.mono

/-- What loses the source (R331): for source 0 its 10 MHz reference is absent (`ref`), which the command tells, or no 1PPS edge
has come for 1.5 s, since the source was chosen where none has come at all; for source 1 its Ethernet reference has been
absent for 10 µs. -/
def Blk.loses (b : Blk) (ref : Bool) : Bool :=
  let c := b.clk
  if c.source = 0 then ref || decide (c.lastPps.getD c.srcSince + 1500000000 ≤ c.mono)
  else if c.source = 1 then
    ref && !b.ethRef c.refPair.toNat && decide (b.elec.refAt.get 0 (16 + c.refPair.toNat) + 10000 ≤ c.mono)
  else false

/-- The source is lost (R331). -/
def Blk.sourceLost (b : Blk) (ref : Bool) : Blk :=
  let c := b.clk
  if b.loses ref = false then b
  else
    let c1 := { c with refPresent := c.refPresent && !(ref && c.source == 0), ppsEdges := 0 }
    if c.servo = .holdover then { b with clk := c1 }
    else Blk.timeSourceEvent { b with clk := { c1 with servo := .holdover } }

/-- The source is regained (R331): 4 consecutive 1PPS edges for source 0, a reference present for 1 ms for source 1. -/
def Blk.sourceRegained (b : Blk) : Blk :=
  let c := b.clk
  let back : Bool :=
    if c.source = 0 then decide (4 ≤ c.ppsEdges)
    else c.source == 1 && b.ethRef c.refPair.toNat && decide (b.elec.refAt.get 0 (16 + c.refPair.toNat) + 1000000 ≤ c.mono)
  if c.servo ≠ .holdover ∨ back = false then b
  else Blk.timeSourceEvent { b with clk := { c with servo := .acquiring, refPresent := c.refPresent || c.source == 0 } }

/-- TIME.SERVO at its commit (R176, R330): hold = 0 resumes from acc where the servo was held. -/
def Clock.servoSet (c : Clock) (kp ki : Nat) (auto hold : Bool) (threshold : Nat) (adj : Int) : Clock :=
  let c1 := { c with kpShift := kp, kiShift := ki, autoStep := auto, threshold := threshold, freqAdj := adj, hold := hold }
  if hold then { c1 with freq := adj, servo := .hold }
  else if c.hold then { c1 with freq := c.acc, servo := if c.servo = .hold then .acquiring else c.servo }
  else c1

/-- TIME.SOURCE at its commit: no step; the servo locks to the new source (R177). -/
def Clock.sourceSet (c : Clock) (src pair : Nat) : Clock :=
  { c with source := BitVec.ofNat 2 src, refPair := if src = 1 then BitVec.ofNat 2 pair else 0, refPresent := true, srcSince := c.mono,
           ppsEdges := 0, samples := [],
           servo := if c.servo = .hold ∨ c.servo = .free then c.servo else .acquiring }

/-- The 1PPS output (R331): it rises at the carry of TB_NSEC to 0, and falls 100 ms later. A carry while it is high, which a
step can bring, makes no edge. -/
def Clock.ppsOutEdge (c : Clock) : Clock :=
  if c.ppsOut then (if c.ppsRise + 100000000 ≤ c.mono then { c with ppsOut := false, ppsDue := false } else c)
  else if c.ppsDue then { c with ppsOut := true, ppsDue := false, ppsRise := c.mono }
  else c

/-- TB_GRAIN now: grains and step count. -/
def Clock.grainReg (c : Clock) : W32 := BitVec.ofNat 32 (c.tb % 65536 + c.stepCount.toNat * 65536)
/-- TB_NSEC now. -/
def Clock.nsecReg (c : Clock) : W32 := BitVec.ofNat 32 (c.tb / 65536 % 1000000000)
/-- TB_SEC now. -/
def Clock.secReg (c : Clock) : W64 := BitVec.ofNat 64 (c.tb / secGrains)

/-- A read of TB_NSEC latches TB_GRAIN and TB_SEC; the 64-bit read of +0x0000 returns both and latches TB_SEC (R328). -/
def Blk.nsecRead (b : Blk) (w : Who) (wide : Bool) : Blk :=
  let c := b.clk
  { b with tbLat := (w, if wide then none else some c.grainReg, c.secReg) :: b.tbLat.filter (fun x => x.1 != w) }

/-- A tick of 1 ns of MONO: both clocks advance at the corrected rate (R325, R326), and a carry of the nanoseconds makes the
1PPS output due (R331). -/
def Clock.tick (c : Clock) : Clock :=
  if c.on then { c with
    mono := (c.mono + 1) % 2 ^ 64, tb := c.tb + 65536, ppsDue := c.ppsDue || decide (secGrains ≤ c.tb % secGrains + 65536) }
  else c

end Sys2Proof.Machine
end

