-- ==== Sys2Proof/Machine/RmtWire.lean ====
section
/-! DEFINITION. Transport packets: the header, how the engine builds a packet and takes one, device memory, congestion
profiles (R371 to R377, R394, R442). -/

namespace Sys2Proof.Machine
open Sys2Proof

/-- Transport settings of a QP; those never set by QP.TUNE are constants of the part (R168 states no default). -/
def tuneOf (t : Tune) : Tune :=
  if t.rtoUs = 0 then
    { rtoUs := 20 + Config.untuned 0 % 999981, retryLimit := 1 + Config.untuned 1 % 255,
      ccProfile := Config.untuned 2 % 8, msgTimeoutMs := 1 + Config.untuned 3 % 60000 }
  else t

/-- A congestion-control profile (R394). -/
structure CcProf where
  target : Nat := 0
  ai : Nat := 0
  beta : Nat := 0
  md : Nat := 0
  init : Nat
  lo : Nat := 0
  hi : Nat := 0
  deriving DecidableEq, Repr

/-- The profiles, by number (R394). -/
def ccProf (n : Nat) : CcProf :=
  match n with
  | 0 => { target := 10000, ai := 16384, beta := 1, md := 1, init := 262144, lo := 4096, hi := 4194304 }
  | 1 => { target := 4000, ai := 4096, beta := 1, md := 1, init := 65536, lo := 2048, hi := 1048576 }
  | 2 => { target := 25000, ai := 65536, beta := 2, md := 2, init := 1048576, lo := 8192, hi := 16777216 }
  | 3 => { target := 200000, ai := 262144, beta := 2, md := 2, init := 4194304, lo := 16384, hi := 67108864 }
  | 4 => { ai := 16384, md := 1, init := 262144, lo := 4096, hi := 4194304 }
  | 5 => { target := 10000, ai := 16384, beta := 1, init := 262144, lo := 4096, hi := 4194304 }
  | 7 => { ai := 4096, md := 1, init := 65536, lo := 2048, hi := 1048576 }
  | _ => { init := 1048576, lo := 1048576, hi := 1048576 }

/-- Path entropy of a QP (R374). -/
def entropy (n : Nat) : Nat := n * 2654435761 % 2 ^ 32 / 2 ^ 18

/-- UDP source port of a path (R374). -/
def pathPort (n p reroll : Nat) : Nat := 49152 + (entropy n + 257 * p + 4099 * reroll) % 16384

/-- The fields of a transport header that the engine chooses (R375). -/
structure RmtHdr where
  opcode : Nat
  solicited : Bool := false
  retx : Bool := false
  done : Bool := false
  ceEcho : Bool := false
  path : Nat := 0
  destQpn : Nat
  srcQpn : Nat
  msn : Nat
  keyEcho : Nat := 0
  remoteAddr : Nat := 0
  offset : Nat := 0
  total : Nat := 0
  aux : Nat := 0
  deriving DecidableEq, Repr

/-- The 48 bytes of a header; the stamps are written at egress, so here they hold a free value (R377). -/
def RmtHdr.bytes (x : RmtHdr) (free : Nat) : List Byte :=
  let b1 := fun c : Bool => if c then 1 else 0
  bytesBE 1 0x10 ++ bytesBE 1 x.opcode ++
  bytesBE 1 (b1 x.solicited + 2 * b1 x.retx + 4 * b1 x.done + 8 * b1 x.ceEcho) ++ bytesBE 1 x.path ++
  bytesBE 1 (free / 2 ^ 32) ++ bytesBE 3 x.destQpn ++ [0] ++ bytesBE 3 x.srcQpn ++ [0] ++ bytesBE 3 x.msn ++
  bytesBE 4 free ++ bytesBE 4 x.keyEcho ++ bytesBE 8 x.remoteAddr ++ bytesBE 4 x.offset ++ bytesBE 4 x.total ++
  bytesBE 4 x.aux ++ bytesBE 4 0

/-- Addresses and ports of a transport packet. -/
structure RmtEnds where
  ipv6 : Bool
  src : BitVec 128
  dst : BitVec 128
  srcPort : Nat
  dstPort : Nat
  dscp : Nat := 0
  deriving DecidableEq, Repr

/-- Checksum of a UDP datagram over IPv6 with its pseudo-header. -/
def udpSum6 (e : RmtEnds) (udp : List Byte) : Nat :=
  let s := onesSum (words16 (bytesBE 16 e.src.toNat ++ bytesBE 16 e.dst.toNat ++ bytesBE 4 udp.length ++ [0, 0, 0, 17] ++ udp))
  if s = 65535 then 65535 else 65535 - s

/-- The encapsulation of R373 around a transport header and payload. -/
def RmtEnds.frame (e : RmtEnds) (body : List Byte) : List Byte :=
  let tos := e.dscp % 64 * 4 + 2
  let udp := fun c : Nat => bytesBE 2 e.srcPort ++ bytesBE 2 e.dstPort ++ bytesBE 2 (body.length + 8) ++ bytesBE 2 c ++ body
  let mac : List Byte := List.replicate 12 0
  if e.ipv6 then
    mac ++ bytesBE 2 0x86DD ++ bytesBE 4 (6 * 2 ^ 28 + tos * 2 ^ 20 + e.srcPort) ++ bytesBE 2 (body.length + 8) ++
    [17, 64] ++ bytesBE 16 e.src.toNat ++ bytesBE 16 e.dst.toNat ++ udp (udpSum6 e (udp 0))
  else
    let h := [0x45] ++ bytesBE 1 tos ++ bytesBE 2 (body.length + 28) ++ [0, 0] ++ bytesBE 2 0x4000 ++ [64, 17, 0, 0] ++
      bytesBE 4 e.src.toNat ++ bytesBE 4 e.dst.toNat
    mac ++ bytesBE 2 0x0800 ++ spliceAt h 10 (bytesBE 2 (65535 - onesSum (words16 h))) ++ udp 0

/-- Offset of the transport header in a packet the engine builds. -/
def hdrOff (ipv6 : Bool) : Nat := if ipv6 then 62 else 42

/-- Count in an RMT counter of a half: 0 RMT_RX_PKTS to 11 RMT_PATH_FAILED (R395). -/
def Blk.rmtCnt (b : Blk) (h : Half) (k n : Nat) : Blk :=
  { b with rmt := { b.rmt with counts := b.rmt.counts.upd 0 (h.code * 16 + k) (fun x => sat64 x n) } }

/-- Home half of a QP. -/
def Blk.qpHalf (b : Blk) (n : Nat) : Half := b.homeOf (b.cfg.qp n).inst

/-- The engine sends a packet: it enters the host ingress pipeline of a port (R371). -/
def Blk.rmtSend (b : Blk) (half : Half) (port inst meta_ tc : Nat) (e : RmtEnds) (x : RmtHdr) (payload : List Byte)
    (st : TxStamp) : Blk :=
  let f : HostFrame := {
    frame := e.frame (x.bytes b.freeVal.toNat ++ payload), hostMeta := meta_, tc := tc,
    origin := { fromHost := true, hostPort := port, inst := inst }, stamp := some st }
  Blk.rmtCnt { (b.drawn 1) with hostFrames := b.hostFrames.put [] port (b.hostFrames.get [] port ++ [f]) } half 1 1

/-- A packet of a connected QP, as its configuration `c` says (R371, R373). -/
def Blk.qpSend (b : Blk) (n : Nat) (q : QpCfg) (c : Conn) (srcPort : Nat) (x : RmtHdr) (payload : List Byte)
    (st : TxStamp) : Blk :=
  let port := ((b.instCfg q.inst).inst q.inst).port.toNat
  b.rmtSend (b.homeOf q.inst) port q.inst (n % 2 ^ 24 + c.tc * 2 ^ 24) c.tc
    { ipv6 := c.ipv6, src := c.localIp, dst := c.remoteIp, srcPort := srcPort, dstPort := b.cfg.udpPort, dscp := c.dscp }
    { x with destQpn := c.remoteQpn, srcQpn := n } payload { st with hdr := hdrOff c.ipv6, ipv6 := c.ipv6 }

/-- A transport packet as the engine takes it (R375). -/
structure RmtPkt where
  /-- Half of the engine, pipeline that received it, epoch of the packet (R25). -/
  half : Half
  pipe : Nat
  epoch : Nat
  version : Nat
  opcode : Nat
  rsv : Bool
  solicited : Bool
  retx : Bool
  done : Bool
  ceEcho : Bool
  path : Nat
  destQpn : Nat
  srcQpn : Nat
  msn : Nat
  txTs : Nat
  keyEcho : Nat
  remoteAddr : Nat
  offset : Nat
  total : Nat
  aux : Nat
  hold : Nat
  payload : List Byte
  ipv6 : Bool
  srcIp : BitVec 128
  dstIp : BitVec 128
  srcPort : Nat
  /-- It arrived with CE; receive stamp and step count (R377). -/
  ce : Bool
  rxTs : Nat
  rxStep : BitVec 8
  deriving DecidableEq, Repr

/-- Read a packet that the pipeline handed over; `free` is the receive stamp of one that no PCS received. -/
def parseRmt (p : Packet) (half : Half) (free : Nat) : RmtPkt :=
  let ip := (mdHdr p.md (mdL3Slot p.md)).getD 0
  let v6 := mdL3Kind p.md = 2
  let o := rmtAt p
  let f := p.frame
  let u := o - 8
  let flags := (byteAt f (o + 2)).toNat
  let plen := beAt f (u + 4) 2 - 56
  { half := half, pipe := p.pipe, epoch := p.epoch, version := (byteAt f o).toNat / 16, opcode := (byteAt f (o + 1)).toNat,
    rsv := (byteAt f o).toNat % 16 != 0 || flags / 16 != 0 || (byteAt f (o + 3)).toNat / 64 != 0 || byteAt f (o + 8) != 0 ||
           byteAt f (o + 12) != 0,
    solicited := bitOf flags 0, retx := bitOf flags 1, done := bitOf flags 2, ceEcho := bitOf flags 3,
    path := (byteAt f (o + 3)).toNat % 64, destQpn := beAt f (o + 5) 3, srcQpn := beAt f (o + 9) 3, msn := beAt f (o + 13) 3,
    txTs := beAt f (o + 16) 4, keyEcho := beAt f (o + 20) 4, remoteAddr := beAt f (o + 24) 8, offset := beAt f (o + 32) 4,
    total := beAt f (o + 36) 4, aux := beAt f (o + 40) 4, hold := beAt f (o + 44) 4,
    payload := slice f (o + 48) plen, ipv6 := v6,
    srcIp := BitVec.ofNat 128 (if v6 then beAt f (ip + 8) 16 else beAt f (ip + 12) 4),
    dstIp := BitVec.ofNat 128 (if v6 then beAt f (ip + 24) 16 else beAt f (ip + 16) 4),
    srcPort := beAt f u 2,
    ce := (if v6 then beAt f ip 2 / 16 % 4 else (byteAt f (ip + 1)).toNat % 4) == 3,
    rxTs := if mdFromHost p.md then free else mdGet p.md 416 16 % 4 * 1000000000 + mdGet p.md 384 30,
    rxStep := BitVec.ofNat 8 (mdGet p.md 432 8) }

/-- Transport opcodes of requests, and of answers. -/
def isRequest (op : Nat) : Bool := (1 ≤ op && op ≤ 4) || op == 6 || op == 7
def isAnswer (op : Nat) : Bool := op == 5 || op == 8 || op == 0x10 || op == 0x11

/-- The packet's payload length suits its opcode (R376); `mtu` is that of the QP. -/
def RmtPkt.lenOk (x : RmtPkt) (mtu : Nat) : Bool :=
  if x.opcode = 1 ∨ x.opcode = 2 ∨ x.opcode = 3 ∨ x.opcode = 5 then x.payload.length == min mtu (x.total - x.offset)
  else if x.opcode = 6 ∨ x.opcode = 7 then x.payload.length == 16
  else if x.opcode = 8 then x.payload.length == 8
  else x.payload.length == 0

/-- Check 1 of R380: version, opcode, reserved bits, payload length. -/
def RmtPkt.formOk (x : RmtPkt) (mtu : Nat) : Bool :=
  x.version == 1 && (isRequest x.opcode || isAnswer x.opcode) && !x.rsv && x.lenOk mtu

/-! Device memory (R442). -/

/-- First location of a half's device-memory pool. -/
def devmemPool : Half → Nat
  | .west => 0x000100000000
  | .east => 0x000D00000000

/-- Location of a device-memory offset of an instance; none beyond its bushels. -/
def Blk.devLoc (b : Blk) (i off : Nat) : Option Nat :=
  ((b.inst i).blocks[off / 2097152]?).map (fun k => devmemPool (b.homeOf i) + k * 2097152 + off % 2097152)

/-- Location of a device-memory offset for work of an epoch: a bushel that a later epoch took is still reached (R140,
R451). -/
def Blk.devLocAt (b : Blk) (epoch i off : Nat) : Option Nat :=
  match b.insts.leaving.find? (fun x => x.inst == i && x.index == off / 2097152 && decide (epoch < x.before)) with
  | some x => some (devmemPool (if x.east then .east else .west) + x.block * 2097152 + off % 2097152)
  | none => b.devLoc i off

/-- Poison among bytes of an instance's device memory that work of an epoch reads (R487). -/
def Blk.devPoison (b : Blk) (epoch i off n : Nat) : Bool :=
  !b.poison.isEmpty && (granules off n).any (fun g => ((b.devLocAt epoch i (8 * g)).map (fun a => b.anyPoison a 8)).getD false)

/-- Poison in a granule of device memory that a write covers only in part, and so has to read (R200, R487). -/
def Blk.devPartPoison (b : Blk) (epoch i off n : Nat) : Bool :=
  !b.poison.isEmpty && ((granules off n).filter (fun g => !(wholeGranules off n).contains g)).any
    (fun g => b.devPoison epoch i (8 * g) 8)

/-- Read bytes of an instance's device memory for work of an epoch. -/
def Blk.devRead (b : Blk) (epoch i off n : Nat) : List Byte :=
  (List.range n).map (fun k => ((b.devLocAt epoch i (off + k)).map b.byte).getD 0)

/-- Write bytes of an instance's device memory for work of an epoch, block by block. -/
def Blk.devStore (b : Blk) (epoch i off : Nat) (l : List Byte) : Blk :=
  let first := off / 2097152
  (List.range ((off + l.length + 2097151) / 2097152 - first)).foldl (fun b k =>
    let lo := max off ((first + k) * 2097152)
    let hi := min (off + l.length) ((first + k + 1) * 2097152)
    match b.devLocAt epoch i lo with
    | some a => if lo < hi then b.devWrite a (slice l (lo - off) (hi - lo)) else b
    | none => b) b

end Sys2Proof.Machine
end

