-- ==== Sys2Proof/Machine/RmtReq.lean ====
section
/-! DEFINITION. The requester: work requests, triggered operations, messages, sending, loss, answers, paths (R378, R387 to
R394, R397 to R403, R409 to R414). -/

namespace Sys2Proof.Machine
open Sys2Proof

/-! Ends of requests, and trigger counters. -/

/-- The done_counter of an entry that its completion increments: one of the instance (R400, R409). -/
def Blk.bumpOf (b : Blk) (i : Nat) (e : W512) : Option Nat :=
  if rsCountDone e ∧ (b.cfg.trig (rsDone e)).life ≠ .absent ∧ (b.cfg.trig (rsDone e)).inst = i then some (rsDone e) else none

/-- A work request completes at the requester (R403). -/
def Blk.reqDone (b : Blk) (i q : Nat) (idx : W16) (status : Nat) : Blk :=
  match (b.wq i q).entry idx with
  | none => b
  | some e =>
    b.finishNow i q idx status { cplOf e q status (if status = 0 then rsLen e.raw else 0) with tail := rsQpn e.raw }
      (b.bumpOf i e.raw) false (rsQpn e.raw)

/-- A posted or fetched request is bound to the epoch in force and joins its QP's send list, or completes under R400
check 3 (R401, R411). -/
def Blk.joinList (b : Blk) (i q : Nat) (idx : W16) (epoch n : Nat) : Blk :=
  let c := (b.cfgOf epoch).qp n
  if c.life ≠ .enabled ∨ (b.qp n).stopped = true then b.reqDone i q idx 0x0501
  else
    (b.updWq i q (fun w => w.updEntry idx (fun e => { e with st := .started, epoch := epoch }))).updQp n
      (fun x => { x with sendList := x.sendList ++ [(i, q, idx, epoch)] })

/-- A counter is ENABLED. -/
def Blk.trigOn (b : Blk) (k : Nat) : Bool := (b.cfg.trig k).life == .enabled

/-- Posted requests of a counter that are due now, in the order in which they were posted, fire (R411). -/
def Blk.fire (b : Blk) (k : Nat) : Blk :=
  if ¬ b.trigOn k then b
  else
    let due := b.rmt.posted.filter (fun p => p.counter == k && decide (p.threshold ≤ (b.trig k).value))
    let b1 := { b with rmt := { b.rmt with posted := b.rmt.posted.filter (fun p => !due.contains p) } }
    due.foldl (fun b p => b.joinList p.inst p.wq p.idx (b.epochOfHalf (b.homeOf p.inst)) p.qpn) b1

/-- One increment of a counter (R409). -/
def Blk.trigInc (b : Blk) (k n : Nat) : Blk :=
  if b.trigOn k then
    (b.updTrig k (fun t => { t with value := sat32 t.value n, increments := sat64 t.increments 1 })).fire k
  else if (b.cfg.trig k).life = .absent then b
  else b.updTrig k (fun t => { t with discarded := sat64 t.discarded 1 })

/-- Apply increments that are due, one at a time, with those that follow; `fuel` bounds the chain (R409, R412). -/
def Blk.applyIncs : Nat → Blk → Blk
  | 0, b => b
  | fuel + 1, b =>
    match b.rmt.incs with
    | [] => b
    | k :: r => Blk.applyIncs fuel (Blk.trigInc { b with rmt := { b.rmt with incs := r } } k 1)

/-- Settle every increment: each request posted can cause one more. -/
def Blk.settleIncs (b : Blk) : Blk := Blk.applyIncs (b.rmt.incs.length + b.rmt.posted.length + 1) b

/-! Work requests (R400, R410). -/

/-- Posted-request slots in use in a half (R410). -/
def Blk.postedIn (b : Blk) (h : Half) : Nat := (b.rmt.posted.filter (fun p => p.east == (h == .east))).length

/-- A trigger counter that is not one of the instance. -/
def Cfg.foreignTrig (c : Cfg) (i k : Nat) : Bool := (c.trig k).life != .absent && (c.trig k).inst != i

/-- The checks of R400 at fetch, in the configuration of the entry's epoch, those of R410 beside them; 0 where all pass.
Check 3 is made again as a request that fires joins the list (R411). -/
def Blk.wrCheck (b : Blk) (i q : Nat) (e : W512) (epoch : Nat) : Nat :=
  let g := b.cfgOf epoch
  let c := g.qp (rsQpn e)
  if c.life = .absent ∨ c.inst ≠ i then 0x0201
  else if c.sendCq ≠ (g.wq i q).cq then 0x0401
  else if ¬ rsTriggered e ∧ (c.life ≠ .enabled ∨ (b.qp (rsQpn e)).stopped = true) then 0x0501
  else if rsCountDone e ∧ ¬ ((g.trig (rsDone e)).life ≠ .absent ∧ (g.trig (rsDone e)).inst = i) then 0x0201
  else if rsTriggered e ∧ g.foreignTrig i (rsTrig e) then 0x0201
  else if rsTriggered e ∧ (g.trig (rsTrig e)).life = .absent then 0x0402
  else if rsTriggered e ∧ 65536 ≤ b.postedIn (b.homeOf i) then 0x0304
  else 0

/-- The next entry of an RMT_SEND queue is checked: it joins the send list, is posted, or completes (R400, R410). -/
def Blk.wrStart (b : Blk) (i q op : Nat) (triggered : Bool) : Blk :=
  if ((b.instCfg i).wq i q).kind.toNat ≠ kRmtSend then b
  else
    match (b.wq i q).nextStart with
    | none => b
    | some e =>
      if weOp e.raw ≠ op ∨ rsTriggered e.raw ≠ triggered then b
      else
        let st := b.wrCheck i q e.raw e.epoch
        if st ≠ 0 then (b.reqDone i q e.idx st).settleIncs
        else if triggered then
          let b1 := b.updWq i q (fun w => w.updEntry e.idx (fun x => { x with st := .started }))
          let p : Posted := { east := b.homeOf i == .east, counter := rsTrig e.raw, threshold := rsThreshold e.raw, inst := i,
                              wq := q, idx := e.idx, qpn := rsQpn e.raw }
          (Blk.fire { b1 with rmt := { b1.rmt with posted := b1.rmt.posted ++ [p] } } (rsTrig e.raw)).settleIncs
        else (b.joinList i q e.idx e.epoch (rsQpn e.raw)).settleIncs

/-! Paths. -/

def Qp.path (q : Qp) (p : Nat) : Path := q.paths.get {} p
def Qp.updPath (q : Qp) (p : Nat) (f : Path → Path) : Qp := { q with paths := q.paths.upd {} p f }

/-- Transport state at ENABLE (R397). -/
def Qp.atEnable (q : Qp) (paths init : Nat) : Qp :=
  { q with nextMsn := 0, stopped := false, lastPath := 0, order := 0, head := 0xFFFFFF, states := [], totals := [],
           trackers := [], atoms := [], out := [], draining := false,
           paths := (List.range paths).foldl (fun t p => t.put {} p { cwnd := init }) [] }

/-- Paths of a QP in the order of turns after the one used last (R391). -/
def turns (n last : Nat) : List Nat := (List.range n).map (fun k => (last + 1 + k) % n)

/-- A path has room for `len` bytes (R391). -/
def Path.room (p : Path) (len : Nat) : Bool := p.inflight == 0 || decide (p.inflight + len ≤ p.cwnd)

/-- The path for a new unit (R391). -/
def Qp.newPath (q : Qp) (n len : Nat) : Option Nat :=
  (turns n q.lastPath).find? (fun p => (q.path p).st == .healthy && (q.path p).room len)

/-- Nothing is in flight on a path: no bytes, and no unit of any message (R391). -/
def Qp.idlePath (q : Qp) (p : Nat) : Bool :=
  (q.path p).inflight == 0 && q.out.all (fun m => m.units.all (fun u => u.path != p))

/-- The path for a unit lost on `own` (R387, R391): another HEALTHY path with room, else its own, else a SUSPECT one; a
SUSPECT path carries one unit at a time, a FAILED one nothing. -/
def Qp.rePath (q : Qp) (n own len : Nat) : Option Nat :=
  match (turns n own).find? (fun p => p != own && (q.path p).st == .healthy && (q.path p).room len) with
  | some p => some p
  | none =>
    let probe := fun p => (q.path p).st == .suspect && q.idlePath p
    if (q.path own).st = .healthy then some own
    else if probe own then some own
    else if (List.range n).any (fun p => (q.path p).st == .healthy) then none
    else (turns n own).find? probe

/-- RTO of a path in ns (R387, R393). -/
def rto (t : Tune) (p : Path) : Nat :=
  if p.sampled then max (t.rtoUs * 1000) (p.srtt + 4 * p.rttvar).toNat else t.rtoUs * 1000

/-- Timeout of a unit (R387). -/
def unitTimeout (t : Tune) (q : Qp) (u : TUnit) : Nat := rto t (q.path u.path) * 2 ^ min u.attempts 6

/-- Cut of a window on CE or a loss, at most once in a round trip (R394). -/
def Path.cut (p : Path) (f : CcProf) (mono : Nat) : Path :=
  if f.md = 0 ∨ mono < p.cutUntil then p
  else { p with cwnd := max f.lo (min f.hi (p.cwnd - p.cwnd / 2 ^ f.md)), cutUntil := mono + p.srtt.toNat }

/-- Least delay sample of the last 10 s (R393). -/
def Path.baseRtt (p : Path) (mono : Nat) : Nat :=
  match p.samples.filter (fun s => mono ≤ s.1 + 10000000000) with
  | [] => 0
  | s :: r => r.foldl (fun a x => min a x.2) s.2

/-- Take a delay sample (R393). -/
def Path.sample (p : Path) (mono rtt : Nat) : Path :=
  let s := (p.samples.filter (fun s => mono ≤ s.1 + 10000000000)) ++ [(mono, rtt)]
  if p.sampled then
    { p with samples := s, srtt := p.srtt + ((rtt : Int) - p.srtt) / 8,
             rttvar := p.rttvar + ((((rtt : Int) - p.srtt).natAbs : Int) - p.rttvar) / 4 }
  else { p with samples := s, sampled := true, srtt := rtt, rttvar := rtt / 2 }

/-- One answer on a path (R394); `acked` bytes. -/
def Path.answer (p : Path) (f : CcProf) (mono acked : Nat) (rtt : Option Nat) (ce : Bool) : Path :=
  let clamp := fun w => max f.lo (min f.hi w)
  let base := p.baseRtt mono
  if ce ∧ f.md ≠ 0 then { p.cut f mono with cwnd := clamp (p.cut f mono).cwnd }
  else
    match rtt with
    | some r =>
      if f.target ≠ 0 ∧ base + f.target < r then
        if p.cutUntil ≤ mono then
          { p with cwnd := clamp (p.cwnd - p.cwnd * (r - base - f.target) / r / 2 ^ f.beta), cutUntil := mono + p.srtt.toNat }
        else { p with cwnd := clamp p.cwnd }
      else if ¬ ce then { p with cwnd := clamp (p.cwnd + f.ai * acked / max p.cwnd 1) }
      else { p with cwnd := clamp p.cwnd }
    | none => if ¬ ce then { p with cwnd := clamp (p.cwnd + f.ai * acked / max p.cwnd 1) } else { p with cwnd := clamp p.cwnd }

/-! Messages. -/

/-- Units of a message (R378): packets of the mtu, READ segments of 16 packets, one packet for an atomic. -/
def cutUnits (op len mtu attempt : Nat) : List Unsent :=
  let step := if op = 0x12 then 16 * mtu else mtu
  if atomicOp op ∨ len = 0 then [{ off := 0, len := len, attempt := attempt }]
  else (List.range (ceilDiv len step)).map (fun k => { off := k * step, len := min step (len - k * step), attempt := attempt })

def Qp.msg (q : Qp) (msn : Nat) : Option OutMsg := q.out.find? (fun m => m.msn == msn)
def Qp.updMsg (q : Qp) (msn : Nat) (f : OutMsg → OutMsg) : Qp :=
  { q with out := q.out.map (fun m => if m.msn = msn then f m else m) }
/-- Messages between their first packet and their end (R378). -/
def Qp.live (q : Qp) : List OutMsg := q.out.filter (fun m => m.ended.isNone)

/-- Bytes that leave the in-flight count of their paths when units end. -/
def Qp.land (q : Qp) (us : List TUnit) : Qp :=
  us.foldl (fun q u => q.updPath u.path (fun p => { p with inflight := p.inflight - u.flying })) q

/-- Ended messages at the head of a QP are completed in msn order (R403); `fuel` bounds their number. -/
def Blk.releaseMsgs : Nat → Blk → Nat → Blk
  | 0, b, _ => b
  | fuel + 1, b, n =>
    match (b.qp n).out with
    | [] => b
    | m :: r =>
      match m.ended with
      | some st => Blk.releaseMsgs fuel ((b.updQp n (fun q => { q with out := r })).reqDone m.inst m.wq m.idx st) n
      | none => b

/-- A message ends with a status; when attempts ran out the requester side stops, every other one ends, and so do the requests
that wait in the send list (R388, R390). -/
def Blk.endMsg (b : Blk) (n msn status : Nat) (stop : Bool) : Blk :=
  let b1 := b.updQp n (fun q =>
    let ending := fun m : OutMsg => m.ended.isNone && (stop || m.msn == msn)
    let q1 := (q.out.filter ending).foldl (fun q m => q.land m.units) q
    { q1 with stopped := q.stopped || stop,
              out := q1.out.map (fun m => if ending m then { m with ended := some status, units := [], unsent := [] } else m) })
  let b2 := Blk.releaseMsgs (b1.qp n).out.length b1 n
  if stop then
    (b2.qp n).sendList.foldl (fun b s => b.reqDone s.1 s.2.1 s.2.2.1 0x0501) (b2.updQp n (fun q => { q with sendList := [] }))
  else b2

/-- Transport opcode of a work request opcode. -/
def wireOp (op : Nat) : Nat :=
  if op = 0x10 then 1 else if op = 0x11 then 2 else if op = 0x13 then 3 else if op = 0x12 then 4 else if op = 0x15 then 6 else 7

/-- The packet of one unit (R375, R378). -/
def Blk.sendUnit (b : Blk) (n : Nat) (m : OutMsg) (u : Unsent) (path : Nat) (payload : List Byte) : Blk :=
  let q := b.qp n
  let c := (b.cfgOf m.epoch).qp n
  match c.conn with
  | none => b
  | some conn =>
    let t : TUnit := { off := u.off, len := u.len, path := path, attempts := u.attempt, since := b.mono, order := q.order,
                       step := b.clk.stepCount, flying := u.len }
    let b1 := b.updQp n (fun q =>
      { (q.updPath path (fun p => { p with inflight := p.inflight + u.len })).updMsg m.msn
          (fun m => { m with units := m.units ++ [t] }) with lastPath := path, order := q.order + 1 })
    let again := decide (0 < u.attempt)
    let b2 := if again then (b1.rmtCnt (b1.qpHalf n) 8 1).updQp n (fun q => { q with retx := sat64 q.retx 1 }) else b1
    b2.qpSend n c conn (pathPort n path (q.path path).reroll)
      { opcode := wireOp m.op, solicited := m.solicited, retx := again, path := path, destQpn := 0, srcQpn := 0, msn := m.msn,
        keyEcho := m.rkey, remoteAddr := m.remoteAddr, offset := u.off, total := m.total,
        aux := if m.op = 0x11 then m.imm else if m.op = 0x12 then u.len else 0 }
      payload { hdr := 0, ipv6 := false, unit := some (n, m.msn, u.off) }

/-- Source bytes a message needs to send: of WRITE, WRITE_IMM and SEND with a length. -/
def OutMsg.reads (m : OutMsg) : Bool := (m.op == 0x10 || m.op == 0x11 || m.op == 0x13) && m.total != 0

/-- Send one unit now, when its path and its source bytes are there: `none` where it must wait; the message ends where the
source does not read (R402, R403). -/
def Blk.tryUnit (b : Blk) (n : Nat) (m : OutMsg) (u : Unsent) (src : List SrcRead) : Option Blk :=
  let q := b.qp n
  let np := (((b.cfgOf m.epoch).qp n).conn.map (·.paths)).getD 0
  match (match u.lostOn with
    | some own => q.rePath np own u.len
    | none => q.newPath np u.len) with
  | none => none
  | some path =>
    if m.reads then
      match src.find? (fun s => s.msn.toNat == m.msn) with
      | none => none
      | some s =>
        if ¬ b.canIssue ((b.instCfg m.inst).inst m.inst).port.toNat true then none
        else
          match b.ansFault m.inst m.localAddr s.ans with
          | some (st, b1) => some (b1.endMsg n m.msn st false)
          | none => some (b.sendUnit n m u path (slice (ansBytes s.ans) u.off u.len))
    else some (b.sendUnit n m u path (if atomicOp m.op then bytesBE 8 m.op0 ++ bytesBE 8 m.op1 else []))

/-- Send units of a message in order until one must wait. -/
def Blk.pumpMsg (n msn : Nat) (src : List SrcRead) : List Unsent → Blk → Blk
  | [], b => b
  | u :: us, b =>
    match (b.qp n).msg msn with
    | none => b
    | some m =>
      if m.ended.isSome || m.holdTo.isSome then b
      else
        match b.tryUnit n { m with unsent := [] } u src with
        | none => b
        | some b1 =>
          Blk.pumpMsg n msn src us (b1.updQp n (fun q => q.updMsg msn (fun m => { m with unsent := m.unsent.drop 1 })))

/-- Send what may be sent of a QP's messages, oldest first. -/
def Blk.pump (b : Blk) (n : Nat) (src : List SrcRead) : Blk :=
  (b.qp n).live.foldl (fun b m => Blk.pumpMsg n m.msn src m.unsent b) b

/-- The head of a QP's send list becomes a message (R378, R401), and what may be sent is sent. -/
def Blk.startMsg (b : Blk) (n : Nat) (src : List SrcRead) : Blk :=
  let q := b.qp n
  match q.sendList with
  | [] => b.pump n src
  | (i, w, idx, epoch) :: rest =>
    match (b.wq i w).entry idx, ((b.cfgOf epoch).qp n).conn with
    | some e, some conn =>
      let op := weOp e.raw
      let c := (b.cfgOf epoch).qp n
      let first := (cutUnits op (rsLen e.raw) conn.mtu 0).head?.map (·.len)
      if q.stopped ∨ min c.maxOut 512 ≤ q.live.length ∨
         (atomicOp op ∧ 64 ≤ (q.live.filter (fun m => atomicOp m.op)).length) ∨
         (q.newPath conn.paths (first.getD 0)).isNone then b.pump n src
      else
        let m : OutMsg := {
          msn := q.nextMsn, inst := i, wq := w, idx := idx, epoch := epoch, op := op, localAddr := rsLocal e.raw,
          remoteAddr := rsRemote e.raw, rkey := if op = 0x13 then 0 else rsRkey e.raw, total := rsLen e.raw,
          imm := if op = 0x11 then rsImm e.raw else 0, op0 := rsOp0 e.raw, op1 := if op = 0x16 then rsOp1 e.raw else 0,
          solicited := rsSolicited e.raw, mtu := conn.mtu, tune := tuneOf c.tune,
          unsent := cutUnits op (rsLen e.raw) conn.mtu 0 }
        (b.updQp n (fun q => { q with
          sendList := rest, nextMsn := (q.nextMsn + 1) % 2 ^ 24, out := q.out ++ [m], sent := sat64 q.sent 1 })).pump n src
    | _, _ => b

/-! Loss (R387, R389, R390). -/

/-- Runs of packets of a READ segment that have not arrived. -/
def missing (got : List Nat) (mtu off len : Nat) : List (Nat × Nat) :=
  ((List.range (max (ceilDiv len mtu) 1)).map (fun k => (off / mtu + k, off + k * mtu, min mtu (len - k * mtu)))).foldl
    (fun acc x =>
      if got.contains x.1 then acc
      else
        match acc.getLast? with
        | some (o, l) => if o + l = x.2.1 then acc.dropLast ++ [(o, l + x.2.2)] else acc ++ [(x.2.1, x.2.2)]
        | none => [(x.2.1, x.2.2)]) []

/-- A unit is lost: it leaves its path, and is to be sent again, or its attempts have run out (R387, R390). -/
def Blk.lose (b : Blk) (n msn : Nat) (u : TUnit) : Blk :=
  match (b.qp n).msg msn with
  | none => b
  | some m =>
    let f := ccProf m.tune.ccProfile
    let b1 := b.updQp n (fun q => ((q.land [u]).updPath u.path (fun p => p.cut f b.mono)).updMsg msn (fun m =>
      let again := if m.op = 0x12 then missing m.got m.mtu u.off u.len else [(u.off, u.len)]
      { m with
        units := m.units.filter (fun x => x.off != u.off),
        unsent := (again.map (fun r => { off := r.1, len := r.2, attempt := u.attempts + 1, lostOn := some u.path })) ++ m.unsent }))
    if m.tune.retryLimit < u.attempts + 1 then b1.endMsg n msn 0x0501 true else b1

/-- A timer expires on a path (R391): SUSPECT, and FAILED at the third expiry without an answer between. -/
def Blk.pathExpiry (b : Blk) (n p : Nat) : Blk :=
  let x := (b.qp n).path p
  let k := x.expiries + 1
  let failed := decide (3 ≤ k) && x.st != .failed
  let b1 := b.updQp n (fun q => q.updPath p (fun x => { x with
    expiries := k, st := if x.st = .failed ∨ 3 ≤ k then .failed else .suspect,
    failedAt := if failed then b.mono else x.failedAt }))
  if failed then b1.rmtCnt (b1.qpHalf n) 11 1 else b1

/-- The timer of a unit expires (R387). -/
def Blk.retxTimeout (b : Blk) (n msn off : Nat) (src : List SrcRead) : Blk :=
  match (b.qp n).msg msn with
  | none => b
  | some m =>
    match m.units.find? (fun u => u.off == off) with
    | none => b
    | some u =>
      if m.ended.isSome ∨ m.holdTo.isSome ∨ b.mono < u.since + unitTimeout m.tune (b.qp n) u then b
      else ((((b.rmtCnt (b.qpHalf n) 9 1).pathExpiry n u.path).lose n msn u).pump n src).settleIncs

/-- Every packet of a message is sent again, as one more attempt (R386, R388, R390). -/
def Blk.restart (b : Blk) (n msn : Nat) : Blk :=
  match (b.qp n).msg msn with
  | none => b
  | some m =>
    let k := (m.units.foldl (fun a u => max a u.attempts) (m.unsent.foldl (fun a u => max a u.attempt) m.restarts)) + 1
    let own := fun off : Nat => (m.units.find? (fun u => u.off == off)).map (·.path)
    let b1 := b.updQp n (fun q => (q.land m.units).updMsg msn (fun m => { m with
      units := [], acked := 0, restarts := k, unsent := (cutUnits m.op m.total m.mtu k).map (fun u => { u with lostOn := own u.off }) }))
    if m.tune.retryLimit < k then b1.endMsg n msn 0x0501 true else b1

/-- NAK RNR: every unanswered packet is held, those that a NAK before it holds among them; each counts one attempt (R389). -/
def Blk.rnrHold (b : Blk) (n msn : Nat) : Blk :=
  match (b.qp n).msg msn with
  | none => b
  | some m =>
    let waiting := m.unsent.map (fun u => if u.lostOn.isSome then { u with attempt := u.attempt + 1 } else u)
    let again := (m.units.map (fun u =>
      ({ off := u.off, len := u.len, attempt := u.attempts + 1, lostOn := some u.path } : Unsent))) ++ waiting
    let b1 := b.updQp n (fun q => (q.land m.units).updMsg msn (fun m => { m with
      rnr := m.rnr + 1, holdTo := some (b.mono + 50000 * 2 ^ min (m.rnr + 1) 8), units := [], unsent := again }))
    if again.any (fun u => m.tune.retryLimit < u.attempt) then b1.endMsg n msn 0x0501 true else b1

/-- The RNR hold of a message ends (R389). -/
def Blk.rnrExpire (b : Blk) (n msn : Nat) (src : List SrcRead) : Blk :=
  match ((b.qp n).msg msn).bind (·.holdTo) with
  | none => b
  | some t =>
    if b.mono < t then b
    else ((b.updQp n (fun q => q.updMsg msn (fun m => { m with holdTo := none }))).pump n src).settleIncs

/-- 1 ms after a path failed it is re-rolled and becomes SUSPECT (R391). -/
def Blk.pathReroll (b : Blk) (n p : Nat) : Blk :=
  let x := (b.qp n).path p
  if x.st ≠ .failed ∨ b.mono < x.failedAt + 1000000 then b
  else b.updQp n (fun q => q.updPath p (fun x => { x with st := .suspect, reroll := x.reroll + 1, expiries := 0 }))

/-! Answers (R388, R392). -/

/-- The delay sample of an answer (R392); `step` is the step count when the unit was sent. -/
def RmtPkt.rtt (x : RmtPkt) (c : Clock) (step : Option (BitVec 8)) : Option Nat :=
  let d := (x.rxTs + 4000000000 - x.keyEcho % 4000000000) % 4000000000
  if x.hold = 0xFFFFFFFF ∨ step ≠ some c.stepCount ∨ d < x.hold then none else some (d - x.hold)

/-- An answer came on a path: HEALTHY, sample, window, and the 3-later rule (R387, R391 to R394). `ended`: units that it
answers, with the bytes they give back. -/
def Blk.pathAnswer (b : Blk) (n : Nat) (x : RmtPkt) (m : OutMsg) (ended : List (TUnit × Nat)) : Blk :=
  let q := b.qp n
  let f := ccProf m.tune.ccProfile
  let own := ended.filter (fun u => u.1.path == x.path)
  let rtt := x.rtt b.clk ((own.head?).map (fun u => u.1.step))
  let acked := ended.foldl (fun a u => a + u.2) 0
  -- packets that this answer is the first for: a READ segment counts with its first response
  let first := own.filter (fun u => u.1.flying == u.1.len)
  let known := (q.paths.any (fun p => p.1 == x.path))
  if ¬ known then b
  else
    b.updQp n (fun q =>
      let q1 := q.updPath x.path (fun p =>
        let p1 := match rtt with
          | some r => p.sample b.mono r
          | none => p
        { p1.answer f b.mono acked rtt x.ceEcho with st := .healthy, expiries := 0 })
      { q1 with out := q1.out.map (fun m => { m with units := m.units.map (fun u =>
        if u.path = x.path then { u with later := u.later + (first.filter (fun y => decide (u.order < y.1.order))).length }
        else u) }) })

/-- Units that 3 packets sent later on their path have overtaken are lost (R387). -/
def Blk.loseLate (b : Blk) (n : Nat) : Blk :=
  (b.qp n).live.foldl (fun b m =>
    if m.op = 0x12 then b else (m.units.filter (fun u => 3 ≤ u.later)).foldl (fun b u => b.lose n m.msn u) b) b

/-- An ACK (R385, R388). -/
def Blk.onAck (b : Blk) (n : Nat) (x : RmtPkt) (m : OutMsg) : Blk :=
  let us := m.units.filter (fun u =>
    (decide (x.offset ≤ u.off) && decide (u.off + u.len ≤ x.offset + x.aux)) || x.done)
  let got := us.foldl (fun a u => a + u.len) 0
  let held := m.acked + got
  let b1 := (b.updQp n (fun q => (q.land us).updMsg m.msn (fun m => { m with
    units := m.units.filter (fun u => !us.contains u), acked := held }))).pathAnswer n x m (us.map (fun u => (u, u.len)))
  if x.done then b1.endMsg n m.msn 0 false
  else if x.total < held then b1.restart n m.msn
  else b1

/-- Completion status of a final wire code (R386). -/
def wireStatus (code : Nat) : Option Nat :=
  match code with
  | 1 => some 0x0203
  | 2 => some 0x0402
  | 3 => some 0x0103
  | 4 => some 0x0105
  | 6 => some 0x0522
  | 7 => some 0x0523
  | _ => none

/-- A NAK (R386, R388, R389); a code that R386 does not list changes nothing but the counts. -/
def Blk.onNak (b : Blk) (n : Nat) (x : RmtPkt) (m : OutMsg) : Blk :=
  let b1 := (b.updQp n (fun q => { q with nakRx := sat64 q.nakRx 1 })).pathAnswer n x m
    ((m.units.filter (fun u => u.off == x.offset && u.path == x.path)).map (fun u => (u, 0)))
  match wireStatus (x.aux % 256) with
  | some st => b1.endMsg n m.msn st false
  | none =>
    if x.aux % 256 = 5 then b1.rnrHold n m.msn
    else if x.aux % 256 = 8 then b1.restart n m.msn
    else b1

/-- A READ_RESP (R388, R402): its bytes go to local_addr; the segment that carries it lands. -/
def Blk.onReadResp (b : Blk) (n : Nat) (x : RmtPkt) (m : OutMsg) (ans : Ans) : Blk :=
  let k := x.offset / m.mtu
  let fresh := !m.got.contains k
  let u := m.units.find? (fun u => decide (u.off ≤ x.offset) && decide (x.offset < u.off + max u.len 1))
  match (if x.payload = [] then none else b.writeFault m.inst (m.localAddr + x.offset) ans) with
  | some (st, b1) => b1.endMsg n m.msn st false
  | none =>
    let b1 := if x.payload = [] then b else b.instWrite m.inst 2 (m.localAddr + x.offset) x.payload
    let gone := if fresh then x.payload.length else 0
    let b2 := (b1.updQp n (fun q =>
      (match u with
        | some u => q.updPath u.path (fun p => { p with inflight := p.inflight - min gone u.flying })
        | none => q).updMsg m.msn (fun m => { m with
          got := if fresh then m.got ++ [k] else m.got,
          units := m.units.map (fun y => if some y = u then { y with flying := y.flying - gone } else y) }))).pathAnswer n x m
      ((u.map (fun u => (u, gone))).toList)
    -- segments whose packets have all arrived have landed
    let b3 := b2.updQp n (fun q => q.updMsg m.msn (fun m => { m with
      units := m.units.filter (fun y => !(missing m.got m.mtu y.off y.len).isEmpty) }))
    match (b3.qp n).msg m.msn with
    | none => b3
    | some m' => if max (ceilDiv m.total m.mtu) 1 ≤ m'.got.length then b3.endMsg n m.msn 0 false else b3

/-- An ATOMIC_RESP (R388, R402): the old value goes to local_addr, little-endian. -/
def Blk.onAtomicResp (b : Blk) (n : Nat) (x : RmtPkt) (m : OutMsg) (ans : Ans) : Blk :=
  match b.writeFault m.inst m.localAddr ans with
  | some (st, b1) => b1.endMsg n m.msn st false
  | none =>
    let b1 := b.instWrite m.inst 2 m.localAddr x.payload.reverse
    ((b1.updQp n (fun q => (q.land m.units).updMsg m.msn (fun m => { m with units := [] }))).pathAnswer n x m
      (m.units.map (fun u => (u, u.len)))).endMsg n m.msn 0 false

/-- The kind of an answer suits the message it names. -/
def answerFits (op wire : Nat) : Bool :=
  wire == 0x11 || (wire == 5 && op == 0x12) || (wire == 8 && atomicOp op) ||
  (wire == 0x10 && (op == 0x10 || op == 0x11 || op == 0x13))

/-- An answer reaches its requester. -/
def Blk.onAnswer (b : Blk) (x : RmtPkt) (ans : Ans) (src : List SrcRead) : Blk :=
  let n := x.destQpn
  match (b.qp n).live.find? (fun m => m.msn == x.msn && answerFits m.op x.opcode) with
  | none => b.rmtCnt x.half 6 1
  | some m =>
    if ¬ x.formOk m.mtu then b.rmtCnt x.half 2 1
    else if (x.opcode = 5 ∨ x.opcode = 8) ∧ ¬ b.instCan m.inst then b.rmtCnt x.half 3 1
    else
      let b1 :=
        if x.opcode = 0x10 then b.onAck n x m
        else if x.opcode = 0x11 then b.onNak n x m
        else if x.opcode = 5 then b.onReadResp n x m ans
        else b.onAtomicResp n x m ans
      ((b1.loseLate n).pump n src).settleIncs

end Sys2Proof.Machine
end

