-- ==== Sys2Proof/Machine/RmtResp.lean ====
section
/-! DEFINITION. The responder: classification, admission, placement, answers, trackers (R379 to R386, R404 to R408). -/

namespace Sys2Proof.Machine
open Sys2Proof

def Qp.tracker (q : Qp) (msn : Nat) : Option Tracker := q.trackers.find? (fun t => t.msn == msn)
def Qp.msnSt (q : Qp) (msn : Nat) : MsnSt := q.states.get .done (msn % 1024)
def Qp.setMsn (q : Qp) (msn : Nat) (s : MsnSt) : Qp := { q with states := q.states.put .done (msn % 1024) s }
def Qp.setTracker (q : Qp) (t : Tracker) : Qp :=
  { q with trackers := q.trackers.map (fun x => if x.msn = t.msn then t else x) }
def Qp.dropTracker (q : Qp) (msn : Nat) : Qp := { q with trackers := q.trackers.filter (fun t => t.msn != msn) }

/-- An answer to a request (R374, R375, R385): it carries the path and source port of the packet answered. -/
def Blk.answer (b : Blk) (x : RmtPkt) (h : RmtHdr) (payload : List Byte) (serves : Option (Nat × Nat × Nat)) : Blk :=
  let q := (b.cfgOf x.epoch).qp x.destQpn
  match q.conn with
  | none => b
  | some c =>
    b.qpSend x.destQpn q c x.srcPort
      { h with ceEcho := x.ce, path := x.path, msn := x.msn, keyEcho := x.txTs } payload
      { hdr := 0, ipv6 := false, answer := some (x.rxTs, x.rxStep), serves := serves }

/-- An ACK for the range of the packet (R385). -/
def Blk.ack (b : Blk) (x : RmtPkt) (done : Bool) (total : Nat) : Blk :=
  b.answer x { opcode := 0x10, done := done, destQpn := 0, srcQpn := 0, msn := 0, offset := x.offset, total := total,
               aux := x.payload.length } [] none

/-- A NAK with a wire code (R386); total is the bytes placed. -/
def Blk.nak (b : Blk) (x : RmtPkt) (code : Nat) : Blk :=
  let placed := (((b.qp x.destQpn).tracker x.msn).map (·.counted)).getD 0
  (b.rmtCnt x.half 7 1).answer x
    { opcode := 0x11, destQpn := 0, srcQpn := 0, msn := 0, offset := x.offset, total := placed, aux := code } [] none

/-- NAK BAD_QP to the source of a packet, whatever a QP is connected to; `port`, `inst`, `meta_` and `tc` are those of the
sender (R371, R386). -/
def Blk.nakSource (b : Blk) (x : RmtPkt) (port inst meta_ tc : Nat) : Blk :=
  (b.rmtCnt x.half 7 1).rmtSend x.half port inst meta_ tc
    { ipv6 := x.ipv6, src := x.dstIp, dst := x.srcIp, srcPort := x.srcPort, dstPort := x.srcPort }
    { opcode := 0x11, ceEcho := x.ce, path := x.path, destQpn := x.srcQpn, srcQpn := x.destQpn, msn := x.msn,
      keyEcho := x.txTs, offset := x.offset, aux := 2 } []
    { hdr := hdrOff x.ipv6, ipv6 := x.ipv6, fixedPort := true, answer := some (x.rxTs, x.rxStep) }

/-- NAK BAD_QP to a packet that names no QP: to its source address and port, once in 10 µs for each half (R386). -/
def Blk.nakNoQp (b : Blk) (x : RmtPkt) : Blk :=
  let last := match x.half with
    | .west => b.rmt.nakWest
    | .east => b.rmt.nakEast
  if (last.map (fun t => decide (b.mono < t + 10000))).getD false then b.rmtCnt x.half 2 1
  else
    let b1 := match x.half with
      | .west => { b with rmt := { b.rmt with nakWest := some b.mono } }
      | .east => { b with rmt := { b.rmt with nakEast := some b.mono } }
    b1.nakSource x (2 * x.pipe) 0 0 0

/-- NAK BAD_QP of a QP that is not ENABLED, not connected, or connected elsewhere (R380 check 2): the msn is REFUSED, and the
NAK goes to the packet's source (DESIGN CHOICE, log 68: for a QP connected elsewhere R380 does not say where). -/
def Blk.refuseBadQp (b : Blk) (x : RmtPkt) : Blk :=
  let q := (b.cfgOf x.epoch).qp x.destQpn
  (b.nakSource x ((b.instCfg q.inst).inst q.inst).port.toNat q.inst
    (x.destQpn % 2 ^ 24 + ((q.conn.map (·.tc)).getD 0) * 2 ^ 24) ((q.conn.map (·.tc)).getD 0)).updQp x.destQpn
      (fun q => q.setMsn x.msn (.refused 2))

/-- A message is refused for good: NAK, and the msn is REFUSED with the code (R380). -/
def Blk.refuse (b : Blk) (x : RmtPkt) (code : Nat) : Blk :=
  (b.nak x code).updQp x.destQpn (fun q => q.setMsn x.msn (.refused code))

/-- Abandon a tracker (R382): its buffer and slot are released, NAK RESTART goes out on its last path. -/
def Blk.abandon (b : Blk) (n msn : Nat) : Blk :=
  match (b.qp n).tracker msn with
  | none => b
  | some t =>
    let h := b.qpHalf n
    let b1 := (b.updQp n (fun q => { q.dropTracker msn with abandoned := sat64 q.abandoned 1 })).rmtCnt h 10 1
    let q := (b.cfgOf t.epoch).qp n
    match q.conn with
    | none => b1
    | some c =>
      (b1.rmtCnt h 7 1).qpSend n q c t.lastPort
        { opcode := 0x11, path := t.lastPath, destQpn := 0, srcQpn := 0, msn := msn, keyEcho := t.lastTs, total := t.counted,
          aux := 8 } []
        { hdr := 0, ipv6 := false, answer := some (t.lastRx, t.lastStep) }

/-- How R379 classifies a request. -/
inductive Class where
  | stale
  | at (s : MsnSt)
  deriving DecidableEq, Repr

/-- Slide the window over `k` msns beyond the head, abandoning trackers that leave it (R379). -/
def Blk.slide : Nat → Blk → Nat → Blk
  | 0, b, _ => b
  | k + 1, b, n =>
    let x := ((b.qp n).head + 1) % 2 ^ 24
    let b1 := if (b.qp n).msnSt x = .opened then b.abandon n ((x + 2 ^ 24 - 1024) % 2 ^ 24) else b
    Blk.slide k (b1.updQp n (fun q => { q.setMsn x .opened with head := x })) n

/-- Classify one request of a msn (R379). -/
def Blk.classify (b : Blk) (n msn : Nat) : Class × Blk :=
  let head := (b.qp n).head
  let back := (head + 2 ^ 24 - msn) % 2 ^ 24
  let ahead := (msn + 2 ^ 24 - head) % 2 ^ 24
  if back < 1024 then (.at ((b.qp n).msnSt msn), b)
  else if ahead ≤ 512 then (.at .opened, Blk.slide ahead b n)
  else (.stale, b)

/-- The answer to a packet of a DONE message (R379, R384). -/
def Blk.resend (b : Blk) (x : RmtPkt) : Blk :=
  if x.opcode = 6 ∨ x.opcode = 7 then
    match (b.qp x.destQpn).atoms.find? (fun a => a.1 == x.msn) with
    | none => b.rmtCnt x.half 5 1
    | some a =>
      b.answer x { opcode := 8, destQpn := 0, srcQpn := 0, msn := 0, total := 8 } (bytesBE 8 a.2.toNat) none
  else b.ack x true ((b.qp x.destQpn).totals.get 0 (x.msn % 1024))

/-- Window that lets a request through (R380 check 5), by id. -/
def Cfg.winFor (c : Cfg) (i n : Nat) (x : RmtPkt) : Option Nat :=
  let bit := if x.opcode = 4 then 0 else if x.opcode = 6 ∨ x.opcode = 7 then 2 else 1
  (c.wins.find? (fun w => w.1 / 65536 == i && w.2.life == .enabled && w.2.key.toNat == x.keyEcho &&
    (w.2.qpn == 0 || w.2.qpn == n) && decide (w.2.base ≤ x.remoteAddr) &&
    decide (x.remoteAddr + x.total ≤ w.2.base + w.2.length) && w.2.access.getLsbD bit)).map (fun w => w.1 % 65536)

/-- Entries of an RMT_RECV queue that are posted buffers for a QP and not reserved (R404), oldest first. -/
def Blk.buffers (b : Blk) (i w n : Nat) : List Entry :=
  let taken := b.rmt.qps.flatMap (fun q => if (b.cfg.qp q.1).inst = i then q.2.trackers.filterMap (·.buf) else [])
  (b.wq i w).fetched.filter (fun e =>
    e.st == .started && (rvQpn e.raw == 0 || rvQpn e.raw == n) && !taken.contains (w, e.idx))

/-- Trackers live in a half (R381). -/
def Blk.trackersIn (b : Blk) (h : Half) : Nat :=
  b.rmt.qps.foldl (fun a q => if b.qpHalf q.1 = h then a + q.2.trackers.length else a) 0

/-- Checks 2 to 7 of R380: `.inl` a refusal code, `.inr none` a discard counted as held, or the window and buffer. -/
inductive Adm where
  | pass (win : Option Nat) (buf : Option (Nat × W16))
  | final (code : Nat)
  | rnr
  | held
  | silent
  deriving DecidableEq, Repr

/-- Admission checks 2 to 7 (R380), in order. Packets for a DETACHED instance are discarded and counted as under R79 (R82);
those for one that is not ENABLED are discarded (R160). DESIGN CHOICE (log 110): an atomic on host memory while AtomicOp
Requester Enable is 0 (R56), of which R380 does not speak, is held as under check 3. -/
def Blk.admission (b : Blk) (x : RmtPkt) : Adm :=
  let c := b.cfgOf x.epoch
  let q := c.qp x.destQpn
  let i := q.inst
  let atomic := decide (x.opcode = 6 ∨ x.opcode = 7)
  let peer := match q.conn with
    | some k => k.remoteIp == x.srcIp && k.remoteQpn == x.srcQpn
    | none => false
  let mtu := (q.conn.map (·.mtu)).getD 1024
  let span := if x.opcode = 4 then x.aux else if atomic then 0 else x.payload.length
  if (b.inst i).detached = true then .held
  else if (c.inst i).life ≠ .enabled then .silent
  else if q.life ≠ .enabled ∨ peer = false then .final 2
  else if ¬ b.canIssue (b.cfg.inst i).port.toNat true then .held
  else if atomic ∧ x.remoteAddr % 8 ≠ 0 then .final 4
  else if x.offset % mtu ≠ 0 ∨ x.total < x.offset + span ∨ 1073741824 < x.total then .final 3
  else if x.opcode = 3 then
    if q.recvWq = 0xFF then .rnr
    else
      match (b.buffers i q.recvWq.toNat x.destQpn).head? with
      | none => .rnr
      | some e =>
        if rvLen e.raw < x.total then .final 3
        else if ¬ b.instCan i ∨ 4194304 ≤ b.trackersIn x.half then .held
        else .pass none (some (q.recvWq.toNat, e.idx))
  else
    match c.winFor i x.destQpn x with
    | none => .final 1
    | some w =>
      if (¬ (c.win i w).devmem ∧ x.opcode ≠ 4 ∧ ¬ b.instCan i) ∨
         (atomic ∧ ¬ (c.win i w).devmem ∧ ¬ (b.fn (b.cfg.inst i).port.toNat true).atomicReq) ∨
         (x.opcode = 2 ∧ ¬ b.cqSlotFree (.inst i q.recvCq.toNat)) ∨
         (x.opcode ≤ 2 ∧ 4194304 ≤ b.trackersIn x.half) then .held
      else .pass (some w) none

/-- Count a message admitted through a window (R415). -/
def Blk.admitted (b : Blk) (i : Nat) (w : Option Nat) : Blk :=
  match w with
  | none => b
  | some w => { b with rmt := { b.rmt with winAdmitted := b.rmt.winAdmitted.upd 0 (i * 65536 + w) (fun n => sat64 n 1) } }

/-- The wire code of a failed access (R386). -/
def Blk.accessFault (b : Blk) (i va : Nat) (a : Ans) : Option (Nat × Blk) :=
  (b.ansFault i va a).map (fun r => (if r.1 = 0x0522 then 6 else 7, r.2))

/-- The wire code of a write that does not translate; a posted write fails in no other way (R386, R439, R512). -/
def Blk.storeFault (b : Blk) (i va : Nat) (a : Ans) : Option (Nat × Blk) :=
  (b.writeFault i va a).map (fun r => (if r.1 = 0x0522 then 6 else 7, r.2))

/-- A message ends at the responder (R381, R403 to R406): completion, DONE, counter, ending ACK. -/
def Blk.msgEnd (b : Blk) (x : RmtPkt) (t : Tracker) : Blk :=
  let n := x.destQpn
  let q := (b.cfgOf t.epoch).qp n
  let b1 := b.updQp n (fun q => { (q.dropTracker t.msn).setMsn t.msn .done with
    totals := q.totals.put 0 (t.msn % 1024) t.total, received := sat64 q.received 1 })
  let b2 :=
    if t.op = 2 then
      let k := t.imm % 65536
      let bump := if bitOf t.imm 31 ∧ (b.cfg.trig k).life ≠ .absent ∧ (b.cfg.trig k).inst = t.inst then some k else none
      b1.complete (.inst t.inst q.recvCq.toNat)
        (CplF.raw { opcode := 0x11, immValid := true, length := t.total, imm := t.imm, tail := n }) bump t.solicited t.epoch n
    else
      match t.buf with
      | some (w, idx) =>
        match (b1.wq t.inst w).entry idx with
        | some e =>
          b1.finishNow t.inst w idx 0 { cplOf e w 0 t.total with opcode := 0x13, tail := n } none t.solicited n
        | none => b1
      | none => b1
  (b2.settleIncs).ack x true t.total

/-- Place a packet of a tracker (R381). A write of device memory that covers a poisoned granule in part would read it: NAK BUS
(R487, DEDUCED, log 115). -/
def Blk.place (b : Blk) (x : RmtPkt) (t : Tracker) (ans : Ans) : Blk :=
  let n := x.destQpn
  let c := b.cfgOf t.epoch
  let mtu := (((c.qp n).conn).map (·.mtu)).getD 1024
  let k := x.offset / mtu
  if ¬ b.instCan t.inst then b.rmtCnt x.half 3 1
  else if t.bits.contains k then b.ack x false t.counted
  else
    let devmem : Bool := match t.win with
      | some w => (c.win t.inst w).devmem
      | none => false
    let va := match t.buf with
      | some (w, idx) => (((b.wq t.inst w).entry idx).map (fun e => rvAddr e.raw)).getD 0 + x.offset
      | none => t.addr + x.offset
    match (if x.payload = [] then none
           else if devmem then (if b.devPartPoison t.epoch t.inst va x.payload.length then some (7, b) else none)
           else b.storeFault t.inst va ans) with
    | some (code, b1) => (b1.nak x code).updQp n (fun q => (q.dropTracker t.msn).setMsn t.msn (.refused code))
    | none =>
      let b1 := if x.payload = [] then b
        else if devmem then b.devStore t.epoch t.inst va x.payload else b.instWrite t.inst 2 va x.payload
      let t1 := { t with
        bits := t.bits ++ [k], counted := t.counted + x.payload.length, lastPath := x.path, lastPort := x.srcPort,
        lastTs := x.txTs, lastRx := x.rxTs, lastStep := x.rxStep }
      let b2 := b1.updQp n (fun q => q.setTracker t1)
      if t1.counted = t1.total then b2.msgEnd x t1 else b2.ack x false t1.counted

/-- A packet of a message that has a tracker (R381). -/
def Blk.placeNext (b : Blk) (x : RmtPkt) (t : Tracker) (ans : Ans) : Blk :=
  let mtu := ((((b.cfgOf t.epoch).qp x.destQpn).conn).map (·.mtu)).getD 1024
  if ¬ b.canIssue ((b.instCfg t.inst).inst t.inst).port.toNat true then b.rmtCnt x.half 3 1
  else if t.op ≠ x.opcode ∨ t.addr ≠ x.remoteAddr ∨ t.rkey ≠ x.keyEcho ∨ t.total ≠ x.total ∨
          (x.opcode = 2 ∧ t.imm ≠ x.aux) ∨ x.offset % mtu ≠ 0 ∨ t.total < x.offset + x.payload.length then b.nak x 3
  else b.place x t ans

/-- A READ_REQ that passed its checks is served (R383): its READ_RESP packets, cut at mtu boundaries. -/
def Blk.serveRead (b : Blk) (x : RmtPkt) (w : Nat) (ans : Ans) : Blk :=
  let n := x.destQpn
  let c := b.cfgOf x.epoch
  let q := c.qp n
  let mtu := (q.conn.map (·.mtu)).getD 1024
  let b0 := (b.admitted q.inst (some w)).updQp n (fun q => q.setMsn x.msn .done)
  let devmem := (c.win q.inst w).devmem
  match (if x.aux = 0 then none
         else if devmem then (if b0.devPoison x.epoch q.inst (x.remoteAddr + x.offset) x.aux then some (7, b0) else none)
         else b0.accessFault q.inst (x.remoteAddr + x.offset) ans) with
  | some (code, b1) => b1.nak x code
  | none =>
    let data := if devmem then b0.devRead x.epoch q.inst (x.remoteAddr + x.offset) x.aux else slice (ansBytes ans) 0 x.aux
    let k := max (ceilDiv x.aux mtu) 1
    (List.range k).foldl (fun b j =>
      b.answer x { opcode := 5, destQpn := 0, srcQpn := 0, msn := 0, offset := x.offset + j * mtu, total := x.total }
        (slice data (j * mtu) (min mtu (x.aux - j * mtu)))
        (if j + 1 = k then some (x.epoch, q.inst * 65536 + w, n) else none)) b0

/-- An atomic that passed its checks is performed once (R384). -/
def Blk.serveAtomic (b : Blk) (x : RmtPkt) (w : Nat) (ans : Ans) : Blk :=
  let n := x.destQpn
  let c := b.cfgOf x.epoch
  let i := (c.qp n).inst
  let a0 := natBE (x.payload.take 8)
  let a1 := natBE (x.payload.drop 8)
  let new := fun old : Nat => if x.opcode = 6 then (old + a0) % 2 ^ 64 else if old = a0 then a1 else old
  let b0 := b.admitted i (some w)
  let devmem := (c.win i w).devmem
  match (if devmem then (if b0.devPoison x.epoch i x.remoteAddr 8 then some (7, b0) else none) else b0.accessFault i x.remoteAddr ans) with
  | some (code, b1) => (b1.nak x code).updQp n (fun q => q.setMsn x.msn (.refused code))
  | none =>
    let old := if devmem then natLE (b0.devRead x.epoch i x.remoteAddr 8) else natLE (slice (ansBytes ans) 0 8)
    let b1 := if devmem then b0.devStore x.epoch i x.remoteAddr (bytesLE 8 (new old))
      else (b0.emit (.atomicOp i x.remoteAddr x.opcode a0 a1)).updInst i (fun d => { d with dirty := d.dirty.note 2 x.remoteAddr 8 })
    let b2 := b1.updQp n (fun q => { q.setMsn x.msn .done with
      atoms := ((x.msn, BitVec.ofNat 64 old) :: q.atoms).take 64, received := sat64 q.received 1 })
    b2.answer x { opcode := 8, destQpn := 0, srcQpn := 0, msn := 0, total := 8 } (bytesBE 8 old) none

/-- A request whose msn is OPEN and has no tracker, or any READ_REQ, is admitted (R380, R383). -/
def Blk.admitMsg (b : Blk) (x : RmtPkt) (ans : Ans) : Blk :=
  let n := x.destQpn
  let q := (b.cfgOf x.epoch).qp n
  match b.admission x with
  | .silent => b
  | .held => b.rmtCnt x.half 3 1
  | .rnr => b.nak x 5
  | .final code => if code = 2 then b.refuseBadQp x else b.refuse x code
  | .pass w buf =>
    if x.opcode = 4 then b.serveRead x (w.getD 0) ans
    else if x.opcode = 6 ∨ x.opcode = 7 then b.serveAtomic x (w.getD 0) ans
    else
      let t : Tracker := { msn := x.msn, op := x.opcode, epoch := x.epoch, inst := q.inst, win := w, addr := x.remoteAddr,
                           rkey := x.keyEcho, total := x.total, imm := if x.opcode = 2 then x.aux else 0,
                           solicited := x.solicited, born := b.mono, buf := buf, lastPath := x.path, lastPort := x.srcPort,
                           lastTs := x.txTs, lastRx := x.rxTs, lastStep := x.rxStep }
      ((b.admitted q.inst w).updQp n (fun q => { q with trackers := q.trackers ++ [t] })).place x t ans

/-- The epoch that a request is judged by: that of the message admitted for its msn, else its own (R26, R383). -/
def Blk.judgedBy (b : Blk) (x : RmtPkt) : RmtPkt :=
  match (if x.opcode = 4 then none else (b.qp x.destQpn).tracker x.msn) with
  | some t => { x with epoch := t.epoch }
  | none => x

/-- A request reaches the responder (R379 to R384). -/
def Blk.onRequest (b : Blk) (x0 : RmtPkt) (ans : Ans) : Blk :=
  let x := b.judgedBy x0
  let n := x.destQpn
  let q := (b.cfgOf x.epoch).qp n
  -- a QP that is not connected has no mtu: any length that total allows passes (DESIGN CHOICE, log 66)
  let mtu := (q.conn.map (·.mtu)).getD x.payload.length
  if ¬ x.formOk mtu then b.rmtCnt x.half 2 1
  else if q.life = .absent then b.nakNoQp x
  else
    match b.classify n x.msn with
    | (.stale, b1) => b1.rmtCnt x.half 5 1
    | (.at st, b1) =>
      match st with
      | .refused code => if code = 2 then b1.refuseBadQp x else b1.nak x code
      | .done =>
        if x.opcode = 4 then b1.admitMsg x ans
        else ((b1.resend x).rmtCnt x.half 4 1).updQp n (fun q => { q with dup := sat64 q.dup 1 })
      | .opened =>
        match (if x.opcode = 4 then none else (b1.qp n).tracker x.msn) with
        | some t => b1.placeNext x t ans
        | none => b1.admitMsg x ans

/-- Take the head of an engine's queue, when it is a packet with this opcode; a packet that no command names (version,
opcode) goes with any of them, as malformed (R380 check 1). -/
def Blk.rmtTake (b : Blk) (h : Half) (op : Nat) : Option (RmtPkt × Blk) :=
  match (match h with
    | .west => b.rmt.inWest
    | .east => b.rmt.inEast) with
  | [] => none
  | p :: rest =>
    let x := parseRmt p h b.freeVal.toNat
    let b1 := b.drawn 1
    let b2 := match h with
      | .west => { b1 with rmt := { b1.rmt with inWest := rest } }
      | .east => { b1 with rmt := { b1.rmt with inEast := rest } }
    if x.opcode = op ∨ ¬ (isRequest x.opcode = true ∨ isAnswer x.opcode = true) then some (x, (b2.rmtCnt h 0 1).pfcSettle) else none

/-- A received packet of a request opcode. -/
def Blk.rmtRequest (b : Blk) (h : Half) (op : Nat) (ans : Ans) : Blk :=
  match b.rmtTake h op with
  | none => b
  | some (x, b1) => if isRequest x.opcode then b1.onRequest x ans else b1.rmtCnt h 2 1

/-- A received packet of an answer opcode. -/
def Blk.rmtAnswer (b : Blk) (h : Half) (op : Nat) (ans : Ans) (src : List SrcRead) : Blk :=
  match b.rmtTake h op with
  | none => b
  | some (x, b1) => if isAnswer x.opcode ∧ x.version = 1 ∧ x.rsv = false then b1.onAnswer x ans src else b1.rmtCnt h 2 1

/-- A tracker older than msg_timeout_ms is abandoned (R382). -/
def Blk.trackerTimeout (b : Blk) (n msn : Nat) : Blk :=
  match (b.qp n).tracker msn with
  | none => b
  | some t =>
    if b.mono < t.born + (tuneOf ((b.cfgOf t.epoch).qp n).tune).msgTimeoutMs * 1000000 then b else b.abandon n msn

/-! Entries of the packet queues. -/

/-- The next entry of a queue of this kind and opcode, when it may start. -/
def Blk.nextOf (b : Blk) (i q kind : Nat) : Option Entry :=
  if ((b.instCfg i).wq i q).kind.toNat = kind then (b.wq i q).nextStart else none

/-- A PKT_SEND entry sends its frame into the host ingress pipeline (R268, R341); `src` is the frame as read. -/
def Blk.pktSend (b : Blk) (i q : Nat) (src : Ans) : Blk :=
  match b.nextOf i q kPktSend with
  | none => b
  | some e =>
    let w := e.raw
    let b1 := b.updWq i q (fun x => x.updEntry e.idx (fun e => { e with st := .started }))
    if (b.cfg.inst i).life ≠ .enabled ∨ (b.inst i).detached = true then b1.finish i q e.idx 0x0501 (cplOf e q 0x0501 0)
    else
      if ¬ b.canIssue ((b.instCfg i).inst i).port.toNat true then b
      else
      match b1.ansFault i (psAddr w) src with
      | some (st, b2) => b2.finish i q e.idx st (cplOf e q st 0)
      | none =>
        let port := (b.cfg.inst i).port.toNat
        let launch := if psLaunch w then
            some (if 1000000000 ≤ psNsec w then 2 ^ 50 * secGrains else psSec w * secGrains + psNsec w * 65536)
          else none
        let f : HostFrame := {
          frame := slice (ansBytes src) 0 (psLen w), hostMeta := psMeta w, tc := psTc w, tsReq := psTsReq w,
          tsId := BitVec.ofNat 16 (psTsId w), launch := launch,
          origin := { fromHost := true, hostPort := port, inst := i, wq := some (q, e.idx), gen := e.gen } }
        let b2 := { b1 with hostFrames := b1.hostFrames.put [] port (b1.hostFrames.get [] port ++ [f]) }
        if launch.isSome then b2 else b2.finish i q e.idx 0 (cplOf e q 0 (psLen w))

/-- A fetched receive entry posts its buffer (R286, R404). -/
def Blk.postBuffer (b : Blk) (i q kind : Nat) : Blk :=
  match b.nextOf i q kind with
  | none => b
  | some e => b.updWq i q (fun x => x.updEntry e.idx (fun e => { e with st := .started }))

end Sys2Proof.Machine
end

