-- ==== Sys2Proof/Machine/Instances.lean ====
section
/-! DEFINITION. Instances: page-table walks and the translation caches (R436 to R441), device memory (R442, R443),
generations (R444), dirty logging (R446 to R449), and what a detach does (R76, R82, R434). -/

namespace Sys2Proof.Machine
open Sys2Proof

/-! What a control queue loses when it is emptied (R77, R133). -/

/-- Add an error record of the state summary (R149). -/
def Blk.errRec (b : Blk) (type reason index port epoch detail : Nat) : Blk :=
  { b with ctl := { b.ctl with errs := b.ctl.errs ++ [{
      type := type, reason := reason, index := index, port := port, mono := b.mono, epoch := epoch, detail := detail }] } }

/-- Note the refusal of a program: last_refusal of an instance's WQ 0, a record of type CTL_REFUSAL of a CTL queue
(R149). -/
def Blk.noteRefusal (b : Blk) (k : CqKey) (reason : Nat) (idx : W16) (tag : Nat) : Blk :=
  if k < 16 then b.errRec 5 reason idx.toNat k 0 tag
  else b.updCtlq k (fun c => { c with lastRefusal := reason, refusalIndex := idx })

/-- A control queue is emptied: its open program ends with PROGRAM_RESET and no completion; a COMMIT that has passed the
check phase goes on, and neither it nor a program whose completion is due is reported (R77, R133). -/
def Blk.dropPrograms (b : Blk) (k : CqKey) : Blk :=
  let c := b.ctlq k
  let gone := (b.ctl.line.filter (fun l => l.queue == k && !l.checked)).map (·.prog)
  let b1 := (c.prog.toList ++ gone).foldl (fun b p => b.noteRefusal k 0x0503 p.idx p.tag.toNat) b
  let b2 := b1.updCtlq k (fun c => { c with
    arrived := none, prog := none, ended := c.ended.map (fun e => { e with unreported := true }) })
  { b2 with ctl := { b2.ctl with line := (b2.ctl.line.filter (fun l => !(l.queue == k && !l.checked))).map (fun l =>
      if l.queue == k then { l with unreported := true } else l) } }

/-! Translation (R437 to R441). -/

/-- A page-table entry (R437). -/
structure Pte where
  valid : Bool
  leaf : Bool
  read : Bool
  write : Bool
  rsv : Bool
  addr : Nat
  deriving DecidableEq, Repr

/-- The fields of an entry. -/
def pteOf (e : W64) : Pte :=
  { valid := e.getLsbD 0, leaf := e.getLsbD 1, read := e.getLsbD 2, write := e.getLsbD 3,
    rsv := fieldNat e 4 8 != 0 || fieldNat e 52 12 != 0, addr := fieldNat e 12 40 * 4096 }

/-- Address of the entry that a walk reads next. -/
def Walk.entryAddr (w : Walk) : Nat := w.table + 8 * (w.va / 2 ^ (12 + 9 * w.level) % 512)

/-- What one entry makes of a walk (R438). -/
inductive WalkOut where
  | next (w : Walk)
  | leaf (x : XEntry)
  | fault (c : XFault)
  deriving DecidableEq, Repr

/-- One turn of the walk of R438: the entry read, or `none` where the read failed. -/
def Walk.step (w : Walk) (e : Option W64) : WalkOut :=
  match e with
  | none => .fault .walkError
  | some e =>
    let p := pteOf e
    let size := 2 ^ (12 + 9 * w.level)
    let pr := w.permR && p.read
    let pw := w.permW && p.write
    if !p.valid then .fault .notValid
    else if p.rsv || (w.level == 3 && p.leaf) || (w.level == 0 && !p.leaf) then .fault .reserved
    else if p.leaf then
      if p.addr % size ≠ 0 then .fault .reserved
      else if (w.read && !pr) || (w.write && !pw) then .fault .permission
      else .leaf { inst := w.inst, gen := w.gen, va := w.va / size * size, size := size, pa := p.addr, read := pr, write := pw }
    else .next { w with level := w.level - 1, table := p.addr, permR := pr, permW := pw }

/-- The walk of an address from a root (R438). -/
def Walk.start (i root va : Nat) (gen : BitVec 12) (read write cache : Bool) : Walk :=
  { inst := i, gen := gen, va := va, read := read, write := write, root := root, level := 3, table := root, permR := true,
    permW := true, cache := cache }

/-- Run a walk over a function that reads page-table entries; `fuel` bounds the levels (R438). -/
def Walk.run (mem : Nat → Option W64) : Nat → Walk → Except XFault XEntry
  | 0, _ => .error .reserved
  | n + 1, w =>
    match w.step (mem w.entryAddr) with
    | .next w => Walk.run mem n w
    | .leaf x => .ok x
    | .fault c => .error c

/-- Translate an instance address under a root (R438): the bus address, or the fault. -/
def translate (mem : Nat → Option W64) (root va : Nat) (read write : Bool) : Except XFault Nat :=
  match preFault root va with
  | some c => .error c
  | none =>
    match Walk.run mem 4 (Walk.start 0 root va 0 read write true) with
    | .ok x => .ok (x.pa + va % x.size)
    | .error c => .error c

/-- Entries of a half's translation cache (R440). -/
def cacheSize : Nat := 32768
/-- Walkers of a half (R440). -/
def walkers : Nat := 64

def Insts.cache (s : Insts) : Half → List XEntry
  | .west => s.cacheWest
  | .east => s.cacheEast
def Blk.updCache (b : Blk) (h : Half) (f : List XEntry → List XEntry) : Blk :=
  match h with
  | .west => { b with insts := { b.insts with cacheWest := f b.insts.cacheWest } }
  | .east => { b with insts := { b.insts with cacheEast := f b.insts.cacheEast } }

/-- Entries reserved for an instance by its XLATE grant (R440). -/
def Blk.xReserve (b : Blk) (i : Nat) : Nat := b.cfg.grant i 8 * 64

/-- Reserved entries of a half. -/
def Blk.xReserved (b : Blk) (h : Half) : Nat :=
  (b.cfg.insts.filter (fun e => e.2.life != .absent && halfOfPort e.2.port.toNat == h)).foldl
    (fun a e => a + b.xReserve e.1) 0

/-- Entries of a cache that an instance holds. -/
def held (l : List XEntry) (i : Nat) : Nat := (l.filter (fun x => x.inst == i)).length

/-- Entries that lie in the shared part: what each instance holds beyond its reserve. -/
def Blk.xShared (b : Blk) (l : List XEntry) : Nat :=
  ((l.map (·.inst)).dedup).foldl (fun a i => a + (held l i - b.xReserve i)) 0

/-- Insert a translation as the newest: the oldest entry of the shared part makes room (R440). -/
def Blk.cachePut (b : Blk) (h : Half) (x : XEntry) : Blk :=
  b.updCache h (fun l =>
    let l := l.filter (fun y => !(y.inst == x.inst && y.va == x.va && y.size == x.size)) ++ [x]
    if b.xShared l ≤ cacheSize - b.xReserved h then l
    else match l.find? (fun y => b.xReserve y.inst < held l y.inst) with
      | some y => l.erase y
      | none => l)

/-- A read of a page-table entry of instance `i` for address `va` returns: the walk in flight goes on, or a new one
begins at the root (R438 to R440): the root of the epoch that the work is bound to, live epoch `k` from the oldest on; a
walk under another root than the newest epoch's is not cached (R161). A walk of an older generation serves no request
(R444). -/
def Blk.walkReturn (b : Blk) (i va : Nat) (read write : Bool) (e : Option W64) (k : Nat) : Blk :=
  let gen := (b.inst i).gen
  let newest := (b.cfg.inst i).root.toNat
  let root := ((b.ctl.live[k]?).map (fun r => (r.cfg.inst i).root.toNat)).getD newest
  let h := b.homeOf i
  let mine := fun w : Walk =>
    w.inst == i && w.va / 4096 == va / 4096 && w.read == read && w.write == write && w.root == root
  let put := fun (l : List Walk) => ({ b with insts := { b.insts with walks := l } } : Blk).linkAwake (b.cfg.inst i).port.toNat
  let others := b.insts.walks.filter (fun w => !mine w)
  let go := fun w : Walk =>
    match w.step e with
    | .next w => put (others ++ [w])
    | .leaf x => if w.cache then (put others).cachePut h x else put others
    | .fault _ => put others
  match b.insts.walks.find? mine with
  | some w =>
    if w.gen = gen then go w
    else ((put others).updPort (b.cfg.inst i).port.toNat (fun p => { p with discard := sat64 p.discard 1 })).updInst i
      (fun d => { d with stale := sat64 d.stale 1 })
  | none =>
    if (preFault root va).isSome || !b.canIssue (b.cfg.inst i).port.toNat true || (b.inst i).detached ||
        walkers ≤ (b.insts.walks.filter (fun w => b.homeOf w.inst == h)).length then b
    else go (Walk.start i root va gen read write (root == newest))

/-- A DESTROYed instance's queues are no interrupt source: every F1's INTx state follows (R68, R69). -/
def Blk.intxAll (b : Blk) : Blk := (List.range 16).foldl (fun b h => b.evalIntx h true) b

/-- Remove cached translations of an instance that touch a range, or all of them; walks in flight serve their own
requests and are not cached (R161, R453). -/
def Blk.invalidate (b : Blk) (i : Nat) (all : Bool) (start len : Nat) : Blk :=
  let hit := fun x : XEntry => x.inst == i && (all || (decide (x.va < start + len) && decide (start < x.va + x.size)))
  let b1 := (b.updCache .west (·.filter (fun x => !hit x))).updCache .east (·.filter (fun x => !hit x))
  { b1 with insts := { b1.insts with walks := b1.insts.walks.map (fun w => if w.inst = i then { w with cache := false } else w) } }

/-! Device memory (R442, R443). -/

/-- Bytes of a location range read 0, and hold no poison. -/
def Blk.zeroRange (b : Blk) (a n : Nat) : Blk :=
  { b with mem := b.mem.dropKeys (fun k => decide (a ≤ k) && decide (k < a + n)),
           poison := b.poison.dropKeys (fun g => decide (a ≤ 8 * g) && decide (8 * g < a + n)),
           dir := b.dir.dropKeys (fun l => decide (a ≤ 64 * l) && decide (64 * l < a + n)) }

/-- A returned bushel has been zeroed: it is free (R443). -/
def Blk.zeroDone (b : Blk) (h : Half) (k : Nat) : Blk :=
  if b.insts.zeroing.contains (h == .east, k) then
    let b1 := b.zeroRange (devmemPool h + k * 2097152) 2097152
    { b1 with insts := { b1.insts with zeroing := b1.insts.zeroing.erase (h == .east, k) } }
  else b

/-! Generations, and a detach. -/

/-- Requests of an instance still outstanding under a generation end before that number is used again: their completions are
stale, discarded and counted (R444, R445). The wait itself takes no time of the model (DESIGN CHOICE, log 114). -/
def Blk.genDrain (b : Blk) (i : Nat) (gen : BitVec 12) : Blk :=
  let gone := b.insts.walks.filter (fun w => w.inst == i && w.gen == gen)
  let b1 : Blk := { b with insts := { b.insts with walks := b.insts.walks.filter (fun w => !(w.inst == i && w.gen == gen)) } }
  if gone.isEmpty then b
  else (b1.updPort (b.cfg.inst i).port.toNat (fun p => { p with discard := sat64 p.discard gone.length })).updInst i
    (fun d => { d with stale := sat64 d.stale gone.length })

/-- The generation of an instance is incremented: its locks end, its cached translations are gone (R434, R444, R445). -/
def Blk.genUp (b : Blk) (i : Nat) : Blk :=
  let b0 := b.genDrain i ((b.inst i).gen + 1)
  let b1 := (b0.updInst i (fun d => { d with gen := d.gen + 1 })).endLocks i
  (b1.updCache .west (·.filter (fun x => x.inst != i))).updCache .east (·.filter (fun x => x.inst != i))

/-- Logging ends at once: what is not recorded is lost (R449). -/
def Dirty.lose (d : Dirty) : Dirty :=
  if d.on then { d with on := false, waiting := [], held := false, lost := true } else d

/-- Completions that wait for their ring are discarded. -/
def Cq.lose (c : Cq) : Cq := { c with held := [], mirrorHeld := false, xfault := false, mfault := false }
/-- Events that wait for their ring are discarded. -/
def EvQ.lose (q : EvQ) : EvQ :=
  { q with held := [], mirrorHeld := false, xfault := false, mfault := false,
           srcs := q.srcs.mapVals {} (fun _ s => { s with last := none, merged := 0 }) }

/-- The work and the queues of an instance end with no completion (R76, R82, R358): fetched entries, completions and
events held, the programs of WQ 0, its messages and posted requests. -/
def Blk.loseWork (b : Blk) (i : Nat) : Blk :=
  let qps := ((b.instCfg i).qps.filter (fun q => q.2.inst == i && q.2.life != .absent)).map (·.1)
  let b1 := qps.foldl (fun b n => b.updQp n (fun q => { q with sendList := [], out := [], trackers := [] })) b
  let b2 := b1.dropPrograms (16 + i)
  { b2 with
    wqs := b2.wqs.mapVals {} (fun k w => if k / 64 = i then { w with fetched := [] } else w),
    cqs := b2.cqs.mapVals {} (fun k c => if k / 64 = i then c.lose else c),
    eqs := b2.eqs.mapVals {} (fun k q => if k / 8 = i then q.lose else q),
    scans := b2.scans.put {} (16 + i) {},
    rmt := { b2.rmt with posted := b2.rmt.posted.filter (fun p => p.inst != i) } }

/-- The instance becomes DETACHED; the generation is counted apart (R433, R434). Its queues are no interrupt source any more
(R68, R69). -/
def Blk.detachKeep (b : Blk) (i : Nat) : Blk :=
  ((b.updInst i (fun d => { d with detached := true, dirty := d.dirty.lose })).loseWork i).evalIntx (b.cfg.inst i).port.toNat true

/-- The instance becomes DETACHED and its generation is incremented (R434). -/
def Blk.detach (b : Blk) (i : Nat) : Blk := (b.genUp i).detachKeep i

/-- Instances bound to a port and attached. -/
def Blk.boundInsts (b : Blk) (h : Nat) : List Nat :=
  (b.cfg.insts.filter (fun e => b.boundTo e.1 h)).map (·.1)

/-- Every instance bound to a port becomes DETACHED. -/
def Blk.detachPort (b : Blk) (h : Nat) : Blk := (b.boundInsts h).foldl Blk.detach b

/-! Dirty logging (R446 to R448). -/

/-- One record of the log (R446). -/
def DirtyRec.bits (r : DirtyRec) : Nat := r.writer % 16 + r.page % 2 ^ 36 * 4096

/-- The oldest waiting record is written, then PI to the mirror (R446, R447). -/
def Blk.dirtyWrite (b : Blk) (i : Nat) : Blk :=
  let d := (b.inst i).dirty
  let h := (b.cfg.inst i).port.toNat
  match d.waiting with
  | [] => b
  | r :: rest =>
    if d.full || !b.canIssue h true then b
    else
      let b1 := b.emit (.bus h true (d.base + d.pi.toNat % 2 ^ d.log2.toNat * 8) (bytesLE 8 r.bits))
      let b2 := b1.updInst i (fun x => { x with
        dirty := { x.dirty with waiting := rest, pi := x.dirty.pi + 1 }, dirtyRecords := sat64 x.dirtyRecords 1 })
      b2.emit (.bus h true d.mirror (bytesLE 4 (d.pi + 1).toNat))

/-- While the ring appears full, CI is read: room ends the hold, none begins it with DIRTY_FULL (R447, R448). -/
def Blk.dirtyPoll (b : Blk) (i : Nat) (ci : W32) : Blk :=
  let d := (b.inst i).dirty
  let size := 2 ^ d.log2.toNat
  if !(d.full || d.held) || !b.canIssue (b.cfg.inst i).port.toNat true then b
  else
    let bad := decide (size < (d.pi - ci).toNat)
    let full := decide (size ≤ (d.pi - ci).toNat)
    let b1 := b.updInst i (fun x => { x with
      dirty := { x.dirty with ci := if bad then x.dirty.ci else ci, ciError := x.dirty.ciError || bad, held := full } })
    if full then (if d.held then b1 else b1.devEvent 0x002D i 0 0 d.pi.toNat)
    else (b1.instRetry i).settleIncs

end Sys2Proof.Machine
end

