-- ==== Sys2Proof/Machine/Epochs.lean ====
section
/-! DEFINITION. Epochs: when one becomes visible, retires and expires (R25 to R29, R141), and the work bound to one. -/

namespace Sys2Proof.Machine
open Sys2Proof

/-- A packet holds an epoch live: it is bound to it, or it answers an admitted READ of it (R25, R383). -/
def Packet.holds (p : Packet) (e : Nat) : Bool :=
  p.epoch == e || ((p.stamp.bind (·.serves)).map (·.1)) == some e

/-- A frame that a transport engine built for an admitted READ of the epoch. -/
def HostFrame.holds (f : HostFrame) (e : Nat) : Bool := ((f.stamp.bind (·.serves)).map (·.1)) == some e

/-- Transport requests of instances that are bound to an epoch and have not left the requester: fetched ones, those of
the send lists, messages outstanding, as (instance, queue, entry index, QP and msn when outstanding). -/
def Blk.requestsOf (b : Blk) (e : Nat) : List (Nat × Nat × W16) :=
  b.wqs.flatMap (fun x =>
    let i := x.1 / 64
    let q := x.1 % 64
    if (b.cfg.wq i q).kind.toNat ≠ kRmtSend then []
    else (x.2.fetched.filter (fun y => y.epoch == e && !b.rmt.posted.any (fun p => p.inst == i && p.wq == q && p.idx == y.idx))).map
      (fun y => (i, q, y.idx)))

/-- Messages outstanding that are bound to an epoch: QP and msn (R28: until the completion is written). -/
def Blk.outOf (b : Blk) (e : Nat) : List (Nat × Nat) :=
  b.rmt.qps.flatMap (fun q => (q.2.out.filter (fun m => m.epoch == e)).map (fun m => (q.1, m.msn)))

/-- Trackers bound to an epoch: QP and msn. -/
def Blk.trackersOf (b : Blk) (e : Nat) : List (Nat × Nat) :=
  b.rmt.qps.flatMap (fun q => (q.2.trackers.filter (fun t => t.epoch == e)).map (fun t => (q.1, t.msn)))

/-- Packets bound to an epoch wherever they wait: cells, launch queues, HBM waits. -/
def Blk.packetsOf (b : Blk) (e : Nat) : List Packet :=
  (b.allPackets ++ b.eth.flatMap (fun l => l.2.launch) ++
    b.pipes.flatMap (fun p => (p.2.waits.filter (·.port.isNone)).map (·.pkt))).filter (·.holds e)

/-- Some unit of work is still bound to an epoch (R28). -/
def Blk.epochBusy (b : Blk) (e : Nat) : Bool :=
  !(b.packetsOf e).isEmpty || b.eth.any (fun l => l.2.rx.any (fun f => f.epoch == some e)) ||
  b.hostFrames.any (fun f => f.2.any (·.holds e)) || !(b.jobsWhere (fun _ x => x.epoch == e)).isEmpty ||
  !(b.requestsOf e).isEmpty || !(b.outOf e).isEmpty || !(b.trackersOf e).isEmpty ||
  b.cqs.any (fun c => c.2.held.any (fun h => h.epoch == e && e != 0))

/-- Half of a unit as epochs number them: pipeline u, core u − 8 (R27). -/
def halfOfEpochUnit (u : Nat) : Half := if u < 4 ∨ (8 ≤ u ∧ u < 40) then .west else .east

/-- The announcement of an epoch has reached a half: it crosses the bridge to the half other than its own, and a retrain of
that direction holds it (R16, R19, R31). -/
def Blk.announced (b : Blk) (r : EpochRec) (h : Half) : Bool := r.src == h || (b.bridgeTo h).retrain.isNone

/-- An epoch becomes visible in one pipeline or core: that unit has it and every older one (R27). -/
def Blk.epochVisible (b : Blk) (u e : Nat) : Blk :=
  if b.ctl.live.any (fun r => r.num == e) && b.ctl.live.all (fun r => decide (e < r.num) || r.seen.contains u ||
      b.announced r (halfOfEpochUnit u)) then
    { b with ctl := { b.ctl with live := b.ctl.live.map (fun r =>
        if r.num ≤ e ∧ ¬ r.seen.contains u then { r with seen := r.seen ++ [u] } else r) } }
  else b

/-- The oldest live epoch may retire: a newer one is visible everywhere and no work is bound to it (R28). -/
def Blk.mayRetire (b : Blk) : Bool :=
  match b.ctl.live with
  | r :: rest => rest.any (·.everywhere) && !b.epochBusy r.num
  | [] => false

/-- The oldest live epoch retires; keys that only it used are wiped, and an image that an
activation replaced is freed (R28, R97, R171). -/
def Blk.epochRetire (b : Blk) : Blk :=
  if b.mayRetire then
    let gone := (b.ctl.live.head?.map (·.num)).getD 0
    Blk.wipeOld { b with
      ctl := { b.ctl with live := b.ctl.live.tail },
      boot := { b.boot with old := b.boot.old.filter (fun o => decide (gone < o.1)) } }
  else b

/-- Work of an epoch that lies in a half, counted (R141). -/
def Blk.epochUnits (b : Blk) (e : Nat) (h : Half) : Nat :=
  ((b.packetsOf e).filter (fun p => p.half == h)).length +
  (b.eth.filter (fun l => halfOfLane l.1 == h)).foldl (fun a l => a + (l.2.rx.filter (fun f => f.epoch == some e)).length) 0 +
  (b.hostFrames.filter (fun f => halfOfPort f.1 == h)).foldl (fun a f => a + (f.2.filter (·.holds e)).length) 0 +
  ((b.jobsWhere (fun _ x => x.epoch == e)).filter (fun j => b.homeOf j.1 == h)).length +
  ((b.requestsOf e).filter (fun r => b.homeOf r.1 == h)).length +
  ((b.trackersOf e).filter (fun t => b.qpHalf t.1 == h)).length

/-- Every packet of an epoch is dropped; a launch entry of one completes with 0x0530 (R141). Completions that are held stay,
and hold the epoch no more. -/
def Blk.dropEpoch (b : Blk) (e : Nat) : Blk :=
  let gone := b.packetsOf e
  let keep := fun l : List Packet => l.filter (fun p => !p.holds e)
  let b1 : Blk := { b with
    hog := { b.hog with
      queues := b.hog.queues.map (fun q => ({ q with pkts := keep q.pkts } : TmQueue)),
      crossing := b.hog.crossing.filter (fun c => !c.pkt.holds e), egress := b.hog.egress.filter (fun x => !x.pkt.holds e) },
    rmt := { b.rmt with inWest := keep b.rmt.inWest, inEast := keep b.rmt.inEast },
    eth := b.eth.mapVals {} (fun _ l => { l with launch := keep l.launch, rx := l.rx.filter (fun f => f.epoch != some e) }),
    pipes := b.pipes.mapVals {} (fun _ p => { p with waits := p.waits.filter (fun w => !w.pkt.holds e) }),
    cqs := b.cqs.mapVals {} (fun _ c => { c with held := c.held.map (fun h => if h.epoch = e then { h with epoch := 0 } else h) }),
    hostFrames := b.hostFrames.mapVals [] (fun _ l => l.filter (fun f => !f.holds e)) }
  (gone.foldl (fun b p => (b.drop p.pipe 0x07).endLaunch p 0x0530) b1).pfcSettle

/-- End a transport request that has no msn yet. -/
def Blk.endRequest (b : Blk) (r : Nat × Nat × W16) (status : Nat) : Blk :=
  let b1 := { b with rmt := { b.rmt with qps := b.rmt.qps.mapVals {} (fun _ q =>
    { q with sendList := q.sendList.filter (fun s => !(s.1 == r.1 && s.2.1 == r.2.1 && s.2.2.1 == r.2.2)) }) } }
  b1.reqDone r.1 r.2.1 r.2.2 status

/-- End every unit of work bound to an epoch (R141). -/
def Blk.endEpochWork (b : Blk) (e : Nat) : Blk :=
  let b1 := (b.dropEpoch e).endJobs 0x0530 (fun _ x => x.epoch == e)
  let outs := b1.outOf e
  let b2 := outs.foldl (fun b m => b.endMsg m.1 m.2 0x0530 false) b1
  let waiting := (b2.requestsOf e).filter (fun r => !b2.rmt.qps.any (fun q => q.2.out.any (fun m => m.inst == r.1 && m.wq == r.2.1 && m.idx == r.2.2)))
  let b3 := waiting.foldl (fun b r => b.endRequest r 0x0530) b2
  ((b3.trackersOf e).foldl (fun b t => b.abandon t.1 t.2) b3).settleIncs

/-- An epoch superseded for 100 ms whose work has not been ended. -/
def Blk.expiring (b : Blk) : Option EpochRec :=
  b.ctl.live.find? (fun r => !r.expired && ((r.superseded.map (fun t => decide (t + 100000000 ≤ b.mono))).getD false))

/-- The event and the error record of work ended in a half (R141, R149). -/
def Blk.expiredIn (b : Blk) (h : Half) (n e : Nat) : Blk :=
  if n = 0 then b else (b.devEvent 0x0020 h.code 0 (min n 65535) e).errRec 8 0 h.code 0xFFFF e 0

/-- Work of the oldest epoch superseded for 100 ms is ended, with one event for each half that had any (R141). -/
def Blk.epochExpire (b : Blk) : Blk :=
  match b.expiring with
  | none => b
  | some r =>
    let west := b.epochUnits r.num .west
    let east := b.epochUnits r.num .east
    let b1 := b.endEpochWork r.num
    let b2 : Blk := { b1 with ctl := { b1.ctl with live := b1.ctl.live.map (fun x => if x.num = r.num then { x with expired := true } else x) } }
    (b2.expiredIn .west west r.num).expiredIn .east east r.num

end Sys2Proof.Machine
end

