-- ==== Sys2Proof/Machine/BootOps.lean ====
section
/-! DEFINITION. Start-up: the image format and its verification, the BOOT block, live activation, Jig tests
(chapter 04). -/

namespace Sys2Proof.Machine
open Sys2Proof

/-! Images (R91). -/

/-- A number of `n` bytes at an offset of an image. -/
def imgLe (m : Tab Byte) (a n : Nat) : Nat := natLE ((List.range n).map (fun k => m.get 0 (a + k)))
/-- Bytes of an image. -/
def imgBytes (m : Tab Byte) (a n : Nat) : List Byte := (List.range n).map (fun k => m.get 0 (a + k))

/-- One section (chapter 04, "Section table entry"). -/
structure Section where
  type : Nat
  offset : Nat
  length : Nat
  target : Nat
  rsvOk : Bool
  deriving DecidableEq, Repr

/-- The sections of an image. -/
def imgSections (m : Tab Byte) : List Section :=
  (List.range (imgLe m 16 2)).map (fun k =>
    let a := 128 + 32 * k
    { type := imgLe m a 2, offset := imgLe m (a + 8) 8, length := imgLe m (a + 16) 8, target := imgLe m (a + 24) 8,
      rsvOk := imgLe m (a + 2) 6 == 0 })

/-- Two ranges share a byte. -/
def overlaps (a n c m : Nat) : Bool := decide (a < c + m) && decide (c < a + n) && n != 0 && m != 0

/-- A section has bytes in the image. -/
def Section.inImage (s : Section) : Bool := s.type != 4
/-- A section has a target in system space. -/
def Section.placed (s : Section) : Bool := s.type ≤ 4

/-- A section by itself is well placed (R91, check 4). -/
def Section.ok (n sig : Nat) (s : Section) : Bool :=
  1 ≤ s.type && s.type ≤ 6 && s.rsvOk &&
  (if s.inImage then s.offset % 4096 == 0 && decide (128 + 32 * n ≤ s.offset) && decide (s.offset + s.length ≤ sig)
   else s.offset == 0) &&
  (s.placed || s.target == 0)

/-- The check of the section table (R91, check 4). -/
def sectionsOk (l : List Section) (sig : Nat) : Bool :=
  1 ≤ l.length && l.length ≤ 64 && l.all (Section.ok l.length sig) &&
  decide (l.Pairwise (fun x y =>
    ¬(x.inImage = true ∧ y.inImage = true ∧ overlaps x.offset x.length y.offset y.length = true) ∧
    ¬(x.placed = true ∧ y.placed = true ∧ overlaps x.target x.length y.target y.length = true)))

/-- Which of the four signing keys an identifier names. -/
def signingKey (id : List Byte) : Option Nat := (List.range 4).find? (fun k => Config.imageKeyId k == id)

/-- The checks of R91 in order: the first reason that fails. `mss`: an MSS image, which has
its own device_id and length limit and no targets (R472). DESIGN CHOICE (log 112): reserved bytes of a section entry and a
section_count outside 1 to 64 fail check 4 (0x0112), and a wrong alg, RSV, sig_len or key_id of the signature block fails
check 8 (0x0612). -/
def imageFault (m : Tab Byte) (mss : Bool) (minSec : Nat) : Option Nat :=
  let sig := imgLe m 36 4
  let secs := imgSections m
  let key := signingKey (imgBytes m 40 8)
  firstOf [
    chk (imgBytes m 0 6 == [0x45, 0x4C, 0x46, 0x49, 0x4D, 0x47] && imgLe m 6 2 == 1 && imgLe m 8 4 == 128 &&
      imgLe m 18 2 < 2 && imgLe m 23 1 == 0 && (imgBytes m 64 64).all (· == 0)) 0x0110,
    chk (decide (imgLe m 12 4 ≤ if mss then 8388608 else 268435456) && imgLe m 12 4 == sig + 7872 && sig % 4096 == 0) 0x0111,
    chk (imgLe m 20 2 == (if mss then 0xE1F0 else 0xE100) && imgLe m 22 1 ≤ 0xA1) 0x0410,
    chk (sectionsOk secs sig) 0x0112,
    chk (mss || secs.all (fun s => !s.placed || (decide (fwBase ≤ s.target) && decide (s.target + s.length ≤ fwBase + fwSize))))
      0x0310,
    chk key.isSome 0x0610,
    chk (!(key.map Config.imageKeyRevoked).getD true) 0x0611,
    chk (decide (minSec ≤ imgLe m 32 4)) 0x0613,
    chk (imgLe m sig 2 == 1 && imgLe m (sig + 2) 2 == 0 && imgLe m (sig + 4) 4 == 7856 &&
      imgBytes m (sig + 8) 8 == imgBytes m 40 8 &&
      (key.map (fun k => Config.imageSigOk k (sha (imgBytes m 0 sig)) (imgBytes m (sig + 16) 7856))).getD false) 0x0612]

/-- What the part keeps of an image that passed. -/
def imageOf (m : Tab Byte) : Image :=
  { version := imgLe m 24 8, secVersion := imgLe m 32 4, entry := imgLe m 48 8, migrate := imgLe m 56 8,
    live := imgLe m 18 2 % 2 == 1, digest := sha (imgBytes m 0 (imgLe m 36 4)),
    sections := (imgSections m).filterMap (fun s =>
      if s.placed then
        some (s.target, if s.inImage then imgBytes m s.offset s.length else List.replicate s.length 0)
      else none) }

/-- Location of firmware memory at an address, in one half (R191). -/
def fwLoc (h : Half) (a : Nat) : Nat := a + (if h = .west then 0 else 2 ^ 30)

/-- Copy the sections of an image into the firmware memory of a half (R94); no L1I keeps an older copy of their lines
(R212). -/
def Blk.placeImage (b : Blk) (h : Half) (x : Image) : Blk :=
  x.sections.foldl (fun b s =>
    let a := fwLoc h s.1
    ((b.setBytes a s.2).setPoison (wholeGranules a s.2.length) false).l1iDrop (a / 64) ((a + s.2.length + 63) / 64)) b

/-- Data of an image's copy in the firmware memory of a half was lost (R486). -/
def Blk.copyLost (b : Blk) (h : Half) (x : Image) : Bool := x.sections.any (fun s => b.anyPoison (fwLoc h s.1) s.2.length)

/-- What a fresh verify of a retained image refuses it with: a copy whose data is lost fails its signature, and the minimum
security_version may have risen (R91, R94). -/
def Blk.retainedFault (b : Blk) (lost : Bool) (x : Image) : Option Nat :=
  firstOf [chk (decide (b.mss.fw.imageMinSec ≤ x.secVersion)) 0x0613, chk (!lost) 0x0612]

/-- The cores of a half start from the image in force: thread 0 of its first core (R85, chapter 04). -/
def Blk.startHalf (b : Blk) (h : Half) (x : Image) : Blk := b.startThread (if h = .west then 0 else 256) (BitVec.ofNat 64 x.entry)

/-! The BOOT block (R89 to R95). -/

/-- Load status codes (R89). -/
def lsIdle : BitVec 4 := 0
def lsQueued : BitVec 4 := 1
def lsBusy : BitVec 4 := 2
def lsVerified : BitVec 4 := 3
def lsPresent : BitVec 4 := 4
def lsRefused : BitVec 4 := 5
def lsStaged : BitVec 4 := 6
def lsActivating : BitVec 4 := 7
def lsActivated : BitVec 4 := 8

/-- BOOT_LOAD_CTRL.verify reads 1. -/
def BootPort.verifying (p : BootPort) : Bool := p.status == lsQueued || p.status == lsBusy
/-- An activation of this port's image runs: BOOT_LOAD_CTRL.activate reads 1. -/
def Blk.activating (b : Blk) (h : Nat) : Bool := (b.boot.act.map (fun a => a.port == h)).getD false

def Blk.setBoot (b : Blk) (f : Boot → Boot) : Blk := { b with boot := f b.boot }

/-- A refusal is recorded in BOOT_REFUSE of a port: source 0 verify, 1 enable, 2 activate, 3 window; and as an error
record (R89, R149). -/
def Blk.bootRefuse (b : Blk) (h reason source : Nat) : Blk :=
  (b.updBport h (fun p => { p with reason := BitVec.ofNat 16 reason, source := BitVec.ofNat 2 source })).errRec
    1 reason 0 h 0 (reason + source * 65536)

/-- Before meeting point 1: loaders may write (R92). -/
def Blk.loading (b : Blk) : Bool := b.boot.state == bsWait || b.boot.state == bsVerifying
/-- The load rules of live activation apply: in every later state but JIG (R92, R96). -/
def Blk.liveRules (b : Blk) : Bool := !b.loading && b.boot.state != bsJig
/-- Meeting point 1 has been reached and RUNNING has not: a loader's verify ends in IMAGE_PRESENT (R93). -/
def Blk.starting (b : Blk) : Bool :=
  b.boot.state == bsTraining || b.boot.state == bsTrained || b.boot.state == bsEnabled || b.boot.state == bsFailed

/-- The reason why a port may not load or verify now; `none` where it may (R92, R96). -/
def Blk.loadFault (b : Blk) (h : Nat) : Option Nat :=
  if b.boot.state = bsJig then some 0x0515
  else if b.liveRules then chk (h == b.ownerPort) 0x0510
  else chk (b.loaderAllowed h) 0x0510

/-- A write to the load window of a port (R92, R93, R513): bytes with their enables from an offset of the image area. -/
def Blk.loadWrite (b : Blk) (h off : Nat) (l : List (Option Byte)) : Blk :=
  match b.loadFault h with
  | some r => b.bootRefuse h r 3
  | none =>
    let p := b.bport h
    if p.verifying || b.activating h then b
    else
      b.updBport h (fun p => { p with
        area := (l.zipIdx.foldl (fun m x => match x.1 with
          | some v => if off + x.2 < 268435456 then m.put 0 (off + x.2) v else m
          | none => m) p.area) })

/-- A write of BOOT_LOAD_CTRL.verify (R92, R93, R96). DEDUCED: between meeting point 1 and RUNNING, R93 holds for the ports
that the straps let load, and the rules of live activation for the owner's port when it is not one of them. -/
def Blk.verifyRequest (b : Blk) (h : Nat) : Blk :=
  if (b.bport h).verifying then b
  else if b.starting && b.loaderAllowed h then b.updBport h (fun p => { p with status := lsPresent, winner := b.boot.winner })
  else
    match b.loadFault h with
    | some r => (b.updBport h (fun p => { p with status := lsRefused })).bootRefuse h r 0
    | none =>
      if b.boot.state = bsActivating then (b.updBport h (fun p => { p with status := lsRefused })).bootRefuse h 0x0514 0
      else
        let st := if b.boot.verifyLine.isEmpty && b.boot.retained.isNone then lsBusy else lsQueued
        let b1 := b.updBport h (fun p => { p with status := st })
        b1.setBoot (fun x => { x with verifyLine := x.verifyLine ++ [h], state := if b.loading then bsVerifying else x.state })

/-- Meeting point 1: the image is in force, copied to both halves, and the cores start (R20, R85, R94). -/
def Blk.point1 (b : Blk) (x : Image) : Blk :=
  let b1 := b.setBoot (fun o => { o with
    image := some x, state := bsTraining, mpWest := 1, mpEast := 1, verifyLine := [], trainFailed := false })
  (((b1.placeImage .west x).placeImage .east x).startHalf .west x).startHalf .east x

/-- The reset of a port's part of the BOOT block (R90). -/
def BootPort.reset (p : BootPort) (keepArea : Bool) : BootPort := { area := if keepArea then p.area else [] }

/-- The image of a port passed at start-up: it has won, every other loader's area is discarded (R93). -/
def Blk.imageWins (b : Blk) (h : Nat) (x : Image) : Blk :=
  let b1 := (List.range 16).foldl (fun b k =>
    if k = h then b.updBport k (fun p => { p with status := lsVerified, winner := BitVec.ofNat 4 h, area := [] })
    else if b.loaderAllowed k && !b.absent k then
      b.updBport k (fun p => { p with status := lsPresent, winner := BitVec.ofNat 4 h, area := [] })
    else b) b
  (b1.setBoot (fun o => { o with winner := BitVec.ofNat 4 h, imagePort := BitVec.ofNat 4 h })).point1 x

/-- The next verify of the line begins, after the one in hand; with none left start-up waits for an image again (R93). -/
def Blk.verifyNext (b : Blk) : Blk :=
  match b.boot.verifyLine with
  | n :: _ => b.updBport n (fun p => { p with status := lsBusy })
  | [] => if b.loading then b.setBoot (fun o => { o with state := bsWait }) else b

/-- The retained image has been verified again: start-up runs from meeting point 1, or the image is refused (R94). -/
def Blk.retainedVerified (b : Blk) (x : Image) (fault : Option Nat) : Blk :=
  let h := b.boot.imagePort.toNat
  let b1 := b.setBoot (fun o => { o with retained := none })
  match fault with
  | none => b1.imageWins h x
  | some r => ((b1.updBport h (fun p => { p with status := lsRefused })).bootRefuse h r 0).verifyNext

/-- The verify in hand ends after `us` µs: that of a retained image, or the one at the head of the line (R91, R93, R94, R96).
A port that was reset meanwhile holds the reset values of its registers, and its area only for a staged image (R90). -/
def Blk.verifyComplete (b : Blk) (us : W16) : Blk :=
  match b.boot.retained, b.boot.verifyLine with
  | some (x, fault), _ => b.retainedVerified x fault
  | none, [] => b
  | none, h :: rest =>
    let p := b.bport h
    let live := !b.loading
    let fault := match imageFault p.area false b.mss.fw.imageMinSec with
      | some r => some r
      | none => if live && !(imageOf p.area).live then some 0x0513 else none
    let b1 := (b.updBport h (fun p => { p with verifyUs := us })).setBoot (fun o => { o with verifyLine := rest })
    let b2 := b1.verifyNext
    let after := fun (b : Blk) (won : Bool) =>
      if p.rst then b.updBport h (fun q => { q.reset (b.boot.staged.isSome && b.boot.stagedPort == h) with
        status := if won then lsVerified else lsIdle, winner := if won then BitVec.ofNat 4 h else 0, verifyUs := us }) else b
    match fault with
    | some r => after ((b2.updBport h (fun p => { p with status := lsRefused })).bootRefuse h r 0) false
    | none =>
      if live then
        after ((b2.setBoot (fun o => { o with staged := some (imageOf p.area), stagedPort := h })).updBport h
          (fun p => { p with status := lsStaged })) false
      else after (b2.imageWins h (imageOf p.area)) true

/-- A write of BOOT_LOAD_CTRL.discard (R89). -/
def Blk.loadDiscard (b : Blk) (h : Nat) : Blk :=
  let p := b.bport h
  if p.verifying || b.activating h then b
  else
    let b1 := b.updBport h (fun p => { p with area := [], status := if p.status = lsStaged then lsIdle else p.status })
    if b.boot.stagedPort = h then b1.setBoot (fun o => { o with staged := none }) else b1

/-- PERST#, hot reset and FLR of F0 on a port's part of the BOOT block (R90). -/
def Blk.bootPortReset (b : Blk) (h : Nat) : Blk :=
  let p := b.bport h
  if p.status = lsBusy || b.activating h then
    b.updBport h (fun p => { p with rst := true, reason := 0, source := 0, verifyUs := 0, winner := 0 })
  else
    let b1 := b.setBoot (fun o => { o with verifyLine := o.verifyLine.filter (· != h) })
    b1.updBport h (fun p => p.reset (b.boot.staged.isSome && b.boot.stagedPort == h))

/-- The reason why an enable request of a port is refused; `none` where it is accepted (R95, R99). `ready`: the firmware
of both halves has reported ready. -/
def Blk.enableFault (b : Blk) (ready : Bool) : Option Nat :=
  firstOf [
    chk (b.boot.state != bsJig) 0x0515,
    chk (b.boot.state == bsTrained || b.boot.state == bsFailed) 0x0511,
    chk ready 0x0430,
    chk (!b.boot.trainFailed) 0x0431,
    chk (!b.keys.alarm) 0x0620]

/-- A write of BOOT_ENABLE.enable by F0 of a port (R95). DESIGN CHOICE (log 112): a request refused 0x0511 or 0x0515, before the
consistency check, sets refused and sends the BOOT event as one that fails it. -/
def Blk.enableRequest (b : Blk) (h : Nat) (ready : Bool) : Blk :=
  if h ≠ b.ownerPort then b.bootRefuse h 0x0210 1
  else if b.boot.enable then b
  else
    match b.enableFault ready with
    | some r => ((b.setBoot (fun o => { o with refused := true })).bootRefuse h r 1).devEvent 0x0013 0 r
    | none => b.setBoot (fun o => { o with enable := true, state := bsEnabled })

/-! Live activation (R96 to R98). -/

/-- Start the activation of the staged image: the reason, or the block (R97, R98). -/
def Blk.activate (b : Blk) : Except Nat Blk :=
  if b.boot.state = bsJig then .error 0x0515
  else if b.boot.state = bsActivating then .error 0x0514
  else
    match b.boot.staged with
    | none => .error 0x0513
    | some x =>
      if b.boot.state ≠ bsRunning then .error 0x0513
      else
        let p := b.boot.stagedPort
        .ok ((b.setBoot (fun o => { o with
          state := bsActivating, staged := none, act := some { port := p, phase := 0, moved := [], image := x } })).updBport p
          (fun q => { q with status := lsActivating }))

/-- A write of BOOT_LOAD_CTRL.activate by F0 of a port (R89, R97). A refusal shows as REFUSED, but where the port's status
tells of a verify, a staged image or an activation of its own. -/
def Blk.activateWrite (b : Blk) (h : Nat) : Blk :=
  let refuse := fun r : Nat => (b.updBport h (fun p => { p with
    status := if p.verifying || b.activating h || p.status == lsStaged then p.status else lsRefused })).bootRefuse h r 2
  if h ≠ b.ownerPort then refuse 0x0210
  else match b.activate with
    | .ok b1 => b1
    | .error r => refuse r

/-- Go on with an activation in a phase. -/
def Blk.inPhase (b : Blk) (n : Nat) (f : Activation → Blk) : Blk :=
  match b.boot.act with
  | some a => if a.phase = n then f a else b
  | none => b

/-- The new image stands in firmware memory beside the old (R97, step 2). -/
def Blk.imagePlaced (b : Blk) : Blk :=
  b.inPhase 0 (fun a => ((b.placeImage .west a.image).placeImage .east a.image).setBoot (fun o => { o with
    act := some { a with phase := 1 } }))

/-- Order in which the threads of a half are moved: ascending, the supervisor last (R97, step 3). -/
def Blk.moveOrder (b : Blk) (h : Half) : List Nat :=
  let ts := (List.range 256).map (· + 256 * h.code)
  let s := (b.fq h).sup.toNat
  ts.filter (· != s) ++ ts.filter (· == s)

/-- A thread moves to the new image: halted at an instruction boundary, it goes on at migrate_entry (R97, R98, R201). A
thread in WAIT resumes in WAIT with the same mask and timer, and goes on at migrate_entry when it wakes (R226); one that is
FAULTED, HALTED or STOPPED stays so, its WAIT kept. -/
def Blk.moveThread (b : Blk) (t : Nat) (x : Image) : Blk :=
  let y := b.thread t
  if y.started then
    let held := y.st = .waiting || y.wt.waitResume
    let b1 := if y.st = .waiting then b.leaveWait t else b
    let b2 := b1.updThread t (fun y => { y with
      pc := pcOf (BitVec.ofNat 64 x.migrate),
      wt := { y.wt with moved := y.wt.moved || held },
      sr := { y.sr with migPc := y.pc, migValid := true, migWasExc := y.sr.exc, migOldPriv := y.sr.priv, priv := true } })
    if y.st = .waiting then b2.resumeWait t else b2
  else b

/-- The next thread of a half is moved (R97, step 3). -/
def Blk.threadMove (b : Blk) (h : Half) : Blk :=
  b.inPhase 1 (fun a =>
    match (b.moveOrder h).find? (fun t => !a.moved.contains t) with
    | none => b
    | some t =>
      let moved := t :: a.moved
      (b.moveThread t a.image).setBoot (fun o => { o with
        act := some { a with moved := moved, phase := if moved.length = 512 then 2 else 1 } }))

/-- The activation ends (R97, step 5). Resets of halves that it held are left to the caller. -/
def Blk.activationFinish (b : Blk) : Blk :=
  b.inPhase 3 (fun a =>
    let b1 := b.setBoot (fun o => { o with act := none, state := bsRunning, imagePort := BitVec.ofNat 4 a.port })
    let b2 := { b1 with mss := { b1.mss with fw := { b1.mss.fw with imageMinSec := max b1.mss.fw.imageMinSec a.image.secVersion } } }
    let b3 := b2.updBport a.port (fun p => { (if p.rst then p.reset false else p) with status := lsActivated, area := [] })
    (b3.mssEvent 0x0013 0 0).reel 0x000B 0 [a.image.version, a.image.secVersion])

/-! Jig mode (R99, R100). -/

/-- Jig mode begins, once the rails are up: the state, and the tests to run (R87, R99). -/
def Blk.jigEntry (b : Blk) : Blk :=
  if b.boot.jig && b.mss.powered && b.boot.state != bsJig then
    b.setBoot (fun o => { o with state := bsJig, jigLeft := List.range 8, jigFailed := [] })
  else b

/-- Code of a test item. -/
def jigCode : JigItem → Nat
  | .arrays => 0
  | .cores => 1
  | .ethernet => 2
  | .pcie => 3
  | .hbm => 4
  | .bridge => 5
  | .pipelines => 6
  | .cipher => 7

end Sys2Proof.Machine
end

