-- ==== Sys2Proof/Machine/Dma.lean ====
section
/-! DEFINITION. The DMA engines (chapter 18): descriptors, bursts, pause, hand-over, the bus-error stop. -/

namespace Sys2Proof.Machine
open Sys2Proof

/-- Code of a stop cause (R430). -/
def stopCode : StopCause → Nat
  | .ur => 1
  | .ca => 2
  | .poison => 3
  | .timeout => 4
  | .fabric => 5
  | .linkLoss => 6

/-- Fields of a descriptor (R419). -/
def dN (d : Desc) (k n : Nat) : Nat := d.toNat / 2 ^ (8 * k) % 2 ^ (8 * n)
def dSrc (d : Desc) : Nat := dN d 0 8
def dDst (d : Desc) : Nat := dN d 8 8
def dLen (d : Desc) : Nat := dN d 16 4 % 2 ^ 25
def dFlags (d : Desc) : Nat := dN d 20 1
def dOwn (d : Desc) : Bool := bitOf (dFlags d) 0
def dBarrier (d : Desc) : Bool := bitOf (dFlags d) 1
def dInt (d : Desc) : Bool := bitOf (dFlags d) 2
def dLink (d : Desc) : Bool := bitOf (dFlags d) 3
def dSrcSys (d : Desc) : Bool := bitOf (dFlags d) 4
def dDstSys (d : Desc) : Bool := bitOf (dFlags d) 5

/-- Byte address of a descriptor. -/
def DAddr.byte (a : DAddr) : Nat := a.addr.toNat * 32
/-- A descriptor address from a byte address. -/
def dAddr (sys : Bool) (a : Nat) : DAddr := { sys := sys, addr := BitVec.ofNat 59 (a / 32) }

/-- Location of `n` bytes of system space for engine `h`: HBM, or firmware memory of its half (R418). -/
def sysLoc (h a n : Nat) : Option Nat :=
  match spaceOf (halfOfPort h) a n with
  | .mem l => some l
  | _ => none

/-- The fault of a descriptor taken in hand (R420). -/
def descFault (h : Nat) (d : Desc) : Option Nat :=
  let rsv := decide (dN d 16 4 / 2 ^ 25 ≠ 0) || decide (dFlags d / 64 ≠ 0) || decide (dN d 21 1 ≠ 0)
  if rsv ∨ (dLink d ∧ (dDst d ≠ 0 ∨ dLen d ≠ 0 ∨ dDstSys d = true)) then some 0x0101
  else if 16777216 < dLen d then some 0x0103
  else if dLink d ∧ dSrc d % 4096 ≠ 0 then some 0x0125
  else if (dSrcSys d ∧ (sysLoc h (dSrc d) (if dLink d then 32 else dLen d)).isNone = true) ∨
          (dDstSys d ∧ (sysLoc h (dDst d) (dLen d)).isNone = true) then some 0x0522
  else none

/-- The engine serves its channels: RUNNING, and no reset of its function under way (R80). -/
def Blk.dmaRuns (b : Blk) (h : Nat) : Bool := (b.eng h).st == .running && !(b.fn h false).flr

/-- A channel may issue a request to a space: Bus Master Enable of F0 for host space (R418, R429). -/
def Blk.dmaCan (b : Blk) (h : Nat) (sys : Bool) : Bool := sys || b.canIssue h false

/-- A channel that would issue to host space waits in BME_OFF (R429). -/
def Dch.bmeOff (x : Dch) : Dch := { x with st := .bmeOff, before := x.st }

/-- Write to a space as the engine of port `h`. -/
def Blk.dmaWrite (b : Blk) (h : Nat) (sys : Bool) (a : Nat) (l : List Byte) : Blk :=
  if sys then
    match sysLoc h a l.length with
    | some loc => b.devWrite loc l
    | none => b
  else b.emit (.bus h false a l)

/-- Write back bytes 20 to 23 of a descriptor (R421); `own` as left. -/
def Blk.writeBack (b : Blk) (h : Nat) (at_ : DAddr) (d : Desc) (own : Bool) (status : Nat) : Blk :=
  b.dmaWrite h at_.sys (at_.byte + 20)
    (bytesLE 1 (dFlags d / 2 * 2 + (if own then 1 else 0)) ++ bytesLE 1 (dN d 21 1) ++ bytesLE 2 status)

/-- Reads outstanding at an engine. -/
def Dma.reads (e : Dma) : Nat := e.chans.foldl (fun a c => a + c.2.bursts.length + (if c.2.reading.isSome then 1 else 0)) 0

/-- The whole engine stops (R430, R431). `lost`: outstanding reads that have ended with the failure. -/
def Blk.dmaStop (b : Blk) (h : Nat) (c : StopCause) (addr : Nat) (write sys : Bool) (lost : Nat) : Blk :=
  let e := b.eng h
  if e.st ≠ .running then b
  else
    b.updEng h (fun e => { e with
      st := .halting, gen := e.gen + 1, cause := BitVec.ofNat 4 (stopCode c), errWrite := write, errSys := sys,
      errAddr := if c = .linkLoss then 0 else BitVec.ofNat 64 addr, ending := e.ending + (e.reads - lost), stopAt := b.mono,
      chans := e.chans.mapVals {} (fun _ x =>
        let y := { x with bursts := [], reading := none, ahead := none }
        if x.st = .active ∨ x.st = .pausing ∨ x.st = .paused ∨ x.st = .bmeOff then { y with st := .halted, kept := x.st } else y) })

/-- Error bits that the failed completion of a read leaves in F0 (R54, R56). PRESUMED, as PCI Express sets them: Status bit 13
for Unsupported Request, 12 for Completer Abort, 15 for poison with bit 8 under Parity Error Response, and Poisoned TLP
Received in the AER uncorrectable status. -/
def Blk.cplError (b : Blk) (h : Nat) (c : StopCause) : Blk :=
  let set := fun (b : Blk) (m : W16) => b.updFn h false (fun x => { x with errStat := x.errStat ||| m })
  match c with
  | .ur => set b 0x2000
  | .ca => set b 0x1000
  | .poison => (set b (if (b.fn h false).parity then 0x8100 else 0x8000)).updPort h (fun p => { p with aer := p.aer ||| 0x1000#32 })
  | _ => b

/-- A read of the engine fails (R430). -/
def Blk.dmaFailed (b : Blk) (h : Nat) (c : StopCause) (addr : Nat) (sys : Bool) : Blk :=
  (if sys then b else b.cplError h c).dmaStop h c addr false sys 1

/-- A stop cause met by a request (R430, R512): a read meets any of them, a write only a fault of the fabric. -/
def Blk.dmaBusError (b : Blk) (h : Nat) (c : StopCause) (addr : Nat) (write sys : Bool) : Blk :=
  if write then (if c = .fabric then b.dmaStop h c addr true sys 0 else b) else b.dmaFailed h c addr sys

/-- A function-level reset of F0 begins (R80): the engine's generation goes on, and the reads outstanding end discarded. -/
def Blk.dmaFlr (b : Blk) (h : Nat) : Blk :=
  b.updEng h (fun e => { e with
    gen := e.gen + 1, ending := e.ending + e.reads,
    chans := e.chans.mapVals {} (fun _ x => { x with bursts := [], reading := none, ahead := none }) })

/-- Surprise removal ends the engine's outstanding requests at once (R82). -/
def Blk.dmaLinkLost (b : Blk) (h : Nat) : Blk :=
  (b.dmaStop h .linkLoss 0 false false 0).updEng h (fun e => { e with ending := 0 })

/-- Hand-over (R428): the shadow set becomes the active set; a descriptor read ahead, or being read, is dropped. -/
def Dch.handOver (x : Dch) : Dch :=
  { x with next := x.shNext, cfg := x.shCfg, arm := false, handed := true, ahead := none, dropRead := x.reading.isSome }

/-- INT of a completed descriptor, under the DMA_CH_CFG given (R426). -/
def Blk.dmaInt (b : Blk) (h c : Nat) (cfg : ChCfg) (at_ : DAddr) : Blk :=
  let b1 := if cfg.intEq then b.devEvent 0x002C h 0 c at_.byte else b
  if cfg.intThread then b1.unitEvent cfg.thread.toNat cfg.unitBit.toNat else b1

/-- Complete the descriptor in hand with a status: write-back, count, INT, hand-over (R421, R426, R428). -/
def Blk.dmaFinish (b : Blk) (h c status : Nat) (hand : Bool) : Blk :=
  let x := b.chn h c
  match x.desc with
  | none => b
  | some d =>
    let b1 := b.writeBack h x.curDesc d false status
    let b2 := b1.updChn h c (fun x => { x with desc := none, rdLeft := 0, bursts := [], done := sat64 x.done 1 })
    let b3 := if dInt d then b2.dmaInt h c x.cfg x.curDesc else b2
    b3.updChn h c (fun x => if hand ∧ x.arm = true then x.handOver else x)

/-- Issue a read of the descriptor at DMA_CH_NEXT (R422): an end-mark read clears kick_pending. -/
def Blk.dmaRead (b : Blk) (h c : Nat) (mark : Bool) : Blk :=
  let x := b.chn h c
  if x.next.sys ∧ (sysLoc h x.next.byte 32).isNone = true then
    (if mark then b.updChn h c (fun x => { x with st := .error, reason := 0x0522, curDesc := x.next }) else b)
  else if ¬ b.dmaCan h x.next.sys then b.updChn h c (fun x => if mark then x.bmeOff else x)
  else (if x.next.sys then b else b.linkAwake h).updChn h c (fun x => { x with
    reading := some x.next, dropRead := false, endMark := mark, aheadDone := true, kick := x.kick && !mark })

/-- A channel that is ACTIVE goes on: with no descriptor in hand it reads at DMA_CH_NEXT, with its last burst issued it
may read one ahead (R422, R428). -/
def Blk.dmaGo (b : Blk) (h c : Nat) : Blk :=
  let x := b.chn h c
  if ¬ b.dmaRuns h ∨ x.st ≠ .active ∨ x.reading.isSome = true then b
  else if x.desc.isNone then b.dmaRead h c true
  else if x.rdLeft = 0 ∧ x.aheadDone = false ∧ x.arm = false then b.dmaRead h c false
  else b

/-- A descriptor with own = 1 is taken in hand, checked, and, for a LINK, followed (R420, R422). One whose bytes 20 to 23 are
written at once waits, read ahead, while its ring's space admits no request (R429). -/
def Blk.dmaTake (b : Blk) (h c : Nat) (d : Desc) : Blk :=
  let x := b.chn h c
  if ((descFault h d).isSome = true ∨ dLink d = true) ∧ ¬ b.dmaCan h x.next.sys then
    b.updChn h c (fun x => { x.bmeOff with ahead := some d })
  else
  match descFault h d with
  | some r =>
    (b.writeBack h x.next d true r).updChn h c (fun x => { x with
      st := .error, reason := BitVec.ofNat 16 r, curDesc := x.next, ahead := none })
  | none =>
    if dLink d then
      ((b.writeBack h x.next d false 0).updChn h c (fun x => { x with
        next := dAddr (dSrcSys d) (dSrc d), done := sat64 x.done 1 })).dmaGo h c
    else
      (b.updChn h c (fun x => { x with
        desc := some d, curDesc := x.next, curSrc := BitVec.ofNat 64 (dSrc d), curDst := BitVec.ofNat 64 (dDst d),
        remain := BitVec.ofNat 25 (dLen d), srcSys := dSrcSys d, dstSys := dDstSys d, rdSrc := dSrc d, rdLeft := dLen d,
        next := { x.next with addr := x.next.addr + 1 }, aheadDone := false })).dmaGo h c

/-- A read ends while the engine halts, or while its function is reset: it is discarded and counted (R80, R431). -/
def Blk.dmaLate (b : Blk) (h : Nat) : Blk :=
  let e := b.eng h
  if (e.st = .halting ∨ (b.fn h false).flr = true) ∧ 0 < e.ending then
    (b.updEng h (fun e => { e with ending := e.ending - 1 })).updPort h (fun p => { p with discard := sat64 p.discard 1 })
  else b

/-- The data of a read in either space: memory, unless poisoned, for system space; the answer for host space. -/
def Blk.dmaData (b : Blk) (h : Nat) (sys : Bool) (a n : Nat) (ans : DmaAns) : DmaAns :=
  if sys then
    match sysLoc h a n, ans with
    | some l, .ok _ => if b.anyPoison l n then .fail .poison else .ok (b.bytes l n)
    | _, .fail c => .fail c
    | none, .ok _ => .fail .fabric
  else
    match ans with
    | .ok l => .ok (slice l 0 n)
    | .fail c => .fail c

/-- An outstanding descriptor read returns (R422): a read ahead whose predecessor has completed meanwhile is used at once; one that returns in BME_OFF is kept for the resumption (R78, R429). -/
def Blk.descRead (b : Blk) (h c : Nat) (ans : DmaAns) : Blk :=
  if ¬ b.dmaRuns h then b.dmaLate h
  else
    let x := b.chn h c
    match x.reading with
    | none => b
    | some at_ =>
      match b.dmaData h at_.sys at_.byte 32 ans with
      | .fail cause => b.dmaFailed h cause at_.byte at_.sys
      | .ok l =>
        let d : Desc := BitVec.ofNat 256 (natLE l)
        let b1 := b.updChn h c (fun x => { x with reading := none, dropRead := false })
        if x.dropRead then b1.dmaGo h c
        else if x.st = .bmeOff ∧ at_ = x.next ∧ dOwn d = true ∧ x.arm = false then b1.updChn h c (fun x => { x with ahead := some d })
        else if x.st ≠ .active ∨ at_ ≠ x.next then b1.dmaGo h c
        else if ¬ x.endMark then
          (if x.desc.isNone then (if dOwn d then b1.dmaTake h c d else b1.dmaGo h c)
           else if dOwn d ∧ x.arm = false then b1.updChn h c (fun x => { x with ahead := some d }) else b1)
        else if dOwn d then b1.dmaTake h c d
        else if x.kick then b1.dmaGo h c
        else b1.updChn h c (fun x => { x with idleAt := x.next, st := .idle })

/-- A channel is ready to issue a burst (R424). -/
def Dch.ready (x : Dch) : Bool := x.st == .active && x.desc.isSome && x.rdLeft != 0 && decide (x.bursts.length < 16)

/-- The channel whose burst is issued next: lowest level, then round robin (R424). -/
def Dma.pick (e : Dma) : Option Nat :=
  let rs := (List.range 32).filter (fun c => (e.chans.get {} c).ready)
  match rs with
  | [] => none
  | _ =>
    let lv := rs.foldl (fun m c => min m (e.chans.get {} c).cfg.priority.toNat) 8
    let at_ := rs.filter (fun c => (e.chans.get {} c).cfg.priority.toNat == lv)
    let last := e.served.get 31 lv
    match at_.find? (fun c => last < c) with
    | some c => some c
    | none => at_.head?

/-- The engine issues one read burst (R424). -/
def Blk.burstIssue (b : Blk) (h : Nat) : Blk :=
  let e := b.eng h
  if ¬ b.dmaRuns h ∨ 128 ≤ e.chans.foldl (fun a c => a + c.2.bursts.length) 0 then b
  else
    match e.pick with
    | none => b
    | some c =>
      let x := b.chn h c
      if ¬ b.dmaCan h x.srcSys then b.updChn h c (·.bmeOff)
      else
        let n := min x.rdLeft (512 - x.rdSrc % 512)
        (((if x.srcSys then b else b.linkAwake h).updEng h (fun e => { e with served := e.served.put 31 x.cfg.priority.toNat c })).updChn h c (fun x => { x with
          bursts := x.bursts ++ [{ src := x.rdSrc, len := n }], rdSrc := x.rdSrc + n, rdLeft := x.rdLeft - n })).dmaGo h c

/-- The data of a channel's oldest burst returns and is written (R424, R430). -/
def Blk.burstData (b : Blk) (h c : Nat) (ans : DmaAns) : Blk :=
  if ¬ b.dmaRuns h then b.dmaLate h
  else
    let x := b.chn h c
    match x.bursts with
    | [] => b
    | u :: rest =>
      match b.dmaData h x.srcSys u.src u.len ans with
      | .fail cause => b.dmaFailed h cause u.src x.srcSys
      | .ok l =>
        if x.st = .bmeOff then b
        else if ¬ b.dmaCan h x.dstSys then b.updChn h c (·.bmeOff)
        else
          (b.dmaWrite h x.dstSys x.curDst.toNat l).updChn h c (fun x => { x with
            bursts := rest, curSrc := x.curSrc + BitVec.ofNat 64 u.len, curDst := x.curDst + BitVec.ofNat 64 u.len,
            remain := x.remain - BitVec.ofNat 25 u.len })

/-- The descriptor in hand has its writes issued, or arrived with barrier: it completes (R421, R425). -/
def Blk.descComplete (b : Blk) (h c : Nat) : Blk :=
  let x := b.chn h c
  if ¬ b.dmaRuns h ∨ x.desc.isNone ∨ x.rdLeft ≠ 0 ∨ ¬ x.bursts.isEmpty ∨ ¬ (x.st = .active ∨ x.st = .pausing) then b
  else if ¬ b.dmaCan h x.curDesc.sys then b.updChn h c (·.bmeOff)
  else
    let b1 := b.dmaFinish h c 0 true
    let y := b1.chn h c
    if y.st = .active then
      match y.ahead with
      | some d => (b1.updChn h c (fun x => { x with ahead := none })).dmaTake h c d
      | none => b1.dmaGo h c
    else b1

/-! Register writes of a channel. -/

/-- A kick (R422): it is latched, and wakes an IDLE channel. -/
def Blk.dmaKickWrite (b : Blk) (h c : Nat) : Blk :=
  let b1 := b.updChn h c (fun x => { x with kick := true, st := if x.st = .idle then .active else x.st })
  b1.dmaGo h c

/-- A channel taken out of PAUSED reads its source again from CUR_SRC (R427, R432). -/
def Dch.again (x : Dch) : Dch :=
  { x with bursts := [], reading := none, ahead := none, aheadDone := false,
           rdSrc := x.curSrc.toNat, rdLeft := if x.desc.isSome then x.remain.toNat else 0 }

/-- A write of DMA_CH_CTRL.enable (R422). -/
def Blk.dmaEnable (b : Blk) (h c : Nat) (en : Bool) : Blk :=
  let x := b.chn h c
  if en = x.enable then b
  else if en then
    (b.updChn h c (fun x => { x with enable := true, kick := true, reason := 0, st := if x.pause then .paused else .active })).dmaGo h c
  else if x.st = .idle ∨ x.st = .paused ∨ x.st = .halted ∨ x.st = .error then
    b.updChn h c (fun x => { x with
      enable := false, st := .disabled, desc := none, rdLeft := 0, bursts := [], reading := none, ahead := none })
  else b

/-- A write of DMA_CH_CTRL.pause (R427). -/
def Blk.dmaPause (b : Blk) (h c : Nat) (p : Bool) : Blk :=
  let x := b.chn h c
  if p = x.pause then b
  else if p then
    b.updChn h c (fun x =>
      let y := { x with pause := true, ahead := none }
      match x.st with
      | .active => { y with st := .pausing }
      | .idle => { y with st := .paused }
      | .bmeOff => { y with before := if x.before = .active then .pausing else x.before }
      | .halted => { y with kept := if x.kept = .active then .paused else x.kept }
      | _ => y)
  else
    (b.updChn h c (fun x =>
      let y := { x with pause := false }
      match x.st with
      | .paused => { y.again with st := .active }
      | .pausing => { y with st := .active }
      | .bmeOff => { y with before := if x.before = .pausing then .active else x.before }
      | .halted => { y with kept := if x.kept = .paused ∨ x.kept = .pausing then .active else x.kept }
      | _ => y)).dmaGo h c

/-- A PAUSING channel has issued its writes: PAUSED (R427). -/
def Blk.pauseDrained (b : Blk) (h c : Nat) : Blk :=
  let x := b.chn h c
  if b.dmaRuns h = true ∧ x.st = .pausing ∧ x.bursts.isEmpty = true ∧ ¬ (x.desc.isSome = true ∧ x.remain = 0) then
    b.updChn h c (fun x => { x with st := .paused, reading := none })
  else b

/-- abort (R432): the descriptor in hand of a HALTED or PAUSED channel completes with an error status. -/
def Blk.dmaAbort (b : Blk) (h c : Nat) : Blk :=
  let x := b.chn h c
  if x.desc.isNone then b
  else if x.st = .halted ∧ (b.eng h).st = .halted then
    (b.dmaFinish h c 0x0523 false).updChn h c (fun x => { x with curDesc := x.next })
  else if x.st = .paused ∧ (b.eng h).st = .running then
    let next := x.next
    (b.dmaFinish h c 0x0501 true).updChn h c (fun x => { x with curDesc := next })
  else b

/-- A write of DMA_CH_CTRL: enable, pause, abort. -/
def Blk.dmaCtrlWrite (b : Blk) (h c : Nat) (v : W32) : Blk :=
  let b1 := if v.getLsbD 2 then b.dmaAbort h c else b
  (b1.dmaPause h c (v.getLsbD 1)).dmaEnable h c (v.getLsbD 0)

/-- A write of DMA_CH_SHADOW (R428). -/
def Blk.dmaShadowWrite (b : Blk) (h c : Nat) (v : W32) : Blk :=
  let b0 := b.updChn h c (fun x => { x with
    reject := x.reject && !v.getLsbD 1, handed := x.handed && !v.getLsbD 2, arm := v.getLsbD 0,
    ahead := if v.getLsbD 0 then none else x.ahead })
  let x := b0.chn h c
  if x.arm ∧ x.st = .idle then ((b0.updChn h c (fun x => { x.handOver with st := .active })).dmaGo h c)
  else if x.arm ∧ x.st = .paused ∧ x.desc.isNone then b0.updChn h c (·.handOver)
  else b0

/-- Channels in BME_OFF go on once Bus Master Enable is 1 (R429). -/
def Blk.dmaBme (b : Blk) (h : Nat) : Blk :=
  if b.canIssue h false then
    (List.range 32).foldl (fun b c =>
      if (b.chn h c).st = .bmeOff then
        let b1 := b.updChn h c (fun x => { x with st := x.before })
        match (b.chn h c).desc, (b.chn h c).ahead, (b.chn h c).before with
        | none, some d, .active => (b1.updChn h c (fun x => { x with ahead := none })).dmaTake h c d
        | _, _, _ => b1.dmaGo h c
      else b) b
  else b

/-- restart (R432). -/
def Blk.dmaRestart (b : Blk) (h : Nat) : Blk :=
  if (b.eng h).st ≠ .halted ∨ (b.port h).linkUp = false then b
  else
    let b1 := b.updEng h (fun e => { e with
      st := .running,
      chans := e.chans.mapVals {} (fun _ x =>
        if x.st = .halted then
          { x.again with st := if x.kept = .pausing then .paused else x.kept,
                         before := if x.before = .pausing then .paused else x.before }
        else x) })
    ((List.range 32).foldl (fun b c => b.dmaGo h c) b1).dmaBme h

/-- DMA_ENG_STATUS of an engine. -/
def Dma.statusReg (e : Dma) : Nat :=
  (match e.st with
    | .running => 0
    | .halting => 1
    | .halted => 2) + (if e.errWrite then 4 else 0) + (if e.errSys then 8 else 0) + e.cause.toNat * 2 ^ 4 + e.gen.toNat * 2 ^ 8

/-- Every outstanding read has ended: HALTED, event, record (R149, R431). The record's reason is 0: no code of R146 is given to
a stop of an engine. -/
def Blk.dmaHalted (b : Blk) (h : Nat) : Blk :=
  let e := b.eng h
  if e.st ≠ .halting ∨ (e.ending ≠ 0 ∧ b.mono < e.stopAt + 10000000) then b
  else
    let b1 := b.updEng h (fun e => { e with st := .halted, ending := 0, haltCount := sat32 e.haltCount 1 })
    let b2 := b1.devEvent 0x002B h 0 e.cause.toNat e.errAddr.toNat
    let b3 := if e.rEnable then b2.unitEvent e.rThread.toNat e.rUnit.toNat else b2
    { b3 with ctl := { b3.ctl with errs := b3.ctl.errs ++ [{
        type := 2, reason := 0, index := h, port := h, mono := b.mono, epoch := b.ctl.newest,
        detail := (b3.eng h).statusReg }] } }

/-- Reset of an engine (R429); DMA_HALT_COUNT stays but for a reset of the half or device. -/
def Blk.dmaReset (b : Blk) (h : Nat) (whole : Bool) : Blk :=
  let n := (b.eng h).haltCount
  b.updEng h (fun _ => { haltCount := if whole then 0 else n })

/-- DMA_CH_CFG from its bits. -/
def chCfgOf (v : W32) : ChCfg :=
  { priority := v.extractLsb' 0 3, intEq := v.getLsbD 3, intThread := v.getLsbD 4, thread := v.extractLsb' 5 9,
    unitBit := v.extractLsb' 14 3 }
/-- DMA_CH_CFG as bits. -/
def ChCfg.bits (c : ChCfg) : W32 :=
  c.priority.setWidth 32 ||| ((bit 32 c.intEq) <<< 3) ||| ((bit 32 c.intThread) <<< 4) ||| ((c.thread.setWidth 32) <<< 5) |||
  ((c.unitBit.setWidth 32) <<< 14)
/-- A descriptor address register as bits. -/
def DAddr.bits (a : DAddr) : W64 := (a.addr.setWidth 64 <<< 5) ||| bit 64 a.sys
/-- A descriptor address from its bits. -/
def dAddrOf (v : W64) : DAddr := { sys := v.getLsbD 0, addr := v.extractLsb' 5 59 }

/-- Code of a channel state. -/
def chCode : ChSt → Nat
  | .disabled => 0
  | .idle => 1
  | .active => 2
  | .pausing => 3
  | .paused => 4
  | .halted => 5
  | .bmeOff => 6
  | .error => 7

end Sys2Proof.Machine
end

