-- ==== Sys2Proof/Machine/HostOps.lean ====
section
/-! DEFINITION. Host ports: resets, link loss and insertion, Bus Master Enable and D3hot, MSI-X masks, accesses that no
register serves, the device-memory aperture, link power, LTR, completions (chapter 03). -/

namespace Sys2Proof.Machine
open Sys2Proof

/-! Resets (R76, R80, R82, R84). -/

/-- A mailbox request in flight ends with status RESET (R76, R457). DESIGN CHOICE (log 112): a reset of the port clears the done
event bit of MBX_CTRL. -/
def Blk.mbxReset (b : Blk) (h : Nat) : Blk :=
  { b with mss := { b.mss with mbx := b.mss.mbx.upd {} h (fun p =>
      { p with st := if p.st = .busy then .reset else p.st, doneEv := false }) } }

/-- Every register of the CTL and INT blocks at its reset value (R123, R124). -/
def HostPort.ctlIntReset (p : HostPort) : HostPort :=
  { p with ctlWqBase := 0, ctlWqEn := false, ctlWqLog2 := 4, ctlWq := {}, ctlCqBase := 0, ctlCqEn := false, ctlCqLog2 := 4,
           ctlCq := {}, ctlMirrorEn := false, ctlMirror := 0, eqBase := 0, eqEn := false, eqLog2 := 5, eqVector := 0,
           eq := {}, eqMirrorEn := false, eqMirror := 0 }

/-- Registers of a port that its reset returns to their reset values: staging and read latches hold 0 again (R5). -/
def Blk.dropLatches (b : Blk) (w : Who) : Blk :=
  { b with stg := b.stg.filter (fun e => e.1.1 ≠ w), hlat := b.hlat.filter (fun e => e.1.1 ≠ w),
           tbLat := b.tbLat.filter (fun e => e.1 ≠ w) }

/-- Latches of the registers that a reset returns to their reset values hold 0 again, whoever staged them (R5). -/
def Blk.dropRegs (b : Blk) (p : Reg → Bool) : Blk :=
  { b with stg := b.stg.filter (fun e => !p e.1.2), hlat := b.hlat.filter (fun e => !p e.1.2) }

/-- The 64-bit registers of the CTL, INT and DMA blocks of a port. -/
def ofF0 (h : Nat) : Reg → Bool
  | .ctlWqBase k | .ctlCqBase k | .ctlCqMirror k | .f0EqBase k | .f0EqMirror k | .dmaErrAddr k | .dmaNext k _ | .dmaCurDesc k _
  | .dmaCurSrc k _ | .dmaCurDst k _ | .dmaIdleAt k _ | .dmaDone k _ | .dmaShNext k _ => k == h
  | _ => false

/-- The effects of R76 on what belongs to F0: configuration, CTL queue, F0 event queue, mailbox, DMA engine, and its part
of the BOOT block (R90). -/
def Blk.f0Reset (b : Blk) (h : PortId) (ready : Bool) : Blk :=
  let b1 := (b.dropPrograms h.val).updPort h.val (fun p => { p.ctlIntReset with
    f0 := { ready := ready }, l1En := false, l11En := false, l12En := false, pl11En := false, pl12En := false, l0pEn := false, ltrEn := false,
    l12Value := 0, l12Scale := 0, ltr := none })
  (((({ b1 with scans := b1.scans.put {} h.val {} }.mbxReset h.val).dmaReset h.val false).bootPortReset h.val).dropLatches (.f0 h)).dropRegs
    (ofF0 h.val)

/-- The effects of R76 on the configuration of F1; its instances apart. -/
def Blk.f1Reset (b : Blk) (h : PortId) (ready : Bool) : Blk :=
  (b.updPort h.val (fun p => { p with f1 := { ready := ready } })).dropLatches (.f1 h)

/-- PERST# or a hot reset on the device side (R76). -/
def Blk.portReset (b : Blk) (h : PortId) : Blk :=
  ((b.detachPort h.val).f0Reset h false).f1Reset h false

/-- PERST# of a port is asserted (R76). -/
def Blk.perstAssert (b : Blk) (h : PortId) : Blk :=
  ((b.portReset h).updPort h.val (fun p => { p with
    perst := true, linkUp := false, removed := false, width := 0, lanes := 0, speed := 0, flit := false, equalised := false })).linkAwake h.val

/-- A hot reset (R76). -/
def Blk.hotReset (b : Blk) (h : PortId) : Blk :=
  if (b.port h.val).linkUp then (b.portReset h).linkAwake h.val else b

/-- Widest link of a port (R51). -/
def Blk.maxWidth (b : Blk) (h : Nat) : Nat := if b.x16 h then 16 else 8

/-- The link of a port may train: PERST# released, the port present, its reference clock there, the halves powered
(R51, R85, R505). -/
def Blk.canTrain (b : Blk) (h : Nat) : Bool :=
  !(b.port h).perst && !b.absent h && b.mss.powered && !b.elec.refLost.contains h

/-- The link of a port comes up with a width, narrower ones recorded in the Reel, at the highest speed of both ends, where
`top` is the partner's: FLIT mode at 64 GT/s always, below it where the partner supports it (R52); an interrupt state of 1 is
sent (R71). -/
def Blk.linkTrains (b : Blk) (h : Nat) (w : Nat) (top : Fin 6) (flit : Bool) : Blk :=
  if b.canTrain h && [1, 2, 4, 8, 16].contains w && w ≤ b.maxWidth h then
    let b1 := b.updPort h (fun p => { p with
      linkUp := true, removed := false, width := BitVec.ofNat 6 w, lanes := BitVec.ofNat 6 w,
      speed := BitVec.ofNat 4 (top.val + 1), flit := flit || top.val == 5,
      equalised := true, f0 := { p.f0 with inta := false }, f1 := { p.f1 with inta := false } })
    let b2 := if w < b.maxWidth h then b1.reel 0x0008 0 [h, w] else b1
    (b2.evalIntx h false).evalIntx h true
  else b

/-- PERST# is released and the link trains (R53). -/
def Blk.perstRelease (b : Blk) (h : PortId) (w : Nat) (top : Fin 6) (flit : Bool) : Blk :=
  if (b.port h.val).perst then (b.updPort h.val (fun p => { p with perst := false })).linkTrains h.val w top flit else b

/-- F0 and F1 become ready (R53). -/
def Blk.fnsReady (b : Blk) (h : Nat) : Blk :=
  if (b.port h).linkUp then
    b.updPort h (fun p => { p with f0 := { p.f0 with ready := true }, f1 := { p.f1 with ready := true } })
  else b

/-- Initiate Function Level Reset (R80, steps 1 and 2). -/
def Blk.flr (b : Blk) (h : PortId) (f1 : Bool) : Blk :=
  if (b.fn h.val f1).flr then b
  else
    let b1 := if f1 then (b.boundInsts h.val).foldl Blk.genUp b
      else b.dmaFlr h.val
    b1.updFn h.val f1 (fun x => { x with flr := true, inta := false, pba := [] })

/-- Every outstanding request has ended: the effects of R76 (R80, step 5). -/
def Blk.flrComplete (b : Blk) (h : PortId) (f1 : Bool) : Blk :=
  if (b.fn h.val f1).flr then
    if f1 then ((b.boundInsts h.val).foldl Blk.detachKeep b).f1Reset h true else b.f0Reset h true
  else b

/-- The data link of a port is lost (R82): its instances detach, its engine stops for the lost link. -/
def Blk.linkLost (b : Blk) (h : Nat) : Blk :=
  let b1 := ((b.detachPort h).linkAwake h).updPort h (fun p => { p with
    linkUp := false, removed := true, width := 0, lanes := 0, speed := 0, flit := false,
    f0 := { p.f0 with inta := false }, f1 := { p.f1 with inta := false } })
  b1.dmaLinkLost h

/-- Surprise removal (R82). -/
def Blk.removal (b : Blk) (h : Nat) : Blk :=
  if (b.port h).linkUp then
    let b1 := b.linkLost h
    let b2 := if h = b.ownerPort then b1 else b1.devEvent 0x0012 h
    b2.reel 0x0009 0 [h]
  else b

/-- Hot insertion: the link trains afresh, configuration space at its reset values, the ROM rebuilt (R84). -/
def Blk.insertion (b : Blk) (h : Nat) (w : Nat) (top : Fin 6) (flit : Bool) : Blk :=
  if !(b.port h).linkUp && b.canTrain h then
    (b.updPort h (fun p => { p with
      f0 := {}, f1 := {}, rom := true, l1En := false, l11En := false, l12En := false, pl11En := false, pl12En := false, l0pEn := false, ltrEn := false,
      l12Value := 0, l12Scale := 0, ltr := none })).linkTrains h w top flit
  else b

/-! Bus Master Enable, D3hot, MSI-X (R72, R78, R514). -/

/-- A function may issue requests again: held completions, events and messages go, DMA channels go on (R78). -/
def Blk.fnResumes (b : Blk) (h : Nat) (f1 : Bool) : Blk :=
  let b1 := if f1 then (b.boundInsts h).foldl Blk.instRetry b
    else ((b.cqRetry (.ctl h)).f0Flush h).dmaBme h
  (b1.pbaFlush h f1).settleIncs

/-- A change of Bus Master Enable (R78). -/
def Blk.bmeChange (b : Blk) (h : Nat) (f1 v : Bool) : Blk :=
  (b.updFn h f1 (fun x => { x with busMaster := v })).fnResumes h f1

/-- A function enters D3hot or returns to D0 (R78). -/
def Blk.d3Change (b : Blk) (h : Nat) (f1 v : Bool) : Blk :=
  (b.updFn h f1 (fun x => { x with d3 := v })).fnResumes h f1

/-- What a command changes of the masks of a function (R72). -/
def Fn.maskSet (x : Fn) (m : MaskSet) : Fn :=
  match m with
  | .fnMask v => { x with fnMask := v }
  | .enable v => { x with msixEn := v }
  | .vector k v => { x with vecs := x.vecs.upd {} k.val (fun y => { y with mask := v }) }

/-- A change of Function Mask, a vector's Mask or MSI-X Enable (R69, R72). -/
def Blk.maskChange (b : Blk) (h : Nat) (f1 : Bool) (m : MaskSet) : Blk :=
  let ok := match m with
    | .vector k _ => f1 || k.val < 32
    | _ => true
  if ok then ((b.updFn h f1 (fun x => x.maskSet m)).pbaFlush h f1).evalIntx h f1 else b

/-! Accesses that no register serves (R59, R61, R62, R81). -/

/-- Memory space of a function is open: Memory Space Enable, no function-level reset (R59, R81). -/
def Blk.memOpen (b : Blk) (h : Nat) (f1 : Bool) : Bool := (b.fn h f1).memEn && !(b.fn h f1).flr

/-- An access while memory space is closed: Unsupported Request; while a function-level reset runs a write is discarded
(R59, R81). -/
def Blk.closedAccess (b : Blk) (h : Nat) (f1 write : Bool) : Blk :=
  if write && (b.fn h f1).flr && (b.fn h f1).memEn then b else b.emit (.ur h)

/-- An access to a disabled function, or to an address of a BAR that no block covers (R59). -/
def Blk.unserved (b : Blk) (h : Nat) (f1 write : Bool) (n : Nat) : Blk :=
  if !b.memOpen h f1 then b.closedAccess h f1 write
  else if write then b else b.emit (.hostRead h (List.replicate n 0))

/-- Count in PORT_UNBOUND (R64). -/
def Blk.countUnbound (b : Blk) (h : Nat) : Blk := b.updPort h (fun p => { p with unbound := sat64 p.unbound 1 })

/-- An access to the doorbell page of an instance that is not bound to the port, or is DETACHED (R61). -/
def Blk.unboundPage (b : Blk) (h i : Nat) (write : Bool) (n : Nat) : Blk :=
  if !b.memOpen h true then b.closedAccess h true write
  else if b.boundTo i h then b
  else if write then b.countUnbound h else b.emit (.hostRead h (List.replicate n 0))

/-- Bytes of a memory request. -/
def reqLen : MemReq → Nat
  | .read n => n.val
  | .write l => l.length
/-- A memory request writes. -/
def reqWrites : MemReq → Bool
  | .read _ => false
  | .write _ => true

/-- Bytes of the aperture window of an instance: its device memory in its slot (R62, R442). -/
def Blk.apertureLen (b : Blk) (i : Nat) : Nat := min 2097152 ((b.inst i).blocks.length * 2097152)

/-- The byte at an offset of an instance's device memory, as the aperture reads it: data lost to poison is a free value (R487
names no host read; DESIGN CHOICE, log 115). -/
def Blk.apertureByte (b : Blk) (i off k : Nat) : Byte :=
  match b.devLoc i off with
  | none => 0
  | some a => if b.poisoned a then BitVec.ofNat 8 (Config.freeBits (b.fresh + k)).toNat else b.byte a

/-- Whole granules that a write of the aperture stores lose their poison (R200). -/
def Blk.apertureHeal (b : Blk) (i off : Nat) (l : List (Option Byte)) : Blk :=
  if b.poison.isEmpty then b
  else b.setPoison (((granules off l.length).filter (fun g =>
      (List.range 8).all (fun k => decide (off ≤ 8 * g + k) && (l.getD (8 * g + k - off) none).isSome))).filterMap
        (fun g => (b.devLoc i (8 * g)).map (· / 8))) false

/-- An access to slot `i` of the device-memory aperture (R62, R513). -/
def Blk.aperture (b : Blk) (h i off : Nat) (r : MemReq) : Blk :=
  if !b.memOpen h true then b.closedAccess h true (reqWrites r)
  else if b.boundTo i h && off + reqLen r ≤ b.apertureLen i then
    match r with
    | .read n =>
      let bytes := (List.range n.val).map (fun k => b.apertureByte i (off + k) k)
      (if b.poison.isEmpty then b else b.drawn n.val).emit (.hostRead h bytes)
    | .write l => (l.zipIdx.foldl (fun b x => match x.1, b.devLoc i (off + x.2) with
        | some v, some a => b.devWrite a [v]
        | _, _ => b) b).apertureHeal i off l
  else
    match r with
    | .read _ => (b.countUnbound h).emit (.ur h)
    | .write _ => b.countUnbound h

/-- A write of F0 BAR2 (R59, R92, R513). -/
def Blk.loadWindow (b : Blk) (h off : Nat) (l : List (Option Byte)) : Blk :=
  if !b.memOpen h false then b.closedAccess h false true
  else if off < 268435456 then b.loadWrite h off l else b

/-! Completions (R80, R82, R444). -/

/-- A completion arrives: discarded and counted where it is stale, or answers a request that was outstanding when the
link was lost; used otherwise, by the command whose request it answers (R80, R82, R444). -/
def Blk.completionRx (b : Blk) (h : Nat) (inst : Option InstId) (gen : BitVec 12) (lost : Bool) : Blk :=
  let count := fun b : Blk => b.updPort h (fun p => { p with discard := sat64 p.discard 1 })
  match inst with
  | some i =>
    if gen ≠ (b.inst i.val).gen then (count b).updInst i.val (fun d => { d with stale := sat64 d.stale 1 })
    else if lost then count b else b
  | none => if gen ≠ (b.eng h).gen || lost then count b else b

/-! Link power and LTR (R74, R75). -/

/-- The link enters L1, or a substate that the host has enabled (R74, R75). PRESUMED, as PCI Express has it: while both
functions are in D3hot the PCI-PM enables of the substates hold, else those of ASPM. -/
def Blk.l1Entry (b : Blk) (h : Nat) (pm : LinkPm) : Blk :=
  let p := b.port h
  let pci := p.f0.d3 && p.f1.d3
  let ok := match pm with
    | .l0 => false
    | .l1 => p.l1En
    | .l11 => p.l1En && (if pci then p.pl11En else p.l11En)
    | .l12 => p.l1En && (if pci then p.pl12En else p.l12En) && (match p.ltr with
        | some v => decide (p.l12Value.toNat * 32 ^ p.l12Scale.toNat ≤ v * 1000)
        | none => false)
  if p.linkUp && b.pm.get .l0 h == .l0 && ok then ({ b with pm := b.pm.put .l0 h pm } : Blk).emit (.link h pm) else b

/-- The link leaves L1 or a substate (R74). -/
def Blk.l1Exit (b : Blk) (h : Nat) : Blk :=
  if b.pm.get .l0 h ≠ .l0 then (b.linkAwake h).emit (.link h .l0) else b

/-- L0p halves the lanes in use, not below x2 (R74). -/
def Blk.l0pNarrow (b : Blk) (h : Nat) : Blk :=
  let p := b.port h
  if p.linkUp && p.l0pEn && p.flit && b.pm.get .l0 h == .l0 && 4 ≤ p.lanes.toNat then
    b.updPort h (fun p => { p with lanes := p.lanes >>> 1 })
  else b

/-- L0p takes every lane again (R74). -/
def Blk.l0pWiden (b : Blk) (h : Nat) : Blk := b.updPort h (fun p => { p with lanes := p.width })

/-- Work that R75 counts on a port: entries that the device owns in a work queue, an active DMA channel, packets in a
delivery queue. -/
def Blk.portBusy (b : Blk) (h : Nat) : Bool :=
  let mine := b.boundInsts h
  (b.port h).ctlWq.pi != (b.port h).ctlWq.ci ||
  b.wqs.any (fun e => mine.contains (e.1 / 64) && (b.cfg.wq (e.1 / 64) (e.1 % 64)).life != .absent && e.2.pi != e.2.ci) ||
  (b.eng h).chans.any (fun c => c.2.st == .active) ||
  b.hog.queues.any (fun q => !q.pkts.isEmpty && (match q.key with
    | .deliver i _ => mine.contains i
    | _ => false))

/-- Time passes for a port that has work (R75). -/
def Blk.noteBusy (b : Blk) (h : Nat) : Blk :=
  if b.portBusy h then b.updPort h (fun p => { p with busyAt := b.mono + 1 }) else b

/-- F0 sends an LTR message when its value changes: 100 µs after 1 ms with no work (R75). -/
def Blk.ltrUpdate (b : Blk) (h : Nat) (active : Bool) : Blk :=
  let p := b.port h
  let v := if active then 2 else 100
  if p.ltrEn && p.linkUp && b.portBusy h == active && (active || decide (p.busyAt + 1000000 ≤ b.mono)) && p.ltr != some v then
    (b.updPort h (fun p => { p with ltr := some v })).emit (.ltr h v)
  else b

end Sys2Proof.Machine
end

