-- ==== Sys2Proof/Machine/Recover.lean ====
section
/-! DEFINITION. Resets of a half and of the device, the return of a half, power, alarms (R22 to R24, R98, R368, R461 to
R463, R497). -/

namespace Sys2Proof.Machine
open Sys2Proof

/-! Alarms. -/

/-- Seq of the first KEY.IMPORT of a program. -/
def Prog.importSeq (p : Prog) : Option Nat := (p.staged.find? (fun i => ciOp i.raw == some .keyImport)).map (·.seq)

/-- An alarm refuses a program that holds KEY.IMPORT (R368). -/
def Prog.onAlarm (p : Prog) : Prog :=
  match p.refused, p.importSeq with
  | none, some s => { p with refused := some (0x0620, s) }
  | _, _ => p

/-- An alarm, with its effect on programs whose commit has not passed (R368). `cause` is the bit of KS_STATUS.cause. -/
def Blk.raiseAlarm (b : Blk) (cause : Nat) : Blk :=
  let b1 := b.alarm cause
  { b1 with ctl := { b1.ctl with
      queues := b1.ctl.queues.mapVals {} (fun _ c => { c with prog := c.prog.map Prog.onAlarm }),
      line := b1.ctl.line.map (fun l => { l with prog := l.prog.onAlarm }) } }

/-! The reset of a half (R23, R24). -/

/-- First location of a half's HBM. -/
def hbmBase : Half → Nat
  | .west => 0
  | .east => hbmEast

/-- Memory of a half reads 0 again: HBM and its copy of firmware memory. -/
def Blk.clearHalfMem (b : Blk) (h : Half) : Blk := (b.zeroRange (hbmBase h) hbmSize).zeroRange (fwLoc h fwBase) fwSize

/-- Keys of a table that lie in a half: 0 to n − 1 West, from n on East. -/
def inHalf (h : Half) (n k : Nat) : Bool := decide (k / n = h.code)

/-- A core over a reset: a core number that runs on a spare stays so (R485). -/
def Core.renewed (x : Core) : Core := { spared := x.spared }

/-- Threads, cores, channels and the supervisor of a half stop and hold their reset values; channels of the other half lose
the messages on their way from it and its threads' registrations (R24). -/
def Cores.lose (c : Cores) (h : Half) : Cores :=
  { c with threads := c.threads.dropKeys (inHalf h 256), cores := c.cores.mapVals {} (fun k x => if inHalf h 32 k then x.renewed else x),
           chans := Tab.mapVals {} (fun _ x => { x with
               transit := x.transit.filter (fun m => m.src != h), registered := x.registered.filter (fun t => !inHalf h 256 t) })
             (c.chans.filter (fun e => !inHalf h 256 e.2.receiver.toNat)),
           groups := c.groups.filter (fun e => e.2.east != decide (h = .east)),
           fqWest := if h = .west then {} else c.fqWest,
           fqEast := if h = .east then { sup := 256 } else c.fqEast }

/-- The threads of a half are lost (R24): groups of the other half measure afresh without them, credits that they held or
that their messages took are free again (R251, R260); messages that were on their way to the half end at the bridge, counted
(R23). -/
def Blk.loseThreads (b : Blk) (h : Half) : Blk :=
  let groups := (List.range 64).filter (fun g =>
    (b.group g).east != decide (h = .east) && (b.members g).any (fun t => halfOfThread t == h))
  let freed := (b.cores.chans.filter (fun e => !inHalf h 256 e.2.receiver.toNat &&
    (e.2.transit.any (fun m => m.src == h) ||
      b.cores.threads.any (fun t => inHalf h 256 t.1 && t.2.credits.get 0 e.1 != 0)))).map (·.1)
  let ended := b.cores.chans.foldl (fun a e =>
    if inHalf h 256 e.2.receiver.toNat then a + (e.2.transit.filter (fun m => m.src != h)).length else a) 0
  let b1 := (List.range ended).foldl (fun b _ => b.countDown h) { b with cores := b.cores.lose h }
  let b2 := groups.foldl (fun b g => b.updGroup g (fun x => { x with raised := false, measureFrom := b.mono })) b1
  freed.foldl Blk.creditsRise b2

/-- Packets on their way to a half over the bridge end there, counted (R23). -/
def Blk.dropBound (b : Blk) (h : Half) : Blk :=
  let gone := (b.crossingTo h).filter (fun c => c.pkt.half != h)
  let b1 : Blk := { b with hog := { b.hog with crossing := b.hog.crossing.filter (fun c => !gone.contains c) } }
  (gone.foldl (fun b c => b.dropDown c.pkt h) b1).pfcSettle

/-- Packets that lie in a half: its pipelines, its traffic manager, its ports, its engine, on the bridge out of it. -/
def Blk.packetsLying (b : Blk) (h : Half) : List Packet :=
  ((b.hog.queues.filter (fun q => b.halfOfQ q.key == h)).flatMap (·.pkts)) ++
  ((b.hog.crossing.filter (fun c => c.pkt.half == h)).map (·.pkt)) ++
  ((b.hog.egress.filter (fun e => halfOfLane e.lane == h)).map (·.pkt)) ++
  ((b.eth.filter (fun l => halfOfLane l.1 == h)).flatMap (fun l => l.2.launch)) ++
  ((b.pipes.filter (fun p => halfOfPipe p.1 == h)).flatMap (fun p => p.2.waits.map (·.pkt)))

/-- 64-bit registers of a half's threads, channels, pipelines, ports and engines, which its reset returns to their reset
values (R5, R24). -/
def Blk.regOfHalf (b : Blk) (h : Half) : Reg → Bool
  | .thrState t | .thrEvpend t | .thrSignal t | .thrGroup t => halfOfThread t == h
  | .grpCtrl g => (b.group g).east == decide (h = .east)
  | .sup k | .fqBase k | .fqPi k | .fqCi k | .rmtCnt k _ => k == h.code
  | .chCfg c => halfOfThread (b.chan c).receiver.toNat == h
  | .pipeStatus p | .pipeCnt p _ | .puntBase p | .puntCtrl p | .puntPi p | .puntCi p | .pipeDrop p _
  | .learnCfg p | .learnStatus p | .learnFlush p | .learnCnt p _ => halfOfPipe p == h
  | .ethLink l | .ethCnt l _ | .tsCtrl l | .tsStatus l | .tsHead0 l | .tsHead1 l | .tsPop l | .tsOvfCount l
  | .launchStatus l | .launchLate l | .launchRange l => halfOfLane l == h
  | .luState u => halfOfUnit u == h
  | .dspLink d | .dspSlot d | .dspMsiRoute d | .dspMsiPend d | .dspErr d => inHalf h 4 d
  | _ => false

/-- A writer is a thread of a half. -/
def whoInHalf (h : Half) (w : Who) : Bool := match w with
  | .thread t => halfOfThread t.val == h
  | _ => false

/-- The latches of a half's registers, and of its threads, hold 0 again (R5). -/
def Blk.dropHalfRegs (b : Blk) (h : Half) : Blk :=
  let b1 := b.dropRegs (b.regOfHalf h)
  { b1 with stg := b1.stg.filter (fun e => !whoInHalf h e.1.1), hlat := b1.hlat.filter (fun e => !whoInHalf h e.1.1),
            tbLat := b1.tbLat.filter (fun e => !whoInHalf h e.1) }

/-- A pipeline after a reset of its half: its counters, learning table and packets are gone; a fenced lane stays so. -/
def Pipe.lose (p : Pipe) : Pipe := { laneFenced := p.laneFenced }

/-- The traffic manager of a half loses what it holds (R24). -/
def Blk.loseHog (b : Blk) (h : Half) : Hog :=
  { b.hog with
    queues := b.hog.queues.filter (fun q => b.halfOfQ q.key != h),
    crossing := b.hog.crossing.filter (fun c => c.pkt.half != h),
    egress := b.hog.egress.filter (fun e => halfOfLane e.lane != h),
    xoff := b.hog.xoff.filter (fun x => halfOfLane x.lane != h),
    portTokens := b.hog.portTokens.dropKeys (fun k => decide (halfOfLane k = h)) }

/-- The transport engine of a half loses its state: queue pairs and counters homed there, posted requests against them,
packets, its counters (R24). -/
def Blk.loseRmt (b : Blk) (h : Half) : Rmt :=
  let trigHalf := fun k : Nat => b.homeOf (b.cfg.trig k).inst
  { b.rmt with
    qps := b.rmt.qps.filter (fun q => b.qpHalf q.1 != h),
    trigs := b.rmt.trigs.filter (fun t => trigHalf t.1 != h),
    posted := b.rmt.posted.filter (fun p => trigHalf p.counter != h),
    inWest := if h = .west then [] else b.rmt.inWest, inEast := if h = .east then [] else b.rmt.inEast,
    counts := b.rmt.counts.dropKeys (inHalf h 16),
    nakWest := if h = .west then none else b.rmt.nakWest, nakEast := if h = .east then none else b.rmt.nakEast }

/-- Instances homed in a half. -/
def Blk.homedIn (b : Blk) (h : Half) : List Nat :=
  (b.cfg.insts.filter (fun e => e.2.life != .absent && halfOfPort e.2.port.toNat == h)).map (·.1)

/-- Destroyed instances homed in a half whose work drains. -/
def Blk.dyingIn (b : Blk) (h : Half) : List Nat :=
  (b.ctl.dying.filter (fun d => halfOfPort (d.2.inst d.1).port.toNat == h)).map (·.1)

/-- Nothing is left of a destroyed instance but the generation of its number (R160, R434). -/
def Blk.instForgotten (b : Blk) (i : Nat) : Blk :=
  let qps := ((b.instCfg i).qps.filter (fun q => q.2.inst == i && q.2.life != .absent)).map (·.1)
  { b with
    ctl := { b.ctl with dying := b.ctl.dying.filter (fun d => d.1 != i) },
    wqs := b.wqs.dropKeys (fun k => k / 64 == i), cqs := b.cqs.dropKeys (fun k => k / 64 == i),
    eqs := b.eqs.dropKeys (fun k => k / 8 == i),
    insts := { b.insts with dyn := b.insts.dyn.put {} i { gen := (b.inst i).gen } },
    keys := { b.keys with lockReason := b.keys.lockReason.put 0 i 0 },
    rmt := { b.rmt with
      qps := b.rmt.qps.dropKeys (fun n => qps.contains n),
      winAdmitted := b.rmt.winAdmitted.dropKeys (fun k => k / 65536 == i), trigSel := b.rmt.trigSel.put 0 i 0 } }

/-- Queues, cached translations and device memory of the instances homed in a half are lost; a destroyed one is gone, and the
bushels given back are free (R24). -/
def Blk.loseInsts (b : Blk) (h : Half) : Blk :=
  let mine := b.homedIn h ++ b.dyingIn h
  let b1 : Blk := { b with
    wqs := b.wqs.dropKeys (fun k => mine.contains (k / 64)), cqs := b.cqs.dropKeys (fun k => mine.contains (k / 64)),
    eqs := b.eqs.dropKeys (fun k => mine.contains (k / 8)),
    insts := { b.insts with
      cacheWest := if h = .west then [] else b.insts.cacheWest, cacheEast := if h = .east then [] else b.insts.cacheEast,
      leaving := b.insts.leaving.filter (fun x => x.east != decide (h = .east)),
      zeroing := b.insts.zeroing.filter (fun z => z.1 != decide (h = .east)),
      walks := b.insts.walks.filter (fun w => !mine.contains w.inst) } }
  (b.dyingIn h).foldl Blk.instForgotten b1

/-- A host port of a half that is reset: surprise removal, then the state of its blocks is lost (R24, R82). -/
def Blk.losePort (b : Blk) (h : PortId) : Blk :=
  let b1 := b.removal h.val
  let b2 := ((b1.detachPort h.val).dropPrograms h.val).updPort h.val (·.ctlIntReset)
  ((({ b2 with scans := b2.scans.put {} h.val {} }.dmaReset h.val true).dropLatches (.f0 h)).dropLatches (.f1 h)).dropRegs
    (ofF0 h.val)

/-- Withdraw the meeting points of a half (R20, R23). -/
def Boot.withdraw (o : Boot) (h : Half) : Boot :=
  { o with state := bsRecovery, before := if o.state = bsRecovery then o.before else o.state,
           mpWest := if h = .west then 0 else o.mpWest, mpEast := if h = .east then 0 else o.mpEast }

/-- Cores and pipelines of a half, as epochs number them (R27). -/
def unitsOf (h : Half) : List Nat := (List.range 4).map (· + 4 * h.code) ++ (List.range 32).map (· + 8 + 32 * h.code)

/-- Units counted as holding an epoch. -/
def EpochRec.seenAll (r : EpochRec) (us : List Nat) : EpochRec :=
  { r with seen := r.seen ++ us.filter (fun k => !r.seen.contains k) }

/-- A reset of one half (R23, R24): its meeting points are withdrawn and the state homed in it is lost; a launch entry of
the other half whose packet goes with it is resolved (R344). -/
def Blk.halfReset (b : Blk) (h : Half) : Blk :=
  let ports := (List.finRange 16).filter (fun k => halfOfPort k.val == h)
  let lanes := (List.range 128).filter (fun l => halfOfLane l == h && (b.lane l).link != .disabled)
  let b1 := (b.setBoot (·.withdraw h)).dropBound h
  let gone := b1.packetsLying h
  let b2 := lanes.foldl (fun b l => b.linkSettle l) b1
  let b3 := ports.foldl Blk.losePort b2
  let b4 := (((b3.loseInsts h).clearHalfMem h).loseThreads h).dropHalfRegs h
  let b5 : Blk := { b4 with
    ctl := { b4.ctl with live := b4.ctl.live.map (·.seenAll (unitsOf h)) },
    pipes := b4.pipes.mapVals {} (fun k p => if halfOfPipe k = h then p.lose else p),
    hog := b4.loseHog h, eth := b4.eth.dropKeys (fun k => decide (halfOfLane k = h)), rmt := b4.loseRmt h,
    dsp := b4.dsp.mapVals {} (fun k d => if inHalf h 4 k then { presence := d.presence } else d),
    keys := { b4.keys with units := b4.keys.units.mapVals {} (fun k u =>
      if inHalf h 16 k && u.st != .fenced then {} else u) },
    hostFrames := b4.hostFrames.dropKeys (fun k => decide (halfOfPort k = h)) }
  gone.foldl (fun b p => b.endLaunch p 0) b5

/-- A reset half returns at the points that the other holds, adopting the epoch then current: configuration from the
surviving half, links as their configuration asks, sequence state under R355, threads from the retained image, whose copy in
the surviving half is verified again (R23, R24). A half whose image does not verify stays withdrawn. -/
def Blk.halfRejoin (b : Blk) (h : Half) : Blk :=
  let mp := b.mp h.other
  if b.boot.state ≠ bsRecovery ∨ b.mp h ≠ 0 ∨ mp = 0 ∨ b.boot.shutOut.contains h.code = true ∨
     (b.boot.image.any (fun x => (b.retainedFault (b.copyLost h.other x) x).isSome)) = true then b
  else
    let b1 := b.setBoot (fun o =>
      let o := if h = .west then { o with mpWest := BitVec.ofNat 3 mp } else { o with mpEast := BitVec.ofNat 3 mp }
      { o with state := o.before })
    let b2 : Blk := { b1 with
      keys := { b1.keys with batches := b1.keys.batches.dropKeys (fun k => halfOfPipe (k / 2097152) == h), sas := b1.keys.sas.mapVals {} (fun k s =>
        if halfOfPipe (k / 32768) = h then s.resume (b1.cfg.sa k).encrypt (b1.cfg.sa k).replayWin.toNat else s) } }
    let b3 := (b2.cfg.ports.filter (fun p => halfOfLane p.1 == h)).foldl (fun b p => b.linkSettle p.1) b2
    match b3.boot.image with
    | some x => (b3.placeImage h x).startHalf h x
    | none => b3

/-! The reset of the device (R22, R461). -/

/-- A host port whose rails go down, or whose pair changes its width mode: its link goes down and comes up by insertion;
AER status stays (R51, R56, R463). -/
def HostPort.linkDown (p : HostPort) : HostPort :=
  { perst := p.perst, removed := p.linkUp || p.removed, rom := true, aer := p.aer, aerF1 := p.aerF1, aerCor := p.aerCor, aerCorF1 := p.aerCorF1 }

/-- A host port over a reset of the device, which does not reach back to step 4 of R85: the link and the configuration
space stay, the CTL and INT blocks and the counters of R64 start again. -/
def HostPort.restarted (p : HostPort) : HostPort := { p.ctlIntReset with discard := 0, unbound := 0 }

/-- The width mode of a port's pair takes a new value at this reset (R51). -/
def Blk.widthChanges (b : Blk) (h : Nat) : Bool :=
  bitOf b.mss.widthNow.toNat (h / 2) != bitOf b.mss.set.width.toNat (h / 2)

/-- The clocks over a reset of the device: they go on (R326); what programs set of the servo is as from start-up (R330). -/
def Clock.deviceReset (c : Clock) : Clock :=
  { on := c.on, mono := c.mono, tb := c.tb, stepCount := c.stepCount, ppsPresent := c.ppsPresent, refPresent := c.refPresent,
    srcSince := c.mono, lastPps := c.lastPps, ppsDue := c.ppsDue, ppsOut := c.ppsOut, ppsRise := c.ppsRise, logOffset := c.logOffset, logMono := c.logMono }

/-- Every slot EMPTY and bound to the device; the alarm, its history and the import key as they are (R461). -/
def Keys.deviceReset (k : Keys) : Keys :=
  { importKey := k.importKey, armed := k.armed, alarm := k.alarm, cause := k.cause, eraseNs := k.eraseNs, alarms := k.alarms,
    unitsLost := k.unitsLost, units := k.units.mapVals {} (fun _ u =>
      if u.st = .fenced then { st := .fenced } else {}) }

/-- A direction of the bridge trained afresh: lanes replaced or retired stay so, no lane is waiting. -/
def BridgeDir.settled (d : BridgeDir) : BridgeDir := { spareLanesUsed := d.spareLanesUsed, retired := d.retired }

/-- The device with all its planes withdrawn: everything in flight is gone with its epoch (R22). With `rails` the host links
stay up, but for pairs that change their width mode. DESIGN CHOICE (log 79): floor_miss, cap_unmet and SPD_MISS are cleared, while
supplies, rates, margins and hot stay. -/
def Blk.withdrawAll (b : Blk) (rails : Bool) : Blk :=
  { clk := b.clk.deviceReset, cores := { cores := b.cores.cores.mapVals {} (fun _ x => x.renewed) },
    spd := { b.spd with
      floorMiss := false, capUnmet := false, capped := false, miss := 0, capW := 0, overSince := none,
      doms := b.spd.doms.mapVals {} (fun _ x => { x with capHeld := false }) },
    brg := { toEast := b.brg.toEast.settled, toWest := b.brg.toWest.settled },
    ports := b.ports.mapVals {} (fun h p => if rails && !b.widthChanges h then p.restarted else p.linkDown), pipes := b.pipes.mapVals {} (fun _ p => p.lose),
    pm := if rails then b.pm.filter (fun e => !b.widthChanges e.1) else [],
    hog := { retiredWest := b.hog.retiredWest, retiredEast := b.hog.retiredEast, nextUid := b.hog.nextUid },
    dsp := b.dsp.mapVals {} (fun _ d => { presence := d.presence }), keys := b.keys.deviceReset,
    mss := { b.mss with
      widthNow := b.mss.set.width, mbx := b.mss.mbx.mapVals {} (fun _ p => if p.st = .busy then { p with st := .reset } else p) },
    boot := { strapBoot := b.boot.strapBoot, strapOwner := b.boot.strapOwner, strapAny := b.boot.strapAny,
              strapJig := b.boot.strapJig, jigFailed := b.boot.jigFailed,
              imagePort := match b.boot.act with
                | some a => BitVec.ofNat 4 a.port
                | none => b.boot.imagePort },
    rel := { sparesUsed := b.rel.sparesUsed, onShadow := b.rel.onShadow, fatalWest := b.rel.fatalWest, fatalEast := b.rel.fatalEast },
    elec := b.elec, out := b.out, fresh := b.fresh }

/-- The image that a reset of the device goes on with: that of an activation in hand, or the one in force (R94, R98); while
it is still being verified again, it stays so. -/
def Blk.retains (b : Blk) : Option Image :=
  ((b.boot.act.map (·.image)).orElse (fun _ => b.boot.image)).orElse (fun _ => b.boot.retained.map (·.1))

/-- A reset of the device: the retained image is verified again, and start-up runs from meeting point 1, or from the download
(R22, R94, R98); with `jig`, by command or by the JIG_EN pin, Jig mode follows (R99). Either half's copy will do. -/
def Blk.deviceReset (b : Blk) (newDownload jig : Bool) : Blk :=
  let b1 := (List.range 16).foldl (fun b h => (b.evalIntx h false).evalIntx h true) (b.withdrawAll b.mss.powered)
  if jig then b1.setBoot (fun o => { o with jig := true })
  else
    match (if newDownload then none else b.retains) with
    | some x => b1.setBoot (fun o => { o with
        state := bsVerifying, retained := some (x, b.retainedFault (b.copyLost .west x && b.copyLost .east x) x) })
    | none => b1

/-- A reset of one half: held while an activation runs (R98); with the other half withdrawn nothing is left to rejoin,
and the device starts again from meeting point 1. -/
def Blk.resetHalf (b : Blk) (h : Half) : Blk :=
  if b.boot.state = bsActivating then b.setBoot (fun o => { o with heldReset := o.heldReset ++ [h.code] })
  else if b.mp h.other = 0 then b.deviceReset false false
  else if b.mp h = 0 then b
  else b.halfReset h

/-- A half that a second half-fatal fault left withdrawn may rejoin after a RESET request (R491). -/
def Blk.shutIn (b : Blk) (h : Half) : Blk := b.setBoot (fun o => { o with shutOut := o.shutOut.filter (· != h.code) })

/-- The activation ends, and with it the hold of half resets (R97, R98). -/
def Blk.activationEnd (b : Blk) : Blk :=
  if (b.boot.act.map (·.phase)) = some 3 then
    let held := b.boot.heldReset
    let b1 := (b.activationFinish).setBoot (fun o => { o with heldReset := [] })
    held.foldl (fun b k => b.resetHalf (Half.ofBit k)) b1
  else b

/-! Power (R45 to R48, R462, R463, R497). -/

/-- The input power is above the cap with every domain at its setpoint (R45, R48). -/
def Speed.over (s : Speed) : Bool :=
  s.capW != 0 && decide (s.capW.toNat < s.inputW.toNat) &&
    (List.range 8).all (fun d => decide ((s.doms.get {} d).supplyMv.toNat ≤ (s.doms.get {} d).setMv))

/-- The time since which the cap is missed, after a change of the power, the cap or a supply. -/
def Speed.settle (s : Speed) (mono : Nat) : Speed :=
  { s with overSince := if s.over then some (s.overSince.getD mono) else none }

/-- Sensors of parts that have no power hold no reading (R466, "SENS[n]"). -/
def Blk.sensOff (b : Blk) : Blk :=
  { b with mss := { b.mss with sens := b.mss.sens.mapVals {} (fun n x => if n < 36 then { x with valid := false, warn := false } else x) } }

/-- Power is removed from both halves and HBM: the image is lost, links go down (R463). -/
def Blk.powerDown (b : Blk) : Blk :=
  let b1 := (b.withdrawAll false).sensOff
  { b1.setBoot (fun o => { o with image := none }) with
    mss := { b1.mss with powered := false },
    spd := { b1.spd with mons := [], hot := false, doms := b1.spd.doms.mapVals {} (fun _ x => { x with supplyMv := 0 }) } }

/-- POWER_OFF, or an alarm source that ends in it (R463, R499): with its record. -/
def Blk.powerOff (b : Blk) : Blk := if b.mss.powered then b.powerDown.reel 0x0010 0 [0] else b

/-- A temperature sensor reads at or above 95 °C (R463). -/
def Blk.tooHot (b : Blk) : Bool :=
  b.mss.sens.any (fun e => e.1 ≤ 36 && e.2.valid && decide (760 ≤ signed 16 e.2.value.toNat))

/-- Start-up from step 3 of R85: rails up, the domains at nominal supply, ROM images built (R47, R65, R463). -/
def Blk.railsUp (b : Blk) : Blk :=
  { b with
    spd := { b.spd with doms := (List.range 8).foldl (fun t d =>
      t.upd {} d (fun x => { x with supplyMv := BitVec.ofNat 12 (Config.nominalMv d) })) b.spd.doms },
    mss := { b.mss with powered := true, widthNow := b.mss.set.width },
    clk := { b.clk with on := true },
    ports := (List.range 16).foldl (fun t k => t.upd {} k (fun p => { p with rom := true })) b.ports }

/-- POWER_ON: the reason, or the block (R463). -/
def Blk.powerOn (b : Blk) : Except Nat Blk :=
  if b.mss.powered then .error 0x0501
  else if b.tooHot then .error 0x0501
  else
    let b1 := { b with
      mss := { b.mss with sens := b.mss.sens.mapVals {} (fun _ x => { x with trip := false }) },
      elec := { b.elec with thermTrip := false } }
    .ok ((b1.railsUp).reel 0x0010 0 [1])

/-- What outlasts a loss of VIN: MRAM, with its settings, Reel and firmware banks (R85, R473, R485, R497). -/
def Blk.cold (b : Blk) : Blk :=
  { mss := { set := b.mss.set, reel := b.mss.reel, meshOpen := b.mss.meshOpen,
             fw := { validA := b.mss.fw.validA, validB := b.mss.fw.validB, versionA := b.mss.fw.versionA,
                     versionB := b.mss.fw.versionB, secA := b.mss.fw.secA, secB := b.mss.fw.secB, active := b.mss.fw.active,
                     minSec := b.mss.fw.minSec, imageMinSec := b.mss.fw.imageMinSec, digest := b.mss.fw.digest } },
    rel := { sparesUsed := b.rel.sparesUsed, onShadow := b.rel.onShadow },
    pipes := b.pipes.mapVals {} (fun _ p => p.lose),
    hog := { retiredWest := b.hog.retiredWest, retiredEast := b.hog.retiredEast },
    keys := { unitsLost := b.keys.unitsLost },
    brg := { toEast := { spareLanesUsed := b.brg.toEast.spareLanesUsed, retired := b.brg.toEast.retired },
             toWest := { spareLanesUsed := b.brg.toWest.spareLanesUsed, retired := b.brg.toWest.retired } },
    cores := { cores := b.cores.cores.mapVals {} (fun _ x => x.renewed) },
    boot := { jigFailed := b.boot.jigFailed }, elec := { refLost := b.elec.refLost }, out := b.out, fresh := b.fresh }

end Sys2Proof.Machine
end

