-- ==== Sys2Proof/Machine/CtlDyn.lean ====
section
/-! DEFINITION. What a commit does beside the configuration: the effects of the control instructions on queues, objects
and units at step 3 of R139 (R158 to R185), and the drains of step 5 (R140). -/

namespace Sys2Proof.Machine
open Sys2Proof

/-! Ends of work. -/

/-- Every request of a QP that has not become a message completes: the send list, then those posted (R414). -/
def Blk.endQpWaiting (b : Blk) (n status : Nat) : Blk :=
  let list := (b.qp n).sendList.map (fun s => (s.1, s.2.1, s.2.2.1))
  let posted := (b.rmt.posted.filter (fun p => p.qpn == n)).map (fun p => (p.inst, p.wq, p.idx))
  let b1 : Blk := { b with rmt := { b.rmt with posted := b.rmt.posted.filter (fun p => p.qpn != n) } }
  (list ++ posted).foldl (fun b r => b.endRequest r status) b1

/-- Requests posted against a counter complete (R160, R414). -/
def Blk.endPosted (b : Blk) (k status : Nat) : Blk :=
  let gone := b.rmt.posted.filter (fun p => p.counter == k)
  let b1 : Blk := { b with rmt := { b.rmt with posted := b.rmt.posted.filter (fun p => p.counter != k) } }
  gone.foldl (fun b p => b.reqDone p.inst p.wq p.idx status) b1

/-- Every entry of a queue that has not finished completes with a status. -/
def Blk.endQueue (b : Blk) (i q status : Nat) : Blk :=
  let kind := ((b.instCfg i).wq i q).kind.toNat
  (b.wq i q).fetched.foldl (fun b e =>
    if e.st ≠ .fetched ∧ e.st ≠ .started then b
    else if kind = kCipher then b.jobEnd i q e.idx (cpUnit e.raw) status 0
    else if kind = kRmtSend then
      match (b.rmt.qps.flatMap (fun x => (x.2.out.filter (fun m => m.inst == i && m.wq == q && m.idx == e.idx)).map (fun m => (x.1, m.msn)))).head? with
      | some (n, msn) => b.endMsg n msn status false
      | none =>
        Blk.endRequest { b with rmt := { b.rmt with posted := b.rmt.posted.filter (fun p => !(p.inst == i && p.wq == q && p.idx == e.idx)) } }
          (i, q, e.idx) status
    else b.finish i q e.idx status (cplOf e q status 0)) b

/-- Receive buffers that an instance still has posted complete: nothing can be delivered to it (R160). -/
def Blk.endBuffers (b : Blk) (i : Nat) : Blk :=
  ((List.range 64).filter (fun q => ((b.instCfg i).wq i q).kind.toNat == kPktRecv ||
      ((b.instCfg i).wq i q).kind.toNat == kRmtRecv)).foldl
    (fun b q => b.endQueue i q 0x0501) b

/-- QPs of an instance. -/
def Blk.qpsOf (b : Blk) (i : Nat) : List Nat := (b.cfg.qps.filter (fun q => q.2.inst == i && q.2.life != .absent)).map (·.1)

/-! Effects by object. -/

/-- DISABLE of an instance at step 3 (R160, R358, R414, R434): jobs and requests that have not started complete with
0x0501, the generation is incremented. -/
def Blk.instDisable (b : Blk) (i : Nat) : Blk :=
  let b1 := b.endJobs 0x0501 (fun k _ => k == i)
  let b2 := (b1.qpsOf i).foldl (fun b n => b.endQpWaiting n 0x0501) b1
  let fresh := b2.wqs.flatMap (fun x =>
    if x.1 / 64 = i ∧ (b2.cfg.wq i (x.1 % 64)).kind.toNat = kRmtSend then
      (x.2.fetched.filter (fun e => e.st == .fetched)).map (fun e => (i, x.1 % 64, e.idx))
    else [])
  (fresh.foldl (fun b r => b.endRequest r 0x0501) b2).genUp i

/-- DESTROY of an instance at step 3 (R155, R160, R174): an ENABLED one is disabled first; its slots are erased, logging is
off, its device memory leaves. Its queues and queue pairs stay while its work drains, under the configuration it had. -/
def Blk.instDestroy (b : Blk) (i ep : Nat) : Blk :=
  let slots := (b.cfg.bindings.filter (fun y => y.2 == some i)).map (·.1)
  let trigs := (b.cfg.trigs.filter (fun t => t.2.inst == i && t.2.life != .absent)).map (·.1)
  let b1 := if (b.cfg.inst i).life = .enabled then b.instDisable i else b.genUp i
  let b2 := slots.foldl Blk.eraseSlot ((trigs.foldl (fun b k => (b.endPosted k 0x0402).updTrig k (fun _ => {})) b1).giveBlocks i 0 ep)
  let b3 := b2.updInst i (fun d => { d with dirty := { d.dirty with on := false } })
  { b3 with ctl := { b3.ctl with dying := b3.ctl.dying.filter (fun d => d.1 != i) ++ [(i, b3.cfg)] } }

/-- A destroyed instance whose work has drained is gone with its queues, entries still there complete first; the generation stays with the number (R160, R434). -/
def Blk.instGone (b : Blk) (i : Nat) : Blk :=
  (((List.range 64).foldl (fun b q => b.endQueue i q 0x0501) b).loseWork i).instForgotten i

/-- What is left of a destroyed instance of the number goes where a new one is created. -/
def Blk.numberFree (b : Blk) (o : Obj) : Blk :=
  match o with
  | .inst i => if b.ctl.dying.any (fun d => d.1 == i) then b.instGone i else b
  | _ => b

/-- ENABLE of a QP (R397): messages that an earlier DISABLE still drains end first. -/
def Blk.qpEnable (b : Blk) (n : Nat) : Blk :=
  let c := b.cfg.qp n
  let b1 := ((b.qp n).out.map (·.msn)).foldl (fun b m => b.endMsg n m 0x0501 false) b
  let b2 := ((b1.qp n).trackers.map (·.msn)).foldl (fun b m => b.abandon n m) b1
  b2.updQp n (fun q => q.atEnable ((c.conn.map (·.paths)).getD 0) (ccProf (tuneOf c.tune).ccProfile).init)

/-- What leaves with a port that is disabled or destroyed: its queued cells and its learned entries (R160, R304). -/
def Blk.portGone (b : Blk) (l : Nat) : Blk :=
  (b.dropQueued l).updLearn (pipeOfLane l) (fun u => { u with flOwn := if u.flOwn.contains l then u.flOwn else u.flOwn ++ [l] })

/-- Windows in drain gain one. -/
def Blk.winDrains (b : Blk) (k : Nat) : Blk :=
  if b.rmt.winDraining.contains k then b else { b with rmt := { b.rmt with winDraining := b.rmt.winDraining ++ [k] } }

/-- What an ENABLE does beside the state of its object. -/
def Blk.objEnable (b : Blk) (o : Obj) : Blk :=
  match o with
  | .qp _ n => b.qpEnable n
  | .trig _ k => (b.updTrig k (fun t => { t with value := (b.cfg.trig k).initial.toNat })).fire k
  | .port l => b.linkSettle l
  | .inst _ | .wq _ _ | .cq _ _ | .eq _ _ | .win _ _ | .sa _ => b

/-- What a DISABLE does before the state changes. -/
def Blk.objDisable (b : Blk) (o : Obj) : Blk :=
  match o with
  | .inst i => b.instDisable i
  | .qp _ n => (b.endQpWaiting n 0x0501).updQp n (fun q => { q with draining := true })
  | .win i w => b.winDrains (i * 65536 + w)
  | .port l => b.portGone l
  | .wq _ _ | .cq _ _ | .eq _ _ | .trig _ _ | .sa _ => b

/-- What a DESTROY does before the object goes. -/
def Blk.objDestroy (b : Blk) (o : Obj) (ep : Nat) : Blk :=
  match o with
  | .inst i => b.instDestroy i ep
  | .wq i q => (b.endQueue i q 0x0501).updWq i q (fun _ => {})
  | .cq i q => b.updCq i q (fun _ => {})
  | .eq i k => b.updEq i k (fun _ => {})
  | .qp _ _ => b.objDisable o
  | .win i w => b.winDrains (i * 65536 + w)
  | .trig _ k => (b.endPosted k 0x0402).updTrig k (fun _ => {})
  | .port l => b.portGone l
  | .sa k => b.updSa k (fun _ => {})

/-- What follows once the configuration of a port has changed. -/
def Blk.portAfter (b : Blk) (o : Obj) : Blk :=
  match o with
  | .port l => b.linkSettle l
  | _ => b

/-- INST.DIRTY_LOG at step 3 (R182, R449): a ring starts at index 0; records of earlier writes stay due. -/
def Dirty.switch (d : Dirty) (on : Bool) (log2 base mirror : Nat) : Dirty :=
  if on then
    { d with on := true, log2 := BitVec.ofNat 5 log2, base := base, mirror := mirror, pi := 0, ci := 0, held := false }
  else { d with on := false }

/-- Effects of one instruction that come before its change of the configuration. `ep` is the epoch being created. -/
def Blk.before (b : Blk) (ep : Nat) (s : Issuer) (x : CInstr) : Blk :=
  let e := x.raw
  match ciOp e with
  | none => b
  | some o =>
    match o with
    | .create | .qCreate => match ciObj o e with
      | some ob => (b.numberFree ob).objNew ob e
      | none => b
    | .disable | .qDisable => match ciObj o e with
      | some ob => b.objDisable ob
      | none => b
    | .destroy | .qDestroy => match ciObj o e with
      | some ob => b.objDestroy ob ep
      | none => b
    | .qReset => b.updWq (ciInst e) (ciId e) Wq.restart
    | .winModify =>
      let w := b.cfg.win (ciInst e) (ciId e)
      if narrows w (w.modify e) then b.winDrains (ciInst e * 65536 + ciId e) else b
    | .keyImport =>
      let k := ent e 16 2
      match (b.importMaterial s x).orElse (fun _ => (b.slot k).next) with
      | some key => b.flip k (ent e 18 1) ep key
      | none => b
    | .keyRetire => if bitOf (ent e 18 1) 0 then b.eraseSlot (ent e 16 2) else b.retireSlot (ent e 16 2) ep
    | .timeStep => b.applyStep (signed 64 (ent e 16 8) * 65536 + (ent e 24 2 : Nat))
    | .timeServo =>
      let c := b.clk.servoSet (ent e 16 1 % 32) (ent e 17 1 % 32) (bitOf (ent e 18 1) 0) (bitOf (ent e 18 1) 1) (ent e 20 4)
        (signed 64 (ent e 24 8))
      { b with clk := c }
    | .timeSource =>
      let c := b.clk.sourceSet (ent e 16 1) (ent e 17 1)
      { b with clk := c }
    | .instResize =>
      match (rzPairs e).find? (fun p => p.1 == 7) with
      | some p => b.resizeBlocks (ciInst16 e) p.2 ep
      | none => b
    | .instAttach =>
      let i := ciInst16 e
      ((b.genUp i).loseWork i |>.freshQueues i).updInst i (fun d => { d with detached := false })
    | .dirtyLog =>
      b.updInst (ciInst16 e) (fun d => { d with
        dirty := d.dirty.switch (bitOf (ent e 18 1) 0) (ent e 19 1 % 32) (ent e 24 8) (ent e 32 8) })
    | .powerCap => { b with spd := ({ b.spd with capW := BitVec.ofNat 16 (ent e 16 2) } : Speed).settle b.mono }
    | .slotControl =>
      b.slotControl (ent e 16 1 % 8) (bitOf (ent e 20 1) 0) (ent e 17 1 % 4) (ent e 18 1 % 4) (ent e 19 1 % 4)
    | .enable | .qEnable | .invalidate | .tblInsert | .tblDelete | .tblModify | .tblQuery | .pipeLoad | .qpConnect | .qpTune
    | .rmtConfig | .keyBind | .poolSet | .query | .summary | .begin_ | .commit | .abort | .fence => b

/-- A failed write that waits for INVALIDATE is tried again (R515). -/
def Blk.xRetry (b : Blk) (i : Nat) : Blk :=
  let b1 : Blk := { b with
    cqs := b.cqs.mapVals {} (fun k c => if k / 64 = i then { c with xfault := false, mfault := false } else c),
    eqs := b.eqs.mapVals {} (fun k q => if k / 8 = i then { q with xfault := false, mfault := false } else q) }
  b1.instRetry i

/-- Effects of one instruction that follow its change of the configuration. -/
def Blk.after (b : Blk) (prior : List CInstr) (x : CInstr) : Blk :=
  let e := x.raw
  match ciOp e with
  | none => b
  | some o =>
    match o with
    | .enable | .qEnable => match ciObj o e with
      | some ob => b.objEnable ob
      | none => b
    | .disable | .destroy => match ciObj o e with
      | some ob => b.portAfter ob
      | none => b
    | .invalidate =>
      (b.invalidate (ciInst e) (bitOf (ent e 24 1) 0) (ent e 32 8) (ent e 40 8)).xRetry (ciInst e)
    | .pipeLoad => match loadedBy prior x with
      | some (ps, _) => ps.foldl (fun b p => b.updPipe p (fun y => { y with undef := false })) b
      | none => b
    | .create | .qCreate | .qDisable | .qDestroy | .qReset | .winModify | .keyImport | .keyRetire | .timeStep | .timeServo => b
    | .tblInsert | .tblDelete | .tblModify =>
      if b.poison.isEmpty then b
      else (ciPipes e).foldl (fun b p => b.setPoison (granules (hbmSlotLoc p (tbTable e) (x.ext.take (tbKeyLen e))) 64) false) b
    | .timeSource | .instResize | .instAttach | .dirtyLog | .powerCap | .slotControl | .tblQuery | .qpConnect | .qpTune | .rmtConfig | .keyBind | .poolSet | .query | .summary | .begin_ | .commit | .abort
    | .fence => b

/-- Queue resets of a program also discard what the queue holds of programs (R133). -/
def Blk.resetProgram (b : Blk) (x : CInstr) : Blk :=
  if ciOp x.raw = some .qReset ∧ ciKind x.raw = oWq ∧ ciId x.raw = 0 then b.dropPrograms (16 + ciInst x.raw) else b

/-- One instruction of a commit: what it does beside the configuration, and its change of it. -/
def Blk.applyInstr (b : Blk) (ep : Nat) (s : Issuer) (prior : List CInstr) (x : CInstr) : Blk :=
  let b1 := b.before ep s x
  let b2 : Blk := { b1 with ctl := { b1.ctl with cfg := b1.cfgApply prior x } }
  (b2.after prior x).resetProgram x

/-- The instructions of a commit in order. -/
def Blk.applyAll (ep : Nat) (s : Issuer) : Blk → List CInstr → List CInstr → Blk
  | b, _, [] => b
  | b, prior, x :: r => Blk.applyAll ep s (b.applyInstr ep s prior x) (prior ++ [x]) r

/-! Drains (R140, R408, R449, R451). -/

/-- What an instruction makes the completion wait for; `b` is the state before it. -/
def Blk.drainOf (b : Blk) (ep : Nat) (x : CInstr) : List Drain :=
  let e := x.raw
  match ciOp e with
  | some .disable | some .destroy =>
    if ciKind e = oQp then [{ before := ep, kind := 1, inst := ciInst e, id := ciId e }]
    else if ciKind e = oWin then [{ before := ep, kind := 2, inst := ciInst e, id := ciId e }]
    else if ciKind e = oInst then [{ before := ep, kind := 3, inst := ciInst e, id := 0 }]
    else []
  | some .winModify =>
    let w := b.cfg.win (ciInst e) (ciId e)
    if narrows w (w.modify e) then [{ before := ep, kind := 2, inst := ciInst e, id := ciId e }] else []
  | some .instResize =>
    if (rzPairs e).any (fun p => p.2 < b.cfg.grant (ciInst16 e) p.1) then [{ before := ep, kind := 4, inst := ciInst16 e, id := 0 }]
    else []
  | some .dirtyLog => if bitOf (ent e 18 1) 0 then [] else [{ before := ep, kind := 5, inst := ciInst16 e, id := 0 }]
  | _ => []

/-- Drains of a program, instruction by instruction. -/
def Blk.drainsOf (ep : Nat) : Blk → List CInstr → List CInstr → List Drain
  | _, _, [] => []
  | b, prior, x :: r =>
    b.drainOf ep x ++ Blk.drainsOf ep { b with ctl := { b.ctl with cfg := b.cfgApply prior x } } (prior ++ [x]) r

/-- READ data that leaves under an epoch before `ep` through a window and queue pair (R383). -/
def Blk.servesBefore (b : Blk) (ep : Nat) (p : Nat → Nat → Bool) : Bool :=
  let old := fun s : Option TxStamp => match s.bind (·.serves) with
    | some (x, w, n) => decide (x < ep) && p w n
    | none => false
  b.allPackets.any (fun q => old q.stamp) || b.hostFrames.any (fun f => f.2.any (fun y => old y.stamp))

/-- Trackers of an instance under an epoch before `ep`. -/
def Blk.trackersBefore (b : Blk) (ep i : Nat) (p : Tracker → Bool) : Bool :=
  b.rmt.qps.any (fun q => q.2.trackers.any (fun t => t.inst == i && decide (t.epoch < ep) && p t))

/-- Completions of messages under an epoch before `ep` that an instance still holds: the messages have not left (R28). -/
def Blk.heldBefore (b : Blk) (ep i : Nat) (p : Nat → Bool) : Bool :=
  b.cqs.any (fun c => c.1 / 64 == i && c.2.held.any (fun h => decide (h.epoch ≠ 0) && decide (h.epoch < ep) && p h.qpn))

/-- Packets of an instance's PKT_SEND entries under an epoch before `ep` that have started and not completed (R160). -/
def Blk.startedBefore (b : Blk) (ep i : Nat) : Bool :=
  b.wqs.any (fun w => w.1 / 64 == i && ((b.instCfg i).wq i (w.1 % 64)).kind.toNat == kPktSend &&
    w.2.fetched.any (fun e => e.st == .started && decide (e.epoch < ep)))

/-- A drain is over. -/
def Blk.drained (b : Blk) (d : Drain) : Bool :=
  if d.kind = 1 then
    !((b.qp d.id).out.any (fun m => decide (m.epoch < d.before)) || (b.qp d.id).trackers.any (fun t => decide (t.epoch < d.before)) ||
      b.servesBefore d.before (fun _ n => n == d.id) || b.heldBefore d.before d.inst (· == d.id))
  else if d.kind = 2 then
    !(b.trackersBefore d.before d.inst (fun t => t.win == some d.id) ||
      b.servesBefore d.before (fun w _ => w == d.inst * 65536 + d.id))
  else if d.kind = 3 then
    !(b.trackersBefore d.before d.inst (fun _ => true) || b.servesBefore d.before (fun w _ => w / 65536 == d.inst) ||
      b.heldBefore d.before d.inst (fun _ => true) || b.startedBefore d.before d.inst ||
      b.rmt.qps.any (fun q => q.2.out.any (fun m => m.inst == d.inst && decide (m.epoch < d.before))) ||
      b.hog.queues.any (fun q => (match q.key with
        | .deliver i _ => i == d.inst
        | .port _ _ => false) && q.pkts.any (fun p => decide (p.epoch < d.before))) ||
      !(b.jobsWhere (fun i x => i == d.inst && decide (x.epoch < d.before))).isEmpty ||
      !(b.inst d.inst).dirty.waiting.isEmpty)
  else if d.kind = 4 then
    !(b.trackersBefore d.before d.inst (fun _ => true) || b.servesBefore d.before (fun w _ => w / 65536 == d.inst))
  else (b.inst d.inst).dirty.waiting.isEmpty

/-- What the end of a drain frees (R160, R414, R451): a QP number, a window, device memory, a destroyed instance; buffers of a
DISABLED instance complete. -/
def Blk.drainEnd (b : Blk) (d : Drain) : Blk :=
  if d.kind = 1 then
    if (b.cfg.qp d.id).life = .absent then b.updQp d.id (fun _ => {}) else b.updQp d.id (fun q => { q with draining := false })
  else if d.kind = 2 then
    { b with rmt := { b.rmt with winDraining := b.rmt.winDraining.filter (· != d.inst * 65536 + d.id) } }
  else if d.kind = 3 then
    (if b.ctl.dying.any (fun x => x.1 == d.inst) then b.instGone d.inst
     else if (b.cfg.inst d.inst).life = .disabled then b.endBuffers d.inst else b).zeroLeft d.inst d.before
  else if d.kind = 4 then b.zeroLeft d.inst d.before
  else b

end Sys2Proof.Machine
end

