-- ==== Sys2Proof/Machine/Summary.lean ====
section
/-! DEFINITION. The state summary record (R147 to R151) and the reduced summary (R466). -/

namespace Sys2Proof.Machine
open Sys2Proof

/-- Scope of a summary (R147). -/
inductive SumScope where
  | device
  | port (h : Nat)
  | inst (i : Nat)
  deriving DecidableEq, Repr

/-- Lifecycle code of an object or queue (R155): 0 absent, 1 CREATED, 2 ENABLED, 3 DISABLED. -/
def lifeCode : Life → Nat
  | .absent => 0
  | .created => 1
  | .enabled => 2
  | .disabled => 3

/-- State of an instance (R433). -/
def Blk.instState (b : Blk) (i : Nat) : Nat :=
  if (b.cfg.inst i).life = .absent then 0 else if (b.inst i).detached then 4 else lifeCode (b.cfg.inst i).life

/-- BOOT_STATE (R89). -/
def Blk.bootState (b : Blk) : Nat :=
  b.boot.state.toNat + b.boot.mpWest.toNat * 16 + b.boot.mpEast.toNat * 256 +
  (if b.boot.image.isSome then 4096 else 0) + (if b.boot.staged.isSome then 8192 else 0) + (if b.boot.jig then 16384 else 0)

/-- An instance lies in a scope. -/
def Blk.inScope (b : Blk) (s : SumScope) (i : Nat) : Bool :=
  match s with
  | .device => true
  | .port h => (b.cfg.inst i).port.toNat == h
  | .inst k => i == k

/-- Instances of a scope, ascending. -/
def Blk.scopeInsts (b : Blk) (s : SumScope) : List Nat :=
  b.cfg.insts.keysWhere (fun i x => x.life != .absent && b.inScope s i)

/-- Host ports whose queues a scope holds. -/
def scopePorts : SumScope → List Nat
  | .device => List.range 16
  | .port h => [h]
  | .inst _ => []

/-- One instance record (R149). -/
def Blk.sumInst (b : Blk) (i : Nat) : List Byte :=
  let d := b.inst i
  let c := b.ctlq (16 + i)
  bytesLE 2 i ++ bytesLE 1 (b.instState i) ++ bytesLE 1 (b.cfg.inst i).port.toNat ++ bytesLE 2 d.gen.toNat ++
  bytesLE 2 ((if d.dirty.on then 1 else 0) + (if c.prog.isSome then 2 else 0)) ++
  bytesLE 2 c.lastRefusal ++ bytesLE 2 c.refusalIndex.toNat ++ bytesLE 4 0

/-- One queue record (R149). -/
def sumQueue (owner type number pi ci state log2 bound errIndex reason : Nat) : List Byte :=
  bytesLE 2 owner ++ bytesLE 1 type ++ bytesLE 1 number ++ bytesLE 2 pi ++ bytesLE 2 ci ++ bytesLE 1 state ++ bytesLE 1 log2 ++
  bytesLE 2 bound ++ bytesLE 2 errIndex ++ bytesLE 2 reason

/-- Record of a WQ. -/
def Blk.sumWq (b : Blk) (r : WqR) (owner number log2 bound : Nat) : List Byte :=
  let q := b.wqOf r
  sumQueue owner 0 number q.pi.toNat q.ci.toNat (b.wqState r + 16 * b.wqKind r) log2 bound q.errIndex.toNat q.errReason.toNat

/-- Record of a CQ. -/
def Blk.sumCq (b : Blk) (r : CqR) (owner number log2 bound : Nat) : List Byte :=
  let q := b.cqOf r
  sumQueue owner 1 number q.pi.toNat q.ci.toNat
    ((if b.cqFull r then 1 else 0) + (if q.armed then 2 else 0) + (if q.ciError then 4 else 0) + (if (q.xfault && !q.held.isEmpty) || q.mirrorHeld then 8 else 0))
    log2 bound 0 0

/-- Record of an EQ. -/
def Blk.sumEq (b : Blk) (r : EqR) (owner number log2 : Nat) : List Byte :=
  let q := b.evq r
  sumQueue owner 2 number q.pi.toNat q.ci.toNat
    ((if q.intEn then 1 else 0) + (if q.ciError then 2 else 0) + (if (q.xfault && !q.held.isEmpty) || q.mirrorHeld then 4 else 0)) log2 (b.eqVector r) 0 0

/-- Records of the queues of an instance. -/
def Blk.sumInstQueues (b : Blk) (i : Nat) : List (List Byte) :=
  ((List.range 64).filter (fun q => (b.cfg.wq i q).life != .absent)).map
    (fun q => b.sumWq (.inst i q) i q (b.cfg.wq i q).log2.toNat (b.cfg.wq i q).cq.toNat) ++
  ((List.range 64).filter (fun q => (b.cfg.cq i q).life != .absent)).map
    (fun q => b.sumCq (.inst i q) i q (b.cfg.cq i q).log2.toNat (b.cfg.cq i q).eq.toNat) ++
  ((List.range 8).filter (fun e => (b.cfg.eq i e).life != .absent)).map
    (fun e => b.sumEq (.inst i e) i e (b.cfg.eq i e).log2.toNat)

/-- Records of the queues of a host port's F0. -/
def Blk.sumPortQueues (b : Blk) (h : Nat) : List (List Byte) :=
  let p := b.port h
  [b.sumWq (.ctl h) (h + 32768) 0 p.ctlWqLog2.toNat 0, b.sumCq (.ctl h) (h + 32768) 0 p.ctlCqLog2.toNat 0,
   b.sumEq (.f0 h) (h + 32768) 0 p.eqLog2.toNat]

/-- Usage left of the current register of a slot (R366). -/
def Slot.remaining (s : Slot) : Nat :=
  match s.cur with
  | some r => if r.limit = 0 then 0 else min ((r.limit - r.counter) * 65536 / r.limit) 65535
  | none => 0

/-- State code of a slot (R149, R364). -/
def slotCode : SlotSt → Nat
  | .empty => 0
  | .active => 1
  | .exhausted => 2
  | .erased => 3

/-- One key-slot record (R149). -/
def Blk.sumSlot (b : Blk) (k : Nat) : List Byte :=
  let s := b.slot k
  bytesLE 2 k ++ bytesLE 1 (slotCode s.st + (if s.next.isSome then 16 else 0)) ++ bytesLE 1 s.alg.toNat ++
  bytesLE 2 (slotOwner (b.cfg.binding k)) ++ bytesLE 2 s.remaining

/-- Key slots of a scope that are not EMPTY, ascending. -/
def Blk.scopeSlots (b : Blk) (s : SumScope) : List Nat :=
  b.keys.slots.keysWhere (fun k x => x.st != .empty &&
    match s, b.cfg.binding k with
    | .device, _ => true
    | _, some i => b.inScope s i
    | _, none => false)

/-- One error record (R149). -/
def ErrRec.bytes (e : ErrRec) : List Byte :=
  bytesLE 2 e.type ++ bytesLE 2 e.reason ++ bytesLE 2 e.index ++ bytesLE 2 e.port ++ bytesLE 8 e.mono ++ bytesLE 8 e.epoch ++
  bytesLE 8 e.detail

/-- Error records of a scope (R147). -/
def Blk.scopeErrs (b : Blk) : SumScope → List ErrRec
  | .device => b.ctl.errs
  | .port h => b.ctl.errs.filter (fun e => e.port == h)
  | .inst _ => []

/-- One section descriptor (R149). -/
def sumSection (type size count offset : Nat) : List Byte := bytesLE 2 type ++ bytesLE 2 size ++ bytesLE 4 count ++ bytesLE 8 offset

/-- The header of a summary (R149): lengths of its sections in records, whether errors were truncated, bytes written. -/
def Blk.sumHeader (b : Blk) (s : SumScope) (ni nq nk ne : Nat) (trunc : Bool) (length required : Nat) : List Byte :=
  let live := b.ctl.live.map (·.num)
  let code := match s with
    | .device => (0, 0)
    | .port h => (1, h)
    | .inst i => (2, i)
  let img := b.boot.image
  let oi := 512
  let oq := oi + 16 * ni
  let ok := oq + 16 * nq
  let oe := ok + 8 * nk
  [0x45, 0x4C, 0x46, 0x53, 0x55, 0x4D] ++ bytesLE 2 0x0100 ++ bytesLE 4 length ++ bytesLE 4 required ++
  bytesLE 1 code.1 ++ bytesLE 1 (if trunc then 1 else 0) ++ bytesLE 2 code.2 ++ bytesLE 4 0 ++
  bytesLE 8 b.mono ++ bytesLE 8 b.mono ++ bytesLE 8 b.ctl.newest ++
  (List.range 4).flatMap (fun k => bytesLE 8 (live.getD k 0)) ++
  bytesLE 8 ((img.map (·.version)).getD 0) ++ bytesLE 4 ((img.map (·.secVersion)).getD 0) ++ bytesLE 4 b.bootState ++
  bytesLE 8 (if b.mss.fw.running then b.mss.fw.versionB else b.mss.fw.versionA) ++ bytesLE 1 (if b.mss.fw.running then 1 else 0) ++
  bytesLE 7 0 ++ slice ((img.map (·.digest)).getD []) 0 32 ++
  bytesLE 6 b.tbSec ++ bytesLE 2 0 ++ bytesLE 4 (b.clk.tb / 65536 % 1000000000) ++ bytesLE 2 (b.clk.tb % 65536) ++
  bytesLE 1 b.clk.stepCount.toNat ++ bytesLE 1 (servoCode b.clk.servo) ++ List.replicate 96 0 ++
  sumSection 1 16 ni oi ++ sumSection 2 16 nq oq ++ sumSection 3 8 nk ok ++ sumSection 4 32 ne oe ++ List.replicate 192 0

/-- Error records that a summary holds: the 4,096 newest, oldest first (R147). -/
def newest4096 (l : List ErrRec) : List ErrRec := l.drop (l.length - 4096)

/-- The whole record of a scope; `reduced` gives QUEUES and KEYSLOTS count 0 (R149, R466). -/
def Blk.summary (b : Blk) (s : SumScope) (reduced : Bool) : List Byte :=
  let insts := (b.scopeInsts s).map b.sumInst
  let queues := if reduced then [] else (b.scopeInsts s).flatMap b.sumInstQueues ++ (scopePorts s).flatMap b.sumPortQueues
  let slots := if reduced then [] else (b.scopeSlots s).map b.sumSlot
  let errs := b.scopeErrs s
  let body := insts.flatten ++ queues.flatten ++ slots.flatten ++ ((newest4096 errs).map ErrRec.bytes).flatten
  b.sumHeader s insts.length queues.length slots.length (newest4096 errs).length (decide (4096 < errs.length))
    (512 + body.length) (512 + body.length) ++ body

/-- The header alone, written where the buffer is too small (R150). -/
def Blk.summaryHeader (b : Blk) (s : SumScope) : List Byte :=
  let n := (b.summary s false).length
  let insts := (b.scopeInsts s).length
  let queues := ((b.scopeInsts s).flatMap b.sumInstQueues ++ (scopePorts s).flatMap b.sumPortQueues).length
  let errs := b.scopeErrs s
  b.sumHeader s insts queues (b.scopeSlots s).length (newest4096 errs).length (decide (4096 < errs.length)) 512 n

end Sys2Proof.Machine
end

