-- ==== Sys2Proof/Machine/CtlQuery.lean ====
section
/-! DEFINITION. The records of QUERY and TBL.QUERY (R135, R165, R186, R289, R305, R319, R356, R415, R452). The block
handed to these functions has the configuration that the query reads (R134). -/

namespace Sys2Proof.Machine
open Sys2Proof

/-- Bytes brought to a length with zeros. -/
def padTo (n : Nat) (l : List Byte) : List Byte := slice l 0 n

/-- An output record: header of R135, body filled with zeros to `len`. -/
def outRecord (type len seq tag : Nat) (body : List Byte) : List Byte :=
  bytesLE 2 type ++ bytesLE 2 len ++ bytesLE 2 seq ++ bytesLE 2 0 ++ bytesLE 8 tag ++ padTo (len - 16) body

/-- A one-bit field. -/
def flag (v : Bool) (k : Nat) : Nat := if v then 2 ^ k else 0

/-- Units of a resource that an instance has in use: as CREATE counts them, the device-memory bushels that its ENABLED
devmem windows reach, translations cached, units held (R450 to R452). -/
def Blk.unitsUsed (b : Blk) (i code : Nat) : Nat :=
  if code = 7 then
    ((List.range (b.inst i).blocks.length).filter (fun k => b.cfg.wins.any (fun w =>
      w.1 / 65536 == i && w.2.life == .enabled && w.2.devmem &&
        decide (w.2.base < (k + 1) * 2097152 ∧ k * 2097152 < w.2.base + w.2.length)))).length
  else if code = 8 then held (b.insts.cache (b.homeOf i)) i
  else if code = 9 then b.locksHeld i
  else b.cfg.used i code

/-- INSTANCE and GRANTS records (R452). -/
def Blk.recInst (b : Blk) (seq tag i next : Nat) : List (List Byte) :=
  let c := b.cfg.inst i
  let d := b.inst i
  [outRecord 1 80 seq tag
    (bytesLE 2 i ++ bytesLE 1 (b.instState i) ++ bytesLE 1 c.port.toNat ++ bytesLE 2 d.gen.toNat ++
     bytesLE 2 (flag c.pasidEn 0 + flag d.dirty.on 1 + flag d.dirty.held 2 + flag d.dirty.ciError 3 + flag d.dirty.lost 4) ++
     bytesLE 4 c.pasid.toNat ++ bytesLE 4 0 ++ bytesLE 8 c.root.toNat ++ bytesLE 8 d.stale ++ bytesLE 8 d.xfaults ++
     bytesLE 8 d.dirtyRecords ++ bytesLE 8 next),
   outRecord 10 96 seq tag
    (bytesLE 8 i ++ (List.range 9).flatMap (fun k => bytesLE 4 (b.cfg.grant i (k + 1)) ++ bytesLE 4 (b.unitsUsed i (k + 1))))]

/-- A QUEUE record: the queue record of the state summary (R149). -/
def recQueue (seq tag : Nat) (body : List Byte) : List (List Byte) := [outRecord 2 32 seq tag body]

/-- Code of a path in a QP record: 0 unused, 1 HEALTHY, 2 SUSPECT, 3 FAILED (R415). -/
def pathCode (q : Qp) (n p : Nat) : Nat :=
  if n ≤ p then 0
  else
    match (q.path p).st with
    | .healthy => 1
    | .suspect => 2
    | .failed => 3

/-- A QP record (R415). -/
def Blk.recQp (b : Blk) (seq tag n next : Nat) : List (List Byte) :=
  let c := b.cfg.qp n
  let q := b.qp n
  let paths := (c.conn.map (·.paths)).getD 0
  [outRecord 3 128 seq tag
    (bytesLE 3 n ++ bytesLE 1 (lifeCode c.life + flag q.draining 2 + flag q.stopped 3 + flag c.conn.isSome 4) ++
     bytesLE 2 c.inst ++ bytesLE 1 c.sendCq.toNat ++ bytesLE 1 c.recvCq.toNat ++ bytesLE 1 c.recvWq.toNat ++ bytesLE 1 paths ++
     bytesLE 2 c.maxOut ++ bytesLE 4 q.nextMsn ++ bytesLE 4 q.head ++ bytesLE 2 q.live.length ++ bytesLE 2 q.trackers.length ++
     bytesLE 16 ((List.range 64).foldl (fun a p => a + pathCode q paths p * 4 ^ p) 0) ++
     bytesLE 8 q.sent ++ bytesLE 8 q.received ++ bytesLE 8 q.retx ++ bytesLE 8 q.nakRx ++ bytesLE 8 q.dup ++ bytesLE 8 q.abandoned ++
     bytesLE 8 next)]

/-- A WINDOW record (R415). -/
def Blk.recWin (b : Blk) (seq tag i w next : Nat) : List (List Byte) :=
  let c := b.cfg.win i w
  [outRecord 4 64 seq tag
    (bytesLE 2 w ++ bytesLE 2 i ++ bytesLE 1 (lifeCode c.life + flag (b.rmt.winDraining.contains (i * 65536 + w)) 2) ++
     bytesLE 1 (c.access.toNat + flag c.devmem 3) ++ bytesLE 2 0 ++ bytesLE 8 c.base ++ bytesLE 8 c.length ++ bytesLE 4 c.key.toNat ++
     bytesLE 4 c.qpn ++ bytesLE 8 (b.rmt.winAdmitted.get 0 (i * 65536 + w)) ++ bytesLE 8 next)]

/-- A TRIGGER record (R415). -/
def Blk.recTrig (b : Blk) (seq tag k next : Nat) : List (List Byte) :=
  let c := b.cfg.trig k
  let t := b.trig k
  [outRecord 5 64 seq tag
    (bytesLE 2 k ++ bytesLE 2 c.inst ++ bytesLE 1 (lifeCode c.life) ++ bytesLE 3 c.homeQpn ++ bytesLE 4 t.value ++
     bytesLE 4 c.initial.toNat ++ bytesLE 4 (b.rmt.posted.filter (fun p => p.counter == k)).length ++ bytesLE 4 0 ++
     bytesLE 8 t.increments ++ bytesLE 8 t.discarded ++ bytesLE 8 next)]

/-- A PORT record (R319). -/
def Blk.recPort (b : Blk) (seq tag l : Nat) : List (List Byte) :=
  let c := b.cfg.port l
  let x := b.lane l
  [outRecord 6 192 seq tag
    (bytesLE 1 l ++ bytesLE 1 c.lanes ++ bytesLE 1 c.rate.toNat ++ bytesLE 1 c.fec.toNat ++ bytesLE 1 (lifeCode c.life) ++
     bytesLE 1 (linkCode x.link) ++ bytesLE 1 (flag c.macsec 0 + flag c.pfc 1) ++ bytesLE 1 c.pfcMask.toNat ++
     bytesLE 2 c.maxFrame.toNat ++ bytesLE 6 0 ++ (List.range 20).flatMap (fun n => bytesLE 8 (x.counts.get 0 n)))]

/-- An SA record (R356). -/
def Blk.recSa (b : Blk) (seq tag k : Nat) : List (List Byte) :=
  let c := b.cfg.sa k
  let s := b.sa k
  [outRecord 7 96 seq tag
    (bytesLE 4 k ++ bytesLE 1 (flag c.encrypt 0) ++ bytesLE 1 (flag c.esp 0) ++ bytesLE 1 (lifeCode c.life) ++
     bytesLE 1 (c.given.getD 0) ++ bytesLE 2 c.slot ++ bytesLE 1 c.alg.toNat ++ bytesLE 1 c.port.toNat ++ bytesLE 4 c.replayWin.toNat ++
     bytesLE 8 c.sciSpi.toNat ++ bytesLE 8 s.nextPn ++ bytesLE 8 s.packets ++ bytesLE 8 s.bytes ++ bytesLE 8 s.authFail ++
     bytesLE 8 s.replay ++ bytesLE 8 s.keyDrops)]

/-! QUERY (R186). -/

/-- Objects of a kind in a configuration by their key: number, or instance × ids + id. -/
def Cfg.objKeys (c : Cfg) (s : Issuer) (kind : Nat) : List Nat :=
  let dev := s == .owner || s == .mss
  if kind = oInst then c.insts.keysWhere (fun i x => x.life != .absent && c.inScope s i)
  else if kind = oWq then c.wqs.keysWhere (fun k x => x.life != .absent && c.inScope s (k / 64))
  else if kind = oCq then c.cqs.keysWhere (fun k x => x.life != .absent && c.inScope s (k / 64))
  else if kind = oEq then c.eqs.keysWhere (fun k x => x.life != .absent && c.inScope s (k / 8))
  else if kind = oQp then c.qps.keysWhere (fun _ x => x.life != .absent && c.inScope s x.inst)
  else if kind = oWin then c.wins.keysWhere (fun k x => x.life != .absent && c.inScope s (k / 65536))
  else if kind = oTrig then c.trigs.keysWhere (fun _ x => x.life != .absent && c.inScope s x.inst)
  else if kind = oPort then c.ports.keysWhere (fun _ x => x.life != .absent && dev)
  else c.sas.keysWhere (fun _ x => x.life != .absent && dev)

/-- Ids of a kind within one instance; 0 for a kind numbered device-wide. -/
def idsPer (kind : Nat) : Nat := if kind = oWq ∨ kind = oCq then 64 else if kind = oEq then 8 else if kind = oWin then 65536 else 0

/-- Key of the object that an instruction names. -/
def refKey (kind i id : Nat) : Nat := if kind = oInst then i else if idsPer kind = 0 then id else i * idsPer kind + id

/-- Records of the object with a key; `next` is the key of the next object of the scan. -/
def Blk.objRecs (b : Blk) (seq tag kind k : Nat) (next : Option Nat) : List (List Byte) :=
  let c := b.cfg
  let nx := next.getD 0
  if kind = oInst then b.recInst seq tag k nx
  else if kind = oWq then
    recQueue seq tag (b.sumWq (.inst (k / 64) (k % 64)) (k / 64) (k % 64) (c.wq (k / 64) (k % 64)).log2.toNat (c.wq (k / 64) (k % 64)).cq.toNat)
  else if kind = oCq then
    recQueue seq tag (b.sumCq (.inst (k / 64) (k % 64)) (k / 64) (k % 64) (c.cq (k / 64) (k % 64)).log2.toNat (c.cq (k / 64) (k % 64)).eq.toNat)
  else if kind = oEq then recQueue seq tag (b.sumEq (.inst (k / 8) (k % 8)) (k / 8) (k % 8) (c.eq (k / 8) (k % 8)).log2.toNat)
  else if kind = oQp then b.recQp seq tag k nx
  else if kind = oWin then
    -- continued in the record's own instance: behind its last window the scan goes on from the next id
    b.recWin seq tag (k / 65536) (k % 65536) (match next with
      | some n => if n / 65536 = k / 65536 then n % 65536 else k % 65536 + 1
      | none => 0)
  else if kind = oTrig then b.recTrig seq tag k nx
  else if kind = oPort then b.recPort seq tag k
  else b.recSa seq tag k

/-- Records of objects of a scan, each with the key of the one that follows it. -/
def Blk.scanRecs (b : Blk) (seq tag kind : Nat) : Nat → List Nat → List (List Byte)
  | 0, _ => []
  | _, [] => []
  | n + 1, k :: r => b.objRecs seq tag kind k r.head? ++ Blk.scanRecs b seq tag kind n r

/-- The records of a QUERY (R186). -/
def Blk.queryRecs (b : Blk) (s : Issuer) (x : CInstr) : List (List Byte) :=
  let e := x.raw
  let kind := ciKind e
  let at_ := refKey kind (ciInst e) (ciId e)
  if bitOf (ent e 24 1) 0 then
    b.scanRecs x.seq (ciTag e) kind (ent e 26 2) ((b.cfg.objKeys s kind).filter (fun k => decide (at_ ≤ k)))
  else
    match refObj kind (ciInst e) (ciId e) with
    | some o => if b.cfg.life o = .absent then [] else b.objRecs x.seq (ciTag e) kind at_ none
    | none => []

/-! TBL.QUERY (R165, R289, R305). -/

/-- Free bytes for what an entry of undefined tables shows; `uid` keeps those of two entries apart (R293). -/
def Blk.undefBytes (b : Blk) (uid n : Nat) : List Byte :=
  (List.range n).map (fun k => (Config.freeBits (b.fresh + 32 * uid + k / 8)).extractLsb' (k % 8 * 8) 8)

/-- Free values that the entries of the named pipelines may show. -/
def Blk.undefDraws (b : Blk) (ps : List Nat) : Nat :=
  if ps.any (fun p => (b.pipe p).undef) then 32 * ((ps.flatMap (fun p => (b.cfg.entries p).map (·.uid))).foldl max 0 + 1) else 0

/-- The entries of a pipeline as a query finds them: of undefined tables a free value says whether one is there (R293). -/
def Blk.entriesSeen (b : Blk) (p : Nat) : List TblEntry :=
  if (b.pipe p).undef then (b.cfg.entries p).filter (fun x => (Config.freeBits (b.fresh + 32 * x.uid + 31)).getLsbD 0)
  else b.cfg.entries p

/-- A TBL_ENTRY record (R289); that of undefined tables shows free values (R293). -/
def Blk.recEntry (b : Blk) (seq tag p next : Nat) (x : TblEntry) : List Byte :=
  if (b.pipe p).undef then
    outRecord 8 240 seq tag
      (bytesLE 2 x.table ++ bytesLE 1 p ++ bytesLE 1 0 ++ b.undefBytes x.uid 28 ++ bytesLE 8 next ++ (b.undefBytes x.uid 204).drop 28)
  else
  outRecord 8 240 seq tag
    (bytesLE 2 x.table ++ bytesLE 1 p ++ bytesLE 1 0 ++ bytesLE 2 x.action ++ bytesLE 1 x.prefixLen ++ bytesLE 1 0 ++
     bytesLE 4 x.prio ++ bytesLE 4 0 ++ bytesLE 8 ((b.pipe p).entPackets.get 0 x.uid) ++ bytesLE 8 ((b.pipe p).entBytes.get 0 x.uid) ++
     bytesLE 8 next ++ bytesLE 16 x.data.toNat ++ padTo 80 x.key ++ padTo 80 x.mask)

/-- A LEARNED record of a key (R306): what the learning tables of the named pipelines hold of it. -/
def Blk.recLearned (b : Blk) (seq tag key next : Nat) (ps : List Nat) : List (List Byte) :=
  let at_ := fun p => (b.pipe p).learn.entry key
  let mask := fun f : Learned → Bool => ps.foldl (fun a p => a + flag (((at_ p).map f).getD false) p) 0
  if mask (fun _ => true) = 0 then []
  else
    [outRecord 9 64 seq tag
      (bytesLE 2 (key / 2 ^ 48) ++ bytesBE 6 (key % 2 ^ 48) ++ bytesLE 1 (mask (fun _ => true)) ++ bytesLE 1 (mask (·.flapping)) ++
       bytesLE 1 (mask (·.hit)) ++ bytesLE 1 (mask (·.strike)) ++ bytesLE 4 0 ++
       (List.range 8).flatMap (fun p => bytesLE 1 (if ps.contains p then ((at_ p).map (·.port)).getD 0 else 0)) ++ bytesLE 8 next)]

/-- Key value of a static entry (R294). -/
def staticKeyOf (x : TblEntry) : Nat := natBE (slice x.key 0 8) / 4

/-- Records of one key of table 0xFFFF (R305). -/
def Blk.keyRecs (b : Blk) (seq tag key next : Nat) (ps : List Nat) : List (List Byte) :=
  ps.flatMap (fun p => ((b.entriesSeen p).filter (fun x => x.table == 0xFFFF && staticKeyOf x == key)).map (b.recEntry seq tag p next)) ++
  b.recLearned seq tag key next ps

/-- Keys of table 0xFFFF in the named pipelines, static and learned, ascending. -/
def Blk.fdbKeys (b : Blk) (ps : List Nat) : List Nat :=
  ((ps.flatMap (fun p => ((b.entriesSeen p).filter (fun x => x.table == 0xFFFF)).map staticKeyOf ++
    (b.pipe p).learn.entries.map (·.key))).dedup).mergeSort (· ≤ ·)

/-- Records of keys in order, until those of a key would pass `room`; each names the key after it. -/
def Blk.fdbDump (b : Blk) (seq tag : Nat) (ps : List Nat) : Nat → List Nat → List (List Byte)
  | _, [] => []
  | room, k :: r =>
    let l := b.keyRecs seq tag k (if r.isEmpty then 0 else k + 1) ps
    if room < l.length then [] else l ++ Blk.fdbDump b seq tag ps (room - l.length) r

/-- Records of entries of one table, each with the cursor of the next: the entry's number, raised by one. -/
def Blk.entryDump (b : Blk) (seq tag p : Nat) : Nat → List TblEntry → List (List Byte)
  | 0, _ => []
  | _, [] => []
  | n + 1, x :: r => b.recEntry seq tag p ((r.head?.map (fun y => y.uid + 1)).getD 0) x :: Blk.entryDump b seq tag p n r

/-- An entry has the key that the extension data gives. -/
def entryIs (kind keyLen : Nat) (ext : List Byte) (x : TblEntry) : Bool :=
  if kind = 3 then prefixEq x.key (ext.take keyLen) x.prefixLen
  else if kind = 2 then x.key == ext.take keyLen && x.mask == ext.drop keyLen
  else x.key == ext.take keyLen

/-- The records of a TBL.QUERY. -/
def Blk.tblRecs (b : Blk) (x : CInstr) : List (List Byte) :=
  let e := x.raw
  let ps := ciPipes e
  let tag := ciTag e
  let dump := bitOf (ent e 24 1) 0
  let room := ent e 26 2
  if tbTable e = 0xFFFF then
    let keys := b.fdbKeys ps
    if dump then b.fdbDump x.seq tag ps room (keys.filter (fun k => decide (ent e 32 8 ≤ k)))
    else
      let k := natBE (slice x.ext 0 8) / 4
      b.keyRecs x.seq tag k (if keys.any (fun y => decide (k < y)) then k + 1 else 0) ps
  else
    ps.flatMap (fun p =>
      let l := (b.entriesSeen p).filter (fun y => y.table == tbTable e)
      if dump then b.entryDump x.seq tag p room (l.filter (fun y => decide (ent e 32 8 ≤ y.uid + 1)))
      else (l.filter (entryIs (b.cfg.kindOf p (tbTable e)) (tbKeyLen e) x.ext)).map (b.recEntry x.seq tag p 0))

/-- Free values that the records of a query draw (R293). -/
def Blk.recDraws (b : Blk) (x : CInstr) : Nat := if ciOp x.raw = some .tblQuery then b.undefDraws (ciPipes x.raw) else 0

/-- The records of a query of either kind; none of another instruction. -/
def Blk.recsOf (b : Blk) (s : Issuer) (x : CInstr) : List (List Byte) :=
  match ciOp x.raw with
  | some .query => b.queryRecs s x
  | some .tblQuery => b.tblRecs x
  | _ => []

end Sys2Proof.Machine
end

