-- ==== Sys2Proof/Machine/CtlPlane.lean ====
section
/-! DEFINITION. The control plane: how an instruction that a control queue has fetched is handled (R131), the check phase
and the commit (R136, R139), the completion of a program (R135, R143), SUMMARY (R147 to R150), stalls (R133). -/

namespace Sys2Proof.Machine
open Sys2Proof

/-- The work queue of a control queue. -/
def queueOf (k : CqKey) : WqR := wqRefOf k 0

/-- A program ends: its completion is due behind those of earlier programs of its queue (R126). -/
def Blk.ends (b : Blk) (k : CqKey) (e : Ended) : Blk := b.updCtlq k (fun c => { c with ended := c.ended ++ [e] })

/-- The end of a program by refusal or ABORT: nothing of it is in force (R33). -/
def Prog.over (p : Prog) (outcome status bad mono : Nat) (records : List (List Byte)) (sums : List (Nat × List Byte)) : Ended :=
  { idx := p.idx, tag := p.tag, outcome := outcome, status := status, badIndex := bad, epoch := 0, waited := false, waitUs := 0,
    resultAddr := p.resultAddr, resultLen := p.resultLen, records := records, sums := sums, drains := [],
    fenceRetire := false, fenceXlate := false, since := mono, unreported := false }

/-- A program is refused: noted, and its completion is due (R131, R149). -/
def Blk.refuseProg (b : Blk) (k : CqKey) (p : Prog) (reason bad : Nat) (sums : List (Nat × List Byte) := []) : Blk :=
  (b.noteRefusal k reason p.idx p.tag.toNat).ends k (p.over 2 reason bad b.mono [] sums)

/-- An instruction is refused alone (R131). -/
def Blk.refuseAlone (b : Blk) (k : CqKey) (idx : W16) (e : W512) : Blk :=
  b.ends k { idx := idx, tag := BitVec.ofNat 64 (ciTag e), outcome := 2, status := 0x0120, badIndex := 0, epoch := 0,
             waited := false, waitUs := 0, resultAddr := 0, resultLen := 0, records := [], sums := [], drains := [],
             fenceRetire := false, fenceXlate := false, since := b.mono, unreported := false }

/-- The state that staging checks against and queries read: the epoch current at BEGIN with the program's staged changes
(R132, R134, R145). -/
def Blk.stagedView (b : Blk) (p : Prog) : Blk :=
  Blk.stagedAll p.issuer { b with ctl := { b.ctl with cfg := p.beginCfg } } [] p.staged

/-! SUMMARY (R147 to R150, R187). -/

/-- Scope of a SUMMARY: the issuer's own, or the one it names. -/
def sumScope (s : Issuer) (e : W512) : SumScope :=
  let code := ent e 16 1 % 4
  if code = 1 then .port (ent e 18 2)
  else if code = 2 then .inst (ent e 18 2)
  else
    match s with
    | .owner | .mss => .device
    | .portHost h => .port h
    | .tenant i => .inst i

/-- The SUMMARY instructions of a program. -/
def Prog.summaries (p : Prog) : List CInstr := p.staged.filter (fun x => ciOp x.raw == some .summary)

/-- A program with SUMMARY holds something else than queries: seq of its first SUMMARY (R147). -/
def Prog.mixed (p : Prog) : Option Nat :=
  match p.summaries with
  | [] => none
  | x :: _ =>
    if p.staged.all (fun y => match ciOp y.raw with
        | some .query | some .summary | some .tblQuery => true
        | _ => false) then none
    else some x.seq

/-- The first SUMMARY whose buffer is too small (R150). -/
def Blk.sumSmall (b : Blk) (p : Prog) : Option Nat :=
  (p.summaries.find? (fun x => decide (ent x.raw 32 4 < (b.summary (sumScope p.issuer x.raw) false).length))).map (·.seq)

/-- What the summaries of a program write: whole records, or headers alone (R150). The program that captures them is
still open on its queue. -/
def Blk.sumWrites (b : Blk) (k : CqKey) (p : Prog) (headers : Bool) : List (Nat × List Byte) :=
  let v := b.updCtlq k (fun c => { c with prog := some p })
  p.summaries.map (fun x =>
    let s := sumScope p.issuer x.raw
    (ent x.raw 24 8, if headers then v.summaryHeader s else v.summary s false))

/-! Staging. -/

/-- BEGIN opens a program; a fault that it shows makes the program refusing from the start (R130, R131). -/
def Blk.openProg (b : Blk) (k : CqKey) (idx : W16) (e : W512) : Blk :=
  let fault := firstOf [
    chk (ciVersion e == 1) 0x0123, chk (ciSeq e == 0) 0x0122, formFaults e 0, opRanges b [] .begin_ e []]
  let p : Prog := {
    issuer := b.issuerOf k, idx := idx, tag := BitVec.ofNat 64 (ciTag e), resultAddr := BitVec.ofNat 64 (ent e 16 8),
    resultLen := ent e 24 4, expect := if bitOf (ent e 28 1) 0 then some (ent e 32 8) else none, beginEpoch := b.ctl.newest,
    beginCfg := b.cfg, lastSeq := 0, bytes := 64, refused := fault.map (fun r => (r, 0)), staged := [], records := [],
    lastFetch := b.mono }
  b.updCtlq k (fun c => { c with prog := some p })

/-- The open program leaves the queue. -/
def Blk.closeProg (b : Blk) (k : CqKey) : Blk := b.updCtlq k (fun c => { c with prog := none })

/-- An instruction other than BEGIN, COMMIT and ABORT joins the program, or makes it refusing (R131, R132). -/
def Blk.stage (b : Blk) (k : CqKey) (p : Prog) (e : W512) (ext : List Byte) (extRead : Nat) : Blk :=
  let v := b.stagedView p
  let p1 := { p with lastFetch := b.mono }
  let p2 :=
    match stageFaults v p e ext extRead with
    | some r => { p1 with refused := some (r, ciSeq e) }
    | none =>
      let x : CInstr := { seq := ciSeq e, raw := e, ext := ext }
      { p1 with lastSeq := ciSeq e, bytes := p.bytes + stagingBytes e, staged := p.staged ++ [x],
                records := p.records ++ v.recsOf p.issuer x }
  (b.drawn (v.recDraws { seq := ciSeq e, raw := e, ext := ext })).updCtlq k (fun c => { c with prog := some p2 })

/-! The check phase and the commit. -/

/-- The check phase (R136): the first failure, as reason and bad_index. -/
def Blk.checkProg (b : Blk) (k : CqKey) (p : Prog) (seq : Nat) : Option (Nat × Nat) :=
  if ¬ b.boot.enable then some (0x0512, seq)
  else if b.issuerOf k ≠ p.issuer then some (0x0202, seq)
  else if p.expect.isSome ∧ p.expect ≠ some b.ctl.newest then some (0x0450, 0)
  else
    match Blk.checkAll p.issuer p.staged b [] p.staged with
    | some r => some r
    | none => if (loadings p.staged).2.isSome then some (0x0401, seq) else none

/-- Keys unwrapped in the check phase wait for the flip (R170, R364). -/
def Blk.setNext (b : Blk) (p : Prog) : Blk :=
  p.staged.foldl (fun b x =>
    if ciOp x.raw = some .keyImport then b.updSlot (ent x.raw 16 2) (fun s => { s with next := b.importMaterial p.issuer x })
    else b) b

/-- Unwrapped keys of a refused program are gone. -/
def Blk.dropNext (b : Blk) (p : Prog) : Blk :=
  p.staged.foldl (fun b x =>
    if ciOp x.raw = some .keyImport then b.updSlot (ent x.raw 16 2) (fun s => { s with next := none }) else b) b

/-- A KEY.IMPORT of the program names a slot whose replaced key still serves a live epoch (R171). -/
def Blk.keyWaits (b : Blk) (p : Prog) : Bool :=
  p.staged.any (fun x => ciOp x.raw == some .keyImport && (b.slot (ent x.raw 16 2)).old.isSome)

/-- The commit has to wait for the oldest live epoch (R29), or for a replaced key (R171). -/
def Blk.mustWait (b : Blk) (p : Prog) : Bool := decide (4 ≤ b.ctl.live.length) || b.keyWaits p

/-- Half of a control queue: of its host port, of its instance; of the MSS's queue, that of the owner host's port (DESIGN
CHOICE, log 108). -/
def Blk.keyHalf (b : Blk) (k : CqKey) : Half :=
  if k < 16 then halfOfPort k else if k = mssKey then halfOfPort b.ownerPort else b.homeOf (k - 16)

/-- The record of a new epoch, committed in half `src`: halves that are withdrawn count as holding it (R23). -/
def Blk.newEpoch (b : Blk) (ep : Nat) (src : Half) : EpochRec :=
  { num := ep, cfg := b.cfg,
    seen := (if b.mp .west = 0 then unitsOf .west else []) ++ (if b.mp .east = 0 then unitsOf .east else []),
    superseded := none, expired := false, src := src }

/-- Epoch `ep` with the present configuration becomes the newest and is live; the one before it is superseded (R139 step
3, R141). -/
def Blk.announce (b : Blk) (ep : Nat) (src : Half) : Blk :=
  { b with ctl := { b.ctl with
      newest := ep,
      live := b.ctl.live.map (fun r => if r.superseded.isNone then { r with superseded := some b.mono } else r) ++
        [b.newEpoch ep src] } }

/-- BOOT_ENABLE has been accepted and the owner host has committed nothing since, be a half withdrawn or not (R20, R23). -/
def Boot.awaits3 (o : Boot) : Bool := o.state == bsEnabled || (o.state == bsRecovery && o.before == bsEnabled)

/-- Meeting point 3: the owner host's first commit after BOOT_ENABLE (R20, R95); a half that is withdrawn then takes it from
the other when it rejoins (R24). -/
def Blk.point3 (b : Blk) (s : Issuer) : Blk :=
  if s = .owner ∧ b.boot.awaits3 = true then
    b.setBoot (fun o => { o with
      state := if o.state = bsEnabled then bsRunning else o.state,
      before := if o.state = bsEnabled then o.before else bsRunning, mpWest := if o.mpWest.getLsbD 1 then o.mpWest ||| 4 else o.mpWest,
      mpEast := if o.mpEast.getLsbD 1 then o.mpEast ||| 4 else o.mpEast })
  else b

/-- A program holds FENCE with a bit set (R130). -/
def Prog.fenceBit (p : Prog) (k : Nat) : Bool := p.staged.any (fun x => ciOp x.raw == some .fence && bitOf (ent x.raw 16 1) k)

/-- A program replaces a translation root (R161). -/
def Prog.newRoot (p : Prog) : Bool := p.staged.any (fun x => ciOp x.raw == some .invalidate && bitOf (ent x.raw 24 1) 1)

/-- The commit of a program (R139 steps 3 to 5). -/
def Blk.commitProg (b : Blk) (l : InLine) (waited : Bool) : Blk :=
  let p := l.prog
  let ep := b.ctl.newest + 1
  let drains := Blk.drainsOf ep b [] p.staged
  let src := b.keyHalf l.queue
  let b1 := ((((Blk.applyAll ep p.issuer b [] p.staged).announce ep src).point3 p.issuer).settleIncs).intxAll
  b1.ends l.queue {
    idx := p.idx, tag := p.tag, outcome := 0, status := 0, badIndex := 0xFFFF, epoch := ep, waited := waited,
    waitUs := if waited then (b.mono - l.since) / 1000 else 0, resultAddr := p.resultAddr, resultLen := p.resultLen,
    records := p.records, sums := l.sums, drains := drains, fenceRetire := p.fenceBit 0 || (p.fenceBit 1 && p.newRoot),
    fenceXlate := p.fenceBit 1, since := b.mono, unreported := l.unreported }

/-- The head of the line: checked, refused, committed, or left waiting; the answer says whether it has left the line. The
state summaries of the program are captured as its check passes (R148). -/
def Blk.lineHead (b : Blk) (l : InLine) : Bool × Blk :=
  let rest : Blk := { b with ctl := { b.ctl with line := b.ctl.line.tail } }
  match l.prog.refused with
  | some (r, bad) =>
    (true, if l.unreported then rest.dropNext l.prog else (rest.dropNext l.prog).refuseProg l.queue l.prog r bad)
  | none =>
    if l.checked then (if b.mustWait l.prog then (false, b) else (true, rest.commitProg l true))
    else
      match b.checkProg l.queue l.prog l.seq with
      | some (r, bad) => (true, rest.refuseProg l.queue l.prog r bad)
      | none =>
        match b.sumSmall l.prog with
        | some bad => (true, rest.refuseProg l.queue l.prog 0x0306 bad (b.sumWrites l.queue l.prog true))
        | none =>
          if l.noWait ∧ 4 ≤ b.ctl.live.length then (true, rest.refuseProg l.queue l.prog 0x0305 l.seq)
          else
            let b1 := b.setNext l.prog
            let l1 := { l with sums := b.sumWrites l.queue l.prog false }
            if b1.mustWait l.prog then
              (false, { b1 with ctl := { b1.ctl with line := { l1 with checked := true, since := b.mono } :: b1.ctl.line.tail } })
            else (true, Blk.commitProg { b1 with ctl := { b1.ctl with line := b1.ctl.line.tail } } l1 false)

/-- Work through the line of commits until one waits; `fuel` bounds their number (R32). -/
def Blk.runLine : Nat → Blk → Blk
  | 0, b => b
  | fuel + 1, b =>
    match b.ctl.line with
    | [] => b
    | l :: _ =>
      let (left, b1) := b.lineHead l
      if left then Blk.runLine fuel b1 else b1

/-- COMMIT of a program that is not refusing (R136, R139). -/
def Blk.commitReq (b : Blk) (k : CqKey) (p : Prog) (e : W512) : Blk :=
  let l : InLine := {
    queue := k, prog := p, seq := ciSeq e, noWait := bitOf (ent e 16 1) 0, checked := false, since := b.mono, unreported := false }
  let b1 : Blk := { b with ctl := { b.ctl with line := b.ctl.line ++ [l] } }
  if b.ctl.line.isEmpty then Blk.runLine 1 b1 else b1

/-- ABORT of a program that is not refusing (R130, R147, R150). -/
def Blk.abortReq (b : Blk) (k : CqKey) (p : Prog) : Blk :=
  match p.mixed with
  | some bad => b.refuseProg k p 0x0406 bad
  | none =>
    match b.sumSmall p with
    | some bad => b.refuseProg k p 0x0306 bad (b.sumWrites k p true)
    | none => b.ends k (p.over 1 0 0xFFFF b.mono p.records (b.sumWrites k p false))

/-- Handle the instruction that a control queue has fetched (R131). -/
def Blk.handle (b : Blk) (k : CqKey) : Blk :=
  match (b.ctlq k).arrived with
  | none => b
  | some (idx, e, ext, extRead) =>
    let b0 := b.updCtlq k (fun c => { c with arrived := none })
    let op := ciOp e
    match (b.ctlq k).prog with
    | none => if op = some .begin_ then b0.openProg k idx e else b0.refuseAlone k idx e
    | some p =>
      match p.refused with
      | some (r, bad) =>
        if op = some .begin_ then ((b0.closeProg k).refuseProg k p r bad).openProg k idx e
        else if op = some .commit ∨ op = some .abort then (b0.closeProg k).refuseProg k p r bad
        else b0.updCtlq k (fun c => { c with prog := some { p with lastFetch := b.mono } })
      | none =>
        if op = some .begin_ then ((b0.closeProg k).refuseProg k p 0x0121 (p.lastSeq + 1)).openProg k idx e
        else if op = some .commit ∨ op = some .abort then
          match stageFaults (b0.stagedView p) p e ext extRead with
          | some r => (b0.closeProg k).refuseProg k p r (ciSeq e)
          | none => if op = some .commit then (b0.closeProg k).commitReq k p e else (b0.closeProg k).abortReq k p
        else b0.stage k p e ext extRead

/-- Handle the fetched instruction of a queue when it is of one opcode; one of no known opcode goes with any. -/
def Blk.arrive (b : Blk) (k : CqKey) (op : COp) : Blk :=
  match (b.ctlq k).arrived with
  | some (_, e, _, _) => if ciOp e = some op ∨ ciOp e = none then b.handle k else b
  | none => b

/-- An instruction arrives with no program open (R131). -/
def Blk.outside (b : Blk) (k : CqKey) : Blk :=
  match (b.ctlq k).arrived with
  | some (_, e, _, _) => if (b.ctlq k).prog.isNone ∧ ciOp e ≠ some .begin_ then b.handle k else b
  | none => b

/-- A COMMIT that waited goes on, and those behind it (R29, R32, R171). -/
def Blk.proceed (b : Blk) : Blk := Blk.runLine b.ctl.line.length b

/-- A program open 10 s with no further instruction (R133): which bad_index it carries is not stated. DESIGN CHOICE (log 112):
one that was refusing already completes with 0x0502 too. -/
def Blk.stalled (b : Blk) (k : CqKey) : Blk :=
  match (b.ctlq k).prog, (b.ctlq k).arrived with
  | some p, none =>
    if b.mono < p.lastFetch + 10000000000 then b
    else (Blk.refuseProg (b.closeProg k) k p 0x0502 (b.freeVal.toNat % 65536)).drawn 1
  | _, _ => b

/-! Completion of a program (R135, R139 steps 4 to 6, R143). -/

/-- The epoch of a committed program is visible everywhere (R27). -/
def Blk.visible (b : Blk) (ep : Nat) : Bool := !b.ctl.live.any (fun r => r.num == ep && !r.everywhere)

/-- Everything that a program's completion waits for has come (R139 steps 4 and 5). -/
def Blk.endReady (b : Blk) (e : Ended) : Bool :=
  e.outcome != 0 ||
  (b.visible e.epoch && e.drains.all b.drained && (!e.fenceRetire || !b.ctl.live.any (fun r => decide (r.num < e.epoch))) &&
   (!e.fenceXlate || !b.insts.walks.any (fun w => !w.cache)))

/-- Records that fit a result buffer, each from a 16-byte boundary: those before the first that does not (R135). -/
def fitting (room : Nat) : List (List Byte) → List (List Byte)
  | [] => []
  | r :: rest => if r.length ≤ room then r :: fitting (room - r.length) rest else []

/-- A write of a control queue to its host's memory (R128, R135): a bus address of F0, an address of the instance, or an
address of the management die. The writer code of a dirty record for it is not stated. -/
def Blk.ctlWrite (b : Blk) (k : CqKey) (a : Nat) (l : List Byte) : Blk :=
  if k < 16 then b.emit (.bus k false a l)
  else if k = mssKey then b.emit (.mssData a l)
  else (b.instWrite (k - 16) (b.freeVal.toNat % 16) a l).drawn 1

/-- After an INSTANCE record of an instance has been written to a result buffer (R439, R452). -/
def Blk.recordRead (b : Blk) (r : List Byte) : Blk :=
  if natLE (slice r 0 2) = 1 then
    b.updInst (natLE (slice r 16 2)) (fun d => { d with
      faultReported := false, dirty := { d.dirty with ciError := false, lost := false } })
  else b

/-- Whether writes of a control queue translate: a failure is counted (R439). -/
def Blk.ctlFault (b : Blk) (k : CqKey) (a : Nat) (ans : Ans) : Option Blk :=
  if k < 16 ∨ k = mssKey then none else (b.writeFault (k - 16) a ans).map (·.2)

/-- Write the output records of a program: how many, and whether the rest did not fit. DESIGN CHOICE (log 112): a result_addr of
0 gives no room, so records are then truncated. -/
def Blk.writeRecords (b : Blk) (k : CqKey) (e : Ended) (res : Ans) : Blk × Nat × Bool :=
  if e.records.isEmpty then (b, 0, false)
  else
    let l := fitting (if e.resultAddr = 0 then 0 else e.resultLen) e.records
    if l.isEmpty then (b, 0, true)
    else
      match b.ctlFault k e.resultAddr.toNat res with
      | some b1 => (b1, 0, true)
      | none => (l.foldl Blk.recordRead (b.ctlWrite k e.resultAddr.toNat l.flatten), l.length, decide (l.length < e.records.length))

/-- Write the state summaries of a program. -/
def Blk.writeSums (b : Blk) (k : CqKey) (e : Ended) (ans : Ans) : Blk :=
  e.sums.foldl (fun b s => match b.ctlFault k s.1 ans with
    | some b1 => b1
    | none => b.ctlWrite k s.1 s.2) b

/-- What a program writes beside its completion can go now: Bus Master Enable of its host's function, and for an instance no
hold of its dirty log (R78, R128, R135, R448). -/
def Blk.ctlWrites (b : Blk) (k : CqKey) (e : Ended) : Bool :=
  e.unreported || (e.records.isEmpty && e.sums.isEmpty) ||
  (if k < 16 then b.canIssue k false else if k = mssKey then b.mss.fw.up else b.instCan (k - 16))

/-- The completion of a program (R143). -/
def Ended.raw (e : Ended) (count : Nat) (trunc : Bool) (epoch drainMs : Nat) : Cpl :=
  BitVec.ofNat 256 (natLE (
    bytesLE 2 e.status ++ bytesLE 1 e.outcome ++ bytesLE 1 (flag (decide (0 < count)) 0 + flag trunc 1 + flag e.waited 2) ++
    bytesLE 2 e.badIndex ++ bytesLE 2 e.idx.toNat ++ bytesLE 8 e.tag.toNat ++ bytesLE 8 epoch ++ bytesLE 4 e.waitUs ++
    bytesLE 2 count ++ bytesLE 2 drainMs))

/-- Time at step 5 of R139 in ms: from the end of step 4 to the moment at which everything had drained. -/
def Ended.drainMs (e : Ended) (mono : Nat) : Nat := min ((e.metAt.getD mono - e.visAt.getD mono) / 1000000) 65535

/-- Note when step 4 of R139 is over for an ended program, and when step 5 is. -/
def Blk.noteEnded (b : Blk) (e : Ended) : Ended :=
  { e with visAt := if e.visAt.isNone && b.visible e.epoch then some b.mono else e.visAt,
           metAt := if e.metAt.isNone && b.endReady e then some b.mono else e.metAt }

/-- The same for every program whose completion is due; it is noted in each nanosecond (R143). -/
def Blk.noteSteps (b : Blk) : Blk :=
  { b with ctl := { b.ctl with queues := b.ctl.queues.mapVals {} (fun _ c => { c with ended := c.ended.map b.noteEnded }) } }

/-- The completion of a queue's oldest ended program (R126, R139 step 6): what drained is freed, records and summaries are
written, then the completion; one that is not reported leaves an error record (R77, R133). -/
def Blk.progComplete (b : Blk) (k : CqKey) (res sum : Ans) : Blk :=
  match (b.ctlq k).ended with
  | [] => b
  | e :: rest =>
    if ¬ b.endReady e ∨ ¬ b.ctlWrites k e then b
    else
      let b1 := e.drains.foldl Blk.drainEnd (b.updCtlq k (fun c => { c with ended := rest }))
      let e := b.noteEnded e
      if e.unreported then b1.errRec 4 e.status e.idx.toNat (if k < 16 then k else 0xFFFF) e.epoch e.tag.toNat
      else
        let (b2, count, trunc) := (b1.writeSums k e sum).writeRecords k e res
        let epoch := if e.outcome = 0 then e.epoch else b.ctl.newest
        (b2.complete (b2.wqCq (queueOf k)) (e.raw count trunc epoch (e.drainMs b.mono))).settleIncs.intxAll

/-- The program of an activation: the MSS queue commits an epoch that binds configuration to the new image (R97, step 4).
While commits wait, or 4 epochs are live, it waits. -/
def Blk.bindImage (b : Blk) : Blk :=
  b.inPhase 2 (fun a =>
    if !b.ctl.line.isEmpty || decide (4 ≤ b.ctl.live.length) then b
    else (b.announce (b.ctl.newest + 1) (b.keyHalf mssKey)).setBoot (fun o => { o with
      image := some a.image, old := o.image.map (fun x => (b.ctl.newest, x)), act := o.act.map (fun x => { x with phase := 3 }) }))

end Sys2Proof.Machine
end

