-- ==== Sys2Proof/Machine/QueueCmds.lean ====
section
/-! DEFINITION. What the queue commands do (chapter 05): writes of a doorbell page and of the CTL and INT blocks by a host,
the fetch of an entry, a held write, and how each reaches the shared operations of the queues. -/

namespace Sys2Proof.Machine
open Sys2Proof

/-- A write by F1 of port `h` to the doorbell page of instance `i`: done, discarded, or answered Unsupported Request
(R59, R61, R81). -/
def Blk.pageWrite (b : Blk) (h i : Nat) (f : Blk → Blk) : Blk :=
  if !b.memOpen h true then b.closedAccess h true true
  else if b.boundTo i h then f b else b.countUnbound h

/-- A write by F0 of port `h` to a block of its BAR0 (R59, R60, R81). -/
def Blk.f0Write (b : Blk) (h : Nat) (f : Blk → Blk) : Blk :=
  if b.memOpen h false then f b else b.closedAccess h false true

/-- DOORBELL (R107): ignored unless the instance is ENABLED (R433), and before meeting point 3 unless it is instance 0
(R21). -/
def Blk.doorbell (b : Blk) (i : Nat) : Blk :=
  if !b.wqGone (.inst i 0) && (i == 0 || b.serving (b.homeOf i)) then b.ring (16 + i) else b

/-- The queue a command names. -/
def qRefWq : QRef → WqR
  | .wq i q => .inst i.val q.val
  | .ctl h => .ctl h.val
  | .mss => .mss

/-- A fetch of this queue's next entry may be issued, the scan settled: its turn has come, and a control queue has handled
the instruction before and has no COMMIT waiting (R108, R126). -/
def Blk.mayFetch (b : Blk) (r : WqR) : Bool :=
  b.nextIs r && b.wqRuns r && !b.wqBusy r

/-- The answer to a read that a queue makes at an address: translated for an instance, as it is for a CTL queue (R436). -/
def Blk.reached (b : Blk) (r : WqR) (a : Nat) (ans : Ans) : Ans :=
  match r with
  | .inst i _ => b.xlated i a ans
  | _ => ans

/-- Address of the entry that a queue reads next. -/
def Blk.entryAddr (b : Blk) (r : WqR) : Nat :=
  match r with
  | .inst i _ => ((b.instCfg i).wq i r.num).base.toNat + (b.wqOf r).ci.toNat % b.wqSize r * 64
  | _ => 0

/-- What a read of extension data gave (R128): the bytes and a staging refusal, 0 for none. -/
def Blk.extRead (b : Blk) (r : WqR) (e : W512) (ext : Ans) : Blk × List Byte × Nat :=
  if !ciExt e then (b, [], 0)
  else
    match b.reached r (ciExtAddr e) ext with
    | .ok l => (b, slice l 0 (min (ciExtLen e) 65536), 0)
    | .busError => (b, [], 0x0523)
    | .xfault c =>
      match r with
      | .inst i _ => (b.xlateFault i (xcode c) (ciExtAddr e), [], dataReason c)
      | _ => (b, [], 0x0523)

/-- A fetched control instruction, with its extension data, waits to be handled; the slot belongs to software again
(R104, R128). -/
def Blk.takeInstr (b : Blk) (r : WqR) (k : CqKey) (raw : W512) (ext : Ans) : Blk :=
  let (b1, l, fault) := b.extRead r raw ext
  let w := b1.wqOf r
  (((b1.updWqOf r (fun w => { w with ci := w.ci + 1 })).updCtlq k (fun c => { c with arrived := some (w.ci, raw, l, fault) })).served
    r.scanKey)

/-- An entry read of a settled scan returns (R108, R110, R111). -/
def Blk.entryRead (b : Blk) (r : WqR) (ans ext : Ans) : Blk :=
  match b.reached r (b.entryAddr r) ans with
  | .busError => b.fetchFailed r r.num 0x0521
  | .xfault c =>
    let b1 := match r with
      | .inst i _ => b.xlateFault i (xcode c) (b.entryAddr r)
      | _ => b
    b1.fetchFailed r r.num (fetchReason c)
  | .ok l =>
    match r.key, r with
    | some k, _ => b.takeInstr r k (entOf (slice l 0 64)) ext
    | none, .inst i q => b.takeEntry i q (entOf (slice l 0 64))
    | none, _ => b

/-- An entry of the MSS queue, which lies on the management die: the MSS hands it over, and its read does not fail. -/
def Blk.mssEntry (b : Blk) (ans ext : Ans) : Blk :=
  let k := mssKey
  match ans with
  | .ok l =>
    if b.wqRuns .mss && !b.wqBusy .mss && b.cqSlotFree .mss then
      (b.updWqOf .mss (fun w => { w with pi := w.pi + 1 })).takeInstr .mss k (entOf (slice l 0 64)) ext
    else b
  | _ => b

/-- Host port over which a work queue is read. -/
def Blk.wqPort (b : Blk) : WqR → Nat
  | .inst i _ => ((b.instCfg i).inst i).port.toNat
  | .ctl k => k
  | .mss => 0

/-- The scan of a queue's owner goes on to its next fetch; where that is of this queue, the entry is read (R108). -/
def Blk.fetchEntry (b : Blk) (r : WqR) (ans ext : Ans) : Blk :=
  if r = .mss then b.mssEntry ans ext
  else
    let b1 := b.settle settleFuel r.scanKey
    if b1.mayFetch r then ((b1.linkAwake (b1.wqPort r)).entryRead r ans ext).settle settleFuel r.scanKey else b1

/-- A queue in CQ_WAIT or BME_OFF whose cause has cleared rejoins a scan (R109). -/
def Blk.resume (b : Blk) (r : WqR) : Blk := if b.canResume r then b.resumeQueue r else b

/-- The fence of the oldest entry of a queue is lifted: every earlier entry has completed (R109). -/
def Blk.fenceStart (b : Blk) (i q : Nat) : Blk :=
  if (b.wq i q).fenceReady then
    match (b.wq i q).fetched.head? with
    | some e => b.updWq i q (fun w => w.updEntry e.idx (fun x => { x with lifted := true }))
    | none => b
  else b

/-- A write of CTL_WQ_CTRL: disabling drops the open program, with no completion (R123, R133). -/
def Blk.ctlWqWrite (b : Blk) (h : Nat) (v : W32) : Blk :=
  let b1 := b.ctlWqCtrl h v
  if (b.port h).ctlWqEn && !v.getLsbD 0 then b1.dropPrograms h else b1

/-- The next write of a CQ, or of its mirror, fails translation (R515): it is held, and the fault is counted. -/
def Blk.cqFaulted (b : Blk) (i q : Nat) (mirror : Bool) (c : XFault) : Blk :=
  let x := (b.instCfg i).cq i q
  let s := b.cq i q
  if x.life = .absent then b
  else if mirror then
    if s.mfault then b
    else (b.updCq i q (fun s => { s with mfault := true })).xlateFault i (xcode c) x.mirror.toNat
  else if s.xfault then b
  else (b.updCq i q (fun s => { s with xfault := true })).xlateFault i (xcode c)
    (x.base.toNat + s.pi.toNat % b.cqSize (.inst i q) * 32)

/-- The same of an EQ. -/
def Blk.eqFaulted (b : Blk) (i e : Nat) (mirror : Bool) (c : XFault) : Blk :=
  let x := (b.instCfg i).eq i e
  let s := b.eq i e
  if x.life = .absent then b
  else if mirror then
    if s.mfault then b
    else (b.updEq i e (fun s => { s with mfault := true })).xlateFault i (xcode c) x.mirror.toNat
  else if s.xfault then b
  else (b.updEq i e (fun s => { s with xfault := true })).xlateFault i (xcode c)
    (x.base.toNat + s.pi.toNat % b.eqSize (.inst i e) * 32)

end Sys2Proof.Machine
end

