-- ==== Sys2Proof/Machine/RelOps.lean ====
section
/-! DEFINITION. Reliability: error counters, ERROR records and UNIT_ERROR events, sparing, fencing, retirement, poison,
half-fatal faults (chapter 21), and the replay and move of cores (R209, R210). -/

namespace Sys2Proof.Machine
open Sys2Proof

/-! Reports (R488, R489). -/

/-- The fields of an ERROR record that its fault gives (R489). -/
structure ErrBody where
  structure_ : Nat
  action : Nat
  unit : Nat
  half : Half := .west
  spareUsed : Bool := false
  uncovered : Bool := false
  predictive : Bool := false
  left : Nat := 0
  sub : Nat := 0
  addr : Nat := 0
  ns : Nat := 0
  merged : Nat := 0

/-- Action codes (R489). -/
def actCorrected : Nat := 1
def actRefetched : Nat := 2
def actReplayed : Nat := 3
def actPoisoned : Nat := 4
def actSpared : Nat := 5
def actFenced : Nat := 6
def actRetired : Nat := 7
def actHalfReset : Nat := 8
def actAlarm : Nat := 9

/-- The 40 body bytes of an ERROR record (R489). -/
def ErrBody.bytes (x : ErrBody) (epoch corr : Nat) : List Byte :=
  bytesLE 1 x.structure_ ++ bytesLE 1 x.action ++ bytesLE 2 x.unit ++
  bytesLE 1 (x.half.code + (if x.spareUsed then 2 else 0) + (if x.uncovered then 4 else 0) + (if x.predictive then 8 else 0)) ++
  bytesLE 1 x.left ++ bytesLE 2 x.sub ++ bytesLE 8 x.addr ++ bytesLE 4 x.ns ++ bytesLE 4 (min x.merged (2 ^ 32 - 1)) ++
  bytesLE 8 epoch ++ bytesLE 8 corr

/-- Who reports a fault of a structure (R468): the management-die hardware, the MSS, or the half. -/
def ErrBody.origin (x : ErrBody) : Nat :=
  if x.structure_ = 0x14 then 0 else if x.structure_ = 0x11 ∨ x.structure_ = 0x12 ∨ x.structure_ = 0x13 then 3 else originOf x.half

/-- An ERROR record, with its UNIT_ERROR event but for corrected errors, and the thread that ERR_ROUTE names (R488). Its
severity is not stated: a free value. -/
def Blk.errorRecord (b : Blk) (x : ErrBody) : Blk :=
  let b1 := (b.reelRaw 0x000C (b.freeVal.toNat % 4) x.origin
    (x.bytes b.ctl.newest (b.rel.corr.get 0 (errKey x.structure_ x.half)))).drawn 1
  let b2 := if x.action = actCorrected then b1
    else b1.mssEvent 0x0031 (x.structure_ + 256 * x.half.code) 0 x.unit (x.action + 256 * (x.sub % 65536) + 2 ^ 24 * x.left)
  if b2.rel.rEnable then b2.unitEvent b2.rel.rThread.toNat b2.rel.rUnit.toNat else b2

/-- A fault beyond the spares: its UNIT_FAILED record for SUMMARY, and the ERROR record with uncovered set (R486). -/
def Blk.uncovered (b : Blk) (x : ErrBody) : Blk :=
  (b.errRec 7 0 x.unit 0xFFFF 0 (x.structure_ + 256 * x.action)).errorRecord { x with uncovered := true, left := 0 }

/-! Spares (R485). -/

/-- Spares of a kind in one pool: cores, inline units, exact banks, ternary banks, Hogshead banks. -/
def spareCount : Nat → Nat
  | 3 => 1
  | _ => 2

/-- Spares of a kind still free in a pool. -/
def Blk.sparesLeft (b : Blk) (kind pool : Nat) : Nat := spareCount kind - b.rel.sparesUsed.get 0 (kind * 16 + pool)

/-- Take a spare; MRAM keeps it. -/
def Blk.useSpare (b : Blk) (kind pool : Nat) : Blk :=
  { b with rel := { b.rel with sparesUsed := b.rel.sparesUsed.upd 0 (kind * 16 + pool) (· + 1) } }

/-- A unit fails for good: a spare takes its place, or the effect `gone` of R486 follows with `action`. -/
def Blk.failUnit (b : Blk) (kind pool : Nat) (x : ErrBody) (action : Nat) (gone : Blk → Blk) : Blk :=
  if 0 < b.sparesLeft kind pool then
    let b1 := b.useSpare kind pool
    b1.errorRecord { x with action := actSpared, spareUsed := true, left := b1.sparesLeft kind pool }
  else (gone b).uncovered { x with action := action }

/-! Cores (R209, R210, R482). -/

/-- Threads of a core. -/
def threadsOf (c : Nat) : List Nat := (List.range 8).map (· + 8 * c)

/-- Half of a core. -/
def halfOfCore (c : Nat) : Half := if c < 32 then .west else .east

/-- A residue mismatch replays the thread's uncommitted instructions (R209); a third within 1 ms, one that recurs, or more
than 100 replays in 1 s declare the core faulty (R210, R482). -/
def Blk.residueReplay (b : Blk) (t path : Nat) (recurs : Bool) (ns : Nat) : Blk :=
  let c := t / 8
  let x := b.core c
  let recent := (x.mismatches.filter (fun m => b.mono < m + 1000000000)) ++ [b.mono]
  let third := decide (3 ≤ (recent.filter (fun m => b.mono < m + 1000000)).length) || recurs
  let worn := decide (100 < recent.length)
  let b1 := (b.updCore c (fun x => { x with
    replays := BitVec.ofNat 32 (sat32 x.replays.toNat 1), lastThread := BitVec.ofNat 3 (t % 8),
    lastPath := BitVec.ofNat 2 path, mismatches := recent,
    moving := if (third || worn) && x.moving = [] then threadsOf c else x.moving,
    predictive := if (third || worn) && x.moving = [] then !third else x.predictive })).pmcCount t 0x0F 1
  (b1.errUncorr 1 (halfOfCore c)).errorRecord
    { structure_ := 1, action := actReplayed, unit := c, half := halfOfCore c, sub := t % 8, ns := ns }

/-- Every thread of a core stops FAULTED with cause RESIDUE (R210, R486); one that stood FAULTED takes the cause too, at the
instruction where it would go on. -/
def Blk.coreDies (b : Blk) (c : Nat) : Blk :=
  (threadsOf c).foldl (fun b t =>
    let x := b.thread t
    b.faultStop t 0x0C 0 (if x.st = .faulted then x.sr.epc else x.pc) 0) b

/-- A thread of a faulty core moves to a spare core and goes on as it stood; with the last the core runs on the spare,
with its records. With no spare left every thread of the core stops (R210, R256, R486). -/
def Blk.spareMove (b : Blk) (t ns : Nat) : Blk :=
  let c := t / 8
  let h := halfOfCore c
  let x := b.core c
  let body : ErrBody := { structure_ := 1, action := actSpared, unit := c, half := h, predictive := x.predictive, ns := ns }
  if ¬ x.moving.contains t then b
  else if ¬ x.claimed ∧ b.sparesLeft 0 h.code = 0 then
    ((b.updCore c (fun x => { x with moving := [], predictive := false })).coreDies c).uncovered { body with action := actRetired }
  else
    let b1 := if x.claimed then b else b.useSpare 0 h.code
    let left := x.moving.filter (· != t)
    if left = [] then
      let b2 := b1.updCore c (fun x => { x with moving := [], claimed := false, predictive := false, spared := true, mismatches := [] })
      (b2.fqRecord h (.core c) (faultRec 3 0 c 0 0 0)).errorRecord
        { body with spareUsed := true, left := b2.sparesLeft 0 h.code }
    else b1.updCore c (fun x => { x with moving := left, claimed := true })

/-! Pipelines. -/

/-- A lane of a pipeline faults: fenced, its packets replayed from the ingress copy; again within 1 s it stays fenced
(R483). -/
def Blk.laneFault (b : Blk) (p lane ns : Nat) : Blk :=
  let k := p * 4 + lane
  let again := b.rel.laneFault.get 0 k ≠ 0 ∧ b.mono + 1 < b.rel.laneFault.get 0 k + 1000000000
  let m := BitVec.ofNat 4 (2 ^ lane)
  let b1 := (b.updPipe p (fun x => { x with
    laneFenced := x.laneFenced ||| m, lanesTesting := if again then x.lanesTesting &&& ~~~m else x.lanesTesting ||| m }))
  let b2 := Blk.laneReplay { b1 with rel := { b1.rel with laneFault := b1.rel.laneFault.put 0 k (b.mono + 1) } } p
  (b2.errUncorr 0x0D (halfOfPipe p)).errorRecord
    { structure_ := 0x0D, action := if again then actFenced else actReplayed, unit := p, half := halfOfPipe p, sub := lane, ns := ns }

/-- The self-test of a fenced lane ends: passed, the lane returns to service (R483). -/
def Blk.laneTested (b : Blk) (p lane : Nat) (ok : Bool) : Blk :=
  let m := BitVec.ofNat 4 (2 ^ lane)
  if (b.pipe p).lanesTesting &&& m = 0 then b
  else if ok then b.updPipe p (fun x => { x with lanesTesting := x.lanesTesting &&& ~~~m, laneFenced := x.laneFenced &&& ~~~m })
  else
    (b.updPipe p (fun x => { x with lanesTesting := x.lanesTesting &&& ~~~m })).errorRecord
      { structure_ := 0x0D, action := actFenced, unit := p, half := halfOfPipe p, sub := lane }

/-- Structure code of a table bank, and its kind of spare. -/
def bankCode (ternary : Bool) : Nat := if ternary then 0x0A else 0x09
def bankKind (ternary : Bool) : Nat := if ternary then 3 else 2

/-- A stage table bank is taken out of service: a spare is assigned and rebuilt from the HBM shadow, or the bank stays on
its shadow (R483, R486). Lookups go on from the shadow under each packet's epoch, so they answer as before (R492). -/
def Blk.bankOut (b : Blk) (p : Nat) (ternary : Bool) (bank : Nat) (predictive : Bool) (ns : Nat) : Blk :=
  let x : ErrBody := { structure_ := bankCode ternary, action := actRetired, unit := p, half := halfOfPipe p, sub := bank,
                       predictive := predictive, ns := ns }
  if b.rel.onShadow.contains (p, ternary, bank) ∨ b.rel.rebuilding.any (fun r => r.pipe == p && r.ternary == ternary && r.bank == bank) then b
  else if 0 < b.sparesLeft (bankKind ternary) p then
    let b1 := b.useSpare (bankKind ternary) p
    { b1 with rel := { b1.rel with rebuilding := b1.rel.rebuilding ++ [{ pipe := p, ternary := ternary, bank := bank, predictive := predictive }] } }
  else
    ({ b with rel := { b.rel with onShadow := b.rel.onShadow ++ [(p, ternary, bank)] } } : Blk).uncovered x

/-- A stage table bank fails (R483). -/
def Blk.bankFault (b : Blk) (p : Nat) (ternary : Bool) (bank ns : Nat) : Blk :=
  (b.errUncorr (bankCode ternary) (halfOfPipe p)).bankOut p ternary bank false ns

/-- The oldest rebuild of a pipeline's bank is done: the spare serves the bank (R483). -/
def Blk.bankRebuilt (b : Blk) (p : Nat) (ternary : Bool) (ns : Nat) : Blk :=
  match b.rel.rebuilding.find? (fun r => r.pipe == p && r.ternary == ternary) with
  | none => b
  | some r =>
    ({ b with rel := { b.rel with rebuilding := b.rel.rebuilding.erase r } } : Blk).errorRecord
      { structure_ := bankCode ternary, action := actSpared, unit := p, half := halfOfPipe p, sub := r.bank, spareUsed := true,
        predictive := r.predictive, left := b.sparesLeft (bankKind ternary) p, ns := ns }

/-- A Hogshead bank is taken out of service: spared, or 8,192 cells are retired (R485, R486). -/
def Blk.hogBankOut (b : Blk) (h : Half) (bank : Nat) (predictive : Bool) (ns : Nat) : Blk :=
  b.failUnit 4 h.code
    { structure_ := 8, action := actRetired, unit := h.code, half := h, sub := bank, predictive := predictive, ns := ns } actRetired
    (fun b => { b with hog := match h with
      | .west => { b.hog with retiredWest := b.hog.retiredWest + 8192 }
      | .east => { b.hog with retiredEast := b.hog.retiredEast + 8192 } })

/-- An inline unit is fenced for good: the batches of invocations it held are lost with it (R365, R486). -/
def Blk.loseUnit (b : Blk) (p u : Nat) : Blk :=
  { b with keys := { b.keys with
      unitsLost := b.keys.unitsLost.upd [] p (fun l => if l.contains u then l else l ++ [u]),
      batches := b.keys.batches.dropKeys (fun k => k / 65536 == 32 * p + u) } }

/-- SAs of a unit that was lost get another home, each the working unit of the pipeline with the fewest SAs, in every live
configuration (DESIGN CHOICE, log 113: R348 homes an SA on a working unit, R486 does not say on which). -/
def Blk.reHome (b : Blk) (p u : Nat) : Blk :=
  let units := b.inlineUnits p
  let move := fun c : Cfg =>
    ((c.sas.filter (fun s => s.1 / 32768 == p && s.2.given == some u)).map (·.1)).foldl
      (fun c k => { c with sas := c.sas.upd {} k (fun s => { s with given := c.emptiest p units }) }) c
  { b with ctl := { b.ctl with cfg := move b.ctl.cfg, live := b.ctl.live.map (fun r => { r with cfg := move r.cfg }) } }

/-- An inline cipher unit faults: its work moves to a spare or to the other working units, or the unit is fenced (R483,
R486). A unit works on a packet within the command that decrypts or encrypts it (R348), so no command finds a packet half
done at a unit: the ingress copies that R30 replays are those that are decrypted anew at their command, and nothing else of
the packet is seen twice. -/
def Blk.inlineFault (b : Blk) (p u ns : Nat) : Blk :=
  if (b.keys.unitsLost.get [] p).contains u then b
  else (b.errUncorr 0x0E (halfOfPipe p)).failUnit 1 p
    { structure_ := 0x0E, action := actFenced, unit := p, half := halfOfPipe p, sub := u, ns := ns } actFenced
    (fun b => (b.loseUnit p u).reHome p u)

/-- A lookaside unit faults (R360, R481). -/
def Blk.lookasideFault (b : Blk) (u ns : Nat) : Blk :=
  ((b.unitFault u).errUncorr 0x0F (halfOfUnit u)).errorRecord
    { structure_ := 0x0F, action := actFenced, unit := u, half := halfOfUnit u, ns := ns }

/-! The bridge (R19, R484, R486). -/

/-- One direction of the bridge. -/
def Blk.bridge (b : Blk) (toEast : Bool) : BridgeDir := if toEast then b.brg.toEast else b.brg.toWest

def Blk.setBridge (b : Blk) (toEast : Bool) (d : BridgeDir) : Blk :=
  { b with brg := if toEast then { b.brg with toEast := d } else { b.brg with toWest := d } }

/-- Half whose transmit side a direction is. -/
def txHalf (toEast : Bool) : Half := if toEast then .west else .east

/-- A bridge lane faults: the retrain holds traffic of every class; a second fault waits for the first (R19, R484). -/
def Blk.bridgeFault (b : Blk) (toEast : Bool) (lane : Nat) : Blk :=
  let d := b.bridge toEast
  (b.setBridge toEast { d with lanes := d.lanes ++ [lane], retrain := some (d.retrain.getD b.mono) }).errUncorr 0x10 (txHalf toEast)

/-- The retrain ends: the lane runs on a spare, or is retired; held traffic goes on (R19, R486). -/
def Blk.bridgeTrained (b : Blk) (toEast : Bool) (ns : Nat) : Blk :=
  let d := b.bridge toEast
  match d.lanes with
  | [] => b
  | l :: rest =>
    let next : Option Nat := if rest = [] then none else some b.mono
    let x : ErrBody := { structure_ := 0x10, action := actSpared, unit := if toEast then 0 else 1, half := txHalf toEast, sub := l, ns := ns }
    if d.spareLanesUsed < 8 then
      (b.setBridge toEast { d with lanes := rest, retrain := next, spareLanesUsed := d.spareLanesUsed + 1 }).errorRecord
        { x with spareUsed := true, left := 7 - d.spareLanesUsed }
    else
      (b.setBridge toEast { d with lanes := rest, retrain := next, retired := d.retired + 1 }).uncovered { x with action := actRetired }

/-! Array errors (R481, R482). -/

/-- Half that the unit of a structure lies in: pipelines by number, others as told. -/
def errHalf (s unit : Nat) (h : Half) : Half :=
  if s = 0x09 ∨ s = 0x0A ∨ s = 0x0C ∨ s = 0x0D ∨ s = 0x0E then halfOfPipe (unit % 8) else if s = 0x08 then Half.ofBit (unit % 2) else h

/-- The structure has errors that are corrected (R481). -/
def correctable (s : Nat) : Bool := [2, 4, 5, 6, 7, 8, 9, 0x0C, 0x10, 0x11, 0x12].contains s

/-- Corrected errors of a bank in the present second of MONO, this one counted. -/
def Blk.bankCount (b : Blk) (k : Nat × Nat × Nat) : Nat :=
  match b.rel.bankErrs.find? (fun e => e.1 = k) with
  | some e => if e.2.1 = b.mono / 1000000000 then e.2.2 + 1 else 1
  | none => 1

/-- A corrected error is counted; the first of its structure and half in each 60 s is recorded, others are merged; a bank
with more than 1,000 in a second is spared (R481, R482, R488). -/
def Blk.corrected (b : Blk) (s : Nat) (h : Half) (unit sub addr : Nat) : Blk :=
  if ¬ correctable s then b
  else
    let h := errHalf s unit h
    let k := errKey s h
    let m : Nat × Nat × Nat := (s, h.code, unit)
    let before := ((b.rel.merged.find? (fun e => e.1 = m)).map (·.2)).getD 0
    let first := b.rel.lastCorr.get 0 k ≠ b.mono / 60000000000 + 1
    let n := b.bankCount (s, unit, sub)
    let b1 := { b with rel := { b.rel with
      corr := b.rel.corr.upd 0 k (fun c => sat64 c 1), lastCorr := b.rel.lastCorr.put 0 k (b.mono / 60000000000 + 1),
      merged := b.rel.merged.filter (fun e => e.1 ≠ m) ++ (if first then [] else [(m, before + 1)]),
      bankErrs := if s = 8 ∨ s = 9 then
          b.rel.bankErrs.filter (fun e => e.1 ≠ (s, unit, sub)) ++ [((s, unit, sub), b.mono / 1000000000, n)]
        else b.rel.bankErrs } }
    let body : ErrBody := { structure_ := s, action := actCorrected, unit := unit, half := h, sub := sub,
                            addr := if 4 ≤ s ∧ s ≤ 7 then addr else 0, merged := before }
    let b2 := if first then b1.errorRecord body else b1
    if n = 1001 then
      (if s = 8 then b2.hogBankOut h sub true 0 else if s = 9 then b2.bankOut (unit % 8) false sub true 0 else b2)
    else b2

/-- Half that an address of HBM lies in. -/
def halfOfAddr (a : Nat) : Half := if hbmEast ≤ a ∧ a < hbmEast + hbmSize then .east else .west

/-- A line that had to be read again, or an entry that goes: counted, with its record. -/
def Blk.refetched (b : Blk) (s : Nat) (h : Half) (unit sub addr ns : Nat) : Blk :=
  (b.errUncorr s h).errorRecord { structure_ := s, action := actRefetched, unit := unit, half := h, sub := sub, addr := addr, ns := ns }

/-- Granules whose data is lost are poisoned (R486). -/
def Blk.poisonAt (b : Blk) (s addr n ns : Nat) : Blk :=
  let h := halfOfAddr addr
  ((b.setPoison (((List.range n).map (· + addr / 8))) true).errUncorr s h).errorRecord
    { structure_ := s, action := actPoisoned, unit := 0, half := h, addr := addr, ns := ns }

/-- A firmware bank of the MSS that MRAM lost is invalid (R481). -/
def MssFw.bankLost (f : MssFw) (bankB : Bool) : MssFw := if bankB then { f with validB := false } else { f with validA := false }

/-- An uncorrectable array error, by structure (R481). -/
def Blk.arrayError (b : Blk) (e : ArrayErr) (ns : Nat) : Blk :=
  match e with
  | .coreRegs t =>
    let h := halfOfThread t.val
    (((b.faultStop t.val 0x0C 0 (b.thread t.val).pc 0).errUncorr 2 h).errorRecord
      { structure_ := 2, action := b.freeVal.toNat % 256, unit := t.val / 8, half := h, sub := t.val % 8, ns := ns }).drawn 1
  | .l1i c a => (b.updCore c.val (fun x => { x with l1i := x.l1i.dropKeys (· == a.toNat / 64) })).refetched 3 (halfOfCore c.val) c.val 0 0 ns
  | .cache llc a n dirty =>
    let s := if llc then 5 else 4
    if dirty then b.poisonAt s a.toNat n.val ns else b.refetched s (halfOfAddr a.toNat) 0 0 a.toNat ns
  | .directory a => b.refetched 6 (halfOfAddr a.toNat) 0 0 a.toNat ns
  | .hbm a n => b.poisonAt 7 a.toNat n.val ns
  | .hogshead h k => (b.errUncorr 8 h).hogBankOut h k.val false ns
  | .exact p k => b.bankFault p.val false k.val ns
  | .ternary p k => b.refetched 0x0A (halfOfPipe p.val) p.val k.val 0 ns
  | .xlate h i va =>
    let drop := fun l : List XEntry => l.filter (fun x => !(x.inst == i.val && decide (x.va ≤ va.toNat ∧ va.toNat < x.va + x.size)))
    let b1 := { b with insts := match h with
      | .west => { b.insts with cacheWest := drop b.insts.cacheWest }
      | .east => { b.insts with cacheEast := drop b.insts.cacheEast } }
    b1.refetched 0x0B h h.code 0 0 ns
  | .learn p k => (b.updLearn p.val (fun x => { x with slots := x.slots.put none k.val none })).refetched 0x0C (halfOfPipe p.val) p.val 0 0 ns
  | .mramSettings => b.refetched 0x12 .west 0 0 0 ns
  | .mramRecord k =>
    ({ b with mss := { b.mss with reel := { b.mss.reel with recs := b.mss.reel.recs.put none k.val none } } } : Blk).refetched 0x12 .west 1 0 0 ns
  | .mramSeal k =>
    ({ b with mss := { b.mss with reel := { b.mss.reel with seals := b.mss.reel.seals.put none k.val none } } } : Blk).refetched 0x12 .west 2 0 0 ns
  | .mramBank x => ({ b with mss := { b.mss with fw := b.mss.fw.bankLost x } } : Blk).refetched 0x12 .west 3 0 0 ns

/-- A scrubber passes over `n` lines of 64 bytes from an address of a half: granules that are poisoned are counted and
stay so (R482, R492). -/
def Blk.scrub (b : Blk) (s : Nat) (addr n : Nat) : Blk :=
  if s = 4 ∨ s = 5 ∨ s = 7 then
    let bad := (b.poison.filter (fun e => e.2 && decide (addr / 64 * 64 ≤ 8 * e.1 ∧ 8 * e.1 < addr / 64 * 64 + 64 * n))).length
    let k := errKey s (halfOfAddr addr)
    { b with rel := { b.rel with uncorr := b.rel.uncorr.put 0 k (sat64 (b.rel.uncorr.get 0 k) bad) } }
  else b

/-! Power phases and half-fatal faults (R481, R491). -/

/-- A half-fatal fault: the half is reset without a request; a second one within an hour leaves it withdrawn until a
RESET (R491). -/
def Blk.halfFatal (b : Blk) (h : Half) (s ns : Nat) : Blk :=
  let last := match h with
    | .west => b.rel.fatalWest
    | .east => b.rel.fatalEast
  let again : Bool := decide (last ≠ 0 ∧ b.mono + 1 < last + 3600000000000)
  let b1 := (b.errUncorr s h).errorRecord { structure_ := s, action := actHalfReset, unit := h.code, half := h, ns := ns, uncovered := true }
  let b2 := { b1 with rel := match h with
    | .west => { b1.rel with fatalWest := b.mono + 1 }
    | .east => { b1.rel with fatalEast := b.mono + 1 } }
  let b3 := if again then b2.setBoot (fun o => { o with shutOut := h.code :: o.shutOut.filter (· != h.code) }) else b2
  (b3.errRec 7 0 h.code 0xFFFF 0 (s + 256 * actHalfReset)).resetHalf h

/-- A power phase of a rail fails and is shed: two per rail are covered, a third leaves the rail short (R481, R485,
R491). -/
def Blk.phaseLoss (b : Blk) (h : Half) (rail phase ns : Nat) : Blk :=
  let k := h.code * 16 + rail
  let n := b.elec.phasesShed.get 0 k
  let b1 := { b with elec := { b.elec with phasesShed := b.elec.phasesShed.put 0 k (n + 1) } }
  if n < 2 then
    (b1.errUncorr 0x13 h).errorRecord { structure_ := 0x13, action := actSpared, unit := rail, half := h, spareUsed := true,
                                         left := 1 - n, sub := phase, ns := ns }
  else b1.halfFatal h 0x13 ns

end Sys2Proof.Machine
end

