-- ==== Sys2Proof/Machine/ElecOps.lean ====
section
/-! DEFINITION. Speed monitors and the adaptive-voltage loop (R43 to R49), sensors and thermal trip (R462, R466, R467),
alarm detectors, VIN and reference clocks (R495 to R499, R505). -/

namespace Sys2Proof.Machine
open Sys2Proof

/-! Speed (R43 to R48). -/

/-- Voltage domain of monitor n (R43). -/
def monDomain (n : Nat) : Nat :=
  let m := n % 48
  4 * (n / 48) + (if m ≤ 16 then 0 else if m ≤ 32 then 1 else if m ≤ 38 then 2 else 3)

/-- Kind code of monitor n (R43). -/
def monKind (n : Nat) : Nat :=
  let m := n % 48
  if m ≤ 16 then 0 else if m ≤ 32 then 1 else if m ≤ 36 then 2 else if m ≤ 38 then 3 else if m ≤ 40 then 4
  else if m ≤ 44 then 5 else if m = 45 then 6 else 7

/-- Floor reading of a kind, in millions of rounds or steps per second (R36, R43). -/
def floorReading (kind : Nat) : Nat :=
  if kind = 0 ∨ kind = 5 then 2000 else if kind = 1 ∨ kind = 4 then 1250 else if kind = 2 ∨ kind = 3 then 1600 else 1000

/-- Monitors of a domain, ascending. -/
def monsOf (d : Nat) : List Nat := (List.range 96).filter (fun n => monDomain n == d)

/-- SPD_STATUS as a number (R45). -/
def Speed.status (s : Speed) : Nat :=
  (if s.floorMiss then 1 else 0) + (if s.capUnmet then 2 else 0) + (if s.capped then 4 else 0) + (if s.hot then 8 else 0)

/-- A monitor reads a rate (R45). -/
def Speed.reading (s : Speed) (mono n rate : Nat) : Speed :=
  { s with mons := s.mons.upd {} n (fun m =>
      let below : Bool := decide (rate < floorReading (monKind n))
      { rate := BitVec.ofNat 16 rate, belowFloor := below, belowSince := if below && !m.belowFloor then mono else m.belowSince }) }

/-- floor_miss or cap_unmet has been set: from 0 the event and the record follow (R46). -/
def Blk.speedNote (b : Blk) (was : Bool) : Blk :=
  if was then b
  else
    ((b.devEvent 0x0010 0 0 (b.spd.status % 4)).reel 4 0 [b.spd.status, b.spd.miss.toNat]).errRec 3 0 0 0xFFFF 0 b.spd.status

/-- Monitor n stays below its floor reading for 10 µs: floor_miss and its bit of SPD_MISS (R45, R46). -/
def Blk.floorMiss (b : Blk) (n : Nat) : Blk :=
  let m := b.spd.mons.get {} n
  if m.belowFloor && decide (m.belowSince + 10000 < b.mono) then
    let was := b.spd.floorMiss
    ({ b with spd := { b.spd with floorMiss := true, miss := b.spd.miss ||| BitVec.ofNat 96 (2 ^ n) } } : Blk).speedNote was
  else b

/-- Margin of a domain in units of 0.1 % (R45, R47). -/
def SpdDom.floorAt (x : SpdDom) (n : Nat) : Nat := floorReading (monKind n) * (1000 + x.margin.toNat)

/-- The slowest monitor of a domain. DESIGN CHOICE (log 109): among monitors with different floor readings, for which R45 does
not say what slowest is, the one with the lowest ratio of rate to floor reading, and the lowest number on a tie. -/
def Speed.slowest (s : Speed) (d : Nat) : Nat :=
  (monsOf d).foldl (fun a n =>
    if (s.mons.get {} n).rate.toNat * floorReading (monKind a) < (s.mons.get {} a).rate.toNat * floorReading (monKind n) then n else a)
    ((monsOf d).headD 0)

/-- The setpoint of a domain in mV: the supply at which its slowest monitor reads floor × (1 + margin). The spec gives no
number: a free value (log 109), at most the present supply where the monitor reads more, above it where it reads less, and
the present supply where it reads just that. -/
def Blk.setpoint (b : Blk) (d : Nat) : Nat :=
  let s := ((b.spd.doms.get {} d).supplyMv).toNat
  let n := b.spd.slowest d
  let r := (b.spd.mons.get {} n).rate.toNat * 1000
  let f := (b.spd.doms.get {} d).floorAt n
  let v := (b.drawn 1).freeVal.toNat % 4096
  if r = f then s else if f < r then v % (s + 1) else s + 1 + v

/-- The input power has stayed above the cap for more than 10 ms with every domain at its setpoint (R45, R48). -/
def Blk.capUnmet (b : Blk) : Blk :=
  match b.spd.overSince with
  | some t =>
    if t + 10000000 < b.mono then
      let was := b.spd.capUnmet
      ({ b with spd := { b.spd with capUnmet := true } } : Blk).speedNote was
    else b
  | none => b

/-- VIN lies in the band in which the input current is held at 110 A, and the current is above (R495). -/
def Blk.currentHeld (b : Blk) : Bool :=
  decide ((b.mss.sens.get {} 37).value.toNat < 9000 ∧ 11000 < (b.mss.sens.get {} 38).value.toNat)

/-- The input power exceeds the cap in force (R48). -/
def Speed.aboveCap (s : Speed) : Bool := s.capW != 0 && decide (s.capW.toNat < s.inputW.toNat)

/-- The supply of a domain after one update of at most 5 mV (R47, R48, R495): raised below the setpoint `p`, up to the
maximum; lowered to meet the cap, never below the setpoint; else toward nominal. Only the input current limit takes it below
the setpoint. How far it moves is free. -/
def Blk.nextSupply (b : Blk) (d p : Nat) : Nat :=
  let s := ((b.spd.doms.get {} d).supplyMv).toNat
  let n := b.freeVal.toNat % 6
  if b.currentHeld then s - n
  else if s < p then max s (min (s + n) (Config.maxMv d))
  else if b.spd.aboveCap then max (s - n) p
  else if s < Config.nominalMv d then min (s + n) (Config.nominalMv d)
  else max (s - n) (max p (Config.nominalMv d))

/-- The loop updates one domain from the readings of its monitors (R45, R47); while the MSS restarts the supply is held
(R471). -/
def Blk.avsUpdate (b : Blk) (d : Nat) (rates : List W16) (inputW : W16) : Blk :=
  if ¬ b.mss.powered ∨ ¬ b.mss.fw.up then b
  else
    let spd1 := ((monsOf d).zip rates).foldl (fun s p => s.reading b.mono p.1 p.2.toNat) { b.spd with inputW := inputW }
    let b1 := { b with spd := spd1 }
    let p := b1.setpoint d
    let v := b1.nextSupply d p
    let doms := spd1.doms.upd ({} : SpdDom) d (fun x => { x with
      supplyMv := BitVec.ofNat 12 v, slowest := BitVec.ofNat 7 (spd1.slowest d), setMv := p,
      capHeld := spd1.capW != 0 && decide (v < Config.nominalMv d) && (x.capHeld || (spd1.aboveCap && !b1.currentHeld)) })
    ({ b1 with spd := ({ spd1 with
      doms := doms, capped := (List.range 8).any (fun k => (doms.get ({} : SpdDom) k).capHeld) } : Speed).settle b.mono } : Blk).drawn 2

/-! Sensors (R466, R467) and the thermal trip (R462). -/

/-- A reading is past the warn level of its sensor. -/
def warnPast (n v : Nat) : Bool :=
  if n ≤ 31 ∨ n = 36 then decide (840 < signed 16 v) else if n ≤ 35 then decide (760 < signed 16 v)
  else if n = 37 then decide (v < 8500) else if n = 38 then decide (11000 < v) else if n = 39 then decide (950 < v) else false

/-- A reading is at or above the trip level of its sensor. -/
def tripAt (n v : Nat) : Bool :=
  if n ≤ 31 then decide (920 ≤ signed 16 v) else if n ≤ 35 then decide (840 ≤ signed 16 v) else false

/-- A sensor reads a value (R466, R467); the sensors of parts without power hold none. Sensor 39 reads the input power that
SPD_POWER shows (R45). -/
def Blk.sensorReads (b : Blk) (n : Nat) (v : W16) : Blk :=
  if n ≤ 35 ∧ ¬ b.mss.powered then b
  else
    let sens := b.mss.sens.upd {} n (fun x =>
      { value := v, valid := true, warn := warnPast n v.toNat, trip := x.trip || tripAt n v.toNat })
    { b with mss := { b.mss with sens := sens },
             spd := ({ b.spd with
               hot := sens.any (fun e => decide (e.1 ≤ 31) && e.2.warn), inputW := if n = 39 then v else b.spd.inputW } : Speed).settle b.mono }

/-- The comparator trips on a reading: alarm, meeting points withdrawn, power removed, records (R462, R499, R508). -/
def Blk.thermalTrip (b : Blk) (n : Nat) (v : W16) : Blk :=
  if tripAt n v.toNat ∧ b.mss.powered then
    let b1 := ((b.sensorReads n v).raiseAlarm 1).powerDown
    (({ b1 with elec := { b1.elec with thermTrip := true } } : Blk).reel 6 3 [n, v.toNat]).reel 0x0010 3 [2]
  else b

/-! Alarm detectors and VIN (R495 to R499). -/

/-- VIN above 63 V: alarm, and power off with a POWER record of code 0 (R499). -/
def Blk.overVoltage (b : Blk) : Blk := (b.raiseAlarm 0).powerOff

/-- The lockout: keys wiped, all power gone, volatile state lost (R497). -/
def Blk.lockout (b : Blk) : Blk := (b.raiseAlarm 0).cold

/-- An uncorrectable error in the key store is latched and raises an alarm (R368, R481). -/
def Blk.storeErrorAlarm (b : Blk) (ns : Nat) : Blk :=
  ((({ b with mss := { b.mss with storeError := true } } : Blk).raiseAlarm 5).errUncorr 0x11 .west).errorRecord
    { structure_ := 0x11, action := actAlarm, unit := 0, ns := ns }

/-! Reference clocks (R505). -/

/-- Number of a reference in the list of those lost. -/
def clkKey : ClkRef → Nat
  | .host h => h.val
  | .eth k => 16 + k.val
  | .dsp h => 32 + h.code

/-- A reference is lost or returns (R505): a host link is removed by surprise; the ports of an Ethernet pair go DOWN and
may come up again when it returns; the downstream synthesiser goes over to the crystal and its links stay up. -/
def Blk.refChange (b : Blk) (r : ClkRef) (lost : Bool) : Blk :=
  let k := clkKey r
  let others := b.elec.refLost.filter (· != k)
  let same : Bool := b.elec.refLost.contains k == lost
  let b1 := { b with elec := { b.elec with refLost := if lost then others ++ [k] else others, refAt := b.elec.refAt.put 0 k b.mono } }
  if same then b else
  match r with
  | .host h => if lost ∧ (b1.port h.val).linkUp ∧ ¬ b1.absent h.val then b1.removal h.val else b1
  | .eth k => ((List.range 32).map (· + 32 * k.val)).foldl (fun b l =>
      if lost then b.linkSettle l
      else if b.linkAllowed l ∧ (b.lane l).link = .down then b.setLink l .negotiating else b) b1
  | .dsp _ => b1

end Sys2Proof.Machine
end

