-- ==== Sys2Proof/Machine/MssOps.lean ====
section
/-! DEFINITION. The management subsystem: transports and authority, requests and responses, settings, resets and power,
the Reel's seals, restart and firmware update, attestation, the import-key exchange, debug (chapter 20). -/

namespace Sys2Proof.Machine
open Sys2Proof

/-! Transports (R454 to R457). -/

/-- Authority of a transport (R454). -/
inductive Rank where
  | portHost (h : Nat)
  | owner
  | platform
  deriving DecidableEq, Repr

/-- Authority that a transport carries (R454). -/
def Blk.rank (b : Blk) : Transport → Rank
  | .mailbox h => if h.val = b.ownerPort then .owner else .portHost h.val
  | .mctpPcie h => if h.val = b.ownerPort then .owner else .portHost h.val
  | _ => .platform

/-- Owner authority, which platform includes. -/
def Rank.owns : Rank → Bool
  | .portHost _ => false
  | _ => true

/-- The state of a transport's endpoint. -/
def Blk.mssPort (b : Blk) : Transport → MssPort
  | .mailbox h => b.mss.mbx.get {} h.val
  | .mctpPcie h => b.mss.mctp.get {} h.val
  | .smbus => b.mss.smbus
  | .i3c => b.mss.smbus
  | .mgmt => b.mss.mgmt

def Blk.updMssPort (b : Blk) (v : Transport) (f : MssPort → MssPort) : Blk :=
  { b with mss := match v with
    | .mailbox h => { b.mss with mbx := b.mss.mbx.upd {} h.val f }
    | .mctpPcie h => { b.mss with mctp := b.mss.mctp.upd {} h.val f }
    | .smbus => { b.mss with smbus := f b.mss.smbus }
    | .i3c => { b.mss with smbus := f b.mss.smbus }
    | .mgmt => { b.mss with mgmt := f b.mss.mgmt } }

/-- Number of a transport in a RESET record: not stated. -/
def viaCode : Transport → Nat
  | .mailbox _ => 0
  | .mctpPcie _ => 1
  | .smbus => 2
  | .i3c => 3
  | .mgmt => 4

/-- The 16 header bytes of a response (R455). -/
def mssHeader (cmd : Nat) (tag : W32) (status length remaining : Nat) : List Byte :=
  bytesLE 2 cmd ++ bytesLE 2 length ++ bytesLE 4 tag.toNat ++ bytesLE 2 status ++ bytesLE 2 0 ++ bytesLE 4 remaining

/-- A response: over a mailbox it fills the response buffer, state DONE, MBX_DONE where asked for; a mailbox whose request
a reset or restart has ended gets none (R455 to R457). -/
def Blk.mssReply (b : Blk) (v : Transport) (cmd : Nat) (tag : W32) (status : Nat) (body : List Byte) : Blk :=
  let now := body.take 4080
  let later := body.drop 4080
  let msg := mssHeader cmd tag status now.length later.length ++ now
  let keep := fun p : MssPort => { p with rest := later, restTag := tag, restCmd := cmd, restStatus := status }
  match v with
  | .mailbox h =>
    if (b.mssPort v).st = .busy then
      let b1 := b.updMssPort v (fun p => { keep p with st := .done, resp := memPut [] 0 msg })
      if (b.mssPort v).doneEv then Blk.raise 3 b1 (.f0 h.val) (b1.ev 0x002F h.val 0 2 0) else b1
    else b
  | _ => (b.updMssPort v keep).emit (.mss v msg)

/-- What the MSS answers from its ROM: MSS_WRITE and MSS_SWITCH over the management port, SMBus and I3C (R87). -/
def romServes (v : Transport) (cmd : Nat) : Bool :=
  (cmd == 0x0050 || cmd == 0x0051) &&
  match v with
  | .mailbox _ | .mctpPcie _ => false
  | _ => true

/-- A request has arrived and can be served: the MSS is up and powered, the transport works, and a mailbox holds exactly
this request (R454, R456, R459). -/
def Blk.mssOpen (b : Blk) (v : Transport) (cmd : Nat) (tag : W32) (body : List Byte) : Bool :=
  b.elec.vin && (b.mss.fw.up || (b.mss.fw.inRom && romServes v cmd)) &&
  match v with
  | .mailbox h =>
    let p := b.mss.mbx.get {} h.val
    p.st == .busy && imgLe p.req 0 2 == cmd && imgLe p.req 4 4 == tag.toNat && imgLe p.req 2 2 == body.length &&
      imgBytes p.req 16 body.length == body
  | .mctpPcie h => (b.port h.val).linkUp && (b.port h.val).f0.ready
  | .mgmt => b.mss.set.mgmtAddr != 0
  | _ => true

/-- An answer: a status and a body. -/
abbrev MssAns := Nat × List Byte

/-- Serve a request: parts of an earlier response are discarded; authority, then the length of the body, then the operands
are judged (R456). -/
def Blk.mssServe (b : Blk) (v : Transport) (cmd : Nat) (tag : W32) (body : List Byte) (allowed lengthOk operandsOk : Bool)
    (f : Blk → Blk × MssAns) : Blk :=
  if ¬ b.mssOpen v cmd tag body then b
  else
    let b0 := b.updMssPort v (fun p => { p with rest := [] })
    if ¬ allowed then b0.mssReply v cmd tag 0x0202 []
    else if ¬ lengthOk then b0.mssReply v cmd tag 0x0103 []
    else if ¬ operandsOk then b0.mssReply v cmd tag 0x0124 []
    else
      let r := f b0
      r.1.mssReply v cmd tag r.2.1 r.2.2

/-- Serve a command without operands. -/
def Blk.mssPlain (b : Blk) (v : Transport) (cmd : Nat) (tag : W32) (body : List Byte) (allowed : Bool) (f : Blk → Blk × MssAns) : Blk :=
  b.mssServe v cmd tag body allowed (body.length == 0) true f

/-- GET_MORE: the next part of the response with this tag (R456). -/
def Blk.getMore (b : Blk) (v : Transport) (tag : W32) (body : List Byte) : Blk :=
  if ¬ b.mssOpen v 0x0002 tag body then b
  else if body.length ≠ 0 then b.mssReply v 0x0002 tag 0x0103 []
  else
    let p := b.mssPort v
    if p.rest = [] ∨ p.restTag ≠ tag then (b.updMssPort v (fun p => { p with rest := [] })).mssReply v 0x0002 tag 0x0501 []
    else b.mssReply v 0x0002 tag p.restStatus p.rest

/-! Sensors and identity (R464, R466, R474, R475). -/

/-- SENS[n] (R466). -/
def Blk.sensReg (b : Blk) (n : Nat) : Nat :=
  let x := b.mss.sens.get {} n
  x.value.toNat + (if x.valid then 65536 else 0) + (if x.warn then 131072 else 0) + (if x.trip then 262144 else 0)

/-- SENSOR_READ: first sensor in byte 0, how many in byte 1 (R464). -/
def Blk.sensorRead (b : Blk) (v : Transport) (tag : W32) (body : List Byte) : Blk :=
  let n := leAt body 0 1
  let m := leAt body 1 1
  b.mssServe v 0x0003 tag body true (body.length == 2) (decide (1 ≤ m ∧ n + m ≤ 41))
    (fun b => (b, 0, (List.range m).flatMap (fun k => bytesLE 4 (b.sensReg (n + k)))))

/-- Fields that GET_INFO reports, whose layout is not stated (R454). -/
def Blk.infoFields (b : Blk) : List Nat :=
  let f := b.mss.fw
  [Config.serial.toNat, if f.running then f.versionB else f.versionA, (b.boot.image.map (·.version)).getD 0,
   if f.running then 1 else 0,
   b.boot.strapBoot.toNat + 16 * b.boot.strapOwner.toNat + (if b.boot.strapAny then 256 else 0) + (if b.boot.strapJig then 512 else 0),
   b.bootState, natLE Config.mgmtMac, b.mss.set.mgmtAddr.toNat, b.mss.set.mgmtPrefix]

/-- Persistent settings as bytes, for their digest: layout not stated. -/
def Settings.bytes (x : Settings) : List Byte :=
  bytesLE 1 x.ownerPort.toNat ++ bytesLE 1 x.width.toNat ++ bytesLE 4 x.mgmtAddr.toNat ++ bytesLE 1 x.mgmtPrefix

/-- KS_STATUS (R368). -/
def Keys.status (k : Keys) : Nat :=
  (if k.armed then 1 else 0) + (if k.alarm then 2 else 0) + k.cause.toNat * 4 + (if k.importKey.isSome then 256 else 0) +
  k.eraseNs.toNat * 65536 + k.alarms * 2 ^ 32

/-- Digest of the pipeline programs of the newest epoch (R475). -/
def Blk.pipeDigest (b : Blk) : List Byte :=
  sha ((List.range 8).flatMap (fun p => match b.cfg.prog p with
    | some g => slice g.digest 0 32
    | none => List.replicate 32 0))

/-- The 256 bytes of a quote (R475). -/
def Blk.quote (b : Blk) (nonce : List Byte) : List Byte :=
  let dig := fun x : Option Image => slice ((x.map (·.digest)).getD []) 0 32
  [0x45, 0x4C, 0x46, 0x51, 0x54, 0x45] ++ bytesLE 2 0x0100 ++ bytesLE 8 Config.serial.toNat ++ slice nonce 0 32 ++
  slice b.mss.fw.digest 0 32 ++ dig b.boot.image ++ dig b.boot.staged ++ slice b.pipeDigest 0 32 ++ sha b.mss.set.bytes ++
  bytesLE 8 b.ctl.newest ++ bytesLE 8 b.mono ++ bytesLE 4 ((b.boot.image.map (·.secVersion)).getD 0) ++
  bytesLE 4 b.mss.fw.minSec ++ bytesLE 4 b.bootState ++ bytesLE 4 b.keys.status ++ List.replicate 16 0

/-- ATTEST (R475). -/
def Blk.attest (b : Blk) (v : Transport) (tag : W32) (body : List Byte) : Blk :=
  b.mssServe v 0x0060 tag body true (body.length == 32) true
    (fun b => (b, 0, b.quote body ++ slice (Config.sign true (b.quote body)) 0 17088))

/-! The Reel over requests (R468 to R470). -/

/-- Sequence number of the oldest record that stands. -/
def Reel.oldest (r : Reel) : Nat := r.next - reelSlots

/-- LOG_READ: from_seq in bytes 0 to 7, count in byte 8 (R464, R468). With no record the newest is not stated. -/
def Blk.logRead (b : Blk) (v : Transport) (tag : W32) (body : List Byte) : Blk :=
  let n := leAt body 8 1
  b.mssServe v 0x0010 tag body (b.rank v).owns (body.length == 9) (decide (1 ≤ n ∧ n ≤ 63)) (fun b =>
    let r := b.mss.reel
    let first := max (leAt body 0 8) r.oldest
    let last := if r.next = 0 then b.freeVal.toNat else r.next - 1
    (if r.next = 0 then b.drawn 1 else b, 0, bytesLE 8 r.oldest ++ bytesLE 8 last ++
      (List.range (min n (r.next - first))).flatMap (fun k =>
        match r.recs.get none ((first + k) % reelSlots) with
        | some x => slice x.bytes 0 64
        | none => List.replicate 64 0)))

/-- Write a SEAL record; its signing begins (R469, R470). -/
def Blk.sealNow (b : Blk) : Blk :=
  let r := b.mss.reel
  let x : ReelRec := {
    seq := r.next, type := 2, severity := b.freeVal.toNat % 4, origin := 0, tbSec := b.tbSec % 2 ^ 32, mono := b.mono,
    body := bytesLE 4 r.nextSeal ++ bytesLE 4 r.discarded ++ slice (if r.chain = [] then List.replicate 32 0 else r.chain) 0 32 }
  let r1 := r.add x
  { b.drawn 1 with mss := { b.mss with reel := { r1 with
      seals := r1.seals.put none (r.nextSeal % 512) (some { index := r.nextSeal, seq := r.next, sig := none }),
      nextSeal := r.nextSeal + 1, discarded := 0, sinceSeal := 0, lastSeal := b.mono } } }

/-- A seal falls due: 4,096 records, or 60 s with any record written (R470). -/
def Blk.reelSeal (b : Blk) : Blk :=
  let r := b.mss.reel
  if b.mss.fw.up && (decide (4096 ≤ r.sinceSeal) || (decide (0 < r.sinceSeal) && decide (r.lastSeal + 60000000000 ≤ b.mono))) then
    b.sealNow
  else b

/-- The newest unsigned seal gets its signature (R469). -/
def Blk.sealSigned (b : Blk) (k : Nat) : Blk :=
  let r := b.mss.reel
  match r.seals.get none k, b.mss.fw.up with
  | some x, true =>
    match x.sig, r.recs.get none (x.seq % reelSlots) with
    | none, some y =>
      { b with mss := { b.mss with reel := { r with
          seals := r.seals.put none k (some { x with sig := some (Config.sign false (slice y.bytes 0 64)) }) } } }
    | _, _ => b
  | _, _ => b

/-- LOG_SEAL (R470). -/
def Blk.logSeal (b : Blk) (v : Transport) (tag : W32) (body : List Byte) : Blk :=
  b.mssPlain v 0x0011 tag body (b.rank v).owns (fun b => (b.sealNow, 0, []))

/-- SEAL_READ: the seal slot number in bytes 0 to 3; the 8 KiB of the slot (R469). -/
def Blk.sealRead (b : Blk) (v : Transport) (tag : W32) (body : List Byte) : Blk :=
  b.mssServe v 0x0012 tag body (b.rank v).owns (body.length == 4) (decide (leAt body 0 4 < 512)) (fun b =>
    match b.mss.reel.seals.get none (leAt body 0 4) with
    | some x => (b, 0, slice (bytesLE 8 x.seq ++ slice (x.sig.getD []) 0 7856) 0 8192)
    | none => (b, 0, List.replicate 8192 0))

/-! Resets and power (R461, R463). -/

/-- A reset of a scope is in progress. -/
def Blk.resetRuns (b : Blk) : ResetKey → Bool
  | .fn h f1 => (b.fn h f1).flr
  | .half h => b.boot.heldReset.contains h.code

/-- Responses that wait for a reset which has ended are written (R461). -/
def Blk.settleResets (b : Blk) : Blk :=
  let due := b.mss.resetting.filter (fun r => !b.resetRuns r.2.2)
  due.foldl (fun b r => b.mssReply r.1 0x0020 r.2.1 0 [])
    { b with mss := { b.mss with resetting := b.mss.resetting.filter (fun r => b.resetRuns r.2.2) } }

/-- The record of a RESET (R468). -/
def Blk.resetRecord (b : Blk) (v : Transport) (body : List Byte) : Blk :=
  b.reel 7 0 [leAt body 0 1, leAt body 1 1, leAt body 2 1, leAt body 3 1, viaCode v]

/-- Operands of RESET in range (R456, R461). -/
def resetOperandsOk (body : List Byte) : Bool :=
  let scope := leAt body 0 1
  let port := leAt body 1 1
  let which := leAt body 2 1
  let flags := leAt body 3 1
  if scope = 0 then decide (port < 16 ∧ which < 2 ∧ flags = 0)
  else if scope = 1 then decide (port < 16 ∧ flags = 0)
  else if scope = 2 then decide (which < 2 ∧ flags = 0)
  else if scope = 3 then decide (flags < 4)
  else false

/-- Authority for a RESET (R454): owner; a port host for scopes 0 and 1 on its own port. -/
def Blk.mayReset (b : Blk) (v : Transport) (body : List Byte) : Bool :=
  match b.rank v with
  | .portHost h => leAt body 0 1 ≤ 1 && leAt body 1 1 == h
  | _ => true

/-- RESET of a scope given by its row. A response that waits is written when the reset ends. -/
def Blk.mssReset (b : Blk) (scope : Nat) (v : Transport) (tag : W32) (body : List Byte) (f : Blk → Blk × Option ResetKey) : Blk :=
  if ¬ b.mssOpen v 0x0020 tag body ∨ (body.length = 4 ∧ leAt body 0 1 ≤ 3 ∧ leAt body 0 1 ≠ scope) then b
  else
    let b0 := b.updMssPort v (fun p => { p with rest := [] })
    if ¬ b.mayReset v body then b0.mssReply v 0x0020 tag 0x0202 []
    else if body.length ≠ 4 then b0.mssReply v 0x0020 tag 0x0103 []
    else if ¬ resetOperandsOk body then b0.mssReply v 0x0020 tag 0x0124 []
    else
      let r := f (b0.resetRecord v body)
      match r.2 with
      | none => r.1.mssReply v 0x0020 tag 0 []
      | some k =>
        ({ r.1 with mss := { r.1.mss with resetting := r.1.mss.resetting ++ [(v, tag, k)] } } : Blk).settleResets

/-- The port a body names. -/
def bodyPort (body : List Byte) : PortId := Fin.ofNat 16 (leAt body 1 1)

/-- Scope 0: FLR of a function (R80). -/
def Blk.resetFunction (b : Blk) (v : Transport) (tag : W32) (body : List Byte) : Blk :=
  b.mssReset 0 v tag body (fun b =>
    let f1 := leAt body 2 1 == 1
    (b.flr (bodyPort body) f1, some (.fn (bodyPort body).val f1)))

/-- The effects of PERST# on a port without its pin (R76, R461): the link trains again. -/
def Blk.perstLike (b : Blk) (h : PortId) : Blk :=
  let pin := (b.port h.val).perst
  (b.perstAssert h).updPort h.val (fun p => { p with perst := pin, removed := !pin })

/-- Scope 1: as PERST# of a port (R76). -/
def Blk.resetPort (b : Blk) (v : Transport) (tag : W32) (body : List Byte) : Blk :=
  b.mssReset 1 v tag body (fun b => (b.perstLike (bodyPort body), none))

/-- Scope 2: a half (R23). A half that a second half-fatal fault withdrew may rejoin from here on (R491). -/
def Blk.resetHalfMss (b : Blk) (v : Transport) (tag : W32) (body : List Byte) : Blk :=
  let h := Half.ofBit (leAt body 2 1)
  b.mssReset 2 v tag body (fun b => ((b.shutIn h).resetHalf h, some (.half h)))

/-- Scope 3: the device; the response is written at acceptance (R22, R99, R461). `pin`: JIG_EN as sampled
at the reset (R507). -/
def Blk.resetDevice (b : Blk) (v : Transport) (tag : W32) (body : List Byte) (pin : Bool) : Blk :=
  let flags := leAt body 3 1
  let ok := b.mssOpen v 0x0020 tag body && leAt body 0 1 == 3 && body.length == 4 && b.mayReset v body && resetOperandsOk body
  let b1 := b.mssReset 3 v tag body (fun b => (b, none))
  if ok then b1.deviceReset (flags % 2 == 1) (decide (2 ≤ flags) || pin) else b1

/-- POWER_OFF (R463). -/
def Blk.mssPowerOff (b : Blk) (v : Transport) (tag : W32) (body : List Byte) : Blk :=
  b.mssPlain v 0x0021 tag body (b.rank v).owns (fun b => (b.powerOff, 0, []))

/-- POWER_ON (R463). -/
def Blk.mssPowerOn (b : Blk) (v : Transport) (tag : W32) (body : List Byte) : Blk :=
  b.mssPlain v 0x0022 tag body (b.rank v == .platform) (fun b =>
    match b.powerOn with
    | .ok b1 => (b1, 0, [])
    | .error r => (b, r, []))

/-- JIG: operand 1 enters after a reset of the device, 0 leaves by one (R99). -/
def Blk.mssJig (b : Blk) (enter : Bool) (v : Transport) (tag : W32) (body : List Byte) : Blk :=
  if body.length = 1 ∧ leAt body 0 1 ≤ 1 ∧ leAt body 0 1 ≠ (if enter then 1 else 0) then b
  else
    let ok := b.mssOpen v 0x0023 tag body && b.rank v == .platform && body.length == 1 && decide (leAt body 0 1 ≤ 1)
    let b1 := b.mssServe v 0x0023 tag body (b.rank v == .platform) (body.length == 1) (decide (leAt body 0 1 ≤ 1)) (fun b => (b, 0, []))
    if ok then (if enter then b1.deviceReset false true else if b1.boot.jig then b1.deviceReset false false else b1) else b1

/-! Keys (R368, R476, R477). -/

/-- KEY_ERASE (R368). -/
def Blk.keyErase (b : Blk) (v : Transport) (tag : W32) (body : List Byte) : Blk :=
  b.mssPlain v 0x0030 tag body (b.rank v).owns (fun b => (b.raiseAlarm 4, 0, []))

/-- No alarm source holds (R476). -/
def Blk.alarmClear (b : Blk) : Bool :=
  !b.mss.meshOpen && !b.mss.storeError && b.mss.sens.all (fun e => !(e.2.valid && tripAt e.1 e.2.value.toNat))

/-- KEY_REARM (R476). -/
def Blk.keyRearm (b : Blk) (v : Transport) (tag : W32) (body : List Byte) : Blk :=
  b.mssPlain v 0x0031 tag body (b.rank v).owns (fun b =>
    if b.alarmClear then ({ b with keys := { b.keys with alarm := false, armed := true } }, 0, []) else (b, 0x0620, []))

/-- IMPORT_OPEN (R477). -/
def Blk.importOpen (b : Blk) (v : Transport) (tag : W32) (body : List Byte) : Blk :=
  b.mssServe v 0x0032 tag body (b.rank v).owns (body.length == 32) true (fun b =>
    if b.keys.alarm then (b, 0x0620, [])
    else
      let k := Config.kemPair b.fresh
      ({ b.drawn 1 with mss := { b.mss with exchange := some (k.1, k.2, b.mono) } }, 0,
       slice k.1 0 1184 ++ slice (Config.sign true (sha (slice k.1 0 1184) ++ body)) 0 17088))

/-- IMPORT_SET (R477). -/
def Blk.importSet (b : Blk) (v : Transport) (tag : W32) (body : List Byte) : Blk :=
  b.mssServe v 0x0033 tag body (b.rank v).owns (body.length == 1088) true (fun b =>
    if b.keys.alarm then (b, 0x0620, [])
    else match b.mss.exchange with
      | none => (b, 0x0501, [])
      | some (ek, dk, _) =>
        ({ b with
           mss := { b.mss with exchange := none },
           keys := { b.keys with importKey := some (sha ([0x45, 0x4C, 0x46, 0x49, 0x4D, 0x50, 0x4B] ++
             Config.kemSecret dk body ++ sha (slice ek 0 1184))) } }, 0, []))

/-- 60 s after IMPORT_OPEN the decapsulation key is wiped (R477). -/
def Blk.importTimeout (b : Blk) : Blk :=
  match b.mss.exchange with
  | some (_, _, t) => if t + 60000000000 ≤ b.mono then { b with mss := { b.mss with exchange := none } } else b
  | none => b

/-! Settings (R458 to R460). -/

/-- Bytes of a SET that its setting does not use are 0, from byte `k` on (R458). -/
def setZero (body : List Byte) (k : Nat) : Bool := zeroAt body k (12 - k)

/-- SET of one setting, given by its row: code, authority, whether the value is in range, old and new value for the
SETTING record, the effect (R458, R468). -/
def Blk.mssSet (b : Blk) (code : Nat) (v : Transport) (tag : W32) (body : List Byte) (allowed inRange : Bool) (old new : Nat)
    (f : Blk → Blk) : Blk :=
  if body.length = 12 ∧ 1 ≤ leAt body 0 1 ∧ leAt body 0 1 ≤ 5 ∧ leAt body 0 1 ≠ code then b
  else b.mssServe v 0x0040 tag body (allowed || body.length != 12 || leAt body 0 1 != code) (body.length == 12)
    (leAt body 0 1 == code && inRange) (fun b => ((f b).reel 0x000E 0 [code, old, new], 0, []))

/-- OWNER_PORT (R460). -/
def Blk.setOwnerPort (b : Blk) (v : Transport) (tag : W32) (body : List Byte) : Blk :=
  let p := leAt body 4 1
  b.mssSet 1 v tag body (b.rank v == .platform) (setZero body 5 && (p == 255 || (decide (p < 16) && !b.absent p)))
    b.mss.set.ownerPort.toNat p
    (fun b => { b with mss := { b.mss with set := { b.mss.set with ownerPort := BitVec.ofNat 8 p } } })

/-- WIDTH: from the next reset of the device (R51, R458). -/
def Blk.setWidth (b : Blk) (v : Transport) (tag : W32) (body : List Byte) : Blk :=
  let p := leAt body 4 1
  b.mssSet 2 v tag body (b.rank v == .platform) (setZero body 5) b.mss.set.width.toNat p
    (fun b => { b with mss := { b.mss with set := { b.mss.set with width := BitVec.ofNat 8 p } } })

/-- MARGIN: every domain (R45, R458). -/
def Blk.setMargin (b : Blk) (v : Transport) (tag : W32) (body : List Byte) : Blk :=
  let p := leAt body 4 1
  b.mssSet 3 v tag body (b.rank v).owns (setZero body 5 && decide (20 ≤ p ∧ p ≤ 100)) (b.spd.doms.get {} 0).margin.toNat p
    (fun b => { b with spd := { b.spd with
      doms := (List.range 8).foldl (fun t d => t.upd {} d (fun x => { x with margin := BitVec.ofNat 8 p })) b.spd.doms } })

/-- A write of SUP[h]; a thread of the other half is ignored (R257). -/
def Blk.supWrite (b : Blk) (h : Half) (t : Nat) : Blk :=
  if halfOfThread t = h then
    (b.updFq h (fun q => { q with sup := BitVec.ofNat 9 t })).evalWaits [(b.fq h).sup.toNat, t]
  else b

/-- SUPERVISOR (R257, R458). -/
def Blk.setSupervisor (b : Blk) (v : Transport) (tag : W32) (body : List Byte) : Blk :=
  let h := Half.ofBit (leAt body 4 1)
  let t := leAt body 5 2
  b.mssSet 4 v tag body (b.rank v).owns
    (setZero body 7 && decide (leAt body 4 1 < 2 ∧ t < 512 ∧ halfOfThread t = h)) (b.fq h).sup.toNat t (fun b => b.supWrite h t)

/-- MGMT_ADDR (R459): the address in wire order. -/
def Blk.setMgmtAddr (b : Blk) (v : Transport) (tag : W32) (body : List Byte) : Blk :=
  let a := beAt body 4 4
  let n := leAt body 8 1
  b.mssSet 5 v tag body (b.rank v == .platform) (setZero body 9 && decide (n ≤ 32)) b.mss.set.mgmtAddr.toNat a
    (fun b => { b with mss := { b.mss with set := { b.mss.set with mgmtAddr := BitVec.ofNat 32 a, mgmtPrefix := n } } })

/-- An ARP request at the management port (R459). -/
def Blk.arpRequest (b : Blk) (target : W32) : Blk :=
  if b.elec.vin && b.mss.fw.up && b.mss.set.mgmtAddr != 0 && target == b.mss.set.mgmtAddr then b.emit (.arp target) else b

/-! Restart and firmware update (R471 to R473). -/

/-- The MSS goes down for a restart: mailbox requests in flight end LOST, others unanswered (R471); a write cut short
leaves the other bank invalid (R473). -/
def Blk.mssDown (b : Blk) : Blk :=
  let f := b.mss.fw
  { b with mss := { b.mss with
      mbx := b.mss.mbx.mapVals {} (fun _ p => { p with st := if p.st = .busy then .lost else p.st, rest := [] }),
      mctp := b.mss.mctp.mapVals {} (fun _ p => { p with rest := [] }),
      smbus := { b.mss.smbus with rest := [] }, mgmt := { b.mss.mgmt with rest := [] }, resetting := [],
      fw := { f with up := false, inRom := false } } }

/-- The watchdog restarts the MSS (R471, R481). -/
def Blk.mssRestart (b : Blk) : Blk :=
  if b.mss.fw.up && b.elec.vin then
    ({ b with mss := { b.mss with fw := { b.mss.fw with cause := 0 } } } : Blk).mssDown.errUncorr 0x14 .west
  else b

/-- A bank is valid. -/
def MssFw.valid (f : MssFw) (bankB : Bool) : Bool := if bankB then f.validB else f.validA

/-- The bank that runs after a restart: the one on trial by MSS_SWITCH, else the active one, else the other (R85, R473). -/
def MssFw.nextBank (f : MssFw) : Option Bool :=
  if f.trialNext then some (!f.active)
  else if f.valid f.active then some f.active
  else if f.valid (!f.active) then some (!f.active) else none

/-- The MSS returns: records and events latched meanwhile are written, then its own (R471). With no bank that verifies it
stays in its ROM (R87). -/
def Blk.mssReturn (b : Blk) : Blk :=
  if b.mss.fw.up ∨ ¬ b.elec.vin then b
  else
    match b.mss.fw.nextBank with
    | none => { b with mss := { b.mss with fw := { b.mss.fw with inRom := true } } }
    | some bank =>
      let f := b.mss.fw
      let n := sat32 f.restarts 1
      let recs := b.mss.latched
      let evs := b.mss.latchedEv
      let b1 : Blk := { b with mss := { b.mss with
        latched := [], latchedEv := [],
        reel := recs.foldl (fun r x => r.accept (b.mono / 1000000000) x) b.mss.reel,
        fw := { f with up := true, inRom := false, running := bank, trialNext := false,
                       trial := if f.trialNext then some b.mono else none, restarts := n } } }
      let b1 := if b1.clk.on then b1 else b1.railsUp
      let b2 := evs.foldl (fun b e => Blk.raise 3 b (.f0 b.ownerPort) e) b1
      (b2.reel 0x000F 0 [f.cause, n]).devEvent 0x0030 0 0 (min n 65535)

/-- The bank that does not run. -/
def MssFw.other (f : MssFw) : Bool := !f.running

/-- MSS_WRITE: a byte offset and up to 4,072 bytes for the bank that is not running (R472, R473). -/
def Blk.mssWrite (b : Blk) (v : Transport) (tag : W32) (body : List Byte) : Blk :=
  let off := leAt body 0 4
  b.mssServe v 0x0050 tag body (b.rank v).owns (decide (4 ≤ body.length ∧ body.length ≤ 4076))
    (decide (off + (body.length - 4) ≤ 8388608)) (fun b =>
      let f := b.mss.fw
      if f.trial.isSome then (b, 0x0501, [])
      else ({ b with mss := { b.mss with fw := { f.bankLost f.other with written := memPut f.written off (body.drop 4) } } }, 0, []))

/-- A bank takes the image that passed. -/
def MssFw.bankHolds (f : MssFw) (bankB : Bool) (x : Image) : MssFw :=
  if bankB then { f with validB := true, versionB := x.version, secB := x.secVersion }
  else { f with validA := true, versionA := x.version, secA := x.secVersion }

/-- Reason why the bank that is not running may not be switched to; none for one that verifies (R91, R472). -/
def Blk.switchFault (b : Blk) : Option Nat :=
  let f := b.mss.fw
  if f.written = [] then
    (if ¬ f.valid f.other then some 0x0110 else if (if f.other then f.secB else f.secA) < f.minSec then some 0x0613 else none)
  else imageFault f.written true f.minSec

/-- MSS_SWITCH (R472): on a pass the bank is on trial and the MSS restarts into it. -/
def Blk.mssSwitch (b : Blk) (v : Transport) (tag : W32) (body : List Byte) : Blk :=
  let ok := b.mssOpen v 0x0051 tag body && (b.rank v).owns && body.length == 0 && !b.mss.fw.trial.isSome && b.switchFault.isNone
  let b1 := b.mssPlain v 0x0051 tag body (b.rank v).owns (fun b =>
    if b.mss.fw.trial.isSome then (b, 0x0501, []) else (b, b.switchFault.getD 0, []))
  if ok then
    let f := b1.mss.fw
    let f1 := if f.written = [] then f else f.bankHolds f.other (imageOf f.written)
    ({ b1 with mss := { b1.mss with fw := { f1 with
      trialNext := true, active := f.running, written := [], cause := 1,
      trialDigest := if f.written = [] then f.digest else (imageOf f.written).digest } } } : Blk).mssDown
  else b1

/-- The version of a bank. -/
def MssFw.version (f : MssFw) (bankB : Bool) : Nat := if bankB then f.versionB else f.versionA

/-- MSS_CONFIRM (R473). -/
def Blk.mssConfirm (b : Blk) (v : Transport) (tag : W32) (body : List Byte) : Blk :=
  b.mssPlain v 0x0052 tag body (b.rank v).owns (fun b =>
    let f := b.mss.fw
    if f.trial.isNone then (b, 0x0501, [])
    else
      (({ b with mss := { b.mss with fw := { f with
          active := f.running, trial := none, minSec := if f.running then f.secB else f.secA, digest := f.trialDigest } } } : Blk).reel
        0x000D 0 [if f.running then 1 else 0, f.version f.running, 0], 0, []))

/-- A trial not confirmed within 60 s is abandoned: the MSS restarts into the active bank (R473). -/
def Blk.trialTimeout (b : Blk) : Blk :=
  match b.mss.fw.trial with
  | some t =>
    if t + 60000000000 ≤ b.mono ∧ b.mss.fw.up then
      let f := b.mss.fw
      (({ b with mss := { b.mss with fw := { f with trial := none, cause := 2 } } } : Blk).reel
        0x000D 0 [if f.running then 1 else 0, f.version f.running, 1]).mssDown
    else b
  | none => b

/-! Debug (R261, R478). -/

/-- A debug operation on a thread: refused where its state does not accept it. The body of its response is given by `f`. -/
def Blk.mssDebug (b : Blk) (v : Transport) (tag : W32) (accepted : Bool) (f : Blk → Blk × List Byte) : Blk :=
  let busy := match v with
    | .mailbox h => let p := b.mss.mbx.get {} h.val
                    p.st == .busy && (p.req.get 0 0).toNat + 256 * (p.req.get 0 1).toNat == 0x0070
    | .mctpPcie h => (b.port h.val).linkUp && (b.port h.val).f0.ready
    | .mgmt => b.mss.set.mgmtAddr != 0
    | _ => true
  if ¬ (b.elec.vin && b.mss.fw.up && busy) then b
  else
    let b0 := b.updMssPort v (fun p => { p with rest := [] })
    if ¬ (b.rank v).owns then b0.mssReply v 0x0070 tag 0x0202 []
    else if ¬ accepted then b0.mssReply v 0x0070 tag 0x0501 []
    else
      let r := f b0
      r.1.mssReply v 0x0070 tag 0 r.2

/-- A thread is HALTED. -/
def Blk.isHalted (b : Blk) (t : Nat) : Bool := (b.thread t).st == .halted

/-- HALT is accepted (R261). -/
def Blk.canHalt (b : Blk) (t : Nat) : Bool := (b.thread t).st != .halted

/-- What a debug READ gives (R261). -/
def Blk.dbgRead (b : Blk) (t : Nat) : DbgItem → W64
  | .greg r => b.greg t r
  | .pc => (b.thread t).pc
  | .sysreg n => b.srRead t n.toNat
  | .window off => ((b.thread t).win.bytes.get 0 off.val).setWidth 64
  | .staging c w => (b.thread t).staging.get 0 (c.val * 8 + w.val)
  | .recvBuf c w => ((b.thread t).recv.get {} c.val).words.get 0 w.val

/-- A listed system register has thread scope: all but TMODE, the counters of the core, RESIDUE_STAT and MONO (R195, R243). -/
def srOfThread (n : Nat) : Bool := !([0x010, 0x04C, 0x04D, 0x050, 0x060].contains n)

/-- The thread has an item to read: every item but a system register that is not listed, or is not the thread's (R261). -/
def dbgReadable : DbgItem → Bool
  | .sysreg n => (srAccess n.toNat).isSome && srOfThread n.toNat
  | _ => true

/-- An item a debugger may write: registers, PC, and system registers that are not read-only (R222, R261). -/
def dbgWritable : DbgItem → Bool
  | .greg _ => true
  | .pc => true
  | .sysreg n => srOfThread n.toNat && (match srAccess n.toNat with
    | some (_, .rw) => true
    | _ => false)
  | _ => false

/-- What a debug WRITE does (R261). -/
def Blk.dbgWrite (b : Blk) (t : Nat) (i : DbgItem) (v : W64) : Blk :=
  match i with
  | .greg r => b.setG t r v
  | .pc => b.updThread t (fun x => { x with pc := pcOf v })
  | .sysreg n => b.srWrite t n.toNat v
  | _ => b

end Sys2Proof.Machine
end

