-- ==== Sys2Proof/Machine/RegMap.lean ====
section
/-! DEFINITION. The registers: which are 64 bits wide, which indices exist, where each lies in the BARs of a host port
(R60, R61, R63) and in device space (R193), and which of their bits are reserved (R6). -/

namespace Sys2Proof

/-- The register is 64 bits wide (R3). -/
def Reg.wide : Reg → Bool
  | .ctlWqBase _ | .ctlCqBase _ | .ctlCqMirror _ | .f0EqBase _ | .f0EqMirror _
  | .portDiscard _ | .portUnbound _ | .tbSec | .mono | .tbFreq | .tbOffset | .servoIn | .stepLogOffset _ | .stepLogMono _
  | .thrState _ | .thrEvpend _ | .thrSignal _ | .thrGroup _ | .grpCtrl _ | .sup _ | .fqBase _ | .fqPi _ | .fqCi _
  | .grpSnapId .. | .grpSnapMask .. | .chCfg _
  | .pipeStatus _ | .pipeCnt .. | .puntBase _ | .puntCtrl _ | .puntPi _ | .puntCi _ | .pipeDrop ..
  | .learnCfg _ | .learnStatus _ | .learnFlush _ | .learnCnt ..
  | .ethLink _ | .ethCnt .. | .tsCtrl _ | .tsStatus _ | .tsHead0 _ | .tsHead1 _ | .tsPop _ | .tsOvfCount _
  | .launchStatus _ | .launchLate _ | .launchRange _
  | .luState _ | .luLock | .luLockResult | .ksStatus | .rmtCnt ..
  | .dspLink _ | .dspSlot _ | .dspMsiRoute _ | .dspMsiPend _ | .dspErr _
  | .dmaErrAddr _ | .dmaNext .. | .dmaCurDesc .. | .dmaCurSrc .. | .dmaCurDst .. | .dmaIdleAt .. | .dmaDone .. | .dmaShNext ..
  | .errCorr .. | .errUncorr .. | .spare _ | .errRoute => true
  | _ => false

/-- Bytes of the register. -/
def Reg.size (r : Reg) : Nat := if r.wide then 8 else 4

/-- The register of a list that covers an offset, and the offset within it. -/
def coverAt (off : Nat) (l : List (Nat × Reg)) : Option (Reg × Nat) :=
  (l.find? (fun x => decide (x.1 ≤ off) && decide (off < x.1 + x.2.size))).map (fun x => (x.2, off - x.1))

/-- Index and offset within the element, of an array of `n` elements of `stride` bytes from `base`. -/
def elemAt (off base stride n : Nat) : Option (Nat × Nat) :=
  if base ≤ off ∧ off < base + stride * n then some ((off - base) / stride, (off - base) % stride) else none

/-- The first of two answers. -/
def orElseReg (a b : Option (Reg × Nat)) : Option (Reg × Nat) :=
  match a with
  | some x => some x
  | none => b

/-- A register of an array, where the offset within the element lies in it. -/
def arrayAt (off base stride n : Nat) (f : Nat → Reg) : Option (Reg × Nat) :=
  match elemAt off base stride n with
  | some (i, o) => if o < (f i).size then some (f i, o) else none
  | none => none

/-- The TIME block (R327, R328). -/
def timeReg (off : Nat) : Option (Reg × Nat) :=
  orElseReg (coverAt off [(0x00, .tbNsec), (0x04, .tbGrain), (0x08, .tbSec), (0x10, .mono), (0x18, .tbStatus), (0x20, .tbFreq),
      (0x28, .tbOffset), (0x30, .servoIn)])
    (orElseReg (arrayAt off 0x100 16 16 .stepLogOffset) (arrayAt off 0x108 16 16 .stepLogMono))

/-- The SPEED block (R45). -/
def speedReg (off : Nat) : Option (Reg × Nat) :=
  orElseReg (arrayAt off 0x000 4 96 .spdMon) (orElseReg (arrayAt off 0x200 4 8 .spdDom)
    (orElseReg (arrayAt off 0x310 4 3 .spdMiss) (coverAt off [(0x300, .spdStatus), (0x320, .spdPower)])))

/-- The DMA block of engine `h` (chapter 18). -/
def dmaReg (h off : Nat) : Option (Reg × Nat) :=
  match elemAt off 0x1000 0x100 32 with
  | some (c, o) => coverAt o [(0x00, .dmaNext h c), (0x08, .dmaCfg h c), (0x0C, .dmaCtrl h c), (0x10, .dmaKick h c),
      (0x14, .dmaStatus h c), (0x18, .dmaShadow h c), (0x20, .dmaCurDesc h c), (0x28, .dmaCurSrc h c), (0x30, .dmaCurDst h c),
      (0x38, .dmaRemain h c), (0x40, .dmaIdleAt h c), (0x48, .dmaDone h c), (0x80, .dmaShNext h c), (0x88, .dmaShCfg h c)]
  | none => coverAt off [(0x00, .dmaEngCtrl h), (0x04, .dmaEngStatus h), (0x08, .dmaErrAddr h), (0x10, .dmaActive h),
      (0x14, .dmaHostMask h), (0x18, .dmaHaltCount h), (0x1C, .dmaEngRoute h)]

/-- An MSI-X table entry of function `f` (R72). -/
def msixReg (f h v o : Nat) : Option (Reg × Nat) :=
  coverAt o [(0x0, .msixAddrLo f h v), (0x4, .msixAddrHi f h v), (0x8, .msixData f h v), (0xC, .msixMask f h v)]

/-- F0 BAR0 of port `h` (R60). -/
def f0Reg (h off : Nat) : Option (Reg × Nat) :=
  if off < 0x10000 then coverAt off [(0x00, .bootId h), (0x04, .bootState), (0x08, .bootLoadCtrl h), (0x0C, .bootLoadStatus h),
    (0x10, .bootEnable h), (0x14, .bootRefuse h)]
  else if off < 0x20000 then coverAt (off - 0x10000) [(0x00, .ctlWqBase h), (0x08, .ctlWqCtrl h), (0x0C, .ctlWqPi h),
    (0x10, .ctlWqCi h), (0x14, .ctlDoorbell h), (0x18, .ctlWqErr h), (0x20, .ctlCqBase h), (0x28, .ctlCqCtrl h),
    (0x2C, .ctlCqPi h), (0x30, .ctlCqCi h), (0x38, .ctlCqMirror h)]
  else if off < 0x28000 then coverAt (off - 0x20000) [(0x00, .f0EqBase h), (0x08, .f0EqCtrl h), (0x0C, .f0EqPi h),
    (0x10, .f0EqCi h), (0x18, .f0EqMirror h), (0x20, .intStatus h)]
  else if off < 0x29000 then
    match elemAt off 0x28000 16 32 with
    | some (v, o) => msixReg 0 h v o
    | none => none
  else if off < 0x30000 then coverAt off [(0x29000, .msixPba 0 h 0)]
  else if off < 0x40000 then
    orElseReg (coverAt off [(0x30000, .mbxCtrl h), (0x30004, .mbxStatus h)])
      (orElseReg (arrayAt off 0x30400 4 41 .sens)
        (orElseReg (arrayAt off 0x31000 4 1024 (.mbxReq h)) (arrayAt off 0x32000 4 1024 (.mbxResp h))))
  else if off < 0x50000 then timeReg (off - 0x40000)
  else if off < 0x60000 then speedReg (off - 0x50000)
  else if 0x1000000 ≤ off ∧ off < 0x1010000 then dmaReg h (off - 0x1000000)
  else none

/-- The doorbell page of instance `i` (chapter 05, R357, R413). -/
def pageReg (i off : Nat) : Option (Reg × Nat) :=
  orElseReg (arrayAt off 0x100 4 64 (.wqPi i)) (orElseReg (arrayAt off 0x200 4 64 (.wqCi i))
    (orElseReg (arrayAt off 0x300 4 64 (.cqCi i)) (orElseReg (arrayAt off 0x400 16 8 (.eqPi i))
      (orElseReg (arrayAt off 0x404 16 8 (.eqCi i)) (orElseReg (arrayAt off 0x408 16 8 (.eqCtrl i))
        (orElseReg (arrayAt off 0x500 4 64 (.wqErrIndex i)) (orElseReg (arrayAt off 0x600 4 64 (.cqPi i))
          (coverAt off [(0x000, .doorbell i), (0x800, .instStatus i), (0x900, .lock i), (0x904, .lockStatus i),
            (0xA00, .trigSel i), (0xA04, .trigValue i), (0xA08, .trigAdd i)]))))))))

/-- F1 BAR0 of port `h` (R61). -/
def f1Reg (h off : Nat) : Option (Reg × Nat) :=
  if off < 0x2000000 then pageReg (off / 4096) (off % 4096)
  else coverAt (off - 0x2000000) [(0x00, .portInfo h), (0x08, .portDiscard h), (0x10, .portUnbound h)]

/-- F1 BAR4 of port `h` (R63). -/
def f1Bar4 (h off : Nat) : Option (Reg × Nat) :=
  match elemAt off 0 16 2048 with
  | some (v, o) => msixReg 1 h v o
  | none => arrayAt off 0x8000 4 64 (.msixPba 1 h)

/-- The PIPE block of pipeline `p`, LEARN registers among it (chapters 11, 12). -/
def pipeReg (p off : Nat) : Option (Reg × Nat) :=
  orElseReg (coverAt off [(0x00, .pipeStatus p), (0x80, .puntBase p), (0x88, .puntCtrl p), (0x90, .puntPi p), (0x98, .puntCi p),
      (0x1000, .learnCfg p), (0x1008, .learnStatus p), (0x1010, .learnFlush p)])
    (orElseReg (arrayAt off 0x08 8 10 (.pipeCnt p)) (orElseReg (arrayAt off 0x800 8 256 (.pipeDrop p))
      (arrayAt off 0x1020 8 9 (.learnCnt p))))

/-- The ETH block of lane `l` (chapters 13, 14). -/
def ethReg (l off : Nat) : Option (Reg × Nat) :=
  orElseReg (coverAt off [(0x00, .ethLink l), (0x40, .tsCtrl l), (0x48, .tsStatus l), (0x50, .tsHead0 l), (0x58, .tsHead1 l),
      (0x60, .tsPop l), (0x68, .tsOvfCount l), (0x80, .launchStatus l), (0x88, .launchLate l), (0x90, .launchRange l)])
    (arrayAt off 0x100 8 20 (.ethCnt l))

/-- The THREAD block (R239). -/
def threadReg (off : Nat) : Option (Reg × Nat) :=
  if off < 0x1000 then arrayAt off 0x0000 8 512 .thrState
  else if off < 0x2000 then arrayAt off 0x1000 8 512 .thrEvpend
  else if off < 0x3000 then arrayAt off 0x2000 8 512 .thrSignal
  else if off < 0x4000 then arrayAt off 0x3000 8 512 .thrGroup
  else if off < 0x5000 then arrayAt off 0x4000 8 64 .grpCtrl
  else if off < 0x10000 then
    match elemAt off 0x5000 0x40 2 with
    | some (h, o) => coverAt o [(0x00, .sup h), (0x08, .fqBase h), (0x10, .fqPi h), (0x18, .fqCi h)]
    | none => none
  else if off < 0x20000 then
    match elemAt off 0x10000 0x400 64 with
    | some (g, o) => orElseReg (arrayAt o 0 16 64 (.grpSnapId g)) (arrayAt o 8 16 64 (.grpSnapMask g))
    | none => none
  else arrayAt off 0x20000 8 4096 .chCfg

/-- The ERR block (R490). -/
def errReg (off : Nat) : Option (Reg × Nat) :=
  if off < 0x400 then
    match elemAt off 0x20 0x20 20 with
    | some (k, o) =>
      coverAt o [(0x00, .errCorr (k + 1) 0), (0x08, .errUncorr (k + 1) 0), (0x10, .errCorr (k + 1) 1), (0x18, .errUncorr (k + 1) 1)]
    | none => none
  else orElseReg (arrayAt off 0x400 8 2 .spare) (coverAt off [(0x410, .errRoute)])

/-- The register of device space that covers an offset from its base, and the offset within it (R193). -/
def devReg (x : Nat) : Option (Reg × Nat) :=
  if 0x30400 ≤ x ∧ x < 0x30400 + 4 * 41 then arrayAt x 0x30400 4 41 .sens
  else if 0x40000 ≤ x ∧ x < 0x50000 then timeReg (x - 0x40000)
  else if 0x50000 ≤ x ∧ x < 0x60000 then speedReg (x - 0x50000)
  else if 0x100000 ≤ x ∧ x < 0x200000 then threadReg (x - 0x100000)
  else if 0x200000 ≤ x ∧ x < 0x280000 then pipeReg ((x - 0x200000) / 0x10000) (x % 0x10000)
  else if 0x300000 ≤ x ∧ x < 0x310000 then ethReg ((x - 0x300000) / 0x200) (x % 0x200)
  else if 0x340000 ≤ x ∧ x < 0x350000 then
    orElseReg (arrayAt (x - 0x340000) 0 8 32 .luState)
      (coverAt (x - 0x340000) [(0x100, .luLock), (0x108, .luLockResult), (0x200, .ksStatus)])
  else if 0x360000 ≤ x ∧ x < 0x362000 then arrayAt (x % 0x1000) 0 8 12 (.rmtCnt ((x - 0x360000) / 0x1000))
  else if 0x380000 ≤ x ∧ x < 0x388000 then
    let d := (x - 0x380000) / 0x1000
    coverAt (x % 0x1000) [(0x00, .dspLink d), (0x08, .dspSlot d), (0x10, .dspMsiRoute d), (0x18, .dspMsiPend d), (0x20, .dspErr d)]
  else if 0x400000 ≤ x ∧ x < 0x500000 then dmaReg ((x - 0x400000) / 0x10000) (x % 0x10000)
  else if 0x600000 ≤ x ∧ x < 0x601000 then errReg (x - 0x600000)
  else none

/-- Where a register is reached. -/
inductive Place where
  /-- Configuration space of function `f` of port `h`. -/
  | cfg (f h : Nat)
  /-- F0 BAR0 of one port; F1 of one port. -/
  | f0 (h : Nat)
  | f1 (h : Nat)
  /-- The doorbell page of an instance. -/
  | page (i : Nat)
  /-- Device space alone. -/
  | dev
  /-- F0 BAR0 of every port, and device space. -/
  | both
  /-- The DMA block of engine `h`: F0 of the owner's port, and device space. -/
  | dma (h : Nat)
  deriving DecidableEq, Repr

/-- Where a register lies. -/
def Reg.place : Reg → Place
  | .spdMon _ | .spdDom _ | .spdStatus | .spdMiss _ | .spdPower | .sens _
  | .tbNsec | .tbGrain | .tbSec | .mono | .tbStatus | .tbFreq | .tbOffset | .servoIn | .stepLogOffset _ | .stepLogMono _ => .both
  | .bootState => .both
  | .bootId h | .bootLoadCtrl h | .bootLoadStatus h | .bootEnable h | .bootRefuse h
  | .ctlWqBase h | .ctlWqCtrl h | .ctlWqPi h | .ctlWqCi h | .ctlDoorbell h | .ctlWqErr h | .ctlCqBase h | .ctlCqCtrl h
  | .ctlCqPi h | .ctlCqCi h | .ctlCqMirror h | .f0EqBase h | .f0EqCtrl h | .f0EqPi h | .f0EqCi h | .f0EqMirror h
  | .intStatus h | .mbxCtrl h | .mbxStatus h | .mbxReq h _ | .mbxResp h _ => .f0 h
  | .cfgCommand f h | .cfgBar f h _ | .msixControl f h | .cfgDevCtl2 f h | .cfgAer f h | .cfgAerCor f h | .cfgCacheLine f h
  | .cfgIntLine f h | .cfgDevCtl f h => .cfg f h
  | .cfgPasidCtl h => .cfg 1 h
  | .cfgLinkCtl h | .cfgL1Pm h | .cfgDevCtl3 h => .cfg 0 h
  | .msixAddrLo f h _ | .msixAddrHi f h _ | .msixData f h _ | .msixMask f h _ | .msixPba f h _ | .msixAddr f h _
  | .msixDataMask f h _ => if f = 0 then .f0 h else .f1 h
  | .portInfo h | .portDiscard h | .portUnbound h => .f1 h
  | .doorbell i | .wqPi i _ | .wqCi i _ | .cqCi i _ | .eqPi i _ | .eqCi i _ | .eqCtrl i _ | .wqErrIndex i _ | .cqPi i _
  | .instStatus i | .lock i | .lockStatus i | .trigSel i | .trigValue i | .trigAdd i => .page i
  | .dmaEngCtrl h | .dmaEngStatus h | .dmaErrAddr h | .dmaActive h | .dmaHostMask h | .dmaHaltCount h | .dmaEngRoute h
  | .dmaNext h _ | .dmaCfg h _ | .dmaCtrl h _ | .dmaKick h _ | .dmaStatus h _ | .dmaShadow h _ | .dmaCurDesc h _
  | .dmaCurSrc h _ | .dmaCurDst h _ | .dmaRemain h _ | .dmaIdleAt h _ | .dmaDone h _ | .dmaShNext h _ | .dmaShCfg h _ => .dma h
  | _ => .dev

/-- Every index of a register names an element that exists. -/
def Reg.ok : Reg → Bool
  | .spdMon n => decide (n < 96) | .spdDom d => decide (d < 8) | .spdMiss k => decide (k < 3)
  | .sens n => decide (n < 41)
  | .bootId h | .bootLoadCtrl h | .bootLoadStatus h | .bootEnable h | .bootRefuse h
  | .ctlWqBase h | .ctlWqCtrl h | .ctlWqPi h | .ctlWqCi h | .ctlDoorbell h | .ctlWqErr h | .ctlCqBase h | .ctlCqCtrl h
  | .ctlCqPi h | .ctlCqCi h | .ctlCqMirror h | .f0EqBase h | .f0EqCtrl h | .f0EqPi h | .f0EqCi h | .f0EqMirror h
  | .intStatus h | .mbxCtrl h | .mbxStatus h | .portInfo h | .portDiscard h | .portUnbound h
  | .cfgLinkCtl h | .cfgL1Pm h | .cfgDevCtl3 h | .cfgPasidCtl h => decide (h < 16)
  | .mbxReq h k | .mbxResp h k => decide (h < 16 ∧ k < 1024)
  | .cfgCommand f h | .msixControl f h | .cfgDevCtl2 f h | .cfgAer f h | .cfgAerCor f h | .cfgCacheLine f h | .cfgIntLine f h
  | .cfgDevCtl f h => decide (f < 2 ∧ h < 16)
  | .cfgBar f h k => decide (f < 2 ∧ h < 16 ∧ (k < 6 ∨ k = 8))
  | .msixAddrLo f h v | .msixAddrHi f h v | .msixData f h v | .msixMask f h v | .msixAddr f h v | .msixDataMask f h v => decide (f < 2 ∧ h < 16 ∧ v < (if f = 0 then 32 else 2048))
  | .msixPba f h k => decide (f < 2 ∧ h < 16 ∧ k < (if f = 0 then 1 else 64))
  | .doorbell i | .instStatus i | .lock i | .lockStatus i | .trigSel i | .trigValue i | .trigAdd i => decide (i < 8192)
  | .wqPi i q | .wqCi i q | .cqCi i q | .wqErrIndex i q | .cqPi i q => decide (i < 8192 ∧ q < 64)
  | .eqPi i e | .eqCi i e | .eqCtrl i e => decide (i < 8192 ∧ e < 8)
  | .stepLogOffset k | .stepLogMono k => decide (k < 16)
  | .thrState t | .thrEvpend t | .thrSignal t | .thrGroup t => decide (t < 512)
  | .grpCtrl g => decide (g < 64) | .grpSnapId g k | .grpSnapMask g k => decide (g < 64 ∧ k < 64)
  | .sup h | .fqBase h | .fqPi h | .fqCi h | .spare h => decide (h < 2)
  | .chCfg c => decide (c < 4096)
  | .pipeStatus p | .puntBase p | .puntCtrl p | .puntPi p | .puntCi p | .learnCfg p | .learnStatus p | .learnFlush p => decide (p < 8)
  | .pipeCnt p k => decide (p < 8 ∧ k < 10) | .pipeDrop p r => decide (p < 8 ∧ r < 256) | .learnCnt p k => decide (p < 8 ∧ k < 9)
  | .ethLink l | .tsCtrl l | .tsStatus l | .tsHead0 l | .tsHead1 l | .tsPop l | .tsOvfCount l | .launchStatus l | .launchLate l
  | .launchRange l => decide (l < 128)
  | .ethCnt l n => decide (l < 128 ∧ n < 20)
  | .luState u => decide (u < 32) | .rmtCnt h k => decide (h < 2 ∧ k < 12)
  | .dspLink d | .dspSlot d | .dspMsiRoute d | .dspMsiPend d | .dspErr d => decide (d < 8)
  | .dmaEngCtrl h | .dmaEngStatus h | .dmaErrAddr h | .dmaActive h | .dmaHostMask h | .dmaHaltCount h | .dmaEngRoute h => decide (h < 16)
  | .dmaNext h c | .dmaCfg h c | .dmaCtrl h c | .dmaKick h c | .dmaStatus h c | .dmaShadow h c | .dmaCurDesc h c
  | .dmaCurSrc h c | .dmaCurDst h c | .dmaRemain h c | .dmaIdleAt h c | .dmaDone h c | .dmaShNext h c | .dmaShCfg h c => decide (h < 16 ∧ c < 32)
  | .errCorr s h | .errUncorr s h => decide (1 ≤ s ∧ s ≤ 20 ∧ h < 2)
  | .spdStatus | .spdPower | .bootState | .tbNsec | .tbGrain | .tbSec | .mono | .tbStatus | .tbFreq | .tbOffset | .servoIn
  | .luLock | .luLockResult | .ksStatus | .errRoute => true

/-- Bits from `k` up to bit 63. -/
def hiBits (k : Nat) : Nat := 2 ^ 64 - 2 ^ k

/-- Reserved bits of a register: their reads are undefined (R6). -/
def Reg.rsv : Reg → Nat
  | .spdMon _ => 0xFF080000 | .spdDom _ => 0xF8000000 | .spdStatus => 0xFFFFFFF0
  | .bootId _ => 0xFFE00000 | .bootState => 0xFFFF8880 | .bootLoadCtrl _ => 0xFFFFFFF8 | .bootLoadStatus _ => 0xFF00
  | .bootEnable _ => 0xFFFFFFFC | .bootRefuse _ => 0xFFFC0000
  | .ctlWqBase _ | .ctlCqBase _ | .f0EqBase _ => 0xFFF
  | .ctlWqCtrl _ | .ctlCqCtrl _ => 0xFFFFFFE0
  | .ctlWqPi _ | .wqPi .. => 0xFFFF0000 | .ctlWqCi _ | .wqCi .. => 0xFF080000
  | .ctlCqPi _ | .cqPi .. => 0xFFF00000 | .ctlCqCi _ | .cqCi .. => 0x7FFF0000
  | .ctlCqMirror _ | .f0EqMirror _ => 0x2
  | .f0EqCtrl _ => 0xFFFFF000 | .f0EqPi _ | .f0EqCi _ | .eqPi .. | .eqCi .. => 0xFFFF0000
  | .eqCtrl .. => 0xF800FFF8 | .intStatus _ => 0xFFFFFFFC | .instStatus _ => 0xFFFF0000
  | .portInfo _ => 0xFFFFC000 | .trigSel _ => 0xFFFF0000
  | .mbxCtrl _ => 0xFFFFFFFC | .mbxStatus _ => 0xFFFFFFF0 | .sens _ => 0xFFF80000
  | .tbNsec => 0xC0000000 | .tbGrain => 0xFF000000 | .tbSec => hiBits 48 | .tbStatus => 0xFFFFFE00
  | .thrState _ => hiBits 16 + 0x80 | .thrEvpend _ => hiBits 58 | .thrSignal _ => hiBits 48 + 0xFFFFFFFF
  | .thrGroup _ => hiBits 7 | .grpCtrl _ => hiBits 48 + 0x80F0 | .sup _ => hiBits 9 | .fqBase _ => 0xFFE
  | .fqPi _ | .fqCi _ => hiBits 16 | .grpSnapId .. => hiBits 10 | .grpSnapMask .. => hiBits 58
  | .chCfg _ => hiBits 57 + 0xFE0000800000
  | .pipeStatus _ => 0xFFFFFFE0 | .puntBase _ => 0xFFE | .puntCtrl _ => hiBits 5 | .puntPi _ | .puntCi _ => hiBits 32
  | .learnCfg _ => hiBits 44 + 0xFF00C000 | .learnStatus _ => hiBits 40 + 0x80000 | .learnFlush _ => hiBits 25 + 0x8000
  | .ethLink _ => hiBits 6 | .tsCtrl _ => hiBits 18 | .tsStatus _ => hiBits 6 | .launchStatus _ => 0x8080808080808080
  | .luState _ => hiBits 44 | .luLockResult => hiBits 16 | .ksStatus => 0xFE00
  | .dspLink _ => hiBits 9 | .dspSlot _ => hiBits 12 | .dspMsiRoute _ => hiBits 13
  | .dmaEngCtrl _ => 0xFFFFFFFE | .dmaEngStatus _ => 0xFFF00000 | .dmaEngRoute _ => 0xFFFFE000
  | .dmaNext .. | .dmaCurDesc .. | .dmaIdleAt .. | .dmaShNext .. => 0x1E
  | .dmaCfg .. | .dmaShCfg .. => 0xFFFE0000 | .dmaCtrl .. => 0xFFFFFFF8 | .dmaStatus .. => 0xFF80 | .dmaShadow .. => 0xFFFFFFF8
  | .dmaRemain .. => 0xFE000000
  | .spare _ => hiBits 32 | .errRoute => hiBits 13
  | _ => 0

end Sys2Proof
end

