-- ==== Sys2Proof/Machine/RegRead.lean ====
section
/-! DEFINITION. What a register reads as: its fields by the tables of the spec, reserved bits free (R6), and who may
reach it (R3, R60, R61, R193). -/

namespace Sys2Proof.Machine
open Sys2Proof

/-- Bit `k` of a register, where the condition holds. -/
def fb (c : Bool) (k : Nat) : Nat := if c then 2 ^ k else 0

/-- The bits of a list of conditions, the first at bit 0. -/
def bitsOf : List Bool → Nat
  | [] => 0
  | c :: r => (if c then 1 else 0) + 2 * bitsOf r

/-- WQ_CI of a queue: CI, state, kind. -/
def Blk.wqCiReg (b : Blk) (r : WqR) : Nat :=
  (b.wqOf r).ci.toNat + b.wqState r * 2 ^ 16 + b.wqKind r * 2 ^ 20

/-- WQ_ERR_INDEX of a queue. -/
def Blk.wqErrReg (b : Blk) (r : WqR) : Nat := (b.wqOf r).errIndex.toNat + (b.wqOf r).errReason.toNat * 2 ^ 16

/-- CQ_PI of a queue; write_fault as R515 has it. -/
def Blk.cqPiReg (b : Blk) (r : CqR) : Nat :=
  let q := b.cqOf r
  q.pi.toNat + fb (b.cqFull r) 16 + fb q.armed 17 + fb q.ciError 18 + fb ((q.xfault && !q.held.isEmpty) || q.mirrorHeld) 19

/-- EQ_CTRL of an instance's EQ. -/
def Blk.eqCtrlReg (b : Blk) (i e : Nat) : Nat :=
  let q := b.eq i e
  fb q.intEn 0 + fb q.ciError 1 + fb ((q.xfault && !q.held.isEmpty) || q.mirrorHeld) 2 + b.eqVector (.inst i e) * 2 ^ 16

/-- Command (R54). -/
def Fn.command (x : Fn) : Nat := fb x.memEn 1 + fb x.busMaster 2 + fb x.parity 6 + fb x.serr 8 + fb x.intDis 10

/-- Status: Interrupt Status (R68), Capabilities List, PRESUMED from PCI Express at bit 4, and the error bits. -/
def Blk.cfgStatus (b : Blk) (h : Nat) (f1 : Bool) : Nat := fb (b.intSource h f1) 3 + 16 + (b.fn h f1).errStat.toNat

/-- Writable mask of dword `k` of the BARs, 8 for the ROM BAR, and the bits that read 1 beside it (R58). -/
def barMask (f1 : Bool) (k : Nat) : Nat × Nat :=
  match f1, k with
  | _, 0 => (0xFC000000, 4)
  | _, 1 => (0xFFFFFFFF, 0)
  | false, 2 => (0xC0000000, 0xC)
  | false, 3 => (0xFFFFFFFF, 0)
  | true, 2 => (0, 0xC)
  | true, 3 => (0xFFFFFFFC, 0)
  | true, 4 => (0xFFFF0000, 4)
  | true, 5 => (0xFFFFFFFF, 0)
  | false, 8 => (0xFFF00001, 0)
  | _, _ => (0, 0)

/-- A BAR dword as it reads (R58). -/
def Fn.barReg (x : Fn) (f1 : Bool) (k : Nat) : Nat :=
  let v := match k with
    | 0 => x.bar0.toNat % 2 ^ 32
    | 1 => x.bar0.toNat / 2 ^ 32
    | 2 => x.bar2.toNat % 2 ^ 32
    | 3 => x.bar2.toNat / 2 ^ 32
    | 4 => x.bar4.toNat % 2 ^ 32
    | 5 => x.bar4.toNat / 2 ^ 32
    | 8 => x.rom.toNat
    | _ => 0
  (v &&& (barMask f1 k).1) + (barMask f1 k).2

/-- Word `k` of a pending bit array (R72). -/
def Fn.pbaReg (x : Fn) (k : Nat) : Nat := bitsOf ((List.range 32).map (fun j => x.pba.get false (32 * k + j)))

/-- The MSI-X Message Control word: table size, Function Mask, MSI-X Enable (R72). -/
def Fn.msixCtl (x : Fn) (f1 : Bool) : Nat := (if f1 then 0x7FF else 0x1F) + fb x.fnMask 14 + fb x.msixEn 15

/-- BOOT_ID of a port. -/
def Blk.bootIdReg (b : Blk) (h : Nat) : Nat :=
  0xA1 + fb b.mss.fw.running 8 + fb (b.ownerPort == h) 9 + fb (b.loaderAllowed h) 10 + fb b.boot.strapJig 11 +
  b.ownerPort * 2 ^ 12 + b.bootPort * 2 ^ 16 + fb b.boot.strapAny 20

/-- PORT_INFO (R64). -/
def Blk.portInfoReg (b : Blk) (h : Nat) : Nat :=
  h + (halfOfPort h).code * 2 ^ 4 + fb (b.ownerPort == h) 5 + fb (b.x16 h) 6 + fb (b.port h).flit 7 + (b.port h).width.toNat * 2 ^ 8

/-- LOCK_STATUS of an instance (R357). -/
def Blk.lockStatusReg (b : Blk) (i : Nat) : Nat :=
  let h := (b.homeOf i).code
  b.keys.lockReason.get 0 i +
  2 ^ 16 * bitsOf ((List.range 16).map (fun j =>
    let u := b.unit (16 * h + j)
    (u.st == .held || u.st == .releasing) && u.inst == i))

/-- TRIG_VALUE of an instance (R413). -/
def Blk.trigValueReg (b : Blk) (i : Nat) : Nat :=
  let k := b.rmt.trigSel.get 0 i
  if (b.cfg.trig k).life ≠ .absent ∧ (b.cfg.trig k).inst = i then (b.trig k).value else 0

/-- Code of a mailbox state (R457). -/
def mbxCode : MbxSt → Nat
  | .idle => 0
  | .busy => 1
  | .done => 2
  | .reset => 3
  | .lost => 4

/-- Four bytes of a mailbox buffer, dword `k`. -/
def bufWord (t : Tab Byte) (k : Nat) : Nat := natLE ((List.range 4).map (fun j => t.get 0 (4 * k + j)))

/-- THR_STATE's code of a state (R237). -/
def thrCode : ThrSt → Nat
  | .stopped => 0
  | .running => 1
  | .waiting => 2
  | .faulted => 3
  | .halted => 4

/-- THR_STATE of a thread. -/
def Thread.stateReg (x : Thread) : Nat :=
  thrCode x.st + fb x.started 3 + fb x.record 4 + fb (x.st == .waiting && x.wt.armed) 5 +
  fb (x.wt.waitResume && (x.st == .stopped || x.st == .halted)) 6 +
  x.lastCause.toNat * 2 ^ 8

/-- GRP_CTRL of a group. -/
def Blk.grpReg (b : Blk) (g : Nat) : Nat :=
  let x := b.group g
  fb x.enable 0 + fb x.east 1 + fb x.raised 2 + (b.members g).length * 2 ^ 8 + x.episodes * 2 ^ 16

/-- CH_CFG of a channel. -/
def Channel.cfgReg (c : Channel) : Nat :=
  c.receiver.toNat + fb c.enable 9 + c.creditsM1.toNat * 2 ^ 10 + c.rxEvent.toNat * 2 ^ 18 + c.creditEvent.toNat * 2 ^ 24 +
  c.senders.toNat * 2 ^ 29 + c.sender.toNat * 2 ^ 31 + fb c.hw 40 + c.queue.length * 2 ^ 48

/-- PIPE_STATUS of a pipeline. -/
def Blk.pipeStatusReg (b : Blk) (p : Nat) : Nat :=
  (match b.cfg.prog p with
    | some g => 1 + g.crc.toNat * 2 ^ 32
    | none => 0) + (b.pipe p).laneFenced.toNat * 2

/-- LEARN_CFG, LEARN_STATUS, LEARN_FLUSH of a learn unit. -/
def LearnUnit.cfgReg (u : LearnUnit) : Nat :=
  fb u.learnEn 0 + fb u.ageEn 1 + u.hitAction.toNat * 2 ^ 2 + u.moveLimit.toNat * 2 ^ 16 + u.sweepS.toNat * 2 ^ 32
def LearnUnit.statusReg (u : LearnUnit) : Nat :=
  u.entries.length + (u.entries.filter (·.flapping)).length * 2 ^ 20 + fb (u.flGo || !u.flOwn.isEmpty) 39
def LearnUnit.flushReg (u : LearnUnit) : Nat :=
  u.flBd.toNat + fb u.flByBd 14 + u.flPort.toNat * 2 ^ 16 + fb u.flByPort 23 + fb u.flGo 24

/-- ETH_LINK of a lane. -/
def EthLane.linkReg (x : EthLane) : Nat := linkCode x.link + fb x.autoneg 3 + fb x.localFault 4 + fb x.remoteFault 5

/-- TS_CTRL of a lane. -/
def EthLane.tsCtrlReg (x : EthLane) : Nat :=
  fb x.oneStep 0 + fb x.tcCorr 1 + fb x.l2 2 + fb x.udp4 3 + fb x.udp6 4 + x.tThread.toNat * 2 ^ 5 + x.tUnit.toNat * 2 ^ 14 +
  fb x.tEnable 17

/-- Bytes of a transmit timestamp record (R336). -/
def TsRec.bytes (r : TsRec) : List Byte :=
  bytesLE 2 r.id.toNat ++ bytesLE 6 r.sec ++ bytesLE 4 r.nsec ++ bytesLE 2 r.grain ++ bytesLE 1 r.step.toNat ++ [0]

/-- The oldest record's word `k`; 0 with none. -/
def EthLane.tsHead (x : EthLane) (k : Nat) : Nat :=
  match x.ts with
  | [] => 0
  | r :: _ => leAt r.bytes (8 * k) 8

/-- LAUNCH_STATUS of a lane. -/
def EthLane.launchReg (x : EthLane) : Nat :=
  ((List.range 8).map (fun c => (x.launchHeld c).length * 2 ^ (8 * c))).sum

/-- LU_STATE of a unit. -/
def Blk.luReg (b : Blk) (u : Nat) : Nat :=
  let x := b.unit u
  let code := match x.st with
    | .free => 0
    | .held => 1
    | .releasing => 2
    | .fenced => 3
  code + x.inst * 2 ^ 2 + x.thread.toNat * 2 ^ 15 + x.gen.toNat * 2 ^ 24 +
  (if x.st = .held ∨ x.st = .releasing then min 255 (b.unitJobs x.inst u).length else 0) * 2 ^ 36

/-- A route register: thread, unit bit, enable. -/
def routeReg (t : BitVec 9) (u : BitVec 3) (en : Bool) : Nat := t.toNat + u.toNat * 2 ^ 9 + fb en 12

/-- DSP_LINK of a port. -/
def Dsp.linkReg (x : Dsp) : Nat := fb x.dllActive 0 + x.speed.toNat * 2 + x.width.toNat * 2 ^ 4 + fb x.training 7 + fb x.retrain 8

/-- DMA_ACTIVE of an engine. -/
def Dma.activeReg (e : Dma) : Nat :=
  bitsOf ((List.range 32).map (fun c => (e.chans.get {} c).st == .active || (e.chans.get {} c).st == .pausing))

/-- DMA_CH_STATUS of a channel. -/
def Dch.statusReg (x : Dch) : Nat :=
  chCode x.st + fb x.kick 3 + fb x.srcSys 4 + fb x.dstSys 5 + fb x.desc.isSome 6 + x.reason.toNat * 2 ^ 16

/-- SPARE of a half (R490): spares free, and pipelines that run with a lane fenced. -/
def Blk.spareReg (b : Blk) (h : Nat) : Nat :=
  let per := fun (kind width at_ : Nat) => ((List.range 4).map (fun k => b.sparesLeft kind (4 * h + k) * 2 ^ (width * k + at_))).sum
  b.sparesLeft 0 h + per 1 2 2 + per 2 2 10 + per 3 1 18 + b.sparesLeft 4 h * 2 ^ 22 +
  (8 - (b.bridge (h == 0)).spareLanesUsed) * 2 ^ 24 +
  2 ^ 28 * bitsOf ((List.range 4).map (fun k => (b.pipe (4 * h + k)).laneFenced != 0))

/-- A lane's ETH block serves only the first lane of a port that exists (R318). -/
def Blk.laneReg (b : Blk) (l : Nat) (f : EthLane → Nat) : Nat := if (b.cfg.port l).life = .absent then 0 else f (b.lane l)

/-- TB_GRAIN and TB_SEC for a reader: latched, or live (R328). -/
def Blk.grainFor (b : Blk) (w : Who) : Nat :=
  match b.tbLat.find? (fun x => x.1 == w) with
  | some (_, some g, _) => g.toNat
  | _ => b.clk.grainReg.toNat
def Blk.secFor (b : Blk) (w : Who) : Nat :=
  match b.tbLat.find? (fun x => x.1 == w) with
  | some (_, _, s) => s.toNat
  | none => b.clk.secReg.toNat

/-- The thread a reader is; 0 for any other. -/
def whoTid : Who → Nat
  | .thread t => t.val
  | _ => 0

/-- The fields of a register as reader `w` sees them, RSV bits and write-only fields 0. -/
def Blk.regVal (b : Blk) (w : Who) : Reg → Nat
  | .spdMon n =>
    let m := b.spd.mons.get {} n
    m.rate.toNat + monKind n * 2 ^ 16 + monDomain n * 2 ^ 20 + fb m.belowFloor 23
  | .spdDom d =>
    let x := b.spd.doms.get {} d
    x.supplyMv.toNat + x.margin.toNat * 2 ^ 12 + x.slowest.toNat * 2 ^ 20
  | .spdStatus => b.spd.status
  | .spdMiss k => b.spd.miss.toNat / 2 ^ (32 * k) % 2 ^ 32
  | .spdPower => b.spd.inputW.toNat + b.spd.capW.toNat * 2 ^ 16
  | .bootId h => b.bootIdReg h
  | .bootState => b.bootState
  | .bootLoadCtrl h => fb (b.bport h).verifying 0 + fb (b.activating h) 2
  | .bootLoadStatus h => (b.bport h).status.toNat + (b.bport h).winner.toNat * 2 ^ 4 + (b.bport h).verifyUs.toNat * 2 ^ 16
  | .bootEnable _ => fb b.boot.enable 0 + fb b.boot.refused 1
  | .bootRefuse h => (b.bport h).reason.toNat + (b.bport h).source.toNat * 2 ^ 16
  | .ctlWqBase h => (b.port h).ctlWqBase.toNat * 4096
  | .ctlWqCtrl h => fb (b.port h).ctlWqEn 0 + (b.port h).ctlWqLog2.toNat * 2
  | .ctlWqPi h => (b.port h).ctlWq.pi.toNat
  | .ctlWqCi h => b.wqCiReg (.ctl h)
  | .ctlDoorbell _ => 0
  | .ctlWqErr h => b.wqErrReg (.ctl h)
  | .ctlCqBase h => (b.port h).ctlCqBase.toNat * 4096
  | .ctlCqCtrl h => fb (b.port h).ctlCqEn 0 + (b.port h).ctlCqLog2.toNat * 2
  | .ctlCqPi h => b.cqPiReg (.ctl h)
  | .ctlCqCi h => (b.port h).ctlCq.ci.toNat
  | .ctlCqMirror h => fb (b.port h).ctlMirrorEn 0 + (b.port h).ctlMirror.toNat * 4
  | .f0EqBase h => (b.port h).eqBase.toNat * 4096
  | .f0EqCtrl h =>
    let p := b.port h
    fb p.eqEn 0 + p.eqLog2.toNat * 2 + p.eqVector.toNat * 2 ^ 5 + fb p.eq.intEn 10 + fb p.eq.ciError 11
  | .f0EqPi h => (b.port h).eq.pi.toNat
  | .f0EqCi h => (b.port h).eq.ci.toNat
  | .f0EqMirror h => fb (b.port h).eqMirrorEn 0 + (b.port h).eqMirror.toNat * 4
  | .intStatus h => fb (b.port h).f0.inta 0 + fb (b.port h).eq.pending 1
  | .cfgCommand f h => (b.fn h (f != 0)).command + b.cfgStatus h (f != 0) * 2 ^ 16
  | .cfgBar f h k => (b.fn h (f != 0)).barReg (f != 0) k
  | .msixControl f h => (b.fn h (f != 0)).msixCtl (f != 0)
  | .cfgDevCtl2 f h => fb (b.fn h (f != 0)).atomicReq 6 + fb (f == 0 && (b.port h).ltrEn) 10
  | .cfgCacheLine f h => (b.fn h (f != 0)).cacheLine.toNat
  | .cfgIntLine f h => (b.fn h (f != 0)).intLine.toNat + 256
  | .cfgDevCtl f h => (b.fn h (f != 0)).devCtl.toNat
  | .cfgPasidCtl h => fb (b.fn h true).pasidCtl 0
  | .cfgLinkCtl h => fb (b.port h).l1En 1
  | .cfgL1Pm h =>
    fb (b.port h).pl12En 0 + fb (b.port h).pl11En 1 + fb (b.port h).l12En 2 + fb (b.port h).l11En 3 + (b.port h).l12Value.toNat * 2 ^ 16 + (b.port h).l12Scale.toNat * 2 ^ 29
  | .cfgDevCtl3 h => fb (b.port h).l0pEn 3
  | .cfgAerCor f h => if f = 0 then (b.port h).aerCor.toNat else (b.port h).aerCorF1.toNat
  | .cfgAer f h => if f = 0 then (b.port h).aer.toNat else (b.port h).aerF1.toNat
  | .msixAddrLo f h v => ((b.fn h (f != 0)).vecs.get {} v).addr.toNat % 2 ^ 32
  | .msixAddrHi f h v => ((b.fn h (f != 0)).vecs.get {} v).addr.toNat / 2 ^ 32
  | .msixAddr f h v => ((b.fn h (f != 0)).vecs.get {} v).addr.toNat
  | .msixDataMask f h v => ((b.fn h (f != 0)).vecs.get {} v).data.toNat + fb ((b.fn h (f != 0)).vecs.get {} v).mask 32
  | .msixData f h v => ((b.fn h (f != 0)).vecs.get {} v).data.toNat
  | .msixMask f h v => fb ((b.fn h (f != 0)).vecs.get {} v).mask 0
  | .msixPba f h k => (b.fn h (f != 0)).pbaReg k
  | .portInfo h => b.portInfoReg h
  | .portDiscard h => (b.port h).discard
  | .portUnbound h => (b.port h).unbound
  | .doorbell _ => 0
  | .wqPi i q => (b.wq i q).pi.toNat
  | .wqCi i q => b.wqCiReg (.inst i q)
  | .cqCi i q => (b.cq i q).ci.toNat
  | .eqPi i e => (b.eq i e).pi.toNat
  | .eqCi i e => (b.eq i e).ci.toNat
  | .eqCtrl i e => b.eqCtrlReg i e
  | .wqErrIndex i q => b.wqErrReg (.inst i q)
  | .cqPi i q => b.cqPiReg (.inst i q)
  | .instStatus i => b.instState i + (b.inst i).gen.toNat * 2 ^ 4
  | .lock _ => 0
  | .lockStatus i => b.lockStatusReg i
  | .trigSel i => b.rmt.trigSel.get 0 i
  | .trigValue i => b.trigValueReg i
  | .trigAdd _ => 0
  | .mbxCtrl h => fb (b.mssPort (.mailbox ⟨h % 16, Nat.mod_lt _ (by decide)⟩)).doneEv 1
  | .mbxStatus h => mbxCode (b.mss.mbx.get {} h).st + fb b.mss.fw.up 3
  | .sens n => b.sensReg n
  | .mbxReq h k => bufWord (b.mss.mbx.get {} h).req k
  | .mbxResp h k => bufWord (b.mss.mbx.get {} h).resp k
  | .tbNsec => b.clk.nsecReg.toNat
  | .tbGrain => b.grainFor w
  | .tbSec => b.secFor w
  | .mono => b.mono % 2 ^ 64
  | .tbStatus =>
    servoCode b.clk.servo + b.clk.source.toNat * 2 ^ 3 + b.clk.refPair.toNat * 2 ^ 5 + fb b.ppsHere 7 + fb b.refHere 8
  | .tbFreq => unsigned 64 b.clk.freq
  | .tbOffset => unsigned 64 b.clk.offset
  | .servoIn => 0
  | .stepLogOffset k => (b.clk.logOffset.get 0 k).toNat
  | .stepLogMono k => (b.clk.logMono.get 0 k).toNat
  | .thrState t => (b.thread t).stateReg
  | .thrEvpend t => b.evPending t
  | .thrSignal _ => 0
  | .thrGroup t => (b.thread t).group.toNat + fb (b.thread t).member 6
  | .grpCtrl g => b.grpReg g
  | .sup h => (b.fq (.ofBit h)).sup.toNat
  | .fqBase h => fb (b.fq (.ofBit h)).enable 0 + (b.fq (.ofBit h)).base.toNat * 4096
  | .fqPi h => (b.fq (.ofBit h)).pi.toNat
  | .fqCi h => (b.fq (.ofBit h)).ci.toNat
  | .grpSnapId g k =>
    match (b.group g).snap[k]? with
    | some (t, _) => t + fb true 9
    | none => 0
  | .grpSnapMask g k =>
    match (b.group g).snap[k]? with
    | some (_, m) => m.toNat
    | none => 0
  | .chCfg c => (b.chan c).cfgReg
  | .pipeStatus p => b.pipeStatusReg p
  | .pipeCnt p k => (b.pipe p).counts.get 0 k
  | .puntBase p => fb (b.pipe p).puntEnable 0 + (b.pipe p).puntBase.toNat * 4096
  | .puntCtrl p => (b.pipe p).puntLog2.toNat
  | .puntPi p => (b.pipe p).puntPi.toNat
  | .puntCi p => (b.pipe p).puntCi.toNat
  | .pipeDrop p r => (b.pipe p).drops.get 0 r
  | .learnCfg p => (b.pipe p).learn.cfgReg
  | .learnStatus p => (b.pipe p).learn.statusReg
  | .learnFlush p => (b.pipe p).learn.flushReg
  | .learnCnt p k => (b.pipe p).learn.counts.get 0 k
  | .ethLink l => b.laneReg l (·.linkReg)
  | .ethCnt l n => b.laneReg l (fun x => x.counts.get 0 n)
  | .tsCtrl l => b.laneReg l (·.tsCtrlReg)
  | .tsStatus l => b.laneReg l (fun x => x.ts.length + fb x.tsOverflow 5)
  | .tsHead0 l => b.laneReg l (·.tsHead 0)
  | .tsHead1 l => b.laneReg l (·.tsHead 1)
  | .tsPop _ => 0
  | .tsOvfCount l => b.laneReg l (·.tsOvf)
  | .launchStatus l => b.laneReg l (·.launchReg)
  | .launchLate l => b.laneReg l (·.launchLate)
  | .launchRange l => b.laneReg l (·.launchRange)
  | .luState u => b.luReg u
  | .luLock => 0
  | .luLockResult => b.keys.luResult.get 0 (whoTid w)
  | .ksStatus => b.keys.status
  | .rmtCnt h k => b.rmt.counts.get 0 (16 * h + k)
  | .dspLink d => (b.dsport d).linkReg
  | .dspSlot d => (b.dsport d).slotBits
  | .dspMsiRoute d => routeReg (b.dsport d).thread (b.dsport d).unit (b.dsport d).routeEn
  | .dspMsiPend d => (b.dsport d).pend.toNat
  | .dspErr d => (b.dsport d).ur + (b.dsport d).errMsg * 2 ^ 32
  | .dmaEngCtrl _ => 0
  | .dmaEngStatus h => (b.eng h).statusReg
  | .dmaErrAddr h => (b.eng h).errAddr.toNat
  | .dmaActive h => (b.eng h).activeReg
  | .dmaHostMask h => (b.eng h).hostMask.toNat
  | .dmaHaltCount h => (b.eng h).haltCount
  | .dmaEngRoute h => routeReg (b.eng h).rThread (b.eng h).rUnit (b.eng h).rEnable
  | .dmaNext h c => (b.chn h c).next.bits.toNat
  | .dmaCfg h c => (b.chn h c).cfg.bits.toNat
  | .dmaCtrl h c => fb (b.chn h c).enable 0 + fb (b.chn h c).pause 1
  | .dmaKick _ _ => 0
  | .dmaStatus h c => (b.chn h c).statusReg
  | .dmaShadow h c => fb (b.chn h c).arm 0 + fb (b.chn h c).reject 1 + fb (b.chn h c).handed 2
  | .dmaCurDesc h c => (b.chn h c).curDesc.bits.toNat
  | .dmaCurSrc h c => (b.chn h c).curSrc.toNat
  | .dmaCurDst h c => (b.chn h c).curDst.toNat
  | .dmaRemain h c => (b.chn h c).remain.toNat
  | .dmaIdleAt h c => (b.chn h c).idleAt.bits.toNat
  | .dmaDone h c => (b.chn h c).done
  | .dmaShNext h c => (b.chn h c).shNext.bits.toNat
  | .dmaShCfg h c => (b.chn h c).shCfg.bits.toNat
  | .errCorr s h => b.rel.corr.get 0 (32 * h + s)
  | .errUncorr s h => b.rel.uncorr.get 0 (32 * h + s)
  | .spare h => b.spareReg h
  | .errRoute => routeReg b.rel.rThread b.rel.rUnit b.rel.rEnable

/-- How an access of a register meets the part. -/
inductive Gate where
  /-- The register answers. -/
  | pass
  /-- Memory space of the function is closed (R59, R81). -/
  | shut
  /-- The page's instance is not bound to the port (R61). -/
  | unbound
  /-- No register answers there: it reads 0, and a write is discarded. -/
  | none
  deriving DecidableEq, Repr

/-- The gate of BAR registers of a function, given whether the register is one of its own. -/
def Blk.barGate (b : Blk) (h : Nat) (f1 mine : Bool) : Gate :=
  if !mine then .none else if b.memOpen h f1 then .pass else .shut

/-- How an access of a register by `w` meets the part (R3, R59 to R63, R81, R193). -/
def Blk.gate (b : Blk) (w : Who) (r : Reg) : Gate :=
  if !r.ok then .none
  else
    match w, r.place with
    | .f0 h, .cfg f k => if f = 0 ∧ k = h.val ∧ (b.port k).f0.ready ∧ !(b.port k).f0.flr then .pass else .none
    | .f1 h, .cfg f k => if f = 1 ∧ k = h.val ∧ (b.port k).f1.ready ∧ !(b.port k).f1.flr then .pass else .none
    | .f0 h, .f0 k => b.barGate h.val false (k == h.val)
    | .f0 h, .both => b.barGate h.val false true
    | .f0 h, .dma k => if b.barGate h.val false (k == h.val) = .pass ∧ b.ownerPort ≠ h.val then .none
                       else b.barGate h.val false (k == h.val)
    | .f1 h, .f1 k => b.barGate h.val true (k == h.val)
    | .f1 h, .page i => if b.barGate h.val true true = .pass ∧ b.boundTo i h.val = false then .unbound else b.barGate h.val true true
    | .thread _, .dev => .pass
    | .thread _, .both => if r = .bootState then .none else .pass
    | .thread _, .dma _ => .pass
    | .mss, .both => .pass
    | _, _ => .none

/-- The function of a host that an access comes from, as port and number. -/
def whoFn : Who → Option (Nat × Bool)
  | .f0 h => some (h.val, false)
  | .f1 h => some (h.val, true)
  | _ => Option.none

/-- A read that no register answers: Unsupported Request where memory space is closed, zeros elsewhere (R3, R59, R61). -/
def Blk.deadRead (b : Blk) (w : Who) (g : Gate) : Blk :=
  match g, whoFn w with
  | .shut, some (h, f1) => b.closedAccess h f1 false
  | _, _ => b.emit (.readData w 0)

/-- A write that no register takes: discarded, Unsupported Request, or counted (R3, R59, R61, R81). -/
def Blk.deadWrite (b : Blk) (w : Who) (g : Gate) : Blk :=
  match g, whoFn w with
  | .shut, some (h, f1) => b.closedAccess h f1 true
  | .unbound, some (h, _) => b.countUnbound h
  | _, _ => b

/-- The whole value of a register as `w` reads it now, its RSV bits free (R6). -/
def Blk.regWhole (b : Blk) (w : Who) (r : Reg) : Blk × W64 :=
  (if r.rsv = 0 then b else b.drawn 1, rsv64 b.freeVal r.rsv (b.regVal w r))

/-- The part of a register that an access touches. -/
inductive Part where
  /-- All of it: 32 bits, or 64 of a 64-bit register. -/
  | all
  | low
  | high
  deriving DecidableEq, Repr

/-- Leave a pair's entry out of a list of latches. -/
def dropLatch (l : List ((Who × Reg) × W32)) (k : Who × Reg) : List ((Who × Reg) × W32) := l.filter (fun e => e.1 != k)

/-- Read a part of a register that answers: a low word latches the high word, a high word takes the latch (R4); a read
of TB_NSEC latches the rest of the timebase (R328). -/
def Blk.regPart (b : Blk) (w : Who) (r : Reg) (p : Part) : Blk × W64 :=
  let b0 := if r = .tbNsec then b.nsecRead w false else b
  let (b1, v) := b0.regWhole w r
  match p with
  | .all => (b1, v)
  | .low =>
    ({ b1 with hlat := ((w, r), v.extractLsb' 32 32) :: dropLatch b1.hlat (w, r) }, (v.extractLsb' 0 32).setWidth 64)
  | .high =>
    match b1.hlat.find? (fun e => e.1 == (w, r)) with
    | some (_, x) => ({ b1 with hlat := dropLatch b1.hlat (w, r) }, x.setWidth 64)
    | none => (b1, (v.extractLsb' 32 32).setWidth 64)

/-- LOW_WORD_READ: the low word of a 64-bit register, which latches the high word (R4). -/
def Blk.lowRead (b : Blk) (w : Who) (r : Reg) : Blk :=
  if !r.wide then b
  else if b.gate w r = .pass then
    let (b1, v) := b.regPart w r .low
    b1.emit (.readData w v)
  else b.deadRead w (b.gate w r)

/-- TB_NSEC_READ (R328): the value read, and the latches. A wide read returns TB_GRAIN in its high word. -/
def Blk.nsecReadBy (b : Blk) (w : Who) (wide : Bool) : Blk :=
  if b.gate w .tbNsec = .pass then
    if wide then
      let (b1, g) := ({ b with tbLat := b.tbLat.filter (fun x => x.1 != w) } : Blk).regWhole w .tbGrain
      let (b2, n) := b1.regWhole w .tbNsec
      (b2.nsecRead w true).emit (.readData w (n ||| (g <<< 32)))
    else
      let (b1, n) := b.regPart w .tbNsec .all
      b1.emit (.readData w n)
  else b.deadRead w (b.gate w .tbNsec)

end Sys2Proof.Machine
end

