-- ==== Sys2Proof/Machine/ThreadRegs.lean ====
section
/-! DEFINITION. Writes of the registers of the THREAD block (R239): channels, groups, supervisors, fault rings. -/

namespace Sys2Proof.Machine
open Sys2Proof

/-- The measures of groups that `f` brought into deadlock start now, and waits of its receiver are evaluated. -/
def Blk.chanChange (b : Blk) (f : Blk → Blk) : Blk := Blk.remeasure b (f b)

/-- Disabling a channel (R251, R254): messages, staging and reserved credits are discarded, registrations cleared. -/
def Blk.chDisable (b : Blk) (c : Nat) : Blk :=
  let x := b.chan c
  let back := b.reserved c + x.queue.length + x.transit.length
  let b1 : Blk := { b with cores := { b.cores with
    threads := b.cores.threads.mapVals {} (fun _ y => { y.dropStaging c with credits := y.credits.put 0 c 0 }) } }
  let b2 := b1.updChan c (fun y => { y with enable := false, queue := [], transit := [] })
  (if 0 < back then b2.creditsRise c else b2).updChan c (fun y => { y with registered := [] })

/-- The fields of CH_CFG but enable. -/
def Channel.fields (x : Channel) (v : W64) : Channel :=
  { x with receiver := v.extractLsb' 0 9, creditsM1 := v.extractLsb' 10 8, rxEvent := v.extractLsb' 18 5,
           creditEvent := v.extractLsb' 24 5, senders := v.extractLsb' 29 2, sender := v.extractLsb' 31 9, hw := v.getLsbD 40 }

/-- A write of CH_CFG (R254). An enable that would take the credits of the receiver's half past 32,768 is ignored. -/
def Blk.chCfgWrite (b : Blk) (c : Nat) (v : W64) : Blk :=
  let x := b.chan c
  let y := x.fields v
  if x.enable then (if v.getLsbD 9 then b else b.chanChange (·.chDisable c))
  else if v.getLsbD 9 then
    if b.halfCredits (halfOfThread y.receiver.toNat) + y.credits ≤ 32768 then
      b.chanChange (·.updChan c (fun _ => { y with enable := true }))
    else b
  else b.updChan c (fun _ => y)

/-- The measure of a group starts again. -/
def Blk.restartMeasure (b : Blk) (g : Nat) : Blk := b.updGroup g (fun x => { x with measureFrom := b.mono })

/-- A write of THR_GROUP (R259, R260). One that would give a group a 65th member is ignored: member reads 0. -/
def Blk.thrGroupWrite (b : Blk) (t : Nat) (v : W64) : Blk :=
  let x := b.thread t
  let g : BitVec 6 := v.extractLsb' 0 6
  let m := v.getLsbD 6
  let old := fun b : Blk => if x.member then b.restartMeasure x.group.toNat else b
  if m && !(x.member && x.group == g) && 64 ≤ (b.members g.toNat).length then
    old (b.updThread t (fun y => { y with member := false }))
  else
    let b1 := old (b.updThread t (fun y => { y with group := g, member := m }))
    if m then b1.restartMeasure g.toNat else b1

/-- A write of GRP_CTRL (R260): enable and half; ack clears raised; the measure starts again. -/
def Blk.grpCtrlWrite (b : Blk) (g : Nat) (v : W64) : Blk :=
  b.updGroup g (fun x => { x with
    enable := v.getLsbD 0, east := v.getLsbD 1, raised := x.raised && !v.getLsbD 3, measureFrom := b.mono })

/-- A write of SUP (R257): ignored for a thread of the other half. FAULTQ follows the new supervisor. -/
def Blk.supRegWrite (b : Blk) (h : Half) (v : W64) : Blk :=
  let t : BitVec 9 := v.extractLsb' 0 9
  if halfOfThread t.toNat = h then (b.updFq h (fun q => { q with sup := t })).evalWait t.toNat else b

/-- A write of FQ_BASE (R256): the base only while enable is 0; enabling writes the records that wait. -/
def Blk.fqBaseWrite (b : Blk) (h : Half) (v : W64) : Blk :=
  (b.updFq h (fun q => { q with enable := v.getLsbD 0, base := if q.enable then q.base else v.extractLsb' 12 52 })).fqFlush h

/-- The record of an owner is consumed (R256). -/
def Blk.consumed (b : Blk) : RecOwner → Blk
  | .thread t => b.updThread t (fun x => { x with record := false })
  | .group g => b.updGroup g (fun x => { x with record := false })
  | .core _ => b

/-- A write of FQ_CI (R256): records passed are consumed; ignored where it would pass FQ_PI. -/
def Blk.fqCiWrite (b : Blk) (h : Half) (v : W64) : Blk :=
  let q := b.fq h
  let ci : W16 := v.extractLsb' 0 16
  let n := (ci - q.ci).toNat
  if n ≤ (q.pi - q.ci).toNat then
    (q.unconsumed.take n).foldl Blk.consumed (b.updFq h (fun q => { q with ci := ci, unconsumed := q.unconsumed.drop n }))
  else b

/-- A write of THR_SIGNAL: SOFT events of a thread (R245). -/
def Blk.signalWrite (b : Blk) (t : Nat) (v : W64) : Blk :=
  let bitsv := v.toNat / 2 ^ 32 % 2 ^ 16 * 2 ^ 32
  if bitsv = 0 then b else b.latch t bitsv

/-- The deadlock of a group has held for 1 µs and is raised, once (R259, R260). -/
def Blk.deadlockTry (b : Blk) (g : Nat) : Blk :=
  if (b.group g).enable && !(b.group g).raised && b.deadlocked g && decide (b.deadSince g + 1000 ≤ b.mono) then b.deadlockRaise g
  else b

end Sys2Proof.Machine
end

