-- ==== Sys2Proof/WellFormed.lean ====
section
/-! DEFINITION. Which commands are well formed: operand values that the spec allows, beyond what their types say. -/

namespace Sys2Proof
open Sys2Proof.Machine

/-- The thread and the Polward instruction that a command issues, for the rows of chapter 09. -/
def Instr.pol : Instr → Option (Tid × Pol)
  | .add t rd ra rb => some (t, .alu .add rd ra rb)
  | .sub t rd ra rb => some (t, .alu .sub rd ra rb)
  | .and t rd ra rb => some (t, .alu .and_ rd ra rb)
  | .or t rd ra rb => some (t, .alu .or_ rd ra rb)
  | .xor t rd ra rb => some (t, .alu .xor_ rd ra rb)
  | .andn t rd ra rb => some (t, .alu .andn rd ra rb)
  | .sll t rd ra rb => some (t, .alu .sll rd ra rb)
  | .srl t rd ra rb => some (t, .alu .srl rd ra rb)
  | .sra t rd ra rb => some (t, .alu .sra rd ra rb)
  | .ror t rd ra rb => some (t, .alu .ror rd ra rb)
  | .slt t rd ra rb => some (t, .alu .slt rd ra rb)
  | .sltu t rd ra rb => some (t, .alu .sltu rd ra rb)
  | .min t rd ra rb => some (t, .alu .min_ rd ra rb)
  | .max t rd ra rb => some (t, .alu .max_ rd ra rb)
  | .minu t rd ra rb => some (t, .alu .minu rd ra rb)
  | .maxu t rd ra rb => some (t, .alu .maxu rd ra rb)
  | .cmovz t rd ra rb => some (t, .alu .cmovz rd ra rb)
  | .cmovnz t rd ra rb => some (t, .alu .cmovnz rd ra rb)
  | .clz t rd ra => some (t, .alu1 .clz rd ra)
  | .ctz t rd ra => some (t, .alu1 .ctz rd ra)
  | .popc t rd ra => some (t, .alu1 .popc rd ra)
  | .bswap t rd ra => some (t, .alu1 .bswap rd ra)
  | .sextw t rd ra => some (t, .alu1 .sextw rd ra)
  | .addw t rd ra rb => some (t, .aluw .addw rd ra rb)
  | .subw t rd ra rb => some (t, .aluw .subw rd ra rb)
  | .sllw t rd ra rb => some (t, .aluw .sllw rd ra rb)
  | .srlw t rd ra rb => some (t, .aluw .srlw rd ra rb)
  | .sraw t rd ra rb => some (t, .aluw .sraw rd ra rb)
  | .mul t rd ra rb => some (t, .mul .mul rd ra rb)
  | .mulh t rd ra rb => some (t, .mul .mulh rd ra rb)
  | .mulhu t rd ra rb => some (t, .mul .mulhu rd ra rb)
  | .div t rd ra rb => some (t, .mul .div rd ra rb)
  | .divu t rd ra rb => some (t, .mul .divu rd ra rb)
  | .rem t rd ra rb => some (t, .mul .rem rd ra rb)
  | .remu t rd ra rb => some (t, .mul .remu rd ra rb)
  | .mulw t rd ra rb => some (t, .mul .mulw rd ra rb)
  | .addi t rd ra imm => some (t, .imm .addi rd ra imm)
  | .andi t rd ra imm => some (t, .imm .andi rd ra imm)
  | .ori t rd ra imm => some (t, .imm .ori rd ra imm)
  | .xori t rd ra imm => some (t, .imm .xori rd ra imm)
  | .slti t rd ra imm => some (t, .imm .slti rd ra imm)
  | .sltiu t rd ra imm => some (t, .imm .sltiu rd ra imm)
  | .addiw t rd ra imm => some (t, .imm .addiw rd ra imm)
  | .slli t rd ra sh => some (t, .shift .slli rd ra sh)
  | .srli t rd ra sh => some (t, .shift .srli rd ra sh)
  | .srai t rd ra sh => some (t, .shift .srai rd ra sh)
  | .rori t rd ra sh => some (t, .shift .rori rd ra sh)
  | .lui t rd imm => some (t, .lui rd imm)
  | .auipc t rd imm => some (t, .auipc rd imm)
  | .jalr t rd ra imm => some (t, .jalr rd ra imm)
  | .jal t rd disp => some (t, .jal rd disp)
  | .beq t ra rb disp => some (t, .br .beq ra rb disp)
  | .bne t ra rb disp => some (t, .br .bne ra rb disp)
  | .blt t ra rb disp => some (t, .br .blt ra rb disp)
  | .bge t ra rb disp => some (t, .br .bge ra rb disp)
  | .bltu t ra rb disp => some (t, .br .bltu ra rb disp)
  | .bgeu t ra rb disp => some (t, .br .bgeu ra rb disp)
  | .amoSwap t o rd ra rb => some (t, .amo .swap o rd ra rb)
  | .amoAdd t o rd ra rb => some (t, .amo .add o rd ra rb)
  | .amoAnd t o rd ra rb => some (t, .amo .and_ o rd ra rb)
  | .amoOr t o rd ra rb => some (t, .amo .or_ o rd ra rb)
  | .amoXor t o rd ra rb => some (t, .amo .xor_ o rd ra rb)
  | .amoMax t o rd ra rb => some (t, .amo .max_ o rd ra rb)
  | .amoMin t o rd ra rb => some (t, .amo .min_ o rd ra rb)
  | .amoMaxu t o rd ra rb => some (t, .amo .maxu o rd ra rb)
  | .amoMinu t o rd ra rb => some (t, .amo .minu o rd ra rb)
  | .amoCas t o rd ra rb => some (t, .amo .cas o rd ra rb)
  | .fenceLd t => some (t, .fence .ld)
  | .fenceSt t => some (t, .fence .st)
  | .fenceAll t => some (t, .fence .all)
  | .cacheIinv t ra => some (t, .cache .iinv ra)
  | .cachePrefetch t ra => some (t, .cache .prefetch ra)
  | .cacheZero t ra => some (t, .cache .zero ra)
  | .srRd t rd n => some (t, .srRd rd n)
  | .srWr t ra n => some (t, .srWr ra n)
  | .syscall t code => some (t, .syscall code)
  | .break_ t code => some (t, .brk code)
  | .eret t => some (t, .eret)
  | .wait t rd ra timer => some (t, .wait rd ra timer)
  | .chOpen t rd ra n => some (t, .chOpen rd ra n)
  | .chPut t rs ra w => some (t, .chPut rs ra w)
  | .chSend t rd ra len => some (t, .chSend rd ra len)
  | .chRecv t rd ra => some (t, .chRecv rd ra)
  | .chGet t rd ra w => some (t, .chGet rd ra w)
  | .thrCtlStart t rd ra rb => some (t, .thrCtl .start rd ra rb)
  | .thrCtlStop t rd ra rb => some (t, .thrCtl .stop rd ra rb)
  | .thrCtlResume t rd ra rb => some (t, .thrCtl .resume rd ra rb)
  | .hwSt t sz rs ra off => some (t, .hwSt sz rs ra off)
  | .hwFill t rd ra n => some (t, .hwFill rd ra n)
  | .hwSpill t ra n => some (t, .hwSpill ra n)
  | .csumHw t rd ra n => some (t, .csumHw rd ra n)
  | .csumReg t rd ra => some (t, .csumReg rd ra)
  | .crcReg t sz rd ra => some (t, .crcReg sz rd ra)
  | .crcHw t rd ra n => some (t, .crcHw rd ra n)
  | .bfx t rd ra pos wm1 => some (t, .bf .bfx rd ra pos wm1)
  | .bfxs t rd ra pos wm1 => some (t, .bf .bfxs rd ra pos wm1)
  | .bfi t rd ra pos wm1 => some (t, .bf .bfi rd ra pos wm1)
  | .fhash t rd ra rb => some (t, .fhash rd ra rb)
  | .hwLen t rd => some (t, .hwLen rd)
  | .load t sz sx acq rd ra disp => some (t, .load sz sx acq rd ra disp)
  | .store t sz rel rs ra disp => some (t, .store sz rel rs ra disp)
  | .hwLd t sz sx rd ra off => some (t, .hwLd sz sx rd ra off)
  | _ => none

/-- An access is one of those that R3 allows: aligned, 32 bits, or 64 bits of a 64-bit register; TB_NSEC with TB_GRAIN
(R328), and the dwords of an MSI-X table or pending bit array two by two (R72), are accessed together too. -/
def properAccess (r : Reg) (off n : Nat) : Bool :=
  (off == 0 && n == 4) || (r.wide && off == 4 && n == 4) || (r.wide && off == 0 && n == 8) ||
  (match r with
    | .tbNsec | .msixAddrLo .. | .msixData .. => off == 0 && n == 8
    | .msixPba _ _ k => off == 0 && n == 8 && k % 2 == 0
    | .msixAddr .. | .msixDataMask .. => (off == 4 && n == 4) || (off == 0 && n == 8)
    | _ => false)

/-- An answer that holds bytes holds `n` of them. -/
def Ans.has (n : Nat) : Ans → Bool
  | .ok l => l.length == n
  | _ => true

/-- An answer that holds bytes holds at most `n` of them. -/
def Ans.upTo (n : Nat) : Ans → Bool
  | .ok l => decide (l.length ≤ n)
  | _ => true

/-- Bytes of a body fit a message of the MSS (R455). -/
def bodyOk (l : List Byte) : Bool := decide (l.length ≤ 4080)

/-- A command is well formed. -/
def Instr.wf (c : Instr) : Bool :=
  match c.pol with
  | some (_, p) => p.wf
  | none =>
    match c with
    | .registerWrite _ r _ => r.ok
    | .misalignedRegisterAccess _ r off n _ => r.ok && decide (1 ≤ n.val) && !properAccess r off.val n.val
    | .lowWordRead _ r => r.ok && r.wide
    | .highWordWrite _ r _ => r.ok && r.wide
    | .lowWordWrite _ r _ => r.ok && r.wide
    | .illegalInstruction _ w => (decodePol w).isNone
    | .frameReceive _ f _ _ => decide (f.length < 65536)
    | .loadWindowWrite _ off l => decide (off.val + l.length ≤ 1073741824)
    | .wqeFetch _ ans ext => ans.has 64 && ext.upTo 65536
    | .dmaDescRead _ _ ans => (match ans with
        | .ok l => l.length == 32
        | .fail _ => true)
    | .translationWalk _ _ read write _ => read || write
    | .getInfo _ _ l | .getMore _ _ l | .sensorRead _ _ l | .summaryReduced _ _ l | .logRead _ _ l | .logSeal _ _ l
    | .sealRead _ _ l | .resetFunction _ _ l | .resetPort _ _ l | .resetHalf _ _ l | .resetDevice _ _ l _ | .powerOff _ _ l
    | .powerOn _ _ l | .jigEnter _ _ l | .jigExit _ _ l | .keyErase _ _ l | .keyRearm _ _ l | .importOpen _ _ l
    | .importSet _ _ l | .setOwnerPort _ _ l | .setWidth _ _ l | .setMargin _ _ l | .setSupervisor _ _ l
    | .setMgmtAddr _ _ l | .mssWrite _ _ l | .mssSwitch _ _ l | .mssConfirm _ _ l | .attest _ _ l | .getCert _ _ l
    | .activate _ _ l => bodyOk l
    | _ => true

end Sys2Proof
end

