-- ==== Sys2Proof/Machine/RegWrite.lean ====
section
/-! DEFINITION. What a write of a register does, field by field (R6), its staging (R5), and device space as threads
reach it (R193, R320). -/

namespace Sys2Proof.Machine
open Sys2Proof

/-- Replace the low or the high word of a 64-bit value. -/
def word64 (x : W64) (high : Bool) (v : W32) : W64 :=
  if high then (v.setWidth 64 <<< 32) ||| (x.extractLsb' 0 32).setWidth 64
  else ((x.extractLsb' 32 32).setWidth 64 <<< 32) ||| v.setWidth 64

/-- A BAR dword is written: its writable bits (R58). -/
def Fn.barWrite (x : Fn) (f1 : Bool) (k : Nat) (v : W32) : Fn :=
  let m := v &&& BitVec.ofNat 32 (barMask f1 k).1
  match k with
  | 0 => { x with bar0 := word64 x.bar0 false m }
  | 1 => { x with bar0 := word64 x.bar0 true m }
  | 2 => { x with bar2 := word64 x.bar2 false m }
  | 3 => { x with bar2 := word64 x.bar2 true m }
  | 4 => { x with bar4 := word64 x.bar4 false m }
  | 5 => { x with bar4 := word64 x.bar4 true m }
  | 8 => { x with rom := m }
  | _ => x

/-- A write of Command, and of the error bits of Status above it (R54, R69, R78). -/
def Blk.commandWrite (b : Blk) (h : Nat) (f1 : Bool) (v : W32) : Blk :=
  let b1 := b.updFn h f1 (fun x => { x with
    errStat := x.errStat &&& ~~~(v.extractLsb' 16 16), memEn := v.getLsbD 1, parity := v.getLsbD 6, serr := v.getLsbD 8, intDis := v.getLsbD 10 })
  (if (b.fn h f1).busMaster = v.getLsbD 2 then b1 else b1.bmeChange h f1 (v.getLsbD 2)).evalIntx h f1

/-- Commands of the MSS (R454). -/
def mssKnown (cmd : Nat) : Bool :=
  [0x0001, 0x0002, 0x0003, 0x0004, 0x0010, 0x0011, 0x0012, 0x0020, 0x0021, 0x0022, 0x0023, 0x0030, 0x0031, 0x0032, 0x0033,
   0x0040, 0x0050, 0x0051, 0x0052, 0x0060, 0x0061, 0x0070, 0x0080].contains cmd

/-- A write of MBX_CTRL (R456): go submits the request buffer; a command that is not known is refused at once. -/
def Blk.mbxCtrlWrite (b : Blk) (h : PortId) (v : W32) : Blk :=
  let b1 := b.updMssPort (.mailbox h) (fun p => { p with doneEv := v.getLsbD 1 })
  let p := b1.mssPort (.mailbox h)
  if v.getLsbD 0 && p.st != .busy && b.mss.fw.up then
    let b2 := b1.updMssPort (.mailbox h) (fun p => { p with st := .busy })
    let cmd := imgLe p.req 0 2
    if mssKnown cmd then b2
    else (b2.updMssPort (.mailbox h) (fun p => { p with rest := [] })).mssReply (.mailbox h) cmd (BitVec.ofNat 32 (imgLe p.req 4 4)) 0x0102 []
  else b1

/-- A write of the request buffer (R457). -/
def Blk.mbxReqWrite (b : Blk) (h : PortId) (k : Nat) (v : W32) : Blk :=
  b.updMssPort (.mailbox h) (fun p => if p.st = .busy then p else { p with req := memPut p.req (4 * k) (bytesLE 4 v.toNat) })

/-- A write of PUNT_CTRL: size_log2, only while enable is 0. What a value outside 4 to 16 leaves is not stated: a free
value. -/
def Blk.puntCtrlWrite (b : Blk) (p : Nat) (v : W64) : Blk :=
  let n := fieldNat v 0 5
  if (b.pipe p).puntEnable then b
  else if 4 ≤ n ∧ n ≤ 16 then b.updPipe p (fun x => { x with puntLog2 := v.extractLsb' 0 5 })
  else (b.drawn 1).updPipe p (fun x => { x with puntLog2 := b.freeVal.extractLsb' 0 5 })

/-- A write of TS_CTRL. -/
def EthLane.tsCtrlWrite (x : EthLane) (v : W64) : EthLane :=
  { x with oneStep := v.getLsbD 0, tcCorr := v.getLsbD 1, l2 := v.getLsbD 2, udp4 := v.getLsbD 3, udp6 := v.getLsbD 4,
           tThread := v.extractLsb' 5 9, tUnit := v.extractLsb' 14 3, tEnable := v.getLsbD 17 }

/-- A write of the ETH block of a lane: only where it is the first lane of a port that exists. -/
def Blk.laneWrite (b : Blk) (l : Nat) (f : EthLane → EthLane) : Blk :=
  if (b.cfg.port l).life = .absent then b else b.updLane l f

/-- A trigger counter is the instance's (R413). -/
def Blk.ownTrig (b : Blk) (i k : Nat) : Bool := (b.cfg.trig k).life != .absent && (b.cfg.trig k).inst == i

/-- A write of TRIG_ADD (R409, R413). -/
def Blk.trigAddWrite (b : Blk) (i : Nat) (v : W32) : Blk :=
  let k := fieldNat v 0 16
  let n := fieldNat v 16 16
  if b.ownTrig i k ∧ n ≠ 0 then (b.trigInc k n).settleIncs else b

/-- F0 may write channel `c` of its engine only where DMA_HOST_MASK lets it; threads always may. -/
def Blk.dmaOpen (b : Blk) (w : Who) (h c : Nat) : Bool :=
  match w with
  | .f0 _ => (b.eng h).hostMask.getLsbD c
  | _ => true

/-- Registers that software may rewrite only in PAUSED and HALTED (R427, R432). -/
def Dch.rewrite (x : Dch) (f : Dch → Dch) : Dch := if x.st = .paused ∨ x.st = .halted then f x else x

/-- A write of DMA_CH_NEXT: ignored outside DISABLED, IDLE, PAUSED, HALTED and ERROR. -/
def Dch.nextWrite (x : Dch) (v : W64) : Dch :=
  if x.st = .disabled ∨ x.st = .idle ∨ x.st = .error then { x with next := dAddrOf v }
  else x.rewrite (fun x => { x with next := dAddrOf v })

/-- A write of the shadow set: ignored, and noted, while shadow_arm is 1 (R428). -/
def Dch.shWrite (x : Dch) (f : Dch → Dch) : Dch := if x.arm then { x with reject := true } else f x

/-- A write of a register that the writer may reach: `v` holds 32 or 64 bits (R6). -/
def Blk.regWrite (b : Blk) (w : Who) (r : Reg) (v : W64) : Blk :=
  let lo : W32 := v.extractLsb' 0 32
  let owner := match w with
    | .f0 h => b.ownerPort == h.val
    | .mss => true
    | _ => false
  match r with
  | .spdStatus =>
    if owner then { b with spd := { b.spd with
      floorMiss := b.spd.floorMiss && !v.getLsbD 0, capUnmet := b.spd.capUnmet && !v.getLsbD 1 } } else b
  | .spdMiss k =>
    if owner then { b with spd := { b.spd with miss := b.spd.miss &&& ~~~(BitVec.ofNat 96 (lo.toNat * 2 ^ (32 * k))) } } else b
  | .bootLoadCtrl h =>
    let b1 := if v.getLsbD 0 then b.verifyRequest h else b
    let b2 := if v.getLsbD 1 then b1.loadDiscard h else b1
    if v.getLsbD 2 then b2.activateWrite h else b2
  | .bootEnable _ => b.setBoot (fun o => { o with refused := o.refused && !v.getLsbD 1 })
  | .ctlWqBase h => b.updPort h (fun p => if p.ctlWqEn then p else { p with ctlWqBase := v.extractLsb' 12 52 })
  | .ctlWqCtrl h => b.ctlWqWrite h lo
  | .ctlWqPi h => b.wqPiWrite (.ctl h) (v.extractLsb' 0 16)
  | .ctlDoorbell h => b.ring h
  | .ctlCqBase h => b.updPort h (fun p => if p.ctlCqEn then p else { p with ctlCqBase := v.extractLsb' 12 52 })
  | .ctlCqCtrl h => b.ctlCqCtrl h lo
  | .ctlCqPi h => b.updPort h (fun p => { p with ctlCq := { p.ctlCq with ciError := p.ctlCq.ciError && !v.getLsbD 18 } })
  | .ctlCqCi h => (b.cqCiWrite (.ctl h) (v.extractLsb' 0 16) (v.getLsbD 31)).settleIncs
  | .ctlCqMirror h => b.updPort h (fun p => { p with ctlMirrorEn := v.getLsbD 0, ctlMirror := v.extractLsb' 2 62 })
  | .f0EqBase h => b.updPort h (fun p => if p.eqEn then p else { p with eqBase := v.extractLsb' 12 52 })
  | .f0EqCtrl h => b.f0EqCtrl h lo
  | .f0EqCi h => b.eqCiWrite (.f0 h) (v.extractLsb' 0 16)
  | .f0EqMirror h => b.updPort h (fun p => { p with eqMirrorEn := v.getLsbD 0, eqMirror := v.extractLsb' 2 62 })
  | .cfgCommand f h => b.commandWrite h (f != 0) lo
  | .cfgBar f h k => b.updFn h (f != 0) (fun x => x.barWrite (f != 0) k lo)
  | .msixControl f h => (b.maskChange h (f != 0) (.fnMask (v.getLsbD 14))).maskChange h (f != 0) (.enable (v.getLsbD 15))
  | .cfgDevCtl2 f h =>
    let b1 := b.updFn h (f != 0) (fun x => { x with atomicReq := v.getLsbD 6 })
    if f = 0 then b1.updPort h (fun p => { p with ltrEn := v.getLsbD 10 }) else b1
  | .cfgCacheLine f h => b.updFn h (f != 0) (fun x => { x with cacheLine := v.extractLsb' 0 8 })
  | .cfgIntLine f h => b.updFn h (f != 0) (fun x => { x with intLine := v.extractLsb' 0 8 })
  | .cfgDevCtl f h => b.updFn h (f != 0) (fun x => { x with devCtl := v.extractLsb' 0 16 &&& 0x7FFF })
  | .cfgPasidCtl h => b.updFn h true (fun x => { x with pasidCtl := v.getLsbD 0 })
  | .cfgLinkCtl h => b.updPort h (fun p => { p with l1En := v.getLsbD 1 })
  | .cfgL1Pm h => b.updPort h (fun p => { p with
      pl12En := v.getLsbD 0, pl11En := v.getLsbD 1, l12En := v.getLsbD 2, l11En := v.getLsbD 3, l12Value := v.extractLsb' 16 10, l12Scale := v.extractLsb' 29 3 })
  | .cfgDevCtl3 h => b.updPort h (fun p => { p with l0pEn := v.getLsbD 3 })
  | .cfgAer f h => b.updPort h (fun p =>
      if f = 0 then { p with aer := p.aer &&& ~~~lo } else { p with aerF1 := p.aerF1 &&& ~~~lo })
  | .cfgAerCor f h => b.updPort h (fun p =>
      if f = 0 then { p with aerCor := p.aerCor &&& ~~~lo } else { p with aerCorF1 := p.aerCorF1 &&& ~~~lo })
  | .msixAddrLo f h k => b.updFn h (f != 0) (fun x => { x with vecs := x.vecs.upd {} k (fun y => { y with addr := y.addr.extractLsb' 32 32 ++ lo }) })
  | .msixAddrHi f h k => b.updFn h (f != 0) (fun x => { x with vecs := x.vecs.upd {} k (fun y => { y with addr := lo ++ y.addr.extractLsb' 0 32 }) })
  | .msixAddr f h k => b.updFn h (f != 0) (fun x => { x with vecs := x.vecs.upd {} k (fun y => { y with addr := v }) })
  | .msixData f h k => b.updFn h (f != 0) (fun x => { x with vecs := x.vecs.upd {} k (fun y => { y with data := lo }) })
  | .msixMask f h k => b.maskChange h (f != 0) (.vector (Fin.ofNat 2048 k) (v.getLsbD 0))
  | .msixDataMask f h k =>
    (b.updFn h (f != 0) (fun x => { x with vecs := x.vecs.upd {} k (fun y => { y with data := lo }) })).maskChange h (f != 0)
      (.vector (Fin.ofNat 2048 k) (v.getLsbD 32))
  | .doorbell i => b.doorbell i
  | .wqPi i q => b.wqPiWrite (.inst i q) (v.extractLsb' 0 16)
  | .cqCi i q => (b.cqCiWrite (.inst i q) (v.extractLsb' 0 16) (v.getLsbD 31)).settleIncs
  | .cqPi i q => b.updCq i q (fun x => { x with ciError := x.ciError && !v.getLsbD 18 })
  | .eqCi i e => b.eqCiWrite (.inst i e) (v.extractLsb' 0 16)
  | .eqCtrl i e => b.eqCtrlWrite (.inst i e) (v.getLsbD 0) (v.getLsbD 1)
  | .lock i => b.lockWrite i (fieldNat v 0 5) (v.getLsbD 8) (v.getLsbD 9)
  | .trigSel i =>
    let k := fieldNat v 0 16
    if b.ownTrig i k then { b with rmt := { b.rmt with trigSel := b.rmt.trigSel.put 0 i k } } else b
  | .trigAdd i => b.trigAddWrite i lo
  | .mbxCtrl h => b.mbxCtrlWrite (Fin.ofNat 16 h) lo
  | .mbxReq h k => b.mbxReqWrite (Fin.ofNat 16 h) k lo
  | .servoIn =>
    match w with
    | .thread _ => b.servoSample (signed 64 v.toNat)
    | _ => b
  | .thrSignal t => b.signalWrite t v
  | .thrGroup t => b.thrGroupWrite t v
  | .grpCtrl g => b.grpCtrlWrite g v
  | .sup h => b.supRegWrite (.ofBit h) v
  | .fqBase h => b.fqBaseWrite (.ofBit h) v
  | .fqCi h => b.fqCiWrite (.ofBit h) v
  | .chCfg c => b.chCfgWrite c v
  | .puntBase p => b.updPipe p (·.puntBaseWrite v)
  | .puntCtrl p => b.puntCtrlWrite p v
  | .puntCi p => b.updPipe p (·.puntCiWrite lo)
  | .learnCfg p => b.updLearn p (·.cfgWrite v)
  | .learnFlush p => b.updLearn p (·.flushWrite v)
  | .tsCtrl l => b.laneWrite l (·.tsCtrlWrite v)
  | .tsStatus l => b.laneWrite l (fun x => { x with tsOverflow := x.tsOverflow && !v.getLsbD 5 })
  | .tsPop l => b.laneWrite l (fun x => { x with ts := x.ts.drop 1 })
  | .luLock => b.luLockWrite (whoTid w) (fieldNat v 5 13) (fieldNat v 0 5) (v.getLsbD 18) (v.getLsbD 19)
  | .dspLink d => if v.getLsbD 8 then b.dspRetrain d else b
  | .dspSlot d => b.dspSlotWrite d v
  | .dspMsiRoute d => b.updDsp d (fun x => { x with
      thread := v.extractLsb' 0 9, unit := v.extractLsb' 9 3, routeEn := v.getLsbD 12 })
  | .dspMsiPend d => b.updDsp d (fun x => { x with pend := x.pend &&& ~~~v })
  | .dmaEngCtrl h => if v.getLsbD 0 then b.dmaRestart h else b
  | .dmaHostMask h =>
    match w with
    | .thread _ => b.updEng h (fun e => { e with hostMask := lo })
    | _ => b
  | .dmaEngRoute h => b.updEng h (fun e => { e with
      rThread := v.extractLsb' 0 9, rUnit := v.extractLsb' 9 3, rEnable := v.getLsbD 12 })
  | .dmaNext h c => if b.dmaOpen w h c then b.updChn h c (·.nextWrite v) else b
  | .dmaCfg h c => if b.dmaOpen w h c then b.updChn h c (fun x => { x with cfg := chCfgOf lo }) else b
  | .dmaCtrl h c => if b.dmaOpen w h c then b.dmaCtrlWrite h c lo else b
  | .dmaKick h c => if b.dmaOpen w h c then b.dmaKickWrite h c else b
  | .dmaShadow h c => if b.dmaOpen w h c then b.dmaShadowWrite h c lo else b
  | .dmaCurSrc h c => if b.dmaOpen w h c then b.updChn h c (·.rewrite (fun x => { x with curSrc := v })) else b
  | .dmaCurDst h c => if b.dmaOpen w h c then b.updChn h c (·.rewrite (fun x => { x with curDst := v })) else b
  | .dmaRemain h c => if b.dmaOpen w h c then b.updChn h c (·.rewrite (fun x => { x with remain := v.extractLsb' 0 25 })) else b
  | .dmaShNext h c => if b.dmaOpen w h c then b.updChn h c (·.shWrite (fun x => { x with shNext := dAddrOf v })) else b
  | .dmaShCfg h c => if b.dmaOpen w h c then b.updChn h c (·.shWrite (fun x => { x with shCfg := chCfgOf lo })) else b
  | .errRoute => { b with rel := { b.rel with
      rThread := v.extractLsb' 0 9, rUnit := v.extractLsb' 9 3, rEnable := v.getLsbD 12 } }
  | _ => b

/-- The staging latch of a writer and register (R5). -/
def Blk.staged (b : Blk) (w : Who) (r : Reg) : W32 :=
  match b.stg.find? (fun e => e.1 == (w, r)) with
  | some (_, x) => x
  | none => 0

/-- Clear a staging latch: every commit does (R5). -/
def Blk.unstage (b : Blk) (w : Who) (r : Reg) : Blk := { b with stg := dropLatch b.stg (w, r) }

/-- A write of a whole register, or of a part of a 64-bit one (R5), that a register takes. -/
def Blk.partWrite (b : Blk) (w : Who) (r : Reg) (p : Part) (v : W64) : Blk :=
  match p with
  | .all => (b.unstage w r).regWrite w r v
  | .low => (b.unstage w r).regWrite w r (word64 ((b.staged w r).setWidth 64 <<< 32) false (v.extractLsb' 0 32))
  | .high => { b with stg := ((w, r), v.extractLsb' 0 32) :: dropLatch b.stg (w, r) }

/-- A write command: through the gate, to a part that the register has. -/
def Blk.writeBy (b : Blk) (w : Who) (r : Reg) (p : Part) (v : W64) : Blk :=
  if p ≠ .all ∧ r.wide = false then b
  else if b.gate w r = .pass then b.partWrite w r p v
  else b.deadWrite w (b.gate w r)

/-- MISALIGNED_REGISTER_ACCESS: any other access completes; a write is discarded, a read returns 0 (R3). -/
def Blk.oddAccess (b : Blk) (w : Who) (r : Reg) (off n : Nat) (write : Bool) : Blk :=
  if properAccess r off n then b
  else
    let g := b.gate w r
    if write then (if g = .pass then b else b.deadWrite w g) else b.deadRead w g

/-- DMA_CH_CTRL as written. -/
def dmaCtrlBits (enable pause abort : Bool) : W64 := BitVec.ofNat 64 (fb enable 0 + fb pause 1 + fb abort 2)

/-! Device space (R193). -/

/-- The downstream window that an offset of device space lies in: port, offset, configuration window (R320). -/
def dspWindow (x : Nat) : Option (Nat × Nat × Bool) :=
  if 0x40000000 ≤ x ∧ x < 0x60000000 then some ((x - 0x40000000) / 0x4000000, x % 0x4000000, false)
  else if 0x80000000 ≤ x ∧ x < 0x100000000 then some ((x - 0x80000000) / 0x10000000, x % 0x10000000, true)
  else none

/-- What a drive answers a request of firmware with is the drive's: a free choice (R321). -/
inductive DrvAns where
  | ok
  | ur
  | rrs
  deriving DecidableEq, Repr

/-- The answer that a free value gives. -/
def drvAns (v : W64) : DrvAns := if v.toNat % 4 = 0 then .ur else if v.toNat % 4 = 1 then .rrs else .ok

/-- A load by a thread through a window of a drive (R320, R321). Data, and what stands beside 0x0001 after a Request Retry
Status to a Vendor ID, are free; a read refused or past the retry time returns all ones, counted. -/
def Blk.windowRead (b : Blk) (d off : Nat) (cfg : Bool) (n : Nat) : Blk × W64 :=
  let b1 := (b.drawn 2).emit (if cfg then .dsp d off none else .dspMem d off none n)
  let v := (b.drawn 1).freeVal
  match drvAns b.freeVal with
  | .ok => (b1, v)
  | .ur => (b1.dspUr d, BitVec.ofNat 64 (2 ^ 64 - 1))
  | .rrs => if cfg ∧ off % 4096 = 0 then (b1, (v.extractLsb' 16 48) ++ 1#16)
            else (b1.dspUr d, BitVec.ofNat 64 (2 ^ 64 - 1))

/-- A store by a thread through a window of a drive (R320, R321). A configuration write that is refused is counted; a
memory write is posted, and nothing answers it. -/
def Blk.windowWrite (b : Blk) (d off : Nat) (cfg : Bool) (n : Nat) (v : W64) : Blk :=
  if cfg then
    let b1 := (b.drawn 1).emit (.dsp d off (some (v.extractLsb' 0 32)))
    if drvAns b.freeVal = .ok then b1 else b1.dspUr d
  else b.emit (.dspMem d off (some (bytesLE n v.toNat)) n)

/-- A load by a thread from device space, 4 or 8 bytes at an aligned address. With its link down a drive's window reads all
ones, counted (R321). -/
def Blk.spaceRead (b : Blk) (t a n : Nat) : Blk × W64 :=
  let x := a - devBase
  let w : Who := .thread (Fin.ofNat 512 t)
  match dspWindow x with
  | some (d, off, cfg) =>
    if (b.dsport d).dllActive then b.windowRead d off cfg n
    else (b.dspUr d, BitVec.ofNat 64 (2 ^ 64 - 1))
  | none =>
    match devReg x with
    | none => (b, 0)
    | some (r, o) =>
      if b.gate w r ≠ .pass then (b, 0)
      else if r = .tbNsec ∧ o = 0 ∧ n = 8 then
        let (b1, g) := ({ b with tbLat := b.tbLat.filter (fun x => x.1 != w) } : Blk).regWhole w .tbGrain
        let (b2, v) := b1.regWhole w .tbNsec
        (b2.nsecRead w true, v ||| (g <<< 32))
      else if n = 8 then (if r.wide ∧ o = 0 then b.regPart w r .all else (b, 0))
      else if o = 0 then b.regPart w r (if r.wide then .low else .all)
      else if r.wide ∧ o = 4 then b.regPart w r .high
      else (b, 0)

/-- A store by a thread to device space (R193, R320, R321). -/
def Blk.spaceWrite (b : Blk) (t a n : Nat) (v : W64) : Blk :=
  let x := a - devBase
  let w : Who := .thread (Fin.ofNat 512 t)
  match dspWindow x with
  | some (d, off, cfg) =>
    if (b.dsport d).dllActive then b.windowWrite d off cfg n v
    else b.dspUr d
  | none =>
    match devReg x with
    | none => b
    | some (r, o) =>
      if b.gate w r ≠ .pass then b
      else if n = 8 then (if r.wide ∧ o = 0 then b.partWrite w r .all v else b)
      else if o = 0 then b.partWrite w r (if r.wide then .low else .all) v
      else if r.wide ∧ o = 4 then b.partWrite w r .high v
      else b

/-- Device space as the threads' loads and stores reach it. -/
def devBus : DevBus := { read := Blk.spaceRead, write := Blk.spaceWrite }

end Sys2Proof.Machine
end

