-- ==== Sys2Proof/Machine/MeanAlu.lean ====
section
/-! DEFINITION. Meanings of the arithmetic instructions of the Polward cores (chapter 09): each is issued by a thread. -/

namespace Sys2Proof.Machine
open Sys2Proof

/-- ADD (R219): thread `t` issues it. -/
def execAdd (t : Tid) (rd ra rb : GReg) (s : State) : Host.Outcome State Fault Refusal :=
  s.run (fun b => b.issue devBus t.val (.alu .add rd ra rb))

/-- SUB (R219): thread `t` issues it. -/
def execSub (t : Tid) (rd ra rb : GReg) (s : State) : Host.Outcome State Fault Refusal :=
  s.run (fun b => b.issue devBus t.val (.alu .sub rd ra rb))

/-- AND (R219): thread `t` issues it. -/
def execAnd (t : Tid) (rd ra rb : GReg) (s : State) : Host.Outcome State Fault Refusal :=
  s.run (fun b => b.issue devBus t.val (.alu .and_ rd ra rb))

/-- OR (R219): thread `t` issues it. -/
def execOr (t : Tid) (rd ra rb : GReg) (s : State) : Host.Outcome State Fault Refusal :=
  s.run (fun b => b.issue devBus t.val (.alu .or_ rd ra rb))

/-- XOR (R219): thread `t` issues it. -/
def execXor (t : Tid) (rd ra rb : GReg) (s : State) : Host.Outcome State Fault Refusal :=
  s.run (fun b => b.issue devBus t.val (.alu .xor_ rd ra rb))

/-- ANDN (R219): thread `t` issues it. -/
def execAndn (t : Tid) (rd ra rb : GReg) (s : State) : Host.Outcome State Fault Refusal :=
  s.run (fun b => b.issue devBus t.val (.alu .andn rd ra rb))

/-- SLL (R219): thread `t` issues it. -/
def execSll (t : Tid) (rd ra rb : GReg) (s : State) : Host.Outcome State Fault Refusal :=
  s.run (fun b => b.issue devBus t.val (.alu .sll rd ra rb))

/-- SRL (R219): thread `t` issues it. -/
def execSrl (t : Tid) (rd ra rb : GReg) (s : State) : Host.Outcome State Fault Refusal :=
  s.run (fun b => b.issue devBus t.val (.alu .srl rd ra rb))

/-- SRA (R219): thread `t` issues it. -/
def execSra (t : Tid) (rd ra rb : GReg) (s : State) : Host.Outcome State Fault Refusal :=
  s.run (fun b => b.issue devBus t.val (.alu .sra rd ra rb))

/-- ROR (R219): thread `t` issues it. -/
def execRor (t : Tid) (rd ra rb : GReg) (s : State) : Host.Outcome State Fault Refusal :=
  s.run (fun b => b.issue devBus t.val (.alu .ror rd ra rb))

/-- SLT (R219): thread `t` issues it. -/
def execSlt (t : Tid) (rd ra rb : GReg) (s : State) : Host.Outcome State Fault Refusal :=
  s.run (fun b => b.issue devBus t.val (.alu .slt rd ra rb))

/-- SLTU (R219): thread `t` issues it. -/
def execSltu (t : Tid) (rd ra rb : GReg) (s : State) : Host.Outcome State Fault Refusal :=
  s.run (fun b => b.issue devBus t.val (.alu .sltu rd ra rb))

/-- MIN (R219): thread `t` issues it. -/
def execMin (t : Tid) (rd ra rb : GReg) (s : State) : Host.Outcome State Fault Refusal :=
  s.run (fun b => b.issue devBus t.val (.alu .min_ rd ra rb))

/-- MAX (R219): thread `t` issues it. -/
def execMax (t : Tid) (rd ra rb : GReg) (s : State) : Host.Outcome State Fault Refusal :=
  s.run (fun b => b.issue devBus t.val (.alu .max_ rd ra rb))

/-- MINU (R219): thread `t` issues it. -/
def execMinu (t : Tid) (rd ra rb : GReg) (s : State) : Host.Outcome State Fault Refusal :=
  s.run (fun b => b.issue devBus t.val (.alu .minu rd ra rb))

/-- MAXU (R219): thread `t` issues it. -/
def execMaxu (t : Tid) (rd ra rb : GReg) (s : State) : Host.Outcome State Fault Refusal :=
  s.run (fun b => b.issue devBus t.val (.alu .maxu rd ra rb))

/-- CMOVZ (R219): thread `t` issues it. -/
def execCmovz (t : Tid) (rd ra rb : GReg) (s : State) : Host.Outcome State Fault Refusal :=
  s.run (fun b => b.issue devBus t.val (.alu .cmovz rd ra rb))

/-- CMOVNZ (R219): thread `t` issues it. -/
def execCmovnz (t : Tid) (rd ra rb : GReg) (s : State) : Host.Outcome State Fault Refusal :=
  s.run (fun b => b.issue devBus t.val (.alu .cmovnz rd ra rb))

/-- CLZ (R219). -/
def execClz (t : Tid) (rd ra : GReg) (s : State) : Host.Outcome State Fault Refusal :=
  s.run (fun b => b.issue devBus t.val (.alu1 .clz rd ra))

/-- CTZ (R219). -/
def execCtz (t : Tid) (rd ra : GReg) (s : State) : Host.Outcome State Fault Refusal :=
  s.run (fun b => b.issue devBus t.val (.alu1 .ctz rd ra))

/-- POPC (R219). -/
def execPopc (t : Tid) (rd ra : GReg) (s : State) : Host.Outcome State Fault Refusal :=
  s.run (fun b => b.issue devBus t.val (.alu1 .popc rd ra))

/-- BSWAP (R219). -/
def execBswap (t : Tid) (rd ra : GReg) (s : State) : Host.Outcome State Fault Refusal :=
  s.run (fun b => b.issue devBus t.val (.alu1 .bswap rd ra))

/-- SEXTW (R219). -/
def execSextw (t : Tid) (rd ra : GReg) (s : State) : Host.Outcome State Fault Refusal :=
  s.run (fun b => b.issue devBus t.val (.alu1 .sextw rd ra))

/-- ADDW (R219). -/
def execAddw (t : Tid) (rd ra rb : GReg) (s : State) : Host.Outcome State Fault Refusal :=
  s.run (fun b => b.issue devBus t.val (.aluw .addw rd ra rb))

/-- SUBW (R219). -/
def execSubw (t : Tid) (rd ra rb : GReg) (s : State) : Host.Outcome State Fault Refusal :=
  s.run (fun b => b.issue devBus t.val (.aluw .subw rd ra rb))

/-- SLLW (R219). -/
def execSllw (t : Tid) (rd ra rb : GReg) (s : State) : Host.Outcome State Fault Refusal :=
  s.run (fun b => b.issue devBus t.val (.aluw .sllw rd ra rb))

/-- SRLW (R219). -/
def execSrlw (t : Tid) (rd ra rb : GReg) (s : State) : Host.Outcome State Fault Refusal :=
  s.run (fun b => b.issue devBus t.val (.aluw .srlw rd ra rb))

/-- SRAW (R219). -/
def execSraw (t : Tid) (rd ra rb : GReg) (s : State) : Host.Outcome State Fault Refusal :=
  s.run (fun b => b.issue devBus t.val (.aluw .sraw rd ra rb))

/-- MUL (R219). -/
def execMul (t : Tid) (rd ra rb : GReg) (s : State) : Host.Outcome State Fault Refusal :=
  s.run (fun b => b.issue devBus t.val (.mul .mul rd ra rb))

/-- MULH (R219). -/
def execMulh (t : Tid) (rd ra rb : GReg) (s : State) : Host.Outcome State Fault Refusal :=
  s.run (fun b => b.issue devBus t.val (.mul .mulh rd ra rb))

/-- MULHU (R219). -/
def execMulhu (t : Tid) (rd ra rb : GReg) (s : State) : Host.Outcome State Fault Refusal :=
  s.run (fun b => b.issue devBus t.val (.mul .mulhu rd ra rb))

/-- DIV (R219). -/
def execDiv (t : Tid) (rd ra rb : GReg) (s : State) : Host.Outcome State Fault Refusal :=
  s.run (fun b => b.issue devBus t.val (.mul .div rd ra rb))

/-- DIVU (R219). -/
def execDivu (t : Tid) (rd ra rb : GReg) (s : State) : Host.Outcome State Fault Refusal :=
  s.run (fun b => b.issue devBus t.val (.mul .divu rd ra rb))

/-- REM (R219). -/
def execRem (t : Tid) (rd ra rb : GReg) (s : State) : Host.Outcome State Fault Refusal :=
  s.run (fun b => b.issue devBus t.val (.mul .rem rd ra rb))

/-- REMU (R219). -/
def execRemu (t : Tid) (rd ra rb : GReg) (s : State) : Host.Outcome State Fault Refusal :=
  s.run (fun b => b.issue devBus t.val (.mul .remu rd ra rb))

/-- MULW (R219). -/
def execMulw (t : Tid) (rd ra rb : GReg) (s : State) : Host.Outcome State Fault Refusal :=
  s.run (fun b => b.issue devBus t.val (.mul .mulw rd ra rb))

/-- ADDI (R217, R219). -/
def execAddi (t : Tid) (rd ra : GReg) (imm : W16) (s : State) : Host.Outcome State Fault Refusal :=
  s.run (fun b => b.issue devBus t.val (.imm .addi rd ra imm))

/-- ANDI (R217, R219). -/
def execAndi (t : Tid) (rd ra : GReg) (imm : W16) (s : State) : Host.Outcome State Fault Refusal :=
  s.run (fun b => b.issue devBus t.val (.imm .andi rd ra imm))

/-- ORI (R217, R219). -/
def execOri (t : Tid) (rd ra : GReg) (imm : W16) (s : State) : Host.Outcome State Fault Refusal :=
  s.run (fun b => b.issue devBus t.val (.imm .ori rd ra imm))

/-- XORI (R217, R219). -/
def execXori (t : Tid) (rd ra : GReg) (imm : W16) (s : State) : Host.Outcome State Fault Refusal :=
  s.run (fun b => b.issue devBus t.val (.imm .xori rd ra imm))

/-- SLTI (R217, R219). -/
def execSlti (t : Tid) (rd ra : GReg) (imm : W16) (s : State) : Host.Outcome State Fault Refusal :=
  s.run (fun b => b.issue devBus t.val (.imm .slti rd ra imm))

/-- SLTIU (R217, R219). -/
def execSltiu (t : Tid) (rd ra : GReg) (imm : W16) (s : State) : Host.Outcome State Fault Refusal :=
  s.run (fun b => b.issue devBus t.val (.imm .sltiu rd ra imm))

/-- ADDIW (R217, R219). -/
def execAddiw (t : Tid) (rd ra : GReg) (imm : W16) (s : State) : Host.Outcome State Fault Refusal :=
  s.run (fun b => b.issue devBus t.val (.imm .addiw rd ra imm))

/-- SLLI (R219). -/
def execSlli (t : Tid) (rd ra : GReg) (sh : Fin 64) (s : State) : Host.Outcome State Fault Refusal :=
  s.run (fun b => b.issue devBus t.val (.shift .slli rd ra sh))

/-- SRLI (R219). -/
def execSrli (t : Tid) (rd ra : GReg) (sh : Fin 64) (s : State) : Host.Outcome State Fault Refusal :=
  s.run (fun b => b.issue devBus t.val (.shift .srli rd ra sh))

/-- SRAI (R219). -/
def execSrai (t : Tid) (rd ra : GReg) (sh : Fin 64) (s : State) : Host.Outcome State Fault Refusal :=
  s.run (fun b => b.issue devBus t.val (.shift .srai rd ra sh))

/-- RORI (R219). -/
def execRori (t : Tid) (rd ra : GReg) (sh : Fin 64) (s : State) : Host.Outcome State Fault Refusal :=
  s.run (fun b => b.issue devBus t.val (.shift .rori rd ra sh))

end Sys2Proof.Machine
end

