-- ==== Sys2Proof/Machine/PowerOps.lean ====
section
/-! DEFINITION. Power-up (R85, R87, R507), and how an outstanding read of a host port ends at its timeout (R56). -/

namespace Sys2Proof.Machine
open Sys2Proof

/-- VIN reaches 9 V (R85): the straps are sampled, the MSS runs the bank that verifies, the rails come up and the ROM
images are built, with the BOOT record; with no bank that verifies the MSS stays in its ROM and the rails stay down (R87).
PWR_WARN is driven low (R496). -/
def Blk.powerUp (b : Blk) (boot owner : BitVec 4) (any jig : Bool) : Blk :=
  if b.elec.vin then b
  else
    let b1 : Blk := { b with
      elec := { b.elec with vin := true, warnDriven := true },
      boot := { b.boot with strapBoot := boot, strapOwner := owner, strapAny := any, strapJig := jig, jig := jig } }
    let f := b1.mss.fw
    match f.nextBank with
    | none => { b1 with mss := { b1.mss with fw := { f with up := false, inRom := true } } }
    | some bank =>
      let b2 : Blk := { b1 with mss := { b1.mss with fw := { f with up := true, inRom := false, running := bank } } }
      b2.railsUp.reel 1 0 [if bank then 1 else 0, f.version bank, boot.toNat, owner.toNat, if any then 1 else 0, if jig then 1 else 0]

/-- The AER status of Completion Timeout of F0 or F1. PRESUMED: its bit, 14, is that of PCI Express. -/
def Blk.aerTimeout (b : Blk) (h : Nat) (f1 : Bool) : Blk :=
  b.updPort h (fun p => if f1 then { p with aerF1 := p.aerF1 ||| 0x4000#32 } else { p with aer := p.aer ||| 0x4000#32 })

/-- An outstanding read of port `h` ends at its timeout of 10 ms (R56): a bus error to the queue or the walk (R111, R438), a
TIMEOUT stop of the DMA engine (R430). -/
def Blk.timeout (b : Blk) (h : Nat) (r : OutReq) : Blk :=
  match r with
  | .fetch q =>
    let w := qRefWq q
    let b1 := b.settle settleFuel w.scanKey
    let mine := match w with
      | .inst i _ => (b.cfg.inst i).port.toNat == h
      | .ctl k => k == h
      | .mss => false
    if mine && b1.mayFetch w then ((b1.aerTimeout h (match w with
      | .inst _ _ => true
      | _ => false)).entryRead w .busError .busError).settle settleFuel w.scanKey else b
  | .walk i va r w k =>
    if ((b.instCfg i.val).inst i.val).port.toNat = h then (b.aerTimeout h true).walkReturn i.val va.toNat r w none k.val else b
  | .desc c =>
    match (b.chn h c.val).reading with
    | some a => if a.sys then b else (b.aerTimeout h false).descRead h c.val (.fail .timeout)
    | none => b
  | .burst c =>
    if (b.chn h c.val).srcSys || (b.chn h c.val).bursts.isEmpty then b
    else (b.aerTimeout h false).burstData h c.val (.fail .timeout)

end Sys2Proof.Machine
end

