-- ==== Sys2Proof/Machine/Training.lean ====
section
/-! DEFINITION. Units that fail their training or their Jig test: spares, meeting point 2, the state FAILED, the Jig tests
(R20, R88, R89, R99, R100, R485). -/

namespace Sys2Proof.Machine
open Sys2Proof

/-- The number of a failing unit within its kind, as error records and JIG records name it (R100, R489). -/
def unitNumber : FailedUnit → Nat
  | .core c => c.val
  | .inlineUnit p u => 32 * p.val + u.val
  | .exact p k => 32 * p.val + k.val
  | .ternary p k => 16 * p.val + k.val
  | .hogshead h k => 48 * h.code + k.val
  | .bridgeLane e k => 160 * (if e then 0 else 1) + k.val
  | .other _ n _ => n.toNat

/-- The ERROR record of a failing unit (R489), its action left open. -/
def unitBody : FailedUnit → ErrBody
  | .core c => { structure_ := 1, action := actFenced, unit := c.val, half := halfOfCore c.val }
  | .inlineUnit p u => { structure_ := 0x0E, action := actFenced, unit := p.val, half := halfOfPipe p.val, sub := u.val }
  | .exact p k => { structure_ := 9, action := actFenced, unit := p.val, half := halfOfPipe p.val, sub := k.val }
  | .ternary p k => { structure_ := 0x0A, action := actFenced, unit := p.val, half := halfOfPipe p.val, sub := k.val }
  | .hogshead h k => { structure_ := 8, action := actFenced, unit := h.code, half := h, sub := k.val }
  | .bridgeLane e k => { structure_ := 0x10, action := actFenced, unit := if e then 0 else 1, half := txHalf e, sub := k.val }
  | .other s n h => { structure_ := s.toNat, action := actFenced, unit := n.toNat, half := h }

/-- Kind and pool of the spares that could take a failing unit's place (R485); bridge lanes are counted with the bridge. -/
def unitPool : FailedUnit → Option (Nat × Nat)
  | .core c => some (0, (halfOfCore c.val).code)
  | .inlineUnit p _ => some (1, p.val)
  | .exact p _ => some (2, p.val)
  | .ternary p _ => some (3, p.val)
  | .hogshead h _ => some (4, h.code)
  | _ => none

/-- A spare takes the place of a failing unit: the block with it, where one is left (R88, R485). -/
def Blk.spareFor (b : Blk) (u : FailedUnit) : Option (Blk × Nat) :=
  match u, unitPool u with
  | .bridgeLane e _, _ =>
    let d := b.bridge e
    if d.spareLanesUsed < 8 then some (b.setBridge e { d with spareLanesUsed := d.spareLanesUsed + 1 }, 7 - d.spareLanesUsed) else none
  | .core c, some (kind, pool) =>
    if 0 < b.sparesLeft kind pool then
      let b1 := (b.useSpare kind pool).updCore c.val (fun x => { x with spared := true })
      some (b1, b1.sparesLeft kind pool)
    else none
  | _, some (kind, pool) =>
    if 0 < b.sparesLeft kind pool then some (b.useSpare kind pool, (b.useSpare kind pool).sparesLeft kind pool) else none
  | _, none => none

/-- A unit fails its training or its Jig test: a spare takes its place, or its failure is recorded as uncovered, by name in
the Reel and among the error records; whether a spare covers it (R88, R89, R100). -/
def Blk.unitFails (b : Blk) (u : FailedUnit) : Blk × Bool :=
  match b.spareFor u with
  | some (b1, left) => (b1.errorRecord { unitBody u with action := actSpared, spareUsed := true, left := left }, true)
  | none => (b.uncovered (unitBody u), false)

/-- The same for units one after the other; those that no spare covers. -/
def Blk.unitsFail (b : Blk) (us : List FailedUnit) : Blk × List FailedUnit :=
  us.foldl (fun x u =>
    let (b1, covered) := x.1.unitFails u
    (b1, if covered then x.2 else x.2 ++ [u])) (b, [])

/-- Meeting point 2: the data plane has trained, the units that failed on their spares; or a unit failed with no spare, now or
in Jig mode (R20, R88, R100). Instance 0 exists from here (R157, R435). -/
def Blk.dataTrained (b : Blk) (fails : List FailedUnit) : Blk :=
  if b.boot.state ≠ bsTraining then b
  else
    let (b1, left) := b.unitsFail fails
    let b2 := (b.boot.jigFailed.foldl (fun b u => b.uncovered (unitBody u)) b1).setBoot (fun o => { o with jigFailed := [] })
    if left.isEmpty && b.boot.jigFailed.isEmpty then
      let b3 := b2.setBoot (fun o => { o with state := bsTrained, mpWest := o.mpWest ||| 2, mpEast := o.mpEast ||| 2 })
      { b3 with ctl := { b3.ctl with cfg := { b3.ctl.cfg with
          insts := b3.ctl.cfg.insts.put {} 0 { life := .enabled, port := BitVec.ofNat 4 b3.ownerPort } } } }
    else b2.setBoot (fun o => { o with state := bsFailed, trainFailed := true })

/-- The units that a Jig test reports: cores, inline cipher units, others (R100). -/
def jigFails (cores : List CoreId) (units : List (PipeId × Fin 32)) (others : List FailedUnit) : List FailedUnit :=
  cores.map .core ++ (units.map (fun x => .inlineUnit x.1 x.2) ++ others)

/-- A Jig test ends with the units that failed it: its JIG record; spares take the places that they can, a failure that none
covers is kept for the next start-up; the array test leaves the key store erased (R100). The error records carry the same
to the reduced summary. -/
def Blk.jigDone (b : Blk) (i : JigItem) (fails : List FailedUnit) : Blk :=
  if !b.boot.jigLeft.contains (jigCode i) then b
  else
    let (b1, left) := b.unitsFail fails
    let b2 := b1.setBoot (fun o => { o with jigLeft := o.jigLeft.filter (· != jigCode i), jigFailed := o.jigFailed ++ left })
    let b3 := if i = .arrays then
        ((b2.keys.slots.filter (fun s => s.2.cur.isSome || s.2.old.isSome || s.2.next.isSome)).map (·.1)).foldl Blk.eraseSlot b2
      else b2
    b3.reel 3 0 ([jigCode i, if fails.isEmpty then 1 else 0] ++ fails.map unitNumber)

end Sys2Proof.Machine
end

