-- ==== Sys2Proof/Machine/MeanBoot.lean ====
section
/-! DEFINITION. Meanings of the start-up and activation commands (chapter 04). -/

namespace Sys2Proof.Machine
open Sys2Proof

/-- POWER_UP (R85): the straps as sampled (R507). -/
def execPowerUp (boot owner : BitVec 4) (any jig : Bool) (s : State) : Host.Outcome State Fault Refusal :=
  s.run (fun b => b.powerUp boot owner any jig)

/-- BOOT_VERIFY_REQUEST (R93). -/
def execBootVerifyRequest (h : PortId) (s : State) : Host.Outcome State Fault Refusal :=
  s.run (fun b => b.f0Write h.val (·.verifyRequest h.val))

/-- BOOT_VERIFY_COMPLETE (R91): the verify took `us` µs. -/
def execBootVerifyComplete (us : W16) (s : State) : Host.Outcome State Fault Refusal :=
  s.run (fun b => b.verifyComplete us)

/-- BOOT_LOAD_DISCARD (R89). -/
def execBootLoadDiscard (h : PortId) (s : State) : Host.Outcome State Fault Refusal :=
  s.run (fun b => b.f0Write h.val (·.loadDiscard h.val))

/-- DATA_PLANE_TRAINED (R20, R88): the units that failed. -/
def execDataPlaneTrained (fails : List FailedUnit) (s : State) : Host.Outcome State Fault Refusal :=
  s.run (fun b => b.dataTrained fails)

/-- BOOT_ENABLE_REQUEST (R95): `ready` is what the firmware of both halves has reported. -/
def execBootEnableRequest (h : PortId) (ready : Bool) (s : State) : Host.Outcome State Fault Refusal :=
  s.run (fun b => b.f0Write h.val (·.enableRequest h.val ready))

/-- LIVE_ACTIVATE (R97). -/
def execLiveActivate (h : PortId) (s : State) : Host.Outcome State Fault Refusal :=
  s.run (fun b => b.f0Write h.val (·.activateWrite h.val))

/-- ACTIVATION_IMAGE_PLACED (R97). -/
def execActivationImagePlaced (s : State) : Host.Outcome State Fault Refusal :=
  s.run (fun b => b.imagePlaced)

/-- ACTIVATION_THREAD_MOVE (R97). -/
def execActivationThreadMove (h : Half) (s : State) : Host.Outcome State Fault Refusal :=
  s.run (fun b => b.threadMove h)

/-- ACTIVATION_FINISH (R97, R98): half resets held by it follow. -/
def execActivationFinish (s : State) : Host.Outcome State Fault Refusal :=
  s.run (fun b => b.activationEnd.settleResets)

/-- JIG_ENTRY (R99). -/
def execJigEntry (s : State) : Host.Outcome State Fault Refusal :=
  s.run (fun b => b.jigEntry)

/-- JIG_TEST_DONE (R100): the cores, the inline cipher units and the other units that failed it. -/
def execJigTestDone (item : JigItem) (cores : List CoreId) (units : List (PipeId × Fin 32)) (others : List FailedUnit) (s : State) :
    Host.Outcome State Fault Refusal :=
  s.run (fun b => b.jigDone item (jigFails cores units others))

end Sys2Proof.Machine
end

