-- ==== Sys2Proof/Machine/MeanCtl.lean ====
section
/-! DEFINITION. Meanings of the control-program and epoch commands (chapters 01, 06, 07). An instruction of a control queue
acts on the instruction that the queue has fetched, when it is of that opcode. -/

namespace Sys2Proof.Machine
open Sys2Proof

/-- Key of a control queue (R125). -/
def ctlKey : CtlQ → CqKey
  | .ctl h => h.val
  | .inst i => 16 + i.val
  | .mss => mssKey

/-- An instruction of a control queue is handled (R131). -/
def State.instr (s : State) (q : CtlQ) (op : COp) : Host.Outcome State Fault Refusal := s.run (fun b => b.arrive (ctlKey q) op)

/-- BEGIN (R130). -/
def execBegin (q : CtlQ) (s : State) : Host.Outcome State Fault Refusal := s.instr q .begin_

/-- COMMIT (R139). -/
def execCommit (q : CtlQ) (s : State) : Host.Outcome State Fault Refusal := s.instr q .commit

/-- ABORT (R130). -/
def execAbort (q : CtlQ) (s : State) : Host.Outcome State Fault Refusal := s.instr q .abort

/-- FENCE (R130). -/
def execFence (q : CtlQ) (s : State) : Host.Outcome State Fault Refusal := s.instr q .fence

/-- CREATE (R158). -/
def execCreate (q : CtlQ) (s : State) : Host.Outcome State Fault Refusal := s.instr q .create

/-- ENABLE (R159). -/
def execEnable (q : CtlQ) (s : State) : Host.Outcome State Fault Refusal := s.instr q .enable

/-- DISABLE (R160). -/
def execDisable (q : CtlQ) (s : State) : Host.Outcome State Fault Refusal := s.instr q .disable

/-- DESTROY (R160). -/
def execDestroy (q : CtlQ) (s : State) : Host.Outcome State Fault Refusal := s.instr q .destroy

/-- INVALIDATE (R161). -/
def execInvalidate (q : CtlQ) (s : State) : Host.Outcome State Fault Refusal := s.instr q .invalidate

/-- PIPE.LOAD (R162). -/
def execPipeLoad (q : CtlQ) (s : State) : Host.Outcome State Fault Refusal := s.instr q .pipeLoad

/-- TBL.INSERT (R163). -/
def execTblInsert (q : CtlQ) (s : State) : Host.Outcome State Fault Refusal := s.instr q .tblInsert

/-- TBL.DELETE (R163). -/
def execTblDelete (q : CtlQ) (s : State) : Host.Outcome State Fault Refusal := s.instr q .tblDelete

/-- TBL.MODIFY (R163). -/
def execTblModify (q : CtlQ) (s : State) : Host.Outcome State Fault Refusal := s.instr q .tblModify

/-- TBL.QUERY (R165). -/
def execTblQuery (q : CtlQ) (s : State) : Host.Outcome State Fault Refusal := s.instr q .tblQuery

/-- RMT.CONFIG (R166). -/
def execRmtConfig (q : CtlQ) (s : State) : Host.Outcome State Fault Refusal := s.instr q .rmtConfig

/-- QP.CONNECT (R167). -/
def execQpConnect (q : CtlQ) (s : State) : Host.Outcome State Fault Refusal := s.instr q .qpConnect

/-- QP.TUNE (R168). -/
def execQpTune (q : CtlQ) (s : State) : Host.Outcome State Fault Refusal := s.instr q .qpTune

/-- WIN.MODIFY (R169). -/
def execWinModify (q : CtlQ) (s : State) : Host.Outcome State Fault Refusal := s.instr q .winModify

/-- KEY.IMPORT (R170). -/
def execKeyImport (q : CtlQ) (s : State) : Host.Outcome State Fault Refusal := s.instr q .keyImport

/-- KEY.BIND (R172). -/
def execKeyBind (q : CtlQ) (s : State) : Host.Outcome State Fault Refusal := s.instr q .keyBind

/-- KEY.RETIRE (R173). -/
def execKeyRetire (q : CtlQ) (s : State) : Host.Outcome State Fault Refusal := s.instr q .keyRetire

/-- TIME.STEP (R175). -/
def execTimeStep (q : CtlQ) (s : State) : Host.Outcome State Fault Refusal := s.instr q .timeStep

/-- TIME.SERVO (R176). -/
def execTimeServo (q : CtlQ) (s : State) : Host.Outcome State Fault Refusal := s.instr q .timeServo

/-- TIME.SOURCE (R177). -/
def execTimeSource (q : CtlQ) (s : State) : Host.Outcome State Fault Refusal := s.instr q .timeSource

/-- Q.CREATE (R178). -/
def execQCreate (q : CtlQ) (s : State) : Host.Outcome State Fault Refusal := s.instr q .qCreate

/-- Q.ENABLE (R178). -/
def execQEnable (q : CtlQ) (s : State) : Host.Outcome State Fault Refusal := s.instr q .qEnable

/-- Q.DISABLE (R178). -/
def execQDisable (q : CtlQ) (s : State) : Host.Outcome State Fault Refusal := s.instr q .qDisable

/-- Q.DESTROY (R178). -/
def execQDestroy (q : CtlQ) (s : State) : Host.Outcome State Fault Refusal := s.instr q .qDestroy

/-- Q.RESET (R179). -/
def execQReset (q : CtlQ) (s : State) : Host.Outcome State Fault Refusal := s.instr q .qReset

/-- INST.RESIZE (R180). -/
def execInstResize (q : CtlQ) (s : State) : Host.Outcome State Fault Refusal := s.instr q .instResize

/-- INST.ATTACH (R181). -/
def execInstAttach (q : CtlQ) (s : State) : Host.Outcome State Fault Refusal := s.instr q .instAttach

/-- INST.DIRTY.LOG (R182). -/
def execInstDirtyLog (q : CtlQ) (s : State) : Host.Outcome State Fault Refusal := s.instr q .dirtyLog

/-- POOL.SET (R183). -/
def execPoolSet (q : CtlQ) (s : State) : Host.Outcome State Fault Refusal := s.instr q .poolSet

/-- DEV.POWER.CAP (R184). -/
def execDevPowerCap (q : CtlQ) (s : State) : Host.Outcome State Fault Refusal := s.instr q .powerCap

/-- SLOT.CONTROL (R185). -/
def execSlotControl (q : CtlQ) (s : State) : Host.Outcome State Fault Refusal := s.instr q .slotControl

/-- QUERY (R186). -/
def execQuery (q : CtlQ) (s : State) : Host.Outcome State Fault Refusal := s.instr q .query

/-- SUMMARY (R147). -/
def execSummary (q : CtlQ) (s : State) : Host.Outcome State Fault Refusal := s.instr q .summary

/-- R139. -/
def execCommitProceed (s : State) : Host.Outcome State Fault Refusal :=
  s.run (fun b => b.proceed)

/-- R139. -/
def execProgramComplete (q : CtlQ) (res : Ans) (sum : Ans) (s : State) : Host.Outcome State Fault Refusal :=
  s.run (fun b => b.progComplete (ctlKey q) res sum)

/-- R133. -/
def execProgramStalled (q : CtlQ) (s : State) : Host.Outcome State Fault Refusal :=
  s.run (fun b => b.stalled (ctlKey q))

/-- R131. -/
def execInstructionOutsideProgram (q : CtlQ) (s : State) : Host.Outcome State Fault Refusal :=
  s.run (fun b => b.outside (ctlKey q))

/-- R27. -/
def execEpochVisible (u : Fin 72) (e : W64) (s : State) : Host.Outcome State Fault Refusal :=
  s.run (fun b => b.epochVisible u.val e.toNat)

/-- R28. -/
def execEpochRetire (s : State) : Host.Outcome State Fault Refusal :=
  s.run (fun b => b.epochRetire)

/-- R141. -/
def execEpochExpired (s : State) : Host.Outcome State Fault Refusal :=
  s.run (fun b => b.epochExpire)

/-- R23. -/
def execHalfRejoin (h : Half) (s : State) : Host.Outcome State Fault Refusal :=
  s.run (fun b => b.halfRejoin h)

/-- R97. -/
def execActivationBindCommit (s : State) : Host.Outcome State Fault Refusal :=
  s.run (fun b => b.bindImage)

end Sys2Proof.Machine
end

