-- ==== Sys2Proof/Machine/MeanDma.lean ====
section
/-! DEFINITION. Meanings of the commands of the DMA engines (chapter 18), register writes apart. -/

namespace Sys2Proof.Machine
open Sys2Proof

/-- DMA_PAUSE_DRAINED (R427). -/
def execDmaPauseDrained (h : PortId) (c : DmaCh) (s : State) : Host.Outcome State Fault Refusal :=
  s.run (·.pauseDrained h.val c.val)
/-- DMA_DESC_READ (R422). -/
def execDmaDescRead (h : PortId) (c : DmaCh) (ans : DmaAns) (s : State) : Host.Outcome State Fault Refusal :=
  s.run (·.descRead h.val c.val ans)
/-- DMA_BURST_ISSUE (R424). -/
def execDmaBurstIssue (h : PortId) (s : State) : Host.Outcome State Fault Refusal := s.run (·.burstIssue h.val)
/-- DMA_BURST_DATA (R424). -/
def execDmaBurstData (h : PortId) (c : DmaCh) (ans : DmaAns) (s : State) : Host.Outcome State Fault Refusal :=
  s.run (·.burstData h.val c.val ans)
/-- DMA_DESC_COMPLETE (R421). -/
def execDmaDescComplete (h : PortId) (c : DmaCh) (s : State) : Host.Outcome State Fault Refusal :=
  s.run (·.descComplete h.val c.val)
/-- DMA_BUS_ERROR_STOP (R430): a cause met at an address, of a read or, a fault of the fabric, of a write. -/
def execDmaBusErrorStop (h : PortId) (c : StopCause) (addr : W64) (write sys : Bool) (s : State) :
    Host.Outcome State Fault Refusal := s.run (·.dmaBusError h.val c addr.toNat write sys)
/-- DMA_HALTED (R431). -/
def execDmaHalted (h : PortId) (s : State) : Host.Outcome State Fault Refusal := s.run (·.dmaHalted h.val)

end Sys2Proof.Machine
end

