-- ==== Sys2Proof/Machine/MeanFlow.lean ====
section
/-! DEFINITION. Meanings of the control-flow instructions of the Polward cores (chapter 09). -/

namespace Sys2Proof.Machine
open Sys2Proof

/-- LUI. -/
def execLui (t : Tid) (rd : GReg) (imm : W16) (s : State) : Host.Outcome State Fault Refusal :=
  s.run (fun b => b.issue devBus t.val (.lui rd imm))

/-- AUIPC. -/
def execAuipc (t : Tid) (rd : GReg) (imm : W16) (s : State) : Host.Outcome State Fault Refusal :=
  s.run (fun b => b.issue devBus t.val (.auipc rd imm))

/-- JALR (R218). -/
def execJalr (t : Tid) (rd ra : GReg) (imm : W16) (s : State) : Host.Outcome State Fault Refusal :=
  s.run (fun b => b.issue devBus t.val (.jalr rd ra imm))

/-- JAL (R218). -/
def execJal (t : Tid) (rd : GReg) (disp : BitVec 21) (s : State) : Host.Outcome State Fault Refusal :=
  s.run (fun b => b.issue devBus t.val (.jal rd disp))

/-- BEQ (R218). -/
def execBeq (t : Tid) (ra rb : GReg) (disp : W16) (s : State) : Host.Outcome State Fault Refusal :=
  s.run (fun b => b.issue devBus t.val (.br .beq ra rb disp))

/-- BNE (R218). -/
def execBne (t : Tid) (ra rb : GReg) (disp : W16) (s : State) : Host.Outcome State Fault Refusal :=
  s.run (fun b => b.issue devBus t.val (.br .bne ra rb disp))

/-- BLT (R218). -/
def execBlt (t : Tid) (ra rb : GReg) (disp : W16) (s : State) : Host.Outcome State Fault Refusal :=
  s.run (fun b => b.issue devBus t.val (.br .blt ra rb disp))

/-- BGE (R218). -/
def execBge (t : Tid) (ra rb : GReg) (disp : W16) (s : State) : Host.Outcome State Fault Refusal :=
  s.run (fun b => b.issue devBus t.val (.br .bge ra rb disp))

/-- BLTU (R218). -/
def execBltu (t : Tid) (ra rb : GReg) (disp : W16) (s : State) : Host.Outcome State Fault Refusal :=
  s.run (fun b => b.issue devBus t.val (.br .bltu ra rb disp))

/-- BGEU (R218). -/
def execBgeu (t : Tid) (ra rb : GReg) (disp : W16) (s : State) : Host.Outcome State Fault Refusal :=
  s.run (fun b => b.issue devBus t.val (.br .bgeu ra rb disp))

end Sys2Proof.Machine
end

