-- ==== Sys2Proof/Machine/MeanHost.lean ====
section
/-! DEFINITION. Meanings of the host-port commands (chapter 03). -/

namespace Sys2Proof.Machine
open Sys2Proof

/-- PERST_ASSERT (R76). -/
def execPerstAssert (h : PortId) (s : State) : Host.Outcome State Fault Refusal :=
  s.run (fun b => (b.perstAssert h).settleResets)

/-- PERST_RELEASE (R53): the link trains to `w` lanes. -/
def execPerstRelease (h : PortId) (w : BitVec 6) (partner : LinkPartner) (s : State) : Host.Outcome State Fault Refusal :=
  s.run (fun b => b.perstRelease h w.toNat partner.top partner.flit)

/-- FUNCTIONS_READY (R53). -/
def execFunctionsReady (h : PortId) (s : State) : Host.Outcome State Fault Refusal :=
  s.run (fun b => b.fnsReady h.val)

/-- HOT_RESET (R76). -/
def execHotReset (h : PortId) (s : State) : Host.Outcome State Fault Refusal :=
  s.run (fun b => (b.hotReset h).settleResets)

/-- FLR (R80). -/
def execFlr (h : PortId) (f1 : Bool) (s : State) : Host.Outcome State Fault Refusal :=
  s.run (fun b => b.flr h f1)

/-- FLR_COMPLETE (R80): a RESET request that waited for it is answered (R461). -/
def execFlrComplete (h : PortId) (f1 : Bool) (s : State) : Host.Outcome State Fault Refusal :=
  s.run (fun b => (b.flrComplete h f1).settleResets)

/-- SURPRISE_REMOVAL (R82). -/
def execSurpriseRemoval (h : PortId) (s : State) : Host.Outcome State Fault Refusal :=
  s.run (fun b => b.removal h.val)

/-- HOT_INSERTION (R84). -/
def execHotInsertion (h : PortId) (w : BitVec 6) (partner : LinkPartner) (s : State) : Host.Outcome State Fault Refusal :=
  s.run (fun b => b.insertion h.val w.toNat partner.top partner.flit)

/-- BUS_MASTER_ENABLE_CHANGE (R78). -/
def execBusMasterEnableChange (h : PortId) (f1 v : Bool) (s : State) : Host.Outcome State Fault Refusal :=
  s.run (fun b => b.bmeChange h.val f1 v)

/-- MSIX_MASK_CHANGE (R72). -/
def execMsixMaskChange (h : PortId) (f1 : Bool) (m : MaskSet) (s : State) : Host.Outcome State Fault Refusal :=
  s.run (fun b => b.maskChange h.val f1 m)

/-- BAR_ACCESS_UNSERVED (R59). -/
def execBarAccessUnserved (h : PortId) (f1 write : Bool) (n : Fin 4097) (s : State) :
    Host.Outcome State Fault Refusal :=
  s.run (fun b => b.unserved h.val f1 write n.val)

/-- DOORBELL_PAGE_UNBOUND (R61). -/
def execDoorbellPageUnbound (h : PortId) (i : InstId) (write : Bool) (n : Fin 9) (s : State) :
    Host.Outcome State Fault Refusal :=
  s.run (fun b => b.unboundPage h.val i.val write n.val)

/-- APERTURE_ACCESS (R62, R513). -/
def execApertureAccess (h : PortId) (i : InstId) (off : Fin 2097152) (req : MemReq) (s : State) :
    Host.Outcome State Fault Refusal :=
  s.run (fun b => b.aperture h.val i.val off.val req)

/-- LOAD_WINDOW_WRITE (R92, R513): bytes with their enables. -/
def execLoadWindowWrite (h : PortId) (off : Fin 1073741824) (bytes : List (Option Byte)) (s : State) :
    Host.Outcome State Fault Refusal :=
  s.run (fun b => b.loadWindow h.val off.val bytes)

/-- HOST_COMPLETION_RX (R80, R82, R444). -/
def execHostCompletionRx (h : PortId) (inst : Option InstId) (gen : BitVec 12) (lost : Bool) (s : State) :
    Host.Outcome State Fault Refusal :=
  s.run (fun b => b.completionRx h.val inst gen lost)

/-- COMPLETION_TIMEOUT (R56). -/
def execCompletionTimeout (h : PortId) (req : OutReq) (s : State) : Host.Outcome State Fault Refusal :=
  s.run (fun b => b.timeout h.val req)

/-- LINK_L1_ENTRY (R74). -/
def execLinkL1Entry (h : PortId) (pm : LinkPm) (s : State) : Host.Outcome State Fault Refusal :=
  s.run (fun b => b.l1Entry h.val pm)

/-- LINK_L1_EXIT (R74). -/
def execLinkL1Exit (h : PortId) (s : State) : Host.Outcome State Fault Refusal :=
  s.run (fun b => b.l1Exit h.val)

/-- L0P_NARROWING (R74). -/
def execL0pNarrowing (h : PortId) (s : State) : Host.Outcome State Fault Refusal :=
  s.run (fun b => b.l0pNarrow h.val)

/-- L0P_WIDENING (R74). -/
def execL0pWidening (h : PortId) (s : State) : Host.Outcome State Fault Refusal :=
  s.run (fun b => b.l0pWiden h.val)

/-- LTR_IDLE_UPDATE (R75). -/
def execLtrIdleUpdate (h : PortId) (s : State) : Host.Outcome State Fault Refusal :=
  s.run (fun b => b.ltrUpdate h.val false)

/-- LTR_ACTIVE_UPDATE (R75). -/
def execLtrActiveUpdate (h : PortId) (s : State) : Host.Outcome State Fault Refusal :=
  s.run (fun b => b.ltrUpdate h.val true)

/-- D3HOT_CHANGE (R78). -/
def execD3hotChange (h : PortId) (f1 v : Bool) (s : State) : Host.Outcome State Fault Refusal :=
  s.run (fun b => b.d3Change h.val f1 v)

end Sys2Proof.Machine
end

