-- ==== Sys2Proof/Machine/MeanInst.lean ====
section
/-! DEFINITION. Meanings of the instance commands: translation, dirty log, device memory (chapter 19). -/

namespace Sys2Proof.Machine
open Sys2Proof

/-- TRANSLATION_WALK (R438). -/
def execTranslationWalk (i : InstId) (va : W64) (read write : Bool) (e : WalkRead) (s : State) :
    Host.Outcome State Fault Refusal :=
  s.run (fun b => b.walkReturn i.val va.toNat read write e.entry e.epoch.val)

/-- DIRTY_RECORD_WRITE (R446). -/
def execDirtyRecordWrite (i : InstId) (s : State) : Host.Outcome State Fault Refusal :=
  s.run (fun b => b.dirtyWrite i.val)

/-- DIRTY_CI_POLL (R447). -/
def execDirtyCiPoll (i : InstId) (ci : W32) (s : State) : Host.Outcome State Fault Refusal :=
  s.run (fun b => b.dirtyPoll i.val ci)

/-- DEVMEM_ZERO_DONE (R443). -/
def execDevmemZeroDone (h : Half) (k : Fin 8192) (s : State) : Host.Outcome State Fault Refusal :=
  s.run (fun b => b.zeroDone h k.val)

end Sys2Proof.Machine
end

