-- ==== Sys2Proof/Machine/MeanKeys.lean ====
section
/-! DEFINITION. Meanings of the lookaside cipher commands (chapter 15). -/

namespace Sys2Proof.Machine
open Sys2Proof

/-- LOCK_ACQUIRE (R357). -/
def execLockAcquire (h : PortId) (i : InstId) (u : UnitId) (s : State) : Host.Outcome State Fault Refusal :=
  s.run (fun b => b.pageWrite h.val i.val (·.lockWrite i.val u.val true false))

/-- LOCK_RELEASE (R358). -/
def execLockRelease (h : PortId) (i : InstId) (u : UnitId) (s : State) : Host.Outcome State Fault Refusal :=
  s.run (fun b => b.pageWrite h.val i.val (·.lockWrite i.val u.val false true))

/-- LU_LOCK_ACQUIRE (R357). -/
def execLuLockAcquire (t : Tid) (i : InstId) (u : UnitId) (s : State) : Host.Outcome State Fault Refusal :=
  s.run (fun b => b.luLockWrite t.val i.val u.val true false)

/-- LU_LOCK_RELEASE (R357). -/
def execLuLockRelease (t : Tid) (i : InstId) (u : UnitId) (s : State) : Host.Outcome State Fault Refusal :=
  s.run (fun b => b.luLockWrite t.val i.val u.val false true)

/-- LOCK_RELEASE_COMPLETE (R358). -/
def execLockReleaseComplete (u : UnitId) (s : State) : Host.Outcome State Fault Refusal :=
  s.run (fun b => b.releaseUnit u.val)

/-- CIPHER_ENCRYPT (R363): `aad` the authenticated data read, `src` the payload read, `tag` the tag read. -/
def execCipherEncrypt (i : InstId) (q : Fin 64) (aad src tag : Ans) (s : State) : Host.Outcome State Fault Refusal :=
  s.run (fun b => b.cipherStart i.val q.val 0x20 aad src tag)

/-- CIPHER_DECRYPT (R363). -/
def execCipherDecrypt (i : InstId) (q : Fin 64) (aad src tag : Ans) (s : State) : Host.Outcome State Fault Refusal :=
  s.run (fun b => b.cipherStart i.val q.val 0x21 aad src tag)

/-- CIPHER_VERIFY (R361). -/
def execCipherVerify (i : InstId) (q : Fin 64) (aad src tag : Ans) (s : State) : Host.Outcome State Fault Refusal :=
  s.run (fun b => b.cipherStart i.val q.val 0x22 aad src tag)

/-- CIPHER_TAG (R361). -/
def execCipherTag (i : InstId) (q : Fin 64) (aad src tag : Ans) (s : State) : Host.Outcome State Fault Refusal :=
  s.run (fun b => b.cipherStart i.val q.val 0x23 aad src tag)

/-- CIPHER_JOB_DONE (R363): `out` is whether its writes translate. -/
def execCipherJobDone (u : UnitId) (out : Ans) (s : State) : Host.Outcome State Fault Refusal :=
  s.run (fun b => b.cipherDone u.val out)

end Sys2Proof.Machine
end

