-- ==== Sys2Proof/Machine/MeanMem.lean ====
section
/-! DEFINITION. Meanings of the memory instructions of the Polward cores (chapter 09). -/

namespace Sys2Proof.Machine
open Sys2Proof

/-- LOAD (R220). -/
def execLoad (t : Tid) (sz : Sz) (sx acq : Bool) (rd ra : GReg) (disp : BitVec 12) (s : State) :
    Host.Outcome State Fault Refusal :=
  s.run (fun b => b.issue devBus t.val (.load sz sx acq rd ra disp))

/-- STORE (R220). -/
def execStore (t : Tid) (sz : Sz) (rel : Bool) (rs ra : GReg) (disp : BitVec 12) (s : State) :
    Host.Outcome State Fault Refusal :=
  s.run (fun b => b.issue devBus t.val (.store sz rel rs ra disp))

/-- AMO.SWAP (R221). -/
def execAmoSwap (t : Tid) (o : AmoOrd) (rd ra rb : GReg) (s : State) : Host.Outcome State Fault Refusal :=
  s.run (fun b => b.issue devBus t.val (.amo .swap o rd ra rb))

/-- AMO.ADD (R221). -/
def execAmoAdd (t : Tid) (o : AmoOrd) (rd ra rb : GReg) (s : State) : Host.Outcome State Fault Refusal :=
  s.run (fun b => b.issue devBus t.val (.amo .add o rd ra rb))

/-- AMO.AND (R221). -/
def execAmoAnd (t : Tid) (o : AmoOrd) (rd ra rb : GReg) (s : State) : Host.Outcome State Fault Refusal :=
  s.run (fun b => b.issue devBus t.val (.amo .and_ o rd ra rb))

/-- AMO.OR (R221). -/
def execAmoOr (t : Tid) (o : AmoOrd) (rd ra rb : GReg) (s : State) : Host.Outcome State Fault Refusal :=
  s.run (fun b => b.issue devBus t.val (.amo .or_ o rd ra rb))

/-- AMO.XOR (R221). -/
def execAmoXor (t : Tid) (o : AmoOrd) (rd ra rb : GReg) (s : State) : Host.Outcome State Fault Refusal :=
  s.run (fun b => b.issue devBus t.val (.amo .xor_ o rd ra rb))

/-- AMO.MAX (R221). -/
def execAmoMax (t : Tid) (o : AmoOrd) (rd ra rb : GReg) (s : State) : Host.Outcome State Fault Refusal :=
  s.run (fun b => b.issue devBus t.val (.amo .max_ o rd ra rb))

/-- AMO.MIN (R221). -/
def execAmoMin (t : Tid) (o : AmoOrd) (rd ra rb : GReg) (s : State) : Host.Outcome State Fault Refusal :=
  s.run (fun b => b.issue devBus t.val (.amo .min_ o rd ra rb))

/-- AMO.MAXU (R221). -/
def execAmoMaxu (t : Tid) (o : AmoOrd) (rd ra rb : GReg) (s : State) : Host.Outcome State Fault Refusal :=
  s.run (fun b => b.issue devBus t.val (.amo .maxu o rd ra rb))

/-- AMO.MINU (R221). -/
def execAmoMinu (t : Tid) (o : AmoOrd) (rd ra rb : GReg) (s : State) : Host.Outcome State Fault Refusal :=
  s.run (fun b => b.issue devBus t.val (.amo .minu o rd ra rb))

/-- AMO.CAS (R221). -/
def execAmoCas (t : Tid) (o : AmoOrd) (rd ra rb : GReg) (s : State) : Host.Outcome State Fault Refusal :=
  s.run (fun b => b.issue devBus t.val (.amo .cas o rd ra rb))

/-- FENCE_LD (R204, R223). -/
def execFenceLd (t : Tid) (s : State) : Host.Outcome State Fault Refusal :=
  s.run (fun b => b.issue devBus t.val (.fence .ld))

/-- FENCE_ST (R204, R223). -/
def execFenceSt (t : Tid) (s : State) : Host.Outcome State Fault Refusal :=
  s.run (fun b => b.issue devBus t.val (.fence .st))

/-- FENCE_ALL (R204, R223). -/
def execFenceAll (t : Tid) (s : State) : Host.Outcome State Fault Refusal :=
  s.run (fun b => b.issue devBus t.val (.fence .all))

/-- CACHE_IINV (R224). -/
def execCacheIinv (t : Tid) (ra : GReg) (s : State) : Host.Outcome State Fault Refusal :=
  s.run (fun b => b.issue devBus t.val (.cache .iinv ra))

/-- CACHE_PREFETCH (R224). -/
def execCachePrefetch (t : Tid) (ra : GReg) (s : State) : Host.Outcome State Fault Refusal :=
  s.run (fun b => b.issue devBus t.val (.cache .prefetch ra))

/-- CACHE_ZERO (R224). -/
def execCacheZero (t : Tid) (ra : GReg) (s : State) : Host.Outcome State Fault Refusal :=
  s.run (fun b => b.issue devBus t.val (.cache .zero ra))

end Sys2Proof.Machine
end

