-- ==== Sys2Proof/Machine/MeanMss.lean ====
section
/-! DEFINITION. The commands of the management subsystem (chapter 20), but for a debugger's STEP. -/

namespace Sys2Proof.Machine
open Sys2Proof

/-- R456. -/
def execGetMore (via : Transport) (tag : W32) (body : List Byte) (s : State) : Host.Outcome State Fault Refusal :=
  s.run (fun b => b.getMore via tag body)
/-- R464. -/
def execSensorRead (via : Transport) (tag : W32) (body : List Byte) (s : State) : Host.Outcome State Fault Refusal :=
  s.run (fun b => b.sensorRead via tag body)
/-- R468. -/
def execLogRead (via : Transport) (tag : W32) (body : List Byte) (s : State) : Host.Outcome State Fault Refusal :=
  s.run (fun b => b.logRead via tag body)
/-- R470. -/
def execLogSeal (via : Transport) (tag : W32) (body : List Byte) (s : State) : Host.Outcome State Fault Refusal :=
  s.run (fun b => b.logSeal via tag body)
/-- R469. -/
def execSealRead (via : Transport) (tag : W32) (body : List Byte) (s : State) : Host.Outcome State Fault Refusal :=
  s.run (fun b => b.sealRead via tag body)
/-- R461. -/
def execResetFunction (via : Transport) (tag : W32) (body : List Byte) (s : State) : Host.Outcome State Fault Refusal :=
  s.run (fun b => b.resetFunction via tag body)
/-- R461. -/
def execResetPort (via : Transport) (tag : W32) (body : List Byte) (s : State) : Host.Outcome State Fault Refusal :=
  s.run (fun b => b.resetPort via tag body)
/-- R23, R461. -/
def execResetHalf (via : Transport) (tag : W32) (body : List Byte) (s : State) : Host.Outcome State Fault Refusal :=
  s.run (fun b => b.resetHalfMss via tag body)
/-- R22, R461. -/
def execResetDevice (via : Transport) (tag : W32) (body : List Byte) (pin : Bool) (s : State) : Host.Outcome State Fault Refusal :=
  s.run (fun b => b.resetDevice via tag body pin)
/-- R463. -/
def execPowerOff (via : Transport) (tag : W32) (body : List Byte) (s : State) : Host.Outcome State Fault Refusal :=
  s.run (fun b => b.mssPowerOff via tag body)
/-- R463. -/
def execPowerOn (via : Transport) (tag : W32) (body : List Byte) (s : State) : Host.Outcome State Fault Refusal :=
  s.run (fun b => b.mssPowerOn via tag body)
/-- R368. -/
def execKeyErase (via : Transport) (tag : W32) (body : List Byte) (s : State) : Host.Outcome State Fault Refusal :=
  s.run (fun b => b.keyErase via tag body)
/-- R476. -/
def execKeyRearm (via : Transport) (tag : W32) (body : List Byte) (s : State) : Host.Outcome State Fault Refusal :=
  s.run (fun b => b.keyRearm via tag body)
/-- R477. -/
def execImportOpen (via : Transport) (tag : W32) (body : List Byte) (s : State) : Host.Outcome State Fault Refusal :=
  s.run (fun b => b.importOpen via tag body)
/-- R477. -/
def execImportSet (via : Transport) (tag : W32) (body : List Byte) (s : State) : Host.Outcome State Fault Refusal :=
  s.run (fun b => b.importSet via tag body)
/-- R460. -/
def execSetOwnerPort (via : Transport) (tag : W32) (body : List Byte) (s : State) : Host.Outcome State Fault Refusal :=
  s.run (fun b => b.setOwnerPort via tag body)
/-- R458. -/
def execSetWidth (via : Transport) (tag : W32) (body : List Byte) (s : State) : Host.Outcome State Fault Refusal :=
  s.run (fun b => b.setWidth via tag body)
/-- R458. -/
def execSetMargin (via : Transport) (tag : W32) (body : List Byte) (s : State) : Host.Outcome State Fault Refusal :=
  s.run (fun b => b.setMargin via tag body)
/-- R458. -/
def execSetSupervisor (via : Transport) (tag : W32) (body : List Byte) (s : State) : Host.Outcome State Fault Refusal :=
  s.run (fun b => b.setSupervisor via tag body)
/-- R459. -/
def execSetMgmtAddr (via : Transport) (tag : W32) (body : List Byte) (s : State) : Host.Outcome State Fault Refusal :=
  s.run (fun b => b.setMgmtAddr via tag body)
/-- R472. -/
def execMssWrite (via : Transport) (tag : W32) (body : List Byte) (s : State) : Host.Outcome State Fault Refusal :=
  s.run (fun b => b.mssWrite via tag body)
/-- R472. -/
def execMssSwitch (via : Transport) (tag : W32) (body : List Byte) (s : State) : Host.Outcome State Fault Refusal :=
  s.run (fun b => b.mssSwitch via tag body)
/-- R473. -/
def execMssConfirm (via : Transport) (tag : W32) (body : List Byte) (s : State) : Host.Outcome State Fault Refusal :=
  s.run (fun b => b.mssConfirm via tag body)
/-- R475. -/
def execAttest (via : Transport) (tag : W32) (body : List Byte) (s : State) : Host.Outcome State Fault Refusal :=
  s.run (fun b => b.attest via tag body)
/-- R454, its body not laid out. -/
def execGetInfo (via : Transport) (tag : W32) (body : List Byte) (s : State) : Host.Outcome State Fault Refusal :=
  s.run (fun b => b.mssPlain via 0x0001 tag body true (fun b => (b, 0, Config.mssBody 0x0001 b.infoFields)))
/-- R474. -/
def execGetCert (via : Transport) (tag : W32) (body : List Byte) (s : State) : Host.Outcome State Fault Refusal :=
  s.run (fun b => b.mssPlain via 0x0061 tag body true (fun b => (b, 0, Config.certs)))
/-- R466. -/
def execSummaryReduced (via : Transport) (tag : W32) (body : List Byte) (s : State) : Host.Outcome State Fault Refusal :=
  s.run (fun b => b.mssPlain via 0x0004 tag body (b.rank via).owns (fun b => (b, 0, b.summary .device true)))
/-- R99. -/
def execJigEnter (via : Transport) (tag : W32) (body : List Byte) (s : State) : Host.Outcome State Fault Refusal :=
  s.run (fun b => b.mssJig true via tag body)
/-- R99. -/
def execJigExit (via : Transport) (tag : W32) (body : List Byte) (s : State) : Host.Outcome State Fault Refusal :=
  s.run (fun b => b.mssJig false via tag body)
/-- R97. -/
def execActivate (via : Transport) (tag : W32) (body : List Byte) (s : State) : Host.Outcome State Fault Refusal :=
  s.run (fun b => b.mssPlain via 0x0080 tag body (b.rank via).owns (fun b => match b.activate with
    | .ok b1 => (b1, 0, [])
    | .error r => (b, r, [])))
/-- R477. -/
def execImportExchangeTimeout (s : State) : Host.Outcome State Fault Refusal :=
  s.run (fun b => b.importTimeout)
/-- R473. -/
def execMssTrialTimeout (s : State) : Host.Outcome State Fault Refusal :=
  s.run (fun b => b.trialTimeout)
/-- R459. -/
def execMgmtArpRequest (target : W32) (s : State) : Host.Outcome State Fault Refusal :=
  s.run (fun b => b.arpRequest target)
/-- R471. -/
def execMssRestart (s : State) : Host.Outcome State Fault Refusal :=
  s.run (fun b => b.mssRestart)
/-- R471. -/
def execMssReturn (s : State) : Host.Outcome State Fault Refusal :=
  s.run (fun b => b.mssReturn)
/-- R470. -/
def execReelSeal (s : State) : Host.Outcome State Fault Refusal :=
  s.run (fun b => b.reelSeal)
/-- R469. -/
def execReelSealComplete (k : Fin 512) (s : State) : Host.Outcome State Fault Refusal :=
  s.run (fun b => b.sealSigned k.val)
/-- R261. -/
def execDebugHalt (via : Transport) (tag : W32) (t : Tid) (s : State) : Host.Outcome State Fault Refusal :=
  s.run (fun b => b.mssDebug via tag (b.canHalt t.val) (fun b => (b.haltThread t.val, [])))
/-- R261. -/
def execDebugGo (via : Transport) (tag : W32) (t : Tid) (s : State) : Host.Outcome State Fault Refusal :=
  s.run (fun b => b.mssDebug via tag (b.isHalted t.val) (fun b => (b.goThread t.val, [])))
/-- R261, R478, its body not laid out. -/
def execDebugRead (via : Transport) (tag : W32) (t : Tid) (item : DbgItem) (s : State) : Host.Outcome State Fault Refusal :=
  s.run (fun b => b.mssDebug via tag (b.isHalted t.val && dbgReadable item)
    (fun b => (b, Config.mssBody 0x0070 [(b.dbgRead t.val item).toNat])))
/-- R261, R478. -/
def execDebugWrite (via : Transport) (tag : W32) (t : Tid) (item : DbgItem) (v : W64) (s : State) : Host.Outcome State Fault Refusal :=
  s.run (fun b => b.mssDebug via tag (b.isHalted t.val && dbgWritable item) (fun b => (b.dbgWrite t.val item v, [])))
/-- R261. -/
def execDebugChannelCancel (via : Transport) (tag : W32) (t : Tid) (c : ChanId) (s : State) : Host.Outcome State Fault Refusal :=
  s.run (fun b => b.mssDebug via tag (b.isHalted t.val) (fun b => (b.returnCredits t.val c.val, [])))
/-- R478. -/
def execDebugAttach (via : Transport) (tag : W32) (t : Tid) (s : State) : Host.Outcome State Fault Refusal :=
  s.run (fun b => b.mssDebug via tag true (fun b => (b.updThread t.val (fun x => { x with attached := true }), [])))
/-- R478. -/
def execDebugDetach (via : Transport) (tag : W32) (t : Tid) (s : State) : Host.Outcome State Fault Refusal :=
  s.run (fun b => b.mssDebug via tag true (fun b => (b.updThread t.val (fun x => { x with attached := false }), [])))

end Sys2Proof.Machine
end

