-- ==== Sys2Proof/Machine/MeanPipes.lean ====
section
/-! DEFINITION. Meanings of the commands of the packet pipelines, the traffic managers, the ports and the drives
(chapters 11 to 13). -/

namespace Sys2Proof.Machine
open Sys2Proof

/-- FRAME_RECEIVE (R314). -/
def execFrameReceive (l : LaneId) (frame : List Byte) (fcsOk : Bool) (rx : RxLine) (s : State) :
    Host.Outcome State Fault Refusal := s.run (·.frameRx l.val frame fcsOk rx.overrun rx.fec)

/-- PFC_FRAME_RX (R283). -/
def execPfcFrameRx (l : LaneId) (qs : List (Fin 8 × W16)) (s : State) : Host.Outcome State Fault Refusal :=
  s.run (·.pfcRx l.val (qs.map (fun q => (q.1.val, q.2.toNat))))

/-- The quanta of a paused class have run out (R283). -/
def Blk.pauseExpire (b : Blk) (l tc : Nat) : Blk :=
  let q := b.tmq (.port l tc)
  match q.pausedTo with
  | some t => if t ≤ b.mono then b.setTmq { q with pausedTo := none } else b
  | none => b

/-- PFC_PAUSE_EXPIRE (R283). -/
def execPfcPauseExpire (l : LaneId) (tc : Fin 8) (s : State) : Host.Outcome State Fault Refusal :=
  s.run (·.pauseExpire l.val tc.val)

/-- XOFF of a port and priority is repeated once 0x7FFF quanta have passed (R282). -/
def Blk.pfcRepeat (b : Blk) (l prio : Nat) : Blk :=
  match b.hog.xoff.find? (fun x => x.lane == l && x.prio == prio) with
  | none => b
  | some x =>
    if x.since + 0x7FFF * 512 * 1000 / max (portRate (b.cfg.port l)) 1 ≤ b.mono then
      Blk.pfcSend { b with hog := { b.hog with
        xoff := b.hog.xoff.map (fun y => if y = x then { y with since := b.mono } else y) } } l prio 0xFFFF
    else b

/-- PFC_REFRESH (R282). -/
def execPfcRefresh (l : LaneId) (prio : Fin 8) (s : State) : Host.Outcome State Fault Refusal :=
  s.run (·.pfcRepeat l.val prio.val)

/-- PACKET_INGRESS (R25). -/
def execPacketIngress (src : InSrc) (miss : Bool) (s : State) : Host.Outcome State Fault Refusal :=
  s.run (·.ingress src miss)

/-- HBM_TABLE_LOOKUP_RETURN (R272). -/
def execHbmTableLookupReturn (p : PipeId) (s : State) : Host.Outcome State Fault Refusal := s.run (·.hbmReturn p.val)

/-- PACKET_SCHEDULE (R281). -/
def execPacketSchedule (turn : PortTurn) (s : State) : Host.Outcome State Fault Refusal :=
  s.run (·.schedule turn.lane.val turn.miss)

/-- FRAME_TRANSMIT (R40). -/
def execFrameTransmit (l : LaneId) (underrun : Bool) (s : State) : Host.Outcome State Fault Refusal :=
  s.run (·.transmit l.val underrun)

/-- CELL_AGED (R280). -/
def execCellAged (q : TmRef) (s : State) : Host.Outcome State Fault Refusal :=
  match q with
  | .port l tc => s.run (·.ageQueue (.port l.val tc.val))
  | .deliver i w => s.run (·.ageQueue (.deliver i.val w.val))
  | .rmt h => s.run (·.ageEngine h)

/-- HOST_DELIVERY (R286). -/
def execHostDelivery (h : PortId) (ans : Ans) (s : State) : Host.Outcome State Fault Refusal :=
  s.run (·.deliver h.val ans)

/-- BRIDGE_CELL_TRANSFER (R278). -/
def execBridgeCellTransfer (h : Half) (s : State) : Host.Outcome State Fault Refusal := s.run (·.bridgeTransfer h)

/-- LEARN_APPLY (R299). -/
def execLearnApply (p : PipeId) (s : State) : Host.Outcome State Fault Refusal := s.run (·.learnApply p.val)

/-- SWEEPER_VISIT (R302). -/
def execSweeperVisit (p : PipeId) (slot : Fin 262144) (s : State) : Host.Outcome State Fault Refusal :=
  s.run (fun b => b.updLearn p.val (·.sweep b.mono slot.val))

/-- LEARN_FLUSH_END (R304). -/
def execLearnFlushEnd (p : PipeId) (s : State) : Host.Outcome State Fault Refusal :=
  s.run (·.updLearn p.val (·.flushEnd))

/-- A link state by its code. -/
def linkOf (c : Fin 6) : LinkSt :=
  match c with
  | 0 => .disabled
  | 1 => .negotiating
  | 2 => .training
  | 3 => .up
  | 4 => .fault
  | 5 => .down

/-- LINK_STATE_CHANGE (R312). -/
def execLinkStateChange (l : LaneId) (st : Fin 6) (autoneg localFault remoteFault : Bool) (s : State) :
    Host.Outcome State Fault Refusal := s.run (·.linkChange l.val (linkOf st) autoneg localFault remoteFault)

/-- AUTONEG_TIMEOUT (R312). -/
def execAutonegTimeout (l : LaneId) (s : State) : Host.Outcome State Fault Refusal := s.run (·.autonegTimeout l.val)

/-- LINK_RETRY (R317). -/
def execLinkRetry (l : LaneId) (s : State) : Host.Outcome State Fault Refusal := s.run (·.linkRetry l.val)

/-- DS_PRESENCE_CHANGE (R324). -/
def execDsPresenceChange (d : DspId) (present : Bool) (s : State) : Host.Outcome State Fault Refusal :=
  s.run (·.presence d.val present)

/-- DS_ATTN_BUTTON (R323). -/
def execDsAttnButton (d : DspId) (s : State) : Host.Outcome State Fault Refusal := s.run (·.attnButton d.val)

/-- DS_DLL_CHANGE (R323). -/
def execDsDllChange (d : DspId) (up : Bool) (speed width : BitVec 3) (s : State) : Host.Outcome State Fault Refusal :=
  s.run (·.dllChange d.val up speed width)

/-- DS_PERST_RELEASE (R324). -/
def execDsPerstRelease (d : DspId) (s : State) : Host.Outcome State Fault Refusal := s.run (·.dsPerstRelease d.val)

/-- DSP_CONFIG_ACCESS (R321). -/
def execDspConfigAccess (d : DspId) (off : BitVec 28) (write : Option W32) (resp : CfgResp) (s : State) :
    Host.Outcome State Fault Refusal := s.run (·.dsConfig d.val off.toNat write resp)

/-- DS_MSI_WRITE (R322). -/
def execDsMsiWrite (d : DspId) (v : Fin 64) (s : State) : Host.Outcome State Fault Refusal := s.run (·.dsMsi d.val v.val)

/-- DS_MEMORY_REQUEST (R322). -/
def execDsMemoryRequest (d : DspId) (req : DsReq) (s : State) : Host.Outcome State Fault Refusal :=
  s.run (·.dsMemory d.val req)

/-- DS_ERR_MESSAGE (R322). -/
def execDsErrMessage (d : DspId) (s : State) : Host.Outcome State Fault Refusal :=
  s.run (·.updDsp d.val (fun x => { x with errMsg := sat32 x.errMsg 1 }))

end Sys2Proof.Machine
end

