-- ==== Sys2Proof/Machine/MeanPkt.lean ====
section
/-! DEFINITION. Meanings of the packet instructions of the Polward cores (chapter 09). -/

namespace Sys2Proof.Machine
open Sys2Proof

/-- HW.LD (R230, R231). -/
def execHwLd (t : Tid) (sz : Sz) (sx : Bool) (rd ra : GReg) (off : Fin 512) (s : State) :
    Host.Outcome State Fault Refusal :=
  s.run (fun b => b.issue devBus t.val (.hwLd sz sx rd ra off))

/-- HW.ST (R230, R231). -/
def execHwSt (t : Tid) (sz : Sz) (rs ra : GReg) (off : Fin 512) (s : State) : Host.Outcome State Fault Refusal :=
  s.run (fun b => b.issue devBus t.val (.hwSt sz rs ra off))

/-- HW.FILL (R232). -/
def execHwFill (t : Tid) (rd ra : GReg) (n : Fin 1024) (s : State) : Host.Outcome State Fault Refusal :=
  s.run (fun b => b.issue devBus t.val (.hwFill rd ra n))

/-- HW.SPILL (R232). -/
def execHwSpill (t : Tid) (ra : GReg) (n : Fin 1024) (s : State) : Host.Outcome State Fault Refusal :=
  s.run (fun b => b.issue devBus t.val (.hwSpill ra n))

/-- CSUM.HW (R233). -/
def execCsumHw (t : Tid) (rd ra : GReg) (n : Fin 1024) (s : State) : Host.Outcome State Fault Refusal :=
  s.run (fun b => b.issue devBus t.val (.csumHw rd ra n))

/-- CSUM.REG (R233). -/
def execCsumReg (t : Tid) (rd ra : GReg) (s : State) : Host.Outcome State Fault Refusal :=
  s.run (fun b => b.issue devBus t.val (.csumReg rd ra))

/-- CRC.REG (R234). -/
def execCrcReg (t : Tid) (sz : Sz) (rd ra : GReg) (s : State) : Host.Outcome State Fault Refusal :=
  s.run (fun b => b.issue devBus t.val (.crcReg sz rd ra))

/-- CRC.HW (R234). -/
def execCrcHw (t : Tid) (rd ra : GReg) (n : Fin 1024) (s : State) : Host.Outcome State Fault Refusal :=
  s.run (fun b => b.issue devBus t.val (.crcHw rd ra n))

/-- BFX (R235). -/
def execBfx (t : Tid) (rd ra : GReg) (pos wm1 : Fin 64) (s : State) : Host.Outcome State Fault Refusal :=
  s.run (fun b => b.issue devBus t.val (.bf .bfx rd ra pos wm1))

/-- BFXS (R235). -/
def execBfxs (t : Tid) (rd ra : GReg) (pos wm1 : Fin 64) (s : State) : Host.Outcome State Fault Refusal :=
  s.run (fun b => b.issue devBus t.val (.bf .bfxs rd ra pos wm1))

/-- BFI (R235). -/
def execBfi (t : Tid) (rd ra : GReg) (pos wm1 : Fin 64) (s : State) : Host.Outcome State Fault Refusal :=
  s.run (fun b => b.issue devBus t.val (.bf .bfi rd ra pos wm1))

/-- FHASH (R236). -/
def execFhash (t : Tid) (rd ra rb : GReg) (s : State) : Host.Outcome State Fault Refusal :=
  s.run (fun b => b.issue devBus t.val (.fhash rd ra rb))

/-- HW.LEN (R230). -/
def execHwLen (t : Tid) (rd : GReg) (s : State) : Host.Outcome State Fault Refusal :=
  s.run (fun b => b.issue devBus t.val (.hwLen rd))

end Sys2Proof.Machine
end

