-- ==== Sys2Proof/Machine/MeanQueue.lean ====
section
/-! DEFINITION. Meanings of the queue commands (chapter 05). -/

namespace Sys2Proof.Machine
open Sys2Proof

/-- DOORBELL (R107). -/
def execDoorbell (h : PortId) (i : InstId) (s : State) : Host.Outcome State Fault Refusal :=
  s.run (fun b => b.pageWrite h.val i.val (·.doorbell i.val))

/-- CTL_DOORBELL (R107, R123). -/
def execCtlDoorbell (h : PortId) (s : State) : Host.Outcome State Fault Refusal :=
  s.run (fun b => b.f0Write h.val (·.ring h.val))

/-- WQE_FETCH (R108): `ans` is the entry as read, `ext` a control instruction's extension data. -/
def execWqeFetch (q : QRef) (ans ext : Ans) (s : State) : Host.Outcome State Fault Refusal :=
  s.run (fun b => b.fetchEntry (qRefWq q) ans ext)

/-- WQ_PI_WRITE (R105). -/
def execWqPiWrite (h : PortId) (i : InstId) (q : Fin 64) (v : W32) (s : State) : Host.Outcome State Fault Refusal :=
  s.run (fun b => b.pageWrite h.val i.val (fun b => b.wqPiWrite (.inst i.val q.val) (v.setWidth 16)))

/-- CQ_CI_WRITE (R106, R120). -/
def execCqCiWrite (h : PortId) (i : InstId) (q : Fin 64) (v : W32) (s : State) : Host.Outcome State Fault Refusal :=
  s.run (fun b => b.pageWrite h.val i.val (fun b => (b.cqCiWrite (.inst i.val q.val) (v.setWidth 16) (v.getLsbD 31)).settleIncs))

/-- EQ_CI_WRITE (R106, R121). -/
def execEqCiWrite (h : PortId) (i : InstId) (e : Fin 8) (v : W32) (s : State) : Host.Outcome State Fault Refusal :=
  s.run (fun b => b.pageWrite h.val i.val (fun b => b.eqCiWrite (.inst i.val e.val) (v.setWidth 16)))

/-- EQ_CTRL_WRITE (R122). -/
def execEqCtrlWrite (h : PortId) (i : InstId) (e : Fin 8) (v : W32) (s : State) : Host.Outcome State Fault Refusal :=
  s.run (fun b => b.pageWrite h.val i.val (fun b => b.eqCtrlWrite (.inst i.val e.val) (v.getLsbD 0) (v.getLsbD 1)))

/-- QUEUE_RESUME (R109). -/
def execQueueResume (q : QRef) (s : State) : Host.Outcome State Fault Refusal :=
  s.run (fun b => b.resume (qRefWq q))

/-- FENCED_ENTRY_START (R109). -/
def execFencedEntryStart (i : InstId) (q : Fin 64) (s : State) : Host.Outcome State Fault Refusal :=
  s.run (fun b => b.fenceStart i.val q.val)

/-- COMPLETION_WRITE_FAULT (R515): the next write of CQ or EQ `q`, or of its mirror. -/
def execCompletionWriteFault (i : InstId) (isEq : Bool) (q : Fin 64) (mirror : Bool) (cause : XFault) (s : State) : Host.Outcome State Fault Refusal :=
  s.run (fun b => if isEq then (if q.val < 8 then b.eqFaulted i.val q.val mirror cause else b) else b.cqFaulted i.val q.val mirror cause)

/-- CTL_WQ_CTRL_WRITE (R123). -/
def execCtlWqCtrlWrite (h : PortId) (v : W32) (s : State) : Host.Outcome State Fault Refusal :=
  s.run (fun b => b.f0Write h.val (fun b => b.ctlWqWrite h.val v))

/-- CTL_CQ_CTRL_WRITE (R123). -/
def execCtlCqCtrlWrite (h : PortId) (v : W32) (s : State) : Host.Outcome State Fault Refusal :=
  s.run (fun b => b.f0Write h.val (fun b => b.ctlCqCtrl h.val v))

/-- F0_EQ_CTRL_WRITE (R124). -/
def execF0EqCtrlWrite (h : PortId) (v : W32) (s : State) : Host.Outcome State Fault Refusal :=
  s.run (fun b => b.f0Write h.val (fun b => b.f0EqCtrl h.val v))

end Sys2Proof.Machine
end

