-- ==== Sys2Proof/Machine/MeanRegs.lean ====
section
/-! DEFINITION. Meanings of the register accesses that rows of the table name (R3 to R6, and the blocks of chapters 11 to 18). -/

namespace Sys2Proof.Machine
open Sys2Proof

/-- REGISTER_WRITE (R6): a whole register. -/
def execRegisterWrite (who : Who) (r : Reg) (v : W64) (s : State) : Host.Outcome State Fault Refusal :=
  s.run (fun b => b.writeBy who (r) .all v)

/-- MISALIGNED_REGISTER_ACCESS (R3): `n` bytes at offset `off` of the register. -/
def execMisalignedRegisterAccess (who : Who) (r : Reg) (off : Fin 8) (n : Fin 9) (write : Bool) (s : State) :
    Host.Outcome State Fault Refusal :=
  s.run (fun b => b.oddAccess who r off.val n.val write)

/-- LOW_WORD_READ (R4). -/
def execLowWordRead (who : Who) (r : Reg) (s : State) : Host.Outcome State Fault Refusal :=
  s.run (fun b => b.lowRead who r)

/-- HIGH_WORD_WRITE (R5). -/
def execHighWordWrite (who : Who) (r : Reg) (v : W32) (s : State) : Host.Outcome State Fault Refusal :=
  s.run (fun b => b.writeBy who r .high (v.setWidth 64))

/-- LOW_WORD_WRITE (R5). -/
def execLowWordWrite (who : Who) (r : Reg) (v : W32) (s : State) : Host.Outcome State Fault Refusal :=
  s.run (fun b => b.writeBy who r .low (v.setWidth 64))

/-- LEARN_FLUSH_GO (R304). -/
def execLearnFlushGo (who : Who) (p : PipeId) (v : W64) (s : State) : Host.Outcome State Fault Refusal :=
  s.run (fun b => b.writeBy who (.learnFlush p.val) .all v)

/-- LEARN_CFG_WRITE (R303). -/
def execLearnCfgWrite (who : Who) (p : PipeId) (v : W64) (s : State) : Host.Outcome State Fault Refusal :=
  s.run (fun b => b.writeBy who (.learnCfg p.val) .all v)

/-- PUNT_CI_WRITE (R287). -/
def execPuntCiWrite (who : Who) (p : PipeId) (v : W64) (s : State) : Host.Outcome State Fault Refusal :=
  s.run (fun b => b.writeBy who (.puntCi p.val) .all v)

/-- PUNT_BASE_WRITE (R287). -/
def execPuntBaseWrite (who : Who) (p : PipeId) (v : W64) (s : State) : Host.Outcome State Fault Refusal :=
  s.run (fun b => b.writeBy who (.puntBase p.val) .all v)

/-- DSP_SLOT_WRITE (R323). -/
def execDspSlotWrite (who : Who) (d : DspId) (v : W64) (s : State) : Host.Outcome State Fault Refusal :=
  s.run (fun b => b.writeBy who (.dspSlot d.val) .all v)

/-- DSP_RETRAIN (R320). -/
def execDspRetrain (who : Who) (d : DspId) (s : State) : Host.Outcome State Fault Refusal :=
  s.run (fun b => b.writeBy who (.dspLink d.val) .all 0x100)

/-- TB_NSEC_READ (R328); `wide` is the 64-bit read at +0x0000. -/
def execTbNsecRead (who : Who) (wide : Bool) (s : State) : Host.Outcome State Fault Refusal :=
  s.run (fun b => b.nsecReadBy who wide)

/-- TS_POP (R336). -/
def execTsPop (who : Who) (l : LaneId) (s : State) : Host.Outcome State Fault Refusal :=
  s.run (fun b => b.writeBy who (.tsPop l.val) .all 0)

/-- TRIG_ADD (R413). -/
def execTrigAdd (h : PortId) (i : InstId) (v : W32) (s : State) : Host.Outcome State Fault Refusal :=
  s.run (fun b => b.writeBy (.f1 h) (.trigAdd i.val) .all (v.setWidth 64))

/-- DMA_CH_KICK (R422). -/
def execDmaChKick (who : Who) (h : PortId) (c : DmaCh) (v : W32) (s : State) : Host.Outcome State Fault Refusal :=
  s.run (fun b => b.writeBy who (.dmaKick h.val c.val) .all (v.setWidth 64))

/-- DMA_CH_ENABLE (R422): pause is written as it is. -/
def execDmaChEnable (who : Who) (h : PortId) (c : DmaCh) (enable : Bool) (s : State) :
    Host.Outcome State Fault Refusal :=
  s.run (fun b => b.writeBy who (.dmaCtrl h.val c.val) .all (dmaCtrlBits enable (b.chn h.val c.val).pause false))

/-- DMA_CH_PAUSE (R427): enable is written as it is. -/
def execDmaChPause (who : Who) (h : PortId) (c : DmaCh) (pause : Bool) (s : State) :
    Host.Outcome State Fault Refusal :=
  s.run (fun b => b.writeBy who (.dmaCtrl h.val c.val) .all (dmaCtrlBits (b.chn h.val c.val).enable pause false))

/-- DMA_CH_ABORT (R432): the other bits are written as they are. -/
def execDmaChAbort (who : Who) (h : PortId) (c : DmaCh) (s : State) : Host.Outcome State Fault Refusal :=
  s.run (fun b => b.writeBy who (.dmaCtrl h.val c.val) .all (dmaCtrlBits (b.chn h.val c.val).enable (b.chn h.val c.val).pause true))

/-- DMA_RESTART (R432). -/
def execDmaRestart (who : Who) (h : PortId) (s : State) : Host.Outcome State Fault Refusal :=
  s.run (fun b => b.writeBy who (.dmaEngCtrl h.val) .all 1)

/-- DMA_SHADOW_ARM (R428). -/
def execDmaShadowArm (who : Who) (h : PortId) (c : DmaCh) (arm : Bool) (s : State) :
    Host.Outcome State Fault Refusal :=
  s.run (fun b => b.writeBy who (.dmaShadow h.val c.val) .all (if arm then 1 else 0))

/-- DEBUG_STEP (R261): `word` is the word fetched. -/
def execDebugStep (via : Transport) (tag : W32) (t : Tid) (word : W32) (s : State) :
    Host.Outcome State Fault Refusal :=
  s.run (fun b => b.mssDebug via tag (b.isHalted t.val && (b.thread t.val).kept == .running) (fun b => (b.stepThread devBus t.val word, [])))

end Sys2Proof.Machine
end

