-- ==== Sys2Proof/Machine/MeanRel.lean ====
section
/-! DEFINITION. The commands of self-timed operation (chapter 02), reliability (chapter 21) and the electrical inputs
(chapter 22), and of the replay and move of cores (R209, R210). -/

namespace Sys2Proof.Machine
open Sys2Proof

/-- R45, R46. -/
def execFloorMiss (n : Fin 96) (s : State) : Host.Outcome State Fault Refusal := s.run (fun b => b.floorMiss n.val)
/-- R48. -/
def execCapUnmet (s : State) : Host.Outcome State Fault Refusal := s.run (fun b => b.capUnmet)
/-- R47. -/
def execAvsLoopUpdate (d : Fin 8) (rates : List W16) (inputW : W16) (s : State) : Host.Outcome State Fault Refusal :=
  s.run (fun b => b.avsUpdate d.val rates inputW)
/-- R209, R210. -/
def execResidueReplay (t : Tid) (path : Fin 3) (recurs : Bool) (ns : W32) (s : State) : Host.Outcome State Fault Refusal :=
  s.run (fun b => b.residueReplay t.val path.val recurs ns.toNat)
/-- R210. -/
def execThreadSpareMove (t : Tid) (ns : W32) (s : State) : Host.Outcome State Fault Refusal :=
  s.run (fun b => b.spareMove t.val ns.toNat)
/-- R482. -/
def execScrubPass (a : StructCode) (addr : W64) (n : Fin 1025) (s : State) : Host.Outcome State Fault Refusal :=
  s.run (fun b => b.scrub a.val addr.toNat n.val)
/-- R481, R482. -/
def execArrayErrorCorrected (a : StructCode) (h : Half) (unit sub : W16) (addr : W64) (s : State) :
    Host.Outcome State Fault Refusal :=
  s.run (fun b => b.corrected a.val h unit.toNat sub.toNat addr.toNat)
/-- R481. -/
def execArrayErrorUncorrectable (e : ArrayErr) (ns : W32) (s : State) : Host.Outcome State Fault Refusal :=
  s.run (fun b => b.arrayError e ns.toNat)
/-- R483. -/
def execPipeLaneFault (p : PipeId) (lane : Fin 4) (ns : W32) (s : State) : Host.Outcome State Fault Refusal :=
  s.run (fun b => b.laneFault p.val lane.val ns.toNat)
/-- R483. -/
def execLaneSelftestDone (p : PipeId) (lane : Fin 4) (ok : Bool) (s : State) : Host.Outcome State Fault Refusal :=
  s.run (fun b => b.laneTested p.val lane.val ok)
/-- R483. -/
def execTableBankFault (p : PipeId) (ternary : Bool) (bank : Fin 32) (ns : W32) (s : State) : Host.Outcome State Fault Refusal :=
  s.run (fun b => b.bankFault p.val ternary bank.val ns.toNat)
/-- R483. -/
def execBankRebuildDone (p : PipeId) (ternary : Bool) (ns : W32) (s : State) : Host.Outcome State Fault Refusal :=
  s.run (fun b => b.bankRebuilt p.val ternary ns.toNat)
/-- R485, R486. -/
def execHogsheadBankFault (h : Half) (bank : Fin 48) (ns : W32) (s : State) : Host.Outcome State Fault Refusal :=
  s.run (fun b => (b.errUncorr 8 h).hogBankOut h bank.val false ns.toNat)
/-- R481, R485. -/
def execPowerPhaseLoss (h : Half) (rail : Fin 16) (phase : Fin 64) (ns : W32) (s : State) : Host.Outcome State Fault Refusal :=
  s.run (fun b => b.phaseLoss h rail.val phase.val ns.toNat)
/-- R491. -/
def execHalfFatalFault (h : Half) (rail : Bool) (ns : W32) (s : State) : Host.Outcome State Fault Refusal :=
  s.run (fun b => b.halfFatal h (if rail then 0x13 else 6) ns.toNat)
/-- R483, R486. -/
def execCipherInlineFault (p : PipeId) (u : Fin 32) (ns : W32) (s : State) : Host.Outcome State Fault Refusal :=
  s.run (fun b => b.inlineFault p.val u.val ns.toNat)
/-- R360, R481. -/
def execLookasideUnitFault (u : UnitId) (ns : W32) (s : State) : Host.Outcome State Fault Refusal :=
  s.run (fun b => b.lookasideFault u.val ns.toNat)
/-- R19. -/
def execBridgeLaneFault (toEast : Bool) (lane : Fin 168) (s : State) : Host.Outcome State Fault Refusal :=
  s.run (fun b => b.bridgeFault toEast lane.val)
/-- R19, R486. -/
def execBridgeRetrainDone (toEast : Bool) (ns : W32) (s : State) : Host.Outcome State Fault Refusal :=
  s.run (fun b => b.bridgeTrained toEast ns.toNat)
/-- R368: the mesh stays broken. -/
def execTamperBreak (s : State) : Host.Outcome State Fault Refusal :=
  s.run (fun b => ({ b with mss := { b.mss with meshOpen := true } } : Blk).raiseAlarm 3)
/-- R499. -/
def execGlitchDetect (s : State) : Host.Outcome State Fault Refusal := s.run (fun b => b.raiseAlarm 2)
/-- R481. -/
def execKeyStoreError (ns : W32) (s : State) : Host.Outcome State Fault Refusal := s.run (fun b => b.storeErrorAlarm ns.toNat)
/-- R499. -/
def execKeyRailExcursion (s : State) : Host.Outcome State Fault Refusal := s.run (fun b => b.raiseAlarm 0)
/-- R499. -/
def execMssDieCold (s : State) : Host.Outcome State Fault Refusal := s.run (fun b => b.raiseAlarm 1)
/-- R499: the MSS goes on from its internal oscillator. -/
def execCrystalLoss (s : State) : Host.Outcome State Fault Refusal :=
  s.run (fun b => ({ b with elec := { b.elec with crystalLost := true } } : Blk).raiseAlarm 2)
/-- R497. -/
def execVinLockout (s : State) : Host.Outcome State Fault Refusal := s.run (fun b => b.lockout)
/-- R499. -/
def execVinOvervoltage (s : State) : Host.Outcome State Fault Refusal := s.run (fun b => b.overVoltage)
/-- R496: the pin has no effect inside the part; without power it is released. -/
def execPwrWarnChange (driven : Bool) (s : State) : Host.Outcome State Fault Refusal :=
  s.run (fun b => { b with elec := { b.elec with warnDriven := driven && b.elec.vin } })
/-- R505. -/
def execRefclkLoss (r : ClkRef) (lost : Bool) (s : State) : Host.Outcome State Fault Refusal :=
  s.run (fun b => b.refChange r lost)
/-- R466, R467. -/
def execSensorWarnChange (n : Fin 41) (v : W16) (s : State) : Host.Outcome State Fault Refusal :=
  s.run (fun b => b.sensorReads n.val v)
/-- R462. -/
def execThermalTrip (n : Fin 36) (v : W16) (s : State) : Host.Outcome State Fault Refusal :=
  s.run (fun b => b.thermalTrip n.val v)

end Sys2Proof.Machine
end

