-- ==== Sys2Proof/Machine/MeanRmt.lean ====
section
/-! DEFINITION. Meanings of the commands of the transport and of the packet queues (chapters 05, 16, 17). -/

namespace Sys2Proof.Machine
open Sys2Proof

/-- WR_WRITE (R400). -/
def execWrWrite (i : InstId) (q : Fin 64) (s : State) : Host.Outcome State Fault Refusal :=
  s.run (·.wrStart i.val q.val 0x10 false)
/-- WR_WRITE_IMM (R400). -/
def execWrWriteImm (i : InstId) (q : Fin 64) (s : State) : Host.Outcome State Fault Refusal :=
  s.run (·.wrStart i.val q.val 0x11 false)
/-- WR_READ (R400). -/
def execWrRead (i : InstId) (q : Fin 64) (s : State) : Host.Outcome State Fault Refusal :=
  s.run (·.wrStart i.val q.val 0x12 false)
/-- WR_SEND (R400). -/
def execWrSend (i : InstId) (q : Fin 64) (s : State) : Host.Outcome State Fault Refusal :=
  s.run (·.wrStart i.val q.val 0x13 false)
/-- WR_FETCH_ADD (R400). -/
def execWrFetchAdd (i : InstId) (q : Fin 64) (s : State) : Host.Outcome State Fault Refusal :=
  s.run (·.wrStart i.val q.val 0x15 false)
/-- WR_CMP_SWAP (R400). -/
def execWrCmpSwap (i : InstId) (q : Fin 64) (s : State) : Host.Outcome State Fault Refusal :=
  s.run (·.wrStart i.val q.val 0x16 false)

/-- TRIGGERED_POST (R410): whatever its opcode. -/
def execTriggeredPost (i : InstId) (q : Fin 64) (s : State) : Host.Outcome State Fault Refusal :=
  s.run (fun b => b.wrStart i.val q.val ((((b.wq i.val q.val).nextStart).map (fun e => weOp e.raw)).getD 0) true)

/-- PKT_SEND (R268). -/
def execPktSend (i : InstId) (q : Fin 64) (src : Ans) (s : State) : Host.Outcome State Fault Refusal :=
  s.run (·.pktSend i.val q.val src)
/-- PKT_RECV (R286). -/
def execPktRecv (i : InstId) (q : Fin 64) (s : State) : Host.Outcome State Fault Refusal :=
  s.run (·.postBuffer i.val q.val kPktRecv)
/-- RMT_RECV (R404). -/
def execRmtRecv (i : InstId) (q : Fin 64) (s : State) : Host.Outcome State Fault Refusal :=
  s.run (·.postBuffer i.val q.val kRmtRecv)

/-- MESSAGE_START (R401). -/
def execMessageStart (qpn : BitVec 24) (src : List SrcRead) (s : State) : Host.Outcome State Fault Refusal :=
  s.run (fun b => (b.startMsg qpn.toNat src).settleIncs)

/-- RMT_WRITE (R380). -/
def execRmtWrite (h : Half) (ans : Ans) (s : State) : Host.Outcome State Fault Refusal := s.run (·.rmtRequest h 1 ans)
/-- RMT_WRITE_IMM (R381). -/
def execRmtWriteImm (h : Half) (ans : Ans) (s : State) : Host.Outcome State Fault Refusal := s.run (·.rmtRequest h 2 ans)
/-- RMT_SEND (R380). -/
def execRmtSend (h : Half) (ans : Ans) (s : State) : Host.Outcome State Fault Refusal := s.run (·.rmtRequest h 3 ans)
/-- RMT_READ_REQ (R383). -/
def execRmtReadReq (h : Half) (ans : Ans) (s : State) : Host.Outcome State Fault Refusal := s.run (·.rmtRequest h 4 ans)
/-- RMT_FETCH_ADD (R384). -/
def execRmtFetchAdd (h : Half) (ans : Ans) (s : State) : Host.Outcome State Fault Refusal := s.run (·.rmtRequest h 6 ans)
/-- RMT_CMP_SWAP (R384). -/
def execRmtCmpSwap (h : Half) (ans : Ans) (s : State) : Host.Outcome State Fault Refusal := s.run (·.rmtRequest h 7 ans)
/-- RMT_READ_RESP (R388). -/
def execRmtReadResp (h : Half) (ans : Ans) (src : List SrcRead) (s : State) : Host.Outcome State Fault Refusal :=
  s.run (·.rmtAnswer h 5 ans src)
/-- RMT_ATOMIC_RESP (R388). -/
def execRmtAtomicResp (h : Half) (ans : Ans) (src : List SrcRead) (s : State) : Host.Outcome State Fault Refusal :=
  s.run (·.rmtAnswer h 8 ans src)
/-- RMT_ACK (R388). -/
def execRmtAck (h : Half) (src : List SrcRead) (s : State) : Host.Outcome State Fault Refusal :=
  s.run (·.rmtAnswer h 0x10 (.ok []) src)
/-- RMT_NAK (R386). -/
def execRmtNak (h : Half) (src : List SrcRead) (s : State) : Host.Outcome State Fault Refusal :=
  s.run (·.rmtAnswer h 0x11 (.ok []) src)

/-- RETX_TIMEOUT (R387). -/
def execRetxTimeout (qpn msn : BitVec 24) (off : W32) (src : List SrcRead) (s : State) :
    Host.Outcome State Fault Refusal := s.run (·.retxTimeout qpn.toNat msn.toNat off.toNat src)
/-- RNR_HOLD_EXPIRE (R389). -/
def execRnrHoldExpire (qpn msn : BitVec 24) (src : List SrcRead) (s : State) : Host.Outcome State Fault Refusal :=
  s.run (·.rnrExpire qpn.toNat msn.toNat src)
/-- TRACKER_ABANDON (R382). -/
def execTrackerAbandon (qpn msn : BitVec 24) (s : State) : Host.Outcome State Fault Refusal :=
  s.run (·.trackerTimeout qpn.toNat msn.toNat)
/-- PATH_REROLL (R391). -/
def execPathReroll (qpn : BitVec 24) (path : Fin 64) (s : State) : Host.Outcome State Fault Refusal :=
  s.run (·.pathReroll qpn.toNat path.val)

end Sys2Proof.Machine
end

