-- ==== Sys2Proof/Machine/MeanSys.lean ====
section
/-! DEFINITION. Meanings of the system instructions of the Polward cores (chapter 09). -/

namespace Sys2Proof.Machine
open Sys2Proof

/-- SR.RD (R195, R222). -/
def execSrRd (t : Tid) (rd : GReg) (n : BitVec 12) (s : State) : Host.Outcome State Fault Refusal :=
  s.run (fun b => b.issue devBus t.val (.srRd rd n))

/-- SR.WR (R195, R222). -/
def execSrWr (t : Tid) (ra : GReg) (n : BitVec 12) (s : State) : Host.Outcome State Fault Refusal :=
  s.run (fun b => b.issue devBus t.val (.srWr ra n))

/-- SYSCALL (R197). -/
def execSyscall (t : Tid) (code : BitVec 12) (s : State) : Host.Outcome State Fault Refusal :=
  s.run (fun b => b.issue devBus t.val (.syscall code))

/-- BREAK (R197, R261). -/
def execBreak (t : Tid) (code : BitVec 12) (s : State) : Host.Outcome State Fault Refusal :=
  s.run (fun b => b.issue devBus t.val (.brk code))

/-- ERET (R198). -/
def execEret (t : Tid) (s : State) : Host.Outcome State Fault Refusal :=
  s.run (fun b => b.issue devBus t.val (.eret))

/-- WAIT (R225, R248). -/
def execWait (t : Tid) (rd ra : GReg) (timer : Bool) (s : State) : Host.Outcome State Fault Refusal :=
  s.run (fun b => b.issue devBus t.val (.wait rd ra timer))

/-- ILLEGAL_INSTRUCTION (R216): a word that no instruction has. -/
def execIllegalInstruction (t : Tid) (word : W32) (s : State) : Host.Outcome State Fault Refusal :=
  s.run (fun b => if (decodePol word).isNone then b.issueWord devBus t.val none word else b)

end Sys2Proof.Machine
end

