-- ==== Sys2Proof/Machine/MeanThread.lean ====
section
/-! DEFINITION. Meanings of the channel and thread instructions, and of the THREAD block (chapters 09, 10). -/

namespace Sys2Proof.Machine
open Sys2Proof

/-- CH.OPEN (R227, R251). -/
def execChOpen (t : Tid) (rd ra : GReg) (n : Fin 64) (s : State) : Host.Outcome State Fault Refusal :=
  s.run (fun b => b.issue devBus t.val (.chOpen rd ra n))

/-- CH.PUT (R227). -/
def execChPut (t : Tid) (rs ra : GReg) (w : Fin 8) (s : State) : Host.Outcome State Fault Refusal :=
  s.run (fun b => b.issue devBus t.val (.chPut rs ra w))

/-- CH.SEND (R227, R228). -/
def execChSend (t : Tid) (rd ra : GReg) (len : Fin 128) (s : State) : Host.Outcome State Fault Refusal :=
  s.run (fun b => b.issue devBus t.val (.chSend rd ra len))

/-- CH.RECV (R227). -/
def execChRecv (t : Tid) (rd ra : GReg) (s : State) : Host.Outcome State Fault Refusal :=
  s.run (fun b => b.issue devBus t.val (.chRecv rd ra))

/-- CH.GET (R227). -/
def execChGet (t : Tid) (rd ra : GReg) (w : Fin 8) (s : State) : Host.Outcome State Fault Refusal :=
  s.run (fun b => b.issue devBus t.val (.chGet rd ra w))

/-- THR.CTL START (R229, R238). -/
def execThrCtlStart (t : Tid) (rd ra rb : GReg) (s : State) : Host.Outcome State Fault Refusal :=
  s.run (fun b => b.issue devBus t.val (.thrCtl .start rd ra rb))

/-- THR.CTL STOP (R229, R238). -/
def execThrCtlStop (t : Tid) (rd ra rb : GReg) (s : State) : Host.Outcome State Fault Refusal :=
  s.run (fun b => b.issue devBus t.val (.thrCtl .stop rd ra rb))

/-- THR.CTL RESUME (R229, R238). -/
def execThrCtlResume (t : Tid) (rd ra rb : GReg) (s : State) : Host.Outcome State Fault Refusal :=
  s.run (fun b => b.issue devBus t.val (.thrCtl .resume rd ra rb))

/-- TCMP_MET (R247, R248): the timer ends the WAIT. -/
def execTcmpMet (t : Tid) (s : State) : Host.Outcome State Fault Refusal :=
  s.run (fun b => if (b.thread t.val).wt.armed && (b.tcmpMet (b.thread t.val).wt || b.tcmpRange (b.thread t.val).wt) then b.evalWait t.val else b)

/-- CHANNEL_MESSAGE_QUEUED (R253). -/
def execChannelMessageQueued (c : ChanId) (s : State) : Host.Outcome State Fault Refusal :=
  s.run (fun b => b.chArrive c.val)

/-- TMODE_WRITE (R244) by system code of thread `t`. -/
def execTmodeWrite (t : Tid) (pavane : Bool) (s : State) : Host.Outcome State Fault Refusal :=
  s.run (fun b => if (b.thread t.val).sr.priv then b.tmodeWrite (t.val / 8) pavane else b)

/-- TMODE_SWITCH (R244). -/
def execTmodeSwitch (c : CoreId) (s : State) : Host.Outcome State Fault Refusal :=
  s.run (fun b => b.tmodeSwitch c.val)

/-- THR_SIGNAL_WRITE (R245). -/
def execThrSignalWrite (who : Who) (t : Tid) (v : W64) (s : State) : Host.Outcome State Fault Refusal :=
  s.run (fun b => b.writeBy who (.thrSignal t.val) .all v)

/-- CH_CFG_WRITE (R254). -/
def execChCfgWrite (who : Who) (c : ChanId) (v : W64) (s : State) : Host.Outcome State Fault Refusal :=
  s.run (fun b => b.writeBy who (.chCfg c.val) .all v)

/-- FQ_BASE_WRITE (R256). -/
def execFqBaseWrite (who : Who) (h : Half) (v : W64) (s : State) : Host.Outcome State Fault Refusal :=
  s.run (fun b => b.writeBy who (.fqBase h.code) .all v)

/-- FQ_CI_WRITE (R256). -/
def execFqCiWrite (who : Who) (h : Half) (v : W64) (s : State) : Host.Outcome State Fault Refusal :=
  s.run (fun b => b.writeBy who (.fqCi h.code) .all v)

/-- SUP_WRITE (R257). -/
def execSupWrite (who : Who) (h : Half) (v : W64) (s : State) : Host.Outcome State Fault Refusal :=
  s.run (fun b => b.writeBy who (.sup h.code) .all v)

/-- THR_GROUP_WRITE (R259). -/
def execThrGroupWrite (who : Who) (t : Tid) (v : W64) (s : State) : Host.Outcome State Fault Refusal :=
  s.run (fun b => b.writeBy who (.thrGroup t.val) .all v)

/-- GRP_CTRL_WRITE (R260). -/
def execGrpCtrlWrite (who : Who) (g : Fin 64) (v : W64) (s : State) : Host.Outcome State Fault Refusal :=
  s.run (fun b => b.writeBy who (.grpCtrl g.val) .all v)

/-- DEADLOCK_RAISE (R259, R260). -/
def execDeadlockRaise (g : Fin 64) (s : State) : Host.Outcome State Fault Refusal :=
  s.run (fun b => b.deadlockTry g.val)

end Sys2Proof.Machine
end

