-- ==== Sys2Proof/Machine/MeanTime.lean ====
section
/-! DEFINITION. Meanings of the commands of the timebase (chapter 14). -/

namespace Sys2Proof.Machine
open Sys2Proof

/-- SERVO_SAMPLE (R330). -/
def execServoSample (o : W64) (s : State) : Host.Outcome State Fault Refusal := s.run (·.servoSample o.toInt)

/-- PPS_EDGE (R329). -/
def execPpsEdge (s : State) : Host.Outcome State Fault Refusal := s.run (·.ppsEdge)

/-- TIME_SOURCE_LOST (R331). -/
def execTimeSourceLost (ref : Bool) (s : State) : Host.Outcome State Fault Refusal := s.run (·.sourceLost ref)

/-- TIME_SOURCE_REGAINED (R331). -/
def execTimeSourceRegained (s : State) : Host.Outcome State Fault Refusal := s.run (·.sourceRegained)

/-- LAUNCH_DUE (R342). -/
def execLaunchDue (l : LaneId) (tc : Fin 8) (s : State) : Host.Outcome State Fault Refusal :=
  s.run (·.launchDue l.val tc.val)

/-- PPS_OUT_EDGE (R331). -/
def execPpsOutEdge (s : State) : Host.Outcome State Fault Refusal :=
  s.run (fun b => { b with clk := b.clk.ppsOutEdge })

end Sys2Proof.Machine
end

