-- ==== Sys2Proof/Machine/Dispatch.lean ====
section
/-! DEFINITION. One arm for each command: a direct call of its meaning. -/

namespace Sys2Proof.Machine
open Sys2Proof

/-- The effect of a command on everything but the queue. -/
def exec (i : Instr) (s : State) : Host.Outcome State Fault Refusal :=
  match i with
  | .registerWrite who r v => Sys2Proof.Machine.execRegisterWrite who r v s
  | .misalignedRegisterAccess who r off n write => Sys2Proof.Machine.execMisalignedRegisterAccess who r off n write s
  | .lowWordRead who r => Sys2Proof.Machine.execLowWordRead who r s
  | .highWordWrite who r v => Sys2Proof.Machine.execHighWordWrite who r v s
  | .lowWordWrite who r v => Sys2Proof.Machine.execLowWordWrite who r v s
  | .epochVisible u e => Sys2Proof.Machine.execEpochVisible u e s
  | .epochRetire => Sys2Proof.Machine.execEpochRetire s
  | .epochExpired => Sys2Proof.Machine.execEpochExpired s
  | .bridgeLaneFault toEast lane => Sys2Proof.Machine.execBridgeLaneFault toEast lane s
  | .bridgeRetrainDone toEast ns => Sys2Proof.Machine.execBridgeRetrainDone toEast ns s
  | .bridgeCellTransfer h => Sys2Proof.Machine.execBridgeCellTransfer h s
  | .halfRejoin h => Sys2Proof.Machine.execHalfRejoin h s
  | .frameReceive l frame fcsOk rx => Sys2Proof.Machine.execFrameReceive l frame fcsOk rx s
  | .pfcFrameRx l qs => Sys2Proof.Machine.execPfcFrameRx l qs s
  | .pfcPauseExpire l tc => Sys2Proof.Machine.execPfcPauseExpire l tc s
  | .pfcRefresh l prio => Sys2Proof.Machine.execPfcRefresh l prio s
  | .packetIngress src miss => Sys2Proof.Machine.execPacketIngress src miss s
  | .hbmTableLookupReturn p => Sys2Proof.Machine.execHbmTableLookupReturn p s
  | .packetSchedule turn => Sys2Proof.Machine.execPacketSchedule turn s
  | .frameTransmit l underrun => Sys2Proof.Machine.execFrameTransmit l underrun s
  | .cellAged q => Sys2Proof.Machine.execCellAged q s
  | .hostDelivery h ans => Sys2Proof.Machine.execHostDelivery h ans s
  | .learnApply p => Sys2Proof.Machine.execLearnApply p s
  | .sweeperVisit p slot => Sys2Proof.Machine.execSweeperVisit p slot s
  | .learnFlushGo who p v => Sys2Proof.Machine.execLearnFlushGo who p v s
  | .learnFlushEnd p => Sys2Proof.Machine.execLearnFlushEnd p s
  | .learnCfgWrite who p v => Sys2Proof.Machine.execLearnCfgWrite who p v s
  | .puntCiWrite who p v => Sys2Proof.Machine.execPuntCiWrite who p v s
  | .puntBaseWrite who p v => Sys2Proof.Machine.execPuntBaseWrite who p v s
  | .perstAssert h => Sys2Proof.Machine.execPerstAssert h s
  | .perstRelease h w partner => Sys2Proof.Machine.execPerstRelease h w partner s
  | .functionsReady h => Sys2Proof.Machine.execFunctionsReady h s
  | .hotReset h => Sys2Proof.Machine.execHotReset h s
  | .flr h f1 => Sys2Proof.Machine.execFlr h f1 s
  | .flrComplete h f1 => Sys2Proof.Machine.execFlrComplete h f1 s
  | .surpriseRemoval h => Sys2Proof.Machine.execSurpriseRemoval h s
  | .hotInsertion h w partner => Sys2Proof.Machine.execHotInsertion h w partner s
  | .busMasterEnableChange h f1 v => Sys2Proof.Machine.execBusMasterEnableChange h f1 v s
  | .msixMaskChange h f1 m => Sys2Proof.Machine.execMsixMaskChange h f1 m s
  | .barAccessUnserved h f1 write n => Sys2Proof.Machine.execBarAccessUnserved h f1 write n s
  | .doorbellPageUnbound h inst write n => Sys2Proof.Machine.execDoorbellPageUnbound h inst write n s
  | .apertureAccess h inst off req => Sys2Proof.Machine.execApertureAccess h inst off req s
  | .loadWindowWrite h off bytes => Sys2Proof.Machine.execLoadWindowWrite h off bytes s
  | .hostCompletionRx h inst gen lost => Sys2Proof.Machine.execHostCompletionRx h inst gen lost s
  | .completionTimeout h req => Sys2Proof.Machine.execCompletionTimeout h req s
  | .linkL1Entry h pm => Sys2Proof.Machine.execLinkL1Entry h pm s
  | .l0pNarrowing h => Sys2Proof.Machine.execL0pNarrowing h s
  | .l0pWidening h => Sys2Proof.Machine.execL0pWidening h s
  | .ltrIdleUpdate h => Sys2Proof.Machine.execLtrIdleUpdate h s
  | .ltrActiveUpdate h => Sys2Proof.Machine.execLtrActiveUpdate h s
  | .powerUp boot owner any jig => Sys2Proof.Machine.execPowerUp boot owner any jig s
  | .bootVerifyRequest h => Sys2Proof.Machine.execBootVerifyRequest h s
  | .bootVerifyComplete us => Sys2Proof.Machine.execBootVerifyComplete us s
  | .bootLoadDiscard h => Sys2Proof.Machine.execBootLoadDiscard h s
  | .dataPlaneTrained fails => Sys2Proof.Machine.execDataPlaneTrained fails s
  | .bootEnableRequest h ready => Sys2Proof.Machine.execBootEnableRequest h ready s
  | .liveActivate h => Sys2Proof.Machine.execLiveActivate h s
  | .activationImagePlaced => Sys2Proof.Machine.execActivationImagePlaced s
  | .activationThreadMove h => Sys2Proof.Machine.execActivationThreadMove h s
  | .activationBindCommit => Sys2Proof.Machine.execActivationBindCommit s
  | .activationFinish => Sys2Proof.Machine.execActivationFinish s
  | .jigEntry => Sys2Proof.Machine.execJigEntry s
  | .jigTestDone item cores units others => Sys2Proof.Machine.execJigTestDone item cores units others s
  | .doorbell h inst => Sys2Proof.Machine.execDoorbell h inst s
  | .ctlDoorbell h => Sys2Proof.Machine.execCtlDoorbell h s
  | .wqeFetch q ans ext => Sys2Proof.Machine.execWqeFetch q ans ext s
  | .wqPiWrite h inst q v => Sys2Proof.Machine.execWqPiWrite h inst q v s
  | .cqCiWrite h inst q v => Sys2Proof.Machine.execCqCiWrite h inst q v s
  | .eqCiWrite h inst e v => Sys2Proof.Machine.execEqCiWrite h inst e v s
  | .eqCtrlWrite h inst e v => Sys2Proof.Machine.execEqCtrlWrite h inst e v s
  | .queueResume q => Sys2Proof.Machine.execQueueResume q s
  | .fencedEntryStart inst q => Sys2Proof.Machine.execFencedEntryStart inst q s
  | .completionWriteFault inst isEq q mirror cause => Sys2Proof.Machine.execCompletionWriteFault inst isEq q mirror cause s
  | .ctlWqCtrlWrite h v => Sys2Proof.Machine.execCtlWqCtrlWrite h v s
  | .ctlCqCtrlWrite h v => Sys2Proof.Machine.execCtlCqCtrlWrite h v s
  | .f0EqCtrlWrite h v => Sys2Proof.Machine.execF0EqCtrlWrite h v s
  | .begin_ q => Sys2Proof.Machine.execBegin q s
  | .commit q => Sys2Proof.Machine.execCommit q s
  | .commitProceed => Sys2Proof.Machine.execCommitProceed s
  | .programComplete q res sum => Sys2Proof.Machine.execProgramComplete q res sum s
  | .abort q => Sys2Proof.Machine.execAbort q s
  | .fence q => Sys2Proof.Machine.execFence q s
  | .programStalled q => Sys2Proof.Machine.execProgramStalled q s
  | .instructionOutsideProgram q => Sys2Proof.Machine.execInstructionOutsideProgram q s
  | .create q => Sys2Proof.Machine.execCreate q s
  | .enable q => Sys2Proof.Machine.execEnable q s
  | .disable q => Sys2Proof.Machine.execDisable q s
  | .destroy q => Sys2Proof.Machine.execDestroy q s
  | .invalidate q => Sys2Proof.Machine.execInvalidate q s
  | .pipeLoad q => Sys2Proof.Machine.execPipeLoad q s
  | .tblInsert q => Sys2Proof.Machine.execTblInsert q s
  | .tblDelete q => Sys2Proof.Machine.execTblDelete q s
  | .tblModify q => Sys2Proof.Machine.execTblModify q s
  | .tblQuery q => Sys2Proof.Machine.execTblQuery q s
  | .rmtConfig q => Sys2Proof.Machine.execRmtConfig q s
  | .qpConnect q => Sys2Proof.Machine.execQpConnect q s
  | .qpTune q => Sys2Proof.Machine.execQpTune q s
  | .winModify q => Sys2Proof.Machine.execWinModify q s
  | .keyImport q => Sys2Proof.Machine.execKeyImport q s
  | .keyBind q => Sys2Proof.Machine.execKeyBind q s
  | .keyRetire q => Sys2Proof.Machine.execKeyRetire q s
  | .timeStep q => Sys2Proof.Machine.execTimeStep q s
  | .timeServo q => Sys2Proof.Machine.execTimeServo q s
  | .timeSource q => Sys2Proof.Machine.execTimeSource q s
  | .qCreate q => Sys2Proof.Machine.execQCreate q s
  | .qEnable q => Sys2Proof.Machine.execQEnable q s
  | .qDisable q => Sys2Proof.Machine.execQDisable q s
  | .qDestroy q => Sys2Proof.Machine.execQDestroy q s
  | .qReset q => Sys2Proof.Machine.execQReset q s
  | .instResize q => Sys2Proof.Machine.execInstResize q s
  | .instAttach q => Sys2Proof.Machine.execInstAttach q s
  | .instDirtyLog q => Sys2Proof.Machine.execInstDirtyLog q s
  | .poolSet q => Sys2Proof.Machine.execPoolSet q s
  | .devPowerCap q => Sys2Proof.Machine.execDevPowerCap q s
  | .slotControl q => Sys2Proof.Machine.execSlotControl q s
  | .query q => Sys2Proof.Machine.execQuery q s
  | .summary q => Sys2Proof.Machine.execSummary q s
  | .add t rd ra rb => Sys2Proof.Machine.execAdd t rd ra rb s
  | .sub t rd ra rb => Sys2Proof.Machine.execSub t rd ra rb s
  | .and t rd ra rb => Sys2Proof.Machine.execAnd t rd ra rb s
  | .or t rd ra rb => Sys2Proof.Machine.execOr t rd ra rb s
  | .xor t rd ra rb => Sys2Proof.Machine.execXor t rd ra rb s
  | .andn t rd ra rb => Sys2Proof.Machine.execAndn t rd ra rb s
  | .sll t rd ra rb => Sys2Proof.Machine.execSll t rd ra rb s
  | .srl t rd ra rb => Sys2Proof.Machine.execSrl t rd ra rb s
  | .sra t rd ra rb => Sys2Proof.Machine.execSra t rd ra rb s
  | .ror t rd ra rb => Sys2Proof.Machine.execRor t rd ra rb s
  | .slt t rd ra rb => Sys2Proof.Machine.execSlt t rd ra rb s
  | .sltu t rd ra rb => Sys2Proof.Machine.execSltu t rd ra rb s
  | .min t rd ra rb => Sys2Proof.Machine.execMin t rd ra rb s
  | .max t rd ra rb => Sys2Proof.Machine.execMax t rd ra rb s
  | .minu t rd ra rb => Sys2Proof.Machine.execMinu t rd ra rb s
  | .maxu t rd ra rb => Sys2Proof.Machine.execMaxu t rd ra rb s
  | .cmovz t rd ra rb => Sys2Proof.Machine.execCmovz t rd ra rb s
  | .cmovnz t rd ra rb => Sys2Proof.Machine.execCmovnz t rd ra rb s
  | .clz t rd ra => Sys2Proof.Machine.execClz t rd ra s
  | .ctz t rd ra => Sys2Proof.Machine.execCtz t rd ra s
  | .popc t rd ra => Sys2Proof.Machine.execPopc t rd ra s
  | .bswap t rd ra => Sys2Proof.Machine.execBswap t rd ra s
  | .sextw t rd ra => Sys2Proof.Machine.execSextw t rd ra s
  | .addw t rd ra rb => Sys2Proof.Machine.execAddw t rd ra rb s
  | .subw t rd ra rb => Sys2Proof.Machine.execSubw t rd ra rb s
  | .sllw t rd ra rb => Sys2Proof.Machine.execSllw t rd ra rb s
  | .srlw t rd ra rb => Sys2Proof.Machine.execSrlw t rd ra rb s
  | .sraw t rd ra rb => Sys2Proof.Machine.execSraw t rd ra rb s
  | .mul t rd ra rb => Sys2Proof.Machine.execMul t rd ra rb s
  | .mulh t rd ra rb => Sys2Proof.Machine.execMulh t rd ra rb s
  | .mulhu t rd ra rb => Sys2Proof.Machine.execMulhu t rd ra rb s
  | .div t rd ra rb => Sys2Proof.Machine.execDiv t rd ra rb s
  | .divu t rd ra rb => Sys2Proof.Machine.execDivu t rd ra rb s
  | .rem t rd ra rb => Sys2Proof.Machine.execRem t rd ra rb s
  | .remu t rd ra rb => Sys2Proof.Machine.execRemu t rd ra rb s
  | .mulw t rd ra rb => Sys2Proof.Machine.execMulw t rd ra rb s
  | .addi t rd ra imm => Sys2Proof.Machine.execAddi t rd ra imm s
  | .andi t rd ra imm => Sys2Proof.Machine.execAndi t rd ra imm s
  | .ori t rd ra imm => Sys2Proof.Machine.execOri t rd ra imm s
  | .xori t rd ra imm => Sys2Proof.Machine.execXori t rd ra imm s
  | .slti t rd ra imm => Sys2Proof.Machine.execSlti t rd ra imm s
  | .sltiu t rd ra imm => Sys2Proof.Machine.execSltiu t rd ra imm s
  | .slli t rd ra sh => Sys2Proof.Machine.execSlli t rd ra sh s
  | .srli t rd ra sh => Sys2Proof.Machine.execSrli t rd ra sh s
  | .srai t rd ra sh => Sys2Proof.Machine.execSrai t rd ra sh s
  | .rori t rd ra sh => Sys2Proof.Machine.execRori t rd ra sh s
  | .lui t rd imm => Sys2Proof.Machine.execLui t rd imm s
  | .auipc t rd imm => Sys2Proof.Machine.execAuipc t rd imm s
  | .addiw t rd ra imm => Sys2Proof.Machine.execAddiw t rd ra imm s
  | .jalr t rd ra imm => Sys2Proof.Machine.execJalr t rd ra imm s
  | .jal t rd disp => Sys2Proof.Machine.execJal t rd disp s
  | .beq t ra rb disp => Sys2Proof.Machine.execBeq t ra rb disp s
  | .bne t ra rb disp => Sys2Proof.Machine.execBne t ra rb disp s
  | .blt t ra rb disp => Sys2Proof.Machine.execBlt t ra rb disp s
  | .bge t ra rb disp => Sys2Proof.Machine.execBge t ra rb disp s
  | .bltu t ra rb disp => Sys2Proof.Machine.execBltu t ra rb disp s
  | .bgeu t ra rb disp => Sys2Proof.Machine.execBgeu t ra rb disp s
  | .load t sz sx acq rd ra disp => Sys2Proof.Machine.execLoad t sz sx acq rd ra disp s
  | .store t sz rel rs ra disp => Sys2Proof.Machine.execStore t sz rel rs ra disp s
  | .amoSwap t o rd ra rb => Sys2Proof.Machine.execAmoSwap t o rd ra rb s
  | .amoAdd t o rd ra rb => Sys2Proof.Machine.execAmoAdd t o rd ra rb s
  | .amoAnd t o rd ra rb => Sys2Proof.Machine.execAmoAnd t o rd ra rb s
  | .amoOr t o rd ra rb => Sys2Proof.Machine.execAmoOr t o rd ra rb s
  | .amoXor t o rd ra rb => Sys2Proof.Machine.execAmoXor t o rd ra rb s
  | .amoMax t o rd ra rb => Sys2Proof.Machine.execAmoMax t o rd ra rb s
  | .amoMin t o rd ra rb => Sys2Proof.Machine.execAmoMin t o rd ra rb s
  | .amoMaxu t o rd ra rb => Sys2Proof.Machine.execAmoMaxu t o rd ra rb s
  | .amoMinu t o rd ra rb => Sys2Proof.Machine.execAmoMinu t o rd ra rb s
  | .amoCas t o rd ra rb => Sys2Proof.Machine.execAmoCas t o rd ra rb s
  | .srRd t rd n => Sys2Proof.Machine.execSrRd t rd n s
  | .srWr t ra n => Sys2Proof.Machine.execSrWr t ra n s
  | .syscall t code => Sys2Proof.Machine.execSyscall t code s
  | .break_ t code => Sys2Proof.Machine.execBreak t code s
  | .eret t => Sys2Proof.Machine.execEret t s
  | .fenceLd t => Sys2Proof.Machine.execFenceLd t s
  | .fenceSt t => Sys2Proof.Machine.execFenceSt t s
  | .fenceAll t => Sys2Proof.Machine.execFenceAll t s
  | .cacheIinv t ra => Sys2Proof.Machine.execCacheIinv t ra s
  | .cachePrefetch t ra => Sys2Proof.Machine.execCachePrefetch t ra s
  | .cacheZero t ra => Sys2Proof.Machine.execCacheZero t ra s
  | .wait t rd ra timer => Sys2Proof.Machine.execWait t rd ra timer s
  | .tcmpMet t => Sys2Proof.Machine.execTcmpMet t s
  | .chOpen t rd ra n => Sys2Proof.Machine.execChOpen t rd ra n s
  | .chPut t rs ra w => Sys2Proof.Machine.execChPut t rs ra w s
  | .chSend t rd ra len => Sys2Proof.Machine.execChSend t rd ra len s
  | .chRecv t rd ra => Sys2Proof.Machine.execChRecv t rd ra s
  | .chGet t rd ra w => Sys2Proof.Machine.execChGet t rd ra w s
  | .channelMessageQueued c => Sys2Proof.Machine.execChannelMessageQueued c s
  | .thrCtlStart t rd ra rb => Sys2Proof.Machine.execThrCtlStart t rd ra rb s
  | .thrCtlStop t rd ra rb => Sys2Proof.Machine.execThrCtlStop t rd ra rb s
  | .thrCtlResume t rd ra rb => Sys2Proof.Machine.execThrCtlResume t rd ra rb s
  | .hwLd t sz sx rd ra off => Sys2Proof.Machine.execHwLd t sz sx rd ra off s
  | .hwSt t sz rs ra off => Sys2Proof.Machine.execHwSt t sz rs ra off s
  | .hwFill t rd ra n => Sys2Proof.Machine.execHwFill t rd ra n s
  | .hwSpill t ra n => Sys2Proof.Machine.execHwSpill t ra n s
  | .csumHw t rd ra n => Sys2Proof.Machine.execCsumHw t rd ra n s
  | .csumReg t rd ra => Sys2Proof.Machine.execCsumReg t rd ra s
  | .crcReg t sz rd ra => Sys2Proof.Machine.execCrcReg t sz rd ra s
  | .crcHw t rd ra n => Sys2Proof.Machine.execCrcHw t rd ra n s
  | .bfx t rd ra pos wm1 => Sys2Proof.Machine.execBfx t rd ra pos wm1 s
  | .bfxs t rd ra pos wm1 => Sys2Proof.Machine.execBfxs t rd ra pos wm1 s
  | .bfi t rd ra pos wm1 => Sys2Proof.Machine.execBfi t rd ra pos wm1 s
  | .fhash t rd ra rb => Sys2Proof.Machine.execFhash t rd ra rb s
  | .hwLen t rd => Sys2Proof.Machine.execHwLen t rd s
  | .illegalInstruction t word => Sys2Proof.Machine.execIllegalInstruction t word s
  | .residueReplay t path recurs ns => Sys2Proof.Machine.execResidueReplay t path recurs ns s
  | .threadSpareMove t ns => Sys2Proof.Machine.execThreadSpareMove t ns s
  | .tmodeWrite t pavane => Sys2Proof.Machine.execTmodeWrite t pavane s
  | .tmodeSwitch c => Sys2Proof.Machine.execTmodeSwitch c s
  | .thrSignalWrite who t v => Sys2Proof.Machine.execThrSignalWrite who t v s
  | .chCfgWrite who c v => Sys2Proof.Machine.execChCfgWrite who c v s
  | .fqBaseWrite who h v => Sys2Proof.Machine.execFqBaseWrite who h v s
  | .fqCiWrite who h v => Sys2Proof.Machine.execFqCiWrite who h v s
  | .supWrite who h v => Sys2Proof.Machine.execSupWrite who h v s
  | .thrGroupWrite who t v => Sys2Proof.Machine.execThrGroupWrite who t v s
  | .grpCtrlWrite who g v => Sys2Proof.Machine.execGrpCtrlWrite who g v s
  | .deadlockRaise g => Sys2Proof.Machine.execDeadlockRaise g s
  | .debugHalt via tag t => Sys2Proof.Machine.execDebugHalt via tag t s
  | .debugGo via tag t => Sys2Proof.Machine.execDebugGo via tag t s
  | .debugStep via tag t word => Sys2Proof.Machine.execDebugStep via tag t word s
  | .debugRead via tag t item => Sys2Proof.Machine.execDebugRead via tag t item s
  | .debugWrite via tag t item v => Sys2Proof.Machine.execDebugWrite via tag t item v s
  | .debugChannelCancel via tag t c => Sys2Proof.Machine.execDebugChannelCancel via tag t c s
  | .debugAttach via tag t => Sys2Proof.Machine.execDebugAttach via tag t s
  | .debugDetach via tag t => Sys2Proof.Machine.execDebugDetach via tag t s
  | .linkStateChange l st autoneg localFault remoteFault => Sys2Proof.Machine.execLinkStateChange l st autoneg localFault remoteFault s
  | .autonegTimeout l => Sys2Proof.Machine.execAutonegTimeout l s
  | .linkRetry l => Sys2Proof.Machine.execLinkRetry l s
  | .dsPresenceChange d present => Sys2Proof.Machine.execDsPresenceChange d present s
  | .dsAttnButton d => Sys2Proof.Machine.execDsAttnButton d s
  | .dsDllChange d up speed width => Sys2Proof.Machine.execDsDllChange d up speed width s
  | .dsPerstRelease d => Sys2Proof.Machine.execDsPerstRelease d s
  | .dspSlotWrite who d v => Sys2Proof.Machine.execDspSlotWrite who d v s
  | .dspRetrain who d => Sys2Proof.Machine.execDspRetrain who d s
  | .dspConfigAccess d off write resp => Sys2Proof.Machine.execDspConfigAccess d off write resp s
  | .dsMsiWrite d v => Sys2Proof.Machine.execDsMsiWrite d v s
  | .dsMemoryRequest d req => Sys2Proof.Machine.execDsMemoryRequest d req s
  | .servoSample o => Sys2Proof.Machine.execServoSample o s
  | .ppsEdge => Sys2Proof.Machine.execPpsEdge s
  | .timeSourceLost ref => Sys2Proof.Machine.execTimeSourceLost ref s
  | .timeSourceRegained => Sys2Proof.Machine.execTimeSourceRegained s
  | .tsPop who l => Sys2Proof.Machine.execTsPop who l s
  | .launchDue l tc => Sys2Proof.Machine.execLaunchDue l tc s
  | .lockAcquire h inst u => Sys2Proof.Machine.execLockAcquire h inst u s
  | .lockRelease h inst u => Sys2Proof.Machine.execLockRelease h inst u s
  | .luLockAcquire t inst u => Sys2Proof.Machine.execLuLockAcquire t inst u s
  | .luLockRelease t inst u => Sys2Proof.Machine.execLuLockRelease t inst u s
  | .lockReleaseComplete u => Sys2Proof.Machine.execLockReleaseComplete u s
  | .cipherEncrypt inst q aad src tag => Sys2Proof.Machine.execCipherEncrypt inst q aad src tag s
  | .cipherDecrypt inst q aad src tag => Sys2Proof.Machine.execCipherDecrypt inst q aad src tag s
  | .cipherVerify inst q aad src tag => Sys2Proof.Machine.execCipherVerify inst q aad src tag s
  | .cipherTag inst q aad src tag => Sys2Proof.Machine.execCipherTag inst q aad src tag s
  | .cipherJobDone u out => Sys2Proof.Machine.execCipherJobDone u out s
  | .lookasideUnitFault u ns => Sys2Proof.Machine.execLookasideUnitFault u ns s
  | .cipherInlineFault p u ns => Sys2Proof.Machine.execCipherInlineFault p u ns s
  | .tamperBreak => Sys2Proof.Machine.execTamperBreak s
  | .glitchDetect => Sys2Proof.Machine.execGlitchDetect s
  | .keyStoreError ns => Sys2Proof.Machine.execKeyStoreError ns s
  | .wrWrite inst q => Sys2Proof.Machine.execWrWrite inst q s
  | .wrWriteImm inst q => Sys2Proof.Machine.execWrWriteImm inst q s
  | .wrRead inst q => Sys2Proof.Machine.execWrRead inst q s
  | .wrSend inst q => Sys2Proof.Machine.execWrSend inst q s
  | .wrFetchAdd inst q => Sys2Proof.Machine.execWrFetchAdd inst q s
  | .wrCmpSwap inst q => Sys2Proof.Machine.execWrCmpSwap inst q s
  | .triggeredPost inst q => Sys2Proof.Machine.execTriggeredPost inst q s
  | .pktSend inst q src => Sys2Proof.Machine.execPktSend inst q src s
  | .pktRecv inst q => Sys2Proof.Machine.execPktRecv inst q s
  | .rmtRecv inst q => Sys2Proof.Machine.execRmtRecv inst q s
  | .messageStart qpn src => Sys2Proof.Machine.execMessageStart qpn src s
  | .rmtWrite h ans => Sys2Proof.Machine.execRmtWrite h ans s
  | .rmtWriteImm h ans => Sys2Proof.Machine.execRmtWriteImm h ans s
  | .rmtSend h ans => Sys2Proof.Machine.execRmtSend h ans s
  | .rmtReadReq h ans => Sys2Proof.Machine.execRmtReadReq h ans s
  | .rmtFetchAdd h ans => Sys2Proof.Machine.execRmtFetchAdd h ans s
  | .rmtCmpSwap h ans => Sys2Proof.Machine.execRmtCmpSwap h ans s
  | .rmtReadResp h ans src => Sys2Proof.Machine.execRmtReadResp h ans src s
  | .rmtAtomicResp h ans src => Sys2Proof.Machine.execRmtAtomicResp h ans src s
  | .rmtAck h src => Sys2Proof.Machine.execRmtAck h src s
  | .rmtNak h src => Sys2Proof.Machine.execRmtNak h src s
  | .retxTimeout qpn msn off src => Sys2Proof.Machine.execRetxTimeout qpn msn off src s
  | .rnrHoldExpire qpn msn src => Sys2Proof.Machine.execRnrHoldExpire qpn msn src s
  | .trackerAbandon qpn msn => Sys2Proof.Machine.execTrackerAbandon qpn msn s
  | .pathReroll qpn path => Sys2Proof.Machine.execPathReroll qpn path s
  | .trigAdd h inst v => Sys2Proof.Machine.execTrigAdd h inst v s
  | .dmaChKick who h c v => Sys2Proof.Machine.execDmaChKick who h c v s
  | .dmaChEnable who h c enable => Sys2Proof.Machine.execDmaChEnable who h c enable s
  | .dmaChPause who h c pause => Sys2Proof.Machine.execDmaChPause who h c pause s
  | .dmaPauseDrained h c => Sys2Proof.Machine.execDmaPauseDrained h c s
  | .dmaChAbort who h c => Sys2Proof.Machine.execDmaChAbort who h c s
  | .dmaRestart who h => Sys2Proof.Machine.execDmaRestart who h s
  | .dmaShadowArm who h c arm => Sys2Proof.Machine.execDmaShadowArm who h c arm s
  | .dmaDescRead h c ans => Sys2Proof.Machine.execDmaDescRead h c ans s
  | .dmaBurstIssue h => Sys2Proof.Machine.execDmaBurstIssue h s
  | .dmaBurstData h c ans => Sys2Proof.Machine.execDmaBurstData h c ans s
  | .dmaDescComplete h c => Sys2Proof.Machine.execDmaDescComplete h c s
  | .dmaBusErrorStop h c addr write sys => Sys2Proof.Machine.execDmaBusErrorStop h c addr write sys s
  | .dmaHalted h => Sys2Proof.Machine.execDmaHalted h s
  | .translationWalk inst va read write e => Sys2Proof.Machine.execTranslationWalk inst va read write e s
  | .dirtyRecordWrite inst => Sys2Proof.Machine.execDirtyRecordWrite inst s
  | .dirtyCiPoll inst ci => Sys2Proof.Machine.execDirtyCiPoll inst ci s
  | .devmemZeroDone h k => Sys2Proof.Machine.execDevmemZeroDone h k s
  | .getInfo via tag body => Sys2Proof.Machine.execGetInfo via tag body s
  | .getMore via tag body => Sys2Proof.Machine.execGetMore via tag body s
  | .sensorRead via tag body => Sys2Proof.Machine.execSensorRead via tag body s
  | .summaryReduced via tag body => Sys2Proof.Machine.execSummaryReduced via tag body s
  | .logRead via tag body => Sys2Proof.Machine.execLogRead via tag body s
  | .logSeal via tag body => Sys2Proof.Machine.execLogSeal via tag body s
  | .sealRead via tag body => Sys2Proof.Machine.execSealRead via tag body s
  | .resetFunction via tag body => Sys2Proof.Machine.execResetFunction via tag body s
  | .resetPort via tag body => Sys2Proof.Machine.execResetPort via tag body s
  | .resetHalf via tag body => Sys2Proof.Machine.execResetHalf via tag body s
  | .resetDevice via tag body pin => Sys2Proof.Machine.execResetDevice via tag body pin s
  | .powerOff via tag body => Sys2Proof.Machine.execPowerOff via tag body s
  | .powerOn via tag body => Sys2Proof.Machine.execPowerOn via tag body s
  | .jigEnter via tag body => Sys2Proof.Machine.execJigEnter via tag body s
  | .jigExit via tag body => Sys2Proof.Machine.execJigExit via tag body s
  | .keyErase via tag body => Sys2Proof.Machine.execKeyErase via tag body s
  | .keyRearm via tag body => Sys2Proof.Machine.execKeyRearm via tag body s
  | .importOpen via tag body => Sys2Proof.Machine.execImportOpen via tag body s
  | .importSet via tag body => Sys2Proof.Machine.execImportSet via tag body s
  | .importExchangeTimeout => Sys2Proof.Machine.execImportExchangeTimeout s
  | .setOwnerPort via tag body => Sys2Proof.Machine.execSetOwnerPort via tag body s
  | .setWidth via tag body => Sys2Proof.Machine.execSetWidth via tag body s
  | .setMargin via tag body => Sys2Proof.Machine.execSetMargin via tag body s
  | .setSupervisor via tag body => Sys2Proof.Machine.execSetSupervisor via tag body s
  | .setMgmtAddr via tag body => Sys2Proof.Machine.execSetMgmtAddr via tag body s
  | .mssWrite via tag body => Sys2Proof.Machine.execMssWrite via tag body s
  | .mssSwitch via tag body => Sys2Proof.Machine.execMssSwitch via tag body s
  | .mssConfirm via tag body => Sys2Proof.Machine.execMssConfirm via tag body s
  | .mssTrialTimeout => Sys2Proof.Machine.execMssTrialTimeout s
  | .attest via tag body => Sys2Proof.Machine.execAttest via tag body s
  | .getCert via tag body => Sys2Proof.Machine.execGetCert via tag body s
  | .activate via tag body => Sys2Proof.Machine.execActivate via tag body s
  | .mgmtArpRequest target => Sys2Proof.Machine.execMgmtArpRequest target s
  | .mssRestart => Sys2Proof.Machine.execMssRestart s
  | .mssReturn => Sys2Proof.Machine.execMssReturn s
  | .reelSeal => Sys2Proof.Machine.execReelSeal s
  | .reelSealComplete k => Sys2Proof.Machine.execReelSealComplete k s
  | .thermalTrip n v => Sys2Proof.Machine.execThermalTrip n v s
  | .avsLoopUpdate d rates inputW => Sys2Proof.Machine.execAvsLoopUpdate d rates inputW s
  | .floorMiss n => Sys2Proof.Machine.execFloorMiss n s
  | .capUnmet => Sys2Proof.Machine.execCapUnmet s
  | .scrubPass a addr n => Sys2Proof.Machine.execScrubPass a addr n s
  | .arrayErrorCorrected a h unit sub addr => Sys2Proof.Machine.execArrayErrorCorrected a h unit sub addr s
  | .arrayErrorUncorrectable e ns => Sys2Proof.Machine.execArrayErrorUncorrectable e ns s
  | .pipeLaneFault p lane ns => Sys2Proof.Machine.execPipeLaneFault p lane ns s
  | .laneSelftestDone p lane ok => Sys2Proof.Machine.execLaneSelftestDone p lane ok s
  | .tableBankFault p ternary bank ns => Sys2Proof.Machine.execTableBankFault p ternary bank ns s
  | .bankRebuildDone p ternary ns => Sys2Proof.Machine.execBankRebuildDone p ternary ns s
  | .hogsheadBankFault h bank ns => Sys2Proof.Machine.execHogsheadBankFault h bank ns s
  | .powerPhaseLoss h rail phase ns => Sys2Proof.Machine.execPowerPhaseLoss h rail phase ns s
  | .halfFatalFault h rail ns => Sys2Proof.Machine.execHalfFatalFault h rail ns s
  | .vinLockout => Sys2Proof.Machine.execVinLockout s
  | .vinOvervoltage => Sys2Proof.Machine.execVinOvervoltage s
  | .pwrWarnChange driven => Sys2Proof.Machine.execPwrWarnChange driven s
  | .keyRailExcursion => Sys2Proof.Machine.execKeyRailExcursion s
  | .mssDieCold => Sys2Proof.Machine.execMssDieCold s
  | .crystalLoss => Sys2Proof.Machine.execCrystalLoss s
  | .refclkLoss r lost => Sys2Proof.Machine.execRefclkLoss r lost s
  | .linkL1Exit h => Sys2Proof.Machine.execLinkL1Exit h s
  | .d3hotChange h f1 v => Sys2Proof.Machine.execD3hotChange h f1 v s
  | .sensorWarnChange n v => Sys2Proof.Machine.execSensorWarnChange n v s
  | .ppsOutEdge => Sys2Proof.Machine.execPpsOutEdge s
  | .tbNsecRead who wide => Sys2Proof.Machine.execTbNsecRead who wide s
  | .dsErrMessage d => Sys2Proof.Machine.execDsErrMessage d s

end Sys2Proof.Machine
end

