-- ==== Sys2Proof/Machine/Tick.lean ====
section
/-! DEFINITION. What passes with time alone: one nanosecond. -/

namespace Sys2Proof.Machine
open Sys2Proof

/-- Cores in Pavane mode: they take a round in every nanosecond (R37, R242). -/
def Blk.paced (b : Blk) : List Nat := b.cores.cores.keysWhere (fun _ c => c.pavane)

/-- Cores whose change of mode is under way (R244). -/
def Blk.switching (b : Blk) : List Nat := b.cores.cores.keysWhere (fun _ c => c.switchTo.isSome)

/-- A Pavane core's slot of this nanosecond ends. Where SPD_STATUS.floor_miss stands, a slot that a RUNNING thread did not
use may have been missed by the core: a free value says so, and it counts in READY_NOT_ISSUED (R214, R242). -/
def Blk.slotEnds (b : Blk) (c : Nat) : Blk :=
  let t := c * 8 + b.mono % 8
  if b.spd.floorMiss && (b.thread t).st == .running && (b.thread t).lastIssue != some b.mono then
    (if b.freeVal.getLsbD 0 then b.pmcCount t 4 1 else b).drawn 1
  else b

/-- A debug STEP that waits issues once its thread has a slot and is ready (R242, R261). -/
def Blk.stepDue (b : Blk) (t : Nat) : Blk :=
  match (b.thread t).stepping with
  | some w => if (b.thread t).st == .halted then b.stepThread devBus t w else b
  | none => b

/-- One nanosecond: changes of mode that were due have taken effect, what programs wait for and the ports' work are
noted, MONO and the timebase advance, and paced rounds with them (R75, R139, R242, R244, R326). -/
def Blk.tick (b : Blk) : Blk :=
  if b.clk.on then
    let b0 := (List.range 16).foldl Blk.noteBusy b.noteSteps
    let b1 := b0.switching.foldl Blk.tmodeSwitch b0
    let b2 := b1.paced.foldl Blk.slotEnds b1
    let b3 := b2.paced.foldl Blk.coreRound { b2 with clk := b2.clk.tick }
    (b3.cores.threads.keysWhere (fun _ x => x.stepping.isSome)).foldl Blk.stepDue b3
  else b

end Sys2Proof.Machine
end

