-- ==== Sys2Proof/Machine/Step.lean ====
section
/-! DEFINITION. One step of the block: the command at the front of the queue, or a tick of the clock. -/

namespace Sys2Proof.Machine
open Sys2Proof

/-- Take the command at the front of the queue and run it with the rest of the queue; with no command waiting, one
nanosecond passes (DESIGN CHOICE: the table has no row for a tick). -/
def step (s : State) : Host.Outcome State Fault Refusal :=
  match s.pending with
  | [] => s.run Blk.tick
  | c :: rest => exec c { s with pending := rest }

/-- Put the command that a word spells at the front of the queue; no word spells one. -/
def State.withFetchWord (s : State) (nbits w : Nat) : State :=
  match decodeTableWord nbits w with
  | some c => { s with pending := c :: s.pending }
  | none => s

end Sys2Proof.Machine
end

