-- ==== Sys2Proof/Safety.lean ====
section
/-! DEFINITION. The terms that statements are made in: when a thread issues an instruction of its own, what such an
issue leaves alone, and the canonical form of memory. -/

namespace Sys2Proof.Machine
open Sys2Proof

/-- System memory in its one canonical form: addresses strictly rising, no byte listed that reads 0 anyway. -/
def Memory.wf (m : Tab Byte) : Bool := Tab.wf 0 m

/-- Thread `t` has a slot now, its fetch is not refused, and no retrain of the bridge holds a line back (R19, R194, R240
to R242). -/
def Blk.issues (b : Blk) (t : Nat) : Prop :=
  b.canIssueNow t = true ∧ b.fetchCause t (addr48 (b.thread t).pc) = none ∧ b.retrains = false

/-- Two threads agree but for what every issue counts: performance counters, latched events, the last slot (R214, R245). -/
structure Thread.agrees (x y : Thread) : Prop where
  eq : y = { x with pmc := y.pmc, wt := { x.wt with latched := y.wt.latched }, lastIssue := y.lastIssue }

/-- What a step of thread `t` that touches nothing but `t` and the directory's record of some lines leaves alone:
everything outside the cores but the count of free values and those lines; channels and fault rings; threads of other
cores; the thread's fellows on its core that were not in WAIT (a round that a counter counts may end a WAIT, R245). -/
structure Blk.frameBut (b b' : Blk) (t : Nat) (lines : List Nat) : Prop where
  rest : b' = { b with cores := b'.cores, fresh := b'.fresh, dir := b'.dir }
  dir : ∀ l, l ∉ lines → b'.dir.get 0 l = b.dir.get 0 l
  chans : b'.cores.chans = b.cores.chans
  west : b'.cores.fqWest = b.cores.fqWest
  east : b'.cores.fqEast = b.cores.fqEast
  away : ∀ u, u / 8 ≠ t / 8 → b'.thread u = b.thread u
  fellow : ∀ u, u ≠ t → (b.thread u).st ≠ .waiting → (b.thread u).agrees (b'.thread u)

/-- The lines that the fetch of thread `t` reads: the directory sees them (R213). -/
def Blk.fetchLines (b : Blk) (t : Nat) : List Nat := (linesOf t (addr48 (b.thread t).pc) 4 false).map (·.1)

/-- What an issue of thread `t` that touches nothing but `t` leaves alone; the directory sees the fetch. -/
def Blk.issueFrame (b b' : Blk) (t : Nat) : Prop := b.frameBut b' t (b.fetchLines t)

/-- The command completes as an issue of thread `t`: thread `t` becomes `z`, the rest what `base` says, and beyond that
nothing changes but the counters an issue advances. -/
def endsOn (s : State) (c : Instr) (t : Nat) (base : Blk) (z : Thread) : Prop :=
  ∃ s', exec c s = .next s' ∧ s'.pending = s.pending ∧ base.issueFrame s'.blk t ∧ z.agrees (s'.blk.thread t)

/-- The command completes as an issue of thread `t` that changes `t` alone: it becomes `z`. -/
def endsAs (s : State) (c : Instr) (t : Nat) (z : Thread) : Prop := endsOn s c t s.blk z

/-- The command completes: `rd` of thread `t` takes `v` (register 0 takes nothing), the thread goes on at `pc`, and
nothing else changes: no other register of it, not its state, system registers, window, staging or credits, no memory. -/
def completesWith (s : State) (c : Instr) (t : Nat) (rd : GReg) (v pc : W64) : Prop :=
  endsAs s c t { (s.blk.thread t).setReg rd.val v with pc := pc }

/-- `ps` are the pipelines of the block once bytes at the locations that `stored` holds of have been stored: the tables of
a pipeline whose table area was hit are undefined, and nothing else of any pipeline changes (R293). -/
def Blk.tablesAfter (b : Blk) (ps : Tab Pipe) (stored : Nat → Prop) : Prop :=
  ∀ j, ∃ u : Bool, Tab.get ({} : Pipe) ps j = { b.pipe j with undef := u } ∧
    (u = true ↔ (b.pipe j).undef = true ∨
      j < 8 ∧ ∃ a, stored a ∧ tableArea j ≤ a ∧ a < tableArea j + 0x80000000)

/-- What every state of the part satisfies: memory in its canonical form (equal memories are equal
data), at most four live epochs (R29), and the newest of them the epoch in force, with none before epoch 1 (R28). -/
structure Blk.sound (b : Blk) : Prop where
  mem : Memory.wf b.mem = true
  four : b.ctl.live.length ≤ 4
  newest : (b.ctl.live.map (·.num)).getLast? = if b.ctl.newest = 0 then none else some b.ctl.newest

/-- The line of commits holds one program that has passed its checks and carries `x` alone; nothing makes it wait, and no
increment of a trigger counter is due (R29, R32, R139). -/
def Blk.commitDue (b : Blk) (x : CInstr) : Prop :=
  ∃ l, b.ctl.line = [l] ∧ l.checked = true ∧ l.prog.refused = none ∧ l.prog.staged = [x] ∧
    b.mustWait l.prog = false ∧ b.rmt.incs = []

/-- The commit of the instruction `x`, once due, makes the next epoch and leaves a block of which `p` holds. -/
def commitGives (s : State) (x : CInstr) (p : Blk → Prop) : Prop :=
  s.blk.commitDue x → ∃ t, exec .commitProceed s = .next t ∧ t.blk.ctl.newest = s.blk.ctl.newest + 1 ∧ p t.blk

/-- The MSS has answered a request over `v`: a mailbox holds the response in its buffer, DONE, with the parts that GET_MORE
fetches behind it; over any other transport the message was sent (R455 to R457). -/
def Blk.answered (b : Blk) (v : Transport) (cmd : Nat) (tag : W32) (status : Nat) (body : List Byte) : Prop :=
  let now := body.take 4080
  let msg := mssHeader cmd tag status now.length (body.drop 4080).length ++ now
  match v with
  | .mailbox h => (b.mss.mbx.get {} h.val).st = .done ∧ (b.mss.mbx.get {} h.val).rest = body.drop 4080 ∧
      imgBytes (b.mss.mbx.get {} h.val).resp 0 msg.length = msg
  | _ => .mss v msg ∈ b.out

/-- A DEBUG request can be served: the MSS is up, and the transport works or the mailbox holds one (R454, R459). -/
def Blk.debugOpen (b : Blk) (v : Transport) : Bool :=
  b.elec.vin && b.mss.fw.up &&
  match v with
  | .mailbox h => (b.mss.mbx.get {} h.val).st == .busy &&
      ((b.mss.mbx.get {} h.val).req.get 0 0).toNat + 256 * ((b.mss.mbx.get {} h.val).req.get 0 1).toNat == 0x0070
  | .mctpPcie h => (b.port h.val).linkUp && (b.port h.val).f0.ready
  | .mgmt => b.mss.set.mgmtAddr != 0
  | _ => true

end Sys2Proof.Machine
end

