-- ==== Sys2Proof/Certificates/Slice0/Obligations.lean ====
section
/-! DEFINITION. The statements for the provers, family by family. -/

open Sys2Proof Sys2Proof.Machine


/-- R217, R219, R215, R218: rd of every integer operation, with the frame (nothing else of the thread, of memory or of
the rest changes but the program counter and the counters of an issue); and the one-operand ALU funcs that count or
move bits: what CLZ, CTZ, POPC and BSWAP leave in rd; and products and quotients with the defined results for a zero
divisor and for −2^63 by −1; none of them raises an exception; and the major opcode table: register-immediate
operations, SHIFTI, LUI and AUIPC. -/
def Obligations.IntegerInstructions : Prop :=
  (
  ∀ (s : State) (t : Tid) (rd ra rb : GReg), s.blk.issues t.val →
    let x := s.blk.greg t.val ra
    let y := s.blk.greg t.val rb
    let old := s.blk.greg t.val rd
    let ends := fun (c : Instr) (v : W64) => completesWith s c t.val rd v ((s.blk.thread t.val).pc + 4)
    ends (.add t rd ra rb) (x + y) ∧ ends (.sub t rd ra rb) (x - y) ∧
    ends (.and t rd ra rb) (x &&& y) ∧ ends (.or t rd ra rb) (x ||| y) ∧ ends (.xor t rd ra rb) (x ^^^ y) ∧
    ends (.andn t rd ra rb) (x &&& ~~~y) ∧
    ends (.sll t rd ra rb) (BitVec.ofNat 64 (x.toNat * 2 ^ (y.toNat % 64))) ∧
    ends (.srl t rd ra rb) (BitVec.ofNat 64 (x.toNat / 2 ^ (y.toNat % 64))) ∧
    ends (.sra t rd ra rb) (BitVec.ofInt 64 (x.toInt / 2 ^ (y.toNat % 64))) ∧
    ends (.ror t rd ra rb) (x >>> (y.toNat % 64) ||| x <<< (64 - y.toNat % 64)) ∧
    ends (.slt t rd ra rb) (if x.toInt < y.toInt then 1 else 0) ∧
    ends (.sltu t rd ra rb) (if x.toNat < y.toNat then 1 else 0) ∧
    ends (.min t rd ra rb) (BitVec.ofInt 64 (Min.min x.toInt y.toInt)) ∧
    ends (.max t rd ra rb) (BitVec.ofInt 64 (Max.max x.toInt y.toInt)) ∧
    ends (.minu t rd ra rb) (BitVec.ofNat 64 (Min.min x.toNat y.toNat)) ∧
    ends (.maxu t rd ra rb) (BitVec.ofNat 64 (Max.max x.toNat y.toNat)) ∧
    ends (.cmovz t rd ra rb) (if y = 0 then x else old) ∧ ends (.cmovnz t rd ra rb) (if y ≠ 0 then x else old) ∧
    ends (.sextw t rd ra) ((x.setWidth 32).signExtend 64) ∧
    ends (.addw t rd ra rb) ((x.setWidth 32 + y.setWidth 32).signExtend 64) ∧
    ends (.subw t rd ra rb) ((x.setWidth 32 - y.setWidth 32).signExtend 64) ∧
    ends (.sllw t rd ra rb) ((x.setWidth 32 <<< (y.toNat % 32)).signExtend 64) ∧
    ends (.srlw t rd ra rb) ((x.setWidth 32 >>> (y.toNat % 32)).signExtend 64) ∧
    ends (.sraw t rd ra rb) (((x.setWidth 32).sshiftRight (y.toNat % 32)).signExtend 64)) ∧
  (
  ∀ (s : State) (t : Tid) (rd ra : GReg), s.blk.issues t.val →
    let x := s.blk.greg t.val ra
    let ends := fun (c : Instr) (v : W64) => completesWith s c t.val rd v ((s.blk.thread t.val).pc + 4)
    (∃ n : Nat, ends (.clz t rd ra) (BitVec.ofNat 64 n) ∧ n ≤ 64 ∧ (∀ k < n, x.getLsbD (63 - k) = false) ∧
      (n < 64 → x.getLsbD (63 - n) = true)) ∧
    (∃ n : Nat, ends (.ctz t rd ra) (BitVec.ofNat 64 n) ∧ n ≤ 64 ∧ (∀ k < n, x.getLsbD k = false) ∧
      (n < 64 → x.getLsbD n = true)) ∧
    ends (.popc t rd ra) (BitVec.ofNat 64 (∑ k ∈ Finset.range 64, (x.getLsbD k).toNat)) ∧
    (∃ v : W64, ends (.bswap t rd ra) v ∧ ∀ k < 8, v.extractLsb' (8 * k) 8 = x.extractLsb' (56 - 8 * k) 8)) ∧
  (
  ∀ (s : State) (t : Tid) (rd ra rb : GReg), s.blk.issues t.val →
    let x := s.blk.greg t.val ra
    let y := s.blk.greg t.val rb
    let ends := fun (c : Instr) (v : W64) => completesWith s c t.val rd v ((s.blk.thread t.val).pc + 4)
    ends (.mul t rd ra rb) (x * y) ∧
    ends (.mulh t rd ra rb) (((x.signExtend 128 * y.signExtend 128) >>> 64).setWidth 64) ∧
    ends (.mulhu t rd ra rb) (((x.setWidth 128 * y.setWidth 128) >>> 64).setWidth 64) ∧
    ends (.mulw t rd ra rb) ((x.setWidth 32 * y.setWidth 32).signExtend 64) ∧
    ends (.divu t rd ra rb) (if y = 0 then BitVec.allOnes 64 else x / y) ∧
    ends (.remu t rd ra rb) (if y = 0 then x else x % y) ∧
    ends (.div t rd ra rb) (if y = 0 then BitVec.allOnes 64 else x.sdiv y) ∧
    ends (.rem t rd ra rb) (if y = 0 then x else x.srem y) ∧
    (x = BitVec.intMin 64 → y = BitVec.allOnes 64 →
      ends (.div t rd ra rb) (BitVec.intMin 64) ∧ ends (.rem t rd ra rb) 0)) ∧
  (
  ∀ (s : State) (t : Tid) (rd ra : GReg) (imm : W16) (sh : Fin 64), s.blk.issues t.val →
    let x := s.blk.greg t.val ra
    let pc := (s.blk.thread t.val).pc
    let ends := fun (c : Instr) (v : W64) => completesWith s c t.val rd v (pc + 4)
    ends (.addi t rd ra imm) (BitVec.ofInt 64 (x.toInt + imm.toInt)) ∧
    ends (.andi t rd ra imm) (BitVec.ofNat 64 (x.toNat % 65536) &&& imm.setWidth 64) ∧
    ends (.ori t rd ra imm) (x ||| imm.setWidth 64) ∧ ends (.xori t rd ra imm) (x ^^^ imm.setWidth 64) ∧
    ends (.slti t rd ra imm) (if x.toInt < imm.toInt then 1 else 0) ∧
    ends (.sltiu t rd ra imm) (if x.toNat < (imm.signExtend 64).toNat then 1 else 0) ∧
    ends (.addiw t rd ra imm) ((x.setWidth 32 + imm.signExtend 32).signExtend 64) ∧
    ends (.slli t rd ra sh) (BitVec.ofNat 64 (x.toNat * 2 ^ sh.val)) ∧
    ends (.srli t rd ra sh) (BitVec.ofNat 64 (x.toNat / 2 ^ sh.val)) ∧
    ends (.srai t rd ra sh) (BitVec.ofInt 64 (x.toInt / 2 ^ sh.val)) ∧
    ends (.rori t rd ra sh) (x >>> sh.val ||| x <<< (64 - sh.val)) ∧
    ends (.lui t rd imm) (BitVec.ofInt 64 (imm.toInt * 65536)) ∧
    ends (.auipc t rd imm) (pc + BitVec.ofInt 64 (imm.toInt * 65536)))

/-- R218: where a branch, JAL and JALR go, and what they link; branches write no register (register 0 discards). -/
def Obligations.JumpsAndBranches : Prop :=
  ∀ (s : State) (t : Tid) (rd ra rb : GReg) (d : W16) (d21 : BitVec 21), s.blk.issues t.val →
    let x := s.blk.greg t.val ra
    let y := s.blk.greg t.val rb
    let pc := (s.blk.thread t.val).pc
    let goes := fun (c : Instr) (taken : Prop) [Decidable taken] =>
      completesWith s c t.val 0 0 (if taken then pc + BitVec.ofInt 64 (d.toInt * 4) else pc + 4)
    goes (.beq t ra rb d) (x = y) ∧ goes (.bne t ra rb d) (x ≠ y) ∧
    goes (.blt t ra rb d) (x.toInt < y.toInt) ∧ goes (.bge t ra rb d) (y.toInt ≤ x.toInt) ∧
    goes (.bltu t ra rb d) (x.toNat < y.toNat) ∧ goes (.bgeu t ra rb d) (y.toNat ≤ x.toNat) ∧
    completesWith s (.jal t rd d21) t.val rd (pc + 4) (pc + BitVec.ofInt 64 (d21.toInt * 4)) ∧
    ((x + d.signExtend 64).toNat % 4 = 0 →
      completesWith s (.jalr t rd ra d) t.val rd (pc + 4) (x + d.signExtend 64))

/-- R235, R236: bit-field extract and insert, with the place of pos and width in the word and a field past bit 63
illegal; and the flow-hash step. -/
def Obligations.FieldsAndHash : Prop :=
  ∀ (s : State) (t : Tid) (rd ra rb : GReg) (pos wm1 : Fin 64), s.blk.issues t.val →
    let x := s.blk.greg t.val ra
    let old := s.blk.greg t.val rd
    let w := wm1.val + 1
    let ends := fun (c : Instr) (v : W64) => completesWith s c t.val rd v ((s.blk.thread t.val).pc + 4)
    (pos.val + w ≤ 64 →
      (∃ v : W64, ends (.bfx t rd ra pos wm1) v ∧ ∀ k < 64, v.getLsbD k = (decide (k < w) && x.getLsbD (pos.val + k))) ∧
      (∃ v : W64, ends (.bfxs t rd ra pos wm1) v ∧ ∀ k < 64, v.getLsbD k = x.getLsbD (pos.val + Min.min k wm1.val)) ∧
      (∃ v : W64, ends (.bfi t rd ra pos wm1) v ∧ ∀ k < 64, v.getLsbD k =
        if pos.val ≤ k ∧ k < pos.val + w then x.getLsbD (k - pos.val) else old.getLsbD k)) ∧
    (let h1 := (old ^^^ x) * 0x9E3779B97F4A7C15#64
     let h2 := ((h1 ^^^ (h1 >>> 29)) ^^^ s.blk.greg t.val rb) * 0xBF58476D1CE4E5B9#64
     ends (.fhash t rd ra rb) (h2 ^^^ (h2 >>> 32))) ∧
    (∀ f : BfF, (encodePol (.bf f rd ra pos wm1)).extractLsb' 0 6 = BitVec.ofNat 6 pos.val ∧
      (encodePol (.bf f rd ra pos wm1)).extractLsb' 6 6 = BitVec.ofNat 6 wm1.val ∧
      (64 < pos.val + w → decodePol (encodePol (.bf f rd ra pos wm1)) = none))

/-- R233, R234: the ones-complement sums and the CRC32C updates, over a register and over window bytes that lie within
the valid length. -/
def Obligations.SumsAndCrc : Prop :=
  ∀ (s : State) (t : Tid) (rd ra : GReg) (sz : Sz) (n : Fin 1024), s.blk.issues t.val →
    let x := s.blk.greg t.val ra
    let old := s.blk.greg t.val rd
    let win := (s.blk.thread t.val).win
    let off := x.toNat % 512
    let ends := fun (c : Instr) (v : W64) => completesWith s c t.val rd v ((s.blk.thread t.val).pc + 4)
    let carry := fun sum w : Nat => (sum + w) % 65536 + (sum + w) / 65536
    let bit := fun c : W32 => if c.getLsbD 0 then (c >>> 1) ^^^ 0x82F63B78#32 else c >>> 1
    let byte := fun (c : W32) (v : Byte) => bit^[8] (c ^^^ v.setWidth 32)
    ends (.csumReg t rd ra) (BitVec.ofNat 64 ([x.extractLsb' 48 16, x.extractLsb' 32 16, x.extractLsb' 16 16,
      x.extractLsb' 0 16].foldl (fun a w => carry a w.toNat) (old.toNat % 65536))) ∧
    ends (.crcReg t sz rd ra) ((((List.range sz.bytes).map (fun k => x.extractLsb' (8 * k) 8)).foldl byte
      (old.setWidth 32)).setWidth 64) ∧
    (1 ≤ n.val ∧ off + n.val ≤ win.len ∧ win.len ≤ 512 →
      ends (.csumHw t rd ra n) (BitVec.ofNat 64 ((List.range ((n.val + 1) / 2)).foldl (fun a k =>
        carry a ((win.bytes.get 0 (off + 2 * k)).toNat * 256 +
          if 2 * k + 1 < n.val then (win.bytes.get 0 (off + 2 * k + 1)).toNat else 0)) (old.toNat % 65536))) ∧
      ends (.crcHw t rd ra n) ((((List.range n.val).map (fun k => win.bytes.get 0 (off + k))).foldl byte
        (old.setWidth 32)).setWidth 64))

/-- R230, R231, R232: HW.LD and HW.LEN read the window, bytes big-endian; HW.ST stores big-endian, extends the valid
length to the store's end, and the bytes between the old length and the store read 0; and HW.FILL copies n bytes of
normal memory into the window and sets its length; HW.SPILL copies the first n bytes of the window to memory, and no
other byte of memory changes. Every byte must be one that the thread may load, or store. The directory of coherence
may change (R213), and tables whose area a spill hits are undefined (R293). -/
def Obligations.HeaderWindowAll : Prop :=
  (
  ∀ (s : State) (t : Tid) (rd rs ra : GReg) (sz : Sz) (sx : Bool) (off : Fin 512), s.blk.issues t.val →
    let x := s.blk.thread t.val
    let o := (s.blk.greg t.val ra + BitVec.ofNat 64 off.val).toNat
    let n := sz.bytes
    let v := ∑ k ∈ Finset.range n, (x.win.bytes.get 0 (o + k)).toNat * 256 ^ (n - 1 - k)
    completesWith s (.hwLen t rd) t.val rd (BitVec.ofNat 64 x.win.len) (x.pc + 4) ∧
    (o + n ≤ x.win.len → completesWith s (.hwLd t sz sx rd ra off) t.val rd
      (if sx then (BitVec.ofNat (8 * n) v).signExtend 64 else BitVec.ofNat 64 v) (x.pc + 4)) ∧
    (o + n ≤ 512 → ∃ w : HdrWin, endsAs s (.hwSt t sz rs ra off) t.val { x with win := w, pc := x.pc + 4 } ∧
      w.len = Max.max x.win.len (o + n) ∧
      (∀ k < n, w.bytes.get 0 (o + k) = (s.blk.greg t.val rs).extractLsb' (8 * (n - 1 - k)) 8) ∧
      (∀ k, k < x.win.len → (k < o ∨ o + n ≤ k) → w.bytes.get 0 k = x.win.bytes.get 0 k) ∧
      (∀ k, x.win.len ≤ k → k < o → w.bytes.get 0 k = 0))) ∧
  (
  ∀ (s : State) (t : Tid) (rd ra : GReg) (n : Fin 1024), s.blk.issues t.val → 1 ≤ n.val → n.val ≤ 512 →
    let x := s.blk.thread t.val
    let at_ := fun k : Nat => addr48 (s.blk.greg t.val ra + BitVec.ofNat 64 k)
    let loc := fun k : Nat => byteLoc t.val (s.blk.greg t.val ra + BitVec.ofNat 64 k)
    (∀ k < n.val, spaceOf (halfOfThread t.val) (at_ k) 1 = .mem (loc k)) →
    ((∀ k < n.val, x.allowed (at_ k) 1 { r := true } = true ∧ s.blk.anyPoison (loc k) 1 = false) →
      ∃ d w, endsOn s (.hwFill t rd ra n) t.val { s.blk with dir := d }
          { x.setReg rd.val (BitVec.ofNat 64 n.val) with win := w, pc := x.pc + 4 } ∧
        w.len = n.val ∧ ∀ k < n.val, w.bytes.get 0 k = s.blk.byte (loc k)) ∧
    ((∀ k < n.val, x.allowed (at_ k) 1 { w := true } = true) → n.val ≤ x.win.len →
      ∃ m d ps, endsOn s (.hwSpill t ra n) t.val { s.blk with mem := m, dir := d, pipes := ps } { x with pc := x.pc + 4 } ∧
        s.blk.tablesAfter ps (fun a => ∃ k < n.val, a = loc k) ∧
        ((∀ j < n.val, ∀ k < n.val, loc j = loc k → j = k) → ∀ k < n.val, m.get 0 (loc k) = x.win.bytes.get 0 k) ∧
        ∀ a, (∀ k < n.val, a ≠ loc k) → m.get 0 a = s.blk.byte a))

/-- R220, R200: a load of normal memory, in every size, little-endian, zero- or sign-extended; no byte of memory
changes; and a store to normal memory, in every size, little-endian: the bytes from `loc` take those of rs, every
other byte is as before; a store of a whole granule clears its poison, and tables whose area it hits are undefined
(R293). -/
def Obligations.LoadsAndStores : Prop :=
  (
  ∀ (s : State) (t : Tid) (sz : Sz) (sx acq : Bool) (rd ra : GReg) (disp : BitVec 12) (loc : Nat), s.blk.issues t.val →
    (sz = .d → sx = false) →
    let x := s.blk.thread t.val
    let n := sz.bytes
    let a := addr48 (s.blk.greg t.val ra + disp.signExtend 64)
    a % n = 0 → spaceOf (halfOfThread t.val) a n = .mem loc → x.allowed a n { r := true } = true →
    s.blk.anyPoison loc n = false →
    let v := ∑ k ∈ Finset.range n, (s.blk.byte (loc + k)).toNat * 256 ^ k
    ∃ d, endsOn s (.load t sz sx acq rd ra disp) t.val { s.blk with dir := d }
      { x.setReg rd.val (if sx then (BitVec.ofNat (8 * n) v).signExtend 64 else BitVec.ofNat 64 v) with pc := x.pc + 4 }) ∧
  (
  ∀ (s : State) (t : Tid) (sz : Sz) (rel : Bool) (rs ra : GReg) (disp : BitVec 12) (loc : Nat), s.blk.issues t.val →
    let x := s.blk.thread t.val
    let n := sz.bytes
    let a := addr48 (s.blk.greg t.val ra + disp.signExtend 64)
    a % n = 0 → spaceOf (halfOfThread t.val) a n = .mem loc → x.allowed a n { w := true } = true →
    ∃ m p d ps, endsOn s (.store t sz rel rs ra disp) t.val { s.blk with mem := m, poison := p, dir := d, pipes := ps }
        { x with pc := x.pc + 4 } ∧
      s.blk.tablesAfter ps (fun a => loc ≤ a ∧ a < loc + n) ∧
      (∀ k < n, m.get 0 (loc + k) = (s.blk.greg t.val rs).extractLsb' (8 * k) 8) ∧
      (∀ b, b < loc ∨ loc + n ≤ b → m.get 0 b = s.blk.byte b) ∧
      (∀ g, p.get false g = (s.blk.poison.get false g && !(decide (n = 8) && decide (g = loc / 8)))))

/-- R221, R223, R224: the atomics on 8 bytes of normal memory: rd takes the old value, memory what the aop table says,
and every byte outside is as before; CAS stores where rd held the old value; and fences and CACHE PREFETCH only move
on; IINV by system code takes the line from every core's L1I; ZERO writes 64 zero bytes at an aligned address and
clears the poison of all 8 granules. -/
def Obligations.AtomicsFencesCache : Prop :=
  (
  ∀ (s : State) (t : Tid) (o : AmoOrd) (rd ra rb : GReg) (loc : Nat), s.blk.issues t.val →
    let x := s.blk.thread t.val
    let a := addr48 (s.blk.greg t.val ra)
    a % 8 = 0 → spaceOf (halfOfThread t.val) a 8 = .mem loc → x.allowed a 8 { r := true, w := true } = true →
    s.blk.anyPoison loc 8 = false →
    let y := s.blk.greg t.val rb
    let old := BitVec.ofNat 64 (∑ k ∈ Finset.range 8, (s.blk.byte (loc + k)).toNat * 256 ^ k)
    let ends := fun (c : Instr) (new : W64) (stored : Prop) =>
      ∃ m p d ps, endsOn s c t.val { s.blk with mem := m, poison := p, dir := d, pipes := ps }
          { x.setReg rd.val old with pc := x.pc + 4 } ∧
        s.blk.tablesAfter ps (fun b => stored ∧ loc ≤ b ∧ b < loc + 8) ∧ (∀ g, p.get false g = s.blk.poison.get false g) ∧
        (∀ k < 8, m.get 0 (loc + k) = new.extractLsb' (8 * k) 8) ∧ ∀ b, b < loc ∨ loc + 8 ≤ b → m.get 0 b = s.blk.byte b
    let becomes := fun (c : Instr) (new : W64) => ends c new True
    becomes (.amoSwap t o rd ra rb) y ∧ becomes (.amoAdd t o rd ra rb) (old + y) ∧
    becomes (.amoAnd t o rd ra rb) (old &&& y) ∧ becomes (.amoOr t o rd ra rb) (old ||| y) ∧
    becomes (.amoXor t o rd ra rb) (old ^^^ y) ∧
    becomes (.amoMax t o rd ra rb) (BitVec.ofInt 64 (Max.max old.toInt y.toInt)) ∧
    becomes (.amoMin t o rd ra rb) (BitVec.ofInt 64 (Min.min old.toInt y.toInt)) ∧
    becomes (.amoMaxu t o rd ra rb) (BitVec.ofNat 64 (Max.max old.toNat y.toNat)) ∧
    becomes (.amoMinu t o rd ra rb) (BitVec.ofNat 64 (Min.min old.toNat y.toNat)) ∧
    ends (.amoCas t o rd ra rb) (if old = s.blk.greg t.val rd then y else old) (old = s.blk.greg t.val rd)) ∧
  (
  ∀ (s : State) (t : Tid) (ra : GReg) (loc : Nat), s.blk.issues t.val →
    let x := s.blk.thread t.val
    let a := addr48 (s.blk.greg t.val ra)
    let moves := fun c : Instr => endsAs s c t.val { x with pc := x.pc + 4 }
    moves (.fenceLd t) ∧ moves (.fenceSt t) ∧ moves (.fenceAll t) ∧ moves (.cachePrefetch t ra) ∧
    (x.sr.priv = true → moves (.cacheIinv t ra)) ∧
    (x.sr.priv = true → spaceOf (halfOfThread t.val) a 1 = .mem loc →
      ∃ s', exec (.cacheIinv t ra) s = .next s' ∧ ∀ c < 64, ∀ e ∈ (s'.blk.core c).l1i, e.1 ≠ loc / 64) ∧
    (a % 64 = 0 → spaceOf (halfOfThread t.val) a 64 = .mem loc → x.allowed a 64 { w := true } = true →
      ∃ m p d ps, endsOn s (.cacheZero t ra) t.val { s.blk with mem := m, poison := p, dir := d, pipes := ps }
          { x with pc := x.pc + 4 } ∧
        s.blk.tablesAfter ps (fun b => loc ≤ b ∧ b < loc + 64) ∧
        (∀ b, m.get 0 b = if loc ≤ b ∧ b < loc + 64 then 0 else s.blk.byte b) ∧
        ∀ g, p.get false g = (s.blk.poison.get false g && !(decide (loc / 8 ≤ g) && decide (g < loc / 8 + 8)))))

/-- R195, R243, R189: what SR.RD gives for the registers whose value an issue does not advance, in the bits that the
register maps name (RSV bits read as free values, R6), by system code; service code reads those that the index opens
to it. The overflow flags of PMC_CTRL are left out: an issue may set them; and a system register that the privilege
may not reach: PRIV_INSTR where only system code may, ILLEGAL_INSTR where the index lists no such register or the
write has no writable register, with the instruction word in EADDR. -/
def Obligations.SystemRegisterAccess : Prop :=
  (
  ∀ (s : State) (t : Tid) (rd : GReg) (n : BitVec 12), s.blk.issues t.val →
    let x := s.blk.thread t.val
    let core := s.blk.core (t.val / 8)
    let reads := fun (bits : Nat) (v : Nat) => ∃ w : W64, completesWith s (.srRd t rd n) t.val rd w (x.pc + 4) ∧
      w.toNat % 2 ^ bits = v
    let shows := fun (p : W64 → Prop) => ∃ w : W64, completesWith s (.srRd t rd n) t.val rd w (x.pc + 4) ∧ p w
    let mode := s.blk.modeNow (t.val / 8)
    (n.toNat = 0x000 → reads 19 (t.val + t.val % 8 * 512 + t.val / 8 * 4096 + if t.val < 256 then 0 else 262144)) ∧
    (n.toNat = 0x001 → reads 4 (x.sr.priv.toNat + 2 * x.sr.prevPriv.toNat + 4 * x.sr.exc.toNat + 8 * mode.toNat)) ∧
    (n.toNat = 0x013 → reads 12 x.wt.wakeCause.toNat) ∧ (n.toNat = 0x014 → reads 58 x.wt.evmask.toNat) ∧
    (n.toNat = 0x010 → shows (fun w => w.getLsbD 0 = mode ∧
      w.getLsbD 1 = (core.switchTo.isSome && !s.blk.switchDue (t.val / 8)))) ∧
    (n.toNat = 0x011 → shows (fun w => (x.wt.baseMono = true → w = x.wt.tcmp) ∧
      w.extractLsb' 0 30 = x.wt.tcmp.extractLsb' 0 30 ∧ w.extractLsb' 32 32 = x.wt.tcmp.extractLsb' 32 32)) ∧
    (n.toNat = 0x040 → shows (fun w => w.extractLsb' 0 32 = x.pmc.sel ∧ w.extractLsb' 32 4 = x.pmc.enable ∧
      w.getLsbD 36 = x.pmc.svcRead ∧ w.getLsbD 37 = x.pmc.svcOnly)) ∧
    (n.toNat = 0x012 → reads 1 x.wt.baseMono.toNat) ∧ (n.toNat = 0x060 → reads 64 (s.blk.mono % 2 ^ 64)) ∧
    (x.sr.priv = true →
      (n.toNat = 0x002 → reads 64 x.sr.epc.toNat) ∧
      (n.toNat = 0x003 → reads 25 (x.sr.cause.toNat + 256 * x.sr.detail.toNat + 2 ^ 24 * x.sr.fromSystem.toNat)) ∧
      (n.toNat = 0x004 → reads 64 x.sr.eaddr.toNat) ∧ (n.toNat = 0x006 → reads 64 x.sr.scratch0.toNat) ∧
      (n.toNat = 0x007 → reads 64 x.sr.scratch1.toNat) ∧ (n.toNat = 0x008 → reads 64 x.sr.migPc.toNat) ∧
      (n.toNat = 0x005 → shows (fun w => w.getLsbD 0 = x.sr.evecValid ∧ w.extractLsb' 12 52 = x.sr.evecBase)) ∧
      (n.toNat = 0x009 → reads 64 (x.sr.migValid.toNat + 2 * x.sr.migWasExc.toNat + 4 * x.sr.migOldPriv.toNat)) ∧
      (n.toNat = 0x050 → reads 38 (core.replays.toNat + 2 ^ 32 * core.lastThread.toNat + 2 ^ 35 * core.lastPath.toNat +
        2 ^ 37 * core.spared.toNat)) ∧
      (∀ k < 16, let r := x.sr.regions.get {} k
        (n.toNat = 0x020 + 2 * k → shows (fun w => w.getLsbD 0 = r.valid ∧ w.getLsbD 1 = r.r ∧ w.getLsbD 2 = r.w ∧
          w.getLsbD 3 = r.x ∧ w.getLsbD 4 = r.dev ∧ w.extractLsb' 12 52 = r.base)) ∧
        (n.toNat = 0x021 + 2 * k → shows (fun w => w.extractLsb' 12 52 = r.limit))))) ∧
  (
  ∀ (s : State) (t : Tid) (rd ra : GReg) (n : BitVec 12), s.blk.issues t.val →
    let x := s.blk.thread t.val
    x.sr.exc = false → x.sr.evecValid = true →
    let traps := fun (c : Instr) (cause : Nat) (word : W32) => endsAs s c t.val { x with
      pc := BitVec.ofNat 64 (x.sr.evecBase.toNat * 4096 + 0x40 * cause),
      sr := { x.sr with epc := x.pc, cause := BitVec.ofNat 8 cause, detail := 0, fromSystem := x.sr.priv,
                        eaddr := word.setWidth 64, prevPriv := x.sr.priv, priv := true, exc := true } }
    let rdWord := encodePol (.srRd rd n)
    let wrWord := encodePol (.srWr ra n)
    (n.toNat = 0x061 → traps (.srRd t rd n) 1 rdWord ∧ traps (.srWr t ra n) 1 wrWord) ∧
    (x.sr.priv = false → n.toNat = 0x002 → traps (.srRd t rd n) 2 rdWord ∧ traps (.srWr t ra n) 2 wrWord) ∧
    (n.toNat = 0x013 → traps (.srWr t ra n) 1 wrWord) ∧
    (x.sr.priv = true → n.toNat = 0x008 → traps (.srWr t ra n) 1 wrWord))

/-- R195, R201, R209, R214, R222, R243, R244: what SR.WR does to the registers of the thread and of its core: the
fields take the written bits, but that a write of STATUS leaves system code in its privilege (R189), a move's record
is 0 as a whole where it is not valid, and flags and counts of RW1C are cleared by 1; a write of TMODE asks for a
mode; service code writes TCMP, TCMP_BASE and EVMASK. -/
def Obligations.SystemRegisterWrites : Prop :=
  ∀ (s : State) (t : Tid) (ra : GReg) (n : BitVec 12), s.blk.issues t.val →
    let x := s.blk.thread t.val
    let v := s.blk.greg t.val ra
    let sr := fun y : SysRegs => endsAs s (.srWr t ra n) t.val { x with sr := y, pc := x.pc + 4 }
    let wt := fun y : Waiting => endsAs s (.srWr t ra n) t.val { x with wt := y, pc := x.pc + 4 }
    let core := s.blk.core (t.val / 8)
    let does := fun p : Blk → Prop => ∃ s' : State, exec (.srWr t ra n) s = .next s' ∧ p s'.blk ∧
      s.blk.issueFrame s'.blk t.val ∧ ({ x with pc := x.pc + 4 } : Thread).agrees (s'.blk.thread t.val)
    (n.toNat = 0x011 → wt { x.wt with tcmp := v }) ∧ (n.toNat = 0x012 → wt { x.wt with baseMono := v.getLsbD 0 }) ∧
    (n.toNat = 0x014 → wt { x.wt with evmask := v.extractLsb' 0 58 }) ∧
    (x.sr.priv = true →
      (n.toNat = 0x001 → sr { x.sr with priv := true, prevPriv := v.getLsbD 1, exc := v.getLsbD 2 }) ∧
      (n.toNat = 0x002 → sr { x.sr with epc := v }) ∧
      (n.toNat = 0x003 → sr { x.sr with
        cause := v.extractLsb' 0 8, detail := v.extractLsb' 8 16, fromSystem := v.getLsbD 24 }) ∧
      (n.toNat = 0x004 → sr { x.sr with eaddr := v }) ∧
      (n.toNat = 0x005 → sr { x.sr with evecValid := v.getLsbD 0, evecBase := v.extractLsb' 12 52 }) ∧
      (n.toNat = 0x006 → sr { x.sr with scratch0 := v }) ∧ (n.toNat = 0x007 → sr { x.sr with scratch1 := v }) ∧
      (∀ k < 16, n.toNat = 0x020 + 2 * k → ∃ y, sr y ∧ y = { x.sr with regions := y.regions } ∧
        (y.regions.get {} k).valid = v.getLsbD 0 ∧ (y.regions.get {} k).r = v.getLsbD 1 ∧
        (y.regions.get {} k).w = v.getLsbD 2 ∧ (y.regions.get {} k).x = v.getLsbD 3 ∧
        (y.regions.get {} k).dev = v.getLsbD 4 ∧ (y.regions.get {} k).base = v.extractLsb' 12 52 ∧
        (y.regions.get {} k).limit = (x.sr.regions.get {} k).limit ∧
        ∀ j ≠ k, y.regions.get {} j = x.sr.regions.get {} j) ∧
      (∀ k < 16, n.toNat = 0x021 + 2 * k → ∃ y, sr y ∧ y = { x.sr with regions := y.regions } ∧
        y.regions.get {} k = { x.sr.regions.get {} k with limit := v.extractLsb' 12 52 } ∧
        ∀ j ≠ k, y.regions.get {} j = x.sr.regions.get {} j) ∧
      (n.toNat = 0x009 → sr (if x.sr.migValid = true ∧ v.getLsbD 0 = true
        then { x.sr with migWasExc := v.getLsbD 1, migOldPriv := v.getLsbD 2 }
        else { x.sr with migValid := false, migWasExc := false, migOldPriv := false, migPc := 0 })) ∧
      (n.toNat = 0x010 → does (fun b => (b.core (t.val / 8)).pavane = s.blk.modeNow (t.val / 8) ∧
        (b.core (t.val / 8)).switchTo =
          if s.blk.modeNow (t.val / 8) = v.getLsbD 0 then none else some (v.getLsbD 0))) ∧
      (n.toNat = 0x050 → does (fun b => (b.core (t.val / 8)).replays = core.replays &&& ~~~(v.extractLsb' 0 32) ∧
        (b.core (t.val / 8)).lastThread = core.lastThread)) ∧
      (n.toNat = 0x040 → does (fun b => ∃ y, y = (b.thread t.val).pmc ∧ y.sel = v.extractLsb' 0 32 ∧
        y.enable = v.extractLsb' 32 4 ∧ y.svcRead = v.getLsbD 36 ∧ y.svcOnly = v.getLsbD 37 ∧
        (x.pmc.enable = 0 → y.enable = 0 → y.overflow = x.pmc.overflow &&& ~~~(v.extractLsb' 38 4)))) ∧
      (∀ k < 4, n.toNat = 0x048 + k → x.pmc.enable = 0 → does (fun b => (b.thread t.val).pmc.count.get 0 k = v.toNat ∧
        ∀ j ≠ k, (b.thread t.val).pmc.count.get 0 j = x.pmc.count.get 0 j)))

/-- R197, R198, R227, R251, R200, R238: exceptions with a handler in force: SYSCALL saves the next address, BREAK (no
debugger attached) its own, a word that decodes to nothing is illegal with the word in EADDR, a jump or access whose
address is not aligned is MISALIGNED with the address, ERET, IINV and THR.CTL of service code are PRIV_INSTR, a
channel that the thread may not use is CHANNEL_FAULT with its number; ECAUSE holds cause and detail; the thread goes
on at EVEC.base + 0x40 × cause as system code, with exc set and the privilege saved; and without a handler in force
the thread stops in FAULTED with the same saved registers, its program counter and STATUS left alone and its fault
record outstanding; a second exception inside a handler stops it with cause 0x0B, and a load that consumes poison
stops it with cause 0x0A in every case. -/
def Obligations.Exceptions : Prop :=
  (
  ∀ (s : State) (t : Tid) (rd ra rb : GReg) (code : BitVec 12) (imm : W16) (sz : Sz) (sx rel : Bool) (o : AmoOrd)
    (word : W32) (k : Fin 64) (w : Fin 8) (len : Fin 128), s.blk.issues t.val →
    let x := s.blk.thread t.val
    x.sr.exc = false → x.sr.evecValid = true →
    let enters := fun (c : Instr) (cause detail : Nat) (epc eaddr : W64) => endsAs s c t.val { x with
      pc := BitVec.ofNat 64 (x.sr.evecBase.toNat * 4096 + 0x40 * cause),
      sr := { x.sr with epc := epc, cause := BitVec.ofNat 8 cause, detail := BitVec.ofNat 16 detail,
                        fromSystem := x.sr.priv, eaddr := eaddr, prevPriv := x.sr.priv, priv := true, exc := true } }
    let g := s.blk.greg t.val ra
    let a := g + (code.signExtend 64)
    let n := sz.bytes
    enters (.syscall t code) 6 code.toNat (x.pc + 4) 0 ∧
    (x.attached = false → enters (.break_ t code) 7 code.toNat x.pc 0) ∧
    (decodePol word = none → enters (.illegalInstruction t word) 1 0 x.pc (word.setWidth 64)) ∧
    (x.sr.priv = false → enters (.eret t) 2 0 x.pc ((encodePol .eret).setWidth 64)) ∧
    (x.sr.priv = false → enters (.cacheIinv t ra) 2 0 x.pc ((encodePol (.cache .iinv ra)).setWidth 64)) ∧
    ((g + imm.signExtend 64).toNat % 4 ≠ 0 → enters (.jalr t rd ra imm) 3 0 x.pc (g + imm.signExtend 64)) ∧
    (addr48 a % n ≠ 0 → ((sz = .d → sx = false) → enters (.load t sz sx rel rd ra code) 3 0 x.pc a) ∧
      enters (.store t sz rel rd ra code) 3 0 x.pc a) ∧
    (addr48 g % 8 ≠ 0 → enters (.amoCas t o rd ra rb) 3 0 x.pc g) ∧
    (addr48 g % 8 = 0 → spaceOf (halfOfThread t.val) (addr48 g) 8 = .none → enters (.amoAdd t o rd ra rb) 4 0 x.pc g) ∧
    (x.win.len < g.toNat + n → enters (.hwLd t sz sx rd ra 0) 8 0 x.pc g) ∧
    (x.sr.priv = false → enters (.thrCtlStart t rd ra rb) 2 0 x.pc ((encodePol (.thrCtl .start rd ra rb)).setWidth 64)) ∧
    (let c := g.toNat % 4096
     let denied := fun i : Instr => enters i 9 0 x.pc (BitVec.ofNat 64 c)
     (s.blk.mayRecv t.val c = false → denied (.chRecv t rd ra) ∧ denied (.chGet t rd ra w)) ∧
     (s.blk.maySend t.val c = false → denied (.chOpen t rd ra k) ∧ denied (.chPut t rd ra w) ∧
       (1 ≤ len.val → len.val ≤ 64 → denied (.chSend t rd ra len))))) ∧
  (
  ∀ (s : State) (t : Tid) (code : BitVec 12) (rd ra : GReg) (loc : Nat), s.blk.issues t.val →
    let x := s.blk.thread t.val
    let a := s.blk.greg t.val ra + code.signExtend 64
    let stops := fun (c : Instr) (cause detail : Nat) (epc eaddr : W64) => ∃ s' y, exec c s = .next s' ∧
      y.agrees (s'.blk.thread t.val) ∧
      y = { x with st := .faulted, record := true, lastCause := BitVec.ofNat 8 cause, sr := { x.sr with
        epc := epc, cause := BitVec.ofNat 8 cause, detail := BitVec.ofNat 16 detail, fromSystem := x.sr.priv,
        eaddr := eaddr }, wt := { x.wt with waitResume := false, armed := false, moved := false } }
    (x.sr.exc = false → x.sr.evecValid = false → stops (.syscall t code) 6 code.toNat (x.pc + 4) 0) ∧
    (x.sr.exc = true → stops (.syscall t code) 0x0B 0 x.pc 0) ∧
    (addr48 a % 8 = 0 → spaceOf (halfOfThread t.val) (addr48 a) 8 = .mem loc →
      x.allowed (addr48 a) 8 { r := true } = true → s.blk.anyPoison loc 8 = true →
      stops (.load t .d false false rd ra code) 0x0A 0 x.pc a))

/-- R198, R197, R225, R248: ERET by system code restores the privilege, clears exc and goes on at EPC (its low two
bits read 0); BREAK with a debugger attached halts the thread, which keeps RUNNING for GO; and WAIT with nothing
pending under its mask and no timer waits, with the mask in EVMASK; a pending latched event ends it at once: it is
consumed, and WAKE_CAUSE and rd name it. A waiting thread whose armed MONO compare is met wakes with the timer cause.
The thread's counters are off (an overflow is an event of its own). -/
def Obligations.ReturnHaltWait : Prop :=
  (
  ∀ (s : State) (t : Tid) (code : BitVec 12), s.blk.issues t.val →
    let x := s.blk.thread t.val
    (x.sr.priv = true →
      endsAs s (.eret t) t.val { x with pc := pcOf x.sr.epc, sr := { x.sr with priv := x.sr.prevPriv, exc := false } }) ∧
    (x.attached = true → endsAs s (.break_ t code) t.val { x with st := .halted, kept := .running })) ∧
  (
  ∀ (s : State) (t : Tid) (rd ra : GReg),
    let x := s.blk.thread t.val
    let mask : BitVec 58 := (s.blk.greg t.val ra).extractLsb' 0 58
    x.pmc.enable = 0 →
    (s.blk.issues t.val → s.blk.greg t.val ra ≠ 0 → s.blk.evPending t.val &&& mask.toNat = 0 →
      endsAs s (.wait t rd ra false) t.val { x with st := .waiting, wt := { x.wt with
        evmask := mask, armed := false, rd := rd, stepped := false, resumed := false, moved := false, since := s.blk.mono } }) ∧
    (s.blk.issues t.val → s.blk.levels t.val = 0 → ∀ k < 58, s.blk.evPending t.val &&& mask.toNat = 2 ^ k →
      ∃ s' y, exec (.wait t rd ra false) s = .next s' ∧ s.blk.issueFrame s'.blk t.val ∧ y.agrees (s'.blk.thread t.val) ∧
        (s'.blk.thread t.val).wt.latched = x.wt.latched &&& ~~~(BitVec.ofNat 58 (2 ^ k)) ∧
        y = { x.setReg rd.val (BitVec.ofNat 64 (k + 64)) with pc := x.pc + 4, wt := { x.wt with
          evmask := mask, wakeCause := BitVec.ofNat 12 (k + 64), armed := false, rd := rd, stepped := false,
          resumed := false, moved := false, since := s.blk.mono } }) ∧
    (x.st = .waiting → x.wt.armed = true → x.wt.baseMono = true → x.wt.tcmp.toNat ≤ s.blk.mono →
      x.wt.resumed = false → x.wt.moved = false → s.blk.evPending t.val &&& x.wt.evmask.toNat = 0 →
      ∃ s', exec (.tcmpMet t) s = .next s' ∧ s'.blk = { s.blk with cores := s'.blk.cores } ∧
        s'.blk.thread t.val = { x.setReg x.wt.rd.val 128 with st := .running, pc := x.pc + 4, wt := { x.wt with
          wakeCause := 128, armed := false, stepped := false } } ∧
        ∀ u, u ≠ t.val → s'.blk.thread u = s.blk.thread u))

/-- R227, R251, R252: CH.OPEN reserves credits that are free and answers 1, answers 0 and registers the thread where
too few are free, and with n = 0 returns all that the thread holds and registers it. -/
def Obligations.ChannelOpen : Prop :=
  ∀ (s : State) (t : Tid) (rd ra : GReg) (n : Fin 64), s.blk.issues t.val →
    let x := s.blk.thread t.val
    let c := (s.blk.greg t.val ra).toNat % 4096
    let held := x.credits.get 0 c
    s.blk.maySend t.val c = true →
    (1 ≤ n.val → (held ≠ 0 ∨ (x.credits.filter (fun e => e.1 != c)).length < 8) →
      (n.val ≤ s.blk.freeCredits c → held + n.val ≤ 32 → ∃ y : Thread, endsAs s (.chOpen t rd ra n) t.val y ∧
        y = { x.setReg rd.val 1 with credits := y.credits, pc := x.pc + 4 } ∧ y.credits.get 0 c = held + n.val ∧
        ∀ k ≠ c, y.credits.get 0 k = x.credits.get 0 k) ∧
      (s.blk.freeCredits c < n.val → ∃ (s' : State) (y : Thread), exec (.chOpen t rd ra n) s = .next s' ∧ y.agrees (s'.blk.thread t.val) ∧
        y = { x.setReg rd.val 0 with pc := x.pc + 4 } ∧ t.val ∈ (s'.blk.chan c).registered)) ∧
    (n.val = 0 → ∃ (s' : State) (y : Thread),
      exec (.chOpen t rd ra n) s = .next s' ∧ y.agrees (s'.blk.thread t.val) ∧
      y = { x.setReg rd.val 0 with staging := y.staging, credits := y.credits, pc := x.pc + 4 } ∧
      (∀ k, y.credits.get 0 k = if k = c then 0 else x.credits.get 0 k) ∧ (∀ w < 8, y.staging.get 0 (c * 8 + w) = 0) ∧
      t.val ∈ (s'.blk.chan c).registered)

/-- R227, R251, R253: CH.PUT fills a staging word; CH.SEND publishes the first len bytes of staging as the newest
message on its way, clears staging, uses one credit and answers those left; a message that arrives is queued in the
receiver's half; CH.RECV takes the oldest into the receive buffer (0 where none is queued); CH.GET reads the buffer.
-/
def Obligations.ChannelMessages : Prop :=
  ∀ (s : State) (t : Tid) (rd rs ra : GReg) (w : Fin 8) (len : Fin 128), s.blk.issues t.val →
    let x := s.blk.thread t.val
    let c := (s.blk.greg t.val ra).toNat % 4096
    let held := x.credits.get 0 c
    let staged := fun k : Nat => (x.staging.get 0 (c * 8 + k / 8)).extractLsb' (8 * (k % 8)) 8
    (s.blk.maySend t.val c = true → 1 ≤ held →
      (∃ y : Thread, endsAs s (.chPut t rs ra w) t.val y ∧ y = { x with staging := y.staging, pc := x.pc + 4 } ∧
        y.staging.get 0 (c * 8 + w.val) = s.blk.greg t.val rs ∧
        ∀ k ≠ c * 8 + w.val, y.staging.get 0 k = x.staging.get 0 k) ∧
      (1 ≤ len.val → len.val ≤ 64 → ∃ (s' : State) (y : Thread) (m : ChMsg), exec (.chSend t rd ra len) s = .next s' ∧ y.agrees (s'.blk.thread t.val) ∧
        y = { x.setReg rd.val (BitVec.ofNat 64 (held - 1)) with staging := y.staging, credits := y.credits, pc := x.pc + 4 } ∧
        y.credits.get 0 c = held - 1 ∧ (∀ k < 8, y.staging.get 0 (c * 8 + k) = 0) ∧
        (s'.blk.chan c).transit = (s.blk.chan c).transit ++ [m] ∧ m.len = len.val ∧
        (∀ k < len.val, (m.words.get 0 (k / 8)).extractLsb' (8 * (k % 8)) 8 = staged k) ∧
        ∀ k, len.val ≤ k → k < 64 → (m.words.get 0 (k / 8)).extractLsb' (8 * (k % 8)) 8 = 0#8)) ∧
    (s.blk.mayRecv t.val c = true →
      ((s.blk.chan c).queue = [] → completesWith s (.chRecv t rd ra) t.val rd 0 (x.pc + 4)) ∧
      (∀ m r, (s.blk.chan c).queue = m :: r →
        (∀ u ∈ (s.blk.chan c).registered, (s.blk.thread u).st ≠ .waiting) →
        ∃ (s' : State) (y : Thread), exec (.chRecv t rd ra) s = .next s' ∧ y.agrees (s'.blk.thread t.val) ∧
          y = { x.setReg rd.val (BitVec.ofNat 64 m.len) with recv := y.recv, pc := x.pc + 4 } ∧
          Tab.get ({} : RecvBuf) y.recv c = { words := m.words, len := m.len } ∧
          (∀ k ≠ c, Tab.get ({} : RecvBuf) y.recv k = Tab.get {} x.recv k) ∧
          (s'.blk.chan c).queue = r ∧ (s'.blk.chan c).registered = [] ∧
          ∀ u ∈ (s.blk.chan c).registered,
            (s'.blk.thread u).wt.latched.getLsbD (s.blk.chan c).creditEvent.toNat = true) ∧
      completesWith s (.chGet t rd ra w) t.val rd ((Tab.get ({} : RecvBuf) x.recv c).words.get 0 w.val) (x.pc + 4)) ∧
    (∀ (cid : ChanId) (m : ChMsg) (r : List ChMsg), (s.blk.chan cid.val).transit = m :: r →
      let h := halfOfThread (s.blk.chan cid.val).receiver.toNat
      let crosses := m.src ≠ h ∧ (s.blk.bridgeTo h).retrain = none ∧ s.blk.dataTurn h = true
      let down := s.blk.boot.state = bsRecovery ∧ s.blk.mp h = 0
      (m.src = h ∨ crosses ∧ ¬ down → ∃ s', exec (.channelMessageQueued cid) s = .next s' ∧
        (s'.blk.chan cid.val).transit = r ∧ (s'.blk.chan cid.val).queue = (s.blk.chan cid.val).queue ++ [m]) ∧
      (crosses → down → ∃ s', exec (.channelMessageQueued cid) s = .next s' ∧ (s'.blk.chan cid.val).transit = r ∧
        (s'.blk.chan cid.val).queue = (s.blk.chan cid.val).queue ∧
        s'.blk.halfDown.get 0 h.code = sat64 (s.blk.halfDown.get 0 h.code) 1) ∧
      (m.src ≠ h → (s.blk.bridgeTo h).retrain.isSome = true → exec (.channelMessageQueued cid) s = .next s))

/-- R229, R238, R239, R245, R254, R256 to R260: THR.CTL by system code on another thread: START of a stopped thread
runs it at rb as system code with the header window empty, no handler in force, no credits and nothing latched; STOP
of a running one; RESUME of one that was stopped; each answers 0, and 1 where the target's state does not accept the
op. STOP alone applies to the issuing thread; and the writes of the THREAD block by a thread: the fields take the
written bits; a SOFT event is latched; an enabled channel or ring keeps its fields; SUP is not moved to a thread of
the other half; FQ_CI does not pass FQ_PI. Everything outside the cores and the staging latches is as before; a writer
that is no thread changes nothing. -/
def Obligations.ThreadControlAndBlock : Prop :=
  (
  ∀ (s : State) (t u : Tid) (rd ra rb : GReg), s.blk.issues t.val →
    let x := s.blk.thread t.val
    let z := s.blk.thread u.val
    x.sr.priv = true → (s.blk.greg t.val ra).toNat % 512 = u.val →
    let answers := fun (c : Instr) (v : W64) (y : Thread) => ∃ s' : State, exec c s = .next s' ∧
      ({ x.setReg rd.val v with pc := x.pc + 4 } : Thread).agrees (s'.blk.thread t.val) ∧ y.agrees (s'.blk.thread u.val)
    (u ≠ t →
      (z.st = .stopped → (∃ s', exec (.thrCtlStart t rd ra rb) s = .next s' ∧ (s'.blk.thread u.val).wt.latched = 0) ∧
        answers (.thrCtlStart t rd ra rb) 0 { z with
          st := .running, started := true, byStop := false, pc := pcOf (s.blk.greg t.val rb), staging := [], win := {},
          credits := [], sr := { z.sr with priv := true, exc := false, evecValid := false }, wt := { z.wt with
            evmask := 0, armed := false, waitResume := false, resumed := false, stepped := false, moved := false } }) ∧
      (z.st = .running → answers (.thrCtlStop t rd ra rb) 0 { z with
        st := .stopped, byStop := true, wt := { z.wt with waitResume := false } }) ∧
      (z.st = .stopped → z.byStop = true → z.wt.waitResume = false → answers (.thrCtlResume t rd ra rb) 0 { z with
        st := .running, byStop := false }) ∧
      (z.st = .halted → answers (.thrCtlStart t rd ra rb) 1 z ∧ answers (.thrCtlStop t rd ra rb) 1 z ∧
        answers (.thrCtlResume t rd ra rb) 1 z)) ∧
    (u = t → completesWith s (.thrCtlStart t rd ra rb) t.val rd 1 (x.pc + 4) ∧
      completesWith s (.thrCtlResume t rd ra rb) t.val rd 1 (x.pc + 4) ∧
      endsAs s (.thrCtlStop t rd ra rb) t.val { x.setReg rd.val 0 with
        st := .stopped, byStop := true, pc := x.pc + 4, wt := { x.wt with waitResume := false } })) ∧
  (
  ∀ (s : State) (w t : Tid) (c : ChanId) (g : Fin 64) (h : Half) (v : W64),
    let who := Who.thread w
    let keeps := fun s' : State => s'.blk = { s.blk with cores := s'.blk.cores, stg := s'.blk.stg }
    ((s.blk.thread t.val).st ≠ .waiting → ∃ s', exec (.thrSignalWrite who t v) s = .next s' ∧ keeps s' ∧
      (s'.blk.thread t.val).wt.latched =
        (s.blk.thread t.val).wt.latched ||| ((v.extractLsb' 32 16).setWidth 58 <<< 32)) ∧
    ((s.blk.chan c.val).enable = false → v.getLsbD 9 = false → ∃ s', exec (.chCfgWrite who c v) s = .next s' ∧ keeps s' ∧
      s'.blk.chan c.val = { s.blk.chan c.val with
        receiver := v.extractLsb' 0 9, creditsM1 := v.extractLsb' 10 8, rxEvent := v.extractLsb' 18 5,
        creditEvent := v.extractLsb' 24 5, senders := v.extractLsb' 29 2, sender := v.extractLsb' 31 9,
        hw := v.getLsbD 40 }) ∧
    ((s.blk.chan c.val).enable = true → v.getLsbD 9 = true → ∃ s', exec (.chCfgWrite who c v) s = .next s' ∧
      s'.blk = { s.blk with stg := s'.blk.stg }) ∧
    ((s.blk.chan c.val).enable = false → v.getLsbD 9 = true →
      s.blk.halfCredits (halfOfThread (v.extractLsb' 0 9).toNat) + (v.extractLsb' 10 8).toNat + 1 ≤ 32768 →
      ∃ s', exec (.chCfgWrite who c v) s = .next s' ∧ keeps s' ∧ (s'.blk.chan c.val).enable = true ∧
        (s'.blk.chan c.val).receiver = v.extractLsb' 0 9 ∧ (s'.blk.chan c.val).creditsM1 = v.extractLsb' 10 8) ∧
    ((s.blk.chan c.val).enable = true → v.getLsbD 9 = false → ∃ s', exec (.chCfgWrite who c v) s = .next s' ∧ keeps s' ∧
      (s'.blk.chan c.val).enable = false ∧ (s'.blk.chan c.val).queue = [] ∧ (s'.blk.chan c.val).transit = [] ∧
      (s'.blk.chan c.val).registered = []) ∧
    ((s.blk.fq h).waitingRecs = [] → (s.blk.thread (s.blk.fq h).sup.toNat).st ≠ .waiting →
      ∃ s', exec (.fqBaseWrite who h v) s = .next s' ∧ keeps s' ∧ s'.blk.fq h = { s.blk.fq h with
        enable := v.getLsbD 0, base := if (s.blk.fq h).enable then (s.blk.fq h).base else v.extractLsb' 12 52 }) ∧
    (∃ s', exec (.fqCiWrite who h v) s = .next s' ∧ keeps s' ∧ (s'.blk.fq h).ci =
      if (v.extractLsb' 0 16 - (s.blk.fq h).ci).toNat ≤ ((s.blk.fq h).pi - (s.blk.fq h).ci).toNat
      then v.extractLsb' 0 16 else (s.blk.fq h).ci) ∧
    ((s.blk.thread (v.extractLsb' 0 9).toNat).st ≠ .waiting → ∃ s', exec (.supWrite who h v) s = .next s' ∧ keeps s' ∧
      (s'.blk.fq h).sup = if halfOfThread (v.extractLsb' 0 9).toNat = h then v.extractLsb' 0 9 else (s.blk.fq h).sup) ∧
    ((s.blk.members (v.extractLsb' 0 6).toNat).length < 64 → ∃ s', exec (.thrGroupWrite who t v) s = .next s' ∧ keeps s' ∧
      (s'.blk.thread t.val).group = v.extractLsb' 0 6 ∧ (s'.blk.thread t.val).member = v.getLsbD 6) ∧
    (∃ s', exec (.grpCtrlWrite who g v) s = .next s' ∧ keeps s' ∧ (s'.blk.group g.val).enable = v.getLsbD 0 ∧
      (s'.blk.group g.val).east = v.getLsbD 1 ∧
      (s'.blk.group g.val).raised = ((s.blk.group g.val).raised && !v.getLsbD 3)) ∧
    (∀ o : Who, (∀ u, o ≠ .thread u) → ∀ i ∈ [Instr.thrSignalWrite o t v, .chCfgWrite o c v, .fqBaseWrite o h v,
      .fqCiWrite o h v, .supWrite o h v, .thrGroupWrite o t v, .grpCtrlWrite o g v], exec i s = .next s))

/-- R244, R259, R260: a write of TMODE by system code asks for the other mode, which takes effect at a later
nanosecond (into Pavane mode one where MONO is a multiple of 8); DEADLOCK is raised in an enabled group whose members
have all been blocked for 1 µs, once. -/
def Obligations.ModeAndDeadlock : Prop :=
  ∀ (s : State) (t : Tid) (c : CoreId) (g : Fin 64) (pavane : Bool),
    ((s.blk.thread t.val).sr.priv = true → (s.blk.core (t.val / 8)).pavane = !pavane →
      ∃ s', exec (.tmodeWrite t pavane) s = .next s' ∧ s'.blk = { s.blk with cores := s'.blk.cores } ∧
        (s'.blk.core (t.val / 8)).switchTo = some pavane ∧ (s'.blk.core (t.val / 8)).pavane = !pavane) ∧
    ((s.blk.thread t.val).sr.priv = false → exec (.tmodeWrite t pavane) s = .next s) ∧
    (∀ m, (s.blk.core c.val).switchTo = some m → (s.blk.core c.val).switchAt < s.blk.mono → (m = true → s.blk.mono % 8 = 0) →
      ∃ s', exec (.tmodeSwitch c) s = .next s' ∧ s'.blk = { s.blk with cores := s'.blk.cores } ∧
        (s'.blk.core c.val).pavane = m ∧ (s'.blk.core c.val).switchTo = none) ∧
    ((s.blk.group g.val).enable = true → (s.blk.group g.val).raised = false → s.blk.deadlocked g.val = true →
      s.blk.deadSince g.val + 1000 ≤ s.blk.mono →
      ((s.blk.group g.val).record = true ∨
        (s.blk.thread (s.blk.fq (if (s.blk.group g.val).east then .east else .west)).sup.toNat).st ≠ .waiting) →
      ∃ s', exec (.deadlockRaise g) s = .next s' ∧ (s'.blk.group g.val).raised = true ∧
        (s'.blk.group g.val).snap = (s.blk.members g.val).map (fun u => (u, (s.blk.thread u).wt.evmask)) ∧
        ((s.blk.group g.val).record = true → s'.blk = { s.blk with cores := s'.blk.cores }))

/-- R3, R4, R5, R6: an access that is not a register access completes with no effect, a read of it gives 0; a high-
word write is held in the writer's staging latch alone; a low-word write is one write of both words, with the latch's
value on top, and clears the latch (shown of ERR_ROUTE); a low-word read gives the low word and latches the high one
for the reader, both of one value, which agrees with the register in its bits that are not RSV; of MONO it is the
count; and a field takes the written bits (RW), keeps its value (RO), or is cleared by 1 (RW1C): ERR_ROUTE, the base
of a control queue that is disabled and of one that is enabled, MONO, SPD_STATUS from the owner. -/
def Obligations.RegisterAccessRules : Prop :=
  (
  ∀ (s : State) (who : Who) (r : Reg) (off : Fin 8) (n : Fin 9) (v : W32), s.blk.gate who r = .pass →
    (properAccess r off.val n.val = false →
      exec (.misalignedRegisterAccess who r off n true) s = .next s ∧
      exec (.misalignedRegisterAccess who r off n false) s = .next { s with blk := s.blk.emit (.readData who 0) }) ∧
    (r.wide = true →
      (∃ s', exec (.highWordWrite who r v) s = .next s' ∧ s'.blk = { s.blk with stg := s'.blk.stg } ∧
        s'.blk.staged who r = v ∧ ∀ w q, (w, q) ≠ (who, r) → s'.blk.staged w q = s.blk.staged w q) ∧
      (exec (.lowWordWrite who r v) s = exec (.registerWrite who r
          (BitVec.ofNat 64 ((s.blk.staged who r).toNat * 2 ^ 32 + v.toNat))) s) ∧
      (r = .errRoute → ∃ s', exec (.lowWordWrite who r v) s = .next s' ∧ s'.blk.staged who r = 0)) ∧
    (r.wide = true → ∃ (s' : State) (w : W64), exec (.lowWordRead who r) s = .next s' ∧
      w &&& ~~~(BitVec.ofNat 64 r.rsv) = BitVec.ofNat 64 (s.blk.regVal who r) &&& ~~~(BitVec.ofNat 64 r.rsv) ∧
      s'.blk.out = .readData who ((w.extractLsb' 0 32).setWidth 64) :: s.blk.out ∧
      s'.blk.hlat.find? (fun e => e.1 == (who, r)) = some ((who, r), w.extractLsb' 32 32) ∧
      s'.blk = { s.blk with out := s'.blk.out, hlat := s'.blk.hlat, pm := s'.blk.pm, fresh := s'.blk.fresh }) ∧
    (r = .mono → s.blk.regVal who r = s.blk.mono % 2 ^ 64 ∧ r.rsv = 0)) ∧
  (
  ∀ (s : State) (who : Who) (h : PortId) (v : W64),
    let keeps := fun (c : Instr) (f : Blk → Blk) => ∃ s', exec c s = .next s' ∧
      s'.blk = { f s.blk with stg := s'.blk.stg }
    (s.blk.gate who .errRoute = .pass → keeps (.registerWrite who .errRoute v) (fun b => { b with rel := { b.rel with
      rThread := v.extractLsb' 0 9, rUnit := v.extractLsb' 9 3, rEnable := v.getLsbD 12 } })) ∧
    (s.blk.gate who .mono = .pass → keeps (.registerWrite who .mono v) id) ∧
    (s.blk.gate (.f0 h) .spdStatus = .pass → s.blk.ownerPort = h.val → keeps (.registerWrite (.f0 h) .spdStatus v)
      (fun b => { b with spd := { b.spd with
        floorMiss := b.spd.floorMiss && !v.getLsbD 0, capUnmet := b.spd.capUnmet && !v.getLsbD 1 } })) ∧
    (s.blk.gate (.f0 h) (.ctlWqBase h.val) = .pass →
      ∃ s', exec (.registerWrite (.f0 h) (.ctlWqBase h.val) v) s = .next s' ∧
        s'.blk = { s.blk with stg := s'.blk.stg, ports := s'.blk.ports } ∧
        s'.blk.port h.val = { s.blk.port h.val with ctlWqBase :=
          if (s.blk.port h.val).ctlWqEn then (s.blk.port h.val).ctlWqBase else v.extractLsb' 12 52 } ∧
        ∀ k ≠ h.val, s'.blk.port k = s.blk.port k))

/-- R76, R80, R82, R52, R53, R84: what PERST#, a hot reset, a function-level reset and the loss of a link leave of a
port: both functions at reset, the CTL and INT queues disabled, the engine reset (a running one halting for the lost
link, none of its requests outstanding, where the link is lost), and every instance that was bound detached. No RESET
request of the MSS waits (its answer is another statement's); and PERST# released trains the link to the width
negotiated, at the highest speed of both ends, in FLIT mode at 64 GT/s always; the functions answer once ready; a hot
insertion trains the link of a port whose link is down afresh with configuration space at reset and the ROM rebuilt.
-/
def Obligations.PortResetsAndTraining : Prop :=
  (
  ∀ (s : State) (h : PortId), s.blk.mss.resetting = [] →
    let p := s.blk.port h.val
    let lost := fun t : State => ∀ i ∈ s.blk.boundInsts h.val, (t.blk.inst i).detached = true
    let closed := fun q : HostPort => q.ctlWqEn = false ∧ q.ctlCqEn = false ∧ q.eqEn = false
    (∃ t, exec (.perstAssert h) s = .next t ∧ (t.blk.port h.val).perst = true ∧ (t.blk.port h.val).linkUp = false ∧
      (t.blk.port h.val).f0 = {} ∧ (t.blk.port h.val).f1 = {} ∧ closed (t.blk.port h.val) ∧
      (t.blk.port h.val).equalised = false ∧ t.blk.eng h.val = { haltCount := (s.blk.eng h.val).haltCount } ∧ lost t) ∧
    (p.linkUp = true → ∃ t, exec (.hotReset h) s = .next t ∧ (t.blk.port h.val).linkUp = true ∧
      (t.blk.port h.val).f0 = {} ∧ (t.blk.port h.val).f1 = {} ∧ closed (t.blk.port h.val) ∧
      (t.blk.port h.val).equalised = p.equalised ∧ t.blk.eng h.val = { haltCount := (s.blk.eng h.val).haltCount } ∧ lost t) ∧
    (p.f0.flr = false → ∃ t, exec (.flr h false) s = .next t ∧
      t.blk.port h.val = { p with f0 := { p.f0 with flr := true, inta := false, pba := [] } } ∧
      (t.blk.eng h.val).gen = (s.blk.eng h.val).gen + 1) ∧
    (p.f1.flr = false → (s.blk.boundInsts h.val).Nodup → ∃ t, exec (.flr h true) s = .next t ∧
      (t.blk.port h.val).f1 = { p.f1 with flr := true, inta := false, pba := [] } ∧ (t.blk.port h.val).f0 = p.f0 ∧
      ∀ i ∈ s.blk.boundInsts h.val, (t.blk.inst i).gen = (s.blk.inst i).gen + 1) ∧
    (p.f1.flr = true → ∃ t, exec (.flrComplete h true) s = .next t ∧ (t.blk.port h.val).f1 = { ready := true } ∧ lost t) ∧
    (p.f0.flr = true → ∃ t, exec (.flrComplete h false) s = .next t ∧ (t.blk.port h.val).f0 = { ready := true } ∧
      closed (t.blk.port h.val) ∧ t.blk.eng h.val = { haltCount := (s.blk.eng h.val).haltCount }) ∧
    (p.linkUp = true → ∃ t, exec (.surpriseRemoval h) s = .next t ∧
      (t.blk.port h.val).linkUp = false ∧ (t.blk.port h.val).removed = true ∧ lost t ∧ (t.blk.eng h.val).ending = 0 ∧
      ((s.blk.eng h.val).st = .running → (t.blk.eng h.val).st = .halting ∧ (t.blk.eng h.val).cause = 6))) ∧
  (
  ∀ (s : State) (h : PortId) (w : BitVec 6) (top : Fin 6) (flit : Bool),
    let p := s.blk.port h.val
    (p.perst = true → s.blk.absent h.val = false → s.blk.mss.powered = true → h.val ∉ s.blk.elec.refLost →
      w.toNat ∈ [1, 2, 4, 8, 16] → w.toNat ≤ s.blk.maxWidth h.val →
      ∃ t, exec (.perstRelease h w ⟨top, flit⟩) s = .next t ∧ (t.blk.port h.val).perst = false ∧
        (t.blk.port h.val).linkUp = true ∧ (t.blk.port h.val).width = w ∧
        (t.blk.port h.val).speed = BitVec.ofNat 4 (top.val + 1) ∧
        ((t.blk.port h.val).flit = true ↔ flit = true ∨ top.val = 5)) ∧
    (p.linkUp = true → ∃ t, exec (.functionsReady h) s = .next t ∧
      t.blk.port h.val = { p with f0 := { p.f0 with ready := true }, f1 := { p.f1 with ready := true } } ∧
      t.blk = { s.blk with ports := t.blk.ports } ∧ ∀ k ≠ h.val, t.blk.port k = s.blk.port k) ∧
    (p.linkUp = false → p.perst = false → s.blk.absent h.val = false → s.blk.mss.powered = true →
      h.val ∉ s.blk.elec.refLost → w.toNat ∈ [1, 2, 4, 8, 16] → w.toNat ≤ s.blk.maxWidth h.val →
      ∃ t, exec (.hotInsertion h w ⟨top, flit⟩) s = .next t ∧ (t.blk.port h.val).linkUp = true ∧
        (t.blk.port h.val).width = w ∧ (t.blk.port h.val).speed = BitVec.ofNat 4 (top.val + 1) ∧
        (t.blk.port h.val).rom = true ∧ (t.blk.port h.val).removed = false ∧
        (t.blk.port h.val).f0.ready = false ∧ (t.blk.port h.val).f0.memEn = false ∧ (t.blk.port h.val).f1.memEn = false))

/-- R69, R72, R78, R59, R61, R62, R64, R81: Bus Master Enable and the power state of a function take their new value,
and with nothing that waits to be sent nothing else changes; Function Mask, MSI-X Enable and the mask of one vector
likewise, where the INTx state stays; a vector that a function lacks has no mask; MSI-X Enable takes an asserted INTA
back; a pending message whose mask is cleared is sent and its bit cleared; and accesses that no register serves: while
memory space is closed they answer Unsupported Request (a write during a function-level reset is discarded); while it
is open an address that no block covers reads zeros and discards writes; a doorbell page of an instance that is not
bound reads zeros and counts its writes; the aperture reaches the bytes of the instance's device memory, and past it,
or where the instance is not bound, it counts and answers a read Unsupported Request. -/
def Obligations.HostAccesses : Prop :=
  (
  ∀ (s : State) (h : PortId) (f1 v : Bool) (k : Fin 2048),
    let p := s.blk.port h.val
    let x := s.blk.fn h.val f1
    let becomes := fun (t : State) (y : Fn) =>
      t.blk.port h.val = (if f1 then { p with f1 := y } else { p with f0 := y }) ∧
      t.blk = { s.blk with ports := t.blk.ports } ∧ ∀ j ≠ h.val, t.blk.port j = s.blk.port j
    let waitsNot : Prop := x.pba = [] ∧ s.blk.rmt.incs = [] ∧
      if f1 then ∀ i ∈ s.blk.boundInsts h.val,
        (∀ e ∈ s.blk.cqs, e.1 / 64 = i → e.2.held = [] ∧ e.2.mirrorHeld = false) ∧ ∀ e ∈ s.blk.eqs, e.1 / 8 ≠ i
      else p.ctlCq.held = [] ∧ p.eq.srcs = [] ∧ ∀ c < 32, (s.blk.chn h.val c).st ≠ .bmeOff
    let still := fun en : Bool => p.linkUp = false ∨ x.flr = true ∨
      (x.inta = false ∧ (x.intDis = true ∨ en = true ∨ s.blk.intSource h.val f1 = false))
    let sends := fun t : State => (t.blk.fn h.val f1).pba = [] ∧
      t.blk.out = .msix h.val f1 k.val (Tab.get ({} : MsiVec) x.vecs k.val).addr
        (Tab.get ({} : MsiVec) x.vecs k.val).data :: s.blk.out
    let due : Prop := x.pba = [(k.val, true)] ∧ x.msixEn = true ∧ x.inta = false ∧ s.blk.canIssue h.val f1 = true ∧
      (Tab.get ({} : MsiVec) x.vecs k.val).addr.toNat % 4 = 0
    (waitsNot →
      (∃ t, exec (.busMasterEnableChange h f1 v) s = .next t ∧ becomes t { x with busMaster := v }) ∧
      (∃ t, exec (.d3hotChange h f1 v) s = .next t ∧ becomes t { x with d3 := v })) ∧
    (x.pba = [] →
      (still x.msixEn → ∃ t, exec (.msixMaskChange h f1 (.fnMask v)) s = .next t ∧ becomes t { x with fnMask := v }) ∧
      (still v → ∃ t, exec (.msixMaskChange h f1 (.enable v)) s = .next t ∧ becomes t { x with msixEn := v }) ∧
      (still x.msixEn → f1 = true ∨ k.val < 32 → ∃ t vecs, exec (.msixMaskChange h f1 (.vector k v)) s = .next t ∧
        becomes t { x with vecs := vecs } ∧
        Tab.get ({} : MsiVec) vecs k.val = { Tab.get ({} : MsiVec) x.vecs k.val with mask := v } ∧
        ∀ j ≠ k.val, Tab.get ({} : MsiVec) vecs j = Tab.get ({} : MsiVec) x.vecs j) ∧
      (p.linkUp = true → x.flr = false → x.inta = true → ∃ t, exec (.msixMaskChange h f1 (.enable true)) s = .next t ∧
        t.blk.fn h.val f1 = { x with msixEn := true, inta := false } ∧ t.blk.out = .intx h.val f1 false :: s.blk.out)) ∧
    (f1 = false → 32 ≤ k.val → exec (.msixMaskChange h f1 (.vector k v)) s = .next s) ∧
    (due → x.fnMask = true → (Tab.get ({} : MsiVec) x.vecs k.val).mask = false →
      ∃ t, exec (.msixMaskChange h f1 (.fnMask false)) s = .next t ∧ sends t) ∧
    (due → x.fnMask = false → (Tab.get ({} : MsiVec) x.vecs k.val).mask = true → f1 = true ∨ k.val < 32 →
      ∃ t, exec (.msixMaskChange h f1 (.vector k false)) s = .next t ∧ sends t)) ∧
  (
  ∀ (s : State) (h : PortId) (f1 wr : Bool) (inst : InstId) (n : Fin 4097) (m : Fin 9) (off : Fin 2097152)
      (l : List (Option Byte)) (loc : Nat → Nat),
    let b := s.blk
    let reads := fun (t : State) (l : List Byte) => t.blk = b.emit (.hostRead h.val l)
    let refuses := fun c : Instr => ∃ t, exec c s = .next t ∧ t.blk = b.emit (.ur h.val)
    let counted := fun c : Blk => c = { b with ports := c.ports } ∧
      c.port h.val = { b.port h.val with unbound := sat64 (b.port h.val).unbound 1 } ∧ ∀ j ≠ h.val, c.port j = b.port j
    let shut : Prop := (b.fn h.val f1).memEn = false ∨ (b.fn h.val f1).flr = true
    (b.memOpen h.val f1 = true → exec (.barAccessUnserved h f1 true n) s = .next s ∧
      ∃ t, exec (.barAccessUnserved h f1 false n) s = .next t ∧ reads t (List.replicate n.val 0)) ∧
    (shut → (wr = false ∨ (b.fn h.val f1).memEn = false → refuses (.barAccessUnserved h f1 wr n)) ∧
      (wr = true → (b.fn h.val f1).memEn = true → exec (.barAccessUnserved h f1 wr n) s = .next s)) ∧
    (f1 = true → shut →
      (wr = false ∨ (b.fn h.val f1).memEn = false → refuses (.doorbellPageUnbound h inst wr m)) ∧
      (wr = true → (b.fn h.val f1).memEn = true → exec (.doorbellPageUnbound h inst wr m) s = .next s) ∧
      refuses (.apertureAccess h inst off (.read n)) ∧
      ((b.fn h.val f1).memEn = false → refuses (.apertureAccess h inst off (.write l))) ∧
      ((b.fn h.val f1).memEn = true → exec (.apertureAccess h inst off (.write l)) s = .next s)) ∧
    (b.memOpen h.val true = true →
      (b.boundTo inst.val h.val = true → exec (.doorbellPageUnbound h inst wr m) s = .next s) ∧
      (b.boundTo inst.val h.val = false →
        (∃ t, exec (.doorbellPageUnbound h inst true m) s = .next t ∧ counted t.blk) ∧
        (∃ t, exec (.doorbellPageUnbound h inst false m) s = .next t ∧ reads t (List.replicate m.val 0)) ∧
        (∃ t, exec (.apertureAccess h inst off (.write l)) s = .next t ∧ counted t.blk) ∧
        (∃ t c, exec (.apertureAccess h inst off (.read n)) s = .next t ∧ t.blk = Blk.emit c (.ur h.val) ∧ counted c)) ∧
      (b.boundTo inst.val h.val = true → b.apertureLen inst.val < off.val + l.length →
        ∃ t, exec (.apertureAccess h inst off (.write l)) s = .next t ∧ counted t.blk) ∧
      (b.boundTo inst.val h.val = true → b.apertureLen inst.val < off.val + n.val →
        ∃ t c, exec (.apertureAccess h inst off (.read n)) s = .next t ∧ t.blk = Blk.emit c (.ur h.val) ∧ counted c) ∧
      (b.boundTo inst.val h.val = true → off.val + n.val ≤ b.apertureLen inst.val → b.poison = [] →
        (∀ k < n.val, b.devLoc inst.val (off.val + k) = some (loc k)) →
        ∃ t, exec (.apertureAccess h inst off (.read n)) s = .next t ∧
          reads t ((List.range n.val).map (fun k => b.byte (loc k)))) ∧
      (b.boundTo inst.val h.val = true → off.val + l.length ≤ b.apertureLen inst.val →
        (∀ k < l.length, b.devLoc inst.val (off.val + k) = some (loc k)) →
        (∀ j < l.length, ∀ k < l.length, loc j = loc k → j = k) →
        ∃ t, exec (.apertureAccess h inst off (.write l)) s = .next t ∧
          (∀ k v, l[k]? = some (some v) → t.blk.byte (loc k) = v) ∧
          (∀ a, (∀ k v, l[k]? = some (some v) → loc k ≠ a) → t.blk.byte a = b.byte a) ∧
          t.blk = { b with mem := t.blk.mem, poison := t.blk.poison, dir := t.blk.dir, cores := t.blk.cores,
                           pipes := t.blk.pipes })))

/-- R59, R80, R82, R92, R513, R74, R75: a write to the load window of a port that may load, while its load area may be
written, stores the bytes whose enables are set and no other; where the port may not load, the write is refused with
its reason, and nothing is stored; while the area is verified or activated, or beyond it, nothing is stored; a stale
completion is counted, for the port and for its instance, and one that the lost link left outstanding for the port;
any other is left to its command; and link power states and LTR: entry to L1 and to a substate where the host has
enabled it (which enables hold for a substate is the model's reading of PCI Express), and its exit; L0p halves and
restores the lanes; an LTR message where the port's activity calls for another value than the last, 100 µs only after
1 ms with no work. -/
def Obligations.LoadWindowAndLinkPower : Prop :=
  (
  ∀ (s : State) (h : PortId) (off : Fin 1073741824) (l : List (Option Byte)) (inst : InstId) (gen : BitVec 12) (lost : Bool)
      (r : Nat),
    let b := s.blk
    let c := Instr.loadWindowWrite h off l
    let counted := fun t : State => t.blk.port h.val = { b.port h.val with discard := sat64 (b.port h.val).discard 1 } ∧
      ∀ j ≠ h.val, t.blk.port j = b.port j
    ((b.fn h.val false).memEn = false → ∃ t, exec c s = .next t ∧ t.blk = b.emit (.ur h.val)) ∧
    ((b.fn h.val false).memEn = true → (b.fn h.val false).flr = true → exec c s = .next s) ∧
    (b.memOpen h.val false = true → 268435456 ≤ off.val → exec c s = .next s) ∧
    (b.memOpen h.val false = true → off.val < 268435456 →
      (b.loadFault h.val = some r → ∃ t, exec c s = .next t ∧ t.blk = { b with boot := t.blk.boot, ctl := t.blk.ctl } ∧
        (t.blk.bport h.val).reason = BitVec.ofNat 16 r ∧ (t.blk.bport h.val).source = 3 ∧
        (t.blk.bport h.val).area = (b.bport h.val).area) ∧
      (b.loadFault h.val = none → (b.bport h.val).verifying = true ∨ b.activating h.val = true → exec c s = .next s) ∧
      (b.loadFault h.val = none → (b.bport h.val).verifying = false → b.activating h.val = false →
        ∃ t, exec c s = .next t ∧ t.blk = { b with boot := t.blk.boot } ∧
          (∀ k v, l[k]? = some (some v) → off.val + k < 268435456 →
            Tab.get 0 (t.blk.bport h.val).area (off.val + k) = v) ∧
          ∀ a, (∀ k v, l[k]? = some (some v) → a ≠ off.val + k) ∨ 268435456 ≤ a →
            Tab.get 0 (t.blk.bport h.val).area a = Tab.get 0 (b.bport h.val).area a)) ∧
    (gen ≠ (b.inst inst.val).gen → ∃ t, exec (.hostCompletionRx h (some inst) gen lost) s = .next t ∧ counted t ∧
      t.blk.inst inst.val = { b.inst inst.val with stale := sat64 (b.inst inst.val).stale 1 } ∧
      (∀ j ≠ inst.val, t.blk.inst j = b.inst j) ∧ t.blk = { b with ports := t.blk.ports, insts := t.blk.insts }) ∧
    (gen = (b.inst inst.val).gen → lost = true → ∃ t, exec (.hostCompletionRx h (some inst) gen lost) s = .next t ∧
      counted t ∧ t.blk = { b with ports := t.blk.ports }) ∧
    (gen = (b.inst inst.val).gen → lost = false → exec (.hostCompletionRx h (some inst) gen lost) s = .next s) ∧
    (gen ≠ (b.eng h.val).gen ∨ lost = true → ∃ t, exec (.hostCompletionRx h none gen lost) s = .next t ∧
      counted t ∧ t.blk = { b with ports := t.blk.ports }) ∧
    (gen = (b.eng h.val).gen → lost = false → exec (.hostCompletionRx h none gen lost) s = .next s)) ∧
  (
  ∀ (s : State) (h : PortId) (v : Nat),
    let p := s.blk.port h.val
    let pm := Tab.get LinkPm.l0 s.blk.pm h.val
    let pci : Bool := p.f0.d3 && p.f1.d3
    let power := fun (t : State) (x : LinkPm) => Tab.get LinkPm.l0 t.blk.pm h.val = x ∧
      ∀ k ≠ h.val, Tab.get LinkPm.l0 t.blk.pm k = Tab.get LinkPm.l0 s.blk.pm k
    let goes := fun (c : Instr) (x : LinkPm) => ∃ t, exec c s = .next t ∧ power t x ∧
      t.blk = { s.blk with pm := t.blk.pm, out := .link h.val x :: s.blk.out }
    let turns := fun (c : Instr) (q : HostPort) => ∃ t, exec c s = .next t ∧ t.blk.port h.val = q ∧
      t.blk = { s.blk with ports := t.blk.ports } ∧ ∀ k ≠ h.val, t.blk.port k = s.blk.port k
    let tells := fun (c : Instr) (v : Nat) => ∃ t, exec c s = .next t ∧ t.blk.port h.val = { p with ltr := some v } ∧
      (∀ k ≠ h.val, t.blk.port k = s.blk.port k) ∧ power t .l0 ∧
      t.blk = { s.blk with ports := t.blk.ports, pm := t.blk.pm, out := .ltr h.val v :: s.blk.out }
    (p.linkUp = true → pm = .l0 → p.l1En = true →
      goes (.linkL1Entry h .l1) .l1 ∧
      ((if pci then p.pl11En else p.l11En) = true → goes (.linkL1Entry h .l11) .l11) ∧
      ((if pci then p.pl12En else p.l12En) = true → p.ltr = some v →
        p.l12Value.toNat * 32 ^ p.l12Scale.toNat ≤ v * 1000 → goes (.linkL1Entry h .l12) .l12)) ∧
    (p.l1En = false ∨ pm ≠ .l0 → ∀ x, exec (.linkL1Entry h x) s = .next s) ∧
    (pm ≠ .l0 → goes (.linkL1Exit h) .l0) ∧
    (p.linkUp = true → p.l0pEn = true → p.flit = true → pm = .l0 → 4 ≤ p.lanes.toNat →
      turns (.l0pNarrowing h) { p with lanes := BitVec.ofNat 6 (p.lanes.toNat / 2) }) ∧
    turns (.l0pWidening h) { p with lanes := p.width } ∧
    (p.ltrEn = true → p.linkUp = true → s.blk.portBusy h.val = false → p.busyAt + 1000000 ≤ s.blk.mono → p.ltr ≠ some 100 →
      tells (.ltrIdleUpdate h) 100) ∧
    (p.ltrEn = true → p.linkUp = true → s.blk.portBusy h.val = true → p.ltr ≠ some 2 → tells (.ltrActiveUpdate h) 2) ∧
    (p.ltrEn = false ∨ p.ltr = some 100 → exec (.ltrIdleUpdate h) s = .next s) ∧
    (p.ltrEn = false ∨ p.ltr = some 2 → exec (.ltrActiveUpdate h) s = .next s))

/-- R89, R91, R92, R93, R94, R96: what BOOT_LOAD_CTRL and the verify do of a port's load. A verify asked for by a port
that may load goes to the line; between meeting point 1 and RUNNING a loader's ends in IMAGE_PRESENT; any other is
refused with its reason. A discard empties the area. At start-up an image that fails a check is refused with its
reason and the part waits again; one that passes is in force, the part trains, and thread 0 of each half's first core
starts at its entry point; when RUNNING it is staged if it may be activated live. A retained image that still passes
is in force again. -/
def Obligations.ImageLoading : Prop :=
  ∀ (s : State) (h : PortId) (us : W16) (r : Nat) (x : Image),
    let b := s.blk
    let p := b.bport h.val
    let refused := fun (t : State) (r : Nat) => t.blk.bport h.val = { p with
      status := 5, reason := BitVec.ofNat 16 r, source := 0 } ∧ t.blk.boot.state = b.boot.state ∧
      t.blk.boot.verifyLine = b.boot.verifyLine
    let starts := fun (t : State) (x : Image) => t.blk.boot.state = 2 ∧ t.blk.boot.mpWest = 1 ∧ t.blk.boot.mpEast = 1 ∧
      t.blk.boot.image = some x ∧ ∀ k, k = 0 ∨ k = 256 → (t.blk.thread k).st = .running ∧
        (t.blk.thread k).sr.priv = true ∧ (t.blk.thread k).pc = pcOf (BitVec.ofNat 64 x.entry)
    (b.memOpen h.val false = true →
      (p.verifying = true → exec (.bootVerifyRequest h) s = .next s) ∧
      (p.verifying = false → b.starting = true → b.loaderAllowed h.val = true → ∃ t,
        exec (.bootVerifyRequest h) s = .next t ∧ t.blk = { b with boot := t.blk.boot } ∧
        t.blk.bport h.val = { p with status := 4, winner := b.boot.winner } ∧ t.blk.boot.verifyLine = b.boot.verifyLine) ∧
      (p.verifying = false → b.starting = false ∨ b.loaderAllowed h.val = false → b.loadFault h.val = some r →
        ∃ t, exec (.bootVerifyRequest h) s = .next t ∧ refused t r) ∧
      (p.verifying = false → b.boot.state = 6 → h.val = b.ownerPort →
        ∃ t, exec (.bootVerifyRequest h) s = .next t ∧ refused t 0x0514) ∧
      (p.verifying = false → b.starting = false ∨ b.loaderAllowed h.val = false → b.loadFault h.val = none →
        b.boot.state ≠ 6 → ∃ t, exec (.bootVerifyRequest h) s = .next t ∧ t.blk = { b with boot := t.blk.boot } ∧
          t.blk.bport h.val = { p with status := if b.boot.verifyLine = [] ∧ b.boot.retained = none then 2 else 1 } ∧
          t.blk.boot.verifyLine = b.boot.verifyLine ++ [h.val] ∧
          t.blk.boot.state = if b.loading then 1 else b.boot.state) ∧
      (p.verifying = true ∨ b.activating h.val = true → exec (.bootLoadDiscard h) s = .next s) ∧
      (p.verifying = false → b.activating h.val = false →
        ∃ t, exec (.bootLoadDiscard h) s = .next t ∧ t.blk = { b with boot := t.blk.boot } ∧
          t.blk.bport h.val = { p with area := [], status := if p.status = 6 then 0 else p.status } ∧
          (b.boot.stagedPort = h.val → t.blk.boot.staged = none) ∧ ∀ k ≠ h.val, t.blk.bport k = b.bport k)) ∧
    (b.boot.retained = none → b.boot.verifyLine = [] → exec (.bootVerifyComplete us) s = .next s) ∧
    (b.boot.retained = none → b.boot.verifyLine = [h.val] → p.rst = false →
      ∃ t, exec (.bootVerifyComplete us) s = .next t ∧ t.blk.boot.verifyLine = [] ∧
        match imageFault p.area false b.mss.fw.imageMinSec with
        | some r => t.blk.bport h.val = { p with
            status := 5, reason := BitVec.ofNat 16 r, source := 0, verifyUs := us } ∧
            t.blk.boot.state = if b.loading then 0 else b.boot.state
        | none =>
          if b.loading then (t.blk.bport h.val).status = 3 ∧ (t.blk.bport h.val).verifyUs = us ∧
            (t.blk.bport h.val).area = [] ∧ (t.blk.bport h.val).winner = BitVec.ofNat 4 h.val ∧ starts t (imageOf p.area)
          else t.blk.boot.state = b.boot.state ∧
            if (imageOf p.area).live then t.blk.bport h.val = { p with status := 6, verifyUs := us } ∧
              t.blk.boot.staged = some (imageOf p.area) ∧ t.blk.boot.stagedPort = h.val
            else t.blk.bport h.val = { p with status := 5, reason := 0x0513, source := 0, verifyUs := us } ∧
              t.blk.boot.staged = b.boot.staged) ∧
    (b.boot.retained = some (x, none) → ∃ t, exec (.bootVerifyComplete us) s = .next t ∧ t.blk.boot.retained = none ∧
      starts t x) ∧
    (b.boot.retained = some (x, some r) → ∃ t, exec (.bootVerifyComplete us) s = .next t ∧ t.blk.boot.retained = none ∧
      (t.blk.bport b.boot.imagePort.toNat).reason = BitVec.ofNat 16 r ∧ t.blk.boot.image = b.boot.image)

/-- R20, R21, R88, R95: the end of training with no unit that failed gives every half meeting point 2 and instance 0
to the owner port; a unit that failed has its spare, or the part fails; an enable request of the owner is accepted
once trained with both halves ready, and refused with the first reason that applies, which the model also keeps in the
states that stand before the consistency check (log 112); any other port is refused. -/
def Obligations.TrainingAndEnable : Prop :=
  ∀ (s : State) (h : PortId) (ready : Bool) (u : FailedUnit),
    let b := s.blk
    (b.boot.state = 2 →
      (b.boot.jigFailed = [] → ∃ t, exec (.dataPlaneTrained []) s = .next t ∧
        t.blk = { b with boot := t.blk.boot, ctl := t.blk.ctl } ∧
        t.blk.boot = { b.boot with state := 3, mpWest := b.boot.mpWest ||| 2, mpEast := b.boot.mpEast ||| 2 } ∧
        t.blk.cfg.inst 0 = { life := .enabled, port := BitVec.ofNat 4 b.ownerPort } ∧
        ∀ i ≠ 0, t.blk.cfg.inst i = b.cfg.inst i) ∧
      (b.boot.jigFailed = [] → ∃ t, exec (.dataPlaneTrained [u]) s = .next t ∧
        t.blk.boot.state = (if (b.spareFor u).isSome then 3 else 15) ∧
        t.blk.boot.trainFailed = (b.boot.trainFailed || (b.spareFor u).isNone)) ∧
      (b.boot.jigFailed ≠ [] → ∃ t, exec (.dataPlaneTrained []) s = .next t ∧ t.blk.boot.state = 15 ∧
        t.blk.boot.trainFailed = true)) ∧
    (b.boot.state ≠ 2 → ∀ l, exec (.dataPlaneTrained l) s = .next s) ∧
    (b.memOpen h.val false = true →
      (h.val ≠ b.ownerPort → ∃ t, exec (.bootEnableRequest h ready) s = .next t ∧
        t.blk.bport h.val = { b.bport h.val with reason := 0x0210, source := 1 } ∧ t.blk.boot.enable = b.boot.enable ∧
        t.blk.boot.state = b.boot.state) ∧
      (h.val = b.ownerPort → b.boot.enable = true → exec (.bootEnableRequest h ready) s = .next s) ∧
      (h.val = b.ownerPort → b.boot.enable = false →
        let reason : Option Nat :=
          if b.boot.state = 8 then some 0x0515 else if b.boot.state ≠ 3 ∧ b.boot.state ≠ 15 then some 0x0511
          else if ready = false then some 0x0430 else if b.boot.trainFailed = true then some 0x0431
          else if b.keys.alarm = true then some 0x0620 else none
        (reason = none → exec (.bootEnableRequest h ready) s =
          .next { s with blk := { b with boot := { b.boot with enable := true, state := 4 } } }) ∧
        ∀ r, reason = some r → ∃ t, exec (.bootEnableRequest h ready) s = .next t ∧ t.blk.boot.enable = false ∧
          t.blk.boot.refused = true ∧ t.blk.boot.state = b.boot.state ∧
          t.blk.bport h.val = { b.bport h.val with reason := BitVec.ofNat 16 r, source := 1 }))

/-- R89, R97, R98: live activation: the owner's command takes the staged image, or is refused with its reason, as that
of any other port is; the image's sections stand in the firmware memory of both halves, and nothing else of memory
changes; each half's threads move in ascending order, the supervisor's last, to migrate_entry as system code with the
old program counter kept; at the end the part runs again and the version floor has risen to the image's. -/
def Obligations.LiveActivation : Prop :=
  ∀ (s : State) (h : PortId) (x : Image) (a : Activation) (h2 : Half) (u : Nat),
    let b := s.blk
    let y := b.thread u
    let sup := (b.fq h2).sup.toNat
    let turned := fun r : Nat => ∃ t, exec (.liveActivate h) s = .next t ∧ (t.blk.bport h.val).reason = BitVec.ofNat 16 r ∧
      (t.blk.bport h.val).source = 2 ∧ t.blk.boot.act = b.boot.act ∧ t.blk.boot.state = b.boot.state ∧
      t.blk.boot.staged = b.boot.staged
    (b.memOpen h.val false = true →
      (h.val = b.ownerPort → b.boot.state = 5 → b.boot.staged = some x →
        ∃ t, exec (.liveActivate h) s = .next t ∧ t.blk = { b with boot := t.blk.boot } ∧ t.blk.boot.state = 6 ∧
          t.blk.boot.staged = none ∧
          t.blk.boot.act = some { port := b.boot.stagedPort, phase := 0, moved := [], image := x } ∧
          (t.blk.bport b.boot.stagedPort).status = 7) ∧
      (h.val ≠ b.ownerPort → turned 0x0210) ∧
      (h.val = b.ownerPort → b.boot.state = 8 → turned 0x0515) ∧
      (h.val = b.ownerPort → b.boot.state = 6 → turned 0x0514) ∧
      (h.val = b.ownerPort → b.boot.state ≠ 8 → b.boot.state ≠ 6 → b.boot.staged = none → turned 0x0513)) ∧
    (b.boot.act = some a → a.phase = 0 →
      (∀ c ∈ a.image.sections, fwBase ≤ c.1 ∧ c.1 + c.2.length ≤ fwBase + fwSize) →
      a.image.sections.Pairwise (fun c d => c.1 + c.2.length ≤ d.1 ∨ d.1 + d.2.length ≤ c.1) →
      ∃ t, exec .activationImagePlaced s = .next t ∧ t.blk.boot = { b.boot with act := some { a with phase := 1 } } ∧
        t.blk = { b with boot := t.blk.boot, mem := t.blk.mem, poison := t.blk.poison, cores := t.blk.cores } ∧
        (∀ c ∈ a.image.sections, ∀ k < c.2.length,
          c.2[k]? = some (t.blk.byte (c.1 + k)) ∧ c.2[k]? = some (t.blk.byte (c.1 + 2 ^ 30 + k))) ∧
        ∀ z, (∀ c ∈ a.image.sections, ∀ k < c.2.length, z ≠ c.1 + k ∧ z ≠ c.1 + 2 ^ 30 + k) →
          t.blk.byte z = b.byte z) ∧
    (b.boot.act = some a → a.phase = 1 → u / 256 = h2.code → u ∉ a.moved →
      (u ≠ sup ∧ (∀ v < u, v / 256 = h2.code → v ∈ a.moved ∨ v = sup) ∨
        u = sup ∧ (∀ v, v / 256 = h2.code → v ∈ a.moved ∨ v = sup)) →
      ∃ t, exec (.activationThreadMove h2) s = .next t ∧
        t.blk.boot = { b.boot with act := some { a with
          moved := u :: a.moved, phase := if a.moved.length = 511 then 2 else 1 } } ∧
        (∀ v ≠ u, t.blk.thread v = b.thread v) ∧
        (y.started = false → t.blk.thread u = y) ∧
        (y.started = true →
          let sr := { y.sr with
            migPc := y.pc, migValid := true, migWasExc := y.sr.exc, migOldPriv := y.sr.priv, priv := true }
          (t.blk.thread u).pc = pcOf (BitVec.ofNat 64 a.image.migrate) ∧ (t.blk.thread u).sr = sr ∧
          (y.st ≠ .waiting → t.blk.thread u = { y with
            pc := pcOf (BitVec.ofNat 64 a.image.migrate), sr := sr,
            wt := { y.wt with moved := y.wt.moved || y.wt.waitResume } }))) ∧
    (b.boot.act = some a → a.phase = 3 → b.boot.heldReset = [] → b.mss.resetting = [] →
      ∃ t, exec .activationFinish s = .next t ∧ t.blk.boot.act = none ∧ t.blk.boot.state = 5 ∧
        t.blk.mss.fw.imageMinSec = max b.mss.fw.imageMinSec a.image.secVersion ∧
        (t.blk.bport a.port).status = 8 ∧ (t.blk.bport a.port).area = [])

/-- R85, R87: VIN reaches 9 V: the straps are sampled, the rails come up at nominal with the bank that verifies; with
none the MSS stays in its ROM. R99, R100: Jig mode begins, once the rails are up, and takes its tests one by one; a
failing unit that no spare covers is kept for the next start-up; the array test leaves every key erased. -/
def Obligations.PowerUpAndJig : Prop :=
  ∀ (s : State) (boot owner : BitVec 4) (any jig bank : Bool) (item : JigItem) (u : FailedUnit),
    let b := s.blk
    let f := b.mss.fw
    let valid := fun k : Bool => if k then f.validB else f.validA
    let straps := fun o : Boot => { b.boot with
      strapBoot := boot, strapOwner := owner, strapAny := any, strapJig := jig, jig := jig } = o
    (b.elec.vin = false →
      (f.validA = false → f.validB = false → f.trialNext = false →
        ∃ t, exec (.powerUp boot owner any jig) s = .next t ∧ straps t.blk.boot ∧ t.blk.mss.fw.inRom = true ∧
          t.blk.mss.fw.up = false ∧ t.blk.mss.powered = b.mss.powered ∧ t.blk.elec.vin = true) ∧
      ((f.trialNext = true ∧ bank = !f.active) ∨ (f.trialNext = false ∧ valid f.active = true ∧ bank = f.active) ∨
          (f.trialNext = false ∧ valid f.active = false ∧ valid (!f.active) = true ∧ bank = !f.active) →
        ∃ t, exec (.powerUp boot owner any jig) s = .next t ∧ straps t.blk.boot ∧ t.blk.mss.fw.up = true ∧
          t.blk.mss.fw.running = bank ∧ t.blk.mss.powered = true ∧ t.blk.clk.on = true ∧ t.blk.elec.vin = true ∧
          (∀ d < 8, (Tab.get ({} : SpdDom) t.blk.spd.doms d).supplyMv = BitVec.ofNat 12 (Config.nominalMv d)) ∧
          ∀ h < 16, (t.blk.port h).rom = true)) ∧
    (b.boot.jig = true → b.mss.powered = true → b.boot.state ≠ 8 → exec .jigEntry s =
      .next { s with blk := { b with boot := { b.boot with state := 8, jigLeft := List.range 8, jigFailed := [] } } }) ∧
    (b.boot.jig = false ∨ b.mss.powered = false → exec .jigEntry s = .next s) ∧
    (jigCode item ∈ b.boot.jigLeft → ∀ cores units others, let fails := jigFails cores units others
      fails = [] ∨ fails = [u] → ∃ t, exec (.jigTestDone item cores units others) s = .next t ∧
        t.blk.boot = { b.boot with
          jigLeft := b.boot.jigLeft.filter (· ≠ jigCode item),
          jigFailed := b.boot.jigFailed ++ if (b.spareFor u).isSome then [] else fails } ∧
        (item = .arrays → ∀ k, (t.blk.slot k).cur = none ∧ (t.blk.slot k).old = none ∧ (t.blk.slot k).next = none))

/-- R104, R107, R108, R111, R126: a doorbell starts a scan over the queues that are READY, or one more pass over a
scan that runs; the fetch that a settled scan comes to reads the entry at CI: an entry that passes the format check
belongs to the part, with CI one up, one that does not stops its queue in ERROR with the index latched, and so does a
failed read, and one that runs out of time; an instruction of a control queue, WQ 0 of an instance among them, waits
to be handled. -/
def Obligations.DoorbellAndFetch : Prop :=
  ∀ (s : State) (h : PortId) (inst : InstId) (q : Fin 64) (l : List Byte) (ext : Ans) (c : XFault),
    let b := s.blk
    let w := b.wq inst.val q.val
    let k := 16 + inst.val
    let p := b.port h.val
    (b.memOpen h.val true = true → b.boundTo inst.val h.val = true →
      ((b.cfg.inst inst.val).life ≠ .enabled → exec (.doorbell h inst) s = .next s) ∧
      ((b.cfg.inst inst.val).life = .enabled → inst.val = 0 ∨ b.serving (b.homeOf inst.val) = true →
        ∃ t, exec (.doorbell h inst) s = .next t ∧ t.blk = { b with scans := t.blk.scans } ∧
        (∀ j ≠ k, t.blk.scan j = b.scan j) ∧
        if (b.scan k).active then t.blk.scan k = { b.scan k with rescan := true }
        else (t.blk.scan k).active = true ∧ (t.blk.scan k).rescan = false ∧
          ∀ j, j ∈ (t.blk.scan k).list ↔ j < 64 ∧ b.wqState (.inst inst.val j) = 1)) ∧
    (b.memOpen h.val false = true →
      ((b.scan h.val).active = true → ∃ t, exec (.ctlDoorbell h) s = .next t ∧ t.blk = { b with scans := t.blk.scans } ∧
        t.blk.scan h.val = { b.scan h.val with rescan := true }) ∧
      ((b.scan h.val).active = false → ∃ t, exec (.ctlDoorbell h) s = .next t ∧ t.blk = { b with scans := t.blk.scans } ∧
        t.blk.scan h.val = { active := true, list := if b.wqState (.ctl h.val) = 1 then [0] else [] })) ∧
    ((q.val = 0 → (b.ctlq k).arrived = none ∧ ∀ x ∈ b.ctl.line, x.queue ≠ k) → (b.scan k).active = true → (b.scan k).turn.head? = some q.val → b.wqState (.inst inst.val q.val) = 1 →
      (b.cfg.inst inst.val).life = .enabled → (b.inst inst.val).detached = false → b.serving (b.homeOf inst.val) = true →
      (w.pi - w.ci).toNat ≤ b.wqSize (.inst inst.val q.val) → w.pi ≠ w.ci →
      b.cqSlotFree (.inst inst.val (b.cfg.wq inst.val q.val).cq.toNat) = true →
      b.canIssue (b.cfg.inst inst.val).port.toNat true = true → (b.cfg.inst inst.val).root ≠ 0 →
      (b.cfg.wq inst.val q.val).base.toNat + w.ci.toNat % b.wqSize (.inst inst.val q.val) * 64 < 2 ^ 48 →
      let raw := entOf (slice l 0 64)
      let stops := fun (a : Ans) (r : Nat) => ∃ t, exec (.wqeFetch (.wq inst q) a ext) s = .next t ∧
        t.blk.wq inst.val q.val = { w with st := .error, errIndex := w.ci, errReason := BitVec.ofNat 16 r }
      (q.val = 0 → ∃ t x f, exec (.wqeFetch (.wq inst q) (.ok l) ext) s = .next t ∧ (t.blk.wq inst.val q.val).ci = w.ci + 1 ∧
        (t.blk.ctlq k).arrived = some (w.ci, raw, x, f)) ∧
      (q.val ≠ 0 → fmtCheck (b.cfg.wq inst.val q.val).kind.toNat raw = none →
        ∃ t e, exec (.wqeFetch (.wq inst q) (.ok l) ext) s = .next t ∧ (t.blk.wq inst.val q.val).ci = w.ci + 1 ∧
          (t.blk.wq inst.val q.val).pi = w.pi ∧ (t.blk.wq inst.val q.val).fetched = w.fetched ++ [e] ∧
          e.idx = w.ci ∧ e.raw = raw ∧ e.st = .fetched ∧ e.gen = (b.inst inst.val).gen) ∧
      (∀ r, q.val ≠ 0 → fmtCheck (b.cfg.wq inst.val q.val).kind.toNat raw = some r → stops (.ok l) r) ∧
      stops .busError 0x0521 ∧ stops (.xfault c) (if c = .walkError then 0x0521 else 0x0520) ∧
      ((b.cfg.inst inst.val).port.toNat = h.val → ∃ t, exec (.completionTimeout h (.fetch (.wq inst q))) s = .next t ∧
        t.blk.wq inst.val q.val = { w with st := .error, errIndex := w.ci, errReason := 0x0521 } ∧
        (t.blk.port h.val).aerF1.getLsbD 14 = true)) ∧
    ((b.cfg.inst inst.val).port.toNat ≠ h.val → exec (.completionTimeout h (.fetch (.wq inst q))) s = .next s) ∧
    exec (.completionTimeout h (.fetch .mss)) s = .next s ∧
    ((b.scan h.val).active = true → (b.scan h.val).turn.head? = some 0 → b.wqState (.ctl h.val) = 1 →
      b.atPoint (halfOfPort h.val) 2 = true → (p.ctlWq.pi - p.ctlWq.ci).toNat ≤ 2 ^ p.ctlWqLog2.toNat →
      p.ctlWq.pi ≠ p.ctlWq.ci → p.ctlCqEn = true → b.cqSlotFree (.ctl h.val) = true → b.canIssue h.val false = true →
      (b.ctlq h.val).arrived = none → (∀ x ∈ b.ctl.line, x.queue ≠ h.val) →
      (∃ t x f, exec (.wqeFetch (.ctl h) (.ok l) ext) s = .next t ∧ (t.blk.port h.val).ctlWq.ci = p.ctlWq.ci + 1 ∧
        (t.blk.ctlq h.val).arrived = some (p.ctlWq.ci, entOf (slice l 0 64), x, f)) ∧
      ∀ g ∈ [Instr.wqeFetch (.ctl h) .busError ext, .completionTimeout h (.fetch (.ctl h))], ∃ t, exec g s = .next t ∧
        (t.blk.port h.val).ctlWq.st = .error ∧ (t.blk.port h.val).ctlWq.errIndex = p.ctlWq.ci ∧
        (t.blk.port h.val).ctlWq.errReason = 0x0521) ∧
    (b.mss.fw.up = true → b.cqSlotFree .mss = true → (b.ctlq mssKey).arrived = none →
      (∀ x ∈ b.ctl.line, x.queue ≠ mssKey) →
      ∃ t x f, exec (.wqeFetch .mss (.ok l) ext) s = .next t ∧
        (t.blk.ctlq mssKey).arrived = some ((b.wqOf .mss).ci, entOf (slice l 0 64), x, f))

/-- R105, R106, R109, R115, R120 to R122, R515, R123, R124: index writes of a doorbell page: an index in range is
taken, one too far stops the WQ (INDEX_OVERRUN) or sets ci_error; a CQ is armed, or its notice written at once; int_en
and ci_error of EQ_CTRL; a queue whose cause of waiting has cleared runs again; the fence of the oldest entry is
lifted; a write of a queue or of its mirror that fails translation is held and counted; and the controls of the CTL
and INT blocks: enabling takes the size, resets the indices and makes the WQ READY (in CQ_WAIT while its CQ is
disabled); an asserted INTA of an event queue that is emptied so is taken back; disabling the WQ drops its open
program, and disabling its CQ makes a READY WQ wait; a size out of range leaves the queue as it is. -/
def Obligations.QueueIndicesAndControls : Prop :=
  (
  ∀ (s : State) (h : PortId) (inst : InstId) (q : Fin 64) (e : Fin 8) (v : W32) (c : XFault) (x : Entry) (q8 : Fin 64),
    let b := s.blk
    let i := inst.val
    let w := b.wq i q.val
    let wr : WqR := .inst i q.val
    let v16 : W16 := v.setWidth 16
    let cq := b.cq i q.val
    let counts := fun t : State => t.blk.inst i = { b.inst i with
      xfaults := sat64 (b.inst i).xfaults 1, faultReported := true }
    (b.memOpen h.val true = true → b.boundTo i h.val = true →
      ((v16 - w.ci).toNat ≤ b.wqSize wr → ∃ t, exec (.wqPiWrite h inst q v) s = .next t ∧
        t.blk = { b with wqs := t.blk.wqs } ∧ t.blk.wq i q.val = { w with pi := v16 } ∧
        ∀ j r, (j, r) ≠ (i, q.val) → r < 64 → t.blk.wq j r = b.wq j r) ∧
      (b.wqSize wr < (v16 - w.ci).toNat → b.wqEnabled wr = true → w.st ≠ .error →
        ∃ t, exec (.wqPiWrite h inst q v) s = .next t ∧
          t.blk.wq i q.val = { w with pi := v16, st := .error, errIndex := w.ci, errReason := 0x0104 }) ∧
      (b.rmt.incs = [] → cq.held = [] → (cq.pi - v16).toNat ≤ b.cqSize (.inst i q.val) →
        (v.getLsbD 31 = false ∨ cq.pi = v16 → ∃ t, exec (.cqCiWrite h inst q v) s = .next t ∧
          t.blk = { b with cqs := t.blk.cqs } ∧
          t.blk.cq i q.val = { cq with ci := v16, armed := cq.armed || v.getLsbD 31 }) ∧
        (v.getLsbD 31 = true → cq.pi ≠ v16 → cq.mirrorHeld = false → ∃ t, exec (.cqCiWrite h inst q v) s = .next t ∧
          t.blk.cq i q.val = { cq with ci := v16, armed := false })) ∧
      (b.cqSize (.inst i q.val) < (cq.pi - v16).toNat → b.rmt.incs = [] →
        ∃ t, exec (.cqCiWrite h inst q v) s = .next t ∧ t.blk.cq i q.val = { cq with ciError := true }) ∧
      (b.eqSize (.inst i e.val) < ((b.eq i e.val).pi - v16).toNat → ∃ t, exec (.eqCiWrite h inst e v) s = .next t ∧
        t.blk = { b with eqs := t.blk.eqs } ∧ t.blk.eq i e.val = { b.eq i e.val with ciError := true }) ∧
      (((b.eq i e.val).pi - v16).toNat ≤ b.eqSize (.inst i e.val) → (b.eq i e.val).srcs = [] →
        ∃ t, exec (.eqCiWrite h inst e v) s = .next t ∧ t.blk.eq i e.val = { b.eq i e.val with ci := v16 }) ∧
      (∃ t, exec (.eqCtrlWrite h inst e v) s = .next t ∧ t.blk.eq i e.val = { b.eq i e.val with
        intEn := v.getLsbD 0, ciError := (b.eq i e.val).ciError && !v.getLsbD 1 })) ∧
    (b.wqEnabled wr = true → w.st = .cqWait ∧ b.cqSlotFree (b.wqCq wr) = true ∨ w.st = .bmeOff ∧ b.wqCanIssue wr = true →
      ∃ t, exec (.queueResume (.wq inst q)) s = .next t ∧ t.blk = { b with wqs := t.blk.wqs, scans := t.blk.scans } ∧
        t.blk.wq i q.val = { w with st := .ready } ∧ (t.blk.scan (16 + i)).active = true ∧
        q.val ∈ (t.blk.scan (16 + i)).list) ∧
    (w.fetched.head? = some x → x.st = .fetched → x.lifted = false → weFence x.raw = true →
      ∃ t, exec (.fencedEntryStart inst q) s = .next t ∧ t.blk = { b with wqs := t.blk.wqs } ∧
        (t.blk.wq i q.val).fetched.head? = some { x with lifted := true } ∧
        (t.blk.wq i q.val).fetched.length = w.fetched.length) ∧
    (((b.instCfg i).cq i q.val).life ≠ .absent →
      (cq.xfault = false → ∃ t, exec (.completionWriteFault inst false q false c) s = .next t ∧
        t.blk.cq i q.val = { cq with xfault := true } ∧ counts t) ∧
      (cq.mfault = false → ∃ t, exec (.completionWriteFault inst false q true c) s = .next t ∧
        t.blk.cq i q.val = { cq with mfault := true } ∧ counts t)) ∧
    (q8.val = e.val → ((b.instCfg i).eq i e.val).life ≠ .absent →
      ((b.eq i e.val).xfault = false → ∃ t, exec (.completionWriteFault inst true q8 false c) s = .next t ∧
        t.blk.eq i e.val = { b.eq i e.val with xfault := true } ∧ counts t) ∧
      ((b.eq i e.val).mfault = false → ∃ t, exec (.completionWriteFault inst true q8 true c) s = .next t ∧
        t.blk.eq i e.val = { b.eq i e.val with mfault := true } ∧ counts t))) ∧
  (
  ∀ (s : State) (h : PortId) (v : W32),
    let b := s.blk
    let p := b.port h.val
    let lg := v.toNat / 2 % 16
    let becomes := fun (c : Instr) (q : HostPort) => ∃ t, exec c s = .next t ∧ t.blk.port h.val = q ∧
      t.blk = { b with ports := t.blk.ports } ∧ ∀ k ≠ h.val, t.blk.port k = b.port k
    let eqOn := { p with
      eqLog2 := BitVec.ofNat 4 lg, eqEn := true, eqVector := v.extractLsb' 5 5, eq := { p.eq with
        pi := 0, ci := 0, intEn := v.getLsbD 10, ciError := p.eq.ciError && !v.getLsbD 11 } }
    b.memOpen h.val false = true →
    (v.getLsbD 0 = true → 4 ≤ lg →
      (p.ctlWqEn = false → becomes (.ctlWqCtrlWrite h v) { p with
        ctlWqLog2 := BitVec.ofNat 4 lg, ctlWqEn := true, ctlWq := { p.ctlWq with
          pi := 0, ci := 0, st := if p.ctlCqEn then .ready else .cqWait } }) ∧
      (p.ctlCqEn = false → p.ctlCq.held = [] →
        becomes (.ctlCqCtrlWrite h v) { p with
          ctlCqLog2 := BitVec.ofNat 4 lg, ctlCqEn := true, ctlCq := { p.ctlCq with pi := 0, ci := 0 } })) ∧
    (v.getLsbD 0 = true → 5 ≤ lg → p.eqEn = false → p.eq.srcs = [] →
      (p.f0.inta = false → becomes (.f0EqCtrlWrite h v) eqOn) ∧
      (p.f0.inta = true → p.linkUp = true → p.f0.flr = false → ∃ t, exec (.f0EqCtrlWrite h v) s = .next t ∧
        t.blk.port h.val = { eqOn with f0 := { p.f0 with inta := false } } ∧
        t.blk.out = .intx h.val false false :: b.out)) ∧
    (lg < 4 → (p.ctlWqEn = false → exec (.ctlWqCtrlWrite h v) s = .next s) ∧
      (p.ctlCqEn = false → exec (.ctlCqCtrlWrite h v) s = .next s)) ∧
    (lg < 5 → p.eqEn = false → exec (.f0EqCtrlWrite h v) s = .next s) ∧
    (v.getLsbD 0 = false →
      (p.ctlWqEn = true → ∃ t, exec (.ctlWqCtrlWrite h v) s = .next t ∧
        t.blk.port h.val = { p with ctlWqEn := false } ∧ (t.blk.ctlq h.val).prog = none) ∧
      (p.ctlCqEn = true → becomes (.ctlCqCtrlWrite h v) { p with
        ctlCqEn := false, ctlWq := if p.ctlWqEn = true ∧ p.ctlWq.st = .ready then { p.ctlWq with st := .cqWait } else p.ctlWq }) ∧
      (p.eqEn = true → ∃ t, exec (.f0EqCtrlWrite h v) s = .next t ∧ (t.blk.port h.val).eqEn = false ∧
        (t.blk.port h.val).eqLog2 = p.eqLog2)))

/-- R33, R131, R132: an instruction that a control queue has fetched joins the open program when every staging check
passes, against the staged state, and otherwise makes it refusing; a program that refuses already passes over it; only
a query leaves output records, and nothing else changes (but the count of free values, which a query's record may draw
on). -/
def Obligations.ProgramStaging : Prop :=
  ∀ (s : State) (q : CtlQ) (idx : W16) (e : W512) (ext : List Byte) (rd : Nat) (p : Prog) (c : Instr) (o : COp),
    (c, o) ∈ [(Instr.fence q, COp.fence), (.create q, .create), (.enable q, .enable), (.disable q, .disable),
      (.destroy q, .destroy), (.invalidate q, .invalidate), (.pipeLoad q, .pipeLoad), (.tblInsert q, .tblInsert),
      (.tblDelete q, .tblDelete), (.tblModify q, .tblModify), (.tblQuery q, .tblQuery), (.rmtConfig q, .rmtConfig),
      (.qpConnect q, .qpConnect), (.qpTune q, .qpTune), (.winModify q, .winModify), (.keyImport q, .keyImport),
      (.keyBind q, .keyBind), (.keyRetire q, .keyRetire), (.timeStep q, .timeStep), (.timeServo q, .timeServo),
      (.timeSource q, .timeSource), (.qCreate q, .qCreate), (.qEnable q, .qEnable), (.qDisable q, .qDisable),
      (.qDestroy q, .qDestroy), (.qReset q, .qReset), (.instResize q, .instResize), (.instAttach q, .instAttach),
      (.instDirtyLog q, .dirtyLog), (.poolSet q, .poolSet), (.devPowerCap q, .powerCap), (.slotControl q, .slotControl),
      (.query q, .query), (.summary q, .summary)] →
    let b := s.blk
    let k := ctlKey q
    let v := (b.updCtlq k (fun c => { c with arrived := none })).stagedView p
    (b.ctlq k).arrived = some (idx, e, ext, rd) → (b.ctlq k).prog = some p → ciOp e = some o →
    ∃ t p2 recs, exec c s = .next t ∧ t.blk.ctlq k = { b.ctlq k with arrived := none, prog := some p2 } ∧
      (∀ j ≠ k, t.blk.ctlq j = b.ctlq j) ∧
      t.blk = { b with ctl := t.blk.ctl, fresh := t.blk.fresh } ∧
      t.blk.ctl = { b.ctl with queues := t.blk.ctl.queues } ∧
      (o ≠ .query → o ≠ .tblQuery → recs = []) ∧
      p2 = if p.refused.isSome then { p with lastFetch := b.mono } else match stageFaults v p e ext rd with
        | some r => { p with lastFetch := b.mono, refused := some (r, ciSeq e) }
        | none => { p with
            lastFetch := b.mono, lastSeq := ciSeq e, bytes := p.bytes + stagingBytes e,
            staged := p.staged ++ [{ seq := ciSeq e, raw := e, ext := ext }], records := p.records ++ recs }

/-- R20, R130, R131, R133, R139, R143: BEGIN opens a program; COMMIT of an empty one makes the next epoch, the owner's
first one after BOOT_ENABLE with meeting point 3, and before BOOT_ENABLE it is refused; ABORT ends it; a program that
refuses ends so at either, with the reason it took first; a stray instruction and a stalled program are refused; a
COMMIT behind others joins the line, and the head of the line commits when nothing makes it wait; the completion of a
program that ended, committed or not, is written to its CTL ring once what it waits for has come. -/
def Obligations.ProgramEnds : Prop :=
  ∀ (s : State) (q : CtlQ) (h : PortId) (idx : W16) (e : W512) (ext : List Byte) (rd : Nat) (p : Prog) (x : Ended)
    (r : List Ended) (res sum : Ans) (code bad : Nat) (w : InLine) (ws : List InLine),
    let b := s.blk
    let k := ctlKey q
    let v := (b.updCtlq k (fun c => { c with arrived := none })).stagedView p
    let ends := fun (c : Instr) (y : Ended) => ∃ t, exec c s = .next t ∧ (t.blk.ctlq k).prog = none ∧
      (t.blk.ctlq k).ended = (b.ctlq k).ended ++ [y] ∧ t.blk.ctl.cfg = b.ctl.cfg
    ((b.ctlq k).arrived = some (idx, e, ext, rd) →
      ((b.ctlq k).prog = none → ciOp e = some .begin_ → ciSeq e = 0 → formFaults e 0 = none → ent e 16 8 % 64 = 0 →
        ∃ t n, exec (.begin_ q) s = .next t ∧ (t.blk.ctlq k).prog = some n ∧ n.refused = none ∧ n.staged = [] ∧
          n.issuer = b.issuerOf k ∧ n.idx = idx ∧ n.tag.toNat = ciTag e ∧ n.beginEpoch = b.ctl.newest ∧
          n.beginCfg = b.cfg ∧ t.blk = { b with ctl := t.blk.ctl }) ∧
      ((b.ctlq k).prog = none → ciOp e ≠ some .begin_ → ∃ t y, exec (.instructionOutsideProgram q) s = .next t ∧
        (t.blk.ctlq k).ended = (b.ctlq k).ended ++ [y] ∧ y.outcome = 2 ∧ y.status = 0x0120 ∧ y.idx = idx) ∧
      ((b.ctlq k).prog = some p → p.refused = none → p.staged = [] → stageFaults v p e ext rd = none →
        (ciOp e = some .commit → b.boot.enable = true → b.issuerOf k = p.issuer →
          (p.expect = none ∨ p.expect = some b.ctl.newest) → b.ctl.line = [] →
          b.ctl.live.length < 4 → b.rmt.incs = [] →
          ∃ t y, exec (.commit q) s = .next t ∧ t.blk.ctl.newest = b.ctl.newest + 1 ∧ t.blk.ctl.cfg = b.ctl.cfg ∧
            (t.blk.ctlq k).prog = none ∧ (t.blk.ctlq k).ended = (b.ctlq k).ended ++ [y] ∧ y.outcome = 0 ∧ y.status = 0 ∧
            y.epoch = b.ctl.newest + 1 ∧ y.tag = p.tag ∧ y.idx = p.idx ∧
            (p.issuer = .owner → b.boot.state = 4 → b.atPoint .west 2 = true → b.atPoint .east 2 = true →
              t.blk.boot.state = 5 ∧ t.blk.serving .west = true ∧ t.blk.serving .east = true) ∧
            (p.issuer ≠ .owner → t.blk.boot = b.boot)) ∧
        (ciOp e = some .commit → b.boot.enable = false → b.ctl.line = [] →
          ∃ y, ends (.commit q) y ∧ y.outcome = 2 ∧ y.status = 0x0512 ∧ y.tag = p.tag) ∧
        (ciOp e = some .abort → ∃ y, ends (.abort q) y ∧ y.outcome = 1 ∧ y.status = 0 ∧ y.badIndex = 0xFFFF ∧ y.tag = p.tag)) ∧
      ((b.ctlq k).prog = some p → p.refused = some (code, bad) →
        (ciOp e = some .commit → ∃ y, ends (.commit q) y ∧ y.outcome = 2 ∧ y.status = code ∧ y.badIndex = bad ∧ y.tag = p.tag) ∧
        (ciOp e = some .abort → ∃ y, ends (.abort q) y ∧ y.outcome = 2 ∧ y.status = code ∧ y.badIndex = bad ∧ y.tag = p.tag))) ∧
    ((b.ctlq k).prog = some p → (b.ctlq k).arrived = none → p.lastFetch + 10000000000 ≤ b.mono →
      ∃ y, ends (.programStalled q) y ∧ y.outcome = 2 ∧ y.status = 0x0502 ∧ y.tag = p.tag) ∧
    ((b.ctlq k).prog = none ∨ (b.ctlq k).arrived ≠ none ∨ (b.ctlq k).prog = some p ∧ b.mono < p.lastFetch + 10000000000 →
      exec (.programStalled q) s = .next s) ∧
    ((b.ctlq k).arrived = some (idx, e, ext, rd) → (b.ctlq k).prog = some p → p.refused = none → ciOp e = some .commit →
      stageFaults v p e ext rd = none → b.ctl.line ≠ [] → ∃ t z, exec (.commit q) s = .next t ∧
        t.blk.ctl.line = b.ctl.line ++ [z] ∧ z.prog = p ∧ z.queue = k ∧ z.checked = false ∧ t.blk.ctl.newest = b.ctl.newest) ∧
    (b.ctl.line = [] → exec .commitProceed s = .next s) ∧
    (b.ctl.line = w :: ws → w.checked = true → w.prog.refused = none → b.mustWait w.prog = true →
      exec .commitProceed s = .next s) ∧
    (b.ctl.line = [w] → w.prog.refused = none → w.checked = true → b.mustWait w.prog = false →
      ∃ t, exec .commitProceed s = .next t ∧ t.blk.ctl.newest = b.ctl.newest + 1 ∧ t.blk.ctl.line = [] ∧
        ∃ y ∈ (t.blk.ctlq w.queue).ended, y.outcome = 0 ∧ y.epoch = b.ctl.newest + 1 ∧ y.waited = true ∧ y.tag = w.prog.tag) ∧
    (b.ctl.line = [w] → w.prog.refused = some (code, bad) → w.unreported = false →
      ∃ t, exec .commitProceed s = .next t ∧ t.blk.ctl.newest = b.ctl.newest ∧ t.blk.ctl.line = [] ∧
        ∃ y ∈ (t.blk.ctlq w.queue).ended, y.outcome = 2 ∧ y.status = code ∧ y.badIndex = bad ∧ y.tag = w.prog.tag) ∧
    ((b.ctlq k).ended = [] → exec (.programComplete q res sum) s = .next s) ∧
    ((b.ctlq k).ended = x :: r →
      (b.endReady x = false ∨ b.ctlWrites k x = false → exec (.programComplete q res sum) s = .next s) ∧
      (b.endReady x = true → b.ctlWrites k x = true → ∃ t, exec (.programComplete q res sum) s = .next t ∧
        (x.drains = [] → (t.blk.ctlq k).ended = r))) ∧
    (q = .ctl h → (b.ctlq k).ended = x :: r → b.endReady x = true → x.unreported = false → x.records = [] → x.sums = [] →
      x.drains = [] → (b.port h.val).ctlCqEn = true → b.canIssue h.val false = true → (b.port h.val).ctlMirrorEn = false →
      (b.port h.val).ctlCq.held = [] → (b.port h.val).ctlCq.armed = false → b.cqFull (.ctl h.val) = false → b.rmt.incs = [] →
      let cq := (b.port h.val).ctlCq
      let epoch := if x.outcome = 0 then x.epoch else b.ctl.newest
      ∃ t raw, exec (.programComplete q res sum) s = .next t ∧ (t.blk.ctlq k).ended = r ∧
        (t.blk.port h.val).ctlCq = { cq with pi := cq.pi + 1 } ∧
        .bus h.val false ((b.port h.val).ctlCqBase.toNat * 4096 +
          cq.pi.toNat % 2 ^ (b.port h.val).ctlCqLog2.toNat * 32) raw ∈ t.blk.out ∧
        raw = bytesLE 2 x.status ++ bytesLE 1 x.outcome ++ [if x.waited then 4 else 0] ++ bytesLE 2 x.badIndex ++
          bytesLE 2 x.idx.toNat ++ bytesLE 8 x.tag.toNat ++ bytesLE 8 epoch ++ bytesLE 4 x.waitUs ++ bytesLE 2 0 ++
          bytesLE 2 ((b.noteEnded x).drainMs b.mono))

/-- R155, R158 to R160, R178, R179: what the commit of CREATE, ENABLE, DISABLE and DESTROY, and of their queue forms,
leaves in the configuration: the object in state CREATED with the fields of its operands, the new state of a named
object, the number free again; Q.RESET puts a queue back to READY at the index of its error. -/
def Obligations.CommitObjects : Prop :=
  ∀ (s : State) (x : CInstr) (o : Obj),
    let c := s.blk.cfg
    let e := x.raw
    let i := ciInst e
    let n := ciId e
    let becomes := fun (op : COp) (f : Cfg → Prop) => ciOp e = some op → commitGives s x (fun t => f t.cfg)
    (ciKind e = 1 → becomes .create (fun d => d = { c with insts := d.insts } ∧ (∀ j ≠ i, d.inst j = c.inst j) ∧
      d.inst i = { life := .created, port := BitVec.ofNat 4 (ent e 24 1), pasidEn := bitOf (ent e 25 1) 0,
                   pasid := BitVec.ofNat 20 (ent e 28 4), root := BitVec.ofNat 64 (ent e 32 8) })) ∧
    (ciKind e = 5 → becomes .create (fun d => d = { c with qps := d.qps } ∧ (∀ j ≠ n, d.qp j = c.qp j) ∧
      d.qp n = { life := .created, inst := i, sendCq := BitVec.ofNat 6 (ent e 24 1), recvCq := BitVec.ofNat 6 (ent e 25 1),
                 recvWq := BitVec.ofNat 8 (ent e 26 1), maxOut := ent e 28 2 % 1024 })) ∧
    (ciKind e = 6 → n < 65536 → becomes .create (fun d => d = { c with wins := d.wins } ∧
      d.win i n = { life := .created, base := ent e 24 8, length := ent e 32 8, key := BitVec.ofNat 32 (ent e 40 4),
                    access := BitVec.ofNat 3 (ent e 44 1), devmem := bitOf (ent e 45 1) 0, qpn := ent e 48 3 })) ∧
    (ciKind e = 7 → becomes .create (fun d => d = { c with trigs := d.trigs } ∧ (∀ j ≠ n, d.trig j = c.trig j) ∧
      d.trig n = { life := .created, inst := i, initial := BitVec.ofNat 32 (ent e 24 4), homeQpn := ent e 28 3 })) ∧
    (ciKind e = 2 → becomes .qCreate (fun d => d = { c with wqs := d.wqs } ∧
      d.wq i n = { life := .created, kind := BitVec.ofNat 4 (ent e 24 1), log2 := BitVec.ofNat 4 (ent e 25 1),
                   cq := BitVec.ofNat 6 (ent e 26 1), base := BitVec.ofNat 64 (ent e 32 8) })) ∧
    (ciKind e = 3 → becomes .qCreate (fun d => d = { c with cqs := d.cqs } ∧
      d.cq i n = { life := .created, log2 := BitVec.ofNat 4 (ent e 25 1), eq := BitVec.ofNat 6 (ent e 26 1),
                   reserve := BitVec.ofNat 16 (ent e 28 2), base := BitVec.ofNat 64 (ent e 32 8),
                   mirror := BitVec.ofNat 64 (ent e 40 8) })) ∧
    (ciKind e = 8 → becomes .create (fun d => d = { c with ports := d.ports } ∧ (∀ j ≠ n, d.port j = c.port j) ∧
      d.port n = { life := .created, lanes := ent e 24 1, rate := BitVec.ofNat 2 (ent e 25 1), fec := BitVec.ofNat 8 (ent e 26 1),
                   macsec := bitOf (ent e 27 1) 0, pfc := bitOf (ent e 27 1) 1, maxFrame := BitVec.ofNat 16 (ent e 28 2),
                   pfcMask := BitVec.ofNat 8 (ent e 30 1) })) ∧
    (ciKind e = 9 → becomes .create (fun d => d = { c with sas := d.sas } ∧ (∀ j ≠ n, d.sa j = c.sa j) ∧
      d.sa n = { life := .created, encrypt := bitOf (ent e 24 1) 0, esp := ent e 25 1 % 4 == 1, slot := ent e 26 2,
                 alg := BitVec.ofNat 8 (ent e 28 1), unit := BitVec.ofNat 8 (ent e 29 1), given := none,
                 port := BitVec.ofNat 7 (ent e 30 1), sciSpi := BitVec.ofNat 64 (ent e 32 8),
                 nextPn := BitVec.ofNat 64 (ent e 40 8), replayWin := BitVec.ofNat 32 (ent e 48 4) })) ∧
    (ciKind e = 4 → becomes .qCreate (fun d => d = { c with eqs := d.eqs } ∧
      d.eq i n = { life := .created, log2 := BitVec.ofNat 4 (ent e 25 1), vector := BitVec.ofNat 11 (ent e 26 2),
                   base := BitVec.ofNat 64 (ent e 32 8), mirror := BitVec.ofNat 64 (ent e 40 8) })) ∧
    (ciObj .enable e = some o → c.life o ≠ .absent →
      becomes .enable (fun d => d.life o = .enabled) ∧ becomes .qEnable (fun d => d.life o = .enabled) ∧
      becomes .disable (fun d => d.life o = .disabled) ∧ becomes .qDisable (fun d => d.life o = .disabled)) ∧
    (ciObj .destroy e = some o → becomes .destroy (fun d => d.life o = .absent) ∧ becomes .qDestroy (fun d => d.life o = .absent)) ∧
    (ciKind e = 1 → ∀ j < 64, (c.wq i j).life = .created → becomes .enable (fun d => (d.wq i j).life = .enabled)) ∧
    (ciOp e = some .qReset → commitGives s x (fun t => t.cfg = c ∧
      t.wq i n = { s.blk.wq i n with
        pi := (s.blk.wq i n).errIndex, ci := (s.blk.wq i n).errIndex, st := .ready, errIndex := 0, errReason := 0 }))

/-- R162, R163, R271, R293, R161, R166 to R169, R172, R180 to R184: what the commit of PIPE.LOAD and of the table
instructions leaves: every pipeline named has the program, and of its entries those of tables kept and of table
0xFFFF, and its tables are defined again; an entry inserted stands last, one modified keeps its number, one deleted is
gone, in a table of each kind. No other pipeline changes; and what the commit of the other configuration instructions
leaves: a root and the cached translations that go, the transport's port, the peer and the tuning of a queue pair, the
fields that WIN.MODIFY names, a binding, grants, the port of an instance that is attached again, a dirty log on or
off, a pool, the power cap; FENCE and the queries change none of the configuration. -/
def Obligations.CommitTablesAndSettings : Prop :=
  (
  ∀ (s : State) (x : CInstr) (g : PipeProg) (p : Nat),
    let c := s.blk.cfg
    let e := x.raw
    let kind := c.kindOf p (tbTable e)
    let key := x.ext.take (tbKeyLen e)
    let mask := if kind = 2 then x.ext.drop (tbKeyLen e) else []
    let same := fun y : TblEntry => y.table = tbTable e ∧
      if kind = 3 then y.prefixLen = tbPrefix e ∧ prefixEq y.key key y.prefixLen = true else y.mask = mask ∧ y.key = key
    let entry := fun uid : Nat => ({
      table := tbTable e, key := key, mask := mask, prefixLen := tbPrefix e, prio := tbPrio e,
      action := tbAction e, data := tbData e, uid := uid } : TblEntry)
    let gives := fun (op : COp) (f : Blk → Prop) => ciOp e = some op → commitGives s x f
    let becomes := fun (op : COp) (f : Cfg → Prop) => gives op (fun t => f t.cfg)
    (bitOf (ent e 28 1) 0 = true → readProg x.ext = some g → gives .pipeLoad (fun t =>
      t.cfg = { c with progs := t.cfg.progs, tbls := t.cfg.tbls } ∧ ∀ k,
        (k ∈ ciPipes e → (t.pipe k).undef = false ∧ t.cfg.prog k = some g ∧
          (∀ y ∈ t.cfg.entries k, y ∈ c.entries k ∧ (y.table = 0xFFFF ∨ ∃ t ∈ g.tables, t.table = y.table)) ∧
          ∀ y ∈ c.entries k, y.table = 0xFFFF → y ∈ t.cfg.entries k) ∧
        (k ∉ ciPipes e → t.cfg.prog k = c.prog k ∧ t.cfg.entries k = c.entries k))) ∧
    becomes .tblInsert (fun d => d = { c with tbls := d.tbls, nextUid := d.nextUid } ∧
      (p ∉ ciPipes e → d.entries p = c.entries p) ∧
      (p ∈ ciPipes e → ∃ uid, c.nextUid ≤ uid ∧ uid < d.nextUid ∧ d.entries p = c.entries p ++ [entry uid])) ∧
    becomes .tblModify (fun d => d = { c with tbls := d.tbls } ∧
      (p ∉ ciPipes e → d.entries p = c.entries p) ∧
      (p ∈ ciPipes e → (d.entries p).length = (c.entries p).length ∧
        ∀ (k : Nat) (y : TblEntry), (c.entries p)[k]? = some y →
          (same y → (d.entries p)[k]? = some (entry y.uid)) ∧ (¬ same y → (d.entries p)[k]? = some y))) ∧
    becomes .tblDelete (fun d => d = { c with tbls := d.tbls } ∧
      (p ∉ ciPipes e → d.entries p = c.entries p) ∧
      (p ∈ ciPipes e → ∀ y, y ∈ d.entries p ↔ y ∈ c.entries p ∧ ¬ same y))) ∧
  (
  ∀ (s : State) (x : CInstr),
    let b := s.blk
    let c := b.cfg
    let e := x.raw
    let i := ciInst e
    let j := ciInst16 e
    let all := bitOf (ent e 24 1) 0
    let gives := fun (op : COp) (f : Blk → Prop) => ciOp e = some op → commitGives s x f
    let becomes := fun (op : COp) (f : Cfg → Prop) => gives op (fun t => f t.cfg)
    becomes .fence (fun d => d = c) ∧ becomes .query (fun d => d = c) ∧ becomes .tblQuery (fun d => d = c) ∧
    becomes .summary (fun d => d = c) ∧
    gives .invalidate (fun t => t.cfg = { c with insts := t.cfg.insts } ∧ (∀ k ≠ i, t.cfg.inst k = c.inst k) ∧
      t.cfg.inst i = (if bitOf (ent e 24 1) 1 then { c.inst i with root := BitVec.ofNat 64 (ent e 48 8) } else c.inst i) ∧
      ∀ y, (y ∈ t.insts.cacheWest ++ t.insts.cacheEast → y ∈ b.insts.cacheWest ++ b.insts.cacheEast) ∧
        (y ∈ t.insts.cacheWest ++ t.insts.cacheEast → y.inst = i → all = false ∧
          ¬(y.va < ent e 32 8 + ent e 40 8 ∧ ent e 32 8 < y.va + y.size)) ∧
        (y ∈ b.insts.cacheWest ++ b.insts.cacheEast → y.inst ≠ i → y ∈ t.insts.cacheWest ++ t.insts.cacheEast)) ∧
    becomes .rmtConfig (fun d => d = { c with udpPort := ent e 16 2 }) ∧
    becomes .qpConnect (fun d => d = { c with qps := d.qps } ∧
      d.qp (ciQpn e) = { c.qp (ciQpn e) with conn := some {
        ipv6 := bitOf (ent e 19 1) 0, remoteQpn := ent e 20 3, paths := ent e 23 1,
        remoteIp := BitVec.ofNat 128 (natBE (bytesLE 16 (ent e 24 16))), mtu := ent e 40 2, dscp := ent e 42 1 % 64,
        tc := ent e 43 1 % 8, localIp := BitVec.ofNat 128 (natBE (bytesLE 16 (ent e 48 16))) } } ∧
      ∀ k ≠ ciQpn e, d.qp k = c.qp k) ∧
    becomes .qpTune (fun d => d = { c with qps := d.qps } ∧
      d.qp (ciQpn e) = { c.qp (ciQpn e) with tune := {
        rtoUs := ent e 20 4, retryLimit := ent e 24 1, ccProfile := ent e 25 1 % 8, msgTimeoutMs := ent e 26 2 } } ∧
      ∀ k ≠ ciQpn e, d.qp k = c.qp k) ∧
    becomes .winModify (fun d => d = { c with wins := d.wins } ∧ d.win i (ciId e) = { c.win i (ciId e) with
      base := if bitOf (ent e 46 1) 0 then ent e 24 8 else (c.win i (ciId e)).base,
      length := if bitOf (ent e 46 1) 1 then ent e 32 8 else (c.win i (ciId e)).length,
      key := if bitOf (ent e 46 1) 2 then BitVec.ofNat 32 (ent e 40 4) else (c.win i (ciId e)).key,
      access := if bitOf (ent e 46 1) 3 then BitVec.ofNat 3 (ent e 44 1) else (c.win i (ciId e)).access }) ∧
    becomes .keyBind (fun d => d = { c with bindings := d.bindings } ∧
      d.binding (ent e 16 2) = (if bitOf (ent e 20 1) 0 then none else some (ent e 18 2 % 8192)) ∧
      ∀ k ≠ ent e 16 2, d.binding k = c.binding k) ∧
    ((rzPairs e).Pairwise (fun x y => x.1 ≠ y.1) → becomes .instResize (fun d => d = { c with insts := d.insts } ∧
      (∀ k v, ((k, v) ∈ rzPairs e → d.grant j k = v) ∧ ((∀ n, (k, n) ∉ rzPairs e) → d.grant j k = c.grant j k)) ∧
      ∀ k ≠ j, d.inst k = c.inst k)) ∧
    gives .instAttach (fun t => t.cfg.inst j = { c.inst j with life := .disabled, port := BitVec.ofNat 4 (ent e 18 1) } ∧
      (t.inst j).detached = false ∧ (t.inst j).gen = (b.inst j).gen + 1) ∧
    gives .dirtyLog (fun t => t.cfg = c ∧ t.inst j = { b.inst j with dirty :=
      (if bitOf (ent e 18 1) 0 then { (b.inst j).dirty with
        on := true, log2 := BitVec.ofNat 5 (ent e 19 1 % 32), base := ent e 24 8, mirror := ent e 32 8, pi := 0, ci := 0,
        held := false }
      else { (b.inst j).dirty with on := false }) }) ∧
    becomes .poolSet (fun d => d = { c with pools := d.pools } ∧ (ent e 17 1 < 16 →
      d.pool (ent e 16 1) (ent e 17 1) = ent e 20 4)) ∧
    gives .powerCap (fun t => t.cfg = c ∧
      t.spd = { b.spd with capW := BitVec.ofNat 16 (ent e 16 2), overSince := t.spd.overSince }))

/-- R170, R171, R173, R175 to R177, R185, R323, R324: the key store, the clock and the slots at a commit: an imported
key is current from the epoch made, the key it replaces goes on for older ones; a retired slot is EMPTY from the epoch
made and serves the epochs it served, an erased one holds no key; the timebase steps; the servo's and the source's
settings; a slot's events, power and indicators, in that order. -/
def Obligations.CommitUnits : Prop :=
  ∀ (s : State) (x : CInstr) (key : KeyReg),
    let b := s.blk
    let e := x.raw
    let k := ent e 16 2
    let d := ent e 16 1 % 8
    let old := b.slot k
    let next := b.ctl.newest + 1
    let y := b.dsport d
    let y0 := if bitOf (ent e 20 1) 0 then { y with presenceChanged := false, button := false, dllChanged := false } else y
    let y1 :=
      if ent e 17 1 % 4 = 2 then { y0 with
        power := 2, perst := true, clock := false, pwren := false, onAt := none, dllActive := false,
        dllChanged := y0.dllChanged || y0.dllActive, speed := 0, width := 0, training := false, retrain := false }
      else if ent e 17 1 % 4 = 1 ∧ y.presence = true ∧ y.power ≠ 1 then { y0 with
        power := 1, pwren := true, clock := true, onAt := some b.mono, autoOff := false, ur := 0, errMsg := 0 }
      else y0
    let gives := fun (op : COp) (f : Blk → Prop) => ciOp e = some op → commitGives s x (fun t => t.cfg = b.cfg ∧ f t)
    (old.next = some key → gives .keyImport (fun t => ∃ r, (r = key ∨ ∃ p, b.importMaterial p x = some r) ∧ t.slot k = { old with
        st := .active, alg := BitVec.ofNat 8 (ent e 18 1), cur := some r, next := none, curFrom := next, curTo := none,
        noted := false, old := if old.cur.isSome && decide (old.curFrom < next) then old.cur else old.old,
        oldAlg := if old.cur.isSome && decide (old.curFrom < next) then old.alg else old.oldAlg,
        oldTo := if old.cur.isSome && decide (old.curFrom < next) then old.curTo.getD next else old.oldTo,
        oldFrom := if old.cur.isSome && decide (old.curFrom < next) then old.curFrom else old.oldFrom } ∧
      ∀ n ≠ k, t.slot n = b.slot n)) ∧
    (bitOf (ent e 18 1) 0 = false → gives .keyRetire (fun t =>
      t.slot k = { old with st := .empty, next := none, curTo := some (old.curTo.getD next), noted := false } ∧
      ∀ n ≠ k, t.slot n = b.slot n)) ∧
    (bitOf (ent e 18 1) 0 = true → gives .keyRetire (fun t => (t.slot k).st = .erased ∧ (t.slot k).cur = none ∧
      (t.slot k).old = none ∧ (t.slot k).next = none ∧ ∀ n ≠ k, t.slot n = b.slot n)) ∧
    gives .timeStep (fun t => (t.clk.tb : Int) = max 0 ((b.clk.tb : Int) + signed 64 (ent e 16 8) * 65536 + (ent e 24 2 : Nat)) ∧
      t.clk.mono = b.clk.mono ∧ t.clk.stepCount = b.clk.stepCount + 1 ∧ t.clk.servo = .acquiring) ∧
    gives .timeServo (fun t =>
      t.clk.kpShift = ent e 16 1 % 32 ∧ t.clk.kiShift = ent e 17 1 % 32 ∧ t.clk.autoStep = bitOf (ent e 18 1) 0 ∧
      t.clk.hold = bitOf (ent e 18 1) 1 ∧ t.clk.threshold = ent e 20 4 ∧ t.clk.freqAdj = signed 64 (ent e 24 8) ∧
      t.clk.tb = b.clk.tb ∧ (bitOf (ent e 18 1) 1 = true → t.clk.freq = signed 64 (ent e 24 8) ∧ t.clk.servo = .hold) ∧
      (bitOf (ent e 18 1) 1 = false → t.clk.freq = if b.clk.hold then b.clk.acc else b.clk.freq)) ∧
    gives .timeSource (fun t => t.clk.source = BitVec.ofNat 2 (ent e 16 1) ∧ t.clk.tb = b.clk.tb ∧
      t.clk.stepCount = b.clk.stepCount ∧ (ent e 16 1 = 1 → t.clk.refPair = BitVec.ofNat 2 (ent e 17 1))) ∧
    gives .slotControl (fun t => (∀ n ≠ d, t.dsport n = b.dsport n) ∧ t.dsport d = { y1 with
      attention := ledSet y.attention (ent e 18 1 % 4), powerLed := ledSet y.powerLed (ent e 19 1 % 4) })

/-- R16, R19, R23, R27, R28, R94, R97, R141: an epoch reaches a pipeline or core, with every older one, unless a
retrain of the bridge holds its announcement from the other half; the oldest retires when a newer one is everywhere
and nothing is bound to it; one superseded for 100 ms has its work ended, once; a half that was reset rejoins at the
points of the other and starts from the image, if that verifies; an activation binds the configuration in an epoch of
its own. -/
def Obligations.Epochs : Prop :=
  ∀ (s : State) (u : Fin 72) (e : W64) (h : Half) (r : EpochRec) (rest : List EpochRec) (a : Activation) (x : Image),
    let b := s.blk
    let first := if h = .west then 0 else 256
    let here : Half := if u.val < 4 ∨ 8 ≤ u.val ∧ u.val < 40 then .west else .east
    ((∃ y ∈ b.ctl.live, y.num = e.toNat) →
      ((∀ y ∈ b.ctl.live, y.num ≤ e.toNat → u.val ∈ y.seen ∨ y.src = here ∨ (b.bridgeTo here).retrain = none) →
        ∃ t, exec (.epochVisible u e) s = .next t ∧
          t.blk = { b with ctl := { b.ctl with live := t.blk.ctl.live } } ∧
          t.blk.ctl.live.map (·.num) = b.ctl.live.map (·.num) ∧
          (∀ y ∈ t.blk.ctl.live, y.num ≤ e.toNat → u.val ∈ y.seen) ∧
          ∀ y ∈ b.ctl.live, e.toNat < y.num → y ∈ t.blk.ctl.live) ∧
      ((∃ y ∈ b.ctl.live, y.num ≤ e.toNat ∧ u.val ∉ y.seen ∧ y.src ≠ here ∧ (b.bridgeTo here).retrain ≠ none) →
        exec (.epochVisible u e) s = .next s)) ∧
    (b.ctl.live = r :: rest → (∃ y ∈ rest, y.everywhere = true) → b.epochBusy r.num = false →
      ∃ t, exec .epochRetire s = .next t ∧ t.blk.ctl = { b.ctl with live := rest } ∧
        t.blk = { b with ctl := t.blk.ctl, keys := t.blk.keys, boot := { b.boot with old := t.blk.boot.old } }) ∧
    (b.expiring = some r → ∃ t, exec .epochExpired s = .next t ∧ t.blk.ctl.newest = b.ctl.newest ∧ t.blk.cfg = b.cfg ∧
      t.blk.ctl.live.map (·.num) = b.ctl.live.map (·.num) ∧ ∀ y ∈ t.blk.ctl.live, y.num = r.num → y.expired = true) ∧
    (b.boot.state = 7 → b.mp h = 0 → b.mp h.other ≠ 0 → h.code ∉ b.boot.shutOut → b.boot.image = some x →
      (b.mss.fw.imageMinSec ≤ x.secVersion →
        (∀ c ∈ x.sections, b.anyPoison (fwLoc h.other c.1) c.2.length = false) →
        ∃ t, exec (.halfRejoin h) s = .next t ∧ t.blk.mp h = b.mp h.other ∧ t.blk.mp h.other = b.mp h.other ∧
          t.blk.boot.state = b.boot.before ∧ (t.blk.thread first).st = .running ∧
          (t.blk.thread first).pc = pcOf (BitVec.ofNat 64 x.entry) ∧ t.blk.ctl.newest = b.ctl.newest ∧ t.blk.cfg = b.cfg) ∧
      (x.secVersion < b.mss.fw.imageMinSec → exec (.halfRejoin h) s = .next s)) ∧
    (b.boot.act = some a → a.phase = 2 → b.ctl.line = [] → b.ctl.live.length < 4 →
      ∃ t, exec .activationBindCommit s = .next t ∧ t.blk.ctl.newest = b.ctl.newest + 1 ∧ t.blk.cfg = b.cfg ∧
        t.blk.boot = { b.boot with
          image := some a.image, old := b.boot.image.map (fun y => (b.ctl.newest, y)), act := some { a with phase := 3 } } ∧
        t.blk = { b with ctl := t.blk.ctl, boot := t.blk.boot })

/-- R161, R437, R438, R440, R444: one turn of a walk, under the root of the live epoch that its work is bound to: the
entry of a table leads to the next level with the permissions met, a leaf gives the translation that the half's cache
holds, and an entry that is not valid, not well formed or lacks a permission ends the walk, as a failed read does, and
one that runs out of time; a first read begins at the root; what returns for a walk of an older generation is
discarded and counted. -/
def Obligations.Translation : Prop :=
  ∀ (s : State) (inst : InstId) (va : W64) (read write : Bool) (w : Walk) (e : W64) (k : Fin 4) (root : Nat) (p : PortId),
    let b := s.blk
    let i := inst.val
    let h := b.homeOf i
    let port := (b.cfg.inst i).port.toNat
    let newest := (b.cfg.inst i).root.toNat
    let addr := e.toNat / 4096 % 2 ^ 40 * 4096
    let size := 2 ^ (12 + 9 * w.level)
    let clean := e.toNat / 16 % 256 = 0 ∧ e.toNat / 2 ^ 52 = 0 ∧ e.getLsbD 0 = true
    let wide := w.permR = true ∧ (read = true → e.getLsbD 2 = true) ∧ w.permW = true ∧ (write = true → e.getLsbD 3 = true)
    let walks := fun (x : Option W64) (l : List Walk) => ∃ t, exec (.translationWalk inst va read write ⟨x, k⟩) s = .next t ∧
      t.blk = Blk.linkAwake { b with insts := { b.insts with walks := l } } port
    ((∃ y, b.ctl.live[k.val]? = some y ∧ root = (y.cfg.inst i).root.toNat) ∨ (b.ctl.live[k.val]? = none ∧ root = newest)) →
    (b.insts.walks = [w] → w.inst = i → w.va = va.toNat → w.read = read → w.write = write → w.root = root →
      (w.gen = (b.inst i).gen →
        (clean → e.getLsbD 1 = false → 1 ≤ w.level → w.level ≤ 3 → walks (some e)
          [{ w with level := w.level - 1, table := addr, permR := w.permR && e.getLsbD 2, permW := w.permW && e.getLsbD 3 }]) ∧
        (¬ clean → walks (some e) []) ∧ walks none [] ∧
        (((b.instCfg i).inst i).port.toNat = p.val → ∃ t, exec (.completionTimeout p (.walk inst va read write k)) s = .next t ∧
          t.blk = Blk.linkAwake { b.aerTimeout p.val true with insts := { b.insts with walks := [] } } port) ∧
        (((b.instCfg i).inst i).port.toNat ≠ p.val → exec (.completionTimeout p (.walk inst va read write k)) s = .next s) ∧
        (w.level = 0 → e.getLsbD 1 = false → walks (some e) []) ∧
        (e.getLsbD 1 = true → w.level = 3 ∨ addr % size ≠ 0 ∨ (read = true ∧ e.getLsbD 2 = false) ∨
          (write = true ∧ e.getLsbD 3 = false) → walks (some e) []) ∧
        (clean → e.getLsbD 1 = true → w.level ≤ 2 → addr % size = 0 → wide → w.cache = true →
          b.insts.cache h = [] → b.xReserved h < 32768 →
          ∃ t, exec (.translationWalk inst va read write ⟨some e, k⟩) s = .next t ∧ t.blk.insts.walks = [] ∧
            t.blk.insts.cache h = [{ inst := i, gen := w.gen, va := va.toNat / size * size, size := size, pa := addr,
                                     read := e.getLsbD 2, write := e.getLsbD 3 }] ∧
            t.blk = { b with insts := t.blk.insts, pm := t.blk.pm }) ∧
        (clean → e.getLsbD 1 = true → w.level ≤ 2 → addr % size = 0 → wide → w.cache = false → walks (some e) [])) ∧
      (w.gen ≠ (b.inst i).gen → ∀ x, ∃ t, exec (.translationWalk inst va read write ⟨x, k⟩) s = .next t ∧
        t.blk.insts.walks = [] ∧ (t.blk.port port).discard = sat64 (b.port port).discard 1 ∧
        (t.blk.inst i).stale = sat64 (b.inst i).stale 1)) ∧
    (b.insts.walks = [] →
      (root = 0 ∨ 2 ^ 48 ≤ va.toNat → ∀ x, exec (.translationWalk inst va read write ⟨x, k⟩) s = .next s) ∧
      (root ≠ 0 → va.toNat < 2 ^ 48 → b.canIssue port true = true → (b.inst i).detached = false →
        (clean → e.getLsbD 1 = false →
          walks (some e) [{ inst := i, gen := (b.inst i).gen, va := va.toNat, read := read, write := write, root := root,
                            level := 2, table := addr, permR := e.getLsbD 2, permW := e.getLsbD 3,
                            cache := root == newest }]) ∧
        (¬ clean ∨ e.getLsbD 1 = true → walks (some e) []) ∧ walks none []))

/-- R443, R446 to R448: the oldest page waiting is recorded in the ring of the dirty log, and PI stands in the mirror;
while the ring appears full CI is read: room ends the hold of the instance's writes, none begins it, and a CI that
leaves the ring's range sets ci_error; a bushel that is returned reads 0. -/
def Obligations.DirtyLogAndZeroing : Prop :=
  ∀ (s : State) (inst : InstId) (ci : W32) (h : Half) (k : Fin 8192) (r : DirtyRec) (rest : List DirtyRec),
    let b := s.blk
    let i := inst.val
    let d := (b.inst i).dirty
    let p := (b.cfg.inst i).port.toNat
    let size := 2 ^ d.log2.toNat
    let pool := devmemPool h + k.val * 2097152
    let polls := fun (d2 : Dirty) => ∃ t, exec (.dirtyCiPoll inst ci) s = .next t ∧
      t.blk.inst i = { b.inst i with dirty := d2 }
    (b.canIssue p true = true →
      (d.waiting = r :: rest → d.full = false → ∃ t, exec (.dirtyRecordWrite inst) s = .next t ∧
        t.blk = { b with insts := t.blk.insts, out := t.blk.out, pm := t.blk.pm } ∧
        t.blk.inst i = { b.inst i with
          dirty := { d with waiting := rest, pi := d.pi + 1 }, dirtyRecords := sat64 (b.inst i).dirtyRecords 1 } ∧
        t.blk.out = .bus p true d.mirror (bytesLE 4 (d.pi + 1).toNat) ::
          .bus p true (d.base + d.pi.toNat % size * 8) (bytesLE 8 (r.writer % 16 + r.page % 2 ^ 36 * 4096)) :: b.out) ∧
      (d.full = true ∨ d.held = true →
        ((d.pi - ci).toNat < size → b.rmt.incs = [] →
          (∀ x ∈ b.cqs, x.1 / 64 = i → x.2.held = [] ∧ x.2.mirrorHeld = false) → (∀ x ∈ b.eqs, x.1 / 8 ≠ i) →
          ∃ t, exec (.dirtyCiPoll inst ci) s = .next t ∧ t.blk = { b with insts := t.blk.insts } ∧
            t.blk.inst i = { b.inst i with dirty := { d with ci := ci, held := false } }) ∧
        ((d.pi - ci).toNat = size → polls { d with ci := ci, held := true }) ∧
        (size < (d.pi - ci).toNat → polls { d with ciError := true, held := true }))) ∧
    (b.canIssue p true = false ∨ d.waiting = [] ∨ d.full = true → exec (.dirtyRecordWrite inst) s = .next s) ∧
    (b.canIssue p true = false ∨ (d.full = false ∧ d.held = false) → exec (.dirtyCiPoll inst ci) s = .next s) ∧
    ((decide (h = .east), k.val) ∈ b.insts.zeroing → ∃ t, exec (.devmemZeroDone h k) s = .next t ∧
      t.blk.insts = { b.insts with zeroing := b.insts.zeroing.erase (decide (h = .east), k.val) } ∧
      t.blk = { b with insts := t.blk.insts, mem := t.blk.mem, poison := t.blk.poison, dir := t.blk.dir } ∧
      ∀ a, t.blk.byte a = if pool ≤ a ∧ a < pool + 2097152 then 0 else b.byte a)

/-- R268, R276, R283, R286, R314: frames at the MAC of a port that is ENABLED with its link up. What the FEC decoder
met is counted; while the half does not serve the frame is dropped as before the first epoch; else it is overrun,
errored, too short, too long, a PFC frame, or good, in that order, and each is counted; a good one, where no MACsec
and no ESP association take it, waits for the parser. A PFC frame pauses the classes it names, a pause runs out, a
standing XOFF is repeated. A frame handed to the MAC is sent with its FCS and counted, or cut by an underrun, or
dropped where the link is not up. -/
def Obligations.FramesAtTheMac : Prop :=
  ∀ (s : State) (l : LaneId) (f : List Byte) (good overrun : Bool) (w : FecWords) (tc : Fin 8) (qs : List (Fin 8 × W16))
    (e : Egressing) (x : Xoff),
    let b := s.blk
    let c := b.cfg.port l.val
    let cnt := fun (t : State) (n : Nat) => (t.blk.lane l.val).counts.get 0 n
    let up := fun (t : State) (n k : Nat) => cnt t n = sat64 (cnt s n) k
    let q := b.tmq (.port l.val tc.val)
    let detect := c.fec = 2
    let bad := good = false ∨ (detect ∧ w.uncorrected ≠ 0)
    let rxs := fun (t : State) => (t.blk.lane l.val).rx
    let gets := fun (p : State → Prop) => ∃ t, exec (.frameReceive l f good ⟨overrun, w⟩) s = .next t ∧
      up t 13 w.uncorrected.toNat ∧ up t 12 (if detect then 0 else w.corrected.toNat) ∧
      up t 14 (if detect then 0 else w.symbols.toNat) ∧ p t
    let lost := fun (n : Nat) => gets (fun t => rxs t = rxs s ∧ up t n 1 ∧ t.blk = { b with eth := t.blk.eth })
    let dropped := fun (t : State) (k reason : Nat) => (t.blk.pipe k).drops.get 0 reason = sat64 ((b.pipe k).drops.get 0 reason) 1
    let until_ := fun (qn : W16) => if qn = 0 then none else some (b.mono + qn.toNat * 512 * 1000 / max (portRate c) 1)
    (c.life ≠ .enabled ∨ (b.lane l.val).link ≠ .up → ∃ t, exec (.frameReceive l f good ⟨overrun, w⟩) s = .next t ∧ t = s) ∧
    (c.life = .enabled → (b.lane l.val).link = .up →
      (b.serving (halfOfLane l.val) = false → gets (fun t => rxs t = rxs s ∧ up t 6 1 ∧ dropped t (pipeOfLane l.val) 2 ∧
        t.blk.preEpoch.get 0 l.val = sat64 (b.preEpoch.get 0 l.val) 1)) ∧
      (b.serving (halfOfLane l.val) = true →
        (overrun = true ∧ b.spd.floorMiss = true → lost 5) ∧
        (¬(overrun = true ∧ b.spd.floorMiss = true) →
          (bad → lost 2) ∧
          (¬bad →
            (f.length + 4 < 64 → lost 4) ∧
            (64 ≤ f.length + 4 → c.maxFrame.toNat < f.length + 4 → lost 3) ∧
            (64 ≤ f.length + 4 → f.length + 4 ≤ c.maxFrame.toNat →
              (beAt f 12 2 = 0x8808 → beAt f 14 2 = 0x0101 → gets (fun t => rxs t = rxs s ∧ up t 11 1)) ∧
              (¬(beAt f 12 2 = 0x8808 ∧ beAt f 14 2 = 0x0101) →
                ((b.cfgOf (b.epochAt (pipeOfLane l.val))).port l.val).macsec = false →
                (b.cfgOf (b.epochAt (pipeOfLane l.val))).sas = [] →
                gets (fun t => t.blk = { b with eth := t.blk.eth } ∧ up t 0 1 ∧ up t 1 (f.length + 4) ∧
                  (∀ k ≠ l.val, t.blk.lane k = b.lane k) ∧
                  ∃ y, rxs t = rxs s ++ [y] ∧ y.frame = f ∧ y.rxNsec = b.clk.tb / 65536 % 1000000000 ∧
                    y.step = b.clk.stepCount.toNat))))))) ∧
    (c.life = .enabled → ∃ t, exec (.pfcFrameRx l qs) s = .next t ∧ up t 11 1 ∧
      ((c.pfc = false ∨ bitOf c.pfcMask.toNat tc.val = false ∨ ∀ e ∈ qs, e.1 ≠ tc) → t.blk.tmq (.port l.val tc.val) = q) ∧
      ∀ qn pre post, c.pfc = true → bitOf c.pfcMask.toNat tc.val = true → qs = pre ++ (tc, qn) :: post →
        (∀ e ∈ post, e.1 ≠ tc) → t.blk.tmq (.port l.val tc.val) = { q with pausedTo := until_ qn }) ∧
    (∃ t, exec (.pfcPauseExpire l tc) s = .next t ∧ t.blk = { b with hog := t.blk.hog } ∧
      t.blk.tmq (.port l.val tc.val) =
        { q with pausedTo := if (q.pausedTo.map (fun u => decide (u ≤ b.mono))).getD false = true then none else q.pausedTo } ∧
      ∀ k ≠ .port l.val tc.val, t.blk.tmq k = b.tmq k) ∧
    (b.hog.xoff.filter (fun y => y.lane == l.val && y.prio == tc.val) = [x] → (b.lane l.val).link = .up →
      x.since + 0x7FFF * 512 * 1000 / max (portRate c) 1 ≤ b.mono → ∃ t, exec (.pfcRefresh l tc) s = .next t ∧
        t.blk.hog.xoff.filter (fun y => y.lane == l.val && y.prio == tc.val) = [{ x with since := b.mono }] ∧
        t.blk.out = .pfc l.val tc.val 0xFFFF :: b.out ∧ up t 10 1) ∧
    (b.hog.egress.find? (fun y => y.lane == l.val) = some e →
      let g := ptpChange (b.lane l.val) e.pkt.md (mdSa e.pkt.md).isSome b.clk.tb e.pkt.frame
      let n := e.pkt.frame.length + 4
      let sends := fun (un : Bool) (p : State → Prop) => ∃ t, exec (.frameTransmit l un) s = .next t ∧
        t.blk.hog.egress = b.hog.egress.erase e ∧ p t
      ((b.lane l.val).link ≠ .up → sends overrun (fun t => dropped t (pipeOfLane l.val) 9)) ∧
      ((b.lane l.val).link = .up →
        (2048 < n → sends true (fun t => up t 9 1 ∧ ∃ k, 2048 ≤ k ∧ k < n ∧
          Emit.cutFrame l.val ((g ++ fcsOf g).take k) ∈ t.blk.out)) ∧
        (overrun = false ∨ n ≤ 2048 → sends overrun (fun t => Emit.frame l.val (g ++ fcsOf g) ∈ t.blk.out ∧
          up t 7 1 ∧ up t 8 (g.length + 4)))))

/-- R25, R265, R268, R272, R276, R278, R280, R281, R286: a packet's way. The oldest frame of a source, an Ethernet
port or a host port, enters its pipeline bound to the epoch in force there; while the half does not serve it is
dropped as that, with no program as no program; with no stage enabled it is dropped with the reason that its metadata
holds, before and after a lookup returns. A class that alone has a packet hands its head to the MAC or its launch
queue; a packet from the other half joins its queue or the engine's; one older than 1 ms is dropped as AGED, from a
queue, the bridge or an engine's queue; one for a host fills the oldest posted buffer, or is dropped where that is too
short. -/
def Obligations.PacketPath : Prop :=
  ∀ (s : State) (l : LaneId) (h : Half) (hp : PortId) (inst : InstId) (wq : Fin 64) (tc : Fin 8) (pi : PipeId)
    (miss : Bool) (f : RxFrame) (fs : List RxFrame) (hf : HostFrame) (hfs : List HostFrame) (g : PipeProg)
    (w : HbmWait) (ws : List HbmWait) (q : TmQueue) (p : Packet) (rest : List Packet) (c : Crossing) (cs : List Crossing)
    (e : Entry) (ans : Ans) (ref : TmRef),
    let b := s.blk
    let pl := pipeOfLane l.val
    let dropped := fun (t : State) (k reason : Nat) => (t.blk.pipe k).drops.get 0 reason = sat64 ((b.pipe k).drops.get 0 reason) 1
    let key : QKey := .port l.val tc.val
    let enters := fun (src : InSrc) (k : Nat) (ep : Nat) (taken : State → Prop) =>
      let goes := fun (reason : Nat) => ∃ t, exec (.packetIngress src miss) s = .next t ∧ taken t ∧
        (t.blk.pipe k).counts.get 0 0 = sat64 ((b.pipe k).counts.get 0 0) 1 ∧ dropped t k reason
      (b.serving (halfOfPipe k) = false → goes 2) ∧
      (b.serving (halfOfPipe k) = true →
        ((b.cfgOf ep).prog k = none → goes 4) ∧
        ((b.cfgOf ep).prog k = some g → (∀ x ∈ g.stages, x.enable = false) → (∀ x ∈ g.parse, x.slot < 16) → goes 0))
    ((b.lane l.val).rx = f :: fs → b.sourceHeld pl { lane := l.val } = false →
      enters (.eth l) pl (f.epoch.getD (b.epochAt pl)) (fun t => (t.blk.lane l.val).rx = fs)) ∧
    (b.hostFrames.get [] hp.val = hf :: hfs → b.sourceHeld (pipeOfPort hp.val) hf.origin = false →
      enters (.host hp) (pipeOfPort hp.val) (b.epochAt (pipeOfPort hp.val)) (fun t => t.blk.hostFrames.get [] hp.val = hfs)) ∧
    ((b.pipe pi.val).waits = w :: ws →
      let k := match w.port with
        | none => w.pkt.pipe
        | some x => pipeOfLane x
      (b.cfgOf w.pkt.epoch).prog k = some g → (∀ x ∈ g.stages, x.enable = false) → mdDest w.pkt.md = 0 → ∃ t,
        exec (.hbmTableLookupReturn pi) s = .next t ∧ (t.blk.pipe pi.val).waits = ws ∧ dropped t k (mdReason w.pkt.md)) ∧
    ((b.tmq key).pkts = p :: rest → (∀ k < 8, k ≠ tc.val → (b.tmq (.port l.val k)).pkts = []) →
      (∀ k < 8, b.dueHead l.val k = none) → (b.cfg.port l.val).life = .enabled → (b.lane l.val).link = .up →
      b.mayServe l.val tc.val = true → (b.headClass l.val tc.val p).level < 8 → (b.cfgOf p.epoch).prog pl = some g →
      (∀ x ∈ g.stages, x.enable = false) →
      let runs := fun (r : State → Prop) => ∃ t, exec (.packetSchedule ⟨l, miss⟩) s = .next t ∧ (t.blk.tmq key).pkts = rest ∧ r t
      (mdDest p.md = 0 → runs (fun t => dropped t pl (mdReason p.md))) ∧
      (mdDest p.md ≠ 0 → mdCsum p.md = false → mdSa p.md = none → p.stamp = none → p.markCe = false →
        (((b.cfgOf p.epoch).port l.val).maxFrame.toNat < p.frame.length + 4 → runs (fun t => dropped t pl 8)) ∧
        (p.frame.length + 4 ≤ ((b.cfgOf p.epoch).port l.val).maxFrame.toNat →
          (p.launch = none → runs (fun t => t.blk.hog.egress = b.hog.egress ++ [{ lane := l.val, pkt := p }])) ∧
          (∀ u, p.launch = some u → b.launchFar u = false → runs (fun t => ∃ late,
            (t.blk.lane l.val).launch = (b.lane l.val).launch ++ [{ p with late := late }]))))) ∧
    ((∀ k, (match ref with
        | .port x y => k = QKey.port x.val y.val
        | .deliver i y => k = .deliver i.val y.val
        | .rmt _ => False) →
      let way := b.hog.crossing.find? (fun c => c.dest == CrossDest.queue k)
      (way = none → (b.tmq k).pkts = p :: rest → 1000000 < b.mono - p.born →
        ∃ t, exec (.cellAged ref) s = .next t ∧ (t.blk.tmq k).pkts = rest ∧ dropped t (b.pipeOfQ k) 7) ∧
      (way = some c → (b.tmq k).pkts = [] → 1000000 < b.mono - c.pkt.born →
        ∃ t, exec (.cellAged ref) s = .next t ∧ t.blk.hog.crossing = b.hog.crossing.erase c ∧ dropped t (b.pipeOfQ k) 7)) ∧
      (ref = .rmt h → b.hog.crossing.find? (fun c => c.dest == CrossDest.engine h) = none →
        (match h with
          | .west => b.rmt.inWest
          | .east => b.rmt.inEast) = p :: rest → 1000000 < b.mono - p.born →
        ∃ t, exec (.cellAged ref) s = .next t ∧ dropped t p.pipe 7 ∧ (match h with
          | .west => t.blk.rmt.inWest
          | .east => t.blk.rmt.inEast) = rest)) ∧
    (b.crossingTo h = c :: cs → (b.bridgeTo h).retrain = none →
      let goes := fun (r : State → Prop) => ∃ t, exec (.bridgeCellTransfer h) s = .next t ∧
        t.blk.hog.crossing = b.hog.crossing.erase c ∧ r t
      (b.dataWait h = false ∨ b.cellsWait h = false → b.serving h = false → goes (fun t => dropped t c.pkt.pipe 3 ∧
        t.blk.halfDown.get 0 h.code = sat64 (b.halfDown.get 0 h.code) 1)) ∧
      (b.dataWait h = false → b.serving h = true → ∀ x y, c.dest = .queue (.port x y) →
        (b.lane x).link = .up → (b.cfg.port x).life = .enabled → b.admits c.pkt.epoch (.port x y) c.pkt.cells = true →
        goes (fun t => ∃ ce, (t.blk.tmq (.port x y)).pkts =
          (b.tmq (.port x y)).pkts ++ [{ c.pkt with markCe := ce, inHeadroom := false }])) ∧
      (b.cellsWait h = false → b.serving h = true → goes (fun t => (match h with
          | .west => t.blk.rmt.inWest
          | .east => t.blk.rmt.inEast) = (match h with
          | .west => b.rmt.inWest
          | .east => b.rmt.inEast) ++ [{ c.pkt with inHeadroom := false }]))) ∧
    (b.hog.queues = [q] → q.key = .deliver inst.val wq.val → q.pkts = p :: rest →
      ((b.instCfg inst.val).inst inst.val).port.toNat = hp.val → b.instCan inst.val = true →
      (b.wq inst.val wq.val).fetched = [e] → e.st = .started →
      let gives := fun (r : State → Prop) => ∃ t, exec (.hostDelivery hp ans) s = .next t ∧ (t.blk.tmq q.key).pkts = rest ∧ r t
      (p.launch = none → rvLen e.raw < p.frame.length → gives (fun t => (t.blk.wq inst.val wq.val).fetched = [e] ∧
        dropped t (pipeOfPort hp.val) 0x0B)) ∧
      (p.frame.length ≤ rvLen e.raw → gives (fun t => (t.blk.wq inst.val wq.val).fetched = [] ∧
        ((∀ x, b.xlated inst.val (rvAddr e.raw) ans ≠ .xfault x) →
          .inst inst.val (rvAddr e.raw) p.frame ∈ t.blk.out))))

/-- R299 to R304: the learn unit takes its oldest request: a key not learned takes a free candidate slot, and is
counted as failed where there is none; one learned at another port moves, past the move limit becomes FLAPPING, and
while pinned does not move; one learned at its own port is refreshed. The sweeper visits the slot that is next, at its
pace: it strikes an entry, removes one struck and not hit since, and ends a pin that has run out. The end of a flush
leaves no entry that it matches, or of a port that a commit disabled, and every other. -/
def Obligations.LearningTable : Prop :=
  ∀ (s : State) (p : PipeId) (r : LearnReq) (rest : List LearnReq) (k : Nat) (x : Learned) (n : Fin 262144),
    let b := s.blk
    let u := (b.pipe p.val).learn
    let gives := fun (c : Instr) (f : LearnUnit → Prop) => ∃ t, exec c s = .next t ∧ f (t.blk.pipe p.val).learn ∧
      ∀ j ≠ p.val, t.blk.pipe j = b.pipe j
    let after := fun (c : Instr) (f : LearnUnit → Prop) => ∃ t, exec c s = .next t ∧ t.blk = { b with pipes := t.blk.pipes } ∧
      (t.blk.pipe p.val) = { b.pipe p.val with learn := (t.blk.pipe p.val).learn } ∧ f (t.blk.pipe p.val).learn ∧
      ∀ j ≠ p.val, t.blk.pipe j = b.pipe j
    let counted := fun (v : LearnUnit) (j : Nat) => v.counts.get 0 j = sat64 (u.counts.get 0 j) 1
    let others := fun (v : LearnUnit) (i : Nat) => ∀ j ≠ i, v.slots.get none j = u.slots.get none j
    (u.queue = r :: rest →
      (u.find r.key = none →
        (k ∈ learnSlots r.key → u.slots.get none k = none → after (.learnApply p) (fun v =>
          v.queue = rest ∧ counted v 0 ∧ ∃ i ∈ learnSlots r.key, u.slots.get none i = none ∧ ∃ y, v.slots.get none i = some y ∧
            y.key = r.key ∧ y.port = r.port ∧ y.hit = true ∧ y.strike = false ∧ y.flapping = false ∧ others v i)) ∧
        ((∀ i ∈ learnSlots r.key, u.slots.get none i ≠ none) → gives (.learnApply p) (fun v =>
          v.queue = rest ∧ counted v 2 ∧ v.slots = u.slots))) ∧
      (u.find r.key = some k → u.slots.get none k = some x →
        (x.flapping = false ∨ b.mono < x.pinUntil → x.port = r.port →
          after (.learnApply p) (fun v => v.queue = rest ∧ others v k ∧
            v.slots.get none k = some { x with hit := true, strike := false })) ∧
        (x.flapping = true → b.mono < x.pinUntil → x.port ≠ r.port →
          after (.learnApply p) (fun v => v.queue = rest ∧ counted v 4 ∧ v.slots = u.slots)) ∧
        (x.flapping = false → x.port ≠ r.port →
          let moves := (if x.window = b.mono / 1000000000 then x.moves else 0) + 1
          let flap := u.moveLimit ≠ 0 ∧ u.moveLimit.toNat < moves
          gives (.learnApply p) (fun v => v.queue = rest ∧ counted v 1 ∧ others v k ∧ ∃ y, v.slots.get none k = some y ∧
            y.key = x.key ∧ y.port = r.port ∧ y.hit = true ∧ y.strike = false ∧ y.moves = moves ∧ (y.flapping = true ↔ flap) ∧
            (flap → y.pinUntil = b.mono + u.sweepS.toNat * 1000000000))))) ∧
    (¬(u.sweepPos = n.val ∧ u.sweepDue b.mono = true) → after (.sweeperVisit p n) (fun v => v = u)) ∧
    (u.sweepPos = n.val → u.sweepDue b.mono = true →
      let visits := fun (f : LearnUnit → Prop) => after (.sweeperVisit p n) (fun v =>
        v.sweepPos = (n.val + 1) % 262144 ∧ v.sweepAt = b.mono ∧ others v n.val ∧ f v)
      (u.slots.get none n.val = none → visits (fun v => v.slots.get none n.val = none)) ∧
      (u.slots.get none n.val = some x →
        (x.flapping = true → visits (fun v => v.slots.get none n.val = if x.pinUntil ≤ b.mono then
          some { x with flapping := false, hit := true, strike := false, moves := 0 } else some x)) ∧
        (x.flapping = false →
          (u.ageEn = false → visits (fun v => v.slots.get none n.val = some x)) ∧
          (u.ageEn = true →
            (x.hit = true ∨ x.strike = false → visits (fun v =>
              v.slots.get none n.val = some { x with hit := false, strike := true })) ∧
            (x.hit = false → x.strike = true → visits (fun v => v.slots.get none n.val = none ∧ counted v 3)))))) ∧
    after (.learnFlushEnd p) (fun v => v.flGo = false ∧ v.flOwn = [] ∧
      (∀ j y, v.slots.get none j = some y → (u.flGo = true → u.flushMatch y = false) ∧ y.port ∉ u.flOwn) ∧
      ∀ e ∈ u.slots, (∀ y, e.2 = some y → (u.flGo = true → u.flushMatch y = false) ∧ y.port ∉ u.flOwn) → e ∈ v.slots)

/-- R312, R317, R320 to R324: link states of an Ethernet port: one that may run takes the state it is given, FAULT in
place of UP under a fault, and comes up by auto-negotiation unless it was forced; negotiation without a page for 500
ms goes on in forced mode, one DOWN for 1 s tries again. Slots, links and requests of the drives: presence, the
button, the link and the release of reset set the slot's bits; a slot whose drive is removed under power loses it; an
access of firmware is forwarded through a link that is up and answered as the drive answers, with all ones and a count
where it does not; a request to HBM is served, one to the MSI window pends, any other is refused and counted. -/
def Obligations.PortsAndSlots : Prop :=
  ∀ (s : State) (l : LaneId) (st : Fin 6) (an lf rf : Bool) (d : DspId) (sp wd : BitVec 3) (off : BitVec 28) (x v : W32)
    (wr : Option W32) (resp : CfgResp) (k : Fin 64) (a : W64) (n : Fin 4097) (data : List Byte),
    let b := s.blk
    let y := b.dsport d.val
    let lane := fun (c : Instr) (f : EthLane → Prop) => ∃ t, exec c s = .next t ∧ f (t.blk.lane l.val) ∧
      ∀ j ≠ l.val, (t.blk.lane j).link = (b.lane j).link
    let slot := fun (c : Instr) (z : Dsp) => ∃ t, exec c s = .next t ∧ t.blk.dsport d.val = z ∧
      ∀ j ≠ d.val, t.blk.dsport j = b.dsport j
    let idle := fun (c : Instr) => ∃ t, exec c s = .next t ∧ t = s
    let st1 := if st = 3 ∧ (lf = true ∨ rf = true) then LinkSt.fault else linkOf st
    let wrong := st1 = .up ∧ an = (b.lane l.val).forced
    let due := (b.lane l.val).link = .negotiating ∧ (b.lane l.val).negAt + 500000000 ≤ b.mono
    let again := b.linkAllowed l.val = true ∧ (b.lane l.val).link = .down ∧ (b.lane l.val).downAt + 1000000000 ≤ b.mono
    (b.linkAllowed l.val = false ∨ st = 0 ∨ wrong → idle (.linkStateChange l st an lf rf)) ∧
    (b.linkAllowed l.val = true → st ≠ 0 → ¬wrong → lane (.linkStateChange l st an lf rf) (fun z =>
      z.link = st1 ∧ z.localFault = lf ∧ z.remoteFault = rf ∧ (st1 = .up → z.autoneg = !(b.lane l.val).forced) ∧
      (st1 = .down → z.downAt = b.mono) ∧ (st1 = .negotiating → z.negAt = b.mono))) ∧
    (¬due → idle (.autonegTimeout l)) ∧
    (due → lane (.autonegTimeout l) (fun z => z.link = .training ∧ z.autoneg = false ∧ z.forced = true)) ∧
    (¬again → idle (.linkRetry l)) ∧
    (again → lane (.linkRetry l) (fun z => z.link = .negotiating ∧ z.negAt = b.mono)) ∧
    slot (.dsPresenceChange d y.presence) y ∧
    (y.presence = false → slot (.dsPresenceChange d true) { y with presence := true, presenceChanged := true }) ∧
    (y.presence = true → y.power ≠ 1 → slot (.dsPresenceChange d false) { y with presence := false, presenceChanged := true }) ∧
    (y.presence = true → y.power = 1 → slot (.dsPresenceChange d false) { y with
      presence := false, presenceChanged := true, power := 2, perst := true, clock := false, pwren := false, onAt := none,
      dllActive := false, dllChanged := y.dllChanged || y.dllActive, speed := 0, width := 0, training := false,
      retrain := false, autoOff := true }) ∧
    slot (.dsAttnButton d) { y with button := true } ∧
    (y.power ≠ 1 ∨ y.perst = true → slot (.dsDllChange d true sp wd) y) ∧
    (y.power = 1 → y.perst = false → slot (.dsDllChange d true sp wd) { y with
      dllActive := true, speed := sp, width := wd, training := false, retrain := false,
      dllChanged := y.dllChanged || !y.dllActive }) ∧
    slot (.dsDllChange d false sp wd) { y with
      dllActive := false, speed := 0, width := 0, training := y.power == 1 && !y.perst, dllChanged := y.dllChanged || y.dllActive } ∧
    slot (.dsPerstRelease d) (if (y.onAt.map (fun u => decide (u + 100000000 ≤ b.mono))).getD false = true then
      { y with perst := false, onAt := none, training := true } else y) ∧
    (∃ t, exec (.dspConfigAccess d off wr resp) s = .next t ∧
      let sent := if y.dllActive then Emit.dsp d.val off.toNat wr :: b.out else b.out
      let served := fun (o : List Emit) => t.blk = { b with out := o }
      let counts := fun (o : List Emit) => t.blk.out = o ∧ t.blk.dsport d.val = { y with ur := sat32 y.ur 1 } ∧
        ∀ j ≠ d.val, t.blk.dsport j = b.dsport j
      let ones := counts (.dspData d.val [0xFF, 0xFF, 0xFF, 0xFF] :: sent)
      (wr = some v → ((y.dllActive = true ∧ resp = .ok x) → served sent) ∧
        (y.dllActive = false ∨ (∀ x, resp ≠ .ok x) → counts sent)) ∧
      (wr = none →
        (y.dllActive = true → resp = .ok x → served (.dspData d.val (bytesLE 4 x.toNat) :: sent)) ∧
        (y.dllActive = true → resp = .rrs → off.toNat % 4096 / 4 = 0 → ∃ p q, t.blk.out = .dspData d.val [0x01, 0x00, p, q] :: sent ∧
          t.blk.dsport d.val = y) ∧
        (y.dllActive = true → resp = .rrs → off.toNat % 4096 / 4 ≠ 0 → ones) ∧
        (y.dllActive = false ∨ resp = .ur → ones))) ∧
    slot (.dsMsiWrite d k) { y with pend := y.pend ||| BitVec.ofNat 64 (2 ^ k.val) } ∧
    (inHbm a.toNat n.val = true → ∃ t, exec (.dsMemoryRequest d (.read a n)) s = .next t ∧
      t.blk = { b with out := .dspData d.val (b.bytes a.toNat n.val) :: b.out }) ∧
    (inHbm a.toNat n.val = false → slot (.dsMemoryRequest d (.read a n)) { y with ur := sat32 y.ur 1 }) ∧
    (inHbm a.toNat data.length = true → ∃ t, exec (.dsMemoryRequest d (.write a data)) s = .next t ∧
      (∀ j < data.length, data[j]? = some (t.blk.byte (a.toNat + j))) ∧
      (∀ j, j < a.toNat ∨ a.toNat + data.length ≤ j → t.blk.byte j = b.byte j) ∧
      b.tablesAfter t.blk.pipes (fun j => a.toNat ≤ j ∧ j < a.toNat + data.length) ∧ (∀ j, t.blk.thread j = b.thread j) ∧
      t.blk = { b with
        mem := t.blk.mem, poison := t.blk.poison, dir := t.blk.dir, pipes := t.blk.pipes, cores := t.blk.cores }) ∧
    (inHbm a.toNat data.length = false →
      ((data.length = 4 ∧ a.toNat = 0x001800000000 + d.val * 0x10000 + 4 * k.val) →
        slot (.dsMemoryRequest d (.write a data)) { y with pend := y.pend ||| BitVec.ofNat 64 (2 ^ k.val) }) ∧
      ((data.length ≠ 4 ∨ ∀ k : Fin 64, a.toNat ≠ 0x001800000000 + d.val * 0x10000 + 4 * k.val) → ∃ t,
        exec (.dsMemoryRequest d (.write a data)) s = .next t ∧ t.blk.out = .dspUr d.val :: b.out ∧
        t.blk.dsport d.val = { y with ur := sat32 y.ur 1 })) ∧
    slot (.dsErrMessage d) { y with errMsg := sat32 y.errMsg 1 }

/-- R6, R287, R301, R304, R320, R323, R336, R409: registers of the pipelines, drives and lanes as a thread writes
them: LEARN_CFG, LEARN_FLUSH, the punt ring, DSP_SLOT and retrain, TS_POP; no other writer reaches them. A write of
TRIG_ADD adds to a trigger counter of the page's instance, or is discarded and counted where that is not enabled. -/
def Obligations.DeviceRegisters : Prop :=
  ∀ (s : State) (th : Tid) (who : Who) (p : PipeId) (d : DspId) (l : LaneId) (v : W64) (h : PortId) (inst : InstId) (n : W32),
    let b := s.blk
    let w : Who := .thread th
    let u := (b.pipe p.val).learn
    let x := b.pipe p.val
    let y := b.dsport d.val
    let k := fieldNat (n.setWidth 64) 0 16
    let add := fieldNat (n.setWidth 64) 16 16
    let pipe := fun (c : Instr) (z : Pipe) => ∃ t, exec c s = .next t ∧
      t.blk = { b with pipes := t.blk.pipes, stg := t.blk.stg } ∧ t.blk.pipe p.val = z ∧ ∀ j ≠ p.val, t.blk.pipe j = b.pipe j
    let drive := fun (c : Instr) (z : Dsp) => ∃ t, exec c s = .next t ∧ t.blk.dsport d.val = z ∧
      ∀ j ≠ d.val, t.blk.dsport j = b.dsport j
    ((∀ t, who ≠ .thread t) → ∀ c ∈ [Instr.learnCfgWrite who p v, .learnFlushGo who p v, .puntCiWrite who p v,
      .puntBaseWrite who p v, .dspSlotWrite who d v, .dspRetrain who d, .tsPop who l], exec c s = .next s) ∧
    pipe (.learnCfgWrite w p v) { x with learn := { u with
      learnEn := v.getLsbD 0, ageEn := v.getLsbD 1, hitAction := v.extractLsb' 2 12, moveLimit := v.extractLsb' 16 8,
      sweepS := if 10 ≤ fieldNat v 32 12 ∧ fieldNat v 32 12 ≤ 3600 then v.extractLsb' 32 12 else u.sweepS } } ∧
    (u.flGo = false → pipe (.learnFlushGo w p v) { x with learn := { u with
      flBd := v.extractLsb' 0 14, flByBd := v.getLsbD 14, flPort := v.extractLsb' 16 7, flByPort := v.getLsbD 23,
      flGo := v.getLsbD 24 } }) ∧
    (u.flGo = true → pipe (.learnFlushGo w p v) x) ∧
    pipe (.puntCiWrite w p v) { x with
      puntCi := if (v.extractLsb' 0 32 - x.puntCi).toNat ≤ (x.puntPi - x.puntCi).toNat then v.extractLsb' 0 32 else x.puntCi } ∧
    (x.puntEnable = false → v.getLsbD 0 = true → pipe (.puntBaseWrite w p v) { x with
      puntEnable := true, puntBase := v.extractLsb' 12 52, puntPi := 0, puntCi := 0 }) ∧
    (x.puntEnable = false → v.getLsbD 0 = false → pipe (.puntBaseWrite w p v) { x with puntBase := v.extractLsb' 12 52 }) ∧
    (x.puntEnable = true → pipe (.puntBaseWrite w p v) { x with puntEnable := v.getLsbD 0 }) ∧
    (let y1 := { y with
        presenceChanged := y.presenceChanged && !v.getLsbD 1, button := y.button && !v.getLsbD 2,
        dllChanged := y.dllChanged && !v.getLsbD 3 }
      let y2 := if fieldNat v 4 2 = 1 ∧ y.presence = true ∧ y.power ≠ 1 then { y1 with
          power := 1, pwren := true, clock := true, onAt := some b.mono, autoOff := false, ur := 0, errMsg := 0 }
        else if fieldNat v 4 2 = 2 then { y1 with
          power := 2, perst := true, clock := false, pwren := false, onAt := none, dllActive := false,
          dllChanged := y1.dllChanged || y.dllActive, speed := 0, width := 0, training := false, retrain := false }
        else y1
      drive (.dspSlotWrite w d v) { y2 with
        attention := if fieldNat v 6 2 = 0 then y.attention else BitVec.ofNat 2 (fieldNat v 6 2),
        powerLed := if fieldNat v 8 2 = 0 then y.powerLed else BitVec.ofNat 2 (fieldNat v 8 2) }) ∧
    (y.dllActive = true → drive (.dspRetrain w d) { y with
      retrain := true, training := true, dllActive := false, dllChanged := true }) ∧
    (y.dllActive = false → drive (.dspRetrain w d) y) ∧
    (∃ t, exec (.tsPop w l) s = .next t ∧
      t.blk = { b with eth := t.blk.eth, stg := t.blk.stg } ∧
      t.blk.lane l.val = (if (b.cfg.port l.val).life = .absent then b.lane l.val else
        { b.lane l.val with ts := (b.lane l.val).ts.drop 1 }) ∧ ∀ j ≠ l.val, t.blk.lane j = b.lane j) ∧
    (b.gate (.f1 h) (.trigAdd inst.val) = .pass →
      let adds := fun (z : Trig) => ∃ t, exec (.trigAdd h inst n) s = .next t ∧
        t.blk = { b with rmt := t.blk.rmt, stg := t.blk.stg } ∧ t.blk.trig k = z ∧ ∀ j ≠ k, t.blk.trig j = b.trig j
      let own := (b.cfg.trig k).life ≠ .absent ∧ (b.cfg.trig k).inst = inst.val
      (¬own ∨ add = 0 → adds (b.trig k)) ∧
      (own → add ≠ 0 → b.rmt.posted = [] → b.rmt.incs = [] →
        ((b.cfg.trig k).life = .enabled → adds { b.trig k with
          value := min 0xFFFFFFFF ((b.trig k).value + add), increments := sat64 (b.trig k).increments 1 }) ∧
        ((b.cfg.trig k).life ≠ .enabled → adds { b.trig k with discarded := sat64 (b.trig k).discarded 1 })))

/-- R325, R328 to R331, R342: the servo takes a sample, which HOLDOVER ignores: it holds, slews, steps, or asks for a
step; 1PPS edges; loss and return of the source; the 1PPS output; a read of TB_NSEC latches the rest of the timebase;
a launch frame that is due goes to the MAC. -/
def Obligations.TimeAndServo : Prop :=
  ∀ (s : State) (o : W64) (w : Who) (ref wide : Bool) (l : LaneId) (tc : Fin 8) (p : Packet),
    let b := s.blk
    let c := b.clk
    let clk := fun (i : Instr) (z : Clock) => ∃ t, exec i s = .next t ∧ t.blk = { b with clk := z }
    let sets := fun (i : Instr) (f : Clock → Prop) => ∃ t, exec i s = .next t ∧ f t.blk.clk
    let r := c.tb % secGrains
    let noted := { c with offset := o.toInt, samples := (o.toInt :: c.samples).take 4 }
    let big := c.threshold * 65536 < o.toInt.natAbs
    let near := ∃ u, c.lastPps = some u ∧ c.mono ≤ u + 1500000000
    let since := b.elec.refAt.get 0 (16 + c.refPair.toNat)
    let lost := (c.source = 0 ∧ (ref = true ∨ c.lastPps.getD c.srcSince + 1500000000 ≤ c.mono)) ∨
      (c.source = 1 ∧ ref = true ∧ b.ethRef c.refPair.toNat = false ∧ since + 10000 ≤ c.mono)
    let back := (c.source = 0 ∧ 4 ≤ c.ppsEdges) ∨
      (c.source = 1 ∧ b.ethRef c.refPair.toNat = true ∧ since + 1000000 ≤ c.mono)
    (c.servo = .holdover → exec (.servoSample o) s = .next s) ∧
    (c.servo ≠ .holdover →
      (c.hold = true → clk (.servoSample o) noted) ∧
      (c.hold = false → ¬big →
        let acc := clampF (c.acc + asr (-o.toInt) c.kiShift)
        sets (.servoSample o) (fun z => (z.servo = .locked ∨ z.servo = .acquiring) ∧
          (z.servo = .locked ↔ 3 ≤ c.samples.length ∧ ∀ y ∈ (o.toInt :: c.samples).take 4, y.natAbs ≤ 100 * 65536) ∧
          z = { noted with acc := acc, freq := clampF (acc + asr (-o.toInt) c.kpShift), servo := z.servo })) ∧
      (c.hold = false → big → c.autoStep = false ∨ c.stepOk (-o.toInt) = false →
        sets (.servoSample o) (fun z => z = { noted with servo := .stepRequest })) ∧
      (c.hold = false → big → c.autoStep = true → c.stepOk (-o.toInt) = true →
        let n := c.stepCount + 1
        sets (.servoSample o) (fun z => (z.tb : Int) = (c.tb : Int) - o.toInt ∧ z = { noted with
          tb := z.tb, stepCount := n, servo := .acquiring,
          logOffset := c.logOffset.put 0 (n.toNat % 16) (BitVec.ofInt 64 (-o.toInt)),
          logMono := c.logMono.put 0 (n.toNat % 16) (BitVec.ofNat 64 c.mono) }))) ∧
    (let edge := fun (pres : Bool) (k : Nat) =>
        let c1 := { c with lastPps := some c.mono, ppsPresent := pres, ppsEdges := k }
        (c.source ≠ 0 → clk .ppsEdge c1) ∧
        (c.source = 0 → c.servo = .holdover → sets .ppsEdge (fun z => z = c1)) ∧
        (c.source = 0 → c.servo ≠ .holdover → sets .ppsEdge (fun z => z.lastPps = some c.mono ∧ z.ppsPresent = pres ∧
          z.ppsEdges = k ∧ (z.offset - (if r * 2 ≤ secGrains then (r : Int) else (r : Int) - secGrains)).natAbs ≤ 131072));
      (near → edge true (c.ppsEdges + 1)) ∧ (¬near → edge false 1)) ∧
    (¬lost → exec (.timeSourceLost ref) s = .next s) ∧
    (lost → sets (.timeSourceLost ref) (fun z => z = { c with
      refPresent := c.refPresent && !(ref && c.source == 0), ppsEdges := 0, servo := .holdover })) ∧
    (c.servo ≠ .holdover ∨ ¬back → exec .timeSourceRegained s = .next s) ∧
    (c.servo = .holdover → back → sets .timeSourceRegained (fun z => z = { c with
      servo := .acquiring, refPresent := c.refPresent || c.source == 0 })) ∧
    (c.ppsOut = false → c.ppsDue = true → clk .ppsOutEdge { c with ppsOut := true, ppsDue := false, ppsRise := c.mono }) ∧
    (c.ppsOut = false → c.ppsDue = false → clk .ppsOutEdge c) ∧
    (c.ppsOut = true → c.ppsRise + 100000000 ≤ c.mono → clk .ppsOutEdge { c with ppsOut := false, ppsDue := false }) ∧
    (c.ppsOut = true → c.mono < c.ppsRise + 100000000 → clk .ppsOutEdge c) ∧
    (b.gate w .tbNsec = .pass → ∃ t v, exec (.tbNsecRead w wide) s = .next t ∧
      t.blk = { b with out := .readData w v :: b.out, fresh := t.blk.fresh, tbLat := t.blk.tbLat, pm := t.blk.pm } ∧
      t.blk.tbLat = (w, (if wide = true then none else some c.grainReg), c.secReg) :: b.tbLat.filter (fun e => e.1 != w) ∧
      v.toNat % 2 ^ 30 = c.tb / 65536 % 1000000000 ∧
      (wide = true → v.toNat / 2 ^ 32 % 2 ^ 16 = c.tb % 65536 ∧ v.toNat / 2 ^ 48 % 2 ^ 8 = c.stepCount.toNat)) ∧
    (b.dueHead l.val tc.val = none → exec (.launchDue l tc) s = .next s) ∧
    (b.dueHead l.val tc.val = some p →
      ∃ t, exec (.launchDue l tc) s = .next t ∧ t.blk.hog.egress = b.hog.egress ++ [{ lane := l.val, pkt := p }] ∧
        (t.blk.lane l.val).launch.length + 1 = (b.lane l.val).launch.length ∧
        (t.blk.lane l.val).launchLate = sat64 (b.lane l.val).launchLate (if p.late then 1 else 0))

/-- R422, R427, R428, R432: the controls of a DMA channel, as a writer that DMA_HOST_MASK and its place let in writes
them, and without effect from any other: enable and disable, pause, kick, arm, abort; the end of a pause; restart of a
halted engine. A channel that has no descriptor in hand and no read outstanding reads the next one, where its ring can
be read. -/
def Obligations.DmaControls : Prop :=
  ∀ (s : State) (w : Who) (h : PortId) (c : DmaCh) (d : Desc) (n : W32) (v : Bool),
    let b := s.blk
    let e := b.eng h.val
    let x := b.chn h.val c.val
    let chanP := fun (i : Instr) (z : Dch) (f : State → Prop) => ∃ t, exec i s = .next t ∧ t.blk.chn h.val c.val = z ∧
      (∀ j ≠ c.val, t.blk.chn h.val j = b.chn h.val j) ∧ (∀ k ≠ h.val, t.blk.eng k = b.eng k) ∧ f t
    let chan := fun (i : Instr) (z : Dch) => chanP i z (fun t =>
      t.blk = { b with dma := t.blk.dma, stg := t.blk.stg, pm := t.blk.pm })
    let going := fun (y : Dch) =>
      if b.dmaRuns h.val = false then y
      else if y.next.sys = true ∧ (sysLoc h.val y.next.byte 32).isNone = true then
        { y with st := .error, reason := 0x0522, curDesc := y.next }
      else if b.dmaCan h.val y.next.sys = false then { y with st := .bmeOff, before := .active }
      else { y with reading := some y.next, dropRead := false, endMark := true, aheadDone := true, kick := false }
    let fresh := x.desc = none ∧ x.reading = none
    let again := { x with
      bursts := [], reading := none, ahead := none, aheadDone := false, rdSrc := x.curSrc.toNat,
      rdLeft := if x.desc.isSome then x.remain.toNat else 0 }
    (b.gate w (.dmaCtrl h.val c.val) = .none ∨ (b.gate w (.dmaCtrl h.val c.val) = .pass ∧ b.dmaOpen w h.val c.val = false) →
      chan (.dmaChEnable w h c v) x ∧ chan (.dmaChPause w h c v) x ∧ chan (.dmaChAbort w h c) x) ∧
    (b.gate w (.dmaCtrl h.val c.val) = .pass → b.dmaOpen w h.val c.val = true →
      chan (.dmaChEnable w h c x.enable) x ∧ chan (.dmaChPause w h c x.pause) x ∧
      (x.enable = false →
        (x.pause = true → chan (.dmaChEnable w h c true) { x with enable := true, kick := true, reason := 0, st := .paused }) ∧
        (x.pause = false → fresh → chan (.dmaChEnable w h c true)
          (going { x with enable := true, kick := true, reason := 0, st := .active }))) ∧
      (x.enable = true →
        (x.st = .idle ∨ x.st = .paused ∨ x.st = .halted ∨ x.st = .error → chan (.dmaChEnable w h c false) { x with
          enable := false, st := .disabled, desc := none, rdLeft := 0, bursts := [], reading := none, ahead := none }) ∧
        (x.st = .active ∨ x.st = .pausing ∨ x.st = .bmeOff → chan (.dmaChEnable w h c false) x)) ∧
      (x.pause = false → chan (.dmaChPause w h c true) { x with
        pause := true, ahead := none,
        st := (if x.st = .active then .pausing else if x.st = .idle then .paused else x.st),
        before := (if x.st = .bmeOff ∧ x.before = .active then .pausing else x.before),
        kept := (if x.st = .halted ∧ x.kept = .active then .paused else x.kept) }) ∧
      (x.pause = true →
        (x.st = .paused → x.desc = some d → x.remain ≠ 0 →
          chan (.dmaChPause w h c false) { again with pause := false, st := .active }) ∧
        (x.st = .paused → x.desc = none → chan (.dmaChPause w h c false) (going { again with pause := false, st := .active })) ∧
        (x.st = .pausing → x.reading.isSome = true ∨ (x.desc = some d ∧ x.rdLeft ≠ 0) →
          chan (.dmaChPause w h c false) { x with pause := false, st := .active }) ∧
        (x.st ≠ .paused → x.st ≠ .pausing → x.st ≠ .active → chan (.dmaChPause w h c false) { x with
          pause := false, before := (if x.st = .bmeOff ∧ x.before = .pausing then .active else x.before),
          kept := (if x.st = .halted ∧ (x.kept = .paused ∨ x.kept = .pausing) then .active else x.kept) })) ∧
      (x.desc = none → chan (.dmaChAbort w h c) x) ∧
      (¬(x.st = .paused ∧ e.st = .running) → ¬(x.st = .halted ∧ e.st = .halted) → chan (.dmaChAbort w h c) x) ∧
      (x.desc = some d → ∀ status, (x.st = .paused ∧ e.st = .running ∧ status = 0x0501) ∨
          (x.st = .halted ∧ e.st = .halted ∧ status = 0x0523) →
        let y := { x with desc := none, rdLeft := 0, bursts := [], done := sat64 x.done 1 }
        chanP (.dmaChAbort w h c) { (if x.st = .paused ∧ x.arm = true then y.handOver else y) with curDesc := x.next } (fun t =>
          x.curDesc.sys = false → .bus h.val false (x.curDesc.byte + 20)
            (bytesLE 1 (dFlags d / 2 * 2) ++ bytesLE 1 (dN d 21 1) ++ bytesLE 2 status) ∈ t.blk.out))) ∧
    (let ends := b.dmaRuns h.val = true ∧ x.st = .pausing ∧ x.bursts = [] ∧ (x.desc = none ∨ x.remain ≠ 0);
      (ends → chan (.dmaPauseDrained h c) { x with st := .paused, reading := none }) ∧
      (¬ends → exec (.dmaPauseDrained h c) s = .next s)) ∧
    (b.gate w (.dmaKick h.val c.val) = .pass → b.dmaOpen w h.val c.val = true →
      (x.st = .idle ∨ x.st = .active → fresh → chan (.dmaChKick w h c n) (going { x with kick := true, st := .active })) ∧
      ((x.st ≠ .idle ∧ x.st ≠ .active) ∨ (x.st = .active ∧ (x.reading.isSome = true ∨ (x.desc = some d ∧ x.rdLeft ≠ 0))) →
        chan (.dmaChKick w h c n) { x with kick := true })) ∧
    (b.gate w (.dmaShadow h.val c.val) = .pass → b.dmaOpen w h.val c.val = true →
      chan (.dmaShadowArm w h c false) { x with arm := false } ∧
      (x.st = .idle → fresh → chan (.dmaShadowArm w h c true) (going { x with
        next := x.shNext, cfg := x.shCfg, arm := false, handed := true, ahead := none, dropRead := false, st := .active })) ∧
      (x.st = .paused → x.desc = none → chan (.dmaShadowArm w h c true) { x with
        next := x.shNext, cfg := x.shCfg, arm := false, handed := true, ahead := none, dropRead := x.reading.isSome }) ∧
      (x.st ≠ .idle → x.st ≠ .paused ∨ x.desc.isSome = true →
        chan (.dmaShadowArm w h c true) { x with arm := true, ahead := none })) ∧
    (b.gate w (.dmaEngCtrl h.val) = .pass →
      (e.st ≠ .halted ∨ (b.port h.val).linkUp = false → ∃ t, exec (.dmaRestart w h) s = .next t ∧
        t.blk = { b with stg := t.blk.stg }) ∧
      (e.st = .halted → (b.port h.val).linkUp = true → ∃ t, exec (.dmaRestart w h) s = .next t ∧
        (t.blk.eng h.val).st = .running ∧
        (x.st = .halted → x.kept = .paused ∨ x.kept = .pausing → ∃ z, t.blk.chn h.val c.val = { again with st := .paused, before := z }) ∧
        (x.st = .halted → x.kept = .active → x.desc = some d → x.remain ≠ 0 →
          ∃ z, t.blk.chn h.val c.val = { again with st := .active, before := z })))

/-- R56, R420 to R426, R429 to R431, R512: a descriptor read of either space returns: the end mark idles the channel
or, after a kick, reads again; a good descriptor is taken in hand, a LINK followed, a faulty one stops the channel
with a reason; one that would write back while its space admits no request waits. A burst is issued and its data
written; the descriptor completes, by its write-back, and the next is read. A failed read, a read that times out, and
a fabric fault of a write stop the engine; a read that ends while it halts is discarded and counted; it is HALTED once
its reads have ended or 10 ms have passed. -/
def Obligations.DmaTransfers : Prop :=
  ∀ (s : State) (h : PortId) (c : DmaCh) (ans : DmaAns) (m : List Byte) (d : Desc) (r : Nat) (u : Burst) (us : List Burst) (a : W64)
    (wr sys : Bool) (z : StopCause) (i : DAddr),
    let b := s.blk
    let e := b.eng h.val
    let x := b.chn h.val c.val
    let chanP := fun (k : Instr) (y : Dch) (f : State → Prop) => ∃ t, exec k s = .next t ∧ t.blk.chn h.val c.val = y ∧
      (∀ j ≠ c.val, t.blk.chn h.val j = b.chn h.val j) ∧ (∀ k ≠ h.val, t.blk.eng k = b.eng k) ∧ f t
    let chan := fun (k : Instr) (y : Dch) => chanP k y (fun t => t.blk = { b with dma := t.blk.dma, pm := t.blk.pm })
    let wrote := fun (sys : Bool) (at_ : Nat) (l : List Byte) (t : State) =>
      (sys = false → .bus h.val false at_ l ∈ t.blk.out) ∧
      (sys = true → ∀ loc, sysLoc h.val at_ l.length = some loc → ∀ j < l.length, l[j]? = some (t.blk.byte (loc + j)))
    let back := fun (own status : Nat) => bytesLE 1 (dFlags d / 2 * 2 + own) ++ bytesLE 1 (dN d 21 1) ++ bytesLE 2 status
    let going := fun (y : Dch) =>
      if y.next.sys = true ∧ (sysLoc h.val y.next.byte 32).isNone = true then
        { y with st := .error, reason := 0x0522, curDesc := y.next }
      else if b.dmaCan h.val y.next.sys = false then { y with st := .bmeOff, before := .active }
      else { y with reading := some y.next, dropRead := false, endMark := true, aheadDone := true, kick := false }
    let inHand := fun (y : Dch) => { y with
      desc := some d, curDesc := x.next, curSrc := BitVec.ofNat 64 (dSrc d), curDst := BitVec.ofNat 64 (dDst d),
      remain := BitVec.ofNat 25 (dLen d), srcSys := dSrcSys d, dstSys := dDstSys d, rdSrc := dSrc d, rdLeft := dLen d,
      next := { x.next with addr := x.next.addr + 1 }, aheadDone := false }
    let stops := fun (k : Instr) (cause : StopCause) (addr : W64) (wr sys : Bool) (n : Nat) => ∃ t, exec k s = .next t ∧
      t.blk.eng h.val = { e with
        st := .halting, gen := e.gen + 1, cause := BitVec.ofNat 4 (stopCode cause), errWrite := wr, errSys := sys,
        errAddr := if cause = .linkLoss then 0 else addr, ending := e.ending + (e.reads - n), stopAt := b.mono,
        chans := (t.blk.eng h.val).chans } ∧
      (x.st = .active ∨ x.st = .pausing ∨ x.st = .paused ∨ x.st = .bmeOff →
        t.blk.chn h.val c.val = { x with bursts := [], reading := none, ahead := none, st := .halted, kept := x.st })
    let late := fun (k : Instr) => ((e.st = .halting ∨ (b.fn h.val false).flr = true) → 0 < e.ending → ∃ t, exec k s = .next t ∧
        t.blk.eng h.val = { e with ending := e.ending - 1 } ∧ (t.blk.port h.val).discard = sat64 (b.port h.val).discard 1) ∧
      (¬((e.st = .halting ∨ (b.fn h.val false).flr = true) ∧ 0 < e.ending) → exec k s = .next s)
    let held := (e.chans.foldl (fun a c => a + c.2.bursts.length) 0)
    (b.dmaRuns h.val = false → late (.dmaDescRead h c ans) ∧ late (.dmaBurstData h c ans) ∧
      exec (.dmaBurstIssue h) s = .next s ∧ exec (.dmaDescComplete h c) s = .next s) ∧
    (b.dmaRuns h.val = true →
      (x.reading = none → exec (.dmaDescRead h c ans) s = .next s ∧ exec (.completionTimeout h (.desc c)) s = .next s) ∧
      (x.reading = some i →
        let got := b.dmaData h.val i.sys i.byte 32 ans
        let reads := (.dmaDescRead h c ans : Instr)
        let own := dOwn (BitVec.ofNat 256 (natLE m))
        let y := { x with reading := none, dropRead := false }
        (i.sys = false → stops (.completionTimeout h (.desc c)) .timeout (BitVec.ofNat 64 i.byte) false false 1) ∧
        (got = .fail z → stops reads z (BitVec.ofNat 64 i.byte) false i.sys 1) ∧
        (got = .ok m → i = x.next → x.dropRead = false → BitVec.ofNat 256 (natLE m) = d →
          (x.st = .bmeOff → own = true → x.arm = false → chan reads { y with ahead := some d }) ∧
          (x.st = .active → x.endMark = false → x.desc.isSome = true → own = true → x.arm = false →
            chan reads { y with ahead := some d }) ∧
          (x.st = .active → x.endMark = true → x.desc = none →
            (own = false → x.kick = false → chan reads { y with idleAt := x.next, st := .idle }) ∧
            (own = false → x.kick = true → chan reads (going y)) ∧
            (own = true →
              (descFault h.val d = none → dLink d = false → dLen d ≠ 0 → chan reads (inHand y)) ∧
              (descFault h.val d = none → dLink d = true → b.dmaCan h.val x.next.sys = true →
                chanP reads (going { y with next := dAddr (dSrcSys d) (dSrc d), done := sat64 x.done 1 })
                  (wrote x.next.sys (x.next.byte + 20) (back 0 0))) ∧
              (descFault h.val d = some r → b.dmaCan h.val x.next.sys = true →
                chanP reads { y with st := .error, reason := BitVec.ofNat 16 r, curDesc := x.next, ahead := none }
                  (wrote x.next.sys (x.next.byte + 20) (back 1 r))) ∧
              ((descFault h.val d).isSome = true ∨ dLink d = true → b.dmaCan h.val x.next.sys = false →
                chan reads { y with st := .bmeOff, before := .active, ahead := some d }))))) ∧
      (e.pick = none ∨ 128 ≤ held → exec (.dmaBurstIssue h) s = .next s) ∧
      (e.pick = some c.val → held < 128 →
        let n := min x.rdLeft (512 - x.rdSrc % 512)
        let y := { x with
          bursts := x.bursts ++ [{ src := x.rdSrc, len := n }], rdSrc := x.rdSrc + n, rdLeft := x.rdLeft - n }
        let ready := ¬(x.next.sys = true ∧ (sysLoc h.val x.next.byte 32).isNone = true) ∧ b.dmaCan h.val x.next.sys = true
        (b.dmaCan h.val x.srcSys = false → chan (.dmaBurstIssue h) { x with st := .bmeOff, before := .active }) ∧
        (b.dmaCan h.val x.srcSys = true →
          (n < x.rdLeft ∨ x.aheadDone = true ∨ x.arm = true ∨ x.reading.isSome = true ∨ ¬ready → chan (.dmaBurstIssue h) y) ∧
          (n = x.rdLeft → x.aheadDone = false → x.arm = false → x.reading = none → ready →
            chan (.dmaBurstIssue h) { y with reading := some x.next, dropRead := false, endMark := false, aheadDone := true }))) ∧
      (x.bursts = [] → exec (.dmaBurstData h c ans) s = .next s ∧ exec (.completionTimeout h (.burst c)) s = .next s) ∧
      (x.bursts = u :: us →
        let got := b.dmaData h.val x.srcSys u.src u.len ans
        (x.srcSys = false → stops (.completionTimeout h (.burst c)) .timeout (BitVec.ofNat 64 u.src) false false 1) ∧
        (got = .fail z → stops (.dmaBurstData h c ans) z (BitVec.ofNat 64 u.src) false x.srcSys 1) ∧
        (got = .ok m →
          (x.st = .bmeOff → exec (.dmaBurstData h c ans) s = .next s) ∧
          (x.st ≠ .bmeOff → b.dmaCan h.val x.dstSys = false →
            chan (.dmaBurstData h c ans) { x with st := .bmeOff, before := x.st }) ∧
          (x.st ≠ .bmeOff → b.dmaCan h.val x.dstSys = true → chanP (.dmaBurstData h c ans) { x with
              bursts := us, curSrc := x.curSrc + BitVec.ofNat 64 u.len, curDst := x.curDst + BitVec.ofNat 64 u.len,
              remain := x.remain - BitVec.ofNat 25 u.len }
            (wrote x.dstSys x.curDst.toNat m)))) ∧
      (x.desc = some d → x.rdLeft = 0 → x.bursts = [] →
        let y := { x with desc := none, rdLeft := 0, bursts := [], done := sat64 x.done 1 }
        let done := wrote x.curDesc.sys (x.curDesc.byte + 20) (back 0 0)
        (x.st ≠ .active → x.st ≠ .pausing → exec (.dmaDescComplete h c) s = .next s) ∧
        (x.st = .active ∨ x.st = .pausing → b.dmaCan h.val x.curDesc.sys = false →
          chan (.dmaDescComplete h c) { x with st := .bmeOff, before := x.st }) ∧
        (b.dmaCan h.val x.curDesc.sys = true →
          (x.st = .pausing → chanP (.dmaDescComplete h c) (if x.arm = true then y.handOver else y) done) ∧
          (x.st = .active → x.reading = none → x.ahead = none ∨ x.arm = true →
            chanP (.dmaDescComplete h c) (going (if x.arm = true then y.handOver else y)) done))) ∧
      (wr = false → stops (.dmaBusErrorStop h z a wr sys) z a false sys 1) ∧
      (wr = true → z = .fabric → stops (.dmaBusErrorStop h z a wr sys) z a true sys 0) ∧
      (wr = true → z ≠ .fabric → exec (.dmaBusErrorStop h z a wr sys) s = .next s)) ∧
    (let ended := e.st = .halting ∧ (e.ending = 0 ∨ e.stopAt + 10000000 ≤ b.mono);
      (¬ended → exec (.dmaHalted h) s = .next s) ∧
      (ended → ∃ t, exec (.dmaHalted h) s = .next t ∧
        t.blk.eng h.val = { e with st := .halted, ending := 0, haltCount := sat32 e.haltCount 1 } ∧
        t.blk.ctl.errs = b.ctl.errs ++ [{
          type := 2, reason := 0, index := h.val, port := h.val, mono := b.mono, epoch := b.ctl.newest,
          detail := (t.blk.eng h.val).statusReg }]))

/-- R368, R481, R499: every source of an alarm wipes every key of the store and the import key, disarms the store,
names its cause and counts; a broken mesh and a lost crystal stay noted. -/
def Obligations.KeyAlarms : Prop :=
  ∀ (s : State) (ns : W32),
    let b := s.blk
    let wipes := fun (c : Instr) (bit : Nat) (p : Blk → Prop) => ∃ t, exec c s = .next t ∧ p t.blk ∧
      (∀ k, (t.blk.slot k).cur = none ∧ (t.blk.slot k).old = none ∧ (t.blk.slot k).next = none ∧
        ((b.slot k).cur ≠ none → (t.blk.slot k).st = .erased)) ∧
      t.blk.keys.importKey = none ∧ t.blk.keys.armed = false ∧ t.blk.keys.alarm = true ∧
      t.blk.keys.cause = BitVec.ofNat 6 (2 ^ bit) ∧ t.blk.keys.alarms = sat32 b.keys.alarms 1 ∧ t.blk.keys.eraseNs.toNat ≤ 2000
    wipes .keyRailExcursion 0 (fun _ => True) ∧ wipes .mssDieCold 1 (fun _ => True) ∧ wipes .glitchDetect 2 (fun _ => True) ∧
    wipes .crystalLoss 2 (fun c => c.elec.crystalLost = true) ∧ wipes .tamperBreak 3 (fun c => c.mss.meshOpen = true) ∧
    wipes (.keyStoreError ns) 5 (fun c => c.mss.storeError = true ∧
      c.rel.uncorr.get 0 (errKey 0x11 .west) = sat64 (b.rel.uncorr.get 0 (errKey 0x11 .west)) 1)

/-- R357, R358: a LOCK write of an instance's page or of a thread names its outcome: a free unit of the home half is
taken under the grant, the holder takes its own again, a fenced unit and one that another instance holds are refused,
as are one past the grant and one of the other half; a release by the holder frees the unit at once where no job of it
waits, and when they have ended, and is refused to any other. -/
def Obligations.LookasideLocks : Prop :=
  ∀ (s : State) (h : PortId) (inst : InstId) (u : UnitId) (th : Tid) (acq rel : Instr) (thread : BitVec 9)
    (tells : Nat → Keys → Prop),
    let b := s.blk
    let x := b.unit u.val
    let i := inst.val
    let keys := fun (c : Instr) (z : Lu) (r : Nat) => ∃ t, exec c s = .next t ∧ t.blk = { b with keys := t.blk.keys } ∧
      t.blk.unit u.val = z ∧ tells r t.blk.keys ∧ (∀ j ≠ u.val, t.blk.unit j = b.unit j) ∧ t.blk.keys.slots = b.keys.slots
    let held : Lu := { st := .held, inst := i, thread := thread, gen := (b.inst i).gen }
    let mine := (x.st = .held ∨ x.st = .releasing) ∧ x.inst = i
    let done := (b.unitJobs i u.val).any (fun e => e.2.held) = false
    (b.memOpen h.val true = true ∧ b.boundTo i h.val = true ∧ acq = .lockAcquire h inst u ∧ rel = .lockRelease h inst u ∧
        thread = 0x1FF ∧ tells = (fun r k => k.lockReason.get 0 i = r)) ∨
      (acq = .luLockAcquire th inst u ∧ rel = .luLockRelease th inst u ∧ thread = BitVec.ofNat 9 th.val ∧
        tells = (fun r k => k.luResult.get 0 th.val = r)) →
    (halfOfUnit u.val ≠ b.homeOf i → keys acq x 0x0405 ∧ keys rel x 0x0405) ∧
    (halfOfUnit u.val = b.homeOf i →
      (x.st = .free → b.locksHeld i < b.cfg.grant i 9 → keys acq held 0) ∧
      (mine → keys acq { x with st := .held } 0) ∧
      (x.st = .fenced ∨ (x.st ≠ .free ∧ ¬mine) → keys acq x 0x0501) ∧
      (x.st = .free → b.cfg.grant i 9 ≤ b.locksHeld i → keys acq x 0x0303) ∧
      (mine → done → keys rel {} 0) ∧ (mine → ¬done → keys rel { x with st := .releasing } 0) ∧ (¬mine → keys rel x 0x0201)) ∧
    (x.st = .releasing → b.unitBusy u.val = false → ∃ t, exec (.lockReleaseComplete u) s = .next t ∧
      t.blk = { b with keys := t.blk.keys } ∧ t.blk.unit u.val = {} ∧ ∀ j ≠ u.val, t.blk.unit j = b.unit j) ∧
    (¬(x.st = .releasing ∧ b.unitBusy u.val = false) → exec (.lockReleaseComplete u) s = .next s)

/-- R359, R361 to R363, R365: a job that is next of its queue and its unit runs as far as the checks let it: it takes
an invocation of its key where it encrypts or makes a tag, does its work, and is in hand of its unit with the status
and the writes that it will complete with, none where a read failed or the tag does not match; nothing is written
before the job is done, and then all of it, unless it does not translate. -/
def Obligations.CipherJobs : Prop :=
  ∀ (s : State) (inst : InstId) (q : Fin 64) (e : Entry) (r : KeyReg) (aad src tag out : Ans) (op : Nat) (c : Instr) (u : UnitId)
    (j k : Nat) (idx : W16) (w0 : Nat × List Byte) (ws : List (Nat × List Byte)),
    let b := s.blk
    let i := inst.val
    let w := e.raw
    let enc := op = 0x20 ∨ op = 0x23
    let inv := if enc then min (r.counter + 1) r.limit else r.counter
    let sa := b.xlated i (cpSrc w) (jobRead w aad src)
    let ta := b.xlated i (cpTagAddr w) tag
    let x := b.unit u.val
    let quiet := fun t : State => ∀ m a l, Emit.inst m a l ∈ t.blk.out → Emit.inst m a l ∈ b.out
    let inHand := fun (status : Nat) (outs : List (Nat × List Byte)) => ∃ t, exec c s = .next t ∧
      t.blk.unit (cpUnit w) = { b.unit (cpUnit w) with
        job := some (i, q.val, e.idx), status := status, length := cpLen w, outs := outs } ∧
      (enc → ((t.blk.slot (cpSlot w)).reg e.epoch).map (·.counter) = some inv) ∧
      (¬enc → t.blk.keys.slots = b.keys.slots) ∧ quiet t
    ((op, c) ∈ [(0x20, Instr.cipherEncrypt inst q aad src tag), (0x21, .cipherDecrypt inst q aad src tag),
        (0x22, .cipherVerify inst q aad src tag), (0x23, .cipherTag inst q aad src tag)] →
      (b.jobNext i q.val op = none → exec c s = .next s) ∧
      (b.jobNext i q.val op = some e →
        (b.startStatus i e ≠ 0 → ∃ t, exec c s = .next t ∧ t.blk.keys.slots = b.keys.slots ∧
          t.blk = b.jobEnd i q.val e.idx (cpUnit w) (b.startStatus i e) 0 ∧
          ∀ y ∈ (t.blk.wq i q.val).fetched, y.idx = e.idx → y.st ≠ .fetched) ∧
        (b.startStatus i e = 0 → b.canIssue ((b.instCfg i).inst i).port.toNat true = false → exec c s = .next s) ∧
        (b.startStatus i e = 0 → b.canIssue ((b.instCfg i).inst i).port.toNat true = true →
          (b.slot (cpSlot w)).reg e.epoch = some r →
          (∀ z, sa = .xfault z → inHand (dataReason z) []) ∧ (sa = .busError → inHand 0x0523 []) ∧
          (∀ data, sa = .ok data →
            let z := jobCipher w r.material inv data
            (jobChecks w = false → inHand 0 (jobOuts w inv z.1 z.2)) ∧
            (jobChecks w = true →
              (∀ y, ta = .xfault y → inHand (dataReason y) []) ∧ (ta = .busError → inHand 0x0523 []) ∧
              (∀ y, ta = .ok y →
                (slice y 0 16 = z.2 → inHand 0 (jobOuts w inv z.1 z.2)) ∧
                (slice y 0 16 ≠ z.2 → inHand 0x0632 []))))))) ∧
    (x.job = none → exec (.cipherJobDone u out) s = .next s) ∧
    (x.job = some (j, k, idx) → (b.wq j k).entry idx = some e →
      let ends := fun (p : State → Prop) => ∃ t, exec (.cipherJobDone u out) s = .next t ∧ p t ∧
        (x.st ≠ .releasing → t.blk.unit u.val = { x with job := none, status := 0, length := 0, outs := [] })
      (x.status ≠ 0 ∨ x.outs = [] → ends (fun t => t.blk = b.jobEnd j k idx u.val x.status x.length)) ∧
      (x.status = 0 → x.outs = w0 :: ws →
        (b.instCan j = false → exec (.cipherJobDone u out) s = .next s) ∧
        (b.instCan j = true →
          (∀ z, b.xlated j w0.1 out = .xfault z → ends (fun t =>
            t.blk = (b.xlateFault j (xcode z) w0.1).jobEnd j k idx u.val (dataReason z) 0)) ∧
          ((∀ z, b.xlated j w0.1 out ≠ .xfault z) → ends (fun t => ∀ y ∈ x.outs, .inst j y.1 y.2 ∈ t.blk.out)))))

/-- R209, R210, R482, R485, R486: a residue mismatch counts, names its thread and path, and leaves an issuing thread
where it stood; one that recurs, a third within 1 ms, or one past 100 in 1 s declares the core faulty; its threads
move one by one to a spare core with their state, and stop FAULTED with cause RESIDUE where no spare is left. -/
def Obligations.CoresUnderFault : Prop :=
  ∀ (s : State) (th : Tid) (path : Fin 3) (recurs : Bool) (ns : W32),
    let b := s.blk
    let c := th.val / 8
    let x := b.core c
    let h := halfOfCore c
    let recent := x.mismatches.filter (fun m => decide (b.mono < m + 1000000000)) ++ [b.mono]
    let bad := recurs = true ∨ 3 ≤ (recent.filter (fun m => decide (b.mono < m + 1000000))).length ∨ 100 < recent.length
    let left := x.moving.filter (· != th.val)
    (∃ t, exec (.residueReplay th path recurs ns) s = .next t ∧
      (t.blk.core c).replays = BitVec.ofNat 32 (sat32 x.replays.toNat 1) ∧ (t.blk.core c).mismatches = recent ∧
      (t.blk.core c).lastThread = BitVec.ofNat 3 (th.val % 8) ∧ (t.blk.core c).lastPath = BitVec.ofNat 2 path.val ∧
      ((b.thread th.val).st ≠ .waiting → (t.blk.thread th.val).g = (b.thread th.val).g ∧
        (t.blk.thread th.val).pc = (b.thread th.val).pc ∧ (t.blk.thread th.val).st = (b.thread th.val).st) ∧
      t.blk.rel.uncorr.get 0 (errKey 1 h) = sat64 (b.rel.uncorr.get 0 (errKey 1 h)) 1 ∧
      (bad → x.moving = [] → (t.blk.core c).moving = threadsOf c) ∧
      (¬bad ∨ x.moving ≠ [] → (t.blk.core c).moving = x.moving)) ∧
    (x.moving.contains th.val = false → exec (.threadSpareMove th ns) s = .next s) ∧
    (x.moving.contains th.val = true →
      (x.claimed = true ∨ 0 < b.sparesLeft 0 h.code →
        (left ≠ [] → ∃ t, exec (.threadSpareMove th ns) s = .next t ∧ t.blk = { b with cores := t.blk.cores, rel := t.blk.rel } ∧
          t.blk.cores.threads = b.cores.threads ∧ t.blk.core c = { x with moving := left, claimed := true } ∧
          (x.claimed = false → t.blk.sparesLeft 0 h.code + 1 = b.sparesLeft 0 h.code)) ∧
        (left = [] → ∃ t, exec (.threadSpareMove th ns) s = .next t ∧ t.blk.core c = { x with
          moving := [], claimed := false, predictive := false, spared := true, mismatches := [], l1i := (t.blk.core c).l1i })) ∧
      (x.claimed = false → b.sparesLeft 0 h.code = 0 → ∃ t, exec (.threadSpareMove th ns) s = .next t ∧
        (t.blk.core c).moving = [] ∧ ∀ u ∈ threadsOf c, (t.blk.thread u).st = .faulted ∧ (t.blk.thread u).sr.cause = 0x0C))

/-- R19, R30, R360, R481, R483 to R486, R491: faults of units, each counted. A pipeline lane is fenced, the packets it
had taken are replayed, and after its self-test it comes back, or stays fenced, as at a second fault within 1 s; a
table bank is rebuilt on a spare or stays on its shadow; a Hogshead bank and an inline unit take a spare or are lost;
a lookaside unit is fenced; a bridge lane is replaced in a retrain, or retired; a power phase is shed, and a third
one, like a half-fatal fault, resets the half, held while an activation runs; with the other half withdrawn the device
starts again. -/
def Obligations.UnitsUnderFault : Prop :=
  ∀ (s : State) (p : PipeId) (k : Fin 4) (tern ok : Bool) (bank : Fin 32) (hb : Fin 48) (h : Half) (u : Fin 32) (lu : UnitId)
    (e : Bool) (n : Fin 168) (rail : Fin 16) (ph : Fin 64) (ns : W32) (l : Nat) (ls : List Nat) (r : Rebuild) (f : Instr),
    let b := s.blk
    let x := b.pipe p.val
    let m := BitVec.ofNat 4 (2 ^ k.val)
    let d := b.bridge e
    let shed := b.elec.phasesShed.get 0 (h.code * 16 + rail.val)
    let last := b.rel.laneFault.get 0 (p.val * 4 + k.val)
    let again := last ≠ 0 ∧ b.mono + 1 < last + 1000000000
    let gives := fun (c : Instr) (q : Blk → Prop) => ∃ t, exec c s = .next t ∧ q t.blk
    let counts := fun (t : Blk) (z : Nat) (g : Half) => t.rel.uncorr.get 0 (errKey z g) = sat64 (b.rel.uncorr.get 0 (errKey z g)) 1
    let known := b.rel.onShadow.contains (p.val, tern, bank.val) = true ∨
      b.rel.rebuilding.any (fun r => r.pipe == p.val && r.ternary == tern && r.bank == bank.val) = true
    let spares := b.sparesLeft (bankKind tern) p.val
    let fatal := match h with
      | .west => b.rel.fatalWest
      | .east => b.rel.fatalEast
    gives (.pipeLaneFault p k ns) (fun t => counts t 0x0D (halfOfPipe p.val) ∧
      t.pipe p.val = { x with
        laneFenced := x.laneFenced ||| m, waits := (t.pipe p.val).waits, counts := (t.pipe p.val).counts,
        lanesTesting := (t.pipe p.val).lanesTesting } ∧
      (again → (t.pipe p.val).lanesTesting = x.lanesTesting &&& ~~~m) ∧
      (¬again → (t.pipe p.val).lanesTesting = x.lanesTesting ||| m) ∧
      (t.pipe p.val).waits.length = x.waits.length ∧ ∀ (j : Nat) (v : HbmWait), x.waits[j]? = some v → (t.pipe p.val).waits[j]? = some v ∨
        (t.pipe p.val).waits[j]? = some { v with pkt := v.start, stage := if v.port.isSome then 20 else 0, preds := [] }) ∧
    (x.lanesTesting &&& m = 0 → exec (.laneSelftestDone p k ok) s = .next s) ∧
    (x.lanesTesting &&& m ≠ 0 →
      gives (.laneSelftestDone p k true) (fun t => t = { b with pipes := t.pipes } ∧
        t.pipe p.val = { x with lanesTesting := x.lanesTesting &&& ~~~m, laneFenced := x.laneFenced &&& ~~~m }) ∧
      gives (.laneSelftestDone p k false) (fun t => t.pipe p.val = { x with lanesTesting := x.lanesTesting &&& ~~~m })) ∧
    gives (.tableBankFault p tern bank ns) (fun t => counts t (bankCode tern) (halfOfPipe p.val) ∧
      (known → t.rel.rebuilding = b.rel.rebuilding ∧ t.rel.onShadow = b.rel.onShadow) ∧
      (¬known → 0 < spares → t.sparesLeft (bankKind tern) p.val + 1 = spares ∧ t.rel.onShadow = b.rel.onShadow ∧
        t.rel.rebuilding = b.rel.rebuilding ++ [{ pipe := p.val, ternary := tern, bank := bank.val, predictive := false }]) ∧
      (¬known → spares = 0 → t.rel.rebuilding = b.rel.rebuilding ∧
        t.rel.onShadow = b.rel.onShadow ++ [(p.val, tern, bank.val)])) ∧
    (let found := b.rel.rebuilding.find? (fun r => r.pipe == p.val && r.ternary == tern);
      (found = none → exec (.bankRebuildDone p tern ns) s = .next s) ∧
      (found = some r → gives (.bankRebuildDone p tern ns) (fun t =>
        t.rel.rebuilding = b.rel.rebuilding.erase r ∧ t.rel.onShadow = b.rel.onShadow))) ∧
    gives (.hogsheadBankFault h hb ns) (fun t => counts t 8 h ∧
      (0 < b.sparesLeft 4 h.code → t.hog = b.hog ∧ t.sparesLeft 4 h.code + 1 = b.sparesLeft 4 h.code) ∧
      (b.sparesLeft 4 h.code = 0 → t.hog = (match h with
        | .west => ({ b.hog with retiredWest := b.hog.retiredWest + 8192 } : Hog)
        | .east => ({ b.hog with retiredEast := b.hog.retiredEast + 8192 } : Hog)))) ∧
    (let lost := b.keys.unitsLost.get [] p.val;
      (u.val ∈ lost → exec (.cipherInlineFault p u ns) s = .next s) ∧
      (u.val ∉ lost → gives (.cipherInlineFault p u ns) (fun t => counts t 0x0E (halfOfPipe p.val) ∧
        (0 < b.sparesLeft 1 p.val → t.keys = b.keys ∧ t.sparesLeft 1 p.val + 1 = b.sparesLeft 1 p.val) ∧
        (b.sparesLeft 1 p.val = 0 → t.keys.unitsLost.get [] p.val = lost ++ [u.val])))) ∧
    gives (.lookasideUnitFault lu ns) (fun t => t.unit lu.val = { st := .fenced } ∧ counts t 0x0F (halfOfUnit lu.val)) ∧
    gives (.bridgeLaneFault e n) (fun t => t = { b with brg := t.brg, rel := t.rel } ∧ counts t 0x10 (txHalf e) ∧
      t.bridge e = { d with lanes := d.lanes ++ [n.val], retrain := some (d.retrain.getD b.mono) } ∧
      t.bridge (!e) = b.bridge (!e)) ∧
    (d.lanes = [] → exec (.bridgeRetrainDone e ns) s = .next s) ∧
    (d.lanes = l :: ls → gives (.bridgeRetrainDone e ns) (fun t => t.bridge (!e) = b.bridge (!e) ∧
      let next := if ls = [] then none else some b.mono
      t.bridge e = if d.spareLanesUsed < 8 then { d with lanes := ls, retrain := next, spareLanesUsed := d.spareLanesUsed + 1 }
        else { d with lanes := ls, retrain := next, retired := d.retired + 1 })) ∧
    (shed < 2 → gives (.powerPhaseLoss h rail ph ns) (fun t => counts t 0x13 h ∧
      t.elec = { b.elec with phasesShed := t.elec.phasesShed } ∧
      t.elec.phasesShed.get 0 (h.code * 16 + rail.val) = shed + 1)) ∧
    (f = .halfFatalFault h e ns ∨ (f = .powerPhaseLoss h rail ph ns ∧ 2 ≤ shed) →
      (b.boot.state = bsActivating → gives f (fun t => t.boot.heldReset = b.boot.heldReset ++ [h.code] ∧
        t.mp h = b.mp h ∧ t.mp h.other = b.mp h.other)) ∧
      (b.boot.state ≠ bsActivating →
        (b.mp h.other = 0 → gives f (fun t => t.mp h = 0 ∧ t.mp h.other = 0)) ∧
        (b.mp h.other ≠ 0 → b.mp h = 0 → gives f (fun t => t.mp h = 0 ∧ t.mp h.other = b.mp h.other)) ∧
        (b.mp h.other ≠ 0 → b.mp h ≠ 0 → gives f (fun t => t.mp h = 0 ∧ t.mp h.other = b.mp h.other ∧
          t.boot.state = bsRecovery ∧
          (fatal ≠ 0 → b.mono + 1 < fatal + 3600000000000 → h.code ∈ t.boot.shutOut)))))

/-- R481, R482, R486, R490, R492: errors of arrays: a corrected one is counted, one merged into the record of its
minute changes nothing else unless its bank is worn; an uncorrectable one is counted, and stops the thread whose
register it hit, drops the line, translation, entry or record that can be had again or goes, takes a bank out of
service, and poisons the granules whose data is lost; a scrubber counts poison and leaves it. -/
def Obligations.ArrayErrors : Prop :=
  ∀ (s : State) (a : StructCode) (h : Half) (unit sub : W16) (addr va : W64) (n : Fin 9) (m : Fin 1025) (ns : W32) (c : CoreId)
    (th : Tid) (hb : Fin 48) (p : PipeId) (bank : Fin 32) (tb : Fin 16) (slot : Fin 262144) (rec : Fin 458752) (k : Fin 512)
    (inst : InstId) (llc isB : Bool),
    let b := s.blk
    let g := errHalf a.val unit.toNat h
    let gives := fun (i : Instr) (q : Blk → Prop) => ∃ t, exec i s = .next t ∧ q t.blk
    let counts := fun (t : Blk) (z : Nat) (g : Half) => t.rel.uncorr.get 0 (errKey z g) = sat64 (b.rel.uncorr.get 0 (errKey z g)) 1
    let bad := fun (e : ArrayErr) (z : Nat) (g : Half) (q : Blk → Prop) =>
      gives (.arrayErrorUncorrectable e ns) (fun t => counts t z g ∧ q t)
    let poisons := fun (t : Blk) => (∀ j < n.val, t.poison.get false (addr.toNat / 8 + j) = true) ∧
      (∀ j, j < addr.toNat / 8 ∨ addr.toNat / 8 + n.val ≤ j → t.poison.get false j = b.poison.get false j) ∧ t.mem = b.mem
    let intact := fun (t : Blk) => t.poison = b.poison ∧ t.mem = b.mem ∧ t.dir = b.dir
    let keeps := fun (x : XEntry) => ¬(x.inst = inst.val ∧ x.va ≤ va.toNat ∧ va.toNat < x.va + x.size)
    let cache := fun (t : Blk) (g : Half) => match g with
      | .west => t.insts.cacheWest
      | .east => t.insts.cacheEast
    let reel := fun (t : Blk) (z : Reel) => (b.mss.fw.up = false → t.mss.reel = z) ∧
      (b.mss.fw.up = true → ∃ x, t.mss.reel = z.accept (b.mono / 1000000000) x)
    let inPass := fun e : Nat × Bool => e.2 && decide (addr.toNat / 64 * 64 ≤ 8 * e.1 ∧ 8 * e.1 < addr.toNat / 64 * 64 + 64 * m.val)
    (correctable a.val = false → exec (.arrayErrorCorrected a h unit sub addr) s = .next s) ∧
    (correctable a.val = true → gives (.arrayErrorCorrected a h unit sub addr) (fun t =>
      t.rel.corr.get 0 (errKey a.val g) = sat64 (b.rel.corr.get 0 (errKey a.val g)) 1 ∧ t.rel.uncorr = b.rel.uncorr ∧
      (b.bankCount (a.val, unit.toNat, sub.toNat) ≠ 1001 ∨ (a.val ≠ 8 ∧ a.val ≠ 9) →
        b.rel.lastCorr.get 0 (errKey a.val g) = b.mono / 60000000000 + 1 → t = { b with rel := t.rel }))) ∧
    bad (.coreRegs th) 2 (halfOfThread th.val) (fun t => (t.thread th.val).st = .faulted ∧ (t.thread th.val).sr.cause = 0x0C) ∧
    bad (.l1i c addr) 3 (halfOfCore c.val) (fun t => intact t ∧ ∀ e, e ∈ (t.core c.val).l1i ↔
      e ∈ (b.core c.val).l1i ∧ e.1 ≠ addr.toNat / 64) ∧
    bad (.cache llc addr n true) (if llc then 5 else 4) (halfOfAddr addr.toNat) poisons ∧
    bad (.cache llc addr n false) (if llc then 5 else 4) (halfOfAddr addr.toNat) intact ∧
    bad (.directory addr) 6 (halfOfAddr addr.toNat) intact ∧
    bad (.hbm addr n) 7 (halfOfAddr addr.toNat) poisons ∧
    bad (.hogshead h hb) 8 h (fun t => intact t ∧ (0 < b.sparesLeft 4 h.code → t.hog = b.hog ∧
      t.sparesLeft 4 h.code + 1 = b.sparesLeft 4 h.code)) ∧
    bad (.exact p bank) 9 (halfOfPipe p.val) (fun t => intact t ∧ t.pipes = b.pipes) ∧
    bad (.ternary p tb) 0x0A (halfOfPipe p.val) (fun t => intact t ∧ t.pipes = b.pipes) ∧
    bad (.xlate h inst va) 0x0B h (fun t => intact t ∧ cache t h.other = cache b h.other ∧
      ∀ x, x ∈ cache t h ↔ x ∈ cache b h ∧ keeps x) ∧
    bad (.learn p slot) 0x0C (halfOfPipe p.val) (fun t => (t.pipe p.val).learn.slots.get none slot.val = none ∧
      ∀ j ≠ slot.val, (t.pipe p.val).learn.slots.get none j = (b.pipe p.val).learn.slots.get none j) ∧
    bad .mramSettings 0x12 .west (fun t => intact t ∧ reel t b.mss.reel) ∧
    bad (.mramRecord rec) 0x12 .west (fun t => reel t { b.mss.reel with recs := b.mss.reel.recs.put none rec.val none }) ∧
    bad (.mramSeal k) 0x12 .west (fun t => reel t { b.mss.reel with seals := b.mss.reel.seals.put none k.val none }) ∧
    bad (.mramBank isB) 0x12 .west (fun t => (isB = true → t.mss.fw = { b.mss.fw with validB := false }) ∧
      (isB = false → t.mss.fw = { b.mss.fw with validA := false })) ∧
    (a.val = 4 ∨ a.val = 5 ∨ a.val = 7 → gives (.scrubPass a addr m) (fun t => t = { b with rel := t.rel } ∧
      t.rel.uncorr.get 0 (errKey a.val (halfOfAddr addr.toNat)) =
        sat64 (b.rel.uncorr.get 0 (errKey a.val (halfOfAddr addr.toNat))) (b.poison.filter inPass).length)) ∧
    (a.val ≠ 4 → a.val ≠ 5 → a.val ≠ 7 → exec (.scrubPass a addr m) s = .next s)

/-- R45 to R48, R462, R463, R466, R467, R471, R495 to R497, R499, R505: the voltage loop takes its monitors' readings
and moves a supply by at most 5 mV, none short of its setpoint down, and below the setpoint only under the current
limit; floor_miss and cap_unmet; a sensor reads a value; the trip removes power and every key; below lockout nothing
volatile stays; over-voltage removes power; PWR_WARN and the reference clocks. The setpoint and the size of a voltage
step are free values (log 109). -/
def Obligations.SupplyAndSensors : Prop :=
  ∀ (s : State) (d : Fin 8) (rates : List W16) (inputW v : W16) (mon : Fin 96) (sensor : Fin 41) (hot : Fin 36)
    (driven lost : Bool) (h : Half) (port : PortId) (pair : Fin 4) (lane : LaneId) (ref : ClkRef) (at_ : Nat),
    let b := s.blk
    let x := b.spd.doms.get {} d.val
    let w := b.spd.mons.get {} mon.val
    let y := b.mss.sens.get {} sensor.val
    let gives := fun (c : Instr) (q : Blk → Prop) => ∃ t, exec c s = .next t ∧ q t.blk
    let wiped := fun t : Blk => t.keys.importKey = none ∧
      ∀ k, (t.slot k).cur = none ∧ (t.slot k).old = none ∧ (t.slot k).next = none
    let dark := fun t : Blk => t.mss.powered = false ∧ t.boot.image = none ∧ t.mp .west = 0 ∧ t.mp .east = 0 ∧ wiped t
    let low := w.belowFloor = true ∧ w.belowSince + 10000 < b.mono
    let capped := b.spd.overSince = some at_ ∧ at_ + 10000000 < b.mono
    let key := clkKey ref
    let refs := fun (t : Blk) => t.elec = { b.elec with refLost := t.elec.refLost, refAt := b.elec.refAt.put 0 key b.mono } ∧
      (key ∈ t.elec.refLost ↔ lost = true) ∧ ∀ k ≠ key, k ∈ t.elec.refLost ↔ k ∈ b.elec.refLost
    let news := b.elec.refLost.contains key ≠ lost
    (b.mss.powered = false ∨ b.mss.fw.up = false → exec (.avsLoopUpdate d rates inputW) s = .next s) ∧
    (b.mss.powered = true → b.mss.fw.up = true → gives (.avsLoopUpdate d rates inputW) (fun t =>
      let z := t.spd.doms.get {} d.val
      t = { b with spd := t.spd, fresh := t.fresh } ∧ t.spd.inputW = inputW ∧
      (∀ (j n : Nat) (r : W16), (monsOf d.val)[j]? = some n → rates[j]? = some r → (t.spd.mons.get {} n).rate = r ∧
        ((t.spd.mons.get {} n).belowFloor = true ↔ r.toNat < floorReading (monKind n))) ∧
      (x.supplyMv.toNat + 5 < 4096 → z.supplyMv.toNat ≤ x.supplyMv.toNat + 5 ∧ x.supplyMv.toNat ≤ z.supplyMv.toNat + 5 ∧
        (b.currentHeld = false → x.supplyMv.toNat < z.setMv → x.supplyMv.toNat ≤ z.supplyMv.toNat) ∧
        (b.currentHeld = false → z.setMv ≤ x.supplyMv.toNat → z.setMv ≤ z.supplyMv.toNat)) ∧
      z.margin = x.margin ∧ ∀ j ≠ d.val, t.spd.doms.get {} j = b.spd.doms.get {} j)) ∧
    (¬low → exec (.floorMiss mon) s = .next s) ∧
    (low → gives (.floorMiss mon) (fun t => t.spd = { b.spd with
        floorMiss := true, miss := b.spd.miss ||| BitVec.ofNat 96 (2 ^ mon.val) } ∧
      (b.spd.floorMiss = true → t = { b with spd := t.spd }) ∧
      (b.spd.floorMiss = false → t.ctl.errs.length = b.ctl.errs.length + 1))) ∧
    (b.spd.overSince = none ∨ (∃ u, b.spd.overSince = some u ∧ b.mono ≤ u + 10000000) → exec .capUnmet s = .next s) ∧
    (capped → gives .capUnmet (fun t => t.spd = { b.spd with capUnmet := true } ∧
      (b.spd.capUnmet = true → t = { b with spd := t.spd }) ∧
      (b.spd.capUnmet = false → t.ctl.errs.length = b.ctl.errs.length + 1))) ∧
    (b.mss.powered = false → sensor.val ≤ 35 → exec (.sensorWarnChange sensor v) s = .next s) ∧
    (b.mss.powered = true ∨ 35 < sensor.val → gives (.sensorWarnChange sensor v) (fun t => t = { b with mss := t.mss, spd := t.spd } ∧
      t.mss.sens.get {} sensor.val = {
        value := v, valid := true, warn := warnPast sensor.val v.toNat, trip := y.trip || tripAt sensor.val v.toNat } ∧
      (sensor.val = 39 → t.spd.inputW = v) ∧ ∀ j ≠ sensor.val, t.mss.sens.get {} j = b.mss.sens.get {} j)) ∧
    (tripAt hot.val v.toNat = false ∨ b.mss.powered = false → exec (.thermalTrip hot v) s = .next s) ∧
    (tripAt hot.val v.toNat = true → b.mss.powered = true → gives (.thermalTrip hot v) (fun t => dark t ∧ t.elec.thermTrip = true)) ∧
    gives .vinLockout (fun t => dark t ∧ t.elec.vin = false ∧ t.mss.set = b.mss.set ∧ t.rel.sparesUsed = b.rel.sparesUsed ∧
      t.mem = [] ∧ t.cores.threads = []) ∧
    gives .vinOvervoltage (fun t => t.mss.powered = false ∧ wiped t ∧ (b.mss.powered = true → dark t)) ∧
    gives (.pwrWarnChange driven) (fun t => t = { b with elec := { b.elec with warnDriven := driven && b.elec.vin } }) ∧
    (¬news → exec (.refclkLoss ref lost) s = .next s) ∧
    (news →
      (ref = .dsp h → gives (.refclkLoss ref lost) (fun t => t = { b with elec := t.elec } ∧ refs t)) ∧
      (ref = .host port → gives (.refclkLoss ref lost) (fun t => refs t ∧
        (lost = true → b.absent port.val = false → (t.port port.val).linkUp = false) ∧
        (lost = false → t = { b with elec := t.elec }))) ∧
      (ref = .eth pair → lane.val / 32 = pair.val → gives (.refclkLoss ref lost) (fun t => refs t ∧
        (lost = true → (t.lane lane.val).link = .down ∨ (t.lane lane.val).link = .disabled) ∧
        (lost = false → b.linkWanted lane.val = true → (b.lane lane.val).link = .down →
          (t.lane lane.val).link = .negotiating))))

/-- R454, R456, R464, R466, R468, R469, R474, R475: requests that read: the response over any transport carries the
status 0 and the body that the command gives: sensors, the summary, Reel records, a seal slot, a quote, the
certificates, the part of a long response that GET_MORE fetches. Every request without operands in its row is judged
in order: authority, the length of its body, its operands; one that cannot be served has no effect. The body of
GET_INFO, and the newest record of an empty Reel, are free. -/
def Obligations.MssReads : Prop :=
  ∀ (s : State) (v : Transport) (tag : W32) (body : List Byte),
    let b := s.blk
    let b0 := b.updMssPort v (fun p => { p with rest := [] })
    let opened := fun cmd => b.mssOpen v cmd tag body = true
    let owner := (b.rank v).owns
    let platform := b.rank v == .platform
    let n := body.length
    let at1 := fun k => leAt body k 1
    let r := b.mss.reel
    let first := max (leAt body 0 8) r.oldest
    let replies := fun (c : Instr) (cmd status : Nat) (l : List Byte) => ∃ t, exec c s = .next t ∧ t.blk.answered v cmd tag status l
    let kept := b.mssPort v
    (∀ e ∈ [(Instr.getInfo v tag body, 0x0001, true, n == 0, true),
        (.sensorRead v tag body, 0x0003, true, n == 2, decide (1 ≤ at1 1 ∧ at1 0 + at1 1 ≤ 41)),
        (.summaryReduced v tag body, 0x0004, owner, n == 0, true),
        (.logRead v tag body, 0x0010, owner, n == 9, decide (1 ≤ at1 8 ∧ at1 8 ≤ 63)),
        (.logSeal v tag body, 0x0011, owner, n == 0, true),
        (.sealRead v tag body, 0x0012, owner, n == 4, decide (leAt body 0 4 < 512)),
        (.powerOff v tag body, 0x0021, owner, n == 0, true), (.powerOn v tag body, 0x0022, platform, n == 0, true),
        (.keyErase v tag body, 0x0030, owner, n == 0, true), (.keyRearm v tag body, 0x0031, owner, n == 0, true),
        (.importOpen v tag body, 0x0032, owner, n == 32, true), (.importSet v tag body, 0x0033, owner, n == 1088, true),
        (.mssWrite v tag body, 0x0050, owner, decide (4 ≤ n ∧ n ≤ 4076), decide (leAt body 0 4 + (n - 4) ≤ 8388608)),
        (.mssSwitch v tag body, 0x0051, owner, n == 0, true), (.mssConfirm v tag body, 0x0052, owner, n == 0, true),
        (.attest v tag body, 0x0060, true, n == 32, true), (.getCert v tag body, 0x0061, true, n == 0, true),
        (.activate v tag body, 0x0080, owner, n == 0, true)],
      (¬opened e.2.1 → exec e.1 s = .next s) ∧
      (opened e.2.1 →
        (e.2.2.1 = false → replies e.1 e.2.1 0x0202 []) ∧
        (e.2.2.1 = true → e.2.2.2.1 = false → replies e.1 e.2.1 0x0103 []) ∧
        (e.2.2.1 = true → e.2.2.2.1 = true → e.2.2.2.2 = false → replies e.1 e.2.1 0x0124 []))) ∧
    (opened 0x0001 → body = [] → replies (.getInfo v tag body) 0x0001 0 (Config.mssBody 0x0001 b.infoFields)) ∧
    (¬opened 0x0002 → exec (.getMore v tag body) s = .next s) ∧
    (opened 0x0002 →
      (body ≠ [] → replies (.getMore v tag body) 0x0002 0x0103 []) ∧
      (body = [] → kept.rest ≠ [] → kept.restTag = tag → replies (.getMore v tag body) 0x0002 kept.restStatus kept.rest) ∧
      (body = [] → kept.rest = [] ∨ kept.restTag ≠ tag → replies (.getMore v tag body) 0x0002 0x0501 [])) ∧
    (opened 0x0003 → n = 2 → 1 ≤ at1 1 → at1 0 + at1 1 ≤ 41 → replies (.sensorRead v tag body) 0x0003 0
      ((List.range (at1 1)).flatMap (fun k => bytesLE 4 (b.sensReg (at1 0 + k))))) ∧
    (opened 0x0004 → body = [] → owner = true → replies (.summaryReduced v tag body) 0x0004 0 (b0.summary .device true)) ∧
    (opened 0x0010 → owner = true → n = 9 → 1 ≤ at1 8 → at1 8 ≤ 63 → replies (.logRead v tag body) 0x0010 0
      (bytesLE 8 r.oldest ++ bytesLE 8 (if r.next = 0 then b.freeVal.toNat else r.next - 1) ++
        (List.range (min (at1 8) (r.next - first))).flatMap (fun k =>
          match r.recs.get none ((first + k) % reelSlots) with
          | some y => slice y.bytes 0 64
          | none => List.replicate 64 0))) ∧
    (opened 0x0012 → owner = true → n = 4 → leAt body 0 4 < 512 → replies (.sealRead v tag body) 0x0012 0
      (match r.seals.get none (leAt body 0 4) with
        | some x => slice (bytesLE 8 x.seq ++ slice (x.sig.getD []) 0 7856) 0 8192
        | none => List.replicate 8192 0)) ∧
    (opened 0x0060 → n = 32 → replies (.attest v tag body) 0x0060 0 (b0.quote body ++ slice (Config.sign true (b0.quote body)) 0 17088)) ∧
    (opened 0x0061 → body = [] → replies (.getCert v tag body) 0x0061 0 Config.certs)

/-- R368, R458 to R460, R469, R470, R476, R477: requests that change the management die: sealing, key erasure and
rearming, the import-key exchange and its end after 60 s, each setting, with its refusals; seals that fall due and
their signatures; the ARP answer. What is not due, and what names no such seal or address, changes nothing. -/
def Obligations.MssChanges : Prop :=
  ∀ (s : State) (v : Transport) (tag a : W32) (body ek dk : List Byte) (u : Nat) (k : Fin 512) (x : Seal) (y : ReelRec),
    let b := s.blk
    let opened := fun cmd => b.mssOpen v cmd tag body = true
    let owner := (b.rank v).owns
    let platform := b.rank v == .platform
    let r := b.mss.reel
    let does := fun (c : Instr) (cmd status : Nat) (l : List Byte) (q : Blk → Prop) => ∃ t, exec c s = .next t ∧ q t.blk ∧
      t.blk.answered v cmd tag status l
    let sealed := fun t : Blk => t.mss.reel.next = r.next + 1 ∧ t.mss.reel.nextSeal = r.nextSeal + 1 ∧
      t.mss.reel.sinceSeal = 0 ∧ t.mss.reel.discarded = 0 ∧
      t.mss.reel.seals.get none (r.nextSeal % 512) = some { index := r.nextSeal, seq := r.next, sig := none }
    let due := b.mss.fw.up = true ∧ (4096 ≤ r.sinceSeal ∨ 0 < r.sinceSeal ∧ r.lastSeal + 60000000000 ≤ b.mono)
    let code := leAt body 0 1
    let val := leAt body 4 1
    let half := Half.ofBit val
    let ek1 := slice (Config.kemPair b.fresh).1 0 1184
    let portOk := setZero body 5 && (val == 255 || (decide (val < 16) && !b.absent val))
    let marginOk := setZero body 5 && decide (20 ≤ val ∧ val ≤ 100)
    let supOk := setZero body 7 && decide (val < 2 ∧ leAt body 5 2 < 512 ∧ halfOfThread (leAt body 5 2) = half)
    let addrOk := setZero body 9 && decide (leAt body 8 1 ≤ 32)
    (opened 0x0011 → owner = true → body = [] → does (.logSeal v tag body) 0x0011 0 [] sealed) ∧
    (due → ∃ t, exec .reelSeal s = .next t ∧ sealed t.blk) ∧
    (¬due → exec .reelSeal s = .next s) ∧
    (b.mss.fw.up = true → r.seals.get none k.val = some x → r.recs.get none (x.seq % reelSlots) = some y →
      (x.sig = none → ∃ t, exec (.reelSealComplete k) s = .next t ∧ t.blk = { b with mss := t.blk.mss } ∧
        t.blk.mss.reel.seals.get none k.val = some { x with sig := some (Config.sign false (slice y.bytes 0 64)) }) ∧
      (x.sig ≠ none → exec (.reelSealComplete k) s = .next s)) ∧
    (b.mss.fw.up = false ∨ r.seals.get none k.val = none → exec (.reelSealComplete k) s = .next s) ∧
    (opened 0x0030 → owner = true → body = [] → does (.keyErase v tag body) 0x0030 0 [] (fun t =>
      t.keys.alarm = true ∧ t.keys.armed = false ∧ t.keys.importKey = none ∧ t.keys.cause = 16 ∧
      ∀ j, (t.slot j).cur = none ∧ (t.slot j).old = none ∧ (t.slot j).next = none)) ∧
    (opened 0x0031 → owner = true → body = [] →
      (b.alarmClear = true → does (.keyRearm v tag body) 0x0031 0 [] (fun t => t.keys = { b.keys with alarm := false, armed := true })) ∧
      (b.alarmClear = false → does (.keyRearm v tag body) 0x0031 0x0620 [] (fun t => t.keys = b.keys))) ∧
    (opened 0x0032 → owner = true → body.length = 32 →
      (b.keys.alarm = false → does (.importOpen v tag body) 0x0032 0 (ek1 ++ slice (Config.sign true (sha ek1 ++ body)) 0 17088)
        (fun t => t.mss.exchange = some ((Config.kemPair b.fresh).1, (Config.kemPair b.fresh).2, b.mono))) ∧
      (b.keys.alarm = true → does (.importOpen v tag body) 0x0032 0x0620 [] (fun t => t.mss.exchange = b.mss.exchange))) ∧
    (opened 0x0033 → owner = true → body.length = 1088 →
      (b.keys.alarm = true → does (.importSet v tag body) 0x0033 0x0620 [] (fun t => t.keys = b.keys)) ∧
      (b.keys.alarm = false → b.mss.exchange = none → does (.importSet v tag body) 0x0033 0x0501 [] (fun t => t.keys = b.keys)) ∧
      (b.keys.alarm = false → b.mss.exchange = some (ek, dk, u) →
        does (.importSet v tag body) 0x0033 0 [] (fun t => t.mss.exchange = none ∧ t.keys = { b.keys with
          importKey := some (sha ([0x45, 0x4C, 0x46, 0x49, 0x4D, 0x50, 0x4B] ++ Config.kemSecret dk body ++ sha (slice ek 0 1184))) }))) ∧
    (b.mss.exchange = some (ek, dk, u) →
      (u + 60000000000 ≤ b.mono → ∃ t, exec .importExchangeTimeout s = .next t ∧
        t.blk = { b with mss := { b.mss with exchange := none } }) ∧
      (b.mono < u + 60000000000 → exec .importExchangeTimeout s = .next s)) ∧
    (b.mss.exchange = none → exec .importExchangeTimeout s = .next s) ∧
    (∀ e ∈ [(Instr.setOwnerPort v tag body, 1, platform, portOk), (.setWidth v tag body, 2, platform, setZero body 5),
        (.setMargin v tag body, 3, owner, marginOk), (.setSupervisor v tag body, 4, owner, supOk),
        (.setMgmtAddr v tag body, 5, platform, addrOk)],
      let refuses := fun st => does e.1 0x0040 st [] (fun t => t.mss.set = b.mss.set ∧ t.spd = b.spd)
      (¬opened 0x0040 → exec e.1 s = .next s) ∧
      (opened 0x0040 →
        (body.length ≠ 12 → refuses 0x0103) ∧
        (body.length = 12 → code = e.2.1 → e.2.2.1 = false → refuses 0x0202) ∧
        (body.length = 12 → code = e.2.1 → e.2.2.1 = true → e.2.2.2 = false → refuses 0x0124) ∧
        (body.length = 12 → code = 0 ∨ 5 < code → refuses 0x0124))) ∧
    (opened 0x0040 → body.length = 12 →
      (code = 1 → platform = true → portOk = true → does (.setOwnerPort v tag body) 0x0040 0 [] (fun t =>
        t.mss.set = { b.mss.set with ownerPort := BitVec.ofNat 8 val })) ∧
      (code = 2 → platform = true → setZero body 5 = true → does (.setWidth v tag body) 0x0040 0 [] (fun t =>
        t.mss.set = { b.mss.set with width := BitVec.ofNat 8 val } ∧ t.mss.widthNow = b.mss.widthNow)) ∧
      (code = 3 → owner = true → marginOk = true → does (.setMargin v tag body) 0x0040 0 [] (fun t =>
        t.mss.set = b.mss.set ∧ ∀ d < 8, t.spd.doms.get {} d = { b.spd.doms.get {} d with margin := BitVec.ofNat 8 val })) ∧
      (code = 4 → owner = true → supOk = true → does (.setSupervisor v tag body) 0x0040 0 [] (fun t =>
        t.mss.set = b.mss.set ∧ (t.fq half).sup = BitVec.ofNat 9 (leAt body 5 2))) ∧
      (code = 5 → platform = true → addrOk = true → does (.setMgmtAddr v tag body) 0x0040 0 [] (fun t =>
        t.mss.set = { b.mss.set with mgmtAddr := BitVec.ofNat 32 (beAt body 4 4), mgmtPrefix := leAt body 8 1 }))) ∧
    (b.elec.vin = true → b.mss.fw.up = true → b.mss.set.mgmtAddr = a → a ≠ 0 → ∃ t, exec (.mgmtArpRequest a) s = .next t ∧
      t.blk = { b with out := t.blk.out } ∧ .arp a ∈ t.blk.out) ∧
    (b.elec.vin = false ∨ b.mss.fw.up = false ∨ b.mss.set.mgmtAddr ≠ a ∨ a = 0 → exec (.mgmtArpRequest a) s = .next s)

/-- R22, R23, R80, R97 to R99, R461, R463: RESET of each scope, with its refusals: a function, a port, a half (held
while an activation runs; the whole device where the other half is withdrawn), the device, after which the retained
image is verified again unless a new download is asked for; power off and on; Jig mode in and out; ACTIVATE. -/
def Obligations.MssResetsAndPower : Prop :=
  ∀ (s : State) (v : Transport) (tag : W32) (body : List Byte) (pin : Bool) (c : Blk) (r : Nat),
    let b := s.blk
    let opened := fun cmd => b.mssOpen v cmd tag body = true
    let owner := (b.rank v).owns = true
    let platform := b.rank v = .platform
    let gives := fun (i : Instr) (q : Blk → Prop) => ∃ t, exec i s = .next t ∧ q t.blk
    let b0 := b.updMssPort v (fun p => { p with rest := [] })
    let scope := leAt body 0 1
    let port := (bodyPort body).val
    let half := Half.ofBit (leAt body 2 1)
    let flags := leAt body 3 1
    let reset := fun k => opened 0x0020 ∧ body.length = 4 ∧ scope = k ∧ b.mayReset v body = true ∧ resetOperandsOk body = true
    let fresh := fun t : Blk => t.cores.threads = [] ∧ t.ctl.live = [] ∧ t.mp .west = 0 ∧ t.mp .east = 0 ∧ t.boot.image = none ∧
      t.mss.set = b.mss.set
    let restarts := fun (t : Blk) (x : Option Image) => fresh t ∧ t.boot.jig = false ∧ t.boot.retained.map (·.1) = x ∧
      (x ≠ none → t.boot.state = bsVerifying)
    let jigged := fun t : Blk => fresh t ∧ t.boot.jig = true
    (∀ e ∈ [(Instr.resetFunction v tag body, 0), (.resetPort v tag body, 1), (.resetHalf v tag body, 2), (.resetDevice v tag body pin, 3)],
      let refuses := fun st => gives e.1 (fun t => t.answered v 0x0020 tag st [] ∧ t.boot = b.boot)
      (¬opened 0x0020 → exec e.1 s = .next s) ∧
      (opened 0x0020 → body.length ≠ 4 ∨ scope = e.2 ∨ 3 < scope →
        (b.mayReset v body = false → refuses 0x0202) ∧
        (b.mayReset v body = true → body.length ≠ 4 → refuses 0x0103) ∧
        (b.mayReset v body = true → body.length = 4 → resetOperandsOk body = false → refuses 0x0124))) ∧
    (reset 0 → gives (.resetFunction v tag body) (fun t => (t.fn port (leAt body 2 1 == 1)).flr = true)) ∧
    (reset 1 → gives (.resetPort v tag body) (fun t => (t.port port).linkUp = false ∧ (t.port port).perst = (b.port port).perst)) ∧
    (reset 2 →
      (b.boot.state = bsActivating → gives (.resetHalf v tag body) (fun t =>
        t.boot.heldReset = b.boot.heldReset ++ [half.code] ∧ t.mp .west = b.mp .west ∧ t.mp .east = b.mp .east)) ∧
      (b.boot.state ≠ bsActivating → b.mp half.other = 0 → gives (.resetHalf v tag body) (fun t => restarts t b.retains)) ∧
      (b.boot.state ≠ bsActivating → b.mp half.other ≠ 0 → gives (.resetHalf v tag body) (fun t =>
        t.mp half = 0 ∧ t.mp half.other = b.mp half.other ∧ (b.mp half ≠ 0 → t.boot.state = bsRecovery) ∧
        half.code ∉ t.boot.shutOut))) ∧
    (reset 3 → flags < 2 → gives (.resetDevice v tag body false) (fun t =>
      restarts t (if flags = 1 then none else b.retains) ∧ t.answered v 0x0020 tag 0 [])) ∧
    (reset 3 → 2 ≤ flags ∨ pin = true → gives (.resetDevice v tag body pin) (fun t => jigged t ∧ t.answered v 0x0020 tag 0 [])) ∧
    (opened 0x0021 → body = [] → owner →
      (b.mss.powered = true → gives (.powerOff v tag body) (fun t =>
        t.mss.powered = false ∧ t.boot.image = none ∧ t.mp .west = 0 ∧ t.mp .east = 0)) ∧
      (b.mss.powered = false → gives (.powerOff v tag body) (fun t => t.mss.powered = false ∧ t.boot = b.boot ∧
        t.answered v 0x0021 tag 0 []))) ∧
    (opened 0x0022 → body = [] → platform →
      (b.mss.powered = false → b.tooHot = false → gives (.powerOn v tag body) (fun t =>
        t.mss.powered = true ∧ t.clk.on = true ∧ t.elec.thermTrip = false ∧ t.answered v 0x0022 tag 0 [] ∧
        ∀ d < 8, (t.spd.doms.get {} d).supplyMv = BitVec.ofNat 12 (Config.nominalMv d))) ∧
      (b.mss.powered = true ∨ b.tooHot = true → gives (.powerOn v tag body) (fun t =>
        t.mss.powered = b.mss.powered ∧ t.answered v 0x0022 tag 0x0501 []))) ∧
    (∀ e ∈ [(Instr.jigEnter v tag body, 1), (.jigExit v tag body, 0)],
      (¬opened 0x0023 → exec e.1 s = .next s) ∧
      (opened 0x0023 → body.length ≠ 1 ∨ leAt body 0 1 = e.2 ∨ 1 < leAt body 0 1 →
        (¬platform → gives e.1 (fun t => t.answered v 0x0023 tag 0x0202 [] ∧ t.boot = b.boot)) ∧
        (platform → body.length ≠ 1 → gives e.1 (fun t => t.answered v 0x0023 tag 0x0103 [] ∧ t.boot = b.boot)) ∧
        (platform → body.length = 1 → 1 < leAt body 0 1 → gives e.1 (fun t => t.answered v 0x0023 tag 0x0124 [] ∧ t.boot = b.boot)))) ∧
    (opened 0x0023 → body = [1] → platform → gives (.jigEnter v tag body) (fun t => jigged t ∧ t.answered v 0x0023 tag 0 [])) ∧
    (opened 0x0023 → body = [0] → platform →
      (b.boot.jig = true → gives (.jigExit v tag body) (fun t => restarts t b.retains ∧ t.answered v 0x0023 tag 0 [])) ∧
      (b.boot.jig = false → gives (.jigExit v tag body) (fun t => t.boot = b.boot ∧ t.answered v 0x0023 tag 0 []))) ∧
    (opened 0x0080 → body = [] → owner →
      (b0.activate = .ok c → gives (.activate v tag body) (fun t => t.boot = c.boot ∧ t.answered v 0x0080 tag 0 [])) ∧
      (b0.activate = .error r → gives (.activate v tag body) (fun t => t.boot = b.boot ∧ t.answered v 0x0080 tag r [])))

/-- R471 to R473: MSS firmware: MSS_WRITE fills the bank that does not run and makes it invalid; MSS_SWITCH to an
image that passes restarts the MSS on trial; MSS_CONFIRM keeps it, 60 s without one abandons it, and while it lasts a
write or a switch is refused; a watchdog restart ends mailbox requests in flight as LOST; the return counts and takes
the next bank, and with none the MSS stays in its ROM. -/
def Obligations.MssFirmware : Prop :=
  ∀ (s : State) (v : Transport) (tag : W32) (body : List Byte) (u r : Nat) (bank : Bool),
    let b := s.blk
    let f := b.mss.fw
    let opened := fun cmd => b.mssOpen v cmd tag body = true
    let owner := (b.rank v).owns = true
    let gives := fun (i : Instr) (q : Blk → Prop) => ∃ t, exec i s = .next t ∧ q t.blk
    (opened 0x0050 → owner → 4 ≤ body.length → body.length ≤ 4076 → leAt body 0 4 + (body.length - 4) ≤ 8388608 →
      (f.trial = none → gives (.mssWrite v tag body) (fun t => t.mss.fw.written = memPut f.written (leAt body 0 4) (body.drop 4) ∧
        t.mss.fw.valid f.other = false ∧ t.mss.fw.valid f.running = f.valid f.running ∧ t.answered v 0x0050 tag 0 [])) ∧
      (f.trial = some u → gives (.mssWrite v tag body) (fun t => t.mss.fw = f ∧ t.answered v 0x0050 tag 0x0501 []))) ∧
    (opened 0x0051 → owner → body = [] →
      (f.trial = some u → gives (.mssSwitch v tag body) (fun t => t.mss.fw = f ∧ t.answered v 0x0051 tag 0x0501 [])) ∧
      (f.trial = none → b.switchFault = none → gives (.mssSwitch v tag body) (fun t => t.mss.fw.up = false ∧
        t.mss.fw.trialNext = true ∧ t.mss.fw.active = f.running ∧ t.mss.fw.running = f.running ∧ t.mss.fw.cause = 1 ∧
        (f.written ≠ [] → t.mss.fw.valid f.other = true) ∧ t.mss.fw.written = [])) ∧
      (f.trial = none → b.switchFault = some r → gives (.mssSwitch v tag body) (fun t => t.mss.fw = f ∧ t.answered v 0x0051 tag r []))) ∧
    (opened 0x0052 → owner → body = [] →
      (f.trial = some u → gives (.mssConfirm v tag body) (fun t => t.mss.fw = { f with
        active := f.running, trial := none, minSec := if f.running then f.secB else f.secA, digest := f.trialDigest } ∧
        t.answered v 0x0052 tag 0 [])) ∧
      (f.trial = none → gives (.mssConfirm v tag body) (fun t => t.mss.fw = f ∧ t.answered v 0x0052 tag 0x0501 []))) ∧
    (f.trial = some u → u + 60000000000 ≤ b.mono → f.up = true → gives .mssTrialTimeout (fun t =>
      t.mss.fw.up = false ∧ t.mss.fw.trial = none ∧ t.mss.fw.cause = 2 ∧ t.mss.fw.active = f.active)) ∧
    (f.trial = none ∨ f.trial = some u ∧ b.mono < u + 60000000000 ∨ f.up = false → exec .mssTrialTimeout s = .next s) ∧
    (f.up = true → b.elec.vin = true → gives .mssRestart (fun t => t.mss.fw.up = false ∧ t.mss.fw.cause = 0 ∧
      t.rel.uncorr.get 0 (errKey 0x14 .west) = sat64 (b.rel.uncorr.get 0 (errKey 0x14 .west)) 1 ∧
      ∀ h, (b.mss.mbx.get {} h).st = .busy → (t.mss.mbx.get {} h).st = .lost)) ∧
    (f.up = false ∨ b.elec.vin = false → exec .mssRestart s = .next s) ∧
    (f.up = false → b.elec.vin = true →
      (f.nextBank = some bank → gives .mssReturn (fun t => t.mss.fw.up = true ∧ t.clk.on = true ∧
        t.mss.fw.running = bank ∧ t.mss.fw.trial = (if f.trialNext then some b.mono else none) ∧ t.mss.fw.trialNext = false ∧
        t.mss.fw.restarts = sat32 f.restarts 1 ∧ t.mss.latched = [] ∧ t.mss.latchedEv = [])) ∧
      (f.nextBank = none → gives .mssReturn (fun t => t = { b with mss := { b.mss with fw := { f with inRom := true } } }))) ∧
    (f.up = true ∨ b.elec.vin = false → exec .mssReturn s = .next s)

/-- R226, R261, R478: DEBUG over every transport with owner authority: a thread is halted, in a WAIT too, and goes on
as it stood, is read and written while it is halted, makes one step when it can issue, gives its credits back, is
attached and detached; a request that its state, or the item, does not allow is refused, and so is one without the
authority. The layout of the body of READ is the model's free value; of the words that STEP issues, the NOP is shown.
-/
def Obligations.DebugOfThreads : Prop :=
  ∀ (s : State) (v : Transport) (tag word : W32) (th : Tid) (item : DbgItem) (r : GReg) (n : BitVec 12) (x : W64) (ch : ChanId),
    let b := s.blk
    let y := b.thread th.val
    let b0 := b.updMssPort v (fun p => { p with rest := [] })
    let becomes := fun (c : Instr) (z : Thread) => ∃ t, exec c s = .next t ∧ t.blk.answered v 0x0070 tag 0 [] ∧
      t.blk.thread th.val = z ∧ ∀ u ≠ th.val, t.blk.thread u = b.thread u
    let refuses := fun (c : Instr) (st : Nat) => ∃ t, exec c s = .next t ∧ (∀ u, t.blk.thread u = b.thread u) ∧
      t.blk.answered v 0x0070 tag st []
    let waits : Thread := { y with st := .waiting, stepping := none, wt := { y.wt with waitResume := false, resumed := true, since := b.mono } }
    let ready := (b.modeNow (th.val / 8) = false ∨ b.inSlot th.val = true) ∧ b.bridgeHolds th.val (decodePol word) = false
    (∀ c ∈ [Instr.debugHalt v tag th, .debugGo v tag th, .debugRead v tag th item, .debugWrite v tag th item x,
        .debugStep v tag th word, .debugChannelCancel v tag th ch, .debugAttach v tag th, .debugDetach v tag th],
      (b.debugOpen v = false → exec c s = .next s) ∧
      (b.debugOpen v = true → (b.rank v).owns = false → refuses c 0x0202)) ∧
    (b.debugOpen v = true → (b.rank v).owns = true →
      (y.st ≠ .halted → becomes (.debugHalt v tag th) { y with
        st := .halted, kept := y.st, wt := { y.wt with waitResume := y.wt.waitResume || y.st = .waiting } }) ∧
      (y.st = .halted →
        refuses (.debugHalt v tag th) 0x0501 ∧
        (y.kept ≠ .waiting → becomes (.debugGo v tag th) { y with st := y.kept, stepping := none }) ∧
        (y.kept = .waiting → (b.updThread th.val (fun _ => waits)).waitEnds th.val = false → becomes (.debugGo v tag th) waits) ∧
        (y.kept = .waiting → (b.updThread th.val (fun _ => waits)).waitEnds th.val = true → ∃ t, exec (.debugGo v tag th) s = .next t ∧
          (t.blk.thread th.val).st = .running ∧ (t.blk.thread th.val).pc = (if y.wt.moved then y.pc else y.pc + 4) ∧
          t.blk.answered v 0x0070 tag 0 []) ∧
        (dbgReadable item = true → ∃ t, exec (.debugRead v tag th item) s = .next t ∧ t.blk.thread th.val = y ∧
          t.blk.answered v 0x0070 tag 0 (Config.mssBody 0x0070 [(b0.dbgRead th.val item).toNat])) ∧
        (dbgReadable item = false → refuses (.debugRead v tag th item) 0x0501) ∧
        becomes (.debugWrite v tag th (.greg r) x) (y.setReg r.val x) ∧
        becomes (.debugWrite v tag th .pc x) { y with pc := pcOf x } ∧
        (dbgWritable (.sysreg n) = true → ∃ t, exec (.debugWrite v tag th (.sysreg n) x) s = .next t ∧
          t.blk.thread th.val = (b0.srWrite th.val n.toNat x).thread th.val ∧ t.blk.answered v 0x0070 tag 0 []) ∧
        (dbgWritable item = false → refuses (.debugWrite v tag th item x) 0x0501) ∧
        (y.kept = .running →
          (ready → word = 0x18000000 → b.fetchCause th.val (addr48 y.pc) = none → ∃ t, exec (.debugStep v tag th word) s = .next t ∧
            (t.blk.thread th.val).st = .halted ∧ (t.blk.thread th.val).kept = .running ∧ (t.blk.thread th.val).pc = y.pc + 4 ∧
            (t.blk.thread th.val).g = y.g ∧ t.blk.answered v 0x0070 tag 0 []) ∧
          (¬ready → becomes (.debugStep v tag th word) { y with stepping := some word })) ∧
        (y.kept ≠ .running → refuses (.debugStep v tag th word) 0x0501) ∧
        (∃ t, exec (.debugChannelCancel v tag th ch) s = .next t ∧ (t.blk.thread th.val).credits.get 0 ch.val = 0 ∧
          (∀ w < 8, (t.blk.thread th.val).staging.get 0 (ch.val * 8 + w) = 0) ∧
          (t.blk.thread th.val).st = .halted ∧ t.blk.answered v 0x0070 tag 0 [])) ∧
      (y.st ≠ .halted → ∀ c ∈ [Instr.debugGo v tag th, .debugRead v tag th item, .debugWrite v tag th item x,
        .debugStep v tag th word, .debugChannelCancel v tag th ch], refuses c 0x0501) ∧
      becomes (.debugAttach v tag th) { y with attached := true } ∧ becomes (.debugDetach v tag th) { y with attached := false })

/-- R268, R286, R341, R378, R400, R401, R404, R409 to R411: work requests: one that passes its checks joins its QP's
send list, or is posted at its counter and joins the list when it is due; one that fails a check leaves its queue; the
head of the list becomes a message with the next msn, and is sent where a path has room and its source bytes, if it
needs any, are there; a PKT_SEND entry puts its frame into the host ingress, or ends with the status of its failed
read; a receive entry posts its buffer. A command that is not the next entry's changes nothing. -/
def Obligations.WorkRequests : Prop :=
  ∀ (s : State) (inst : InstId) (q : Fin 64) (e : Entry) (ans : Ans) (l : List Byte) (c : Instr) (op : Nat) (n key : BitVec 24)
    (conn : Conn) (w epoch : Nat) (idx : W16) (rest : List (Nat × Nat × W16 × Nat)) (x : Unsent) (src : List SrcRead),
    let b := s.blk
    let i := inst.val
    let wq := b.wq i q.val
    let kind := ((b.instCfg i).wq i q.val).kind.toNat
    let upd := fun f : Entry → Entry => b.updWq i q.val (fun y => y.updEntry e.idx f)
    let started := upd (fun y => { y with st := .started })
    let left := fun t : State => ∀ y ∈ (t.blk.wq i q.val).fetched, y.idx = e.idx → y.st ≠ .fetched
    let qpn := rsQpn e.raw
    let now := b.epochOfHalf (b.homeOf i)
    let p : Posted := { east := b.homeOf i == .east, counter := rsTrig e.raw, threshold := rsThreshold e.raw, inst := i,
                        wq := q.val, idx := e.idx, qpn := qpn }
    let waits := fun z : Posted => z.counter = rsTrig e.raw → (b.trig z.counter).value < z.threshold
    let can := b.canIssue ((b.instCfg i).inst i).port.toNat true = true
    let works := [(0x10, Instr.wrWrite inst q), (0x11, .wrWriteImm inst q), (0x12, .wrRead inst q), (0x13, .wrSend inst q),
          (0x15, .wrFetchAdd inst q), (0x16, .wrCmpSwap inst q)]
    let port := (b.cfg.inst i).port.toNat
    let y := b.qp n.toNat
    let cfg := (b.cfgOf epoch).qp n.toNat
    let cuts := cutUnits (weOp e.raw) (rsLen e.raw) conn.mtu 0
    let first := (cuts.head?.map (·.len)).getD 0
    let mayStart := ¬(y.stopped = true ∨ min cfg.maxOut 512 ≤ y.live.length ∨
      (atomicOp (weOp e.raw) = true ∧ 64 ≤ (y.live.filter (fun m => atomicOp m.op)).length) ∨ y.newPath conn.paths first = none)
    let m : OutMsg := {
      msn := y.nextMsn, inst := i, wq := w, idx := idx, epoch := epoch, op := weOp e.raw, localAddr := rsLocal e.raw,
      remoteAddr := rsRemote e.raw, rkey := if weOp e.raw = 0x13 then 0 else rsRkey e.raw, total := rsLen e.raw,
      imm := if weOp e.raw = 0x11 then rsImm e.raw else 0, op0 := rsOp0 e.raw, op1 := if weOp e.raw = 0x16 then rsOp1 e.raw else 0,
      solicited := rsSolicited e.raw, mtu := conn.mtu, tune := tuneOf cfg.tune, unsent := cuts }
    let sends := ((b.instCfg cfg.inst).inst cfg.inst).port.toNat
    (kind ≠ kRmtSend ∨ wq.nextStart = none →
      exec (.triggeredPost inst q) s = .next s ∧ ∀ z ∈ works, exec z.2 s = .next s) ∧
    (kind = kRmtSend → wq.nextStart = some e → (op, c) ∈ works →
      (weOp e.raw ≠ op ∨ rsTriggered e.raw = true → exec c s = .next s) ∧
      (weOp e.raw = op → rsTriggered e.raw = false →
        (b.wrCheck i q.val e.raw e.epoch ≠ 0 → ∃ t, exec c s = .next t ∧ (t.blk.wq i q.val).entry e.idx = none) ∧
        (b.wrCheck i q.val e.raw e.epoch = 0 → ∃ t, exec c s = .next t ∧
          t.blk = ((upd (fun y => { y with st := .started, epoch := e.epoch })).updQp qpn (fun z => { z with
            sendList := z.sendList ++ [(i, q.val, e.idx, e.epoch)] })).settleIncs))) ∧
    (kind = kRmtSend → wq.nextStart = some e →
      (rsTriggered e.raw = false → exec (.triggeredPost inst q) s = .next s) ∧
      (rsTriggered e.raw = true → b.wrCheck i q.val e.raw e.epoch ≠ 0 → ∃ t, exec (.triggeredPost inst q) s = .next t ∧
        (t.blk.wq i q.val).entry e.idx = none) ∧
      (rsTriggered e.raw = true → b.wrCheck i q.val e.raw e.epoch = 0 → b.rmt.incs = [] →
        (b.trigOn (rsTrig e.raw) = false ∨ waits p ∧ (∀ z ∈ b.rmt.posted, waits z) →
          ∃ t, exec (.triggeredPost inst q) s = .next t ∧
            t.blk = { started with rmt := { b.rmt with posted := b.rmt.posted ++ [p] } }) ∧
        (b.rmt.posted = [] → b.trigOn (rsTrig e.raw) = true → rsThreshold e.raw ≤ (b.trig (rsTrig e.raw)).value →
          (((b.cfgOf now).qp qpn).life = .enabled → (b.qp qpn).stopped = false →
            ∃ t, exec (.triggeredPost inst q) s = .next t ∧ t.blk.rmt.posted = [] ∧
              t.blk.qp qpn = { b.qp qpn with sendList := (b.qp qpn).sendList ++ [(i, q.val, e.idx, now)] }) ∧
          (((b.cfgOf now).qp qpn).life ≠ .enabled ∨ (b.qp qpn).stopped = true →
            ∃ t, exec (.triggeredPost inst q) s = .next t ∧ (t.blk.wq i q.val).entry e.idx = none)))) ∧
    (y.sendList = [] → exec (.messageStart n src) s = .next { s with blk := (b.pump n.toNat src).settleIncs }) ∧
    (y.sendList = (i, w, idx, epoch) :: rest → (b.wq i w).entry idx = some e → cfg.conn = some conn →
      (¬mayStart → ∃ t, exec (.messageStart n src) s = .next t ∧ (t.blk.qp n.toNat).nextMsn = y.nextMsn) ∧
      (mayStart →
        (∃ t, exec (.messageStart n src) s = .next t ∧ (t.blk.qp n.toNat).nextMsn = (y.nextMsn + 1) % 2 ^ 24 ∧
          (t.blk.qp n.toNat).sent = sat64 y.sent 1) ∧
        (y.out = [] → m.reads = true → b.rmt.incs = [] → ∃ t, exec (.messageStart n []) s = .next t ∧
          t.blk.qp n.toNat = { y with
            sendList := rest, nextMsn := (y.nextMsn + 1) % 2 ^ 24, out := [m], sent := sat64 y.sent 1 }) ∧
        (y.out = [] → cuts = [x] → key.toNat = y.nextMsn →
          m.reads = false ∨ (can ∧ b.xlated i (rsLocal e.raw) ans = .ok l) →
          ∃ t m', exec (.messageStart n [⟨key, ans⟩]) s = .next t ∧ (t.blk.qp n.toNat).out = [m'] ∧
            m' = { m with units := m'.units, unsent := [] } ∧ m'.units.map (fun u => (u.off, u.len, u.attempts)) = [(x.off, x.len, 0)] ∧
            (t.blk.hostFrames.get [] sends).length = (b.hostFrames.get [] sends).length + 1))) ∧
    (kind ≠ kPktSend ∨ wq.nextStart = none → exec (.pktSend inst q ans) s = .next s) ∧
    (kind = kPktSend → wq.nextStart = some e →
      let on := (b.cfg.inst i).life = .enabled ∧ (b.inst i).detached = false
      let lost := ∃ t, exec (.pktSend inst q ans) s = .next t ∧ t.blk.hostFrames = b.hostFrames ∧ left t
      (¬on → lost) ∧ (on → ¬can → exec (.pktSend inst q ans) s = .next s) ∧
      (on → can → (∀ z, b.xlated i (psAddr e.raw) ans ≠ .ok z) → lost) ∧
      (on → can → b.xlated i (psAddr e.raw) ans = .ok l → ∃ t f, exec (.pktSend inst q ans) s = .next t ∧
        t.blk.hostFrames.get [] port = b.hostFrames.get [] port ++ [f] ∧ f.frame = slice l 0 (psLen e.raw) ∧
        f.hostMeta = psMeta e.raw ∧ f.tc = psTc e.raw ∧ f.tsReq = psTsReq e.raw ∧ f.launch.isSome = psLaunch e.raw ∧
        (psLaunch e.raw = false → left t) ∧
        (psLaunch e.raw = true → (t.blk.wq i q.val).fetched = (started.wq i q.val).fetched ∧
          f.launch = some (if 1000000000 ≤ psNsec e.raw then 2 ^ 50 * secGrains
            else psSec e.raw * secGrains + psNsec e.raw * 65536)))) ∧
    (∀ z ∈ [(kPktRecv, Instr.pktRecv inst q), (kRmtRecv, .rmtRecv inst q)],
      (kind = z.1 → wq.nextStart = some e → exec z.2 s = .next { s with blk := started }) ∧
      (kind ≠ z.1 ∨ wq.nextStart = none → exec z.2 s = .next s))

/-- R382, R386 to R391, R402, R403: answers and timers at the requester: an answer to no outstanding message is
counted late, a malformed one as such, one whose write the host holds back as held; for a QP with one message
outstanding, an ACK that is done and a final NAK end it, an ACK of a range counts its bytes or starts it over, NAK RNR
holds it, NAK RESTART starts it over; the bytes of a READ_RESP and of an ATOMIC_RESP go to local_addr; a unit whose
timer ran out is to be sent again on another attempt, or the QP stops; a hold ends; a path that failed is re-rolled;
an old tracker is abandoned. What is not due changes nothing. -/
def Obligations.AnswersAndTimers : Prop :=
  ∀ (s : State) (h : Half) (x : RmtPkt) (d : Blk) (m : OutMsg) (ans : Ans) (st op : Nat) (c : Instr) (src : List SrcRead)
    (n msn : BitVec 24) (off : W32) (path : Fin 64) (u : TUnit) (v : Nat) (k : Tracker) (conn : Conn),
    let b := s.blk
    let y := d.qp x.destQpn
    let y' := b.qp n.toNat
    let cmds := [(0x10, Instr.rmtAck h src), (0x11, .rmtNak h src), (5, .rmtReadResp h ans src), (8, .rmtAtomicResp h ans src)]
    let wellFormed := isAnswer x.opcode = true ∧ x.version = 1 ∧ x.rsv = false
    let fits := fun z : OutMsg => z.msn == x.msn && answerFits z.op x.opcode
    let one := y.out = [m] ∧ m.ended = none ∧ fits m = true ∧ x.formOk m.mtu = true
    let after := fun (c : Instr) (p : Qp → Blk → Prop) => ∃ t, exec c s = .next t ∧ p (t.blk.qp x.destQpn) t.blk
    let ends := fun (c : Instr) (more : Qp → Blk → Prop) => after c (fun z t => z.out = [] ∧ z.stopped = y.stopped ∧
      (t.wq m.inst m.wq).entry m.idx = none ∧ more z t)
    let stops := fun (z : Qp) => z.out = [] ∧ z.stopped = true ∧ z.sendList = []
    let inRange := fun z : TUnit => decide (x.offset ≤ z.off) && decide (z.off + z.len ≤ x.offset + x.aux)
    let held := m.acked + (m.units.filter inRange).foldl (fun a z => a + z.len) 0
    let hold := m.units.map (fun z => ({ off := z.off, len := z.len, attempt := z.attempts + 1, lostOn := some z.path } : Unsent)) ++
      m.unsent.map (fun z => if z.lostOn.isSome then { z with attempt := z.attempt + 1 } else z)
    let tries := m.units.foldl (fun a z => max a z.attempts) (m.unsent.foldl (fun a z => max a z.attempt) m.restarts) + 1
    let p := y'.path path.val
    let due := fun z : TUnit => z.since + unitTimeout m.tune y' z ≤ b.mono
    ((op, c) ∈ cmds →
      (b.rmtTake h op = none → exec c s = .next s) ∧
      (b.rmtTake h op = some (x, d) →
        (¬wellFormed → exec c s = .next { s with blk := d.rmtCnt h 2 1 }) ∧
        (wellFormed →
          (y.live.find? fits = none → exec c s = .next { s with blk := d.rmtCnt x.half 6 1 }) ∧
          (y.live.find? fits = some m → x.formOk m.mtu = false → exec c s = .next { s with blk := d.rmtCnt x.half 2 1 }) ∧
          (y.live.find? fits = some m → x.formOk m.mtu = true → x.opcode = 5 ∨ x.opcode = 8 → d.instCan m.inst = false →
            exec c s = .next { s with blk := d.rmtCnt x.half 3 1 })))) ∧
    (b.rmtTake h 0x10 = some (x, d) → x.opcode = 0x10 → one →
      (x.done = true → ends (.rmtAck h src) (fun _ _ => True)) ∧
      (x.done = false → after (.rmtAck h src) (fun z _ => ∀ m' ∈ z.out, m'.msn = m.msn ∧
        (m'.ended = none → m'.acked = if x.total < held then 0 else held)))) ∧
    (b.rmtTake h 0x11 = some (x, d) → x.opcode = 0x11 → one →
      (wireStatus (x.aux % 256) = some st → ends (.rmtNak h src) (fun z _ => z.nakRx = sat64 y.nakRx 1)) ∧
      (x.aux % 256 = 5 →
        ((∀ z ∈ hold, z.attempt ≤ m.tune.retryLimit) → after (.rmtNak h src) (fun z _ => z.nakRx = sat64 y.nakRx 1 ∧ z.out = [{ m with
          rnr := m.rnr + 1, holdTo := some (b.mono + 50000 * 2 ^ min (m.rnr + 1) 8), units := [], unsent := hold }])) ∧
        ((∃ z ∈ hold, m.tune.retryLimit < z.attempt) → after (.rmtNak h src) (fun z _ => stops z))) ∧
      (x.aux % 256 = 8 →
        (tries ≤ m.tune.retryLimit → m.reads = true → after (.rmtNak h []) (fun z _ => ∃ m', z.out = [m'] ∧
          m' = { m with units := [], acked := 0, restarts := tries, unsent := m'.unsent } ∧
          m'.unsent.map (fun w => (w.off, w.len, w.attempt)) =
            (cutUnits m.op m.total m.mtu tries).map (fun w => (w.off, w.len, w.attempt)))) ∧
        (m.tune.retryLimit < tries → after (.rmtNak h src) (fun z _ => stops z))) ∧
      (wireStatus (x.aux % 256) = none → x.aux % 256 ≠ 5 → x.aux % 256 ≠ 8 →
        after (.rmtNak h src) (fun z _ => z.nakRx = sat64 y.nakRx 1))) ∧
    (b.rmtTake h 5 = some (x, d) → x.opcode = 5 → one → d.instCan m.inst = true →
      let fault := x.payload ≠ [] ∧ ∃ z, d.xlated m.inst (m.localAddr + x.offset) ans = .xfault z
      let got := if m.got.contains (x.offset / m.mtu) then m.got else m.got ++ [x.offset / m.mtu]
      (fault → ends (.rmtReadResp h ans src) (fun _ _ => True)) ∧
      (¬fault → after (.rmtReadResp h ans src) (fun _ t =>
        x.payload ≠ [] → .inst m.inst (m.localAddr + x.offset) x.payload ∈ t.out)) ∧
      (¬fault → max (ceilDiv m.total m.mtu) 1 ≤ got.length → ends (.rmtReadResp h ans src) (fun _ _ => True)) ∧
      (¬fault → got.length < max (ceilDiv m.total m.mtu) 1 → after (.rmtReadResp h ans src) (fun z _ =>
        ∀ m' ∈ z.out, m'.ended = none → m'.got = got))) ∧
    (b.rmtTake h 8 = some (x, d) → x.opcode = 8 → one → d.instCan m.inst = true →
      ends (.rmtAtomicResp h ans src) (fun _ t => (∀ z, d.xlated m.inst m.localAddr ans ≠ .xfault z) →
        .inst m.inst m.localAddr x.payload.reverse ∈ t.out)) ∧
    (y'.msg msn.toNat = none ∨ (y'.msg msn.toNat = some m ∧ (m.units.find? (fun z => z.off == off.toNat) = none ∨
        m.ended ≠ none ∨ m.holdTo ≠ none)) → exec (.retxTimeout n msn off src) s = .next s) ∧
    (y'.msg msn.toNat = some m → m.ended = none → m.holdTo = none → m.units.find? (fun z => z.off == off.toNat) = some u →
      (¬due u → exec (.retxTimeout n msn off src) s = .next s) ∧
      (due u → ∃ t, exec (.retxTimeout n msn off src) s = .next t ∧
        ((t.blk.qp n.toNat).path u.path).expiries = (y'.path u.path).expiries + 1 ∧
        ((t.blk.qp n.toNat).path u.path).st =
          (if (y'.path u.path).st = .failed ∨ 3 ≤ (y'.path u.path).expiries + 1 then .failed else .suspect) ∧
        (m.tune.retryLimit ≤ u.attempts → stops (t.blk.qp n.toNat))) ∧
      (due u → u.attempts < m.tune.retryLimit → m.reads = true → ∃ t m', exec (.retxTimeout n msn off []) s = .next t ∧
        (t.blk.qp n.toNat).msg msn.toNat = some m' ∧ m'.units = m.units.filter (fun z => z.off != off.toNat) ∧
        m'.unsent = { off := u.off, len := u.len, attempt := u.attempts + 1, lostOn := some u.path } :: m.unsent)) ∧
    ((y'.msg msn.toNat).bind (·.holdTo) = none → exec (.rnrHoldExpire n msn src) s = .next s) ∧
    (y'.msg msn.toNat = some m → m.holdTo = some v →
      (b.mono < v → exec (.rnrHoldExpire n msn src) s = .next s) ∧
      (v ≤ b.mono → ∃ t m', exec (.rnrHoldExpire n msn []) s = .next t ∧
        (t.blk.qp n.toNat).msg msn.toNat = some m' ∧ m'.holdTo = none ∧ m'.ended = m.ended)) ∧
    (¬(p.st = .failed ∧ p.failedAt + 1000000 ≤ b.mono) → exec (.pathReroll n path) s = .next s) ∧
    (p.st = .failed → p.failedAt + 1000000 ≤ b.mono → ∃ t, exec (.pathReroll n path) s = .next t ∧
      t.blk = { b with rmt := t.blk.rmt } ∧ (t.blk.qp n.toNat).path path.val = { p with st := .suspect, reroll := p.reroll + 1, expiries := 0 } ∧
      ∀ j ≠ n.toNat, t.blk.qp j = b.qp j) ∧
    (y'.tracker msn.toNat = none → exec (.trackerAbandon n msn) s = .next s) ∧
    (y'.tracker msn.toNat = some k →
      let q := (b.cfgOf k.epoch).qp n.toNat
      let port := ((b.instCfg q.inst).inst q.inst).port.toNat
      let old := k.born + (tuneOf q.tune).msgTimeoutMs * 1000000 ≤ b.mono
      (¬old → exec (.trackerAbandon n msn) s = .next s) ∧
      (old → ∃ t, exec (.trackerAbandon n msn) s = .next t ∧ (t.blk.qp n.toNat).tracker msn.toNat = none ∧
        (t.blk.qp n.toNat).abandoned = sat64 y'.abandoned 1 ∧ (q.conn = some conn →
          (t.blk.hostFrames.get [] port).length = (b.hostFrames.get [] port).length + 1)))

/-- R379 to R381, R383, R384, R386, R404, R406: a request packet at the responder: malformed or of no QP, it is
counted or refused; it is classified by its msn: a stale or a duplicate one is counted, a refused one refused again; a
message without a tracker is judged by the admission checks, and held, turned away or let in; a packet of an admitted
one is placed once. A message of one packet is placed, WRITE and WRITE_IMM in the window (of host or of device
memory), SEND in the buffer, and its msn is DONE; a READ_REQ is answered in packets of the mtu; an atomic is performed
once and its old value kept. -/
def Obligations.RequestsAtTheResponder : Prop :=
  ∀ (s : State) (h : Half) (x0 : RmtPkt) (b d : Blk) (cls : Machine.Class) (win : Nat) (w : Nat) (idx : W16) (e : Entry) (ans : Ans)
    (l : List Byte) (conn : Conn) (op code : Nat) (c : Instr) (k : Tracker),
    let cmds := [(1, Instr.rmtWrite h ans), (2, .rmtWriteImm h ans), (3, .rmtSend h ans), (4, .rmtReadReq h ans),
      (6, .rmtFetchAdd h ans), (7, .rmtCmpSwap h ans)]
    let x := b.judgedBy x0
    let n := x.destQpn
    let q := (b.cfgOf x.epoch).qp n
    let i := q.inst
    let becomes := fun z : Blk => exec c s = .next { s with blk := z }
    let after := fun p : Blk → Prop => ∃ t, exec c s = .next t ∧ p t.blk
    let frames := fun z : Blk => (z.hostFrames.get [] ((d.instCfg i).inst i).port.toNat).length
    let taken := (op, c) ∈ cmds ∧ s.blk.rmtTake h op = some (x0, b) ∧ isRequest x0.opcode = true
    let formOk := x.formOk ((q.conn.map (·.mtu)).getD x.payload.length) = true
    let here := taken ∧ formOk ∧ q.life ≠ .absent ∧ b.classify n x.msn = (cls, d)
    let again := fun z : Blk => ((d.resend x).rmtCnt x.half 4 1).updQp n (fun q => { q with dup := sat64 q.dup 1 }) = z
    let open1 := here ∧ ((cls = .at .opened ∧ (x.opcode = 4 ∨ (d.qp n).tracker x.msn = none)) ∨ (cls = .at .done ∧ x.opcode = 4))
    let refused := fun z : Blk => (z.qp n).msnSt x.msn = .refused code ∧ frames z = frames d + 1
    let va := x.remoteAddr + x.offset
    let devmem := ((d.cfgOf x.epoch).win i win).devmem
    let lets := open1 ∧ d.admission x = .pass (some win) none ∧ d.instCan i = true
    let counted := fun z : Blk => (z.qp n).msnSt x.msn = .done ∧ (z.qp n).received = sat64 (d.qp n).received 1
    let a0 := natBE (x.payload.take 8)
    let a1 := natBE (x.payload.drop 8)
    let data := if devmem then d.devRead x.epoch i x.remoteAddr 8 else slice l 0 8
    let old := natLE data
    let new := if x.opcode = 6 then (old + a0) % 2 ^ 64 else if old = a0 then a1 else old
    let stored := fun a : Nat => ∀ z, d.xlated i a ans ≠ .xfault z
    let whole := x.payload.length = x.total
    let some1 := fun z : Blk => ((z.qp n).tracker x.msn).map (fun y => (y.counted, y.total, y.op)) = some (x.payload.length, x.total, x.opcode)
    let placed := fun z : Blk => (whole → counted z) ∧ (¬whole → some1 z)
    ((op, c) ∈ cmds → s.blk.rmtTake h op = none → exec c s = .next s) ∧
    ((op, c) ∈ cmds → s.blk.rmtTake h op = some (x0, b) → isRequest x0.opcode = false → becomes (b.rmtCnt h 2 1)) ∧
    (taken → ¬formOk → becomes (b.rmtCnt x.half 2 1)) ∧
    (taken → formOk → q.life = .absent → becomes (b.nakNoQp x)) ∧
    (here → cls = .stale → becomes (d.rmtCnt x.half 5 1)) ∧
    (here → cls = .at (.refused code) →
      (code = 2 → becomes (d.refuseBadQp x)) ∧ (code ≠ 2 → becomes (d.nak x code))) ∧
    (here → cls = .at .done → x.opcode ≠ 4 → after again) ∧
    (open1 →
      (d.admission x = .silent → becomes d) ∧ (d.admission x = .held → becomes (d.rmtCnt x.half 3 1)) ∧
      (d.admission x = .rnr → q.conn = some conn → after (fun z => frames z = frames d + 1 ∧ (z.qp n).states = (d.qp n).states)) ∧
      (d.admission x = .final code → code = 2 ∨ q.conn = some conn → after refused)) ∧
    (here → cls = .at .opened → x.opcode ≠ 4 → (d.qp n).tracker x.msn = some k →
      let mtu := (q.conn.map (·.mtu)).getD 1024
      let suits := k.op = x.opcode ∧ k.addr = x.remoteAddr ∧ k.rkey = x.keyEcho ∧ k.total = x.total ∧
        (x.opcode = 2 → k.imm = x.aux) ∧ x.offset % mtu = 0 ∧ x.offset + x.payload.length ≤ k.total
      let can := d.canIssue ((d.instCfg k.inst).inst k.inst).port.toNat true = true
      (¬can → becomes (d.rmtCnt x.half 3 1)) ∧
      (can → ¬suits → becomes (d.nak x 3)) ∧
      (can → suits → d.instCan k.inst = false → becomes (d.rmtCnt x.half 3 1)) ∧
      (can → suits → d.instCan k.inst = true → k.bits.contains (x.offset / mtu) = true → becomes (d.ack x false k.counted)) ∧
      (can → suits → d.instCan k.inst = true → k.bits.contains (x.offset / mtu) = false → k.win = some win →
        ((d.cfgOf k.epoch).win k.inst win).devmem = false → k.buf = none →
        (∀ z, d.xlated k.inst (k.addr + x.offset) ans ≠ .xfault z) → after (fun z =>
          (x.payload ≠ [] → .inst k.inst (k.addr + x.offset) x.payload ∈ z.out) ∧
          (k.counted + x.payload.length = k.total → counted z) ∧
          (k.counted + x.payload.length ≠ k.total → ((z.qp n).tracker x.msn).map (·.counted) = some (k.counted + x.payload.length))))) ∧
    (lets → x.opcode = 1 ∨ x.opcode = 2 →
      (x.payload = [] → after placed) ∧
      (x.payload ≠ [] → devmem = false → stored va → after (fun z => placed z ∧ .inst i va x.payload ∈ z.out)) ∧
      (x.payload ≠ [] → devmem = true → d.devPartPoison x.epoch i va x.payload.length = false →
        after (fun z => placed z ∧ z.mem = (d.devStore x.epoch i va x.payload).mem)) ∧
      (x.payload ≠ [] → devmem = true → d.devPartPoison x.epoch i va x.payload.length = true →
        after (fun z => (z.qp n).msnSt x.msn = .refused 7))) ∧
    (open1 → x.opcode = 3 → d.admission x = .pass none (some (w, idx)) → d.instCan i = true → (d.wq i w).entry idx = some e →
      (x.payload ≠ [] → stored (rvAddr e.raw + x.offset)) → after (fun z => placed z ∧ (whole → (z.wq i w).entry idx = none) ∧
        (x.payload ≠ [] → .inst i (rvAddr e.raw + x.offset) x.payload ∈ z.out))) ∧
    (open1 → x.opcode = 4 → d.admission x = .pass (some win) none → q.conn = some conn →
      let fault := x.aux ≠ 0 ∧ (if devmem then d.devPoison x.epoch i va x.aux = true else ∀ z, d.xlated i va ans ≠ .ok z)
      (fault → after (fun z => (z.qp n).msnSt x.msn = .done ∧ frames z = frames d + 1)) ∧
      (¬fault → after (fun z => (z.qp n).msnSt x.msn = .done ∧ frames z = frames d + max (ceilDiv x.aux conn.mtu) 1))) ∧
    (open1 → x.opcode = 6 ∨ x.opcode = 7 → d.admission x = .pass (some win) none → q.conn = some conn →
      let fault := if devmem then d.devPoison x.epoch i x.remoteAddr 8 = true else ∀ z, d.xlated i x.remoteAddr ans ≠ .ok z
      (fault → after (fun z => ∃ r, (z.qp n).msnSt x.msn = .refused r)) ∧
      (¬fault → devmem = true ∨ d.xlated i x.remoteAddr ans = .ok l → after (fun z => counted z ∧ frames z = frames d + 1 ∧
        (z.qp n).atoms.head? = some (x.msn, BitVec.ofNat 64 old) ∧
        (devmem = false → .atomicOp i x.remoteAddr x.opcode a0 a1 ∈ z.out) ∧
        (devmem = true → z.mem = (d.devStore x.epoch i x.remoteAddr (bytesLE 8 new)).mem))))

/-- R326: how the model runs: a step takes the command at the front of the queue and is its effect on the state with
the rest of the queue; every command has an effect that leaves the queue as it is; on an empty queue a nanosecond of
MONO passes while the clocks run, and nothing while they stand (the model's choice, log 1); with it nothing is sent,
memory stays, and so do the cores where none is in Pavane mode and none changes its mode. -/
def Obligations.StepRunsFrontCommand : Prop :=
  (∀ (s : State) (c : Instr) (rest : List Instr), s.pending = c :: rest → step s = exec c { s with pending := rest }) ∧
  (∀ (s : State) (c : Instr), ∃ t, exec c s = .next t ∧ t.pending = s.pending) ∧
  (∀ s : State, s.pending = [] → s.blk.clk.on = false → step s = .next s) ∧
  (∀ s : State, s.pending = [] → s.blk.clk.on = true → (∀ t, (s.blk.thread t).stepping = none) →
    ∃ t, step s = .next t ∧ t.pending = [] ∧ t.blk.mem = s.blk.mem ∧ t.blk.out = s.blk.out ∧
      t.blk.clk = { s.blk.clk with
        mono := (s.blk.clk.mono + 1) % 2 ^ 64, tb := s.blk.clk.tb + 65536,
        ppsDue := s.blk.clk.ppsDue || decide (secGrains ≤ s.blk.clk.tb % secGrains + 65536) } ∧
      (s.blk.paced = [] → s.blk.switching = [] → t.blk.cores = s.blk.cores))

/-- R21, R28, R45, R89, R123, R124, R166, R188, R195, R257, R364, R513: what the part holds right after reset, for the
values that the spec gives: no meeting point, no epoch, threads stopped in system privilege with their registers 0,
queues and rings empty, register fields at the values of their tables, key slots empty, the load areas 0. -/
def Obligations.ResetValues : Prop :=
  let b := State.reset.blk
  State.reset.pending = [] ∧ b.sound ∧ (∀ a, b.byte a = 0) ∧
  (∀ h, b.mp h = 0) ∧ b.ctl.newest = 0 ∧ b.ctl.live = [] ∧ b.cfg.udpPort = 49301 ∧
  (∀ t, (b.thread t).st = .stopped ∧ (b.thread t).started = false ∧ (b.thread t).sr.priv = true ∧
    (b.thread t).sr.evecValid = false ∧ (b.thread t).win.len = 0 ∧ ∀ r, b.greg t r = 0) ∧
  (∀ c, (b.core c).pavane = false) ∧ (∀ c, (b.chan c).enable = false ∧ (b.chan c).queue = []) ∧
  (b.fq .west).sup = 0 ∧ (b.fq .east).sup = 256 ∧ (∀ h, (b.fq h).enable = false ∧ (b.fq h).pi = 0 ∧ (b.fq h).ci = 0) ∧
  (∀ h, (b.port h).ctlWqEn = false ∧ (b.port h).ctlWqLog2 = 4 ∧ (b.port h).ctlCqLog2 = 4 ∧ (b.port h).eqEn = false ∧
    (b.port h).eqLog2 = 5 ∧ (b.port h).perst = true) ∧
  (∀ i q, (b.wq i q).pi = 0 ∧ (b.wq i q).ci = 0 ∧ (b.wq i q).fetched = []) ∧
  (∀ h, (b.eng h).st = .running ∧ (b.eng h).hostMask = 0xFFFF0000#32 ∧ (b.eng h).gen = 0) ∧
  (∀ h i, (b.chn h i).st = .disabled ∧ (b.chn h i).cfg.priority = 7) ∧
  (∀ n, (b.slot n).st = .empty) ∧ b.keys.alarm = false ∧
  (∀ i, (b.inst i).gen = 0 ∧ (b.inst i).detached = false) ∧
  b.clk.servo = .free ∧ b.clk.source = 2 ∧ b.clk.kpShift = 14 ∧ b.clk.kiShift = 18 ∧ b.clk.threshold = 1000000 ∧
  (∀ d, (b.spd.doms.get {} d).margin = 50) ∧
  b.boot.state = 0 ∧ b.boot.enable = false ∧ (∀ p a, (b.boot.ports.get {} p).area.get 0 a = 0) ∧
  b.mss.set.ownerPort = 0xFF ∧ b.mss.set.width = 0

/-- R28, R29: from every state whose memory is in canonical form, with at most four live epochs of which the newest is
in force (none before epoch 1), a step, command or nanosecond, gives such a state. -/
def Obligations.StepKeepsSound : Prop :=
  ∀ s t : State, s.blk.sound → step s = .next t → t.blk.sound

/-- R215, R216: the words of the Polward instructions: every instruction with operand values its entry allows is what
its own word spells, and a word spells nothing but the instruction whose word it is, so that no bit of a word is
ignored. -/
def Obligations.PolwardEncoding : Prop :=
  (∀ i : Pol, i.wf = true → decodePol (encodePol i) = some i) ∧
  ∀ (w : W32) (i : Pol), decodePol w = some i → i.wf = true ∧ encodePol i = w
end

