-- ==== Sys2Proof/Laws/Tab.lean ====
section
/-! SUPPORT. Laws of sparse tables: what a read finds after a write, and that writes keep the canonical form. None of the
read laws asks the table to be canonical. -/

namespace Sys2Proof

variable {α : Type}

theorem Tab.get_ins_same (d : α) (t : Tab α) (i : Nat) (v : α) : Tab.get d (Tab.ins t i v) i = v := by
  induction t with
  | nil => simp [Tab.ins, Tab.get]
  | cons e r ih =>
    obtain ⟨k, w⟩ := e
    simp only [Tab.ins]
    split
    · simp [Tab.get]
    · split
      · simp [Tab.get]
      · simp [Tab.get, *]

theorem Tab.get_ins_other (d : α) (t : Tab α) {i j : Nat} (v : α) (h : j ≠ i) :
    Tab.get d (Tab.ins t i v) j = Tab.get d t j := by
  induction t with
  | nil => simp [Tab.ins, Tab.get, h.symm]
  | cons e r ih =>
    obtain ⟨k, w⟩ := e
    simp only [Tab.ins]
    split
    · subst_vars; simp [Tab.get, h.symm]
    · split
      · simp [Tab.get, h.symm]
      · simp [Tab.get, ih]

theorem Tab.get_filter_same (d : α) (t : Tab α) (i : Nat) : Tab.get d (t.filter (fun e => e.1 != i)) i = d := by
  induction t with
  | nil => rfl
  | cons e r ih =>
    obtain ⟨k, w⟩ := e
    by_cases hk : k = i <;> simp [hk, Tab.get, ih]

theorem Tab.get_filter_other (d : α) (t : Tab α) {i j : Nat} (h : j ≠ i) :
    Tab.get d (t.filter (fun e => e.1 != i)) j = Tab.get d t j := by
  induction t with
  | nil => rfl
  | cons e r ih =>
    obtain ⟨k, w⟩ := e
    by_cases hk : k = i
    · subst hk; simp [Tab.get, ih, h.symm]
    · simp [hk, Tab.get, ih]

variable [DecidableEq α]

/-- A read of the key just written finds what was written. -/
@[simp] theorem Tab.get_put_same (d : α) (t : Tab α) (i : Nat) (v : α) : Tab.get d (Tab.put d t i v) i = v := by
  unfold Tab.put
  split
  · rename_i h; rw [Tab.get_filter_same, h]
  · exact Tab.get_ins_same d t i v

/-- A write leaves every other key alone. -/
theorem Tab.get_put_other (d : α) (t : Tab α) {i j : Nat} (v : α) (h : j ≠ i) :
    Tab.get d (Tab.put d t i v) j = Tab.get d t j := by
  unfold Tab.put
  split
  · exact Tab.get_filter_other d t h
  · exact Tab.get_ins_other d t v h

/-- A read after a write of one key. -/
theorem Tab.get_put (d : α) (t : Tab α) (i j : Nat) (v : α) :
    Tab.get d (Tab.put d t i v) j = if j = i then v else Tab.get d t j := by
  split
  · subst_vars; simp
  · exact Tab.get_put_other d t v (by assumption)

/-- A read of the key just changed. -/
@[simp] theorem Tab.get_upd_same (d : α) (t : Tab α) (i : Nat) (f : α → α) :
    Tab.get d (Tab.upd d t i f) i = f (Tab.get d t i) := Tab.get_put_same d t i _

/-- A change leaves every other key alone. -/
theorem Tab.get_upd_other (d : α) (t : Tab α) {i j : Nat} (f : α → α) (h : j ≠ i) :
    Tab.get d (Tab.upd d t i f) j = Tab.get d t j := Tab.get_put_other d t _ h

/-- A read after a change of one key. -/
theorem Tab.get_upd (d : α) (t : Tab α) (i j : Nat) (f : α → α) :
    Tab.get d (Tab.upd d t i f) j = if j = i then f (Tab.get d t i) else Tab.get d t j := Tab.get_put d t i j _

/-! The canonical form. -/

theorem Tab.wfFrom_mono (d : α) (t : Tab α) {a b : Nat} (hab : b ≤ a) (h : Tab.wfFrom d a t = true) :
    Tab.wfFrom d b t = true := by
  cases t with
  | nil => rfl
  | cons e r =>
    obtain ⟨k, w⟩ := e
    simp only [Tab.wfFrom, Bool.and_eq_true, decide_eq_true_eq] at h ⊢
    exact ⟨⟨Nat.le_trans hab h.1.1, h.1.2⟩, h.2⟩

theorem Tab.wfFrom_filter (d : α) (p : Nat × α → Bool) (t : Tab α) (lo : Nat) (h : Tab.wfFrom d lo t = true) :
    Tab.wfFrom d lo (t.filter p) = true := by
  induction t generalizing lo with
  | nil => rfl
  | cons e r ih =>
    obtain ⟨k, w⟩ := e
    simp only [Tab.wfFrom, Bool.and_eq_true, decide_eq_true_eq] at h
    simp only [List.filter_cons]
    split
    · simp only [Tab.wfFrom, Bool.and_eq_true, decide_eq_true_eq]
      exact ⟨h.1, ih _ h.2⟩
    · exact Tab.wfFrom_mono d _ (by omega) (ih _ h.2)

theorem Tab.wfFrom_ins (d : α) (t : Tab α) (lo i : Nat) (v : α) (hv : v ≠ d) (hi : lo ≤ i)
    (h : Tab.wfFrom d lo t = true) : Tab.wfFrom d lo (Tab.ins t i v) = true := by
  induction t generalizing lo with
  | nil => simp [Tab.ins, Tab.wfFrom, hv, hi]
  | cons e r ih =>
    obtain ⟨k, w⟩ := e
    simp only [Tab.wfFrom, Bool.and_eq_true, decide_eq_true_eq] at h
    simp only [Tab.ins]
    split
    · subst_vars
      simp only [Tab.wfFrom, Bool.and_eq_true, decide_eq_true_eq]
      exact ⟨⟨hi, by simp [hv]⟩, h.2⟩
    · split
      · simp only [Tab.wfFrom, Bool.and_eq_true, decide_eq_true_eq]
        exact ⟨⟨hi, by simp [hv]⟩, ⟨by omega, h.1.2⟩, h.2⟩
      · simp only [Tab.wfFrom, Bool.and_eq_true, decide_eq_true_eq]
        exact ⟨h.1, ih (k + 1) (by omega) h.2⟩

/-- A write keeps the canonical form. -/
theorem Tab.wf_put (d : α) (t : Tab α) (i : Nat) (v : α) (h : Tab.wf d t = true) : Tab.wf d (Tab.put d t i v) = true := by
  unfold Tab.put
  split
  · exact Tab.wfFrom_filter d _ t 0 h
  · exact Tab.wfFrom_ins d t 0 i v (by assumption) (Nat.zero_le i) h

/-- A change keeps the canonical form. -/
theorem Tab.wf_upd (d : α) (t : Tab α) (i : Nat) (f : α → α) (h : Tab.wf d t = true) :
    Tab.wf d (Tab.upd d t i f) = true := Tab.wf_put d t i _ h

/-- Dropping keys keeps the canonical form. -/
theorem Tab.wf_dropKeys (d : α) (p : Nat → Bool) (t : Tab α) (h : Tab.wf d t = true) :
    Tab.wf d (Tab.dropKeys p t) = true := Tab.wfFrom_filter d _ t 0 h

/-- Changing every entry keeps the canonical form. -/
theorem Tab.wfFrom_mapVals (d : α) (f : Nat → α → α) (t : Tab α) (lo : Nat) (h : Tab.wfFrom d lo t = true) :
    Tab.wfFrom d lo (Tab.mapVals d f t) = true := by
  induction t generalizing lo with
  | nil => rfl
  | cons e r ih =>
    obtain ⟨k, w⟩ := e
    simp only [Tab.wfFrom, Bool.and_eq_true, decide_eq_true_eq] at h
    simp only [Tab.mapVals]
    split
    · exact Tab.wfFrom_mono d _ (by omega) (ih _ h.2)
    · simp only [Tab.wfFrom, Bool.and_eq_true, decide_eq_true_eq]
      exact ⟨⟨h.1.1, by simp [*]⟩, ih _ h.2⟩

end Sys2Proof
end

