-- ==== Sys2Proof/Laws/State.lean ====
section
/-! SUPPORT. What each update of the block leaves alone, and what a read finds after it: one lemma for each update and each
field or table read. -/

namespace Sys2Proof.Machine
open Sys2Proof

variable (b : Blk)

@[simp] theorem Blk.wq_updPort (k : Nat) (f : HostPort → HostPort) (i : Nat) (q : Nat) :
    (b.updPort k f).wq i q = b.wq i q := rfl
@[simp] theorem Blk.cq_updPort (k : Nat) (f : HostPort → HostPort) (i : Nat) (q : Nat) :
    (b.updPort k f).cq i q = b.cq i q := rfl
@[simp] theorem Blk.eq_updPort (k : Nat) (f : HostPort → HostPort) (i : Nat) (q : Nat) :
    (b.updPort k f).eq i q = b.eq i q := rfl
@[simp] theorem Blk.inst_updPort (k : Nat) (f : HostPort → HostPort) (i : Nat) :
    (b.updPort k f).inst i = b.inst i := rfl
@[simp] theorem Blk.thread_updPort (k : Nat) (f : HostPort → HostPort) (i : Nat) :
    (b.updPort k f).thread i = b.thread i := rfl
@[simp] theorem Blk.core_updPort (k : Nat) (f : HostPort → HostPort) (i : Nat) :
    (b.updPort k f).core i = b.core i := rfl
@[simp] theorem Blk.chan_updPort (k : Nat) (f : HostPort → HostPort) (i : Nat) :
    (b.updPort k f).chan i = b.chan i := rfl
@[simp] theorem Blk.group_updPort (k : Nat) (f : HostPort → HostPort) (i : Nat) :
    (b.updPort k f).group i = b.group i := rfl
@[simp] theorem Blk.fq_updPort (k : Nat) (f : HostPort → HostPort) (hf : Half) :
    (b.updPort k f).fq hf = b.fq hf := rfl
@[simp] theorem Blk.pipe_updPort (k : Nat) (f : HostPort → HostPort) (i : Nat) :
    (b.updPort k f).pipe i = b.pipe i := rfl
@[simp] theorem Blk.lane_updPort (k : Nat) (f : HostPort → HostPort) (i : Nat) :
    (b.updPort k f).lane i = b.lane i := rfl
@[simp] theorem Blk.dsport_updPort (k : Nat) (f : HostPort → HostPort) (i : Nat) :
    (b.updPort k f).dsport i = b.dsport i := rfl
@[simp] theorem Blk.eng_updPort (k : Nat) (f : HostPort → HostPort) (h : Nat) :
    (b.updPort k f).eng h = b.eng h := rfl
@[simp] theorem Blk.chn_updPort (k : Nat) (f : HostPort → HostPort) (h : Nat) (i : Nat) :
    (b.updPort k f).chn h i = b.chn h i := rfl
@[simp] theorem Blk.slot_updPort (k : Nat) (f : HostPort → HostPort) (i : Nat) :
    (b.updPort k f).slot i = b.slot i := rfl
@[simp] theorem Blk.sa_updPort (k : Nat) (f : HostPort → HostPort) (i : Nat) :
    (b.updPort k f).sa i = b.sa i := rfl
@[simp] theorem Blk.unit_updPort (k : Nat) (f : HostPort → HostPort) (i : Nat) :
    (b.updPort k f).unit i = b.unit i := rfl
@[simp] theorem Blk.qp_updPort (k : Nat) (f : HostPort → HostPort) (i : Nat) :
    (b.updPort k f).qp i = b.qp i := rfl
@[simp] theorem Blk.trig_updPort (k : Nat) (f : HostPort → HostPort) (i : Nat) :
    (b.updPort k f).trig i = b.trig i := rfl
@[simp] theorem Blk.bport_updPort (k : Nat) (f : HostPort → HostPort) (h : Nat) :
    (b.updPort k f).bport h = b.bport h := rfl
@[simp] theorem Blk.ctlq_updPort (k : Nat) (f : HostPort → HostPort) (i : Nat) :
    (b.updPort k f).ctlq i = b.ctlq i := rfl
@[simp] theorem Blk.scan_updPort (k : Nat) (f : HostPort → HostPort) (i : Nat) :
    (b.updPort k f).scan i = b.scan i := rfl
@[simp] theorem Blk.cfg_updPort (k : Nat) (f : HostPort → HostPort) : (b.updPort k f).cfg = b.cfg := rfl
@[simp] theorem Blk.byte_updPort (k : Nat) (f : HostPort → HostPort) (i : Nat) :
    (b.updPort k f).byte i = b.byte i := rfl
@[simp] theorem Blk.clk_updPort (k : Nat) (f : HostPort → HostPort) : (b.updPort k f).clk = b.clk := rfl
@[simp] theorem Blk.spd_updPort (k : Nat) (f : HostPort → HostPort) : (b.updPort k f).spd = b.spd := rfl
@[simp] theorem Blk.brg_updPort (k : Nat) (f : HostPort → HostPort) : (b.updPort k f).brg = b.brg := rfl
@[simp] theorem Blk.mem_updPort (k : Nat) (f : HostPort → HostPort) : (b.updPort k f).mem = b.mem := rfl
@[simp] theorem Blk.poison_updPort (k : Nat) (f : HostPort → HostPort) : (b.updPort k f).poison = b.poison := rfl
@[simp] theorem Blk.dir_updPort (k : Nat) (f : HostPort → HostPort) : (b.updPort k f).dir = b.dir := rfl
@[simp] theorem Blk.hog_updPort (k : Nat) (f : HostPort → HostPort) : (b.updPort k f).hog = b.hog := rfl
@[simp] theorem Blk.mss_updPort (k : Nat) (f : HostPort → HostPort) : (b.updPort k f).mss = b.mss := rfl
@[simp] theorem Blk.rel_updPort (k : Nat) (f : HostPort → HostPort) : (b.updPort k f).rel = b.rel := rfl
@[simp] theorem Blk.elec_updPort (k : Nat) (f : HostPort → HostPort) : (b.updPort k f).elec = b.elec := rfl
@[simp] theorem Blk.stg_updPort (k : Nat) (f : HostPort → HostPort) : (b.updPort k f).stg = b.stg := rfl
@[simp] theorem Blk.hlat_updPort (k : Nat) (f : HostPort → HostPort) : (b.updPort k f).hlat = b.hlat := rfl
@[simp] theorem Blk.tbLat_updPort (k : Nat) (f : HostPort → HostPort) : (b.updPort k f).tbLat = b.tbLat := rfl
@[simp] theorem Blk.hostFrames_updPort (k : Nat) (f : HostPort → HostPort) : (b.updPort k f).hostFrames = b.hostFrames := rfl
@[simp] theorem Blk.preEpoch_updPort (k : Nat) (f : HostPort → HostPort) : (b.updPort k f).preEpoch = b.preEpoch := rfl
@[simp] theorem Blk.halfDown_updPort (k : Nat) (f : HostPort → HostPort) : (b.updPort k f).halfDown = b.halfDown := rfl
@[simp] theorem Blk.mssWq_updPort (k : Nat) (f : HostPort → HostPort) : (b.updPort k f).mssWq = b.mssWq := rfl
@[simp] theorem Blk.mssCq_updPort (k : Nat) (f : HostPort → HostPort) : (b.updPort k f).mssCq = b.mssCq := rfl
@[simp] theorem Blk.out_updPort (k : Nat) (f : HostPort → HostPort) : (b.updPort k f).out = b.out := rfl
@[simp] theorem Blk.fresh_updPort (k : Nat) (f : HostPort → HostPort) : (b.updPort k f).fresh = b.fresh := rfl
@[simp] theorem Blk.boot_updPort (k : Nat) (f : HostPort → HostPort) : (b.updPort k f).boot = b.boot := rfl
@[simp] theorem Blk.ctl_updPort (k : Nat) (f : HostPort → HostPort) : (b.updPort k f).ctl = b.ctl := rfl
@[simp] theorem Blk.keys_updPort (k : Nat) (f : HostPort → HostPort) : (b.updPort k f).keys = b.keys := rfl
@[simp] theorem Blk.rmt_updPort (k : Nat) (f : HostPort → HostPort) : (b.updPort k f).rmt = b.rmt := rfl
@[simp] theorem Blk.insts_updPort (k : Nat) (f : HostPort → HostPort) : (b.updPort k f).insts = b.insts := rfl
@[simp] theorem Blk.cores_updPort (k : Nat) (f : HostPort → HostPort) : (b.updPort k f).cores = b.cores := rfl
@[simp] theorem Blk.wq_updFn (k : Nat) (g : Bool) (f : Fn → Fn) (i : Nat) (q : Nat) :
    (b.updFn k g f).wq i q = b.wq i q := rfl
@[simp] theorem Blk.cq_updFn (k : Nat) (g : Bool) (f : Fn → Fn) (i : Nat) (q : Nat) :
    (b.updFn k g f).cq i q = b.cq i q := rfl
@[simp] theorem Blk.eq_updFn (k : Nat) (g : Bool) (f : Fn → Fn) (i : Nat) (q : Nat) :
    (b.updFn k g f).eq i q = b.eq i q := rfl
@[simp] theorem Blk.inst_updFn (k : Nat) (g : Bool) (f : Fn → Fn) (i : Nat) :
    (b.updFn k g f).inst i = b.inst i := rfl
@[simp] theorem Blk.thread_updFn (k : Nat) (g : Bool) (f : Fn → Fn) (i : Nat) :
    (b.updFn k g f).thread i = b.thread i := rfl
@[simp] theorem Blk.core_updFn (k : Nat) (g : Bool) (f : Fn → Fn) (i : Nat) :
    (b.updFn k g f).core i = b.core i := rfl
@[simp] theorem Blk.chan_updFn (k : Nat) (g : Bool) (f : Fn → Fn) (i : Nat) :
    (b.updFn k g f).chan i = b.chan i := rfl
@[simp] theorem Blk.group_updFn (k : Nat) (g : Bool) (f : Fn → Fn) (i : Nat) :
    (b.updFn k g f).group i = b.group i := rfl
@[simp] theorem Blk.fq_updFn (k : Nat) (g : Bool) (f : Fn → Fn) (hf : Half) :
    (b.updFn k g f).fq hf = b.fq hf := rfl
@[simp] theorem Blk.pipe_updFn (k : Nat) (g : Bool) (f : Fn → Fn) (i : Nat) :
    (b.updFn k g f).pipe i = b.pipe i := rfl
@[simp] theorem Blk.lane_updFn (k : Nat) (g : Bool) (f : Fn → Fn) (i : Nat) :
    (b.updFn k g f).lane i = b.lane i := rfl
@[simp] theorem Blk.dsport_updFn (k : Nat) (g : Bool) (f : Fn → Fn) (i : Nat) :
    (b.updFn k g f).dsport i = b.dsport i := rfl
@[simp] theorem Blk.eng_updFn (k : Nat) (g : Bool) (f : Fn → Fn) (h : Nat) :
    (b.updFn k g f).eng h = b.eng h := rfl
@[simp] theorem Blk.chn_updFn (k : Nat) (g : Bool) (f : Fn → Fn) (h : Nat) (i : Nat) :
    (b.updFn k g f).chn h i = b.chn h i := rfl
@[simp] theorem Blk.slot_updFn (k : Nat) (g : Bool) (f : Fn → Fn) (i : Nat) :
    (b.updFn k g f).slot i = b.slot i := rfl
@[simp] theorem Blk.sa_updFn (k : Nat) (g : Bool) (f : Fn → Fn) (i : Nat) :
    (b.updFn k g f).sa i = b.sa i := rfl
@[simp] theorem Blk.unit_updFn (k : Nat) (g : Bool) (f : Fn → Fn) (i : Nat) :
    (b.updFn k g f).unit i = b.unit i := rfl
@[simp] theorem Blk.qp_updFn (k : Nat) (g : Bool) (f : Fn → Fn) (i : Nat) :
    (b.updFn k g f).qp i = b.qp i := rfl
@[simp] theorem Blk.trig_updFn (k : Nat) (g : Bool) (f : Fn → Fn) (i : Nat) :
    (b.updFn k g f).trig i = b.trig i := rfl
@[simp] theorem Blk.bport_updFn (k : Nat) (g : Bool) (f : Fn → Fn) (h : Nat) :
    (b.updFn k g f).bport h = b.bport h := rfl
@[simp] theorem Blk.ctlq_updFn (k : Nat) (g : Bool) (f : Fn → Fn) (i : Nat) :
    (b.updFn k g f).ctlq i = b.ctlq i := rfl
@[simp] theorem Blk.scan_updFn (k : Nat) (g : Bool) (f : Fn → Fn) (i : Nat) :
    (b.updFn k g f).scan i = b.scan i := rfl
@[simp] theorem Blk.cfg_updFn (k : Nat) (g : Bool) (f : Fn → Fn) : (b.updFn k g f).cfg = b.cfg := rfl
@[simp] theorem Blk.byte_updFn (k : Nat) (g : Bool) (f : Fn → Fn) (i : Nat) :
    (b.updFn k g f).byte i = b.byte i := rfl
@[simp] theorem Blk.clk_updFn (k : Nat) (g : Bool) (f : Fn → Fn) : (b.updFn k g f).clk = b.clk := rfl
@[simp] theorem Blk.spd_updFn (k : Nat) (g : Bool) (f : Fn → Fn) : (b.updFn k g f).spd = b.spd := rfl
@[simp] theorem Blk.brg_updFn (k : Nat) (g : Bool) (f : Fn → Fn) : (b.updFn k g f).brg = b.brg := rfl
@[simp] theorem Blk.mem_updFn (k : Nat) (g : Bool) (f : Fn → Fn) : (b.updFn k g f).mem = b.mem := rfl
@[simp] theorem Blk.poison_updFn (k : Nat) (g : Bool) (f : Fn → Fn) : (b.updFn k g f).poison = b.poison := rfl
@[simp] theorem Blk.dir_updFn (k : Nat) (g : Bool) (f : Fn → Fn) : (b.updFn k g f).dir = b.dir := rfl
@[simp] theorem Blk.hog_updFn (k : Nat) (g : Bool) (f : Fn → Fn) : (b.updFn k g f).hog = b.hog := rfl
@[simp] theorem Blk.mss_updFn (k : Nat) (g : Bool) (f : Fn → Fn) : (b.updFn k g f).mss = b.mss := rfl
@[simp] theorem Blk.rel_updFn (k : Nat) (g : Bool) (f : Fn → Fn) : (b.updFn k g f).rel = b.rel := rfl
@[simp] theorem Blk.elec_updFn (k : Nat) (g : Bool) (f : Fn → Fn) : (b.updFn k g f).elec = b.elec := rfl
@[simp] theorem Blk.stg_updFn (k : Nat) (g : Bool) (f : Fn → Fn) : (b.updFn k g f).stg = b.stg := rfl
@[simp] theorem Blk.hlat_updFn (k : Nat) (g : Bool) (f : Fn → Fn) : (b.updFn k g f).hlat = b.hlat := rfl
@[simp] theorem Blk.tbLat_updFn (k : Nat) (g : Bool) (f : Fn → Fn) : (b.updFn k g f).tbLat = b.tbLat := rfl
@[simp] theorem Blk.hostFrames_updFn (k : Nat) (g : Bool) (f : Fn → Fn) : (b.updFn k g f).hostFrames = b.hostFrames := rfl
@[simp] theorem Blk.preEpoch_updFn (k : Nat) (g : Bool) (f : Fn → Fn) : (b.updFn k g f).preEpoch = b.preEpoch := rfl
@[simp] theorem Blk.halfDown_updFn (k : Nat) (g : Bool) (f : Fn → Fn) : (b.updFn k g f).halfDown = b.halfDown := rfl
@[simp] theorem Blk.mssWq_updFn (k : Nat) (g : Bool) (f : Fn → Fn) : (b.updFn k g f).mssWq = b.mssWq := rfl
@[simp] theorem Blk.mssCq_updFn (k : Nat) (g : Bool) (f : Fn → Fn) : (b.updFn k g f).mssCq = b.mssCq := rfl
@[simp] theorem Blk.out_updFn (k : Nat) (g : Bool) (f : Fn → Fn) : (b.updFn k g f).out = b.out := rfl
@[simp] theorem Blk.fresh_updFn (k : Nat) (g : Bool) (f : Fn → Fn) : (b.updFn k g f).fresh = b.fresh := rfl
@[simp] theorem Blk.boot_updFn (k : Nat) (g : Bool) (f : Fn → Fn) : (b.updFn k g f).boot = b.boot := rfl
@[simp] theorem Blk.ctl_updFn (k : Nat) (g : Bool) (f : Fn → Fn) : (b.updFn k g f).ctl = b.ctl := rfl
@[simp] theorem Blk.keys_updFn (k : Nat) (g : Bool) (f : Fn → Fn) : (b.updFn k g f).keys = b.keys := rfl
@[simp] theorem Blk.rmt_updFn (k : Nat) (g : Bool) (f : Fn → Fn) : (b.updFn k g f).rmt = b.rmt := rfl
@[simp] theorem Blk.insts_updFn (k : Nat) (g : Bool) (f : Fn → Fn) : (b.updFn k g f).insts = b.insts := rfl
@[simp] theorem Blk.cores_updFn (k : Nat) (g : Bool) (f : Fn → Fn) : (b.updFn k g f).cores = b.cores := rfl
@[simp] theorem Blk.port_updWq (k l : Nat) (f : Wq → Wq) (h : Nat) :
    (b.updWq k l f).port h = b.port h := rfl
@[simp] theorem Blk.fn_updWq (k l : Nat) (f : Wq → Wq) (h : Nat) (f1 : Bool) :
    (b.updWq k l f).fn h f1 = b.fn h f1 := rfl
@[simp] theorem Blk.cq_updWq (k l : Nat) (f : Wq → Wq) (i : Nat) (q : Nat) :
    (b.updWq k l f).cq i q = b.cq i q := rfl
@[simp] theorem Blk.eq_updWq (k l : Nat) (f : Wq → Wq) (i : Nat) (q : Nat) :
    (b.updWq k l f).eq i q = b.eq i q := rfl
@[simp] theorem Blk.inst_updWq (k l : Nat) (f : Wq → Wq) (i : Nat) :
    (b.updWq k l f).inst i = b.inst i := rfl
@[simp] theorem Blk.thread_updWq (k l : Nat) (f : Wq → Wq) (i : Nat) :
    (b.updWq k l f).thread i = b.thread i := rfl
@[simp] theorem Blk.core_updWq (k l : Nat) (f : Wq → Wq) (i : Nat) :
    (b.updWq k l f).core i = b.core i := rfl
@[simp] theorem Blk.chan_updWq (k l : Nat) (f : Wq → Wq) (i : Nat) :
    (b.updWq k l f).chan i = b.chan i := rfl
@[simp] theorem Blk.group_updWq (k l : Nat) (f : Wq → Wq) (i : Nat) :
    (b.updWq k l f).group i = b.group i := rfl
@[simp] theorem Blk.fq_updWq (k l : Nat) (f : Wq → Wq) (hf : Half) :
    (b.updWq k l f).fq hf = b.fq hf := rfl
@[simp] theorem Blk.pipe_updWq (k l : Nat) (f : Wq → Wq) (i : Nat) :
    (b.updWq k l f).pipe i = b.pipe i := rfl
@[simp] theorem Blk.lane_updWq (k l : Nat) (f : Wq → Wq) (i : Nat) :
    (b.updWq k l f).lane i = b.lane i := rfl
@[simp] theorem Blk.dsport_updWq (k l : Nat) (f : Wq → Wq) (i : Nat) :
    (b.updWq k l f).dsport i = b.dsport i := rfl
@[simp] theorem Blk.eng_updWq (k l : Nat) (f : Wq → Wq) (h : Nat) :
    (b.updWq k l f).eng h = b.eng h := rfl
@[simp] theorem Blk.chn_updWq (k l : Nat) (f : Wq → Wq) (h : Nat) (i : Nat) :
    (b.updWq k l f).chn h i = b.chn h i := rfl
@[simp] theorem Blk.slot_updWq (k l : Nat) (f : Wq → Wq) (i : Nat) :
    (b.updWq k l f).slot i = b.slot i := rfl
@[simp] theorem Blk.sa_updWq (k l : Nat) (f : Wq → Wq) (i : Nat) :
    (b.updWq k l f).sa i = b.sa i := rfl
@[simp] theorem Blk.unit_updWq (k l : Nat) (f : Wq → Wq) (i : Nat) :
    (b.updWq k l f).unit i = b.unit i := rfl
@[simp] theorem Blk.qp_updWq (k l : Nat) (f : Wq → Wq) (i : Nat) :
    (b.updWq k l f).qp i = b.qp i := rfl
@[simp] theorem Blk.trig_updWq (k l : Nat) (f : Wq → Wq) (i : Nat) :
    (b.updWq k l f).trig i = b.trig i := rfl
@[simp] theorem Blk.bport_updWq (k l : Nat) (f : Wq → Wq) (h : Nat) :
    (b.updWq k l f).bport h = b.bport h := rfl
@[simp] theorem Blk.ctlq_updWq (k l : Nat) (f : Wq → Wq) (i : Nat) :
    (b.updWq k l f).ctlq i = b.ctlq i := rfl
@[simp] theorem Blk.scan_updWq (k l : Nat) (f : Wq → Wq) (i : Nat) :
    (b.updWq k l f).scan i = b.scan i := rfl
@[simp] theorem Blk.cfg_updWq (k l : Nat) (f : Wq → Wq) : (b.updWq k l f).cfg = b.cfg := rfl
@[simp] theorem Blk.byte_updWq (k l : Nat) (f : Wq → Wq) (i : Nat) :
    (b.updWq k l f).byte i = b.byte i := rfl
@[simp] theorem Blk.clk_updWq (k l : Nat) (f : Wq → Wq) : (b.updWq k l f).clk = b.clk := rfl
@[simp] theorem Blk.spd_updWq (k l : Nat) (f : Wq → Wq) : (b.updWq k l f).spd = b.spd := rfl
@[simp] theorem Blk.brg_updWq (k l : Nat) (f : Wq → Wq) : (b.updWq k l f).brg = b.brg := rfl
@[simp] theorem Blk.mem_updWq (k l : Nat) (f : Wq → Wq) : (b.updWq k l f).mem = b.mem := rfl
@[simp] theorem Blk.poison_updWq (k l : Nat) (f : Wq → Wq) : (b.updWq k l f).poison = b.poison := rfl
@[simp] theorem Blk.dir_updWq (k l : Nat) (f : Wq → Wq) : (b.updWq k l f).dir = b.dir := rfl
@[simp] theorem Blk.hog_updWq (k l : Nat) (f : Wq → Wq) : (b.updWq k l f).hog = b.hog := rfl
@[simp] theorem Blk.mss_updWq (k l : Nat) (f : Wq → Wq) : (b.updWq k l f).mss = b.mss := rfl
@[simp] theorem Blk.rel_updWq (k l : Nat) (f : Wq → Wq) : (b.updWq k l f).rel = b.rel := rfl
@[simp] theorem Blk.elec_updWq (k l : Nat) (f : Wq → Wq) : (b.updWq k l f).elec = b.elec := rfl
@[simp] theorem Blk.stg_updWq (k l : Nat) (f : Wq → Wq) : (b.updWq k l f).stg = b.stg := rfl
@[simp] theorem Blk.hlat_updWq (k l : Nat) (f : Wq → Wq) : (b.updWq k l f).hlat = b.hlat := rfl
@[simp] theorem Blk.tbLat_updWq (k l : Nat) (f : Wq → Wq) : (b.updWq k l f).tbLat = b.tbLat := rfl
@[simp] theorem Blk.hostFrames_updWq (k l : Nat) (f : Wq → Wq) : (b.updWq k l f).hostFrames = b.hostFrames := rfl
@[simp] theorem Blk.preEpoch_updWq (k l : Nat) (f : Wq → Wq) : (b.updWq k l f).preEpoch = b.preEpoch := rfl
@[simp] theorem Blk.halfDown_updWq (k l : Nat) (f : Wq → Wq) : (b.updWq k l f).halfDown = b.halfDown := rfl
@[simp] theorem Blk.mssWq_updWq (k l : Nat) (f : Wq → Wq) : (b.updWq k l f).mssWq = b.mssWq := rfl
@[simp] theorem Blk.mssCq_updWq (k l : Nat) (f : Wq → Wq) : (b.updWq k l f).mssCq = b.mssCq := rfl
@[simp] theorem Blk.out_updWq (k l : Nat) (f : Wq → Wq) : (b.updWq k l f).out = b.out := rfl
@[simp] theorem Blk.fresh_updWq (k l : Nat) (f : Wq → Wq) : (b.updWq k l f).fresh = b.fresh := rfl
@[simp] theorem Blk.boot_updWq (k l : Nat) (f : Wq → Wq) : (b.updWq k l f).boot = b.boot := rfl
@[simp] theorem Blk.ctl_updWq (k l : Nat) (f : Wq → Wq) : (b.updWq k l f).ctl = b.ctl := rfl
@[simp] theorem Blk.keys_updWq (k l : Nat) (f : Wq → Wq) : (b.updWq k l f).keys = b.keys := rfl
@[simp] theorem Blk.rmt_updWq (k l : Nat) (f : Wq → Wq) : (b.updWq k l f).rmt = b.rmt := rfl
@[simp] theorem Blk.insts_updWq (k l : Nat) (f : Wq → Wq) : (b.updWq k l f).insts = b.insts := rfl
@[simp] theorem Blk.cores_updWq (k l : Nat) (f : Wq → Wq) : (b.updWq k l f).cores = b.cores := rfl
@[simp] theorem Blk.port_updCq (k l : Nat) (f : Cq → Cq) (h : Nat) :
    (b.updCq k l f).port h = b.port h := rfl
@[simp] theorem Blk.fn_updCq (k l : Nat) (f : Cq → Cq) (h : Nat) (f1 : Bool) :
    (b.updCq k l f).fn h f1 = b.fn h f1 := rfl
@[simp] theorem Blk.wq_updCq (k l : Nat) (f : Cq → Cq) (i : Nat) (q : Nat) :
    (b.updCq k l f).wq i q = b.wq i q := rfl
@[simp] theorem Blk.eq_updCq (k l : Nat) (f : Cq → Cq) (i : Nat) (q : Nat) :
    (b.updCq k l f).eq i q = b.eq i q := rfl
@[simp] theorem Blk.inst_updCq (k l : Nat) (f : Cq → Cq) (i : Nat) :
    (b.updCq k l f).inst i = b.inst i := rfl
@[simp] theorem Blk.thread_updCq (k l : Nat) (f : Cq → Cq) (i : Nat) :
    (b.updCq k l f).thread i = b.thread i := rfl
@[simp] theorem Blk.core_updCq (k l : Nat) (f : Cq → Cq) (i : Nat) :
    (b.updCq k l f).core i = b.core i := rfl
@[simp] theorem Blk.chan_updCq (k l : Nat) (f : Cq → Cq) (i : Nat) :
    (b.updCq k l f).chan i = b.chan i := rfl
@[simp] theorem Blk.group_updCq (k l : Nat) (f : Cq → Cq) (i : Nat) :
    (b.updCq k l f).group i = b.group i := rfl
@[simp] theorem Blk.fq_updCq (k l : Nat) (f : Cq → Cq) (hf : Half) :
    (b.updCq k l f).fq hf = b.fq hf := rfl
@[simp] theorem Blk.pipe_updCq (k l : Nat) (f : Cq → Cq) (i : Nat) :
    (b.updCq k l f).pipe i = b.pipe i := rfl
@[simp] theorem Blk.lane_updCq (k l : Nat) (f : Cq → Cq) (i : Nat) :
    (b.updCq k l f).lane i = b.lane i := rfl
@[simp] theorem Blk.dsport_updCq (k l : Nat) (f : Cq → Cq) (i : Nat) :
    (b.updCq k l f).dsport i = b.dsport i := rfl
@[simp] theorem Blk.eng_updCq (k l : Nat) (f : Cq → Cq) (h : Nat) :
    (b.updCq k l f).eng h = b.eng h := rfl
@[simp] theorem Blk.chn_updCq (k l : Nat) (f : Cq → Cq) (h : Nat) (i : Nat) :
    (b.updCq k l f).chn h i = b.chn h i := rfl
@[simp] theorem Blk.slot_updCq (k l : Nat) (f : Cq → Cq) (i : Nat) :
    (b.updCq k l f).slot i = b.slot i := rfl
@[simp] theorem Blk.sa_updCq (k l : Nat) (f : Cq → Cq) (i : Nat) :
    (b.updCq k l f).sa i = b.sa i := rfl
@[simp] theorem Blk.unit_updCq (k l : Nat) (f : Cq → Cq) (i : Nat) :
    (b.updCq k l f).unit i = b.unit i := rfl
@[simp] theorem Blk.qp_updCq (k l : Nat) (f : Cq → Cq) (i : Nat) :
    (b.updCq k l f).qp i = b.qp i := rfl
@[simp] theorem Blk.trig_updCq (k l : Nat) (f : Cq → Cq) (i : Nat) :
    (b.updCq k l f).trig i = b.trig i := rfl
@[simp] theorem Blk.bport_updCq (k l : Nat) (f : Cq → Cq) (h : Nat) :
    (b.updCq k l f).bport h = b.bport h := rfl
@[simp] theorem Blk.ctlq_updCq (k l : Nat) (f : Cq → Cq) (i : Nat) :
    (b.updCq k l f).ctlq i = b.ctlq i := rfl
@[simp] theorem Blk.scan_updCq (k l : Nat) (f : Cq → Cq) (i : Nat) :
    (b.updCq k l f).scan i = b.scan i := rfl
@[simp] theorem Blk.cfg_updCq (k l : Nat) (f : Cq → Cq) : (b.updCq k l f).cfg = b.cfg := rfl
@[simp] theorem Blk.byte_updCq (k l : Nat) (f : Cq → Cq) (i : Nat) :
    (b.updCq k l f).byte i = b.byte i := rfl
@[simp] theorem Blk.clk_updCq (k l : Nat) (f : Cq → Cq) : (b.updCq k l f).clk = b.clk := rfl
@[simp] theorem Blk.spd_updCq (k l : Nat) (f : Cq → Cq) : (b.updCq k l f).spd = b.spd := rfl
@[simp] theorem Blk.brg_updCq (k l : Nat) (f : Cq → Cq) : (b.updCq k l f).brg = b.brg := rfl
@[simp] theorem Blk.mem_updCq (k l : Nat) (f : Cq → Cq) : (b.updCq k l f).mem = b.mem := rfl
@[simp] theorem Blk.poison_updCq (k l : Nat) (f : Cq → Cq) : (b.updCq k l f).poison = b.poison := rfl
@[simp] theorem Blk.dir_updCq (k l : Nat) (f : Cq → Cq) : (b.updCq k l f).dir = b.dir := rfl
@[simp] theorem Blk.hog_updCq (k l : Nat) (f : Cq → Cq) : (b.updCq k l f).hog = b.hog := rfl
@[simp] theorem Blk.mss_updCq (k l : Nat) (f : Cq → Cq) : (b.updCq k l f).mss = b.mss := rfl
@[simp] theorem Blk.rel_updCq (k l : Nat) (f : Cq → Cq) : (b.updCq k l f).rel = b.rel := rfl
@[simp] theorem Blk.elec_updCq (k l : Nat) (f : Cq → Cq) : (b.updCq k l f).elec = b.elec := rfl
@[simp] theorem Blk.stg_updCq (k l : Nat) (f : Cq → Cq) : (b.updCq k l f).stg = b.stg := rfl
@[simp] theorem Blk.hlat_updCq (k l : Nat) (f : Cq → Cq) : (b.updCq k l f).hlat = b.hlat := rfl
@[simp] theorem Blk.tbLat_updCq (k l : Nat) (f : Cq → Cq) : (b.updCq k l f).tbLat = b.tbLat := rfl
@[simp] theorem Blk.hostFrames_updCq (k l : Nat) (f : Cq → Cq) : (b.updCq k l f).hostFrames = b.hostFrames := rfl
@[simp] theorem Blk.preEpoch_updCq (k l : Nat) (f : Cq → Cq) : (b.updCq k l f).preEpoch = b.preEpoch := rfl
@[simp] theorem Blk.halfDown_updCq (k l : Nat) (f : Cq → Cq) : (b.updCq k l f).halfDown = b.halfDown := rfl
@[simp] theorem Blk.mssWq_updCq (k l : Nat) (f : Cq → Cq) : (b.updCq k l f).mssWq = b.mssWq := rfl
@[simp] theorem Blk.mssCq_updCq (k l : Nat) (f : Cq → Cq) : (b.updCq k l f).mssCq = b.mssCq := rfl
@[simp] theorem Blk.out_updCq (k l : Nat) (f : Cq → Cq) : (b.updCq k l f).out = b.out := rfl
@[simp] theorem Blk.fresh_updCq (k l : Nat) (f : Cq → Cq) : (b.updCq k l f).fresh = b.fresh := rfl
@[simp] theorem Blk.boot_updCq (k l : Nat) (f : Cq → Cq) : (b.updCq k l f).boot = b.boot := rfl
@[simp] theorem Blk.ctl_updCq (k l : Nat) (f : Cq → Cq) : (b.updCq k l f).ctl = b.ctl := rfl
@[simp] theorem Blk.keys_updCq (k l : Nat) (f : Cq → Cq) : (b.updCq k l f).keys = b.keys := rfl
@[simp] theorem Blk.rmt_updCq (k l : Nat) (f : Cq → Cq) : (b.updCq k l f).rmt = b.rmt := rfl
@[simp] theorem Blk.insts_updCq (k l : Nat) (f : Cq → Cq) : (b.updCq k l f).insts = b.insts := rfl
@[simp] theorem Blk.cores_updCq (k l : Nat) (f : Cq → Cq) : (b.updCq k l f).cores = b.cores := rfl
@[simp] theorem Blk.port_updEq (k l : Nat) (f : EvQ → EvQ) (h : Nat) :
    (b.updEq k l f).port h = b.port h := rfl
@[simp] theorem Blk.fn_updEq (k l : Nat) (f : EvQ → EvQ) (h : Nat) (f1 : Bool) :
    (b.updEq k l f).fn h f1 = b.fn h f1 := rfl
@[simp] theorem Blk.wq_updEq (k l : Nat) (f : EvQ → EvQ) (i : Nat) (q : Nat) :
    (b.updEq k l f).wq i q = b.wq i q := rfl
@[simp] theorem Blk.cq_updEq (k l : Nat) (f : EvQ → EvQ) (i : Nat) (q : Nat) :
    (b.updEq k l f).cq i q = b.cq i q := rfl
@[simp] theorem Blk.inst_updEq (k l : Nat) (f : EvQ → EvQ) (i : Nat) :
    (b.updEq k l f).inst i = b.inst i := rfl
@[simp] theorem Blk.thread_updEq (k l : Nat) (f : EvQ → EvQ) (i : Nat) :
    (b.updEq k l f).thread i = b.thread i := rfl
@[simp] theorem Blk.core_updEq (k l : Nat) (f : EvQ → EvQ) (i : Nat) :
    (b.updEq k l f).core i = b.core i := rfl
@[simp] theorem Blk.chan_updEq (k l : Nat) (f : EvQ → EvQ) (i : Nat) :
    (b.updEq k l f).chan i = b.chan i := rfl
@[simp] theorem Blk.group_updEq (k l : Nat) (f : EvQ → EvQ) (i : Nat) :
    (b.updEq k l f).group i = b.group i := rfl
@[simp] theorem Blk.fq_updEq (k l : Nat) (f : EvQ → EvQ) (hf : Half) :
    (b.updEq k l f).fq hf = b.fq hf := rfl
@[simp] theorem Blk.pipe_updEq (k l : Nat) (f : EvQ → EvQ) (i : Nat) :
    (b.updEq k l f).pipe i = b.pipe i := rfl
@[simp] theorem Blk.lane_updEq (k l : Nat) (f : EvQ → EvQ) (i : Nat) :
    (b.updEq k l f).lane i = b.lane i := rfl
@[simp] theorem Blk.dsport_updEq (k l : Nat) (f : EvQ → EvQ) (i : Nat) :
    (b.updEq k l f).dsport i = b.dsport i := rfl
@[simp] theorem Blk.eng_updEq (k l : Nat) (f : EvQ → EvQ) (h : Nat) :
    (b.updEq k l f).eng h = b.eng h := rfl
@[simp] theorem Blk.chn_updEq (k l : Nat) (f : EvQ → EvQ) (h : Nat) (i : Nat) :
    (b.updEq k l f).chn h i = b.chn h i := rfl
@[simp] theorem Blk.slot_updEq (k l : Nat) (f : EvQ → EvQ) (i : Nat) :
    (b.updEq k l f).slot i = b.slot i := rfl
@[simp] theorem Blk.sa_updEq (k l : Nat) (f : EvQ → EvQ) (i : Nat) :
    (b.updEq k l f).sa i = b.sa i := rfl
@[simp] theorem Blk.unit_updEq (k l : Nat) (f : EvQ → EvQ) (i : Nat) :
    (b.updEq k l f).unit i = b.unit i := rfl
@[simp] theorem Blk.qp_updEq (k l : Nat) (f : EvQ → EvQ) (i : Nat) :
    (b.updEq k l f).qp i = b.qp i := rfl
@[simp] theorem Blk.trig_updEq (k l : Nat) (f : EvQ → EvQ) (i : Nat) :
    (b.updEq k l f).trig i = b.trig i := rfl
@[simp] theorem Blk.bport_updEq (k l : Nat) (f : EvQ → EvQ) (h : Nat) :
    (b.updEq k l f).bport h = b.bport h := rfl
@[simp] theorem Blk.ctlq_updEq (k l : Nat) (f : EvQ → EvQ) (i : Nat) :
    (b.updEq k l f).ctlq i = b.ctlq i := rfl
@[simp] theorem Blk.scan_updEq (k l : Nat) (f : EvQ → EvQ) (i : Nat) :
    (b.updEq k l f).scan i = b.scan i := rfl
@[simp] theorem Blk.cfg_updEq (k l : Nat) (f : EvQ → EvQ) : (b.updEq k l f).cfg = b.cfg := rfl
@[simp] theorem Blk.byte_updEq (k l : Nat) (f : EvQ → EvQ) (i : Nat) :
    (b.updEq k l f).byte i = b.byte i := rfl
@[simp] theorem Blk.clk_updEq (k l : Nat) (f : EvQ → EvQ) : (b.updEq k l f).clk = b.clk := rfl
@[simp] theorem Blk.spd_updEq (k l : Nat) (f : EvQ → EvQ) : (b.updEq k l f).spd = b.spd := rfl
@[simp] theorem Blk.brg_updEq (k l : Nat) (f : EvQ → EvQ) : (b.updEq k l f).brg = b.brg := rfl
@[simp] theorem Blk.mem_updEq (k l : Nat) (f : EvQ → EvQ) : (b.updEq k l f).mem = b.mem := rfl
@[simp] theorem Blk.poison_updEq (k l : Nat) (f : EvQ → EvQ) : (b.updEq k l f).poison = b.poison := rfl
@[simp] theorem Blk.dir_updEq (k l : Nat) (f : EvQ → EvQ) : (b.updEq k l f).dir = b.dir := rfl
@[simp] theorem Blk.hog_updEq (k l : Nat) (f : EvQ → EvQ) : (b.updEq k l f).hog = b.hog := rfl
@[simp] theorem Blk.mss_updEq (k l : Nat) (f : EvQ → EvQ) : (b.updEq k l f).mss = b.mss := rfl
@[simp] theorem Blk.rel_updEq (k l : Nat) (f : EvQ → EvQ) : (b.updEq k l f).rel = b.rel := rfl
@[simp] theorem Blk.elec_updEq (k l : Nat) (f : EvQ → EvQ) : (b.updEq k l f).elec = b.elec := rfl
@[simp] theorem Blk.stg_updEq (k l : Nat) (f : EvQ → EvQ) : (b.updEq k l f).stg = b.stg := rfl
@[simp] theorem Blk.hlat_updEq (k l : Nat) (f : EvQ → EvQ) : (b.updEq k l f).hlat = b.hlat := rfl
@[simp] theorem Blk.tbLat_updEq (k l : Nat) (f : EvQ → EvQ) : (b.updEq k l f).tbLat = b.tbLat := rfl
@[simp] theorem Blk.hostFrames_updEq (k l : Nat) (f : EvQ → EvQ) : (b.updEq k l f).hostFrames = b.hostFrames := rfl
@[simp] theorem Blk.preEpoch_updEq (k l : Nat) (f : EvQ → EvQ) : (b.updEq k l f).preEpoch = b.preEpoch := rfl
@[simp] theorem Blk.halfDown_updEq (k l : Nat) (f : EvQ → EvQ) : (b.updEq k l f).halfDown = b.halfDown := rfl
@[simp] theorem Blk.mssWq_updEq (k l : Nat) (f : EvQ → EvQ) : (b.updEq k l f).mssWq = b.mssWq := rfl
@[simp] theorem Blk.mssCq_updEq (k l : Nat) (f : EvQ → EvQ) : (b.updEq k l f).mssCq = b.mssCq := rfl
@[simp] theorem Blk.out_updEq (k l : Nat) (f : EvQ → EvQ) : (b.updEq k l f).out = b.out := rfl
@[simp] theorem Blk.fresh_updEq (k l : Nat) (f : EvQ → EvQ) : (b.updEq k l f).fresh = b.fresh := rfl
@[simp] theorem Blk.boot_updEq (k l : Nat) (f : EvQ → EvQ) : (b.updEq k l f).boot = b.boot := rfl
@[simp] theorem Blk.ctl_updEq (k l : Nat) (f : EvQ → EvQ) : (b.updEq k l f).ctl = b.ctl := rfl
@[simp] theorem Blk.keys_updEq (k l : Nat) (f : EvQ → EvQ) : (b.updEq k l f).keys = b.keys := rfl
@[simp] theorem Blk.rmt_updEq (k l : Nat) (f : EvQ → EvQ) : (b.updEq k l f).rmt = b.rmt := rfl
@[simp] theorem Blk.insts_updEq (k l : Nat) (f : EvQ → EvQ) : (b.updEq k l f).insts = b.insts := rfl
@[simp] theorem Blk.cores_updEq (k l : Nat) (f : EvQ → EvQ) : (b.updEq k l f).cores = b.cores := rfl
@[simp] theorem Blk.port_updInst (k : Nat) (f : InstDyn → InstDyn) (h : Nat) :
    (b.updInst k f).port h = b.port h := rfl
@[simp] theorem Blk.fn_updInst (k : Nat) (f : InstDyn → InstDyn) (h : Nat) (f1 : Bool) :
    (b.updInst k f).fn h f1 = b.fn h f1 := rfl
@[simp] theorem Blk.wq_updInst (k : Nat) (f : InstDyn → InstDyn) (i : Nat) (q : Nat) :
    (b.updInst k f).wq i q = b.wq i q := rfl
@[simp] theorem Blk.cq_updInst (k : Nat) (f : InstDyn → InstDyn) (i : Nat) (q : Nat) :
    (b.updInst k f).cq i q = b.cq i q := rfl
@[simp] theorem Blk.eq_updInst (k : Nat) (f : InstDyn → InstDyn) (i : Nat) (q : Nat) :
    (b.updInst k f).eq i q = b.eq i q := rfl
@[simp] theorem Blk.thread_updInst (k : Nat) (f : InstDyn → InstDyn) (i : Nat) :
    (b.updInst k f).thread i = b.thread i := rfl
@[simp] theorem Blk.core_updInst (k : Nat) (f : InstDyn → InstDyn) (i : Nat) :
    (b.updInst k f).core i = b.core i := rfl
@[simp] theorem Blk.chan_updInst (k : Nat) (f : InstDyn → InstDyn) (i : Nat) :
    (b.updInst k f).chan i = b.chan i := rfl
@[simp] theorem Blk.group_updInst (k : Nat) (f : InstDyn → InstDyn) (i : Nat) :
    (b.updInst k f).group i = b.group i := rfl
@[simp] theorem Blk.fq_updInst (k : Nat) (f : InstDyn → InstDyn) (hf : Half) :
    (b.updInst k f).fq hf = b.fq hf := rfl
@[simp] theorem Blk.pipe_updInst (k : Nat) (f : InstDyn → InstDyn) (i : Nat) :
    (b.updInst k f).pipe i = b.pipe i := rfl
@[simp] theorem Blk.lane_updInst (k : Nat) (f : InstDyn → InstDyn) (i : Nat) :
    (b.updInst k f).lane i = b.lane i := rfl
@[simp] theorem Blk.dsport_updInst (k : Nat) (f : InstDyn → InstDyn) (i : Nat) :
    (b.updInst k f).dsport i = b.dsport i := rfl
@[simp] theorem Blk.eng_updInst (k : Nat) (f : InstDyn → InstDyn) (h : Nat) :
    (b.updInst k f).eng h = b.eng h := rfl
@[simp] theorem Blk.chn_updInst (k : Nat) (f : InstDyn → InstDyn) (h : Nat) (i : Nat) :
    (b.updInst k f).chn h i = b.chn h i := rfl
@[simp] theorem Blk.slot_updInst (k : Nat) (f : InstDyn → InstDyn) (i : Nat) :
    (b.updInst k f).slot i = b.slot i := rfl
@[simp] theorem Blk.sa_updInst (k : Nat) (f : InstDyn → InstDyn) (i : Nat) :
    (b.updInst k f).sa i = b.sa i := rfl
@[simp] theorem Blk.unit_updInst (k : Nat) (f : InstDyn → InstDyn) (i : Nat) :
    (b.updInst k f).unit i = b.unit i := rfl
@[simp] theorem Blk.qp_updInst (k : Nat) (f : InstDyn → InstDyn) (i : Nat) :
    (b.updInst k f).qp i = b.qp i := rfl
@[simp] theorem Blk.trig_updInst (k : Nat) (f : InstDyn → InstDyn) (i : Nat) :
    (b.updInst k f).trig i = b.trig i := rfl
@[simp] theorem Blk.bport_updInst (k : Nat) (f : InstDyn → InstDyn) (h : Nat) :
    (b.updInst k f).bport h = b.bport h := rfl
@[simp] theorem Blk.ctlq_updInst (k : Nat) (f : InstDyn → InstDyn) (i : Nat) :
    (b.updInst k f).ctlq i = b.ctlq i := rfl
@[simp] theorem Blk.scan_updInst (k : Nat) (f : InstDyn → InstDyn) (i : Nat) :
    (b.updInst k f).scan i = b.scan i := rfl
@[simp] theorem Blk.cfg_updInst (k : Nat) (f : InstDyn → InstDyn) : (b.updInst k f).cfg = b.cfg := rfl
@[simp] theorem Blk.byte_updInst (k : Nat) (f : InstDyn → InstDyn) (i : Nat) :
    (b.updInst k f).byte i = b.byte i := rfl
@[simp] theorem Blk.clk_updInst (k : Nat) (f : InstDyn → InstDyn) : (b.updInst k f).clk = b.clk := rfl
@[simp] theorem Blk.spd_updInst (k : Nat) (f : InstDyn → InstDyn) : (b.updInst k f).spd = b.spd := rfl
@[simp] theorem Blk.brg_updInst (k : Nat) (f : InstDyn → InstDyn) : (b.updInst k f).brg = b.brg := rfl
@[simp] theorem Blk.mem_updInst (k : Nat) (f : InstDyn → InstDyn) : (b.updInst k f).mem = b.mem := rfl
@[simp] theorem Blk.poison_updInst (k : Nat) (f : InstDyn → InstDyn) : (b.updInst k f).poison = b.poison := rfl
@[simp] theorem Blk.dir_updInst (k : Nat) (f : InstDyn → InstDyn) : (b.updInst k f).dir = b.dir := rfl
@[simp] theorem Blk.hog_updInst (k : Nat) (f : InstDyn → InstDyn) : (b.updInst k f).hog = b.hog := rfl
@[simp] theorem Blk.mss_updInst (k : Nat) (f : InstDyn → InstDyn) : (b.updInst k f).mss = b.mss := rfl
@[simp] theorem Blk.rel_updInst (k : Nat) (f : InstDyn → InstDyn) : (b.updInst k f).rel = b.rel := rfl
@[simp] theorem Blk.elec_updInst (k : Nat) (f : InstDyn → InstDyn) : (b.updInst k f).elec = b.elec := rfl
@[simp] theorem Blk.stg_updInst (k : Nat) (f : InstDyn → InstDyn) : (b.updInst k f).stg = b.stg := rfl
@[simp] theorem Blk.hlat_updInst (k : Nat) (f : InstDyn → InstDyn) : (b.updInst k f).hlat = b.hlat := rfl
@[simp] theorem Blk.tbLat_updInst (k : Nat) (f : InstDyn → InstDyn) : (b.updInst k f).tbLat = b.tbLat := rfl
@[simp] theorem Blk.hostFrames_updInst (k : Nat) (f : InstDyn → InstDyn) : (b.updInst k f).hostFrames = b.hostFrames := rfl
@[simp] theorem Blk.preEpoch_updInst (k : Nat) (f : InstDyn → InstDyn) : (b.updInst k f).preEpoch = b.preEpoch := rfl
@[simp] theorem Blk.halfDown_updInst (k : Nat) (f : InstDyn → InstDyn) : (b.updInst k f).halfDown = b.halfDown := rfl
@[simp] theorem Blk.mssWq_updInst (k : Nat) (f : InstDyn → InstDyn) : (b.updInst k f).mssWq = b.mssWq := rfl
@[simp] theorem Blk.mssCq_updInst (k : Nat) (f : InstDyn → InstDyn) : (b.updInst k f).mssCq = b.mssCq := rfl
@[simp] theorem Blk.out_updInst (k : Nat) (f : InstDyn → InstDyn) : (b.updInst k f).out = b.out := rfl
@[simp] theorem Blk.fresh_updInst (k : Nat) (f : InstDyn → InstDyn) : (b.updInst k f).fresh = b.fresh := rfl
@[simp] theorem Blk.boot_updInst (k : Nat) (f : InstDyn → InstDyn) : (b.updInst k f).boot = b.boot := rfl
@[simp] theorem Blk.ctl_updInst (k : Nat) (f : InstDyn → InstDyn) : (b.updInst k f).ctl = b.ctl := rfl
@[simp] theorem Blk.keys_updInst (k : Nat) (f : InstDyn → InstDyn) : (b.updInst k f).keys = b.keys := rfl
@[simp] theorem Blk.rmt_updInst (k : Nat) (f : InstDyn → InstDyn) : (b.updInst k f).rmt = b.rmt := rfl
@[simp] theorem Blk.cores_updInst (k : Nat) (f : InstDyn → InstDyn) : (b.updInst k f).cores = b.cores := rfl
@[simp] theorem Blk.port_updThread (k : Nat) (f : Thread → Thread) (h : Nat) :
    (b.updThread k f).port h = b.port h := rfl
@[simp] theorem Blk.fn_updThread (k : Nat) (f : Thread → Thread) (h : Nat) (f1 : Bool) :
    (b.updThread k f).fn h f1 = b.fn h f1 := rfl
@[simp] theorem Blk.wq_updThread (k : Nat) (f : Thread → Thread) (i : Nat) (q : Nat) :
    (b.updThread k f).wq i q = b.wq i q := rfl
@[simp] theorem Blk.cq_updThread (k : Nat) (f : Thread → Thread) (i : Nat) (q : Nat) :
    (b.updThread k f).cq i q = b.cq i q := rfl
@[simp] theorem Blk.eq_updThread (k : Nat) (f : Thread → Thread) (i : Nat) (q : Nat) :
    (b.updThread k f).eq i q = b.eq i q := rfl
@[simp] theorem Blk.inst_updThread (k : Nat) (f : Thread → Thread) (i : Nat) :
    (b.updThread k f).inst i = b.inst i := rfl
@[simp] theorem Blk.core_updThread (k : Nat) (f : Thread → Thread) (i : Nat) :
    (b.updThread k f).core i = b.core i := rfl
@[simp] theorem Blk.chan_updThread (k : Nat) (f : Thread → Thread) (i : Nat) :
    (b.updThread k f).chan i = b.chan i := rfl
@[simp] theorem Blk.group_updThread (k : Nat) (f : Thread → Thread) (i : Nat) :
    (b.updThread k f).group i = b.group i := rfl
@[simp] theorem Blk.fq_updThread (k : Nat) (f : Thread → Thread) (hf : Half) :
    (b.updThread k f).fq hf = b.fq hf := rfl
@[simp] theorem Blk.pipe_updThread (k : Nat) (f : Thread → Thread) (i : Nat) :
    (b.updThread k f).pipe i = b.pipe i := rfl
@[simp] theorem Blk.lane_updThread (k : Nat) (f : Thread → Thread) (i : Nat) :
    (b.updThread k f).lane i = b.lane i := rfl
@[simp] theorem Blk.dsport_updThread (k : Nat) (f : Thread → Thread) (i : Nat) :
    (b.updThread k f).dsport i = b.dsport i := rfl
@[simp] theorem Blk.eng_updThread (k : Nat) (f : Thread → Thread) (h : Nat) :
    (b.updThread k f).eng h = b.eng h := rfl
@[simp] theorem Blk.chn_updThread (k : Nat) (f : Thread → Thread) (h : Nat) (i : Nat) :
    (b.updThread k f).chn h i = b.chn h i := rfl
@[simp] theorem Blk.slot_updThread (k : Nat) (f : Thread → Thread) (i : Nat) :
    (b.updThread k f).slot i = b.slot i := rfl
@[simp] theorem Blk.sa_updThread (k : Nat) (f : Thread → Thread) (i : Nat) :
    (b.updThread k f).sa i = b.sa i := rfl
@[simp] theorem Blk.unit_updThread (k : Nat) (f : Thread → Thread) (i : Nat) :
    (b.updThread k f).unit i = b.unit i := rfl
@[simp] theorem Blk.qp_updThread (k : Nat) (f : Thread → Thread) (i : Nat) :
    (b.updThread k f).qp i = b.qp i := rfl
@[simp] theorem Blk.trig_updThread (k : Nat) (f : Thread → Thread) (i : Nat) :
    (b.updThread k f).trig i = b.trig i := rfl
@[simp] theorem Blk.bport_updThread (k : Nat) (f : Thread → Thread) (h : Nat) :
    (b.updThread k f).bport h = b.bport h := rfl
@[simp] theorem Blk.ctlq_updThread (k : Nat) (f : Thread → Thread) (i : Nat) :
    (b.updThread k f).ctlq i = b.ctlq i := rfl
@[simp] theorem Blk.scan_updThread (k : Nat) (f : Thread → Thread) (i : Nat) :
    (b.updThread k f).scan i = b.scan i := rfl
@[simp] theorem Blk.cfg_updThread (k : Nat) (f : Thread → Thread) : (b.updThread k f).cfg = b.cfg := rfl
@[simp] theorem Blk.byte_updThread (k : Nat) (f : Thread → Thread) (i : Nat) :
    (b.updThread k f).byte i = b.byte i := rfl
@[simp] theorem Blk.clk_updThread (k : Nat) (f : Thread → Thread) : (b.updThread k f).clk = b.clk := rfl
@[simp] theorem Blk.spd_updThread (k : Nat) (f : Thread → Thread) : (b.updThread k f).spd = b.spd := rfl
@[simp] theorem Blk.brg_updThread (k : Nat) (f : Thread → Thread) : (b.updThread k f).brg = b.brg := rfl
@[simp] theorem Blk.mem_updThread (k : Nat) (f : Thread → Thread) : (b.updThread k f).mem = b.mem := rfl
@[simp] theorem Blk.poison_updThread (k : Nat) (f : Thread → Thread) : (b.updThread k f).poison = b.poison := rfl
@[simp] theorem Blk.dir_updThread (k : Nat) (f : Thread → Thread) : (b.updThread k f).dir = b.dir := rfl
@[simp] theorem Blk.hog_updThread (k : Nat) (f : Thread → Thread) : (b.updThread k f).hog = b.hog := rfl
@[simp] theorem Blk.mss_updThread (k : Nat) (f : Thread → Thread) : (b.updThread k f).mss = b.mss := rfl
@[simp] theorem Blk.rel_updThread (k : Nat) (f : Thread → Thread) : (b.updThread k f).rel = b.rel := rfl
@[simp] theorem Blk.elec_updThread (k : Nat) (f : Thread → Thread) : (b.updThread k f).elec = b.elec := rfl
@[simp] theorem Blk.stg_updThread (k : Nat) (f : Thread → Thread) : (b.updThread k f).stg = b.stg := rfl
@[simp] theorem Blk.hlat_updThread (k : Nat) (f : Thread → Thread) : (b.updThread k f).hlat = b.hlat := rfl
@[simp] theorem Blk.tbLat_updThread (k : Nat) (f : Thread → Thread) : (b.updThread k f).tbLat = b.tbLat := rfl
@[simp] theorem Blk.hostFrames_updThread (k : Nat) (f : Thread → Thread) : (b.updThread k f).hostFrames = b.hostFrames := rfl
@[simp] theorem Blk.preEpoch_updThread (k : Nat) (f : Thread → Thread) : (b.updThread k f).preEpoch = b.preEpoch := rfl
@[simp] theorem Blk.halfDown_updThread (k : Nat) (f : Thread → Thread) : (b.updThread k f).halfDown = b.halfDown := rfl
@[simp] theorem Blk.mssWq_updThread (k : Nat) (f : Thread → Thread) : (b.updThread k f).mssWq = b.mssWq := rfl
@[simp] theorem Blk.mssCq_updThread (k : Nat) (f : Thread → Thread) : (b.updThread k f).mssCq = b.mssCq := rfl
@[simp] theorem Blk.out_updThread (k : Nat) (f : Thread → Thread) : (b.updThread k f).out = b.out := rfl
@[simp] theorem Blk.fresh_updThread (k : Nat) (f : Thread → Thread) : (b.updThread k f).fresh = b.fresh := rfl
@[simp] theorem Blk.boot_updThread (k : Nat) (f : Thread → Thread) : (b.updThread k f).boot = b.boot := rfl
@[simp] theorem Blk.ctl_updThread (k : Nat) (f : Thread → Thread) : (b.updThread k f).ctl = b.ctl := rfl
@[simp] theorem Blk.keys_updThread (k : Nat) (f : Thread → Thread) : (b.updThread k f).keys = b.keys := rfl
@[simp] theorem Blk.rmt_updThread (k : Nat) (f : Thread → Thread) : (b.updThread k f).rmt = b.rmt := rfl
@[simp] theorem Blk.insts_updThread (k : Nat) (f : Thread → Thread) : (b.updThread k f).insts = b.insts := rfl
@[simp] theorem Blk.port_updCore (k : Nat) (f : Core → Core) (h : Nat) :
    (b.updCore k f).port h = b.port h := rfl
@[simp] theorem Blk.fn_updCore (k : Nat) (f : Core → Core) (h : Nat) (f1 : Bool) :
    (b.updCore k f).fn h f1 = b.fn h f1 := rfl
@[simp] theorem Blk.wq_updCore (k : Nat) (f : Core → Core) (i : Nat) (q : Nat) :
    (b.updCore k f).wq i q = b.wq i q := rfl
@[simp] theorem Blk.cq_updCore (k : Nat) (f : Core → Core) (i : Nat) (q : Nat) :
    (b.updCore k f).cq i q = b.cq i q := rfl
@[simp] theorem Blk.eq_updCore (k : Nat) (f : Core → Core) (i : Nat) (q : Nat) :
    (b.updCore k f).eq i q = b.eq i q := rfl
@[simp] theorem Blk.inst_updCore (k : Nat) (f : Core → Core) (i : Nat) :
    (b.updCore k f).inst i = b.inst i := rfl
@[simp] theorem Blk.thread_updCore (k : Nat) (f : Core → Core) (i : Nat) :
    (b.updCore k f).thread i = b.thread i := rfl
@[simp] theorem Blk.chan_updCore (k : Nat) (f : Core → Core) (i : Nat) :
    (b.updCore k f).chan i = b.chan i := rfl
@[simp] theorem Blk.group_updCore (k : Nat) (f : Core → Core) (i : Nat) :
    (b.updCore k f).group i = b.group i := rfl
@[simp] theorem Blk.fq_updCore (k : Nat) (f : Core → Core) (hf : Half) :
    (b.updCore k f).fq hf = b.fq hf := rfl
@[simp] theorem Blk.pipe_updCore (k : Nat) (f : Core → Core) (i : Nat) :
    (b.updCore k f).pipe i = b.pipe i := rfl
@[simp] theorem Blk.lane_updCore (k : Nat) (f : Core → Core) (i : Nat) :
    (b.updCore k f).lane i = b.lane i := rfl
@[simp] theorem Blk.dsport_updCore (k : Nat) (f : Core → Core) (i : Nat) :
    (b.updCore k f).dsport i = b.dsport i := rfl
@[simp] theorem Blk.eng_updCore (k : Nat) (f : Core → Core) (h : Nat) :
    (b.updCore k f).eng h = b.eng h := rfl
@[simp] theorem Blk.chn_updCore (k : Nat) (f : Core → Core) (h : Nat) (i : Nat) :
    (b.updCore k f).chn h i = b.chn h i := rfl
@[simp] theorem Blk.slot_updCore (k : Nat) (f : Core → Core) (i : Nat) :
    (b.updCore k f).slot i = b.slot i := rfl
@[simp] theorem Blk.sa_updCore (k : Nat) (f : Core → Core) (i : Nat) :
    (b.updCore k f).sa i = b.sa i := rfl
@[simp] theorem Blk.unit_updCore (k : Nat) (f : Core → Core) (i : Nat) :
    (b.updCore k f).unit i = b.unit i := rfl
@[simp] theorem Blk.qp_updCore (k : Nat) (f : Core → Core) (i : Nat) :
    (b.updCore k f).qp i = b.qp i := rfl
@[simp] theorem Blk.trig_updCore (k : Nat) (f : Core → Core) (i : Nat) :
    (b.updCore k f).trig i = b.trig i := rfl
@[simp] theorem Blk.bport_updCore (k : Nat) (f : Core → Core) (h : Nat) :
    (b.updCore k f).bport h = b.bport h := rfl
@[simp] theorem Blk.ctlq_updCore (k : Nat) (f : Core → Core) (i : Nat) :
    (b.updCore k f).ctlq i = b.ctlq i := rfl
@[simp] theorem Blk.scan_updCore (k : Nat) (f : Core → Core) (i : Nat) :
    (b.updCore k f).scan i = b.scan i := rfl
@[simp] theorem Blk.cfg_updCore (k : Nat) (f : Core → Core) : (b.updCore k f).cfg = b.cfg := rfl
@[simp] theorem Blk.byte_updCore (k : Nat) (f : Core → Core) (i : Nat) :
    (b.updCore k f).byte i = b.byte i := rfl
@[simp] theorem Blk.clk_updCore (k : Nat) (f : Core → Core) : (b.updCore k f).clk = b.clk := rfl
@[simp] theorem Blk.spd_updCore (k : Nat) (f : Core → Core) : (b.updCore k f).spd = b.spd := rfl
@[simp] theorem Blk.brg_updCore (k : Nat) (f : Core → Core) : (b.updCore k f).brg = b.brg := rfl
@[simp] theorem Blk.mem_updCore (k : Nat) (f : Core → Core) : (b.updCore k f).mem = b.mem := rfl
@[simp] theorem Blk.poison_updCore (k : Nat) (f : Core → Core) : (b.updCore k f).poison = b.poison := rfl
@[simp] theorem Blk.dir_updCore (k : Nat) (f : Core → Core) : (b.updCore k f).dir = b.dir := rfl
@[simp] theorem Blk.hog_updCore (k : Nat) (f : Core → Core) : (b.updCore k f).hog = b.hog := rfl
@[simp] theorem Blk.mss_updCore (k : Nat) (f : Core → Core) : (b.updCore k f).mss = b.mss := rfl
@[simp] theorem Blk.rel_updCore (k : Nat) (f : Core → Core) : (b.updCore k f).rel = b.rel := rfl
@[simp] theorem Blk.elec_updCore (k : Nat) (f : Core → Core) : (b.updCore k f).elec = b.elec := rfl
@[simp] theorem Blk.stg_updCore (k : Nat) (f : Core → Core) : (b.updCore k f).stg = b.stg := rfl
@[simp] theorem Blk.hlat_updCore (k : Nat) (f : Core → Core) : (b.updCore k f).hlat = b.hlat := rfl
@[simp] theorem Blk.tbLat_updCore (k : Nat) (f : Core → Core) : (b.updCore k f).tbLat = b.tbLat := rfl
@[simp] theorem Blk.hostFrames_updCore (k : Nat) (f : Core → Core) : (b.updCore k f).hostFrames = b.hostFrames := rfl
@[simp] theorem Blk.preEpoch_updCore (k : Nat) (f : Core → Core) : (b.updCore k f).preEpoch = b.preEpoch := rfl
@[simp] theorem Blk.halfDown_updCore (k : Nat) (f : Core → Core) : (b.updCore k f).halfDown = b.halfDown := rfl
@[simp] theorem Blk.mssWq_updCore (k : Nat) (f : Core → Core) : (b.updCore k f).mssWq = b.mssWq := rfl
@[simp] theorem Blk.mssCq_updCore (k : Nat) (f : Core → Core) : (b.updCore k f).mssCq = b.mssCq := rfl
@[simp] theorem Blk.out_updCore (k : Nat) (f : Core → Core) : (b.updCore k f).out = b.out := rfl
@[simp] theorem Blk.fresh_updCore (k : Nat) (f : Core → Core) : (b.updCore k f).fresh = b.fresh := rfl
@[simp] theorem Blk.boot_updCore (k : Nat) (f : Core → Core) : (b.updCore k f).boot = b.boot := rfl
@[simp] theorem Blk.ctl_updCore (k : Nat) (f : Core → Core) : (b.updCore k f).ctl = b.ctl := rfl
@[simp] theorem Blk.keys_updCore (k : Nat) (f : Core → Core) : (b.updCore k f).keys = b.keys := rfl
@[simp] theorem Blk.rmt_updCore (k : Nat) (f : Core → Core) : (b.updCore k f).rmt = b.rmt := rfl
@[simp] theorem Blk.insts_updCore (k : Nat) (f : Core → Core) : (b.updCore k f).insts = b.insts := rfl
@[simp] theorem Blk.port_updChan (k : Nat) (f : Channel → Channel) (h : Nat) :
    (b.updChan k f).port h = b.port h := rfl
@[simp] theorem Blk.fn_updChan (k : Nat) (f : Channel → Channel) (h : Nat) (f1 : Bool) :
    (b.updChan k f).fn h f1 = b.fn h f1 := rfl
@[simp] theorem Blk.wq_updChan (k : Nat) (f : Channel → Channel) (i : Nat) (q : Nat) :
    (b.updChan k f).wq i q = b.wq i q := rfl
@[simp] theorem Blk.cq_updChan (k : Nat) (f : Channel → Channel) (i : Nat) (q : Nat) :
    (b.updChan k f).cq i q = b.cq i q := rfl
@[simp] theorem Blk.eq_updChan (k : Nat) (f : Channel → Channel) (i : Nat) (q : Nat) :
    (b.updChan k f).eq i q = b.eq i q := rfl
@[simp] theorem Blk.inst_updChan (k : Nat) (f : Channel → Channel) (i : Nat) :
    (b.updChan k f).inst i = b.inst i := rfl
@[simp] theorem Blk.thread_updChan (k : Nat) (f : Channel → Channel) (i : Nat) :
    (b.updChan k f).thread i = b.thread i := rfl
@[simp] theorem Blk.core_updChan (k : Nat) (f : Channel → Channel) (i : Nat) :
    (b.updChan k f).core i = b.core i := rfl
@[simp] theorem Blk.group_updChan (k : Nat) (f : Channel → Channel) (i : Nat) :
    (b.updChan k f).group i = b.group i := rfl
@[simp] theorem Blk.fq_updChan (k : Nat) (f : Channel → Channel) (hf : Half) :
    (b.updChan k f).fq hf = b.fq hf := rfl
@[simp] theorem Blk.pipe_updChan (k : Nat) (f : Channel → Channel) (i : Nat) :
    (b.updChan k f).pipe i = b.pipe i := rfl
@[simp] theorem Blk.lane_updChan (k : Nat) (f : Channel → Channel) (i : Nat) :
    (b.updChan k f).lane i = b.lane i := rfl
@[simp] theorem Blk.dsport_updChan (k : Nat) (f : Channel → Channel) (i : Nat) :
    (b.updChan k f).dsport i = b.dsport i := rfl
@[simp] theorem Blk.eng_updChan (k : Nat) (f : Channel → Channel) (h : Nat) :
    (b.updChan k f).eng h = b.eng h := rfl
@[simp] theorem Blk.chn_updChan (k : Nat) (f : Channel → Channel) (h : Nat) (i : Nat) :
    (b.updChan k f).chn h i = b.chn h i := rfl
@[simp] theorem Blk.slot_updChan (k : Nat) (f : Channel → Channel) (i : Nat) :
    (b.updChan k f).slot i = b.slot i := rfl
@[simp] theorem Blk.sa_updChan (k : Nat) (f : Channel → Channel) (i : Nat) :
    (b.updChan k f).sa i = b.sa i := rfl
@[simp] theorem Blk.unit_updChan (k : Nat) (f : Channel → Channel) (i : Nat) :
    (b.updChan k f).unit i = b.unit i := rfl
@[simp] theorem Blk.qp_updChan (k : Nat) (f : Channel → Channel) (i : Nat) :
    (b.updChan k f).qp i = b.qp i := rfl
@[simp] theorem Blk.trig_updChan (k : Nat) (f : Channel → Channel) (i : Nat) :
    (b.updChan k f).trig i = b.trig i := rfl
@[simp] theorem Blk.bport_updChan (k : Nat) (f : Channel → Channel) (h : Nat) :
    (b.updChan k f).bport h = b.bport h := rfl
@[simp] theorem Blk.ctlq_updChan (k : Nat) (f : Channel → Channel) (i : Nat) :
    (b.updChan k f).ctlq i = b.ctlq i := rfl
@[simp] theorem Blk.scan_updChan (k : Nat) (f : Channel → Channel) (i : Nat) :
    (b.updChan k f).scan i = b.scan i := rfl
@[simp] theorem Blk.cfg_updChan (k : Nat) (f : Channel → Channel) : (b.updChan k f).cfg = b.cfg := rfl
@[simp] theorem Blk.byte_updChan (k : Nat) (f : Channel → Channel) (i : Nat) :
    (b.updChan k f).byte i = b.byte i := rfl
@[simp] theorem Blk.clk_updChan (k : Nat) (f : Channel → Channel) : (b.updChan k f).clk = b.clk := rfl
@[simp] theorem Blk.spd_updChan (k : Nat) (f : Channel → Channel) : (b.updChan k f).spd = b.spd := rfl
@[simp] theorem Blk.brg_updChan (k : Nat) (f : Channel → Channel) : (b.updChan k f).brg = b.brg := rfl
@[simp] theorem Blk.mem_updChan (k : Nat) (f : Channel → Channel) : (b.updChan k f).mem = b.mem := rfl
@[simp] theorem Blk.poison_updChan (k : Nat) (f : Channel → Channel) : (b.updChan k f).poison = b.poison := rfl
@[simp] theorem Blk.dir_updChan (k : Nat) (f : Channel → Channel) : (b.updChan k f).dir = b.dir := rfl
@[simp] theorem Blk.hog_updChan (k : Nat) (f : Channel → Channel) : (b.updChan k f).hog = b.hog := rfl
@[simp] theorem Blk.mss_updChan (k : Nat) (f : Channel → Channel) : (b.updChan k f).mss = b.mss := rfl
@[simp] theorem Blk.rel_updChan (k : Nat) (f : Channel → Channel) : (b.updChan k f).rel = b.rel := rfl
@[simp] theorem Blk.elec_updChan (k : Nat) (f : Channel → Channel) : (b.updChan k f).elec = b.elec := rfl
@[simp] theorem Blk.stg_updChan (k : Nat) (f : Channel → Channel) : (b.updChan k f).stg = b.stg := rfl
@[simp] theorem Blk.hlat_updChan (k : Nat) (f : Channel → Channel) : (b.updChan k f).hlat = b.hlat := rfl
@[simp] theorem Blk.tbLat_updChan (k : Nat) (f : Channel → Channel) : (b.updChan k f).tbLat = b.tbLat := rfl
@[simp] theorem Blk.hostFrames_updChan (k : Nat) (f : Channel → Channel) : (b.updChan k f).hostFrames = b.hostFrames := rfl
@[simp] theorem Blk.preEpoch_updChan (k : Nat) (f : Channel → Channel) : (b.updChan k f).preEpoch = b.preEpoch := rfl
@[simp] theorem Blk.halfDown_updChan (k : Nat) (f : Channel → Channel) : (b.updChan k f).halfDown = b.halfDown := rfl
@[simp] theorem Blk.mssWq_updChan (k : Nat) (f : Channel → Channel) : (b.updChan k f).mssWq = b.mssWq := rfl
@[simp] theorem Blk.mssCq_updChan (k : Nat) (f : Channel → Channel) : (b.updChan k f).mssCq = b.mssCq := rfl
@[simp] theorem Blk.out_updChan (k : Nat) (f : Channel → Channel) : (b.updChan k f).out = b.out := rfl
@[simp] theorem Blk.fresh_updChan (k : Nat) (f : Channel → Channel) : (b.updChan k f).fresh = b.fresh := rfl
@[simp] theorem Blk.boot_updChan (k : Nat) (f : Channel → Channel) : (b.updChan k f).boot = b.boot := rfl
@[simp] theorem Blk.ctl_updChan (k : Nat) (f : Channel → Channel) : (b.updChan k f).ctl = b.ctl := rfl
@[simp] theorem Blk.keys_updChan (k : Nat) (f : Channel → Channel) : (b.updChan k f).keys = b.keys := rfl
@[simp] theorem Blk.rmt_updChan (k : Nat) (f : Channel → Channel) : (b.updChan k f).rmt = b.rmt := rfl
@[simp] theorem Blk.insts_updChan (k : Nat) (f : Channel → Channel) : (b.updChan k f).insts = b.insts := rfl
@[simp] theorem Blk.port_updGroup (k : Nat) (f : Group → Group) (h : Nat) :
    (b.updGroup k f).port h = b.port h := rfl
@[simp] theorem Blk.fn_updGroup (k : Nat) (f : Group → Group) (h : Nat) (f1 : Bool) :
    (b.updGroup k f).fn h f1 = b.fn h f1 := rfl
@[simp] theorem Blk.wq_updGroup (k : Nat) (f : Group → Group) (i : Nat) (q : Nat) :
    (b.updGroup k f).wq i q = b.wq i q := rfl
@[simp] theorem Blk.cq_updGroup (k : Nat) (f : Group → Group) (i : Nat) (q : Nat) :
    (b.updGroup k f).cq i q = b.cq i q := rfl
@[simp] theorem Blk.eq_updGroup (k : Nat) (f : Group → Group) (i : Nat) (q : Nat) :
    (b.updGroup k f).eq i q = b.eq i q := rfl
@[simp] theorem Blk.inst_updGroup (k : Nat) (f : Group → Group) (i : Nat) :
    (b.updGroup k f).inst i = b.inst i := rfl
@[simp] theorem Blk.thread_updGroup (k : Nat) (f : Group → Group) (i : Nat) :
    (b.updGroup k f).thread i = b.thread i := rfl
@[simp] theorem Blk.core_updGroup (k : Nat) (f : Group → Group) (i : Nat) :
    (b.updGroup k f).core i = b.core i := rfl
@[simp] theorem Blk.chan_updGroup (k : Nat) (f : Group → Group) (i : Nat) :
    (b.updGroup k f).chan i = b.chan i := rfl
@[simp] theorem Blk.fq_updGroup (k : Nat) (f : Group → Group) (hf : Half) :
    (b.updGroup k f).fq hf = b.fq hf := rfl
@[simp] theorem Blk.pipe_updGroup (k : Nat) (f : Group → Group) (i : Nat) :
    (b.updGroup k f).pipe i = b.pipe i := rfl
@[simp] theorem Blk.lane_updGroup (k : Nat) (f : Group → Group) (i : Nat) :
    (b.updGroup k f).lane i = b.lane i := rfl
@[simp] theorem Blk.dsport_updGroup (k : Nat) (f : Group → Group) (i : Nat) :
    (b.updGroup k f).dsport i = b.dsport i := rfl
@[simp] theorem Blk.eng_updGroup (k : Nat) (f : Group → Group) (h : Nat) :
    (b.updGroup k f).eng h = b.eng h := rfl
@[simp] theorem Blk.chn_updGroup (k : Nat) (f : Group → Group) (h : Nat) (i : Nat) :
    (b.updGroup k f).chn h i = b.chn h i := rfl
@[simp] theorem Blk.slot_updGroup (k : Nat) (f : Group → Group) (i : Nat) :
    (b.updGroup k f).slot i = b.slot i := rfl
@[simp] theorem Blk.sa_updGroup (k : Nat) (f : Group → Group) (i : Nat) :
    (b.updGroup k f).sa i = b.sa i := rfl
@[simp] theorem Blk.unit_updGroup (k : Nat) (f : Group → Group) (i : Nat) :
    (b.updGroup k f).unit i = b.unit i := rfl
@[simp] theorem Blk.qp_updGroup (k : Nat) (f : Group → Group) (i : Nat) :
    (b.updGroup k f).qp i = b.qp i := rfl
@[simp] theorem Blk.trig_updGroup (k : Nat) (f : Group → Group) (i : Nat) :
    (b.updGroup k f).trig i = b.trig i := rfl
@[simp] theorem Blk.bport_updGroup (k : Nat) (f : Group → Group) (h : Nat) :
    (b.updGroup k f).bport h = b.bport h := rfl
@[simp] theorem Blk.ctlq_updGroup (k : Nat) (f : Group → Group) (i : Nat) :
    (b.updGroup k f).ctlq i = b.ctlq i := rfl
@[simp] theorem Blk.scan_updGroup (k : Nat) (f : Group → Group) (i : Nat) :
    (b.updGroup k f).scan i = b.scan i := rfl
@[simp] theorem Blk.cfg_updGroup (k : Nat) (f : Group → Group) : (b.updGroup k f).cfg = b.cfg := rfl
@[simp] theorem Blk.byte_updGroup (k : Nat) (f : Group → Group) (i : Nat) :
    (b.updGroup k f).byte i = b.byte i := rfl
@[simp] theorem Blk.clk_updGroup (k : Nat) (f : Group → Group) : (b.updGroup k f).clk = b.clk := rfl
@[simp] theorem Blk.spd_updGroup (k : Nat) (f : Group → Group) : (b.updGroup k f).spd = b.spd := rfl
@[simp] theorem Blk.brg_updGroup (k : Nat) (f : Group → Group) : (b.updGroup k f).brg = b.brg := rfl
@[simp] theorem Blk.mem_updGroup (k : Nat) (f : Group → Group) : (b.updGroup k f).mem = b.mem := rfl
@[simp] theorem Blk.poison_updGroup (k : Nat) (f : Group → Group) : (b.updGroup k f).poison = b.poison := rfl
@[simp] theorem Blk.dir_updGroup (k : Nat) (f : Group → Group) : (b.updGroup k f).dir = b.dir := rfl
@[simp] theorem Blk.hog_updGroup (k : Nat) (f : Group → Group) : (b.updGroup k f).hog = b.hog := rfl
@[simp] theorem Blk.mss_updGroup (k : Nat) (f : Group → Group) : (b.updGroup k f).mss = b.mss := rfl
@[simp] theorem Blk.rel_updGroup (k : Nat) (f : Group → Group) : (b.updGroup k f).rel = b.rel := rfl
@[simp] theorem Blk.elec_updGroup (k : Nat) (f : Group → Group) : (b.updGroup k f).elec = b.elec := rfl
@[simp] theorem Blk.stg_updGroup (k : Nat) (f : Group → Group) : (b.updGroup k f).stg = b.stg := rfl
@[simp] theorem Blk.hlat_updGroup (k : Nat) (f : Group → Group) : (b.updGroup k f).hlat = b.hlat := rfl
@[simp] theorem Blk.tbLat_updGroup (k : Nat) (f : Group → Group) : (b.updGroup k f).tbLat = b.tbLat := rfl
@[simp] theorem Blk.hostFrames_updGroup (k : Nat) (f : Group → Group) : (b.updGroup k f).hostFrames = b.hostFrames := rfl
@[simp] theorem Blk.preEpoch_updGroup (k : Nat) (f : Group → Group) : (b.updGroup k f).preEpoch = b.preEpoch := rfl
@[simp] theorem Blk.halfDown_updGroup (k : Nat) (f : Group → Group) : (b.updGroup k f).halfDown = b.halfDown := rfl
@[simp] theorem Blk.mssWq_updGroup (k : Nat) (f : Group → Group) : (b.updGroup k f).mssWq = b.mssWq := rfl
@[simp] theorem Blk.mssCq_updGroup (k : Nat) (f : Group → Group) : (b.updGroup k f).mssCq = b.mssCq := rfl
@[simp] theorem Blk.out_updGroup (k : Nat) (f : Group → Group) : (b.updGroup k f).out = b.out := rfl
@[simp] theorem Blk.fresh_updGroup (k : Nat) (f : Group → Group) : (b.updGroup k f).fresh = b.fresh := rfl
@[simp] theorem Blk.boot_updGroup (k : Nat) (f : Group → Group) : (b.updGroup k f).boot = b.boot := rfl
@[simp] theorem Blk.ctl_updGroup (k : Nat) (f : Group → Group) : (b.updGroup k f).ctl = b.ctl := rfl
@[simp] theorem Blk.keys_updGroup (k : Nat) (f : Group → Group) : (b.updGroup k f).keys = b.keys := rfl
@[simp] theorem Blk.rmt_updGroup (k : Nat) (f : Group → Group) : (b.updGroup k f).rmt = b.rmt := rfl
@[simp] theorem Blk.insts_updGroup (k : Nat) (f : Group → Group) : (b.updGroup k f).insts = b.insts := rfl
@[simp] theorem Blk.port_updPipe (k : Nat) (f : Pipe → Pipe) (h : Nat) :
    (b.updPipe k f).port h = b.port h := rfl
@[simp] theorem Blk.fn_updPipe (k : Nat) (f : Pipe → Pipe) (h : Nat) (f1 : Bool) :
    (b.updPipe k f).fn h f1 = b.fn h f1 := rfl
@[simp] theorem Blk.wq_updPipe (k : Nat) (f : Pipe → Pipe) (i : Nat) (q : Nat) :
    (b.updPipe k f).wq i q = b.wq i q := rfl
@[simp] theorem Blk.cq_updPipe (k : Nat) (f : Pipe → Pipe) (i : Nat) (q : Nat) :
    (b.updPipe k f).cq i q = b.cq i q := rfl
@[simp] theorem Blk.eq_updPipe (k : Nat) (f : Pipe → Pipe) (i : Nat) (q : Nat) :
    (b.updPipe k f).eq i q = b.eq i q := rfl
@[simp] theorem Blk.inst_updPipe (k : Nat) (f : Pipe → Pipe) (i : Nat) :
    (b.updPipe k f).inst i = b.inst i := rfl
@[simp] theorem Blk.thread_updPipe (k : Nat) (f : Pipe → Pipe) (i : Nat) :
    (b.updPipe k f).thread i = b.thread i := rfl
@[simp] theorem Blk.core_updPipe (k : Nat) (f : Pipe → Pipe) (i : Nat) :
    (b.updPipe k f).core i = b.core i := rfl
@[simp] theorem Blk.chan_updPipe (k : Nat) (f : Pipe → Pipe) (i : Nat) :
    (b.updPipe k f).chan i = b.chan i := rfl
@[simp] theorem Blk.group_updPipe (k : Nat) (f : Pipe → Pipe) (i : Nat) :
    (b.updPipe k f).group i = b.group i := rfl
@[simp] theorem Blk.fq_updPipe (k : Nat) (f : Pipe → Pipe) (hf : Half) :
    (b.updPipe k f).fq hf = b.fq hf := rfl
@[simp] theorem Blk.lane_updPipe (k : Nat) (f : Pipe → Pipe) (i : Nat) :
    (b.updPipe k f).lane i = b.lane i := rfl
@[simp] theorem Blk.dsport_updPipe (k : Nat) (f : Pipe → Pipe) (i : Nat) :
    (b.updPipe k f).dsport i = b.dsport i := rfl
@[simp] theorem Blk.eng_updPipe (k : Nat) (f : Pipe → Pipe) (h : Nat) :
    (b.updPipe k f).eng h = b.eng h := rfl
@[simp] theorem Blk.chn_updPipe (k : Nat) (f : Pipe → Pipe) (h : Nat) (i : Nat) :
    (b.updPipe k f).chn h i = b.chn h i := rfl
@[simp] theorem Blk.slot_updPipe (k : Nat) (f : Pipe → Pipe) (i : Nat) :
    (b.updPipe k f).slot i = b.slot i := rfl
@[simp] theorem Blk.sa_updPipe (k : Nat) (f : Pipe → Pipe) (i : Nat) :
    (b.updPipe k f).sa i = b.sa i := rfl
@[simp] theorem Blk.unit_updPipe (k : Nat) (f : Pipe → Pipe) (i : Nat) :
    (b.updPipe k f).unit i = b.unit i := rfl
@[simp] theorem Blk.qp_updPipe (k : Nat) (f : Pipe → Pipe) (i : Nat) :
    (b.updPipe k f).qp i = b.qp i := rfl
@[simp] theorem Blk.trig_updPipe (k : Nat) (f : Pipe → Pipe) (i : Nat) :
    (b.updPipe k f).trig i = b.trig i := rfl
@[simp] theorem Blk.bport_updPipe (k : Nat) (f : Pipe → Pipe) (h : Nat) :
    (b.updPipe k f).bport h = b.bport h := rfl
@[simp] theorem Blk.ctlq_updPipe (k : Nat) (f : Pipe → Pipe) (i : Nat) :
    (b.updPipe k f).ctlq i = b.ctlq i := rfl
@[simp] theorem Blk.scan_updPipe (k : Nat) (f : Pipe → Pipe) (i : Nat) :
    (b.updPipe k f).scan i = b.scan i := rfl
@[simp] theorem Blk.cfg_updPipe (k : Nat) (f : Pipe → Pipe) : (b.updPipe k f).cfg = b.cfg := rfl
@[simp] theorem Blk.byte_updPipe (k : Nat) (f : Pipe → Pipe) (i : Nat) :
    (b.updPipe k f).byte i = b.byte i := rfl
@[simp] theorem Blk.clk_updPipe (k : Nat) (f : Pipe → Pipe) : (b.updPipe k f).clk = b.clk := rfl
@[simp] theorem Blk.spd_updPipe (k : Nat) (f : Pipe → Pipe) : (b.updPipe k f).spd = b.spd := rfl
@[simp] theorem Blk.brg_updPipe (k : Nat) (f : Pipe → Pipe) : (b.updPipe k f).brg = b.brg := rfl
@[simp] theorem Blk.mem_updPipe (k : Nat) (f : Pipe → Pipe) : (b.updPipe k f).mem = b.mem := rfl
@[simp] theorem Blk.poison_updPipe (k : Nat) (f : Pipe → Pipe) : (b.updPipe k f).poison = b.poison := rfl
@[simp] theorem Blk.dir_updPipe (k : Nat) (f : Pipe → Pipe) : (b.updPipe k f).dir = b.dir := rfl
@[simp] theorem Blk.hog_updPipe (k : Nat) (f : Pipe → Pipe) : (b.updPipe k f).hog = b.hog := rfl
@[simp] theorem Blk.mss_updPipe (k : Nat) (f : Pipe → Pipe) : (b.updPipe k f).mss = b.mss := rfl
@[simp] theorem Blk.rel_updPipe (k : Nat) (f : Pipe → Pipe) : (b.updPipe k f).rel = b.rel := rfl
@[simp] theorem Blk.elec_updPipe (k : Nat) (f : Pipe → Pipe) : (b.updPipe k f).elec = b.elec := rfl
@[simp] theorem Blk.stg_updPipe (k : Nat) (f : Pipe → Pipe) : (b.updPipe k f).stg = b.stg := rfl
@[simp] theorem Blk.hlat_updPipe (k : Nat) (f : Pipe → Pipe) : (b.updPipe k f).hlat = b.hlat := rfl
@[simp] theorem Blk.tbLat_updPipe (k : Nat) (f : Pipe → Pipe) : (b.updPipe k f).tbLat = b.tbLat := rfl
@[simp] theorem Blk.hostFrames_updPipe (k : Nat) (f : Pipe → Pipe) : (b.updPipe k f).hostFrames = b.hostFrames := rfl
@[simp] theorem Blk.preEpoch_updPipe (k : Nat) (f : Pipe → Pipe) : (b.updPipe k f).preEpoch = b.preEpoch := rfl
@[simp] theorem Blk.halfDown_updPipe (k : Nat) (f : Pipe → Pipe) : (b.updPipe k f).halfDown = b.halfDown := rfl
@[simp] theorem Blk.mssWq_updPipe (k : Nat) (f : Pipe → Pipe) : (b.updPipe k f).mssWq = b.mssWq := rfl
@[simp] theorem Blk.mssCq_updPipe (k : Nat) (f : Pipe → Pipe) : (b.updPipe k f).mssCq = b.mssCq := rfl
@[simp] theorem Blk.out_updPipe (k : Nat) (f : Pipe → Pipe) : (b.updPipe k f).out = b.out := rfl
@[simp] theorem Blk.fresh_updPipe (k : Nat) (f : Pipe → Pipe) : (b.updPipe k f).fresh = b.fresh := rfl
@[simp] theorem Blk.boot_updPipe (k : Nat) (f : Pipe → Pipe) : (b.updPipe k f).boot = b.boot := rfl
@[simp] theorem Blk.ctl_updPipe (k : Nat) (f : Pipe → Pipe) : (b.updPipe k f).ctl = b.ctl := rfl
@[simp] theorem Blk.keys_updPipe (k : Nat) (f : Pipe → Pipe) : (b.updPipe k f).keys = b.keys := rfl
@[simp] theorem Blk.rmt_updPipe (k : Nat) (f : Pipe → Pipe) : (b.updPipe k f).rmt = b.rmt := rfl
@[simp] theorem Blk.insts_updPipe (k : Nat) (f : Pipe → Pipe) : (b.updPipe k f).insts = b.insts := rfl
@[simp] theorem Blk.cores_updPipe (k : Nat) (f : Pipe → Pipe) : (b.updPipe k f).cores = b.cores := rfl
@[simp] theorem Blk.port_updLearn (k : Nat) (f : LearnUnit → LearnUnit) (h : Nat) :
    (b.updLearn k f).port h = b.port h := rfl
@[simp] theorem Blk.fn_updLearn (k : Nat) (f : LearnUnit → LearnUnit) (h : Nat) (f1 : Bool) :
    (b.updLearn k f).fn h f1 = b.fn h f1 := rfl
@[simp] theorem Blk.wq_updLearn (k : Nat) (f : LearnUnit → LearnUnit) (i : Nat) (q : Nat) :
    (b.updLearn k f).wq i q = b.wq i q := rfl
@[simp] theorem Blk.cq_updLearn (k : Nat) (f : LearnUnit → LearnUnit) (i : Nat) (q : Nat) :
    (b.updLearn k f).cq i q = b.cq i q := rfl
@[simp] theorem Blk.eq_updLearn (k : Nat) (f : LearnUnit → LearnUnit) (i : Nat) (q : Nat) :
    (b.updLearn k f).eq i q = b.eq i q := rfl
@[simp] theorem Blk.inst_updLearn (k : Nat) (f : LearnUnit → LearnUnit) (i : Nat) :
    (b.updLearn k f).inst i = b.inst i := rfl
@[simp] theorem Blk.thread_updLearn (k : Nat) (f : LearnUnit → LearnUnit) (i : Nat) :
    (b.updLearn k f).thread i = b.thread i := rfl
@[simp] theorem Blk.core_updLearn (k : Nat) (f : LearnUnit → LearnUnit) (i : Nat) :
    (b.updLearn k f).core i = b.core i := rfl
@[simp] theorem Blk.chan_updLearn (k : Nat) (f : LearnUnit → LearnUnit) (i : Nat) :
    (b.updLearn k f).chan i = b.chan i := rfl
@[simp] theorem Blk.group_updLearn (k : Nat) (f : LearnUnit → LearnUnit) (i : Nat) :
    (b.updLearn k f).group i = b.group i := rfl
@[simp] theorem Blk.fq_updLearn (k : Nat) (f : LearnUnit → LearnUnit) (hf : Half) :
    (b.updLearn k f).fq hf = b.fq hf := rfl
@[simp] theorem Blk.lane_updLearn (k : Nat) (f : LearnUnit → LearnUnit) (i : Nat) :
    (b.updLearn k f).lane i = b.lane i := rfl
@[simp] theorem Blk.dsport_updLearn (k : Nat) (f : LearnUnit → LearnUnit) (i : Nat) :
    (b.updLearn k f).dsport i = b.dsport i := rfl
@[simp] theorem Blk.eng_updLearn (k : Nat) (f : LearnUnit → LearnUnit) (h : Nat) :
    (b.updLearn k f).eng h = b.eng h := rfl
@[simp] theorem Blk.chn_updLearn (k : Nat) (f : LearnUnit → LearnUnit) (h : Nat) (i : Nat) :
    (b.updLearn k f).chn h i = b.chn h i := rfl
@[simp] theorem Blk.slot_updLearn (k : Nat) (f : LearnUnit → LearnUnit) (i : Nat) :
    (b.updLearn k f).slot i = b.slot i := rfl
@[simp] theorem Blk.sa_updLearn (k : Nat) (f : LearnUnit → LearnUnit) (i : Nat) :
    (b.updLearn k f).sa i = b.sa i := rfl
@[simp] theorem Blk.unit_updLearn (k : Nat) (f : LearnUnit → LearnUnit) (i : Nat) :
    (b.updLearn k f).unit i = b.unit i := rfl
@[simp] theorem Blk.qp_updLearn (k : Nat) (f : LearnUnit → LearnUnit) (i : Nat) :
    (b.updLearn k f).qp i = b.qp i := rfl
@[simp] theorem Blk.trig_updLearn (k : Nat) (f : LearnUnit → LearnUnit) (i : Nat) :
    (b.updLearn k f).trig i = b.trig i := rfl
@[simp] theorem Blk.bport_updLearn (k : Nat) (f : LearnUnit → LearnUnit) (h : Nat) :
    (b.updLearn k f).bport h = b.bport h := rfl
@[simp] theorem Blk.ctlq_updLearn (k : Nat) (f : LearnUnit → LearnUnit) (i : Nat) :
    (b.updLearn k f).ctlq i = b.ctlq i := rfl
@[simp] theorem Blk.scan_updLearn (k : Nat) (f : LearnUnit → LearnUnit) (i : Nat) :
    (b.updLearn k f).scan i = b.scan i := rfl
@[simp] theorem Blk.cfg_updLearn (k : Nat) (f : LearnUnit → LearnUnit) : (b.updLearn k f).cfg = b.cfg := rfl
@[simp] theorem Blk.byte_updLearn (k : Nat) (f : LearnUnit → LearnUnit) (i : Nat) :
    (b.updLearn k f).byte i = b.byte i := rfl
@[simp] theorem Blk.clk_updLearn (k : Nat) (f : LearnUnit → LearnUnit) : (b.updLearn k f).clk = b.clk := rfl
@[simp] theorem Blk.spd_updLearn (k : Nat) (f : LearnUnit → LearnUnit) : (b.updLearn k f).spd = b.spd := rfl
@[simp] theorem Blk.brg_updLearn (k : Nat) (f : LearnUnit → LearnUnit) : (b.updLearn k f).brg = b.brg := rfl
@[simp] theorem Blk.mem_updLearn (k : Nat) (f : LearnUnit → LearnUnit) : (b.updLearn k f).mem = b.mem := rfl
@[simp] theorem Blk.poison_updLearn (k : Nat) (f : LearnUnit → LearnUnit) : (b.updLearn k f).poison = b.poison := rfl
@[simp] theorem Blk.dir_updLearn (k : Nat) (f : LearnUnit → LearnUnit) : (b.updLearn k f).dir = b.dir := rfl
@[simp] theorem Blk.hog_updLearn (k : Nat) (f : LearnUnit → LearnUnit) : (b.updLearn k f).hog = b.hog := rfl
@[simp] theorem Blk.mss_updLearn (k : Nat) (f : LearnUnit → LearnUnit) : (b.updLearn k f).mss = b.mss := rfl
@[simp] theorem Blk.rel_updLearn (k : Nat) (f : LearnUnit → LearnUnit) : (b.updLearn k f).rel = b.rel := rfl
@[simp] theorem Blk.elec_updLearn (k : Nat) (f : LearnUnit → LearnUnit) : (b.updLearn k f).elec = b.elec := rfl
@[simp] theorem Blk.stg_updLearn (k : Nat) (f : LearnUnit → LearnUnit) : (b.updLearn k f).stg = b.stg := rfl
@[simp] theorem Blk.hlat_updLearn (k : Nat) (f : LearnUnit → LearnUnit) : (b.updLearn k f).hlat = b.hlat := rfl
@[simp] theorem Blk.tbLat_updLearn (k : Nat) (f : LearnUnit → LearnUnit) : (b.updLearn k f).tbLat = b.tbLat := rfl
@[simp] theorem Blk.hostFrames_updLearn (k : Nat) (f : LearnUnit → LearnUnit) : (b.updLearn k f).hostFrames = b.hostFrames := rfl
@[simp] theorem Blk.preEpoch_updLearn (k : Nat) (f : LearnUnit → LearnUnit) : (b.updLearn k f).preEpoch = b.preEpoch := rfl
@[simp] theorem Blk.halfDown_updLearn (k : Nat) (f : LearnUnit → LearnUnit) : (b.updLearn k f).halfDown = b.halfDown := rfl
@[simp] theorem Blk.mssWq_updLearn (k : Nat) (f : LearnUnit → LearnUnit) : (b.updLearn k f).mssWq = b.mssWq := rfl
@[simp] theorem Blk.mssCq_updLearn (k : Nat) (f : LearnUnit → LearnUnit) : (b.updLearn k f).mssCq = b.mssCq := rfl
@[simp] theorem Blk.out_updLearn (k : Nat) (f : LearnUnit → LearnUnit) : (b.updLearn k f).out = b.out := rfl
@[simp] theorem Blk.fresh_updLearn (k : Nat) (f : LearnUnit → LearnUnit) : (b.updLearn k f).fresh = b.fresh := rfl
@[simp] theorem Blk.boot_updLearn (k : Nat) (f : LearnUnit → LearnUnit) : (b.updLearn k f).boot = b.boot := rfl
@[simp] theorem Blk.ctl_updLearn (k : Nat) (f : LearnUnit → LearnUnit) : (b.updLearn k f).ctl = b.ctl := rfl
@[simp] theorem Blk.keys_updLearn (k : Nat) (f : LearnUnit → LearnUnit) : (b.updLearn k f).keys = b.keys := rfl
@[simp] theorem Blk.rmt_updLearn (k : Nat) (f : LearnUnit → LearnUnit) : (b.updLearn k f).rmt = b.rmt := rfl
@[simp] theorem Blk.insts_updLearn (k : Nat) (f : LearnUnit → LearnUnit) : (b.updLearn k f).insts = b.insts := rfl
@[simp] theorem Blk.cores_updLearn (k : Nat) (f : LearnUnit → LearnUnit) : (b.updLearn k f).cores = b.cores := rfl
@[simp] theorem Blk.port_updLane (k : Nat) (f : EthLane → EthLane) (h : Nat) :
    (b.updLane k f).port h = b.port h := rfl
@[simp] theorem Blk.fn_updLane (k : Nat) (f : EthLane → EthLane) (h : Nat) (f1 : Bool) :
    (b.updLane k f).fn h f1 = b.fn h f1 := rfl
@[simp] theorem Blk.wq_updLane (k : Nat) (f : EthLane → EthLane) (i : Nat) (q : Nat) :
    (b.updLane k f).wq i q = b.wq i q := rfl
@[simp] theorem Blk.cq_updLane (k : Nat) (f : EthLane → EthLane) (i : Nat) (q : Nat) :
    (b.updLane k f).cq i q = b.cq i q := rfl
@[simp] theorem Blk.eq_updLane (k : Nat) (f : EthLane → EthLane) (i : Nat) (q : Nat) :
    (b.updLane k f).eq i q = b.eq i q := rfl
@[simp] theorem Blk.inst_updLane (k : Nat) (f : EthLane → EthLane) (i : Nat) :
    (b.updLane k f).inst i = b.inst i := rfl
@[simp] theorem Blk.thread_updLane (k : Nat) (f : EthLane → EthLane) (i : Nat) :
    (b.updLane k f).thread i = b.thread i := rfl
@[simp] theorem Blk.core_updLane (k : Nat) (f : EthLane → EthLane) (i : Nat) :
    (b.updLane k f).core i = b.core i := rfl
@[simp] theorem Blk.chan_updLane (k : Nat) (f : EthLane → EthLane) (i : Nat) :
    (b.updLane k f).chan i = b.chan i := rfl
@[simp] theorem Blk.group_updLane (k : Nat) (f : EthLane → EthLane) (i : Nat) :
    (b.updLane k f).group i = b.group i := rfl
@[simp] theorem Blk.fq_updLane (k : Nat) (f : EthLane → EthLane) (hf : Half) :
    (b.updLane k f).fq hf = b.fq hf := rfl
@[simp] theorem Blk.pipe_updLane (k : Nat) (f : EthLane → EthLane) (i : Nat) :
    (b.updLane k f).pipe i = b.pipe i := rfl
@[simp] theorem Blk.dsport_updLane (k : Nat) (f : EthLane → EthLane) (i : Nat) :
    (b.updLane k f).dsport i = b.dsport i := rfl
@[simp] theorem Blk.eng_updLane (k : Nat) (f : EthLane → EthLane) (h : Nat) :
    (b.updLane k f).eng h = b.eng h := rfl
@[simp] theorem Blk.chn_updLane (k : Nat) (f : EthLane → EthLane) (h : Nat) (i : Nat) :
    (b.updLane k f).chn h i = b.chn h i := rfl
@[simp] theorem Blk.slot_updLane (k : Nat) (f : EthLane → EthLane) (i : Nat) :
    (b.updLane k f).slot i = b.slot i := rfl
@[simp] theorem Blk.sa_updLane (k : Nat) (f : EthLane → EthLane) (i : Nat) :
    (b.updLane k f).sa i = b.sa i := rfl
@[simp] theorem Blk.unit_updLane (k : Nat) (f : EthLane → EthLane) (i : Nat) :
    (b.updLane k f).unit i = b.unit i := rfl
@[simp] theorem Blk.qp_updLane (k : Nat) (f : EthLane → EthLane) (i : Nat) :
    (b.updLane k f).qp i = b.qp i := rfl
@[simp] theorem Blk.trig_updLane (k : Nat) (f : EthLane → EthLane) (i : Nat) :
    (b.updLane k f).trig i = b.trig i := rfl
@[simp] theorem Blk.bport_updLane (k : Nat) (f : EthLane → EthLane) (h : Nat) :
    (b.updLane k f).bport h = b.bport h := rfl
@[simp] theorem Blk.ctlq_updLane (k : Nat) (f : EthLane → EthLane) (i : Nat) :
    (b.updLane k f).ctlq i = b.ctlq i := rfl
@[simp] theorem Blk.scan_updLane (k : Nat) (f : EthLane → EthLane) (i : Nat) :
    (b.updLane k f).scan i = b.scan i := rfl
@[simp] theorem Blk.cfg_updLane (k : Nat) (f : EthLane → EthLane) : (b.updLane k f).cfg = b.cfg := rfl
@[simp] theorem Blk.byte_updLane (k : Nat) (f : EthLane → EthLane) (i : Nat) :
    (b.updLane k f).byte i = b.byte i := rfl
@[simp] theorem Blk.clk_updLane (k : Nat) (f : EthLane → EthLane) : (b.updLane k f).clk = b.clk := rfl
@[simp] theorem Blk.spd_updLane (k : Nat) (f : EthLane → EthLane) : (b.updLane k f).spd = b.spd := rfl
@[simp] theorem Blk.brg_updLane (k : Nat) (f : EthLane → EthLane) : (b.updLane k f).brg = b.brg := rfl
@[simp] theorem Blk.mem_updLane (k : Nat) (f : EthLane → EthLane) : (b.updLane k f).mem = b.mem := rfl
@[simp] theorem Blk.poison_updLane (k : Nat) (f : EthLane → EthLane) : (b.updLane k f).poison = b.poison := rfl
@[simp] theorem Blk.dir_updLane (k : Nat) (f : EthLane → EthLane) : (b.updLane k f).dir = b.dir := rfl
@[simp] theorem Blk.hog_updLane (k : Nat) (f : EthLane → EthLane) : (b.updLane k f).hog = b.hog := rfl
@[simp] theorem Blk.mss_updLane (k : Nat) (f : EthLane → EthLane) : (b.updLane k f).mss = b.mss := rfl
@[simp] theorem Blk.rel_updLane (k : Nat) (f : EthLane → EthLane) : (b.updLane k f).rel = b.rel := rfl
@[simp] theorem Blk.elec_updLane (k : Nat) (f : EthLane → EthLane) : (b.updLane k f).elec = b.elec := rfl
@[simp] theorem Blk.stg_updLane (k : Nat) (f : EthLane → EthLane) : (b.updLane k f).stg = b.stg := rfl
@[simp] theorem Blk.hlat_updLane (k : Nat) (f : EthLane → EthLane) : (b.updLane k f).hlat = b.hlat := rfl
@[simp] theorem Blk.tbLat_updLane (k : Nat) (f : EthLane → EthLane) : (b.updLane k f).tbLat = b.tbLat := rfl
@[simp] theorem Blk.hostFrames_updLane (k : Nat) (f : EthLane → EthLane) : (b.updLane k f).hostFrames = b.hostFrames := rfl
@[simp] theorem Blk.preEpoch_updLane (k : Nat) (f : EthLane → EthLane) : (b.updLane k f).preEpoch = b.preEpoch := rfl
@[simp] theorem Blk.halfDown_updLane (k : Nat) (f : EthLane → EthLane) : (b.updLane k f).halfDown = b.halfDown := rfl
@[simp] theorem Blk.mssWq_updLane (k : Nat) (f : EthLane → EthLane) : (b.updLane k f).mssWq = b.mssWq := rfl
@[simp] theorem Blk.mssCq_updLane (k : Nat) (f : EthLane → EthLane) : (b.updLane k f).mssCq = b.mssCq := rfl
@[simp] theorem Blk.out_updLane (k : Nat) (f : EthLane → EthLane) : (b.updLane k f).out = b.out := rfl
@[simp] theorem Blk.fresh_updLane (k : Nat) (f : EthLane → EthLane) : (b.updLane k f).fresh = b.fresh := rfl
@[simp] theorem Blk.boot_updLane (k : Nat) (f : EthLane → EthLane) : (b.updLane k f).boot = b.boot := rfl
@[simp] theorem Blk.ctl_updLane (k : Nat) (f : EthLane → EthLane) : (b.updLane k f).ctl = b.ctl := rfl
@[simp] theorem Blk.keys_updLane (k : Nat) (f : EthLane → EthLane) : (b.updLane k f).keys = b.keys := rfl
@[simp] theorem Blk.rmt_updLane (k : Nat) (f : EthLane → EthLane) : (b.updLane k f).rmt = b.rmt := rfl
@[simp] theorem Blk.insts_updLane (k : Nat) (f : EthLane → EthLane) : (b.updLane k f).insts = b.insts := rfl
@[simp] theorem Blk.cores_updLane (k : Nat) (f : EthLane → EthLane) : (b.updLane k f).cores = b.cores := rfl
@[simp] theorem Blk.port_updDsp (k : Nat) (f : Dsp → Dsp) (h : Nat) :
    (b.updDsp k f).port h = b.port h := rfl
@[simp] theorem Blk.fn_updDsp (k : Nat) (f : Dsp → Dsp) (h : Nat) (f1 : Bool) :
    (b.updDsp k f).fn h f1 = b.fn h f1 := rfl
@[simp] theorem Blk.wq_updDsp (k : Nat) (f : Dsp → Dsp) (i : Nat) (q : Nat) :
    (b.updDsp k f).wq i q = b.wq i q := rfl
@[simp] theorem Blk.cq_updDsp (k : Nat) (f : Dsp → Dsp) (i : Nat) (q : Nat) :
    (b.updDsp k f).cq i q = b.cq i q := rfl
@[simp] theorem Blk.eq_updDsp (k : Nat) (f : Dsp → Dsp) (i : Nat) (q : Nat) :
    (b.updDsp k f).eq i q = b.eq i q := rfl
@[simp] theorem Blk.inst_updDsp (k : Nat) (f : Dsp → Dsp) (i : Nat) :
    (b.updDsp k f).inst i = b.inst i := rfl
@[simp] theorem Blk.thread_updDsp (k : Nat) (f : Dsp → Dsp) (i : Nat) :
    (b.updDsp k f).thread i = b.thread i := rfl
@[simp] theorem Blk.core_updDsp (k : Nat) (f : Dsp → Dsp) (i : Nat) :
    (b.updDsp k f).core i = b.core i := rfl
@[simp] theorem Blk.chan_updDsp (k : Nat) (f : Dsp → Dsp) (i : Nat) :
    (b.updDsp k f).chan i = b.chan i := rfl
@[simp] theorem Blk.group_updDsp (k : Nat) (f : Dsp → Dsp) (i : Nat) :
    (b.updDsp k f).group i = b.group i := rfl
@[simp] theorem Blk.fq_updDsp (k : Nat) (f : Dsp → Dsp) (hf : Half) :
    (b.updDsp k f).fq hf = b.fq hf := rfl
@[simp] theorem Blk.pipe_updDsp (k : Nat) (f : Dsp → Dsp) (i : Nat) :
    (b.updDsp k f).pipe i = b.pipe i := rfl
@[simp] theorem Blk.lane_updDsp (k : Nat) (f : Dsp → Dsp) (i : Nat) :
    (b.updDsp k f).lane i = b.lane i := rfl
@[simp] theorem Blk.eng_updDsp (k : Nat) (f : Dsp → Dsp) (h : Nat) :
    (b.updDsp k f).eng h = b.eng h := rfl
@[simp] theorem Blk.chn_updDsp (k : Nat) (f : Dsp → Dsp) (h : Nat) (i : Nat) :
    (b.updDsp k f).chn h i = b.chn h i := rfl
@[simp] theorem Blk.slot_updDsp (k : Nat) (f : Dsp → Dsp) (i : Nat) :
    (b.updDsp k f).slot i = b.slot i := rfl
@[simp] theorem Blk.sa_updDsp (k : Nat) (f : Dsp → Dsp) (i : Nat) :
    (b.updDsp k f).sa i = b.sa i := rfl
@[simp] theorem Blk.unit_updDsp (k : Nat) (f : Dsp → Dsp) (i : Nat) :
    (b.updDsp k f).unit i = b.unit i := rfl
@[simp] theorem Blk.qp_updDsp (k : Nat) (f : Dsp → Dsp) (i : Nat) :
    (b.updDsp k f).qp i = b.qp i := rfl
@[simp] theorem Blk.trig_updDsp (k : Nat) (f : Dsp → Dsp) (i : Nat) :
    (b.updDsp k f).trig i = b.trig i := rfl
@[simp] theorem Blk.bport_updDsp (k : Nat) (f : Dsp → Dsp) (h : Nat) :
    (b.updDsp k f).bport h = b.bport h := rfl
@[simp] theorem Blk.ctlq_updDsp (k : Nat) (f : Dsp → Dsp) (i : Nat) :
    (b.updDsp k f).ctlq i = b.ctlq i := rfl
@[simp] theorem Blk.scan_updDsp (k : Nat) (f : Dsp → Dsp) (i : Nat) :
    (b.updDsp k f).scan i = b.scan i := rfl
@[simp] theorem Blk.cfg_updDsp (k : Nat) (f : Dsp → Dsp) : (b.updDsp k f).cfg = b.cfg := rfl
@[simp] theorem Blk.byte_updDsp (k : Nat) (f : Dsp → Dsp) (i : Nat) :
    (b.updDsp k f).byte i = b.byte i := rfl
@[simp] theorem Blk.clk_updDsp (k : Nat) (f : Dsp → Dsp) : (b.updDsp k f).clk = b.clk := rfl
@[simp] theorem Blk.spd_updDsp (k : Nat) (f : Dsp → Dsp) : (b.updDsp k f).spd = b.spd := rfl
@[simp] theorem Blk.brg_updDsp (k : Nat) (f : Dsp → Dsp) : (b.updDsp k f).brg = b.brg := rfl
@[simp] theorem Blk.mem_updDsp (k : Nat) (f : Dsp → Dsp) : (b.updDsp k f).mem = b.mem := rfl
@[simp] theorem Blk.poison_updDsp (k : Nat) (f : Dsp → Dsp) : (b.updDsp k f).poison = b.poison := rfl
@[simp] theorem Blk.dir_updDsp (k : Nat) (f : Dsp → Dsp) : (b.updDsp k f).dir = b.dir := rfl
@[simp] theorem Blk.hog_updDsp (k : Nat) (f : Dsp → Dsp) : (b.updDsp k f).hog = b.hog := rfl
@[simp] theorem Blk.mss_updDsp (k : Nat) (f : Dsp → Dsp) : (b.updDsp k f).mss = b.mss := rfl
@[simp] theorem Blk.rel_updDsp (k : Nat) (f : Dsp → Dsp) : (b.updDsp k f).rel = b.rel := rfl
@[simp] theorem Blk.elec_updDsp (k : Nat) (f : Dsp → Dsp) : (b.updDsp k f).elec = b.elec := rfl
@[simp] theorem Blk.stg_updDsp (k : Nat) (f : Dsp → Dsp) : (b.updDsp k f).stg = b.stg := rfl
@[simp] theorem Blk.hlat_updDsp (k : Nat) (f : Dsp → Dsp) : (b.updDsp k f).hlat = b.hlat := rfl
@[simp] theorem Blk.tbLat_updDsp (k : Nat) (f : Dsp → Dsp) : (b.updDsp k f).tbLat = b.tbLat := rfl
@[simp] theorem Blk.hostFrames_updDsp (k : Nat) (f : Dsp → Dsp) : (b.updDsp k f).hostFrames = b.hostFrames := rfl
@[simp] theorem Blk.preEpoch_updDsp (k : Nat) (f : Dsp → Dsp) : (b.updDsp k f).preEpoch = b.preEpoch := rfl
@[simp] theorem Blk.halfDown_updDsp (k : Nat) (f : Dsp → Dsp) : (b.updDsp k f).halfDown = b.halfDown := rfl
@[simp] theorem Blk.mssWq_updDsp (k : Nat) (f : Dsp → Dsp) : (b.updDsp k f).mssWq = b.mssWq := rfl
@[simp] theorem Blk.mssCq_updDsp (k : Nat) (f : Dsp → Dsp) : (b.updDsp k f).mssCq = b.mssCq := rfl
@[simp] theorem Blk.out_updDsp (k : Nat) (f : Dsp → Dsp) : (b.updDsp k f).out = b.out := rfl
@[simp] theorem Blk.fresh_updDsp (k : Nat) (f : Dsp → Dsp) : (b.updDsp k f).fresh = b.fresh := rfl
@[simp] theorem Blk.boot_updDsp (k : Nat) (f : Dsp → Dsp) : (b.updDsp k f).boot = b.boot := rfl
@[simp] theorem Blk.ctl_updDsp (k : Nat) (f : Dsp → Dsp) : (b.updDsp k f).ctl = b.ctl := rfl
@[simp] theorem Blk.keys_updDsp (k : Nat) (f : Dsp → Dsp) : (b.updDsp k f).keys = b.keys := rfl
@[simp] theorem Blk.rmt_updDsp (k : Nat) (f : Dsp → Dsp) : (b.updDsp k f).rmt = b.rmt := rfl
@[simp] theorem Blk.insts_updDsp (k : Nat) (f : Dsp → Dsp) : (b.updDsp k f).insts = b.insts := rfl
@[simp] theorem Blk.cores_updDsp (k : Nat) (f : Dsp → Dsp) : (b.updDsp k f).cores = b.cores := rfl
@[simp] theorem Blk.port_updEng (k : Nat) (f : Dma → Dma) (h : Nat) :
    (b.updEng k f).port h = b.port h := rfl
@[simp] theorem Blk.fn_updEng (k : Nat) (f : Dma → Dma) (h : Nat) (f1 : Bool) :
    (b.updEng k f).fn h f1 = b.fn h f1 := rfl
@[simp] theorem Blk.wq_updEng (k : Nat) (f : Dma → Dma) (i : Nat) (q : Nat) :
    (b.updEng k f).wq i q = b.wq i q := rfl
@[simp] theorem Blk.cq_updEng (k : Nat) (f : Dma → Dma) (i : Nat) (q : Nat) :
    (b.updEng k f).cq i q = b.cq i q := rfl
@[simp] theorem Blk.eq_updEng (k : Nat) (f : Dma → Dma) (i : Nat) (q : Nat) :
    (b.updEng k f).eq i q = b.eq i q := rfl
@[simp] theorem Blk.inst_updEng (k : Nat) (f : Dma → Dma) (i : Nat) :
    (b.updEng k f).inst i = b.inst i := rfl
@[simp] theorem Blk.thread_updEng (k : Nat) (f : Dma → Dma) (i : Nat) :
    (b.updEng k f).thread i = b.thread i := rfl
@[simp] theorem Blk.core_updEng (k : Nat) (f : Dma → Dma) (i : Nat) :
    (b.updEng k f).core i = b.core i := rfl
@[simp] theorem Blk.chan_updEng (k : Nat) (f : Dma → Dma) (i : Nat) :
    (b.updEng k f).chan i = b.chan i := rfl
@[simp] theorem Blk.group_updEng (k : Nat) (f : Dma → Dma) (i : Nat) :
    (b.updEng k f).group i = b.group i := rfl
@[simp] theorem Blk.fq_updEng (k : Nat) (f : Dma → Dma) (hf : Half) :
    (b.updEng k f).fq hf = b.fq hf := rfl
@[simp] theorem Blk.pipe_updEng (k : Nat) (f : Dma → Dma) (i : Nat) :
    (b.updEng k f).pipe i = b.pipe i := rfl
@[simp] theorem Blk.lane_updEng (k : Nat) (f : Dma → Dma) (i : Nat) :
    (b.updEng k f).lane i = b.lane i := rfl
@[simp] theorem Blk.dsport_updEng (k : Nat) (f : Dma → Dma) (i : Nat) :
    (b.updEng k f).dsport i = b.dsport i := rfl
@[simp] theorem Blk.slot_updEng (k : Nat) (f : Dma → Dma) (i : Nat) :
    (b.updEng k f).slot i = b.slot i := rfl
@[simp] theorem Blk.sa_updEng (k : Nat) (f : Dma → Dma) (i : Nat) :
    (b.updEng k f).sa i = b.sa i := rfl
@[simp] theorem Blk.unit_updEng (k : Nat) (f : Dma → Dma) (i : Nat) :
    (b.updEng k f).unit i = b.unit i := rfl
@[simp] theorem Blk.qp_updEng (k : Nat) (f : Dma → Dma) (i : Nat) :
    (b.updEng k f).qp i = b.qp i := rfl
@[simp] theorem Blk.trig_updEng (k : Nat) (f : Dma → Dma) (i : Nat) :
    (b.updEng k f).trig i = b.trig i := rfl
@[simp] theorem Blk.bport_updEng (k : Nat) (f : Dma → Dma) (h : Nat) :
    (b.updEng k f).bport h = b.bport h := rfl
@[simp] theorem Blk.ctlq_updEng (k : Nat) (f : Dma → Dma) (i : Nat) :
    (b.updEng k f).ctlq i = b.ctlq i := rfl
@[simp] theorem Blk.scan_updEng (k : Nat) (f : Dma → Dma) (i : Nat) :
    (b.updEng k f).scan i = b.scan i := rfl
@[simp] theorem Blk.cfg_updEng (k : Nat) (f : Dma → Dma) : (b.updEng k f).cfg = b.cfg := rfl
@[simp] theorem Blk.byte_updEng (k : Nat) (f : Dma → Dma) (i : Nat) :
    (b.updEng k f).byte i = b.byte i := rfl
@[simp] theorem Blk.clk_updEng (k : Nat) (f : Dma → Dma) : (b.updEng k f).clk = b.clk := rfl
@[simp] theorem Blk.spd_updEng (k : Nat) (f : Dma → Dma) : (b.updEng k f).spd = b.spd := rfl
@[simp] theorem Blk.brg_updEng (k : Nat) (f : Dma → Dma) : (b.updEng k f).brg = b.brg := rfl
@[simp] theorem Blk.mem_updEng (k : Nat) (f : Dma → Dma) : (b.updEng k f).mem = b.mem := rfl
@[simp] theorem Blk.poison_updEng (k : Nat) (f : Dma → Dma) : (b.updEng k f).poison = b.poison := rfl
@[simp] theorem Blk.dir_updEng (k : Nat) (f : Dma → Dma) : (b.updEng k f).dir = b.dir := rfl
@[simp] theorem Blk.hog_updEng (k : Nat) (f : Dma → Dma) : (b.updEng k f).hog = b.hog := rfl
@[simp] theorem Blk.mss_updEng (k : Nat) (f : Dma → Dma) : (b.updEng k f).mss = b.mss := rfl
@[simp] theorem Blk.rel_updEng (k : Nat) (f : Dma → Dma) : (b.updEng k f).rel = b.rel := rfl
@[simp] theorem Blk.elec_updEng (k : Nat) (f : Dma → Dma) : (b.updEng k f).elec = b.elec := rfl
@[simp] theorem Blk.stg_updEng (k : Nat) (f : Dma → Dma) : (b.updEng k f).stg = b.stg := rfl
@[simp] theorem Blk.hlat_updEng (k : Nat) (f : Dma → Dma) : (b.updEng k f).hlat = b.hlat := rfl
@[simp] theorem Blk.tbLat_updEng (k : Nat) (f : Dma → Dma) : (b.updEng k f).tbLat = b.tbLat := rfl
@[simp] theorem Blk.hostFrames_updEng (k : Nat) (f : Dma → Dma) : (b.updEng k f).hostFrames = b.hostFrames := rfl
@[simp] theorem Blk.preEpoch_updEng (k : Nat) (f : Dma → Dma) : (b.updEng k f).preEpoch = b.preEpoch := rfl
@[simp] theorem Blk.halfDown_updEng (k : Nat) (f : Dma → Dma) : (b.updEng k f).halfDown = b.halfDown := rfl
@[simp] theorem Blk.mssWq_updEng (k : Nat) (f : Dma → Dma) : (b.updEng k f).mssWq = b.mssWq := rfl
@[simp] theorem Blk.mssCq_updEng (k : Nat) (f : Dma → Dma) : (b.updEng k f).mssCq = b.mssCq := rfl
@[simp] theorem Blk.out_updEng (k : Nat) (f : Dma → Dma) : (b.updEng k f).out = b.out := rfl
@[simp] theorem Blk.fresh_updEng (k : Nat) (f : Dma → Dma) : (b.updEng k f).fresh = b.fresh := rfl
@[simp] theorem Blk.boot_updEng (k : Nat) (f : Dma → Dma) : (b.updEng k f).boot = b.boot := rfl
@[simp] theorem Blk.ctl_updEng (k : Nat) (f : Dma → Dma) : (b.updEng k f).ctl = b.ctl := rfl
@[simp] theorem Blk.keys_updEng (k : Nat) (f : Dma → Dma) : (b.updEng k f).keys = b.keys := rfl
@[simp] theorem Blk.rmt_updEng (k : Nat) (f : Dma → Dma) : (b.updEng k f).rmt = b.rmt := rfl
@[simp] theorem Blk.insts_updEng (k : Nat) (f : Dma → Dma) : (b.updEng k f).insts = b.insts := rfl
@[simp] theorem Blk.cores_updEng (k : Nat) (f : Dma → Dma) : (b.updEng k f).cores = b.cores := rfl
@[simp] theorem Blk.port_updChn (k l : Nat) (f : Dch → Dch) (h : Nat) :
    (b.updChn k l f).port h = b.port h := rfl
@[simp] theorem Blk.fn_updChn (k l : Nat) (f : Dch → Dch) (h : Nat) (f1 : Bool) :
    (b.updChn k l f).fn h f1 = b.fn h f1 := rfl
@[simp] theorem Blk.wq_updChn (k l : Nat) (f : Dch → Dch) (i : Nat) (q : Nat) :
    (b.updChn k l f).wq i q = b.wq i q := rfl
@[simp] theorem Blk.cq_updChn (k l : Nat) (f : Dch → Dch) (i : Nat) (q : Nat) :
    (b.updChn k l f).cq i q = b.cq i q := rfl
@[simp] theorem Blk.eq_updChn (k l : Nat) (f : Dch → Dch) (i : Nat) (q : Nat) :
    (b.updChn k l f).eq i q = b.eq i q := rfl
@[simp] theorem Blk.inst_updChn (k l : Nat) (f : Dch → Dch) (i : Nat) :
    (b.updChn k l f).inst i = b.inst i := rfl
@[simp] theorem Blk.thread_updChn (k l : Nat) (f : Dch → Dch) (i : Nat) :
    (b.updChn k l f).thread i = b.thread i := rfl
@[simp] theorem Blk.core_updChn (k l : Nat) (f : Dch → Dch) (i : Nat) :
    (b.updChn k l f).core i = b.core i := rfl
@[simp] theorem Blk.chan_updChn (k l : Nat) (f : Dch → Dch) (i : Nat) :
    (b.updChn k l f).chan i = b.chan i := rfl
@[simp] theorem Blk.group_updChn (k l : Nat) (f : Dch → Dch) (i : Nat) :
    (b.updChn k l f).group i = b.group i := rfl
@[simp] theorem Blk.fq_updChn (k l : Nat) (f : Dch → Dch) (hf : Half) :
    (b.updChn k l f).fq hf = b.fq hf := rfl
@[simp] theorem Blk.pipe_updChn (k l : Nat) (f : Dch → Dch) (i : Nat) :
    (b.updChn k l f).pipe i = b.pipe i := rfl
@[simp] theorem Blk.lane_updChn (k l : Nat) (f : Dch → Dch) (i : Nat) :
    (b.updChn k l f).lane i = b.lane i := rfl
@[simp] theorem Blk.dsport_updChn (k l : Nat) (f : Dch → Dch) (i : Nat) :
    (b.updChn k l f).dsport i = b.dsport i := rfl
@[simp] theorem Blk.slot_updChn (k l : Nat) (f : Dch → Dch) (i : Nat) :
    (b.updChn k l f).slot i = b.slot i := rfl
@[simp] theorem Blk.sa_updChn (k l : Nat) (f : Dch → Dch) (i : Nat) :
    (b.updChn k l f).sa i = b.sa i := rfl
@[simp] theorem Blk.unit_updChn (k l : Nat) (f : Dch → Dch) (i : Nat) :
    (b.updChn k l f).unit i = b.unit i := rfl
@[simp] theorem Blk.qp_updChn (k l : Nat) (f : Dch → Dch) (i : Nat) :
    (b.updChn k l f).qp i = b.qp i := rfl
@[simp] theorem Blk.trig_updChn (k l : Nat) (f : Dch → Dch) (i : Nat) :
    (b.updChn k l f).trig i = b.trig i := rfl
@[simp] theorem Blk.bport_updChn (k l : Nat) (f : Dch → Dch) (h : Nat) :
    (b.updChn k l f).bport h = b.bport h := rfl
@[simp] theorem Blk.ctlq_updChn (k l : Nat) (f : Dch → Dch) (i : Nat) :
    (b.updChn k l f).ctlq i = b.ctlq i := rfl
@[simp] theorem Blk.scan_updChn (k l : Nat) (f : Dch → Dch) (i : Nat) :
    (b.updChn k l f).scan i = b.scan i := rfl
@[simp] theorem Blk.cfg_updChn (k l : Nat) (f : Dch → Dch) : (b.updChn k l f).cfg = b.cfg := rfl
@[simp] theorem Blk.byte_updChn (k l : Nat) (f : Dch → Dch) (i : Nat) :
    (b.updChn k l f).byte i = b.byte i := rfl
@[simp] theorem Blk.clk_updChn (k l : Nat) (f : Dch → Dch) : (b.updChn k l f).clk = b.clk := rfl
@[simp] theorem Blk.spd_updChn (k l : Nat) (f : Dch → Dch) : (b.updChn k l f).spd = b.spd := rfl
@[simp] theorem Blk.brg_updChn (k l : Nat) (f : Dch → Dch) : (b.updChn k l f).brg = b.brg := rfl
@[simp] theorem Blk.mem_updChn (k l : Nat) (f : Dch → Dch) : (b.updChn k l f).mem = b.mem := rfl
@[simp] theorem Blk.poison_updChn (k l : Nat) (f : Dch → Dch) : (b.updChn k l f).poison = b.poison := rfl
@[simp] theorem Blk.dir_updChn (k l : Nat) (f : Dch → Dch) : (b.updChn k l f).dir = b.dir := rfl
@[simp] theorem Blk.hog_updChn (k l : Nat) (f : Dch → Dch) : (b.updChn k l f).hog = b.hog := rfl
@[simp] theorem Blk.mss_updChn (k l : Nat) (f : Dch → Dch) : (b.updChn k l f).mss = b.mss := rfl
@[simp] theorem Blk.rel_updChn (k l : Nat) (f : Dch → Dch) : (b.updChn k l f).rel = b.rel := rfl
@[simp] theorem Blk.elec_updChn (k l : Nat) (f : Dch → Dch) : (b.updChn k l f).elec = b.elec := rfl
@[simp] theorem Blk.stg_updChn (k l : Nat) (f : Dch → Dch) : (b.updChn k l f).stg = b.stg := rfl
@[simp] theorem Blk.hlat_updChn (k l : Nat) (f : Dch → Dch) : (b.updChn k l f).hlat = b.hlat := rfl
@[simp] theorem Blk.tbLat_updChn (k l : Nat) (f : Dch → Dch) : (b.updChn k l f).tbLat = b.tbLat := rfl
@[simp] theorem Blk.hostFrames_updChn (k l : Nat) (f : Dch → Dch) : (b.updChn k l f).hostFrames = b.hostFrames := rfl
@[simp] theorem Blk.preEpoch_updChn (k l : Nat) (f : Dch → Dch) : (b.updChn k l f).preEpoch = b.preEpoch := rfl
@[simp] theorem Blk.halfDown_updChn (k l : Nat) (f : Dch → Dch) : (b.updChn k l f).halfDown = b.halfDown := rfl
@[simp] theorem Blk.mssWq_updChn (k l : Nat) (f : Dch → Dch) : (b.updChn k l f).mssWq = b.mssWq := rfl
@[simp] theorem Blk.mssCq_updChn (k l : Nat) (f : Dch → Dch) : (b.updChn k l f).mssCq = b.mssCq := rfl
@[simp] theorem Blk.out_updChn (k l : Nat) (f : Dch → Dch) : (b.updChn k l f).out = b.out := rfl
@[simp] theorem Blk.fresh_updChn (k l : Nat) (f : Dch → Dch) : (b.updChn k l f).fresh = b.fresh := rfl
@[simp] theorem Blk.boot_updChn (k l : Nat) (f : Dch → Dch) : (b.updChn k l f).boot = b.boot := rfl
@[simp] theorem Blk.ctl_updChn (k l : Nat) (f : Dch → Dch) : (b.updChn k l f).ctl = b.ctl := rfl
@[simp] theorem Blk.keys_updChn (k l : Nat) (f : Dch → Dch) : (b.updChn k l f).keys = b.keys := rfl
@[simp] theorem Blk.rmt_updChn (k l : Nat) (f : Dch → Dch) : (b.updChn k l f).rmt = b.rmt := rfl
@[simp] theorem Blk.insts_updChn (k l : Nat) (f : Dch → Dch) : (b.updChn k l f).insts = b.insts := rfl
@[simp] theorem Blk.cores_updChn (k l : Nat) (f : Dch → Dch) : (b.updChn k l f).cores = b.cores := rfl
@[simp] theorem Blk.port_updSlot (k : Nat) (f : Slot → Slot) (h : Nat) :
    (b.updSlot k f).port h = b.port h := rfl
@[simp] theorem Blk.fn_updSlot (k : Nat) (f : Slot → Slot) (h : Nat) (f1 : Bool) :
    (b.updSlot k f).fn h f1 = b.fn h f1 := rfl
@[simp] theorem Blk.wq_updSlot (k : Nat) (f : Slot → Slot) (i : Nat) (q : Nat) :
    (b.updSlot k f).wq i q = b.wq i q := rfl
@[simp] theorem Blk.cq_updSlot (k : Nat) (f : Slot → Slot) (i : Nat) (q : Nat) :
    (b.updSlot k f).cq i q = b.cq i q := rfl
@[simp] theorem Blk.eq_updSlot (k : Nat) (f : Slot → Slot) (i : Nat) (q : Nat) :
    (b.updSlot k f).eq i q = b.eq i q := rfl
@[simp] theorem Blk.inst_updSlot (k : Nat) (f : Slot → Slot) (i : Nat) :
    (b.updSlot k f).inst i = b.inst i := rfl
@[simp] theorem Blk.thread_updSlot (k : Nat) (f : Slot → Slot) (i : Nat) :
    (b.updSlot k f).thread i = b.thread i := rfl
@[simp] theorem Blk.core_updSlot (k : Nat) (f : Slot → Slot) (i : Nat) :
    (b.updSlot k f).core i = b.core i := rfl
@[simp] theorem Blk.chan_updSlot (k : Nat) (f : Slot → Slot) (i : Nat) :
    (b.updSlot k f).chan i = b.chan i := rfl
@[simp] theorem Blk.group_updSlot (k : Nat) (f : Slot → Slot) (i : Nat) :
    (b.updSlot k f).group i = b.group i := rfl
@[simp] theorem Blk.fq_updSlot (k : Nat) (f : Slot → Slot) (hf : Half) :
    (b.updSlot k f).fq hf = b.fq hf := rfl
@[simp] theorem Blk.pipe_updSlot (k : Nat) (f : Slot → Slot) (i : Nat) :
    (b.updSlot k f).pipe i = b.pipe i := rfl
@[simp] theorem Blk.lane_updSlot (k : Nat) (f : Slot → Slot) (i : Nat) :
    (b.updSlot k f).lane i = b.lane i := rfl
@[simp] theorem Blk.dsport_updSlot (k : Nat) (f : Slot → Slot) (i : Nat) :
    (b.updSlot k f).dsport i = b.dsport i := rfl
@[simp] theorem Blk.eng_updSlot (k : Nat) (f : Slot → Slot) (h : Nat) :
    (b.updSlot k f).eng h = b.eng h := rfl
@[simp] theorem Blk.chn_updSlot (k : Nat) (f : Slot → Slot) (h : Nat) (i : Nat) :
    (b.updSlot k f).chn h i = b.chn h i := rfl
@[simp] theorem Blk.sa_updSlot (k : Nat) (f : Slot → Slot) (i : Nat) :
    (b.updSlot k f).sa i = b.sa i := rfl
@[simp] theorem Blk.unit_updSlot (k : Nat) (f : Slot → Slot) (i : Nat) :
    (b.updSlot k f).unit i = b.unit i := rfl
@[simp] theorem Blk.qp_updSlot (k : Nat) (f : Slot → Slot) (i : Nat) :
    (b.updSlot k f).qp i = b.qp i := rfl
@[simp] theorem Blk.trig_updSlot (k : Nat) (f : Slot → Slot) (i : Nat) :
    (b.updSlot k f).trig i = b.trig i := rfl
@[simp] theorem Blk.bport_updSlot (k : Nat) (f : Slot → Slot) (h : Nat) :
    (b.updSlot k f).bport h = b.bport h := rfl
@[simp] theorem Blk.ctlq_updSlot (k : Nat) (f : Slot → Slot) (i : Nat) :
    (b.updSlot k f).ctlq i = b.ctlq i := rfl
@[simp] theorem Blk.scan_updSlot (k : Nat) (f : Slot → Slot) (i : Nat) :
    (b.updSlot k f).scan i = b.scan i := rfl
@[simp] theorem Blk.cfg_updSlot (k : Nat) (f : Slot → Slot) : (b.updSlot k f).cfg = b.cfg := rfl
@[simp] theorem Blk.byte_updSlot (k : Nat) (f : Slot → Slot) (i : Nat) :
    (b.updSlot k f).byte i = b.byte i := rfl
@[simp] theorem Blk.clk_updSlot (k : Nat) (f : Slot → Slot) : (b.updSlot k f).clk = b.clk := rfl
@[simp] theorem Blk.spd_updSlot (k : Nat) (f : Slot → Slot) : (b.updSlot k f).spd = b.spd := rfl
@[simp] theorem Blk.brg_updSlot (k : Nat) (f : Slot → Slot) : (b.updSlot k f).brg = b.brg := rfl
@[simp] theorem Blk.mem_updSlot (k : Nat) (f : Slot → Slot) : (b.updSlot k f).mem = b.mem := rfl
@[simp] theorem Blk.poison_updSlot (k : Nat) (f : Slot → Slot) : (b.updSlot k f).poison = b.poison := rfl
@[simp] theorem Blk.dir_updSlot (k : Nat) (f : Slot → Slot) : (b.updSlot k f).dir = b.dir := rfl
@[simp] theorem Blk.hog_updSlot (k : Nat) (f : Slot → Slot) : (b.updSlot k f).hog = b.hog := rfl
@[simp] theorem Blk.mss_updSlot (k : Nat) (f : Slot → Slot) : (b.updSlot k f).mss = b.mss := rfl
@[simp] theorem Blk.rel_updSlot (k : Nat) (f : Slot → Slot) : (b.updSlot k f).rel = b.rel := rfl
@[simp] theorem Blk.elec_updSlot (k : Nat) (f : Slot → Slot) : (b.updSlot k f).elec = b.elec := rfl
@[simp] theorem Blk.stg_updSlot (k : Nat) (f : Slot → Slot) : (b.updSlot k f).stg = b.stg := rfl
@[simp] theorem Blk.hlat_updSlot (k : Nat) (f : Slot → Slot) : (b.updSlot k f).hlat = b.hlat := rfl
@[simp] theorem Blk.tbLat_updSlot (k : Nat) (f : Slot → Slot) : (b.updSlot k f).tbLat = b.tbLat := rfl
@[simp] theorem Blk.hostFrames_updSlot (k : Nat) (f : Slot → Slot) : (b.updSlot k f).hostFrames = b.hostFrames := rfl
@[simp] theorem Blk.preEpoch_updSlot (k : Nat) (f : Slot → Slot) : (b.updSlot k f).preEpoch = b.preEpoch := rfl
@[simp] theorem Blk.halfDown_updSlot (k : Nat) (f : Slot → Slot) : (b.updSlot k f).halfDown = b.halfDown := rfl
@[simp] theorem Blk.mssWq_updSlot (k : Nat) (f : Slot → Slot) : (b.updSlot k f).mssWq = b.mssWq := rfl
@[simp] theorem Blk.mssCq_updSlot (k : Nat) (f : Slot → Slot) : (b.updSlot k f).mssCq = b.mssCq := rfl
@[simp] theorem Blk.out_updSlot (k : Nat) (f : Slot → Slot) : (b.updSlot k f).out = b.out := rfl
@[simp] theorem Blk.fresh_updSlot (k : Nat) (f : Slot → Slot) : (b.updSlot k f).fresh = b.fresh := rfl
@[simp] theorem Blk.boot_updSlot (k : Nat) (f : Slot → Slot) : (b.updSlot k f).boot = b.boot := rfl
@[simp] theorem Blk.ctl_updSlot (k : Nat) (f : Slot → Slot) : (b.updSlot k f).ctl = b.ctl := rfl
@[simp] theorem Blk.rmt_updSlot (k : Nat) (f : Slot → Slot) : (b.updSlot k f).rmt = b.rmt := rfl
@[simp] theorem Blk.insts_updSlot (k : Nat) (f : Slot → Slot) : (b.updSlot k f).insts = b.insts := rfl
@[simp] theorem Blk.cores_updSlot (k : Nat) (f : Slot → Slot) : (b.updSlot k f).cores = b.cores := rfl
@[simp] theorem Blk.port_updSa (k : Nat) (f : SaState → SaState) (h : Nat) :
    (b.updSa k f).port h = b.port h := rfl
@[simp] theorem Blk.fn_updSa (k : Nat) (f : SaState → SaState) (h : Nat) (f1 : Bool) :
    (b.updSa k f).fn h f1 = b.fn h f1 := rfl
@[simp] theorem Blk.wq_updSa (k : Nat) (f : SaState → SaState) (i : Nat) (q : Nat) :
    (b.updSa k f).wq i q = b.wq i q := rfl
@[simp] theorem Blk.cq_updSa (k : Nat) (f : SaState → SaState) (i : Nat) (q : Nat) :
    (b.updSa k f).cq i q = b.cq i q := rfl
@[simp] theorem Blk.eq_updSa (k : Nat) (f : SaState → SaState) (i : Nat) (q : Nat) :
    (b.updSa k f).eq i q = b.eq i q := rfl
@[simp] theorem Blk.inst_updSa (k : Nat) (f : SaState → SaState) (i : Nat) :
    (b.updSa k f).inst i = b.inst i := rfl
@[simp] theorem Blk.thread_updSa (k : Nat) (f : SaState → SaState) (i : Nat) :
    (b.updSa k f).thread i = b.thread i := rfl
@[simp] theorem Blk.core_updSa (k : Nat) (f : SaState → SaState) (i : Nat) :
    (b.updSa k f).core i = b.core i := rfl
@[simp] theorem Blk.chan_updSa (k : Nat) (f : SaState → SaState) (i : Nat) :
    (b.updSa k f).chan i = b.chan i := rfl
@[simp] theorem Blk.group_updSa (k : Nat) (f : SaState → SaState) (i : Nat) :
    (b.updSa k f).group i = b.group i := rfl
@[simp] theorem Blk.fq_updSa (k : Nat) (f : SaState → SaState) (hf : Half) :
    (b.updSa k f).fq hf = b.fq hf := rfl
@[simp] theorem Blk.pipe_updSa (k : Nat) (f : SaState → SaState) (i : Nat) :
    (b.updSa k f).pipe i = b.pipe i := rfl
@[simp] theorem Blk.lane_updSa (k : Nat) (f : SaState → SaState) (i : Nat) :
    (b.updSa k f).lane i = b.lane i := rfl
@[simp] theorem Blk.dsport_updSa (k : Nat) (f : SaState → SaState) (i : Nat) :
    (b.updSa k f).dsport i = b.dsport i := rfl
@[simp] theorem Blk.eng_updSa (k : Nat) (f : SaState → SaState) (h : Nat) :
    (b.updSa k f).eng h = b.eng h := rfl
@[simp] theorem Blk.chn_updSa (k : Nat) (f : SaState → SaState) (h : Nat) (i : Nat) :
    (b.updSa k f).chn h i = b.chn h i := rfl
@[simp] theorem Blk.slot_updSa (k : Nat) (f : SaState → SaState) (i : Nat) :
    (b.updSa k f).slot i = b.slot i := rfl
@[simp] theorem Blk.unit_updSa (k : Nat) (f : SaState → SaState) (i : Nat) :
    (b.updSa k f).unit i = b.unit i := rfl
@[simp] theorem Blk.qp_updSa (k : Nat) (f : SaState → SaState) (i : Nat) :
    (b.updSa k f).qp i = b.qp i := rfl
@[simp] theorem Blk.trig_updSa (k : Nat) (f : SaState → SaState) (i : Nat) :
    (b.updSa k f).trig i = b.trig i := rfl
@[simp] theorem Blk.bport_updSa (k : Nat) (f : SaState → SaState) (h : Nat) :
    (b.updSa k f).bport h = b.bport h := rfl
@[simp] theorem Blk.ctlq_updSa (k : Nat) (f : SaState → SaState) (i : Nat) :
    (b.updSa k f).ctlq i = b.ctlq i := rfl
@[simp] theorem Blk.scan_updSa (k : Nat) (f : SaState → SaState) (i : Nat) :
    (b.updSa k f).scan i = b.scan i := rfl
@[simp] theorem Blk.cfg_updSa (k : Nat) (f : SaState → SaState) : (b.updSa k f).cfg = b.cfg := rfl
@[simp] theorem Blk.byte_updSa (k : Nat) (f : SaState → SaState) (i : Nat) :
    (b.updSa k f).byte i = b.byte i := rfl
@[simp] theorem Blk.clk_updSa (k : Nat) (f : SaState → SaState) : (b.updSa k f).clk = b.clk := rfl
@[simp] theorem Blk.spd_updSa (k : Nat) (f : SaState → SaState) : (b.updSa k f).spd = b.spd := rfl
@[simp] theorem Blk.brg_updSa (k : Nat) (f : SaState → SaState) : (b.updSa k f).brg = b.brg := rfl
@[simp] theorem Blk.mem_updSa (k : Nat) (f : SaState → SaState) : (b.updSa k f).mem = b.mem := rfl
@[simp] theorem Blk.poison_updSa (k : Nat) (f : SaState → SaState) : (b.updSa k f).poison = b.poison := rfl
@[simp] theorem Blk.dir_updSa (k : Nat) (f : SaState → SaState) : (b.updSa k f).dir = b.dir := rfl
@[simp] theorem Blk.hog_updSa (k : Nat) (f : SaState → SaState) : (b.updSa k f).hog = b.hog := rfl
@[simp] theorem Blk.mss_updSa (k : Nat) (f : SaState → SaState) : (b.updSa k f).mss = b.mss := rfl
@[simp] theorem Blk.rel_updSa (k : Nat) (f : SaState → SaState) : (b.updSa k f).rel = b.rel := rfl
@[simp] theorem Blk.elec_updSa (k : Nat) (f : SaState → SaState) : (b.updSa k f).elec = b.elec := rfl
@[simp] theorem Blk.stg_updSa (k : Nat) (f : SaState → SaState) : (b.updSa k f).stg = b.stg := rfl
@[simp] theorem Blk.hlat_updSa (k : Nat) (f : SaState → SaState) : (b.updSa k f).hlat = b.hlat := rfl
@[simp] theorem Blk.tbLat_updSa (k : Nat) (f : SaState → SaState) : (b.updSa k f).tbLat = b.tbLat := rfl
@[simp] theorem Blk.hostFrames_updSa (k : Nat) (f : SaState → SaState) : (b.updSa k f).hostFrames = b.hostFrames := rfl
@[simp] theorem Blk.preEpoch_updSa (k : Nat) (f : SaState → SaState) : (b.updSa k f).preEpoch = b.preEpoch := rfl
@[simp] theorem Blk.halfDown_updSa (k : Nat) (f : SaState → SaState) : (b.updSa k f).halfDown = b.halfDown := rfl
@[simp] theorem Blk.mssWq_updSa (k : Nat) (f : SaState → SaState) : (b.updSa k f).mssWq = b.mssWq := rfl
@[simp] theorem Blk.mssCq_updSa (k : Nat) (f : SaState → SaState) : (b.updSa k f).mssCq = b.mssCq := rfl
@[simp] theorem Blk.out_updSa (k : Nat) (f : SaState → SaState) : (b.updSa k f).out = b.out := rfl
@[simp] theorem Blk.fresh_updSa (k : Nat) (f : SaState → SaState) : (b.updSa k f).fresh = b.fresh := rfl
@[simp] theorem Blk.boot_updSa (k : Nat) (f : SaState → SaState) : (b.updSa k f).boot = b.boot := rfl
@[simp] theorem Blk.ctl_updSa (k : Nat) (f : SaState → SaState) : (b.updSa k f).ctl = b.ctl := rfl
@[simp] theorem Blk.rmt_updSa (k : Nat) (f : SaState → SaState) : (b.updSa k f).rmt = b.rmt := rfl
@[simp] theorem Blk.insts_updSa (k : Nat) (f : SaState → SaState) : (b.updSa k f).insts = b.insts := rfl
@[simp] theorem Blk.cores_updSa (k : Nat) (f : SaState → SaState) : (b.updSa k f).cores = b.cores := rfl
@[simp] theorem Blk.port_updUnit (k : Nat) (f : Lu → Lu) (h : Nat) :
    (b.updUnit k f).port h = b.port h := rfl
@[simp] theorem Blk.fn_updUnit (k : Nat) (f : Lu → Lu) (h : Nat) (f1 : Bool) :
    (b.updUnit k f).fn h f1 = b.fn h f1 := rfl
@[simp] theorem Blk.wq_updUnit (k : Nat) (f : Lu → Lu) (i : Nat) (q : Nat) :
    (b.updUnit k f).wq i q = b.wq i q := rfl
@[simp] theorem Blk.cq_updUnit (k : Nat) (f : Lu → Lu) (i : Nat) (q : Nat) :
    (b.updUnit k f).cq i q = b.cq i q := rfl
@[simp] theorem Blk.eq_updUnit (k : Nat) (f : Lu → Lu) (i : Nat) (q : Nat) :
    (b.updUnit k f).eq i q = b.eq i q := rfl
@[simp] theorem Blk.inst_updUnit (k : Nat) (f : Lu → Lu) (i : Nat) :
    (b.updUnit k f).inst i = b.inst i := rfl
@[simp] theorem Blk.thread_updUnit (k : Nat) (f : Lu → Lu) (i : Nat) :
    (b.updUnit k f).thread i = b.thread i := rfl
@[simp] theorem Blk.core_updUnit (k : Nat) (f : Lu → Lu) (i : Nat) :
    (b.updUnit k f).core i = b.core i := rfl
@[simp] theorem Blk.chan_updUnit (k : Nat) (f : Lu → Lu) (i : Nat) :
    (b.updUnit k f).chan i = b.chan i := rfl
@[simp] theorem Blk.group_updUnit (k : Nat) (f : Lu → Lu) (i : Nat) :
    (b.updUnit k f).group i = b.group i := rfl
@[simp] theorem Blk.fq_updUnit (k : Nat) (f : Lu → Lu) (hf : Half) :
    (b.updUnit k f).fq hf = b.fq hf := rfl
@[simp] theorem Blk.pipe_updUnit (k : Nat) (f : Lu → Lu) (i : Nat) :
    (b.updUnit k f).pipe i = b.pipe i := rfl
@[simp] theorem Blk.lane_updUnit (k : Nat) (f : Lu → Lu) (i : Nat) :
    (b.updUnit k f).lane i = b.lane i := rfl
@[simp] theorem Blk.dsport_updUnit (k : Nat) (f : Lu → Lu) (i : Nat) :
    (b.updUnit k f).dsport i = b.dsport i := rfl
@[simp] theorem Blk.eng_updUnit (k : Nat) (f : Lu → Lu) (h : Nat) :
    (b.updUnit k f).eng h = b.eng h := rfl
@[simp] theorem Blk.chn_updUnit (k : Nat) (f : Lu → Lu) (h : Nat) (i : Nat) :
    (b.updUnit k f).chn h i = b.chn h i := rfl
@[simp] theorem Blk.slot_updUnit (k : Nat) (f : Lu → Lu) (i : Nat) :
    (b.updUnit k f).slot i = b.slot i := rfl
@[simp] theorem Blk.sa_updUnit (k : Nat) (f : Lu → Lu) (i : Nat) :
    (b.updUnit k f).sa i = b.sa i := rfl
@[simp] theorem Blk.qp_updUnit (k : Nat) (f : Lu → Lu) (i : Nat) :
    (b.updUnit k f).qp i = b.qp i := rfl
@[simp] theorem Blk.trig_updUnit (k : Nat) (f : Lu → Lu) (i : Nat) :
    (b.updUnit k f).trig i = b.trig i := rfl
@[simp] theorem Blk.bport_updUnit (k : Nat) (f : Lu → Lu) (h : Nat) :
    (b.updUnit k f).bport h = b.bport h := rfl
@[simp] theorem Blk.ctlq_updUnit (k : Nat) (f : Lu → Lu) (i : Nat) :
    (b.updUnit k f).ctlq i = b.ctlq i := rfl
@[simp] theorem Blk.scan_updUnit (k : Nat) (f : Lu → Lu) (i : Nat) :
    (b.updUnit k f).scan i = b.scan i := rfl
@[simp] theorem Blk.cfg_updUnit (k : Nat) (f : Lu → Lu) : (b.updUnit k f).cfg = b.cfg := rfl
@[simp] theorem Blk.byte_updUnit (k : Nat) (f : Lu → Lu) (i : Nat) :
    (b.updUnit k f).byte i = b.byte i := rfl
@[simp] theorem Blk.clk_updUnit (k : Nat) (f : Lu → Lu) : (b.updUnit k f).clk = b.clk := rfl
@[simp] theorem Blk.spd_updUnit (k : Nat) (f : Lu → Lu) : (b.updUnit k f).spd = b.spd := rfl
@[simp] theorem Blk.brg_updUnit (k : Nat) (f : Lu → Lu) : (b.updUnit k f).brg = b.brg := rfl
@[simp] theorem Blk.mem_updUnit (k : Nat) (f : Lu → Lu) : (b.updUnit k f).mem = b.mem := rfl
@[simp] theorem Blk.poison_updUnit (k : Nat) (f : Lu → Lu) : (b.updUnit k f).poison = b.poison := rfl
@[simp] theorem Blk.dir_updUnit (k : Nat) (f : Lu → Lu) : (b.updUnit k f).dir = b.dir := rfl
@[simp] theorem Blk.hog_updUnit (k : Nat) (f : Lu → Lu) : (b.updUnit k f).hog = b.hog := rfl
@[simp] theorem Blk.mss_updUnit (k : Nat) (f : Lu → Lu) : (b.updUnit k f).mss = b.mss := rfl
@[simp] theorem Blk.rel_updUnit (k : Nat) (f : Lu → Lu) : (b.updUnit k f).rel = b.rel := rfl
@[simp] theorem Blk.elec_updUnit (k : Nat) (f : Lu → Lu) : (b.updUnit k f).elec = b.elec := rfl
@[simp] theorem Blk.stg_updUnit (k : Nat) (f : Lu → Lu) : (b.updUnit k f).stg = b.stg := rfl
@[simp] theorem Blk.hlat_updUnit (k : Nat) (f : Lu → Lu) : (b.updUnit k f).hlat = b.hlat := rfl
@[simp] theorem Blk.tbLat_updUnit (k : Nat) (f : Lu → Lu) : (b.updUnit k f).tbLat = b.tbLat := rfl
@[simp] theorem Blk.hostFrames_updUnit (k : Nat) (f : Lu → Lu) : (b.updUnit k f).hostFrames = b.hostFrames := rfl
@[simp] theorem Blk.preEpoch_updUnit (k : Nat) (f : Lu → Lu) : (b.updUnit k f).preEpoch = b.preEpoch := rfl
@[simp] theorem Blk.halfDown_updUnit (k : Nat) (f : Lu → Lu) : (b.updUnit k f).halfDown = b.halfDown := rfl
@[simp] theorem Blk.mssWq_updUnit (k : Nat) (f : Lu → Lu) : (b.updUnit k f).mssWq = b.mssWq := rfl
@[simp] theorem Blk.mssCq_updUnit (k : Nat) (f : Lu → Lu) : (b.updUnit k f).mssCq = b.mssCq := rfl
@[simp] theorem Blk.out_updUnit (k : Nat) (f : Lu → Lu) : (b.updUnit k f).out = b.out := rfl
@[simp] theorem Blk.fresh_updUnit (k : Nat) (f : Lu → Lu) : (b.updUnit k f).fresh = b.fresh := rfl
@[simp] theorem Blk.boot_updUnit (k : Nat) (f : Lu → Lu) : (b.updUnit k f).boot = b.boot := rfl
@[simp] theorem Blk.ctl_updUnit (k : Nat) (f : Lu → Lu) : (b.updUnit k f).ctl = b.ctl := rfl
@[simp] theorem Blk.rmt_updUnit (k : Nat) (f : Lu → Lu) : (b.updUnit k f).rmt = b.rmt := rfl
@[simp] theorem Blk.insts_updUnit (k : Nat) (f : Lu → Lu) : (b.updUnit k f).insts = b.insts := rfl
@[simp] theorem Blk.cores_updUnit (k : Nat) (f : Lu → Lu) : (b.updUnit k f).cores = b.cores := rfl
@[simp] theorem Blk.port_updQp (k : Nat) (f : Qp → Qp) (h : Nat) :
    (b.updQp k f).port h = b.port h := rfl
@[simp] theorem Blk.fn_updQp (k : Nat) (f : Qp → Qp) (h : Nat) (f1 : Bool) :
    (b.updQp k f).fn h f1 = b.fn h f1 := rfl
@[simp] theorem Blk.wq_updQp (k : Nat) (f : Qp → Qp) (i : Nat) (q : Nat) :
    (b.updQp k f).wq i q = b.wq i q := rfl
@[simp] theorem Blk.cq_updQp (k : Nat) (f : Qp → Qp) (i : Nat) (q : Nat) :
    (b.updQp k f).cq i q = b.cq i q := rfl
@[simp] theorem Blk.eq_updQp (k : Nat) (f : Qp → Qp) (i : Nat) (q : Nat) :
    (b.updQp k f).eq i q = b.eq i q := rfl
@[simp] theorem Blk.inst_updQp (k : Nat) (f : Qp → Qp) (i : Nat) :
    (b.updQp k f).inst i = b.inst i := rfl
@[simp] theorem Blk.thread_updQp (k : Nat) (f : Qp → Qp) (i : Nat) :
    (b.updQp k f).thread i = b.thread i := rfl
@[simp] theorem Blk.core_updQp (k : Nat) (f : Qp → Qp) (i : Nat) :
    (b.updQp k f).core i = b.core i := rfl
@[simp] theorem Blk.chan_updQp (k : Nat) (f : Qp → Qp) (i : Nat) :
    (b.updQp k f).chan i = b.chan i := rfl
@[simp] theorem Blk.group_updQp (k : Nat) (f : Qp → Qp) (i : Nat) :
    (b.updQp k f).group i = b.group i := rfl
@[simp] theorem Blk.fq_updQp (k : Nat) (f : Qp → Qp) (hf : Half) :
    (b.updQp k f).fq hf = b.fq hf := rfl
@[simp] theorem Blk.pipe_updQp (k : Nat) (f : Qp → Qp) (i : Nat) :
    (b.updQp k f).pipe i = b.pipe i := rfl
@[simp] theorem Blk.lane_updQp (k : Nat) (f : Qp → Qp) (i : Nat) :
    (b.updQp k f).lane i = b.lane i := rfl
@[simp] theorem Blk.dsport_updQp (k : Nat) (f : Qp → Qp) (i : Nat) :
    (b.updQp k f).dsport i = b.dsport i := rfl
@[simp] theorem Blk.eng_updQp (k : Nat) (f : Qp → Qp) (h : Nat) :
    (b.updQp k f).eng h = b.eng h := rfl
@[simp] theorem Blk.chn_updQp (k : Nat) (f : Qp → Qp) (h : Nat) (i : Nat) :
    (b.updQp k f).chn h i = b.chn h i := rfl
@[simp] theorem Blk.slot_updQp (k : Nat) (f : Qp → Qp) (i : Nat) :
    (b.updQp k f).slot i = b.slot i := rfl
@[simp] theorem Blk.sa_updQp (k : Nat) (f : Qp → Qp) (i : Nat) :
    (b.updQp k f).sa i = b.sa i := rfl
@[simp] theorem Blk.unit_updQp (k : Nat) (f : Qp → Qp) (i : Nat) :
    (b.updQp k f).unit i = b.unit i := rfl
@[simp] theorem Blk.trig_updQp (k : Nat) (f : Qp → Qp) (i : Nat) :
    (b.updQp k f).trig i = b.trig i := rfl
@[simp] theorem Blk.bport_updQp (k : Nat) (f : Qp → Qp) (h : Nat) :
    (b.updQp k f).bport h = b.bport h := rfl
@[simp] theorem Blk.ctlq_updQp (k : Nat) (f : Qp → Qp) (i : Nat) :
    (b.updQp k f).ctlq i = b.ctlq i := rfl
@[simp] theorem Blk.scan_updQp (k : Nat) (f : Qp → Qp) (i : Nat) :
    (b.updQp k f).scan i = b.scan i := rfl
@[simp] theorem Blk.cfg_updQp (k : Nat) (f : Qp → Qp) : (b.updQp k f).cfg = b.cfg := rfl
@[simp] theorem Blk.byte_updQp (k : Nat) (f : Qp → Qp) (i : Nat) :
    (b.updQp k f).byte i = b.byte i := rfl
@[simp] theorem Blk.clk_updQp (k : Nat) (f : Qp → Qp) : (b.updQp k f).clk = b.clk := rfl
@[simp] theorem Blk.spd_updQp (k : Nat) (f : Qp → Qp) : (b.updQp k f).spd = b.spd := rfl
@[simp] theorem Blk.brg_updQp (k : Nat) (f : Qp → Qp) : (b.updQp k f).brg = b.brg := rfl
@[simp] theorem Blk.mem_updQp (k : Nat) (f : Qp → Qp) : (b.updQp k f).mem = b.mem := rfl
@[simp] theorem Blk.poison_updQp (k : Nat) (f : Qp → Qp) : (b.updQp k f).poison = b.poison := rfl
@[simp] theorem Blk.dir_updQp (k : Nat) (f : Qp → Qp) : (b.updQp k f).dir = b.dir := rfl
@[simp] theorem Blk.hog_updQp (k : Nat) (f : Qp → Qp) : (b.updQp k f).hog = b.hog := rfl
@[simp] theorem Blk.mss_updQp (k : Nat) (f : Qp → Qp) : (b.updQp k f).mss = b.mss := rfl
@[simp] theorem Blk.rel_updQp (k : Nat) (f : Qp → Qp) : (b.updQp k f).rel = b.rel := rfl
@[simp] theorem Blk.elec_updQp (k : Nat) (f : Qp → Qp) : (b.updQp k f).elec = b.elec := rfl
@[simp] theorem Blk.stg_updQp (k : Nat) (f : Qp → Qp) : (b.updQp k f).stg = b.stg := rfl
@[simp] theorem Blk.hlat_updQp (k : Nat) (f : Qp → Qp) : (b.updQp k f).hlat = b.hlat := rfl
@[simp] theorem Blk.tbLat_updQp (k : Nat) (f : Qp → Qp) : (b.updQp k f).tbLat = b.tbLat := rfl
@[simp] theorem Blk.hostFrames_updQp (k : Nat) (f : Qp → Qp) : (b.updQp k f).hostFrames = b.hostFrames := rfl
@[simp] theorem Blk.preEpoch_updQp (k : Nat) (f : Qp → Qp) : (b.updQp k f).preEpoch = b.preEpoch := rfl
@[simp] theorem Blk.halfDown_updQp (k : Nat) (f : Qp → Qp) : (b.updQp k f).halfDown = b.halfDown := rfl
@[simp] theorem Blk.mssWq_updQp (k : Nat) (f : Qp → Qp) : (b.updQp k f).mssWq = b.mssWq := rfl
@[simp] theorem Blk.mssCq_updQp (k : Nat) (f : Qp → Qp) : (b.updQp k f).mssCq = b.mssCq := rfl
@[simp] theorem Blk.out_updQp (k : Nat) (f : Qp → Qp) : (b.updQp k f).out = b.out := rfl
@[simp] theorem Blk.fresh_updQp (k : Nat) (f : Qp → Qp) : (b.updQp k f).fresh = b.fresh := rfl
@[simp] theorem Blk.boot_updQp (k : Nat) (f : Qp → Qp) : (b.updQp k f).boot = b.boot := rfl
@[simp] theorem Blk.ctl_updQp (k : Nat) (f : Qp → Qp) : (b.updQp k f).ctl = b.ctl := rfl
@[simp] theorem Blk.keys_updQp (k : Nat) (f : Qp → Qp) : (b.updQp k f).keys = b.keys := rfl
@[simp] theorem Blk.insts_updQp (k : Nat) (f : Qp → Qp) : (b.updQp k f).insts = b.insts := rfl
@[simp] theorem Blk.cores_updQp (k : Nat) (f : Qp → Qp) : (b.updQp k f).cores = b.cores := rfl
@[simp] theorem Blk.port_updTrig (k : Nat) (f : Trig → Trig) (h : Nat) :
    (b.updTrig k f).port h = b.port h := rfl
@[simp] theorem Blk.fn_updTrig (k : Nat) (f : Trig → Trig) (h : Nat) (f1 : Bool) :
    (b.updTrig k f).fn h f1 = b.fn h f1 := rfl
@[simp] theorem Blk.wq_updTrig (k : Nat) (f : Trig → Trig) (i : Nat) (q : Nat) :
    (b.updTrig k f).wq i q = b.wq i q := rfl
@[simp] theorem Blk.cq_updTrig (k : Nat) (f : Trig → Trig) (i : Nat) (q : Nat) :
    (b.updTrig k f).cq i q = b.cq i q := rfl
@[simp] theorem Blk.eq_updTrig (k : Nat) (f : Trig → Trig) (i : Nat) (q : Nat) :
    (b.updTrig k f).eq i q = b.eq i q := rfl
@[simp] theorem Blk.inst_updTrig (k : Nat) (f : Trig → Trig) (i : Nat) :
    (b.updTrig k f).inst i = b.inst i := rfl
@[simp] theorem Blk.thread_updTrig (k : Nat) (f : Trig → Trig) (i : Nat) :
    (b.updTrig k f).thread i = b.thread i := rfl
@[simp] theorem Blk.core_updTrig (k : Nat) (f : Trig → Trig) (i : Nat) :
    (b.updTrig k f).core i = b.core i := rfl
@[simp] theorem Blk.chan_updTrig (k : Nat) (f : Trig → Trig) (i : Nat) :
    (b.updTrig k f).chan i = b.chan i := rfl
@[simp] theorem Blk.group_updTrig (k : Nat) (f : Trig → Trig) (i : Nat) :
    (b.updTrig k f).group i = b.group i := rfl
@[simp] theorem Blk.fq_updTrig (k : Nat) (f : Trig → Trig) (hf : Half) :
    (b.updTrig k f).fq hf = b.fq hf := rfl
@[simp] theorem Blk.pipe_updTrig (k : Nat) (f : Trig → Trig) (i : Nat) :
    (b.updTrig k f).pipe i = b.pipe i := rfl
@[simp] theorem Blk.lane_updTrig (k : Nat) (f : Trig → Trig) (i : Nat) :
    (b.updTrig k f).lane i = b.lane i := rfl
@[simp] theorem Blk.dsport_updTrig (k : Nat) (f : Trig → Trig) (i : Nat) :
    (b.updTrig k f).dsport i = b.dsport i := rfl
@[simp] theorem Blk.eng_updTrig (k : Nat) (f : Trig → Trig) (h : Nat) :
    (b.updTrig k f).eng h = b.eng h := rfl
@[simp] theorem Blk.chn_updTrig (k : Nat) (f : Trig → Trig) (h : Nat) (i : Nat) :
    (b.updTrig k f).chn h i = b.chn h i := rfl
@[simp] theorem Blk.slot_updTrig (k : Nat) (f : Trig → Trig) (i : Nat) :
    (b.updTrig k f).slot i = b.slot i := rfl
@[simp] theorem Blk.sa_updTrig (k : Nat) (f : Trig → Trig) (i : Nat) :
    (b.updTrig k f).sa i = b.sa i := rfl
@[simp] theorem Blk.unit_updTrig (k : Nat) (f : Trig → Trig) (i : Nat) :
    (b.updTrig k f).unit i = b.unit i := rfl
@[simp] theorem Blk.qp_updTrig (k : Nat) (f : Trig → Trig) (i : Nat) :
    (b.updTrig k f).qp i = b.qp i := rfl
@[simp] theorem Blk.bport_updTrig (k : Nat) (f : Trig → Trig) (h : Nat) :
    (b.updTrig k f).bport h = b.bport h := rfl
@[simp] theorem Blk.ctlq_updTrig (k : Nat) (f : Trig → Trig) (i : Nat) :
    (b.updTrig k f).ctlq i = b.ctlq i := rfl
@[simp] theorem Blk.scan_updTrig (k : Nat) (f : Trig → Trig) (i : Nat) :
    (b.updTrig k f).scan i = b.scan i := rfl
@[simp] theorem Blk.cfg_updTrig (k : Nat) (f : Trig → Trig) : (b.updTrig k f).cfg = b.cfg := rfl
@[simp] theorem Blk.byte_updTrig (k : Nat) (f : Trig → Trig) (i : Nat) :
    (b.updTrig k f).byte i = b.byte i := rfl
@[simp] theorem Blk.clk_updTrig (k : Nat) (f : Trig → Trig) : (b.updTrig k f).clk = b.clk := rfl
@[simp] theorem Blk.spd_updTrig (k : Nat) (f : Trig → Trig) : (b.updTrig k f).spd = b.spd := rfl
@[simp] theorem Blk.brg_updTrig (k : Nat) (f : Trig → Trig) : (b.updTrig k f).brg = b.brg := rfl
@[simp] theorem Blk.mem_updTrig (k : Nat) (f : Trig → Trig) : (b.updTrig k f).mem = b.mem := rfl
@[simp] theorem Blk.poison_updTrig (k : Nat) (f : Trig → Trig) : (b.updTrig k f).poison = b.poison := rfl
@[simp] theorem Blk.dir_updTrig (k : Nat) (f : Trig → Trig) : (b.updTrig k f).dir = b.dir := rfl
@[simp] theorem Blk.hog_updTrig (k : Nat) (f : Trig → Trig) : (b.updTrig k f).hog = b.hog := rfl
@[simp] theorem Blk.mss_updTrig (k : Nat) (f : Trig → Trig) : (b.updTrig k f).mss = b.mss := rfl
@[simp] theorem Blk.rel_updTrig (k : Nat) (f : Trig → Trig) : (b.updTrig k f).rel = b.rel := rfl
@[simp] theorem Blk.elec_updTrig (k : Nat) (f : Trig → Trig) : (b.updTrig k f).elec = b.elec := rfl
@[simp] theorem Blk.stg_updTrig (k : Nat) (f : Trig → Trig) : (b.updTrig k f).stg = b.stg := rfl
@[simp] theorem Blk.hlat_updTrig (k : Nat) (f : Trig → Trig) : (b.updTrig k f).hlat = b.hlat := rfl
@[simp] theorem Blk.tbLat_updTrig (k : Nat) (f : Trig → Trig) : (b.updTrig k f).tbLat = b.tbLat := rfl
@[simp] theorem Blk.hostFrames_updTrig (k : Nat) (f : Trig → Trig) : (b.updTrig k f).hostFrames = b.hostFrames := rfl
@[simp] theorem Blk.preEpoch_updTrig (k : Nat) (f : Trig → Trig) : (b.updTrig k f).preEpoch = b.preEpoch := rfl
@[simp] theorem Blk.halfDown_updTrig (k : Nat) (f : Trig → Trig) : (b.updTrig k f).halfDown = b.halfDown := rfl
@[simp] theorem Blk.mssWq_updTrig (k : Nat) (f : Trig → Trig) : (b.updTrig k f).mssWq = b.mssWq := rfl
@[simp] theorem Blk.mssCq_updTrig (k : Nat) (f : Trig → Trig) : (b.updTrig k f).mssCq = b.mssCq := rfl
@[simp] theorem Blk.out_updTrig (k : Nat) (f : Trig → Trig) : (b.updTrig k f).out = b.out := rfl
@[simp] theorem Blk.fresh_updTrig (k : Nat) (f : Trig → Trig) : (b.updTrig k f).fresh = b.fresh := rfl
@[simp] theorem Blk.boot_updTrig (k : Nat) (f : Trig → Trig) : (b.updTrig k f).boot = b.boot := rfl
@[simp] theorem Blk.ctl_updTrig (k : Nat) (f : Trig → Trig) : (b.updTrig k f).ctl = b.ctl := rfl
@[simp] theorem Blk.keys_updTrig (k : Nat) (f : Trig → Trig) : (b.updTrig k f).keys = b.keys := rfl
@[simp] theorem Blk.insts_updTrig (k : Nat) (f : Trig → Trig) : (b.updTrig k f).insts = b.insts := rfl
@[simp] theorem Blk.cores_updTrig (k : Nat) (f : Trig → Trig) : (b.updTrig k f).cores = b.cores := rfl
@[simp] theorem Blk.port_updBport (k : Nat) (f : BootPort → BootPort) (h : Nat) :
    (b.updBport k f).port h = b.port h := rfl
@[simp] theorem Blk.fn_updBport (k : Nat) (f : BootPort → BootPort) (h : Nat) (f1 : Bool) :
    (b.updBport k f).fn h f1 = b.fn h f1 := rfl
@[simp] theorem Blk.wq_updBport (k : Nat) (f : BootPort → BootPort) (i : Nat) (q : Nat) :
    (b.updBport k f).wq i q = b.wq i q := rfl
@[simp] theorem Blk.cq_updBport (k : Nat) (f : BootPort → BootPort) (i : Nat) (q : Nat) :
    (b.updBport k f).cq i q = b.cq i q := rfl
@[simp] theorem Blk.eq_updBport (k : Nat) (f : BootPort → BootPort) (i : Nat) (q : Nat) :
    (b.updBport k f).eq i q = b.eq i q := rfl
@[simp] theorem Blk.inst_updBport (k : Nat) (f : BootPort → BootPort) (i : Nat) :
    (b.updBport k f).inst i = b.inst i := rfl
@[simp] theorem Blk.thread_updBport (k : Nat) (f : BootPort → BootPort) (i : Nat) :
    (b.updBport k f).thread i = b.thread i := rfl
@[simp] theorem Blk.core_updBport (k : Nat) (f : BootPort → BootPort) (i : Nat) :
    (b.updBport k f).core i = b.core i := rfl
@[simp] theorem Blk.chan_updBport (k : Nat) (f : BootPort → BootPort) (i : Nat) :
    (b.updBport k f).chan i = b.chan i := rfl
@[simp] theorem Blk.group_updBport (k : Nat) (f : BootPort → BootPort) (i : Nat) :
    (b.updBport k f).group i = b.group i := rfl
@[simp] theorem Blk.fq_updBport (k : Nat) (f : BootPort → BootPort) (hf : Half) :
    (b.updBport k f).fq hf = b.fq hf := rfl
@[simp] theorem Blk.pipe_updBport (k : Nat) (f : BootPort → BootPort) (i : Nat) :
    (b.updBport k f).pipe i = b.pipe i := rfl
@[simp] theorem Blk.lane_updBport (k : Nat) (f : BootPort → BootPort) (i : Nat) :
    (b.updBport k f).lane i = b.lane i := rfl
@[simp] theorem Blk.dsport_updBport (k : Nat) (f : BootPort → BootPort) (i : Nat) :
    (b.updBport k f).dsport i = b.dsport i := rfl
@[simp] theorem Blk.eng_updBport (k : Nat) (f : BootPort → BootPort) (h : Nat) :
    (b.updBport k f).eng h = b.eng h := rfl
@[simp] theorem Blk.chn_updBport (k : Nat) (f : BootPort → BootPort) (h : Nat) (i : Nat) :
    (b.updBport k f).chn h i = b.chn h i := rfl
@[simp] theorem Blk.slot_updBport (k : Nat) (f : BootPort → BootPort) (i : Nat) :
    (b.updBport k f).slot i = b.slot i := rfl
@[simp] theorem Blk.sa_updBport (k : Nat) (f : BootPort → BootPort) (i : Nat) :
    (b.updBport k f).sa i = b.sa i := rfl
@[simp] theorem Blk.unit_updBport (k : Nat) (f : BootPort → BootPort) (i : Nat) :
    (b.updBport k f).unit i = b.unit i := rfl
@[simp] theorem Blk.qp_updBport (k : Nat) (f : BootPort → BootPort) (i : Nat) :
    (b.updBport k f).qp i = b.qp i := rfl
@[simp] theorem Blk.trig_updBport (k : Nat) (f : BootPort → BootPort) (i : Nat) :
    (b.updBport k f).trig i = b.trig i := rfl
@[simp] theorem Blk.ctlq_updBport (k : Nat) (f : BootPort → BootPort) (i : Nat) :
    (b.updBport k f).ctlq i = b.ctlq i := rfl
@[simp] theorem Blk.scan_updBport (k : Nat) (f : BootPort → BootPort) (i : Nat) :
    (b.updBport k f).scan i = b.scan i := rfl
@[simp] theorem Blk.cfg_updBport (k : Nat) (f : BootPort → BootPort) : (b.updBport k f).cfg = b.cfg := rfl
@[simp] theorem Blk.byte_updBport (k : Nat) (f : BootPort → BootPort) (i : Nat) :
    (b.updBport k f).byte i = b.byte i := rfl
@[simp] theorem Blk.clk_updBport (k : Nat) (f : BootPort → BootPort) : (b.updBport k f).clk = b.clk := rfl
@[simp] theorem Blk.spd_updBport (k : Nat) (f : BootPort → BootPort) : (b.updBport k f).spd = b.spd := rfl
@[simp] theorem Blk.brg_updBport (k : Nat) (f : BootPort → BootPort) : (b.updBport k f).brg = b.brg := rfl
@[simp] theorem Blk.mem_updBport (k : Nat) (f : BootPort → BootPort) : (b.updBport k f).mem = b.mem := rfl
@[simp] theorem Blk.poison_updBport (k : Nat) (f : BootPort → BootPort) : (b.updBport k f).poison = b.poison := rfl
@[simp] theorem Blk.dir_updBport (k : Nat) (f : BootPort → BootPort) : (b.updBport k f).dir = b.dir := rfl
@[simp] theorem Blk.hog_updBport (k : Nat) (f : BootPort → BootPort) : (b.updBport k f).hog = b.hog := rfl
@[simp] theorem Blk.mss_updBport (k : Nat) (f : BootPort → BootPort) : (b.updBport k f).mss = b.mss := rfl
@[simp] theorem Blk.rel_updBport (k : Nat) (f : BootPort → BootPort) : (b.updBport k f).rel = b.rel := rfl
@[simp] theorem Blk.elec_updBport (k : Nat) (f : BootPort → BootPort) : (b.updBport k f).elec = b.elec := rfl
@[simp] theorem Blk.stg_updBport (k : Nat) (f : BootPort → BootPort) : (b.updBport k f).stg = b.stg := rfl
@[simp] theorem Blk.hlat_updBport (k : Nat) (f : BootPort → BootPort) : (b.updBport k f).hlat = b.hlat := rfl
@[simp] theorem Blk.tbLat_updBport (k : Nat) (f : BootPort → BootPort) : (b.updBport k f).tbLat = b.tbLat := rfl
@[simp] theorem Blk.hostFrames_updBport (k : Nat) (f : BootPort → BootPort) : (b.updBport k f).hostFrames = b.hostFrames := rfl
@[simp] theorem Blk.preEpoch_updBport (k : Nat) (f : BootPort → BootPort) : (b.updBport k f).preEpoch = b.preEpoch := rfl
@[simp] theorem Blk.halfDown_updBport (k : Nat) (f : BootPort → BootPort) : (b.updBport k f).halfDown = b.halfDown := rfl
@[simp] theorem Blk.mssWq_updBport (k : Nat) (f : BootPort → BootPort) : (b.updBport k f).mssWq = b.mssWq := rfl
@[simp] theorem Blk.mssCq_updBport (k : Nat) (f : BootPort → BootPort) : (b.updBport k f).mssCq = b.mssCq := rfl
@[simp] theorem Blk.out_updBport (k : Nat) (f : BootPort → BootPort) : (b.updBport k f).out = b.out := rfl
@[simp] theorem Blk.fresh_updBport (k : Nat) (f : BootPort → BootPort) : (b.updBport k f).fresh = b.fresh := rfl
@[simp] theorem Blk.ctl_updBport (k : Nat) (f : BootPort → BootPort) : (b.updBport k f).ctl = b.ctl := rfl
@[simp] theorem Blk.keys_updBport (k : Nat) (f : BootPort → BootPort) : (b.updBport k f).keys = b.keys := rfl
@[simp] theorem Blk.rmt_updBport (k : Nat) (f : BootPort → BootPort) : (b.updBport k f).rmt = b.rmt := rfl
@[simp] theorem Blk.insts_updBport (k : Nat) (f : BootPort → BootPort) : (b.updBport k f).insts = b.insts := rfl
@[simp] theorem Blk.cores_updBport (k : Nat) (f : BootPort → BootPort) : (b.updBport k f).cores = b.cores := rfl
@[simp] theorem Blk.port_updCtlq (k : CqKey) (f : CtlState → CtlState) (h : Nat) :
    (b.updCtlq k f).port h = b.port h := rfl
@[simp] theorem Blk.fn_updCtlq (k : CqKey) (f : CtlState → CtlState) (h : Nat) (f1 : Bool) :
    (b.updCtlq k f).fn h f1 = b.fn h f1 := rfl
@[simp] theorem Blk.wq_updCtlq (k : CqKey) (f : CtlState → CtlState) (i : Nat) (q : Nat) :
    (b.updCtlq k f).wq i q = b.wq i q := rfl
@[simp] theorem Blk.cq_updCtlq (k : CqKey) (f : CtlState → CtlState) (i : Nat) (q : Nat) :
    (b.updCtlq k f).cq i q = b.cq i q := rfl
@[simp] theorem Blk.eq_updCtlq (k : CqKey) (f : CtlState → CtlState) (i : Nat) (q : Nat) :
    (b.updCtlq k f).eq i q = b.eq i q := rfl
@[simp] theorem Blk.inst_updCtlq (k : CqKey) (f : CtlState → CtlState) (i : Nat) :
    (b.updCtlq k f).inst i = b.inst i := rfl
@[simp] theorem Blk.thread_updCtlq (k : CqKey) (f : CtlState → CtlState) (i : Nat) :
    (b.updCtlq k f).thread i = b.thread i := rfl
@[simp] theorem Blk.core_updCtlq (k : CqKey) (f : CtlState → CtlState) (i : Nat) :
    (b.updCtlq k f).core i = b.core i := rfl
@[simp] theorem Blk.chan_updCtlq (k : CqKey) (f : CtlState → CtlState) (i : Nat) :
    (b.updCtlq k f).chan i = b.chan i := rfl
@[simp] theorem Blk.group_updCtlq (k : CqKey) (f : CtlState → CtlState) (i : Nat) :
    (b.updCtlq k f).group i = b.group i := rfl
@[simp] theorem Blk.fq_updCtlq (k : CqKey) (f : CtlState → CtlState) (hf : Half) :
    (b.updCtlq k f).fq hf = b.fq hf := rfl
@[simp] theorem Blk.pipe_updCtlq (k : CqKey) (f : CtlState → CtlState) (i : Nat) :
    (b.updCtlq k f).pipe i = b.pipe i := rfl
@[simp] theorem Blk.lane_updCtlq (k : CqKey) (f : CtlState → CtlState) (i : Nat) :
    (b.updCtlq k f).lane i = b.lane i := rfl
@[simp] theorem Blk.dsport_updCtlq (k : CqKey) (f : CtlState → CtlState) (i : Nat) :
    (b.updCtlq k f).dsport i = b.dsport i := rfl
@[simp] theorem Blk.eng_updCtlq (k : CqKey) (f : CtlState → CtlState) (h : Nat) :
    (b.updCtlq k f).eng h = b.eng h := rfl
@[simp] theorem Blk.chn_updCtlq (k : CqKey) (f : CtlState → CtlState) (h : Nat) (i : Nat) :
    (b.updCtlq k f).chn h i = b.chn h i := rfl
@[simp] theorem Blk.slot_updCtlq (k : CqKey) (f : CtlState → CtlState) (i : Nat) :
    (b.updCtlq k f).slot i = b.slot i := rfl
@[simp] theorem Blk.sa_updCtlq (k : CqKey) (f : CtlState → CtlState) (i : Nat) :
    (b.updCtlq k f).sa i = b.sa i := rfl
@[simp] theorem Blk.unit_updCtlq (k : CqKey) (f : CtlState → CtlState) (i : Nat) :
    (b.updCtlq k f).unit i = b.unit i := rfl
@[simp] theorem Blk.qp_updCtlq (k : CqKey) (f : CtlState → CtlState) (i : Nat) :
    (b.updCtlq k f).qp i = b.qp i := rfl
@[simp] theorem Blk.trig_updCtlq (k : CqKey) (f : CtlState → CtlState) (i : Nat) :
    (b.updCtlq k f).trig i = b.trig i := rfl
@[simp] theorem Blk.bport_updCtlq (k : CqKey) (f : CtlState → CtlState) (h : Nat) :
    (b.updCtlq k f).bport h = b.bport h := rfl
@[simp] theorem Blk.scan_updCtlq (k : CqKey) (f : CtlState → CtlState) (i : Nat) :
    (b.updCtlq k f).scan i = b.scan i := rfl
@[simp] theorem Blk.cfg_updCtlq (k : CqKey) (f : CtlState → CtlState) : (b.updCtlq k f).cfg = b.cfg := rfl
@[simp] theorem Blk.byte_updCtlq (k : CqKey) (f : CtlState → CtlState) (i : Nat) :
    (b.updCtlq k f).byte i = b.byte i := rfl
@[simp] theorem Blk.clk_updCtlq (k : CqKey) (f : CtlState → CtlState) : (b.updCtlq k f).clk = b.clk := rfl
@[simp] theorem Blk.spd_updCtlq (k : CqKey) (f : CtlState → CtlState) : (b.updCtlq k f).spd = b.spd := rfl
@[simp] theorem Blk.brg_updCtlq (k : CqKey) (f : CtlState → CtlState) : (b.updCtlq k f).brg = b.brg := rfl
@[simp] theorem Blk.mem_updCtlq (k : CqKey) (f : CtlState → CtlState) : (b.updCtlq k f).mem = b.mem := rfl
@[simp] theorem Blk.poison_updCtlq (k : CqKey) (f : CtlState → CtlState) : (b.updCtlq k f).poison = b.poison := rfl
@[simp] theorem Blk.dir_updCtlq (k : CqKey) (f : CtlState → CtlState) : (b.updCtlq k f).dir = b.dir := rfl
@[simp] theorem Blk.hog_updCtlq (k : CqKey) (f : CtlState → CtlState) : (b.updCtlq k f).hog = b.hog := rfl
@[simp] theorem Blk.mss_updCtlq (k : CqKey) (f : CtlState → CtlState) : (b.updCtlq k f).mss = b.mss := rfl
@[simp] theorem Blk.rel_updCtlq (k : CqKey) (f : CtlState → CtlState) : (b.updCtlq k f).rel = b.rel := rfl
@[simp] theorem Blk.elec_updCtlq (k : CqKey) (f : CtlState → CtlState) : (b.updCtlq k f).elec = b.elec := rfl
@[simp] theorem Blk.stg_updCtlq (k : CqKey) (f : CtlState → CtlState) : (b.updCtlq k f).stg = b.stg := rfl
@[simp] theorem Blk.hlat_updCtlq (k : CqKey) (f : CtlState → CtlState) : (b.updCtlq k f).hlat = b.hlat := rfl
@[simp] theorem Blk.tbLat_updCtlq (k : CqKey) (f : CtlState → CtlState) : (b.updCtlq k f).tbLat = b.tbLat := rfl
@[simp] theorem Blk.hostFrames_updCtlq (k : CqKey) (f : CtlState → CtlState) : (b.updCtlq k f).hostFrames = b.hostFrames := rfl
@[simp] theorem Blk.preEpoch_updCtlq (k : CqKey) (f : CtlState → CtlState) : (b.updCtlq k f).preEpoch = b.preEpoch := rfl
@[simp] theorem Blk.halfDown_updCtlq (k : CqKey) (f : CtlState → CtlState) : (b.updCtlq k f).halfDown = b.halfDown := rfl
@[simp] theorem Blk.mssWq_updCtlq (k : CqKey) (f : CtlState → CtlState) : (b.updCtlq k f).mssWq = b.mssWq := rfl
@[simp] theorem Blk.mssCq_updCtlq (k : CqKey) (f : CtlState → CtlState) : (b.updCtlq k f).mssCq = b.mssCq := rfl
@[simp] theorem Blk.out_updCtlq (k : CqKey) (f : CtlState → CtlState) : (b.updCtlq k f).out = b.out := rfl
@[simp] theorem Blk.fresh_updCtlq (k : CqKey) (f : CtlState → CtlState) : (b.updCtlq k f).fresh = b.fresh := rfl
@[simp] theorem Blk.boot_updCtlq (k : CqKey) (f : CtlState → CtlState) : (b.updCtlq k f).boot = b.boot := rfl
@[simp] theorem Blk.keys_updCtlq (k : CqKey) (f : CtlState → CtlState) : (b.updCtlq k f).keys = b.keys := rfl
@[simp] theorem Blk.rmt_updCtlq (k : CqKey) (f : CtlState → CtlState) : (b.updCtlq k f).rmt = b.rmt := rfl
@[simp] theorem Blk.insts_updCtlq (k : CqKey) (f : CtlState → CtlState) : (b.updCtlq k f).insts = b.insts := rfl
@[simp] theorem Blk.cores_updCtlq (k : CqKey) (f : CtlState → CtlState) : (b.updCtlq k f).cores = b.cores := rfl
@[simp] theorem Blk.port_updScan (k : CqKey) (f : Scan → Scan) (h : Nat) :
    (b.updScan k f).port h = b.port h := rfl
@[simp] theorem Blk.fn_updScan (k : CqKey) (f : Scan → Scan) (h : Nat) (f1 : Bool) :
    (b.updScan k f).fn h f1 = b.fn h f1 := rfl
@[simp] theorem Blk.wq_updScan (k : CqKey) (f : Scan → Scan) (i : Nat) (q : Nat) :
    (b.updScan k f).wq i q = b.wq i q := rfl
@[simp] theorem Blk.cq_updScan (k : CqKey) (f : Scan → Scan) (i : Nat) (q : Nat) :
    (b.updScan k f).cq i q = b.cq i q := rfl
@[simp] theorem Blk.eq_updScan (k : CqKey) (f : Scan → Scan) (i : Nat) (q : Nat) :
    (b.updScan k f).eq i q = b.eq i q := rfl
@[simp] theorem Blk.inst_updScan (k : CqKey) (f : Scan → Scan) (i : Nat) :
    (b.updScan k f).inst i = b.inst i := rfl
@[simp] theorem Blk.thread_updScan (k : CqKey) (f : Scan → Scan) (i : Nat) :
    (b.updScan k f).thread i = b.thread i := rfl
@[simp] theorem Blk.core_updScan (k : CqKey) (f : Scan → Scan) (i : Nat) :
    (b.updScan k f).core i = b.core i := rfl
@[simp] theorem Blk.chan_updScan (k : CqKey) (f : Scan → Scan) (i : Nat) :
    (b.updScan k f).chan i = b.chan i := rfl
@[simp] theorem Blk.group_updScan (k : CqKey) (f : Scan → Scan) (i : Nat) :
    (b.updScan k f).group i = b.group i := rfl
@[simp] theorem Blk.fq_updScan (k : CqKey) (f : Scan → Scan) (hf : Half) :
    (b.updScan k f).fq hf = b.fq hf := rfl
@[simp] theorem Blk.pipe_updScan (k : CqKey) (f : Scan → Scan) (i : Nat) :
    (b.updScan k f).pipe i = b.pipe i := rfl
@[simp] theorem Blk.lane_updScan (k : CqKey) (f : Scan → Scan) (i : Nat) :
    (b.updScan k f).lane i = b.lane i := rfl
@[simp] theorem Blk.dsport_updScan (k : CqKey) (f : Scan → Scan) (i : Nat) :
    (b.updScan k f).dsport i = b.dsport i := rfl
@[simp] theorem Blk.eng_updScan (k : CqKey) (f : Scan → Scan) (h : Nat) :
    (b.updScan k f).eng h = b.eng h := rfl
@[simp] theorem Blk.chn_updScan (k : CqKey) (f : Scan → Scan) (h : Nat) (i : Nat) :
    (b.updScan k f).chn h i = b.chn h i := rfl
@[simp] theorem Blk.slot_updScan (k : CqKey) (f : Scan → Scan) (i : Nat) :
    (b.updScan k f).slot i = b.slot i := rfl
@[simp] theorem Blk.sa_updScan (k : CqKey) (f : Scan → Scan) (i : Nat) :
    (b.updScan k f).sa i = b.sa i := rfl
@[simp] theorem Blk.unit_updScan (k : CqKey) (f : Scan → Scan) (i : Nat) :
    (b.updScan k f).unit i = b.unit i := rfl
@[simp] theorem Blk.qp_updScan (k : CqKey) (f : Scan → Scan) (i : Nat) :
    (b.updScan k f).qp i = b.qp i := rfl
@[simp] theorem Blk.trig_updScan (k : CqKey) (f : Scan → Scan) (i : Nat) :
    (b.updScan k f).trig i = b.trig i := rfl
@[simp] theorem Blk.bport_updScan (k : CqKey) (f : Scan → Scan) (h : Nat) :
    (b.updScan k f).bport h = b.bport h := rfl
@[simp] theorem Blk.ctlq_updScan (k : CqKey) (f : Scan → Scan) (i : Nat) :
    (b.updScan k f).ctlq i = b.ctlq i := rfl
@[simp] theorem Blk.cfg_updScan (k : CqKey) (f : Scan → Scan) : (b.updScan k f).cfg = b.cfg := rfl
@[simp] theorem Blk.byte_updScan (k : CqKey) (f : Scan → Scan) (i : Nat) :
    (b.updScan k f).byte i = b.byte i := rfl
@[simp] theorem Blk.clk_updScan (k : CqKey) (f : Scan → Scan) : (b.updScan k f).clk = b.clk := rfl
@[simp] theorem Blk.spd_updScan (k : CqKey) (f : Scan → Scan) : (b.updScan k f).spd = b.spd := rfl
@[simp] theorem Blk.brg_updScan (k : CqKey) (f : Scan → Scan) : (b.updScan k f).brg = b.brg := rfl
@[simp] theorem Blk.mem_updScan (k : CqKey) (f : Scan → Scan) : (b.updScan k f).mem = b.mem := rfl
@[simp] theorem Blk.poison_updScan (k : CqKey) (f : Scan → Scan) : (b.updScan k f).poison = b.poison := rfl
@[simp] theorem Blk.dir_updScan (k : CqKey) (f : Scan → Scan) : (b.updScan k f).dir = b.dir := rfl
@[simp] theorem Blk.hog_updScan (k : CqKey) (f : Scan → Scan) : (b.updScan k f).hog = b.hog := rfl
@[simp] theorem Blk.mss_updScan (k : CqKey) (f : Scan → Scan) : (b.updScan k f).mss = b.mss := rfl
@[simp] theorem Blk.rel_updScan (k : CqKey) (f : Scan → Scan) : (b.updScan k f).rel = b.rel := rfl
@[simp] theorem Blk.elec_updScan (k : CqKey) (f : Scan → Scan) : (b.updScan k f).elec = b.elec := rfl
@[simp] theorem Blk.stg_updScan (k : CqKey) (f : Scan → Scan) : (b.updScan k f).stg = b.stg := rfl
@[simp] theorem Blk.hlat_updScan (k : CqKey) (f : Scan → Scan) : (b.updScan k f).hlat = b.hlat := rfl
@[simp] theorem Blk.tbLat_updScan (k : CqKey) (f : Scan → Scan) : (b.updScan k f).tbLat = b.tbLat := rfl
@[simp] theorem Blk.hostFrames_updScan (k : CqKey) (f : Scan → Scan) : (b.updScan k f).hostFrames = b.hostFrames := rfl
@[simp] theorem Blk.preEpoch_updScan (k : CqKey) (f : Scan → Scan) : (b.updScan k f).preEpoch = b.preEpoch := rfl
@[simp] theorem Blk.halfDown_updScan (k : CqKey) (f : Scan → Scan) : (b.updScan k f).halfDown = b.halfDown := rfl
@[simp] theorem Blk.mssWq_updScan (k : CqKey) (f : Scan → Scan) : (b.updScan k f).mssWq = b.mssWq := rfl
@[simp] theorem Blk.mssCq_updScan (k : CqKey) (f : Scan → Scan) : (b.updScan k f).mssCq = b.mssCq := rfl
@[simp] theorem Blk.out_updScan (k : CqKey) (f : Scan → Scan) : (b.updScan k f).out = b.out := rfl
@[simp] theorem Blk.fresh_updScan (k : CqKey) (f : Scan → Scan) : (b.updScan k f).fresh = b.fresh := rfl
@[simp] theorem Blk.boot_updScan (k : CqKey) (f : Scan → Scan) : (b.updScan k f).boot = b.boot := rfl
@[simp] theorem Blk.ctl_updScan (k : CqKey) (f : Scan → Scan) : (b.updScan k f).ctl = b.ctl := rfl
@[simp] theorem Blk.keys_updScan (k : CqKey) (f : Scan → Scan) : (b.updScan k f).keys = b.keys := rfl
@[simp] theorem Blk.rmt_updScan (k : CqKey) (f : Scan → Scan) : (b.updScan k f).rmt = b.rmt := rfl
@[simp] theorem Blk.insts_updScan (k : CqKey) (f : Scan → Scan) : (b.updScan k f).insts = b.insts := rfl
@[simp] theorem Blk.cores_updScan (k : CqKey) (f : Scan → Scan) : (b.updScan k f).cores = b.cores := rfl
@[simp] theorem Blk.port_setByte (k : Nat) (v : Byte) (h : Nat) :
    (b.setByte k v).port h = b.port h := rfl
@[simp] theorem Blk.fn_setByte (k : Nat) (v : Byte) (h : Nat) (f1 : Bool) :
    (b.setByte k v).fn h f1 = b.fn h f1 := rfl
@[simp] theorem Blk.wq_setByte (k : Nat) (v : Byte) (i : Nat) (q : Nat) :
    (b.setByte k v).wq i q = b.wq i q := rfl
@[simp] theorem Blk.cq_setByte (k : Nat) (v : Byte) (i : Nat) (q : Nat) :
    (b.setByte k v).cq i q = b.cq i q := rfl
@[simp] theorem Blk.eq_setByte (k : Nat) (v : Byte) (i : Nat) (q : Nat) :
    (b.setByte k v).eq i q = b.eq i q := rfl
@[simp] theorem Blk.inst_setByte (k : Nat) (v : Byte) (i : Nat) :
    (b.setByte k v).inst i = b.inst i := rfl
@[simp] theorem Blk.thread_setByte (k : Nat) (v : Byte) (i : Nat) :
    (b.setByte k v).thread i = b.thread i := rfl
@[simp] theorem Blk.core_setByte (k : Nat) (v : Byte) (i : Nat) :
    (b.setByte k v).core i = b.core i := rfl
@[simp] theorem Blk.chan_setByte (k : Nat) (v : Byte) (i : Nat) :
    (b.setByte k v).chan i = b.chan i := rfl
@[simp] theorem Blk.group_setByte (k : Nat) (v : Byte) (i : Nat) :
    (b.setByte k v).group i = b.group i := rfl
@[simp] theorem Blk.fq_setByte (k : Nat) (v : Byte) (hf : Half) :
    (b.setByte k v).fq hf = b.fq hf := rfl
@[simp] theorem Blk.pipe_setByte (k : Nat) (v : Byte) (i : Nat) :
    (b.setByte k v).pipe i = b.pipe i := rfl
@[simp] theorem Blk.lane_setByte (k : Nat) (v : Byte) (i : Nat) :
    (b.setByte k v).lane i = b.lane i := rfl
@[simp] theorem Blk.dsport_setByte (k : Nat) (v : Byte) (i : Nat) :
    (b.setByte k v).dsport i = b.dsport i := rfl
@[simp] theorem Blk.eng_setByte (k : Nat) (v : Byte) (h : Nat) :
    (b.setByte k v).eng h = b.eng h := rfl
@[simp] theorem Blk.chn_setByte (k : Nat) (v : Byte) (h : Nat) (i : Nat) :
    (b.setByte k v).chn h i = b.chn h i := rfl
@[simp] theorem Blk.slot_setByte (k : Nat) (v : Byte) (i : Nat) :
    (b.setByte k v).slot i = b.slot i := rfl
@[simp] theorem Blk.sa_setByte (k : Nat) (v : Byte) (i : Nat) :
    (b.setByte k v).sa i = b.sa i := rfl
@[simp] theorem Blk.unit_setByte (k : Nat) (v : Byte) (i : Nat) :
    (b.setByte k v).unit i = b.unit i := rfl
@[simp] theorem Blk.qp_setByte (k : Nat) (v : Byte) (i : Nat) :
    (b.setByte k v).qp i = b.qp i := rfl
@[simp] theorem Blk.trig_setByte (k : Nat) (v : Byte) (i : Nat) :
    (b.setByte k v).trig i = b.trig i := rfl
@[simp] theorem Blk.bport_setByte (k : Nat) (v : Byte) (h : Nat) :
    (b.setByte k v).bport h = b.bport h := rfl
@[simp] theorem Blk.ctlq_setByte (k : Nat) (v : Byte) (i : Nat) :
    (b.setByte k v).ctlq i = b.ctlq i := rfl
@[simp] theorem Blk.scan_setByte (k : Nat) (v : Byte) (i : Nat) :
    (b.setByte k v).scan i = b.scan i := rfl
@[simp] theorem Blk.cfg_setByte (k : Nat) (v : Byte) : (b.setByte k v).cfg = b.cfg := rfl
@[simp] theorem Blk.clk_setByte (k : Nat) (v : Byte) : (b.setByte k v).clk = b.clk := rfl
@[simp] theorem Blk.spd_setByte (k : Nat) (v : Byte) : (b.setByte k v).spd = b.spd := rfl
@[simp] theorem Blk.brg_setByte (k : Nat) (v : Byte) : (b.setByte k v).brg = b.brg := rfl
@[simp] theorem Blk.poison_setByte (k : Nat) (v : Byte) : (b.setByte k v).poison = b.poison := rfl
@[simp] theorem Blk.dir_setByte (k : Nat) (v : Byte) : (b.setByte k v).dir = b.dir := rfl
@[simp] theorem Blk.hog_setByte (k : Nat) (v : Byte) : (b.setByte k v).hog = b.hog := rfl
@[simp] theorem Blk.mss_setByte (k : Nat) (v : Byte) : (b.setByte k v).mss = b.mss := rfl
@[simp] theorem Blk.rel_setByte (k : Nat) (v : Byte) : (b.setByte k v).rel = b.rel := rfl
@[simp] theorem Blk.elec_setByte (k : Nat) (v : Byte) : (b.setByte k v).elec = b.elec := rfl
@[simp] theorem Blk.stg_setByte (k : Nat) (v : Byte) : (b.setByte k v).stg = b.stg := rfl
@[simp] theorem Blk.hlat_setByte (k : Nat) (v : Byte) : (b.setByte k v).hlat = b.hlat := rfl
@[simp] theorem Blk.tbLat_setByte (k : Nat) (v : Byte) : (b.setByte k v).tbLat = b.tbLat := rfl
@[simp] theorem Blk.hostFrames_setByte (k : Nat) (v : Byte) : (b.setByte k v).hostFrames = b.hostFrames := rfl
@[simp] theorem Blk.preEpoch_setByte (k : Nat) (v : Byte) : (b.setByte k v).preEpoch = b.preEpoch := rfl
@[simp] theorem Blk.halfDown_setByte (k : Nat) (v : Byte) : (b.setByte k v).halfDown = b.halfDown := rfl
@[simp] theorem Blk.mssWq_setByte (k : Nat) (v : Byte) : (b.setByte k v).mssWq = b.mssWq := rfl
@[simp] theorem Blk.mssCq_setByte (k : Nat) (v : Byte) : (b.setByte k v).mssCq = b.mssCq := rfl
@[simp] theorem Blk.out_setByte (k : Nat) (v : Byte) : (b.setByte k v).out = b.out := rfl
@[simp] theorem Blk.fresh_setByte (k : Nat) (v : Byte) : (b.setByte k v).fresh = b.fresh := rfl
@[simp] theorem Blk.boot_setByte (k : Nat) (v : Byte) : (b.setByte k v).boot = b.boot := rfl
@[simp] theorem Blk.ctl_setByte (k : Nat) (v : Byte) : (b.setByte k v).ctl = b.ctl := rfl
@[simp] theorem Blk.keys_setByte (k : Nat) (v : Byte) : (b.setByte k v).keys = b.keys := rfl
@[simp] theorem Blk.rmt_setByte (k : Nat) (v : Byte) : (b.setByte k v).rmt = b.rmt := rfl
@[simp] theorem Blk.insts_setByte (k : Nat) (v : Byte) : (b.setByte k v).insts = b.insts := rfl
@[simp] theorem Blk.cores_setByte (k : Nat) (v : Byte) : (b.setByte k v).cores = b.cores := rfl
@[simp] theorem Blk.port_setBytes (k : Nat) (l : List Byte) (h : Nat) :
    (b.setBytes k l).port h = b.port h := rfl
@[simp] theorem Blk.fn_setBytes (k : Nat) (l : List Byte) (h : Nat) (f1 : Bool) :
    (b.setBytes k l).fn h f1 = b.fn h f1 := rfl
@[simp] theorem Blk.wq_setBytes (k : Nat) (l : List Byte) (i : Nat) (q : Nat) :
    (b.setBytes k l).wq i q = b.wq i q := rfl
@[simp] theorem Blk.cq_setBytes (k : Nat) (l : List Byte) (i : Nat) (q : Nat) :
    (b.setBytes k l).cq i q = b.cq i q := rfl
@[simp] theorem Blk.eq_setBytes (k : Nat) (l : List Byte) (i : Nat) (q : Nat) :
    (b.setBytes k l).eq i q = b.eq i q := rfl
@[simp] theorem Blk.inst_setBytes (k : Nat) (l : List Byte) (i : Nat) :
    (b.setBytes k l).inst i = b.inst i := rfl
@[simp] theorem Blk.thread_setBytes (k : Nat) (l : List Byte) (i : Nat) :
    (b.setBytes k l).thread i = b.thread i := rfl
@[simp] theorem Blk.core_setBytes (k : Nat) (l : List Byte) (i : Nat) :
    (b.setBytes k l).core i = b.core i := rfl
@[simp] theorem Blk.chan_setBytes (k : Nat) (l : List Byte) (i : Nat) :
    (b.setBytes k l).chan i = b.chan i := rfl
@[simp] theorem Blk.group_setBytes (k : Nat) (l : List Byte) (i : Nat) :
    (b.setBytes k l).group i = b.group i := rfl
@[simp] theorem Blk.fq_setBytes (k : Nat) (l : List Byte) (hf : Half) :
    (b.setBytes k l).fq hf = b.fq hf := rfl
@[simp] theorem Blk.pipe_setBytes (k : Nat) (l : List Byte) (i : Nat) :
    (b.setBytes k l).pipe i = b.pipe i := rfl
@[simp] theorem Blk.lane_setBytes (k : Nat) (l : List Byte) (i : Nat) :
    (b.setBytes k l).lane i = b.lane i := rfl
@[simp] theorem Blk.dsport_setBytes (k : Nat) (l : List Byte) (i : Nat) :
    (b.setBytes k l).dsport i = b.dsport i := rfl
@[simp] theorem Blk.eng_setBytes (k : Nat) (l : List Byte) (h : Nat) :
    (b.setBytes k l).eng h = b.eng h := rfl
@[simp] theorem Blk.chn_setBytes (k : Nat) (l : List Byte) (h : Nat) (i : Nat) :
    (b.setBytes k l).chn h i = b.chn h i := rfl
@[simp] theorem Blk.slot_setBytes (k : Nat) (l : List Byte) (i : Nat) :
    (b.setBytes k l).slot i = b.slot i := rfl
@[simp] theorem Blk.sa_setBytes (k : Nat) (l : List Byte) (i : Nat) :
    (b.setBytes k l).sa i = b.sa i := rfl
@[simp] theorem Blk.unit_setBytes (k : Nat) (l : List Byte) (i : Nat) :
    (b.setBytes k l).unit i = b.unit i := rfl
@[simp] theorem Blk.qp_setBytes (k : Nat) (l : List Byte) (i : Nat) :
    (b.setBytes k l).qp i = b.qp i := rfl
@[simp] theorem Blk.trig_setBytes (k : Nat) (l : List Byte) (i : Nat) :
    (b.setBytes k l).trig i = b.trig i := rfl
@[simp] theorem Blk.bport_setBytes (k : Nat) (l : List Byte) (h : Nat) :
    (b.setBytes k l).bport h = b.bport h := rfl
@[simp] theorem Blk.ctlq_setBytes (k : Nat) (l : List Byte) (i : Nat) :
    (b.setBytes k l).ctlq i = b.ctlq i := rfl
@[simp] theorem Blk.scan_setBytes (k : Nat) (l : List Byte) (i : Nat) :
    (b.setBytes k l).scan i = b.scan i := rfl
@[simp] theorem Blk.cfg_setBytes (k : Nat) (l : List Byte) : (b.setBytes k l).cfg = b.cfg := rfl
@[simp] theorem Blk.clk_setBytes (k : Nat) (l : List Byte) : (b.setBytes k l).clk = b.clk := rfl
@[simp] theorem Blk.spd_setBytes (k : Nat) (l : List Byte) : (b.setBytes k l).spd = b.spd := rfl
@[simp] theorem Blk.brg_setBytes (k : Nat) (l : List Byte) : (b.setBytes k l).brg = b.brg := rfl
@[simp] theorem Blk.poison_setBytes (k : Nat) (l : List Byte) : (b.setBytes k l).poison = b.poison := rfl
@[simp] theorem Blk.dir_setBytes (k : Nat) (l : List Byte) : (b.setBytes k l).dir = b.dir := rfl
@[simp] theorem Blk.hog_setBytes (k : Nat) (l : List Byte) : (b.setBytes k l).hog = b.hog := rfl
@[simp] theorem Blk.mss_setBytes (k : Nat) (l : List Byte) : (b.setBytes k l).mss = b.mss := rfl
@[simp] theorem Blk.rel_setBytes (k : Nat) (l : List Byte) : (b.setBytes k l).rel = b.rel := rfl
@[simp] theorem Blk.elec_setBytes (k : Nat) (l : List Byte) : (b.setBytes k l).elec = b.elec := rfl
@[simp] theorem Blk.stg_setBytes (k : Nat) (l : List Byte) : (b.setBytes k l).stg = b.stg := rfl
@[simp] theorem Blk.hlat_setBytes (k : Nat) (l : List Byte) : (b.setBytes k l).hlat = b.hlat := rfl
@[simp] theorem Blk.tbLat_setBytes (k : Nat) (l : List Byte) : (b.setBytes k l).tbLat = b.tbLat := rfl
@[simp] theorem Blk.hostFrames_setBytes (k : Nat) (l : List Byte) : (b.setBytes k l).hostFrames = b.hostFrames := rfl
@[simp] theorem Blk.preEpoch_setBytes (k : Nat) (l : List Byte) : (b.setBytes k l).preEpoch = b.preEpoch := rfl
@[simp] theorem Blk.halfDown_setBytes (k : Nat) (l : List Byte) : (b.setBytes k l).halfDown = b.halfDown := rfl
@[simp] theorem Blk.mssWq_setBytes (k : Nat) (l : List Byte) : (b.setBytes k l).mssWq = b.mssWq := rfl
@[simp] theorem Blk.mssCq_setBytes (k : Nat) (l : List Byte) : (b.setBytes k l).mssCq = b.mssCq := rfl
@[simp] theorem Blk.out_setBytes (k : Nat) (l : List Byte) : (b.setBytes k l).out = b.out := rfl
@[simp] theorem Blk.fresh_setBytes (k : Nat) (l : List Byte) : (b.setBytes k l).fresh = b.fresh := rfl
@[simp] theorem Blk.boot_setBytes (k : Nat) (l : List Byte) : (b.setBytes k l).boot = b.boot := rfl
@[simp] theorem Blk.ctl_setBytes (k : Nat) (l : List Byte) : (b.setBytes k l).ctl = b.ctl := rfl
@[simp] theorem Blk.keys_setBytes (k : Nat) (l : List Byte) : (b.setBytes k l).keys = b.keys := rfl
@[simp] theorem Blk.rmt_setBytes (k : Nat) (l : List Byte) : (b.setBytes k l).rmt = b.rmt := rfl
@[simp] theorem Blk.insts_setBytes (k : Nat) (l : List Byte) : (b.setBytes k l).insts = b.insts := rfl
@[simp] theorem Blk.cores_setBytes (k : Nat) (l : List Byte) : (b.setBytes k l).cores = b.cores := rfl
@[simp] theorem Blk.port_setPoison (gs : List Nat) (v : Bool) (h : Nat) :
    (b.setPoison gs v).port h = b.port h := rfl
@[simp] theorem Blk.fn_setPoison (gs : List Nat) (v : Bool) (h : Nat) (f1 : Bool) :
    (b.setPoison gs v).fn h f1 = b.fn h f1 := rfl
@[simp] theorem Blk.wq_setPoison (gs : List Nat) (v : Bool) (i : Nat) (q : Nat) :
    (b.setPoison gs v).wq i q = b.wq i q := rfl
@[simp] theorem Blk.cq_setPoison (gs : List Nat) (v : Bool) (i : Nat) (q : Nat) :
    (b.setPoison gs v).cq i q = b.cq i q := rfl
@[simp] theorem Blk.eq_setPoison (gs : List Nat) (v : Bool) (i : Nat) (q : Nat) :
    (b.setPoison gs v).eq i q = b.eq i q := rfl
@[simp] theorem Blk.inst_setPoison (gs : List Nat) (v : Bool) (i : Nat) :
    (b.setPoison gs v).inst i = b.inst i := rfl
@[simp] theorem Blk.thread_setPoison (gs : List Nat) (v : Bool) (i : Nat) :
    (b.setPoison gs v).thread i = b.thread i := rfl
@[simp] theorem Blk.core_setPoison (gs : List Nat) (v : Bool) (i : Nat) :
    (b.setPoison gs v).core i = b.core i := rfl
@[simp] theorem Blk.chan_setPoison (gs : List Nat) (v : Bool) (i : Nat) :
    (b.setPoison gs v).chan i = b.chan i := rfl
@[simp] theorem Blk.group_setPoison (gs : List Nat) (v : Bool) (i : Nat) :
    (b.setPoison gs v).group i = b.group i := rfl
@[simp] theorem Blk.fq_setPoison (gs : List Nat) (v : Bool) (hf : Half) :
    (b.setPoison gs v).fq hf = b.fq hf := rfl
@[simp] theorem Blk.pipe_setPoison (gs : List Nat) (v : Bool) (i : Nat) :
    (b.setPoison gs v).pipe i = b.pipe i := rfl
@[simp] theorem Blk.lane_setPoison (gs : List Nat) (v : Bool) (i : Nat) :
    (b.setPoison gs v).lane i = b.lane i := rfl
@[simp] theorem Blk.dsport_setPoison (gs : List Nat) (v : Bool) (i : Nat) :
    (b.setPoison gs v).dsport i = b.dsport i := rfl
@[simp] theorem Blk.eng_setPoison (gs : List Nat) (v : Bool) (h : Nat) :
    (b.setPoison gs v).eng h = b.eng h := rfl
@[simp] theorem Blk.chn_setPoison (gs : List Nat) (v : Bool) (h : Nat) (i : Nat) :
    (b.setPoison gs v).chn h i = b.chn h i := rfl
@[simp] theorem Blk.slot_setPoison (gs : List Nat) (v : Bool) (i : Nat) :
    (b.setPoison gs v).slot i = b.slot i := rfl
@[simp] theorem Blk.sa_setPoison (gs : List Nat) (v : Bool) (i : Nat) :
    (b.setPoison gs v).sa i = b.sa i := rfl
@[simp] theorem Blk.unit_setPoison (gs : List Nat) (v : Bool) (i : Nat) :
    (b.setPoison gs v).unit i = b.unit i := rfl
@[simp] theorem Blk.qp_setPoison (gs : List Nat) (v : Bool) (i : Nat) :
    (b.setPoison gs v).qp i = b.qp i := rfl
@[simp] theorem Blk.trig_setPoison (gs : List Nat) (v : Bool) (i : Nat) :
    (b.setPoison gs v).trig i = b.trig i := rfl
@[simp] theorem Blk.bport_setPoison (gs : List Nat) (v : Bool) (h : Nat) :
    (b.setPoison gs v).bport h = b.bport h := rfl
@[simp] theorem Blk.ctlq_setPoison (gs : List Nat) (v : Bool) (i : Nat) :
    (b.setPoison gs v).ctlq i = b.ctlq i := rfl
@[simp] theorem Blk.scan_setPoison (gs : List Nat) (v : Bool) (i : Nat) :
    (b.setPoison gs v).scan i = b.scan i := rfl
@[simp] theorem Blk.cfg_setPoison (gs : List Nat) (v : Bool) : (b.setPoison gs v).cfg = b.cfg := rfl
@[simp] theorem Blk.byte_setPoison (gs : List Nat) (v : Bool) (i : Nat) :
    (b.setPoison gs v).byte i = b.byte i := rfl
@[simp] theorem Blk.clk_setPoison (gs : List Nat) (v : Bool) : (b.setPoison gs v).clk = b.clk := rfl
@[simp] theorem Blk.spd_setPoison (gs : List Nat) (v : Bool) : (b.setPoison gs v).spd = b.spd := rfl
@[simp] theorem Blk.brg_setPoison (gs : List Nat) (v : Bool) : (b.setPoison gs v).brg = b.brg := rfl
@[simp] theorem Blk.mem_setPoison (gs : List Nat) (v : Bool) : (b.setPoison gs v).mem = b.mem := rfl
@[simp] theorem Blk.dir_setPoison (gs : List Nat) (v : Bool) : (b.setPoison gs v).dir = b.dir := rfl
@[simp] theorem Blk.hog_setPoison (gs : List Nat) (v : Bool) : (b.setPoison gs v).hog = b.hog := rfl
@[simp] theorem Blk.mss_setPoison (gs : List Nat) (v : Bool) : (b.setPoison gs v).mss = b.mss := rfl
@[simp] theorem Blk.rel_setPoison (gs : List Nat) (v : Bool) : (b.setPoison gs v).rel = b.rel := rfl
@[simp] theorem Blk.elec_setPoison (gs : List Nat) (v : Bool) : (b.setPoison gs v).elec = b.elec := rfl
@[simp] theorem Blk.stg_setPoison (gs : List Nat) (v : Bool) : (b.setPoison gs v).stg = b.stg := rfl
@[simp] theorem Blk.hlat_setPoison (gs : List Nat) (v : Bool) : (b.setPoison gs v).hlat = b.hlat := rfl
@[simp] theorem Blk.tbLat_setPoison (gs : List Nat) (v : Bool) : (b.setPoison gs v).tbLat = b.tbLat := rfl
@[simp] theorem Blk.hostFrames_setPoison (gs : List Nat) (v : Bool) : (b.setPoison gs v).hostFrames = b.hostFrames := rfl
@[simp] theorem Blk.preEpoch_setPoison (gs : List Nat) (v : Bool) : (b.setPoison gs v).preEpoch = b.preEpoch := rfl
@[simp] theorem Blk.halfDown_setPoison (gs : List Nat) (v : Bool) : (b.setPoison gs v).halfDown = b.halfDown := rfl
@[simp] theorem Blk.mssWq_setPoison (gs : List Nat) (v : Bool) : (b.setPoison gs v).mssWq = b.mssWq := rfl
@[simp] theorem Blk.mssCq_setPoison (gs : List Nat) (v : Bool) : (b.setPoison gs v).mssCq = b.mssCq := rfl
@[simp] theorem Blk.out_setPoison (gs : List Nat) (v : Bool) : (b.setPoison gs v).out = b.out := rfl
@[simp] theorem Blk.fresh_setPoison (gs : List Nat) (v : Bool) : (b.setPoison gs v).fresh = b.fresh := rfl
@[simp] theorem Blk.boot_setPoison (gs : List Nat) (v : Bool) : (b.setPoison gs v).boot = b.boot := rfl
@[simp] theorem Blk.ctl_setPoison (gs : List Nat) (v : Bool) : (b.setPoison gs v).ctl = b.ctl := rfl
@[simp] theorem Blk.keys_setPoison (gs : List Nat) (v : Bool) : (b.setPoison gs v).keys = b.keys := rfl
@[simp] theorem Blk.rmt_setPoison (gs : List Nat) (v : Bool) : (b.setPoison gs v).rmt = b.rmt := rfl
@[simp] theorem Blk.insts_setPoison (gs : List Nat) (v : Bool) : (b.setPoison gs v).insts = b.insts := rfl
@[simp] theorem Blk.cores_setPoison (gs : List Nat) (v : Bool) : (b.setPoison gs v).cores = b.cores := rfl
@[simp] theorem Blk.port_emit (e : Emit) (h : Nat) :
    (b.emit e).port h = b.port h := rfl
@[simp] theorem Blk.fn_emit (e : Emit) (h : Nat) (f1 : Bool) :
    (b.emit e).fn h f1 = b.fn h f1 := rfl
@[simp] theorem Blk.wq_emit (e : Emit) (i : Nat) (q : Nat) :
    (b.emit e).wq i q = b.wq i q := rfl
@[simp] theorem Blk.cq_emit (e : Emit) (i : Nat) (q : Nat) :
    (b.emit e).cq i q = b.cq i q := rfl
@[simp] theorem Blk.eq_emit (e : Emit) (i : Nat) (q : Nat) :
    (b.emit e).eq i q = b.eq i q := rfl
@[simp] theorem Blk.inst_emit (e : Emit) (i : Nat) :
    (b.emit e).inst i = b.inst i := rfl
@[simp] theorem Blk.thread_emit (e : Emit) (i : Nat) :
    (b.emit e).thread i = b.thread i := rfl
@[simp] theorem Blk.core_emit (e : Emit) (i : Nat) :
    (b.emit e).core i = b.core i := rfl
@[simp] theorem Blk.chan_emit (e : Emit) (i : Nat) :
    (b.emit e).chan i = b.chan i := rfl
@[simp] theorem Blk.group_emit (e : Emit) (i : Nat) :
    (b.emit e).group i = b.group i := rfl
@[simp] theorem Blk.fq_emit (e : Emit) (hf : Half) :
    (b.emit e).fq hf = b.fq hf := rfl
@[simp] theorem Blk.pipe_emit (e : Emit) (i : Nat) :
    (b.emit e).pipe i = b.pipe i := rfl
@[simp] theorem Blk.lane_emit (e : Emit) (i : Nat) :
    (b.emit e).lane i = b.lane i := rfl
@[simp] theorem Blk.dsport_emit (e : Emit) (i : Nat) :
    (b.emit e).dsport i = b.dsport i := rfl
@[simp] theorem Blk.eng_emit (e : Emit) (h : Nat) :
    (b.emit e).eng h = b.eng h := rfl
@[simp] theorem Blk.chn_emit (e : Emit) (h : Nat) (i : Nat) :
    (b.emit e).chn h i = b.chn h i := rfl
@[simp] theorem Blk.slot_emit (e : Emit) (i : Nat) :
    (b.emit e).slot i = b.slot i := rfl
@[simp] theorem Blk.sa_emit (e : Emit) (i : Nat) :
    (b.emit e).sa i = b.sa i := rfl
@[simp] theorem Blk.unit_emit (e : Emit) (i : Nat) :
    (b.emit e).unit i = b.unit i := rfl
@[simp] theorem Blk.qp_emit (e : Emit) (i : Nat) :
    (b.emit e).qp i = b.qp i := rfl
@[simp] theorem Blk.trig_emit (e : Emit) (i : Nat) :
    (b.emit e).trig i = b.trig i := rfl
@[simp] theorem Blk.bport_emit (e : Emit) (h : Nat) :
    (b.emit e).bport h = b.bport h := rfl
@[simp] theorem Blk.ctlq_emit (e : Emit) (i : Nat) :
    (b.emit e).ctlq i = b.ctlq i := rfl
@[simp] theorem Blk.scan_emit (e : Emit) (i : Nat) :
    (b.emit e).scan i = b.scan i := rfl
@[simp] theorem Blk.cfg_emit (e : Emit) : (b.emit e).cfg = b.cfg := rfl
@[simp] theorem Blk.byte_emit (e : Emit) (i : Nat) :
    (b.emit e).byte i = b.byte i := rfl
@[simp] theorem Blk.clk_emit (e : Emit) : (b.emit e).clk = b.clk := rfl
@[simp] theorem Blk.spd_emit (e : Emit) : (b.emit e).spd = b.spd := rfl
@[simp] theorem Blk.brg_emit (e : Emit) : (b.emit e).brg = b.brg := rfl
@[simp] theorem Blk.mem_emit (e : Emit) : (b.emit e).mem = b.mem := rfl
@[simp] theorem Blk.poison_emit (e : Emit) : (b.emit e).poison = b.poison := rfl
@[simp] theorem Blk.dir_emit (e : Emit) : (b.emit e).dir = b.dir := rfl
@[simp] theorem Blk.hog_emit (e : Emit) : (b.emit e).hog = b.hog := rfl
@[simp] theorem Blk.mss_emit (e : Emit) : (b.emit e).mss = b.mss := rfl
@[simp] theorem Blk.rel_emit (e : Emit) : (b.emit e).rel = b.rel := rfl
@[simp] theorem Blk.elec_emit (e : Emit) : (b.emit e).elec = b.elec := rfl
@[simp] theorem Blk.stg_emit (e : Emit) : (b.emit e).stg = b.stg := rfl
@[simp] theorem Blk.hlat_emit (e : Emit) : (b.emit e).hlat = b.hlat := rfl
@[simp] theorem Blk.tbLat_emit (e : Emit) : (b.emit e).tbLat = b.tbLat := rfl
@[simp] theorem Blk.hostFrames_emit (e : Emit) : (b.emit e).hostFrames = b.hostFrames := rfl
@[simp] theorem Blk.preEpoch_emit (e : Emit) : (b.emit e).preEpoch = b.preEpoch := rfl
@[simp] theorem Blk.halfDown_emit (e : Emit) : (b.emit e).halfDown = b.halfDown := rfl
@[simp] theorem Blk.mssWq_emit (e : Emit) : (b.emit e).mssWq = b.mssWq := rfl
@[simp] theorem Blk.mssCq_emit (e : Emit) : (b.emit e).mssCq = b.mssCq := rfl
@[simp] theorem Blk.fresh_emit (e : Emit) : (b.emit e).fresh = b.fresh := rfl
@[simp] theorem Blk.boot_emit (e : Emit) : (b.emit e).boot = b.boot := rfl
@[simp] theorem Blk.ctl_emit (e : Emit) : (b.emit e).ctl = b.ctl := rfl
@[simp] theorem Blk.keys_emit (e : Emit) : (b.emit e).keys = b.keys := rfl
@[simp] theorem Blk.rmt_emit (e : Emit) : (b.emit e).rmt = b.rmt := rfl
@[simp] theorem Blk.insts_emit (e : Emit) : (b.emit e).insts = b.insts := rfl
@[simp] theorem Blk.cores_emit (e : Emit) : (b.emit e).cores = b.cores := rfl
@[simp] theorem Blk.port_drawn (n : Nat) (h : Nat) :
    (b.drawn n).port h = b.port h := rfl
@[simp] theorem Blk.fn_drawn (n : Nat) (h : Nat) (f1 : Bool) :
    (b.drawn n).fn h f1 = b.fn h f1 := rfl
@[simp] theorem Blk.wq_drawn (n : Nat) (i : Nat) (q : Nat) :
    (b.drawn n).wq i q = b.wq i q := rfl
@[simp] theorem Blk.cq_drawn (n : Nat) (i : Nat) (q : Nat) :
    (b.drawn n).cq i q = b.cq i q := rfl
@[simp] theorem Blk.eq_drawn (n : Nat) (i : Nat) (q : Nat) :
    (b.drawn n).eq i q = b.eq i q := rfl
@[simp] theorem Blk.inst_drawn (n : Nat) (i : Nat) :
    (b.drawn n).inst i = b.inst i := rfl
@[simp] theorem Blk.thread_drawn (n : Nat) (i : Nat) :
    (b.drawn n).thread i = b.thread i := rfl
@[simp] theorem Blk.core_drawn (n : Nat) (i : Nat) :
    (b.drawn n).core i = b.core i := rfl
@[simp] theorem Blk.chan_drawn (n : Nat) (i : Nat) :
    (b.drawn n).chan i = b.chan i := rfl
@[simp] theorem Blk.group_drawn (n : Nat) (i : Nat) :
    (b.drawn n).group i = b.group i := rfl
@[simp] theorem Blk.fq_drawn (n : Nat) (hf : Half) :
    (b.drawn n).fq hf = b.fq hf := rfl
@[simp] theorem Blk.pipe_drawn (n : Nat) (i : Nat) :
    (b.drawn n).pipe i = b.pipe i := rfl
@[simp] theorem Blk.lane_drawn (n : Nat) (i : Nat) :
    (b.drawn n).lane i = b.lane i := rfl
@[simp] theorem Blk.dsport_drawn (n : Nat) (i : Nat) :
    (b.drawn n).dsport i = b.dsport i := rfl
@[simp] theorem Blk.eng_drawn (n : Nat) (h : Nat) :
    (b.drawn n).eng h = b.eng h := rfl
@[simp] theorem Blk.chn_drawn (n : Nat) (h : Nat) (i : Nat) :
    (b.drawn n).chn h i = b.chn h i := rfl
@[simp] theorem Blk.slot_drawn (n : Nat) (i : Nat) :
    (b.drawn n).slot i = b.slot i := rfl
@[simp] theorem Blk.sa_drawn (n : Nat) (i : Nat) :
    (b.drawn n).sa i = b.sa i := rfl
@[simp] theorem Blk.unit_drawn (n : Nat) (i : Nat) :
    (b.drawn n).unit i = b.unit i := rfl
@[simp] theorem Blk.qp_drawn (n : Nat) (i : Nat) :
    (b.drawn n).qp i = b.qp i := rfl
@[simp] theorem Blk.trig_drawn (n : Nat) (i : Nat) :
    (b.drawn n).trig i = b.trig i := rfl
@[simp] theorem Blk.bport_drawn (n : Nat) (h : Nat) :
    (b.drawn n).bport h = b.bport h := rfl
@[simp] theorem Blk.ctlq_drawn (n : Nat) (i : Nat) :
    (b.drawn n).ctlq i = b.ctlq i := rfl
@[simp] theorem Blk.scan_drawn (n : Nat) (i : Nat) :
    (b.drawn n).scan i = b.scan i := rfl
@[simp] theorem Blk.cfg_drawn (n : Nat) : (b.drawn n).cfg = b.cfg := rfl
@[simp] theorem Blk.byte_drawn (n : Nat) (i : Nat) :
    (b.drawn n).byte i = b.byte i := rfl
@[simp] theorem Blk.clk_drawn (n : Nat) : (b.drawn n).clk = b.clk := rfl
@[simp] theorem Blk.spd_drawn (n : Nat) : (b.drawn n).spd = b.spd := rfl
@[simp] theorem Blk.brg_drawn (n : Nat) : (b.drawn n).brg = b.brg := rfl
@[simp] theorem Blk.mem_drawn (n : Nat) : (b.drawn n).mem = b.mem := rfl
@[simp] theorem Blk.poison_drawn (n : Nat) : (b.drawn n).poison = b.poison := rfl
@[simp] theorem Blk.dir_drawn (n : Nat) : (b.drawn n).dir = b.dir := rfl
@[simp] theorem Blk.hog_drawn (n : Nat) : (b.drawn n).hog = b.hog := rfl
@[simp] theorem Blk.mss_drawn (n : Nat) : (b.drawn n).mss = b.mss := rfl
@[simp] theorem Blk.rel_drawn (n : Nat) : (b.drawn n).rel = b.rel := rfl
@[simp] theorem Blk.elec_drawn (n : Nat) : (b.drawn n).elec = b.elec := rfl
@[simp] theorem Blk.stg_drawn (n : Nat) : (b.drawn n).stg = b.stg := rfl
@[simp] theorem Blk.hlat_drawn (n : Nat) : (b.drawn n).hlat = b.hlat := rfl
@[simp] theorem Blk.tbLat_drawn (n : Nat) : (b.drawn n).tbLat = b.tbLat := rfl
@[simp] theorem Blk.hostFrames_drawn (n : Nat) : (b.drawn n).hostFrames = b.hostFrames := rfl
@[simp] theorem Blk.preEpoch_drawn (n : Nat) : (b.drawn n).preEpoch = b.preEpoch := rfl
@[simp] theorem Blk.halfDown_drawn (n : Nat) : (b.drawn n).halfDown = b.halfDown := rfl
@[simp] theorem Blk.mssWq_drawn (n : Nat) : (b.drawn n).mssWq = b.mssWq := rfl
@[simp] theorem Blk.mssCq_drawn (n : Nat) : (b.drawn n).mssCq = b.mssCq := rfl
@[simp] theorem Blk.out_drawn (n : Nat) : (b.drawn n).out = b.out := rfl
@[simp] theorem Blk.boot_drawn (n : Nat) : (b.drawn n).boot = b.boot := rfl
@[simp] theorem Blk.ctl_drawn (n : Nat) : (b.drawn n).ctl = b.ctl := rfl
@[simp] theorem Blk.keys_drawn (n : Nat) : (b.drawn n).keys = b.keys := rfl
@[simp] theorem Blk.rmt_drawn (n : Nat) : (b.drawn n).rmt = b.rmt := rfl
@[simp] theorem Blk.insts_drawn (n : Nat) : (b.drawn n).insts = b.insts := rfl
@[simp] theorem Blk.cores_drawn (n : Nat) : (b.drawn n).cores = b.cores := rfl

/-! A read of what was updated. -/

@[simp] theorem Blk.port_updPort (k : Nat) (f : HostPort → HostPort) : (b.updPort k f).port k = f (b.port k) := Tab.get_upd_same _ _ _ _
theorem Blk.port_updPort_ne (k : Nat) (f : HostPort → HostPort) {j : Nat} (h : j ≠ k) : (b.updPort k f).port j = b.port j :=
  Tab.get_upd_other _ _ _ h
@[simp] theorem Blk.inst_updInst (k : Nat) (f : InstDyn → InstDyn) : (b.updInst k f).inst k = f (b.inst k) := Tab.get_upd_same _ _ _ _
theorem Blk.inst_updInst_ne (k : Nat) (f : InstDyn → InstDyn) {j : Nat} (h : j ≠ k) : (b.updInst k f).inst j = b.inst j :=
  Tab.get_upd_other _ _ _ h
@[simp] theorem Blk.thread_updThread (k : Nat) (f : Thread → Thread) : (b.updThread k f).thread k = f (b.thread k) := Tab.get_upd_same _ _ _ _
theorem Blk.thread_updThread_ne (k : Nat) (f : Thread → Thread) {j : Nat} (h : j ≠ k) : (b.updThread k f).thread j = b.thread j :=
  Tab.get_upd_other _ _ _ h
@[simp] theorem Blk.core_updCore (k : Nat) (f : Core → Core) : (b.updCore k f).core k = f (b.core k) := Tab.get_upd_same _ _ _ _
theorem Blk.core_updCore_ne (k : Nat) (f : Core → Core) {j : Nat} (h : j ≠ k) : (b.updCore k f).core j = b.core j :=
  Tab.get_upd_other _ _ _ h
@[simp] theorem Blk.chan_updChan (k : Nat) (f : Channel → Channel) : (b.updChan k f).chan k = f (b.chan k) := Tab.get_upd_same _ _ _ _
theorem Blk.chan_updChan_ne (k : Nat) (f : Channel → Channel) {j : Nat} (h : j ≠ k) : (b.updChan k f).chan j = b.chan j :=
  Tab.get_upd_other _ _ _ h
@[simp] theorem Blk.group_updGroup (k : Nat) (f : Group → Group) : (b.updGroup k f).group k = f (b.group k) := Tab.get_upd_same _ _ _ _
theorem Blk.group_updGroup_ne (k : Nat) (f : Group → Group) {j : Nat} (h : j ≠ k) : (b.updGroup k f).group j = b.group j :=
  Tab.get_upd_other _ _ _ h
@[simp] theorem Blk.pipe_updPipe (k : Nat) (f : Pipe → Pipe) : (b.updPipe k f).pipe k = f (b.pipe k) := Tab.get_upd_same _ _ _ _
theorem Blk.pipe_updPipe_ne (k : Nat) (f : Pipe → Pipe) {j : Nat} (h : j ≠ k) : (b.updPipe k f).pipe j = b.pipe j :=
  Tab.get_upd_other _ _ _ h
@[simp] theorem Blk.lane_updLane (k : Nat) (f : EthLane → EthLane) : (b.updLane k f).lane k = f (b.lane k) := Tab.get_upd_same _ _ _ _
theorem Blk.lane_updLane_ne (k : Nat) (f : EthLane → EthLane) {j : Nat} (h : j ≠ k) : (b.updLane k f).lane j = b.lane j :=
  Tab.get_upd_other _ _ _ h
@[simp] theorem Blk.dsport_updDsp (k : Nat) (f : Dsp → Dsp) : (b.updDsp k f).dsport k = f (b.dsport k) := Tab.get_upd_same _ _ _ _
theorem Blk.dsport_updDsp_ne (k : Nat) (f : Dsp → Dsp) {j : Nat} (h : j ≠ k) : (b.updDsp k f).dsport j = b.dsport j :=
  Tab.get_upd_other _ _ _ h
@[simp] theorem Blk.eng_updEng (k : Nat) (f : Dma → Dma) : (b.updEng k f).eng k = f (b.eng k) := Tab.get_upd_same _ _ _ _
theorem Blk.eng_updEng_ne (k : Nat) (f : Dma → Dma) {j : Nat} (h : j ≠ k) : (b.updEng k f).eng j = b.eng j :=
  Tab.get_upd_other _ _ _ h
@[simp] theorem Blk.slot_updSlot (k : Nat) (f : Slot → Slot) : (b.updSlot k f).slot k = f (b.slot k) := Tab.get_upd_same _ _ _ _
theorem Blk.slot_updSlot_ne (k : Nat) (f : Slot → Slot) {j : Nat} (h : j ≠ k) : (b.updSlot k f).slot j = b.slot j :=
  Tab.get_upd_other _ _ _ h
@[simp] theorem Blk.sa_updSa (k : Nat) (f : SaState → SaState) : (b.updSa k f).sa k = f (b.sa k) := Tab.get_upd_same _ _ _ _
theorem Blk.sa_updSa_ne (k : Nat) (f : SaState → SaState) {j : Nat} (h : j ≠ k) : (b.updSa k f).sa j = b.sa j :=
  Tab.get_upd_other _ _ _ h
@[simp] theorem Blk.unit_updUnit (k : Nat) (f : Lu → Lu) : (b.updUnit k f).unit k = f (b.unit k) := Tab.get_upd_same _ _ _ _
theorem Blk.unit_updUnit_ne (k : Nat) (f : Lu → Lu) {j : Nat} (h : j ≠ k) : (b.updUnit k f).unit j = b.unit j :=
  Tab.get_upd_other _ _ _ h
@[simp] theorem Blk.qp_updQp (k : Nat) (f : Qp → Qp) : (b.updQp k f).qp k = f (b.qp k) := Tab.get_upd_same _ _ _ _
theorem Blk.qp_updQp_ne (k : Nat) (f : Qp → Qp) {j : Nat} (h : j ≠ k) : (b.updQp k f).qp j = b.qp j :=
  Tab.get_upd_other _ _ _ h
@[simp] theorem Blk.trig_updTrig (k : Nat) (f : Trig → Trig) : (b.updTrig k f).trig k = f (b.trig k) := Tab.get_upd_same _ _ _ _
theorem Blk.trig_updTrig_ne (k : Nat) (f : Trig → Trig) {j : Nat} (h : j ≠ k) : (b.updTrig k f).trig j = b.trig j :=
  Tab.get_upd_other _ _ _ h
@[simp] theorem Blk.bport_updBport (k : Nat) (f : BootPort → BootPort) : (b.updBport k f).bport k = f (b.bport k) := Tab.get_upd_same _ _ _ _
theorem Blk.bport_updBport_ne (k : Nat) (f : BootPort → BootPort) {j : Nat} (h : j ≠ k) : (b.updBport k f).bport j = b.bport j :=
  Tab.get_upd_other _ _ _ h
@[simp] theorem Blk.ctlq_updCtlq (k : Nat) (f : CtlState → CtlState) : (b.updCtlq k f).ctlq k = f (b.ctlq k) := Tab.get_upd_same _ _ _ _
theorem Blk.ctlq_updCtlq_ne (k : Nat) (f : CtlState → CtlState) {j : Nat} (h : j ≠ k) : (b.updCtlq k f).ctlq j = b.ctlq j :=
  Tab.get_upd_other _ _ _ h
@[simp] theorem Blk.scan_updScan (k : Nat) (f : Scan → Scan) : (b.updScan k f).scan k = f (b.scan k) := Tab.get_upd_same _ _ _ _
theorem Blk.scan_updScan_ne (k : Nat) (f : Scan → Scan) {j : Nat} (h : j ≠ k) : (b.updScan k f).scan j = b.scan j :=
  Tab.get_upd_other _ _ _ h
@[simp] theorem Blk.wq_updWq (k l : Nat) (f : Wq → Wq) : (b.updWq k l f).wq k l = f (b.wq k l) := Tab.get_upd_same _ _ _ _
@[simp] theorem Blk.cq_updCq (k l : Nat) (f : Cq → Cq) : (b.updCq k l f).cq k l = f (b.cq k l) := Tab.get_upd_same _ _ _ _
@[simp] theorem Blk.eq_updEq (k l : Nat) (f : EvQ → EvQ) : (b.updEq k l f).eq k l = f (b.eq k l) := Tab.get_upd_same _ _ _ _
@[simp] theorem Blk.fn_updFn (k : Nat) (g : Bool) (f : Fn → Fn) : (b.updFn k g f).fn k g = f (b.fn k g) := by
  cases g <;> simp [Blk.fn, Blk.updFn]
@[simp] theorem Blk.chn_updChn (k l : Nat) (f : Dch → Dch) : (b.updChn k l f).chn k l = f (b.chn k l) := by
  simp [Blk.chn, Blk.updChn]
@[simp] theorem Blk.byte_setByte (k : Nat) (v : Byte) : (b.setByte k v).byte k = v := Tab.get_put_same _ _ _ _
theorem Blk.byte_setByte_ne (k : Nat) (v : Byte) {j : Nat} (h : j ≠ k) : (b.setByte k v).byte j = b.byte j :=
  Tab.get_put_other _ _ _ h
@[simp] theorem Blk.out_emit (e : Emit) : (b.emit e).out = e :: b.out := rfl
@[simp] theorem Blk.fresh_drawn (n : Nat) : (b.drawn n).fresh = b.fresh + n := rfl

end Sys2Proof.Machine
end

