-- ==== Sys2Proof/Laws/Issue.lean ====
section
/-! SUPPORT. What the issue of an instruction leaves alone: one lemma for each shared operation of the issue path. -/

namespace Sys2Proof.Machine
open Sys2Proof

theorem Thread.agrees_refl (x : Thread) : x.agrees x := ⟨rfl⟩

theorem Thread.agrees.trans {x y z : Thread} (h : x.agrees y) (k : y.agrees z) : x.agrees z := by
  refine ⟨?_⟩
  conv => lhs; rw [k.eq, h.eq]

theorem Thread.agrees_pmcBump (x : Thread) (k n : Nat) : x.agrees (x.pmcBump k n) := by
  refine ⟨?_⟩
  unfold Thread.pmcBump
  dsimp only
  split <;> rfl

/-- A fold of updates that agree agrees. -/
theorem Thread.agrees_foldl {α : Type} (f : Thread → α → Thread) (hf : ∀ (x : Thread) (a : α), x.agrees (f x a)) (l : List α) (x : Thread) :
    x.agrees (l.foldl f x) := by
  induction l generalizing x with
  | nil => exact x.agrees_refl
  | cons a l ih => exact (hf x a).trans (ih (f x a))

theorem Thread.agrees_pmcAdd (x : Thread) (code n : Nat) : x.agrees (x.pmcAdd code n) := by
  unfold Thread.pmcAdd
  split
  · exact x.agrees_refl
  · apply Thread.agrees_foldl
    intro x k
    split
    · exact x.agrees_pmcBump k n
    · exact x.agrees_refl

theorem Thread.agrees.st_eq {x y : Thread} (h : x.agrees y) : y.st = x.st := by rw [h.eq]
theorem Thread.agrees.pc_eq {x y : Thread} (h : x.agrees y) : y.pc = x.pc := by rw [h.eq]
theorem Thread.agrees.sr_eq {x y : Thread} (h : x.agrees y) : y.sr = x.sr := by rw [h.eq]
theorem Thread.agrees.g_eq {x y : Thread} (h : x.agrees y) : y.g = x.g := by rw [h.eq]
theorem Thread.agrees.win_eq {x y : Thread} (h : x.agrees y) : y.win = x.win := by rw [h.eq]
theorem Thread.agrees.reg_eq {x y : Thread} (h : x.agrees y) (r : Nat) : y.reg r = x.reg r := by rw [h.eq]; rfl

/-- Writing rd and the program counter keeps agreement. -/
theorem Thread.agrees.retire {x y : Thread} (h : x.agrees y) (r : Nat) (v pc : W64) :
    ({ x.setReg r v with pc := pc } : Thread).agrees { y.setReg r v with pc := pc } := by
  refine ⟨?_⟩
  unfold Thread.setReg
  split <;> (conv => lhs; rw [h.eq])

theorem Blk.thread_updThread_if (b : Blk) (t u : Nat) (f : Thread → Thread) :
    (b.updThread t f).thread u = if u = t then f (b.thread u) else b.thread u := by
  unfold Blk.thread Blk.updThread
  dsimp only
  rw [Tab.get_upd]
  split
  · next h => subst h; rfl
  · rfl

theorem Blk.thread_updThread_other (b : Blk) {t u : Nat} (f : Thread → Thread) (h : u ≠ t) :
    (b.updThread t f).thread u = b.thread u := by rw [Blk.thread_updThread_if, if_neg h]

/-! The frame of a step: `lines` are the lines whose directory record may move. -/

theorem Blk.frameBut_refl (b : Blk) (t : Nat) (ls : List Nat) : b.frameBut b t ls where
  rest := rfl
  dir := fun _ _ => rfl
  chans := rfl
  west := rfl
  east := rfl
  away := fun _ _ => rfl
  fellow := fun u _ _ => (b.thread u).agrees_refl

theorem Blk.frameBut.trans {b c d : Blk} {t : Nat} {ls : List Nat} (h : b.frameBut c t ls) (k : c.frameBut d t ls) :
    b.frameBut d t ls where
  rest := by conv => lhs; rw [k.rest, h.rest]
  dir := fun l hl => (k.dir l hl).trans (h.dir l hl)
  chans := k.chans.trans h.chans
  west := k.west.trans h.west
  east := k.east.trans h.east
  away := fun u hu => (k.away u hu).trans (h.away u hu)
  fellow := fun u hu hs =>
    (h.fellow u hu hs).trans (k.fellow u hu (by rw [Thread.agrees.st_eq (h.fellow u hu hs)]; exact hs))

/-- Any update of the issuing thread keeps the frame. -/
theorem Blk.frameBut_updThread (b : Blk) (t : Nat) (ls : List Nat) (f : Thread → Thread) : b.frameBut (b.updThread t f) t ls where
  rest := rfl
  dir := fun _ _ => rfl
  chans := rfl
  west := rfl
  east := rfl
  away := fun u hu => b.thread_updThread_other f (by rintro rfl; exact hu rfl)
  fellow := fun u hu _ => by rw [b.thread_updThread_other f hu]; exact Thread.agrees_refl _

/-- An update of a fellow that agrees keeps the frame. -/
theorem Blk.frameBut_fellow (b : Blk) (t u : Nat) (ls : List Nat) (f : Thread → Thread) (hu : u / 8 = t / 8)
    (hf : ∀ x : Thread, x.agrees (f x)) : b.frameBut (b.updThread u f) t ls where
  rest := rfl
  dir := fun _ _ => rfl
  chans := rfl
  west := rfl
  east := rfl
  away := fun v hv => b.thread_updThread_other f (by rintro rfl; exact hv hu)
  fellow := fun v _ _ => by
    rw [Blk.thread_updThread_if]
    split
    · exact hf _
    · exact Thread.agrees_refl _

theorem Blk.frameBut_updCore (b : Blk) (t c : Nat) (ls : List Nat) (f : Core → Core) : b.frameBut (b.updCore c f) t ls where
  rest := rfl
  dir := fun _ _ => rfl
  chans := rfl
  west := rfl
  east := rfl
  away := fun _ _ => rfl
  fellow := fun _ _ _ => Thread.agrees_refl _

theorem Blk.frameBut_updGroup (b : Blk) (t g : Nat) (ls : List Nat) (f : Group → Group) : b.frameBut (b.updGroup g f) t ls where
  rest := rfl
  dir := fun _ _ => rfl
  chans := rfl
  west := rfl
  east := rfl
  away := fun _ _ => rfl
  fellow := fun _ _ _ => Thread.agrees_refl _

theorem Blk.frameBut_drawn (b : Blk) (t n : Nat) (ls : List Nat) : b.frameBut (b.drawn n) t ls where
  rest := rfl
  dir := fun _ _ => rfl
  chans := rfl
  west := rfl
  east := rfl
  away := fun _ _ => rfl
  fellow := fun _ _ _ => Thread.agrees_refl _

theorem Blk.leaveWait_thread (b : Blk) (t u : Nat) : (b.leaveWait t).thread u = b.thread u := by
  unfold Blk.leaveWait; dsimp only; split <;> rfl

theorem Blk.evalWait_idle (b : Blk) (t : Nat) (h : (b.thread t).st ≠ .waiting) : b.evalWait t = b := by
  unfold Blk.evalWait
  rw [if_neg]
  simp [h]

theorem Blk.thread_wake_other (b : Blk) {t u : Nat} (h : u ≠ t) : (b.wake t).thread u = b.thread u := by
  unfold Blk.wake
  dsimp only
  rw [Blk.leaveWait_thread, Blk.thread_updThread_other _ _ h, Blk.thread_updThread_other _ _ h]

/-- What a wake-up leaves alone: everything but the cores; channels, fault rings, cores; other threads. -/
theorem Blk.wake_rest (b : Blk) (t : Nat) : b.wake t = { b with cores := (b.wake t).cores } ∧
    (b.wake t).cores.chans = b.cores.chans ∧ (b.wake t).cores.fqWest = b.cores.fqWest ∧
    (b.wake t).cores.fqEast = b.cores.fqEast ∧ (b.wake t).cores.cores = b.cores.cores := by
  have leave : ∀ c : Blk, c.leaveWait t = { c with cores := (c.leaveWait t).cores } ∧
      (c.leaveWait t).cores.chans = c.cores.chans ∧ (c.leaveWait t).cores.fqWest = c.cores.fqWest ∧
      (c.leaveWait t).cores.fqEast = c.cores.fqEast ∧ (c.leaveWait t).cores.cores = c.cores.cores := by
    intro c
    unfold Blk.leaveWait
    dsimp only
    split <;> exact ⟨rfl, rfl, rfl, rfl, rfl⟩
  unfold Blk.wake
  dsimp only
  obtain ⟨h0, h1, h2, h3, h4⟩ := leave _
  refine ⟨?_, h1, h2, h3, h4⟩
  conv => lhs; rw [h0]
  rfl

/-- A wake-up of the issuing thread, or of a waiting fellow, moves nothing that the frame speaks of. -/
theorem Blk.frameBut_wake (b : Blk) (t u : Nat) (ls : List Nat) (hu : u / 8 = t / 8) (hw : u = t ∨ (b.thread u).st = .waiting) :
    b.frameBut (b.wake u) t ls := by
  obtain ⟨h0, h1, h2, h3, -⟩ := b.wake_rest u
  refine ⟨?_, ?_, h1, h2, h3, ?_, ?_⟩
  · exact h0.trans (by rw [h0])
  · intro l _
    rw [h0]
  · intro v hv
    exact b.thread_wake_other (by rintro rfl; exact hv hu)
  · intro v hv hs
    rw [b.thread_wake_other (by
      rintro rfl
      rcases hw with hw | hw
      · exact hv hw
      · exact hs hw)]
    exact Thread.agrees_refl _

/-- A waiting fellow may wake: nothing that the frame speaks of moves. -/
theorem Blk.frameBut_evalWait (b : Blk) (t u : Nat) (ls : List Nat) (hu : u / 8 = t / 8) : b.frameBut (b.evalWait u) t ls := by
  unfold Blk.evalWait
  split
  · next h =>
    rw [Bool.and_eq_true, decide_eq_true_eq] at h
    exact b.frameBut_wake t u ls hu (.inr h.1)
  · exact b.frameBut_refl t ls

/-- Counting an event of a thread of the core keeps the frame. -/
theorem Blk.frameBut_pmcCount (b : Blk) (t u code n : Nat) (ls : List Nat) (hu : u / 8 = t / 8) :
    b.frameBut (b.pmcCount u code n) t ls := by
  unfold Blk.pmcCount
  have h := b.frameBut_fellow t u ls (fun x => x.pmcAdd code n) hu (fun x => x.agrees_pmcAdd code n)
  dsimp only
  split
  · exact h
  · exact h.trans (Blk.frameBut_evalWait _ t u ls hu)

/-- A thread that is not in WAIT goes through a count of any thread with its counters alone changed. -/
theorem Blk.agrees_pmcCount (b : Blk) (t u code n : Nat) (h : (b.thread t).st ≠ .waiting) :
    (b.thread t).agrees ((b.pmcCount u code n).thread t) := by
  have key : (b.thread t).agrees ((b.updThread u (fun x => x.pmcAdd code n)).thread t) := by
    rw [Blk.thread_updThread_if]
    split
    · exact Thread.agrees_pmcAdd _ code n
    · exact Thread.agrees_refl _
  unfold Blk.pmcCount
  dsimp only
  split
  · exact key
  · unfold Blk.evalWait
    split
    · next hw =>
      have hw : ((b.updThread u (fun x => x.pmcAdd code n)).thread u).st = .waiting := by
        rw [Bool.and_eq_true, decide_eq_true_eq] at hw; exact hw.1
      have hne : t ≠ u := by
        rintro rfl
        rw [Thread.agrees.st_eq key] at hw
        exact h hw
      rw [Blk.thread_wake_other _ hne]
      exact key
    · exact key

/-- A round of a core keeps the frame, and a thread that is not in WAIT changes its counters alone. -/
theorem Blk.coreRound_spec (b : Blk) (t : Nat) (ls : List Nat) (h : (b.thread t).st ≠ .waiting) :
    b.frameBut (b.coreRound (t / 8)) t ls ∧ (b.thread t).agrees ((b.coreRound (t / 8)).thread t) := by
  unfold Blk.coreRound
  have fold : ∀ (l : List Nat), (∀ k ∈ l, k < 8) → ∀ c : Blk, (c.thread t).st ≠ .waiting →
      c.frameBut (l.foldl (fun b k => b.pmcCount (t / 8 * 8 + k) 1 1) c) t ls ∧
      (c.thread t).agrees ((l.foldl (fun b k => b.pmcCount (t / 8 * 8 + k) 1 1) c).thread t) := by
    intro l
    induction l with
    | nil => intro _ c _; exact ⟨c.frameBut_refl t ls, Thread.agrees_refl _⟩
    | cons k l ih =>
      intro hl c hc
      have hk : k < 8 := hl k (by simp)
      have h1 := c.frameBut_pmcCount t (t / 8 * 8 + k) 1 1 ls (by omega)
      have h2 := c.agrees_pmcCount t (t / 8 * 8 + k) 1 1 hc
      obtain ⟨h3, h4⟩ := ih (fun j hj => hl j (by simp [hj])) (c.pmcCount (t / 8 * 8 + k) 1 1) (by
        rw [Thread.agrees.st_eq h2]; exact hc)
      exact ⟨h1.trans h3, h2.trans h4⟩
  have h0 := b.frameBut_updCore t (t / 8) ls (fun x => { x with rounds := BitVec.ofNat 64 (sat64 x.rounds.toNat 1) })
  obtain ⟨h1, h2⟩ := fold (List.range 8) (fun k hk => List.mem_range.1 hk)
    (b.updCore (t / 8) (fun x => { x with rounds := BitVec.ofNat 64 (sat64 x.rounds.toNat 1) })) h
  exact ⟨h0.trans h1, h2⟩

theorem Blk.frameBut_pmcFree (b : Blk) (t : Nat) (ls : List Nat) : b.frameBut (b.pmcFree t) t ls := by
  unfold Blk.pmcFree
  exact (b.frameBut_updThread t ls _).trans (Blk.frameBut_drawn _ t 4 ls)

theorem Blk.agrees_pmcFree (b : Blk) (t : Nat) : (b.thread t).agrees ((b.pmcFree t).thread t) := by
  unfold Blk.pmcFree
  show (b.thread t).agrees ((b.updThread t _).thread t)
  rw [Blk.thread_updThread_if, if_pos rfl]
  apply Thread.agrees_foldl
  intro x k
  dsimp only
  split
  · exact x.agrees_pmcBump _ _
  · exact x.agrees_refl

/-- The round that an issue belongs to keeps the frame and changes the issuing thread's counters alone. -/
theorem Blk.galliardSlot_spec (b : Blk) (t : Nat) (ls : List Nat) (h : (b.thread t).st ≠ .waiting) :
    b.frameBut (b.galliardSlot t) t ls ∧ (b.thread t).agrees ((b.galliardSlot t).thread t) := by
  unfold Blk.galliardSlot
  dsimp only
  split
  · exact ⟨b.frameBut_updCore t _ ls _, Thread.agrees_refl _⟩
  · obtain ⟨h1, h2⟩ := b.coreRound_spec t ls h
    refine ⟨h1.trans (Blk.frameBut_updCore _ t _ ls _), ?_⟩
    rw [Blk.thread_updCore]
    exact h2

/-- Taking a slot keeps the frame and changes the issuing thread's counters alone. -/
theorem Blk.takeSlot_spec (b : Blk) (t : Nat) (ls : List Nat) (h : (b.thread t).st ≠ .waiting) :
    b.frameBut (b.takeSlot t) t ls ∧ (b.thread t).agrees ((b.takeSlot t).thread t) := by
  have round : b.frameBut (if (b.core (t / 8)).pavane then b else b.galliardSlot t) t ls ∧
      (b.thread t).agrees ((if (b.core (t / 8)).pavane then b else b.galliardSlot t).thread t) := by
    split
    · exact ⟨b.frameBut_refl t ls, Thread.agrees_refl _⟩
    · exact b.galliardSlot_spec t ls h
  unfold Blk.takeSlot
  dsimp only
  generalize (if (b.core (t / 8)).pavane then b else b.galliardSlot t) = c at round
  refine ⟨(round.1.trans (c.frameBut_updThread t ls _)).trans (Blk.frameBut_pmcFree _ t ls), ?_⟩
  refine round.2.trans (Thread.agrees.trans ?_ (Blk.agrees_pmcFree _ t))
  rw [Blk.thread_updThread_if, if_pos rfl]
  exact Thread.agrees.trans (Thread.agrees_pmcAdd _ 3 1) ⟨rfl⟩

/-- A change of a core's mode keeps the frame and touches no thread. -/
theorem Blk.frameBut_tmodeSwitch (b : Blk) (t c : Nat) (ls : List Nat) : b.frameBut (b.tmodeSwitch c) t ls := by
  unfold Blk.tmodeSwitch
  split
  · exact b.frameBut_updCore t c ls _
  · exact b.frameBut_refl t ls

theorem Blk.thread_tmodeSwitch (b : Blk) (c u : Nat) : (b.tmodeSwitch c).thread u = b.thread u := by
  unfold Blk.tmodeSwitch
  split <;> rfl

/-- A fetch check reads poison and the thread's privilege and regions alone. -/
theorem Blk.fetchCause_congr {b c : Blk} (t a : Nat) (hp : c.poison = b.poison) (hs : (c.thread t).sr = (b.thread t).sr) :
    c.fetchCause t a = b.fetchCause t a := by
  unfold Blk.fetchCause Thread.allowed Blk.anyPoison
  rw [hp, hs]

theorem Blk.frameBut_fillL1i (b : Blk) (t c loc : Nat) (ls : List Nat) : b.frameBut (b.fillL1i c loc) t ls := by
  unfold Blk.fillL1i
  dsimp only
  split
  · exact b.frameBut_refl t ls
  · split
    · exact b.frameBut_updCore t c ls _
    · exact (b.frameBut_drawn t 1 ls).trans (Blk.frameBut_updCore _ t c ls _)

theorem Blk.thread_fillL1i (b : Blk) (c loc u : Nat) : (b.fillL1i c loc).thread u = b.thread u := by
  unfold Blk.fillL1i
  dsimp only
  split
  · rfl
  · split <;> rfl

theorem Blk.thread_dirTouch (b : Blk) (h : Half) (loc n u : Nat) (w : Bool) : (b.dirTouch h loc n w).thread u = b.thread u := by
  unfold Blk.dirTouch
  split <;> rfl

/-- A touch of some lines leaves the directory's record of every other line. -/
theorem Blk.frameBut_dirTouch (b : Blk) (t : Nat) (h : Half) (loc n : Nat) (w : Bool) :
    b.frameBut (b.dirTouch h loc n w) t ((List.range ((loc + n - 1) / 64 + 1 - loc / 64)).map (fun k => loc / 64 + k)) := by
  unfold Blk.dirTouch
  split
  · exact b.frameBut_refl t _
  · have fold : ∀ (l : List Nat) (d : Tab Nat) (j : Nat), j ∉ l.map (fun k => loc / 64 + k) →
        (l.foldl (fun d k => d.put 0 (loc / 64 + k) (dirNext (d.get 0 (loc / 64 + k)) (homeOfLoc loc) h w)) d).get 0 j =
          d.get 0 j := by
      intro l
      induction l with
      | nil => intro d j _; rfl
      | cons k l ih =>
        intro d j hj
        rw [List.map_cons, List.mem_cons, not_or] at hj
        rw [List.foldl_cons, ih _ j hj.2, Tab.get_put, if_neg hj.1]
    exact {
      rest := rfl
      dir := fun j hj => fold _ b.dir j hj
      chans := rfl
      west := rfl
      east := rfl
      away := fun _ _ => rfl
      fellow := fun _ _ _ => Thread.agrees_refl _ }

/-- An issue whose fetch is not refused: the effect is that of `polStep` on a block `b1` in which only counters, the
directory's record of the fetched lines, and the line in the L1I, differ from `b`. -/
theorem Blk.issue_spec (dev : DevBus) (b : Blk) (t : Nat) (i : Pol) (h : b.issues t) (hw : i.wf = true) :
    ∃ b1 : Blk, b.issueFrame b1 t ∧ (b.thread t).agrees (b1.thread t) ∧
      b.issue dev t i =
        match b1.polStep dev t i ((encodePol i).setWidth 64) (b.thread t).pc with
        | .done b2 pc2 => (b2.updThread t (fun x => { x with pc := pc2 })).commitInstr t
        | .stay b2 => b2.commitInstr t
        | .exc c d a => b1.raised t c d (b.thread t).pc a := by
  have hst : (b.thread t).st ≠ .waiting := by
    have := h.1
    unfold Blk.canIssueNow at this
    rw [Bool.and_eq_true, decide_eq_true_eq] at this
    rw [this.1]; decide
  have hm := b.thread_tmodeSwitch (t / 8) t
  obtain ⟨h1, h2⟩ := (b.tmodeSwitch (t / 8)).takeSlot_spec t (b.fetchLines t) (by rw [hm]; exact hst)
  rw [hm] at h2
  have h1 := (b.frameBut_tmodeSwitch t (t / 8) _).trans h1
  have hb : b.bridgeHolds t (if i.wf then some i else none) = false := by
    unfold Blk.bridgeHolds
    rw [h.2.2, Bool.false_and]
  unfold Blk.issue Blk.issueWord
  rw [h.1, hb, if_pos (by rfl), if_pos hw]
  generalize (b.tmodeSwitch (t / 8)).takeSlot t = c at h1 h2
  have hp : c.poison = b.poison := by rw [h1.rest]
  have hf := Blk.fetchCause_congr t (addr48 (b.thread t).pc) hp h2.sr_eq
  rw [h.2.1] at hf
  unfold Blk.runInstr
  dsimp only
  rw [h2.pc_eq, hf]
  dsimp only
  have hl : b.fetchLines t = (linesOf t (addr48 (b.thread t).pc) 4 false).map (·.1) := rfl
  unfold linesOf at hl
  unfold Blk.issueFrame
  cases hs : spaceOf (halfOfThread t) (addr48 (b.thread t).pc) 4 with
  | mem loc =>
    rw [hs] at hl
    dsimp only at hl
    rw [if_neg (by decide), List.map_map] at hl
    have hd : (c.dirTouch (halfOfThread t) loc 4 false).thread t = c.thread t := Blk.thread_dirTouch c _ loc 4 t false
    refine ⟨c.fetched t loc, (h1.trans ?_).trans (Blk.frameBut_fillL1i _ t _ loc _), ?_, rfl⟩
    · rw [hl]
      exact c.frameBut_dirTouch t (halfOfThread t) loc 4 false
    · unfold Blk.fetched
      rw [Blk.thread_fillL1i, hd]; exact h2
  | dev x => exact ⟨c, h1, h2, rfl⟩
  | none => exact ⟨c, h1, h2, rfl⟩

/-- An instruction commits: the frame holds. -/
theorem Blk.frameBut_commitInstr (b : Blk) (t : Nat) (ls : List Nat) : b.frameBut (b.commitInstr t) t ls := by
  unfold Blk.commitInstr
  exact (b.frameBut_updCore t _ ls _).trans (Blk.frameBut_pmcCount _ t t 2 1 ls rfl)

/-- An instruction of a thread that is not in WAIT commits: only counters of the thread move. -/
theorem Blk.agrees_commitInstr (b : Blk) (t : Nat) (h : (b.thread t).st ≠ .waiting) :
    (b.thread t).agrees ((b.commitInstr t).thread t) := by
  unfold Blk.commitInstr
  exact Blk.agrees_pmcCount (b.updCore (t / 8) (fun x => { x with instrs := BitVec.ofNat 64 (sat64 x.instrs.toNat 1) })) t t 2 1 h

/-- A thread that issues is RUNNING. -/
theorem Blk.issues.running {b : Blk} {t : Nat} (h : b.issues t) : (b.thread t).st = .running := by
  have := h.1
  unfold Blk.canIssueNow at this
  rw [Bool.and_eq_true, decide_eq_true_eq] at this
  exact this.1

/-- An instruction that only writes rd and moves on: the frame holds and the thread retires with the value. -/
theorem Blk.retire_spec {b b1 : Blk} {t : Nat} {ls : List Nat} (hr : (b.thread t).st ≠ .waiting) (hf : b.frameBut b1 t ls)
    (ha : (b.thread t).agrees (b1.thread t)) (rd : GReg) (v pc : W64) :
    b.frameBut (((b1.setG t rd v).updThread t (fun x => { x with pc := pc })).commitInstr t) t ls ∧
    ({ (b.thread t).setReg rd.val v with pc := pc } : Thread).agrees
      ((((b1.setG t rd v).updThread t (fun x => { x with pc := pc })).commitInstr t).thread t) := by
  have e : ((b1.setG t rd v).updThread t (fun x => { x with pc := pc })).thread t =
      { (b1.thread t).setReg rd.val v with pc := pc } := by
    unfold Blk.setG
    rw [Blk.thread_updThread_if, if_pos rfl, Blk.thread_updThread_if, if_pos rfl]
  have hw : (((b1.setG t rd v).updThread t (fun x => { x with pc := pc })).thread t).st ≠ .waiting := by
    rw [e, Thread.agrees.st_eq (ha.retire rd.val v pc)]
    unfold Thread.setReg
    split <;> exact hr
  refine ⟨((hf.trans (b1.frameBut_updThread t ls _)).trans (Blk.frameBut_updThread _ t ls _)).trans
    (Blk.frameBut_commitInstr _ t ls), ?_⟩
  refine Thread.agrees.trans (ha.retire rd.val v pc) ?_
  rw [← e]
  exact Blk.agrees_commitInstr _ t hw

end Sys2Proof.Machine
end

