-- ==== Sys2Proof/Laws/Complete.lean ====
section
/-! SUPPORT. How the issue of an instruction completes: from what `polStep` answers to the completion of the command. -/

namespace Sys2Proof.Machine
open Sys2Proof

/-- A command that issues an instruction which retires with a value completes with that value. -/
theorem completes_of_retire {s : State} {c : Instr} {t : Nat} {i : Pol} {rd : GReg} {v pc : W64}
    (hc : exec c s = s.run (fun b => b.issue devBus t i)) (h : s.blk.issues t) (hw : i.wf = true)
    (hs : ∀ b1 : Blk, s.blk.issueFrame b1 t → (s.blk.thread t).agrees (b1.thread t) →
      b1.polStep devBus t i ((encodePol i).setWidth 64) (s.blk.thread t).pc = b1.retire t rd v pc) :
    completesWith s c t rd v pc := by
  obtain ⟨b1, hf, ha, he⟩ := s.blk.issue_spec devBus t i h hw
  rw [hs b1 hf ha] at he
  refine ⟨_, hc, rfl, ?_⟩
  show s.blk.issueFrame (s.blk.issue devBus t i) t ∧ _
  rw [he]
  obtain ⟨h1, h2⟩ := Blk.retire_spec (by rw [h.running]; decide) hf ha rd v pc
  refine ⟨h1, ?_⟩
  show Thread.agrees _ ((s.blk.issue devBus t i).thread t)
  rw [he]
  exact h2

/-- The same for an instruction whose value is a function of the general registers. -/
theorem completes_of_regs {s : State} {c : Instr} {t : Nat} {i : Pol} {rd : GReg} {v pc : W64} (f : (GReg → W64) → W64)
    (hc : exec c s = s.run (fun b => b.issue devBus t i)) (h : s.blk.issues t) (hw : i.wf = true)
    (hs : ∀ b1 : Blk, b1.polStep devBus t i ((encodePol i).setWidth 64) (s.blk.thread t).pc = b1.retire t rd (f (b1.greg t)) pc)
    (hv : f (s.blk.greg t) = v) : completesWith s c t rd v pc := by
  refine completes_of_retire hc h hw ?_
  intro b1 _ ha
  rw [hs]
  have e : b1.greg t = s.blk.greg t := by
    funext r
    exact ha.reg_eq r.val
  rw [e, hv]

/-- A command that issues an instruction which only goes on at `pc` leaves its thread otherwise as it was. -/
theorem ends_of_jump {s : State} {c : Instr} {t : Nat} {i : Pol} {pc : W64}
    (hc : exec c s = s.run (fun b => b.issue devBus t i)) (h : s.blk.issues t) (hw : i.wf = true)
    (hs : ∀ b1 : Blk, s.blk.issueFrame b1 t → (s.blk.thread t).agrees (b1.thread t) →
      b1.polStep devBus t i ((encodePol i).setWidth 64) (s.blk.thread t).pc = .done b1 pc) :
    endsAs s c t { s.blk.thread t with pc := pc } := by
  obtain ⟨b1, hf, ha, he⟩ := s.blk.issue_spec devBus t i h hw
  rw [hs b1 hf ha] at he
  have e : (b1.updThread t (fun x => { x with pc := pc })).thread t = { b1.thread t with pc := pc } := by
    rw [Blk.thread_updThread_if, if_pos rfl]
  have k1 := (b1.updThread t (fun x => { x with pc := pc })).frameBut_commitInstr t (s.blk.fetchLines t)
  have k2 := (b1.updThread t (fun x => { x with pc := pc })).agrees_commitInstr t (by
    rw [e]
    show (b1.thread t).st ≠ .waiting
    rw [ha.st_eq, h.running]; decide)
  refine ⟨_, hc, rfl, ?_, ?_⟩
  · show s.blk.issueFrame (s.blk.issue devBus t i) t
    rw [he]
    exact (Blk.frameBut.trans hf (b1.frameBut_updThread t _ _)).trans k1
  · show Thread.agrees _ ((s.blk.issue devBus t i).thread t)
    rw [he]
    refine Thread.agrees.trans ⟨?_⟩ k2
    rw [e]
    conv => lhs; rw [ha.eq]

end Sys2Proof.Machine
end

