-- ==== Sys2Proof/Laws/Host.lean ====
section
/-! SUPPORT. What the shared operations of resets and detaches change: one lemma for each. -/

namespace Sys2Proof.Machine
open Sys2Proof

/-- A fold of updates each of which leaves a projection alone leaves it alone. -/
theorem foldl_proj {α β γ : Type} (f : β → α → β) (p : β → γ) (h : ∀ b a, p (f b a) = p b) (l : List α) (b : β) :
    p (l.foldl f b) = p b := by
  induction l generalizing b with
  | nil => rfl
  | cons a l ih => rw [List.foldl_cons, ih, h]

theorem Blk.noteRefusal_rest (b : Blk) (k : CqKey) (r : Nat) (i : W16) (t : Nat) :
    b.noteRefusal k r i t = { b with ctl := (b.noteRefusal k r i t).ctl } := by
  unfold Blk.noteRefusal
  split <;> rfl

/-- The block with its control plane replaced by a fixed one: what two blocks that differ in it agree on. -/
theorem Blk.dropPrograms_rest (b : Blk) (k : CqKey) : b.dropPrograms k = { b with ctl := (b.dropPrograms k).ctl } := by
  have fold : ∀ (l : List Prog) (b : Blk), (l.foldl (fun b p => b.noteRefusal k 0x0503 p.idx p.tag.toNat) b) =
      { b with ctl := (l.foldl (fun b p => b.noteRefusal k 0x0503 p.idx p.tag.toNat) b).ctl } := by
    intro l
    induction l with
    | nil => intro b; rfl
    | cons p l ih =>
      intro b
      rw [List.foldl_cons]
      refine (ih _).trans ?_
      rw [Blk.noteRefusal_rest b]
  unfold Blk.dropPrograms
  dsimp only
  rw [fold]
  rfl

/-- The work that ends with an instance: the control plane, queues, scans and the transport change. -/
theorem Blk.loseWork_rest (c : Blk) (i : Nat) : c.loseWork i = { c with
    ctl := (c.loseWork i).ctl, scans := (c.loseWork i).scans, wqs := (c.loseWork i).wqs, cqs := (c.loseWork i).cqs,
    eqs := (c.loseWork i).eqs, rmt := (c.loseWork i).rmt } := by
  have fold : ∀ (l : List Nat) (b : Blk),
      l.foldl (fun b n => b.updQp n (fun q => { q with sendList := [], out := [], trackers := [] })) b =
      { b with rmt := (l.foldl (fun b n => b.updQp n (fun q => { q with sendList := [], out := [], trackers := [] })) b).rmt } := by
    intro l
    induction l with
    | nil => intro b; rfl
    | cons n l ih =>
      intro b
      rw [List.foldl_cons]
      exact (ih _).trans rfl
  unfold Blk.loseWork
  dsimp only
  generalize (((c.instCfg i).qps.filter (fun q => q.2.inst == i && q.2.life != .absent)).map (·.1)) = l
  have h1 := fold l c
  generalize (l.foldl (fun b n => b.updQp n (fun q => { q with sendList := [], out := [], trackers := [] })) c) = b1 at h1 ⊢
  have h2 := b1.dropPrograms_rest (16 + i)
  generalize b1.dropPrograms (16 + i) = b2 at h2 ⊢
  rw [h1] at h2
  rw [h2]

theorem Blk.loseWork_insts (c : Blk) (i : Nat) : (c.loseWork i).insts = c.insts := by rw [Blk.loseWork_rest]

/-- An evaluation of INTx changes the function's flag at its port and what is sent. -/
theorem Blk.evalIntx_rest (b : Blk) (h : Nat) (f1 : Bool) : b.evalIntx h f1 = { b with
    ports := (b.evalIntx h f1).ports, out := (b.evalIntx h f1).out, pm := (b.evalIntx h f1).pm } := by
  unfold Blk.evalIntx
  dsimp only
  split
  · unfold Blk.updFn
    split <;> rfl
  · rfl

/-- A use of a generation number again changes the instance's walks and two counts. -/
theorem Blk.genDrain_rest (b : Blk) (i : Nat) (g : BitVec 12) : b.genDrain i g = { b with
    insts := (b.genDrain i g).insts, ports := (b.genDrain i g).ports } := by
  unfold Blk.genDrain
  dsimp only
  split <;> rfl

theorem Blk.genUp_rest (b : Blk) (i : Nat) : b.genUp i = { b with
    insts := (b.genUp i).insts, keys := (b.genUp i).keys, ports := (b.genUp i).ports } := by
  unfold Blk.genUp
  dsimp only
  have h := b.genDrain_rest i ((b.inst i).gen + 1)
  generalize b.genDrain i ((b.inst i).gen + 1) = c at h ⊢
  rw [h]
  unfold Blk.updCache Blk.endLocks Blk.updInst
  rfl

/-- A detach changes the control plane, the queues, scans, transport, key-store units, the instance's own state, and at its
port INTx and the count of completions discarded. -/
theorem Blk.detach_rest (b : Blk) (i : Nat) : b.detach i = { b with
    ctl := (b.detach i).ctl, scans := (b.detach i).scans, wqs := (b.detach i).wqs, cqs := (b.detach i).cqs,
    eqs := (b.detach i).eqs, insts := (b.detach i).insts, keys := (b.detach i).keys, rmt := (b.detach i).rmt,
    ports := (b.detach i).ports, out := (b.detach i).out, pm := (b.detach i).pm } := by
  unfold Blk.detach Blk.detachKeep
  generalize hc : (b.genUp i).updInst i (fun d => { d with detached := true, dirty := d.dirty.lose }) = c
  have hc : c = { b with insts := c.insts, keys := c.keys, ports := c.ports } := by
    have g := b.genUp_rest i
    generalize b.genUp i = e at g hc
    rw [← hc, g]
    rfl
  have h := c.loseWork_rest i
  generalize c.loseWork i = d at h ⊢
  rw [hc] at h
  generalize ((b.genUp i).cfg.inst i).port.toNat = p
  have k := d.evalIntx_rest p true
  generalize d.evalIntx p true = e at k ⊢
  rw [h] at k
  rw [k]

theorem Blk.genDrain_inst (b : Blk) (i j : Nat) (g : BitVec 12) : (b.genDrain i g).inst j =
    if j = i then { b.inst i with stale := ((b.genDrain i g).inst i).stale } else b.inst j := by
  unfold Blk.genDrain
  dsimp only
  split
  · split
    · next h => rw [h]
    · rfl
  · unfold Blk.updInst Blk.inst
    dsimp only
    rw [Tab.get_upd, Tab.get_upd, if_pos rfl]
    split <;> rfl

/-- What a detach of instance `i` does to the instances' own state. -/
theorem Blk.detach_inst (b : Blk) (i j : Nat) : (b.detach i).inst j =
    if j = i then { b.inst i with
      gen := (b.inst i).gen + 1, detached := true, dirty := (b.inst i).dirty.lose, stale := ((b.detach i).inst i).stale }
    else b.inst j := by
  have key : ∀ j, (b.detach i).inst j =
      if j = i then { (b.genDrain i ((b.inst i).gen + 1)).inst i with
        gen := ((b.genDrain i ((b.inst i).gen + 1)).inst i).gen + 1, detached := true,
        dirty := ((b.genDrain i ((b.inst i).gen + 1)).inst i).dirty.lose }
      else (b.genDrain i ((b.inst i).gen + 1)).inst j := by
    intro j
    have h2 : (b.genUp i).insts.dyn =
        (b.genDrain i ((b.inst i).gen + 1)).insts.dyn.upd {} i (fun d => { d with gen := d.gen + 1 }) := rfl
    generalize b.genDrain i ((b.inst i).gen + 1) = c at h2 ⊢
    unfold Blk.detach Blk.detachKeep
    unfold Blk.inst
    rw [Blk.evalIntx_rest]
    dsimp only
    rw [Blk.loseWork_insts]
    unfold Blk.updInst
    dsimp only
    rw [Tab.get_upd, h2, Tab.get_upd]
    by_cases h : j = i
    · subst h
      rw [if_pos rfl, if_pos rfl, if_pos rfl]
    · rw [if_neg h, if_neg h, Tab.get_upd, if_neg h]
  rw [key j, key i, if_pos rfl, b.genDrain_inst i i, if_pos rfl]
  split
  · rfl
  · next h => rw [b.genDrain_inst i j, if_neg h]

/-- A detach of every instance of a port leaves engines, boot and the management die alone. -/
theorem Blk.detachPort_rest (b : Blk) (h : Nat) : b.detachPort h = { b with
    ctl := (b.detachPort h).ctl, scans := (b.detachPort h).scans, wqs := (b.detachPort h).wqs, cqs := (b.detachPort h).cqs,
    eqs := (b.detachPort h).eqs, insts := (b.detachPort h).insts, keys := (b.detachPort h).keys,
    rmt := (b.detachPort h).rmt, ports := (b.detachPort h).ports, out := (b.detachPort h).out,
    pm := (b.detachPort h).pm } := by
  unfold Blk.detachPort
  generalize b.boundInsts h = l
  induction l generalizing b with
  | nil => rfl
  | cons i l ih =>
    rw [List.foldl_cons]
    refine (ih _).trans ?_
    rw [Blk.detach_rest b i]

/-- Every instance that was bound to the port is DETACHED. -/
theorem Blk.detachPort_detached (b : Blk) (h i : Nat) (hi : i ∈ b.boundInsts h) : ((b.detachPort h).inst i).detached = true := by
  unfold Blk.detachPort
  have mono : ∀ (l : List Nat) (c : Blk), (c.inst i).detached = true → ((l.foldl Blk.detach c).inst i).detached = true := by
    intro l
    induction l with
    | nil => intro c hc; exact hc
    | cons j l ih =>
      intro c hc
      rw [List.foldl_cons]
      apply ih
      rw [Blk.detach_inst]
      split
      · rfl
      · exact hc
  generalize b.boundInsts h = l at hi
  induction l generalizing b with
  | nil => cases hi
  | cons j l ih =>
    rw [List.foldl_cons]
    rcases List.mem_cons.1 hi with rfl | hi
    · apply mono
      rw [Blk.detach_inst, if_pos rfl]
    · exact ih (b.detach j) hi

end Sys2Proof.Machine
end

