-- ==== Sys2Proof/Laws/Memory.lean ====
section
/-! SUPPORT. Laws of system memory: what a read finds after each memory operation, and that every one of them keeps the
canonical form. -/

namespace Sys2Proof.Machine
open Sys2Proof

/-! Bytes of a table. -/

/-- A byte read after bytes were written. -/
theorem get_memPut (l : List Byte) (m : Tab Byte) (a j : Nat) :
    (memPut m a l).get 0 j = if a ≤ j ∧ j < a + l.length then l.getD (j - a) 0 else m.get 0 j := by
  induction l generalizing m a with
  | nil => simp [memPut]
  | cons v r ih =>
    rw [memPut, ih, Tab.get_put]
    by_cases h : a + 1 ≤ j ∧ j < a + 1 + r.length
    · have h2 : a ≤ j ∧ j < a + (v :: r).length := by simp; omega
      rw [if_pos h, if_pos h2]
      obtain ⟨k, rfl⟩ := Nat.exists_eq_add_of_le h.1
      rw [show a + 1 + k - (a + 1) = k by omega, show a + 1 + k - a = k + 1 by omega]
      simp
    · rw [if_neg h]
      by_cases e : j = a
      · subst e
        simp
      · have h2 : ¬ (a ≤ j ∧ j < a + (v :: r).length) := by simp; omega
        rw [if_neg e, if_neg h2]

/-- Writing bytes keeps the canonical form. -/
theorem memPut_wf (l : List Byte) (m : Tab Byte) (a : Nat) (h : Memory.wf m = true) : Memory.wf (memPut m a l) = true := by
  induction l generalizing m a with
  | nil => exact h
  | cons v r ih => exact ih _ _ (Tab.wf_put 0 m a v h)

/-! System memory. -/

/-- A byte of system memory after bytes were written. -/
theorem Blk.byte_setBytes (b : Blk) (a : Nat) (l : List Byte) (j : Nat) :
    (b.setBytes a l).byte j = if a ≤ j ∧ j < a + l.length then l.getD (j - a) 0 else b.byte j := get_memPut l b.mem a j

/-- What was written is read back. -/
theorem Blk.bytes_setBytes_same (b : Blk) (a : Nat) (l : List Byte) : (b.setBytes a l).bytes a l.length = l := by
  apply List.ext_getElem
  · simp [Blk.bytes]
  · intro n h1 h2
    simp [Blk.bytes, Blk.byte_setBytes, h2]

/-- A write leaves every other byte alone. -/
theorem Blk.byte_setBytes_other (b : Blk) (a : Nat) (l : List Byte) (j : Nat) (h : j < a ∨ a + l.length ≤ j) :
    (b.setBytes a l).byte j = b.byte j := by
  rw [Blk.byte_setBytes, if_neg (by omega)]

theorem Blk.mem_dirTouch (b : Blk) (h : Half) (loc n : Nat) (w : Bool) : (b.dirTouch h loc n w).mem = b.mem := by
  unfold Blk.dirTouch
  split <;> rfl

/-- A store into a table area makes tables undefined and changes nothing else. -/
theorem Blk.tablesHit_rest (b : Blk) (a n : Nat) : b.tablesHit a n = { b with pipes := (b.tablesHit a n).pipes } := by
  unfold Blk.tablesHit
  generalize List.range 8 = l
  induction l generalizing b with
  | nil => rfl
  | cons p l ih =>
    rw [List.foldl_cons]
    refine (ih _).trans ?_
    split <;> rfl

theorem Blk.mem_tablesHit (b : Blk) (a n : Nat) : (b.tablesHit a n).mem = b.mem := by rw [Blk.tablesHit_rest]

/-- What a store by a core leaves in memory: the bytes written, no others. -/
theorem Blk.mem_storeMem (b : Blk) (h : Half) (loc : Nat) (l : List Byte) : (b.storeMem h loc l).mem = memPut b.mem loc l := by
  unfold Blk.storeMem
  rw [Blk.mem_dirTouch, Blk.mem_tablesHit]
  rfl

/-- What a write by a device unit leaves in memory: the bytes written, no others. -/
theorem Blk.mem_devWrite (b : Blk) (a : Nat) (l : List Byte) : (b.devWrite a l).mem = memPut b.mem a l := by
  unfold Blk.devWrite Blk.l1iDrop
  dsimp only
  rw [Blk.mem_tablesHit]
  rfl

/-- A byte read after a range was zeroed. -/
theorem Blk.byte_zeroRange (b : Blk) (a n j : Nat) :
    (b.zeroRange a n).byte j = if a ≤ j ∧ j < a + n then 0 else b.byte j := by
  have key : ∀ m : Tab Byte, (m.dropKeys (fun k => decide (a ≤ k) && decide (k < a + n))).get 0 j =
      if a ≤ j ∧ j < a + n then 0 else m.get 0 j := by
    intro m
    induction m with
    | nil => simp [Tab.dropKeys, Tab.get]
    | cons e r ih =>
      obtain ⟨k, v⟩ := e
      unfold Tab.dropKeys at ih ⊢
      rw [List.filter_cons]
      by_cases hk : a ≤ k ∧ k < a + n
      · rw [if_neg (by simp [hk]), ih]
        split
        · rfl
        · have hj : k ≠ j := by rintro rfl; contradiction
          simp [Tab.get, hj]
      · rw [if_pos (by simp; omega)]
        simp only [Tab.get]
        split
        · subst_vars
          rw [if_neg hk]
        · exact ih
  exact key b.mem

/-- Every operation on system memory keeps its canonical form. -/
theorem Blk.setByte_wf (b : Blk) (a : Nat) (v : Byte) (h : Memory.wf b.mem = true) : Memory.wf (b.setByte a v).mem = true :=
  Tab.wf_put 0 b.mem a v h
theorem Blk.setBytes_wf (b : Blk) (a : Nat) (l : List Byte) (h : Memory.wf b.mem = true) :
    Memory.wf (b.setBytes a l).mem = true := memPut_wf l b.mem a h
theorem Blk.storeMem_wf (b : Blk) (h : Half) (loc : Nat) (l : List Byte) (hw : Memory.wf b.mem = true) :
    Memory.wf (b.storeMem h loc l).mem = true := by rw [Blk.mem_storeMem]; exact memPut_wf l b.mem loc hw
theorem Blk.devWrite_wf (b : Blk) (a : Nat) (l : List Byte) (h : Memory.wf b.mem = true) :
    Memory.wf (b.devWrite a l).mem = true := by rw [Blk.mem_devWrite]; exact memPut_wf l b.mem a h
theorem Blk.zeroRange_wf (b : Blk) (a n : Nat) (h : Memory.wf b.mem = true) : Memory.wf (b.zeroRange a n).mem = true :=
  Tab.wf_dropKeys 0 (fun k => decide (a ≤ k) && decide (k < a + n)) b.mem h
theorem Blk.clearHalfMem_wf (b : Blk) (h : Half) (hw : Memory.wf b.mem = true) : Memory.wf (b.clearHalfMem h).mem = true :=
  Blk.zeroRange_wf _ _ _ (b.zeroRange_wf _ _ hw)
theorem Blk.placeImage_wf (b : Blk) (h : Half) (x : Image) (hw : Memory.wf b.mem = true) :
    Memory.wf (b.placeImage h x).mem = true := by
  unfold Blk.placeImage
  generalize x.sections = l
  induction l generalizing b with
  | nil => exact hw
  | cons s l ih => exact ih _ (b.setBytes_wf _ _ hw)

/-- Memory right after reset is canonical: it lists nothing. -/
theorem reset_mem_wf : Memory.wf State.reset.blk.mem = true := rfl

end Sys2Proof.Machine
end

