-- ==== Sys2Proof/Machine/HostViews.lean ====
section
/-! DEFINITION. What a host reads where no register of a block answers: configuration space (R54 to R58), the load window
and the expansion ROM (R65 to R67, R513). They show state and change none; the table has no row for them. -/

namespace Sys2Proof.Machine
open Sys2Proof

/-! Configuration space. -/

/-- A field of configuration space: dword offset, low bit, width, value. -/
structure CfgField where
  off : Nat
  lo : Nat
  width : Nat
  val : Nat
  deriving DecidableEq, Repr

/-- The capabilities of R55: offset, identifier, whether F0 and F1 carry it. -/
def capTable : List (Nat × Nat × Bool × Bool) :=
  [(0x40, 0x01, true, true), (0x50, 0x10, true, true), (0x90, 0x11, true, true)]

/-- The extended capabilities of R55. -/
def extCapTable : List (Nat × Nat × Bool × Bool) :=
  [(0x100, 0x0001, true, true), (0x150, 0x0003, true, true), (0x160, 0x0019, true, false), (0x1A0, 0x0025, true, false),
   (0x1B0, 0x0026, true, false), (0x200, 0x002A, true, false), (0x240, 0x0031, true, false), (0x280, 0x0027, true, false),
   (0x2C0, 0x002F, true, true), (0x2D0, 0x001E, true, false), (0x2E0, 0x0018, true, false), (0x2F0, 0x001B, false, true),
   (0x300, 0x000B, true, true), (0x340, 0x0032, true, false)]

/-- Offsets and identifiers that a function carries, in order. -/
def capsOf (l : List (Nat × Nat × Bool × Bool)) (f1 : Bool) : List (Nat × Nat) :=
  (l.filter (fun x => if f1 then x.2.2.2 else x.2.2.1)).map (fun x => (x.1, x.2.1))

/-- Each capability with its next pointer; the last is zero (R55). -/
def linked : List (Nat × Nat) → List (Nat × Nat × Nat)
  | [] => []
  | [(o, i)] => [(o, i, 0)]
  | (o, i) :: (o2, i2) :: r => (o, i, o2) :: linked ((o2, i2) :: r)

/-- Headers of the capabilities of a function (R55). -/
def capHeaders (f1 : Bool) : List CfgField :=
  (linked (capsOf capTable f1)).flatMap (fun (o, i, n) => [⟨o, 0, 8, i⟩, ⟨o, 8, 8, n⟩]) ++
  (linked (capsOf extCapTable f1)).flatMap (fun (o, i, n) => [⟨o, 0, 16, i⟩, ⟨o, 20, 12, n⟩])

/-- Standard header of a function (R54, R58, R68). The fields that R54 leaves to PCI Express are PRESUMED as it gives them:
Latency Timer, BIST, Cardbus CIS, Min_Gnt, Max_Lat and reserved bytes read 0. -/
def Blk.cfgHeader (b : Blk) (f1 : Bool) (h : Nat) : List CfgField :=
  let x := b.fn h f1
  [⟨0x00, 0, 16, 0x1E6A⟩, ⟨0x00, 16, 16, if f1 then 0xE101 else 0xE100⟩, ⟨0x04, 0, 16, x.command⟩,
   ⟨0x04, 16, 16, b.cfgStatus h f1⟩, ⟨0x08, 0, 8, 0xA1⟩,
   ⟨0x08, 8, 24, if f1 then 0x028000 else 0x120000⟩, ⟨0x0C, 16, 8, 0x80⟩, ⟨0x2C, 0, 16, 0x1E6A⟩, ⟨0x2C, 16, 16, 0x2564⟩,
   ⟨0x0C, 0, 8, x.cacheLine.toNat⟩, ⟨0x0C, 8, 8, 0⟩, ⟨0x0C, 24, 8, 0⟩, ⟨0x28, 0, 32, 0⟩, ⟨0x34, 8, 24, 0⟩, ⟨0x38, 0, 32, 0⟩,
   ⟨0x3C, 16, 16, 0⟩,
   ⟨0x30, 0, 32, x.barReg f1 8⟩, ⟨0x34, 0, 8, 0x40⟩, ⟨0x3C, 0, 8, x.intLine.toNat⟩, ⟨0x3C, 8, 8, 1⟩] ++
  (List.range 6).map (fun k => ⟨0x10 + 4 * k, 0, 32, x.barReg f1 k⟩)

/-- Fixed fields of the capabilities below 0x100 and what a host sets there (R56, R72, R78). Places within a capability are
PRESUMED: those of PCI Express. -/
def Blk.cfgCaps (b : Blk) (f1 : Bool) (h : Nat) : List CfgField :=
  let x := b.fn h f1
  [⟨0x40, 16, 3, 3⟩, ⟨0x40, 25, 2, 0⟩, ⟨0x40, 27, 5, 0⟩, ⟨0x44, 0, 2, if x.d3 then 3 else 0⟩, ⟨0x44, 3, 1, 1⟩,
   ⟨0x50, 16, 4, 2⟩, ⟨0x50, 20, 4, 0⟩, ⟨0x50, 31, 1, 1⟩,
   ⟨0x54, 0, 3, 2⟩, ⟨0x54, 5, 1, 1⟩, ⟨0x54, 6, 3, 7⟩, ⟨0x54, 9, 3, 7⟩, ⟨0x54, 15, 1, 1⟩, ⟨0x54, 28, 1, 1⟩,
   ⟨0x58, 0, 16, x.devCtl.toNat⟩, ⟨0x5C, 0, 4, 6⟩, ⟨0x5C, 4, 6, if b.x16 h then 16 else 8⟩, ⟨0x5C, 10, 2, 2⟩, ⟨0x5C, 12, 3, 7⟩, ⟨0x5C, 15, 3, 2⟩, ⟨0x5C, 18, 1, 1⟩,
   ⟨0x5C, 24, 8, h⟩,
   ⟨0x74, 0, 4, 0⟩, ⟨0x74, 4, 1, 0⟩, ⟨0x74, 7, 1, 1⟩, ⟨0x74, 8, 1, 1⟩, ⟨0x74, 9, 1, 0⟩, ⟨0x74, 11, 1, if f1 then 0 else 1⟩,
   ⟨0x74, 16, 1, 1⟩, ⟨0x74, 17, 1, 1⟩, ⟨0x78, 6, 1, fb x.atomicReq 0⟩, ⟨0x7C, 1, 7, 0x3F⟩,
   ⟨0x90, 16, 16, x.msixCtl f1⟩, ⟨0x94, 0, 32, if f1 then 4 else 0x28000⟩, ⟨0x98, 0, 32, if f1 then 0x8004 else 0x29000⟩] ++
  (if f1 then [] else [⟨0x60, 1, 1, fb (b.port h).l1En 0⟩, ⟨0x60, 16, 4, (b.port h).speed.toNat⟩, ⟨0x60, 20, 6, (b.port h).width.toNat⟩, ⟨0x78, 10, 1, fb (b.port h).ltrEn 0⟩])

/-- The vendor-specific capability (R57). -/
def Blk.cfgVsec (b : Blk) (h : Nat) : List CfgField :=
  [⟨0x300, 16, 4, 1⟩, ⟨0x304, 0, 16, 0x5344⟩, ⟨0x304, 16, 4, 1⟩, ⟨0x304, 20, 12, 0x010⟩,
   ⟨0x308, 0, 4, h⟩, ⟨0x308, 4, 1, (halfOfPort h).code⟩, ⟨0x308, 5, 1, fb (b.ownerPort == h) 0⟩,
   ⟨0x308, 6, 1, fb (b.x16 h) 0⟩, ⟨0x308, 7, 1, fb (b.loaderAllowed h) 0⟩, ⟨0x308, 8, 24, 0⟩, ⟨0x30C, 0, 32, 0⟩]

/-- Fixed fields of the extended capabilities and what a host sets there (R56). Places PRESUMED as in `cfgCaps`. -/
def Blk.cfgExt (b : Blk) (f1 : Bool) (h : Nat) : List CfgField :=
  let p := b.port h
  [⟨0x104, 0, 32, if f1 then p.aerF1.toNat else p.aer.toNat⟩, ⟨0x110, 0, 32, if f1 then p.aerCorF1.toNat else p.aerCor.toNat⟩,
   ⟨0x154, 0, 32, Config.serial.toNat % 2 ^ 32⟩, ⟨0x158, 0, 32, Config.serial.toNat / 2 ^ 32⟩,
   ⟨0x2C4, 1, 1, 1⟩, ⟨0x2C4, 2, 1, 1⟩] ++
  (if f1 then [⟨0x2F4, 1, 1, 0⟩, ⟨0x2F4, 2, 1, 0⟩, ⟨0x2F4, 8, 5, 20⟩, ⟨0x2F4, 16, 1, fb (b.fn h true).pasidCtl 0⟩]
   else
     [⟨0x2C8, 3, 1, fb p.l0pEn 0⟩, ⟨0x2D4, 0, 5, 31⟩, ⟨0x2D4, 8, 8, 10⟩, ⟨0x2D4, 16, 2, 1⟩, ⟨0x2D4, 19, 5, 4⟩,
      ⟨0x2D8, 0, 1, fb p.pl12En 0⟩, ⟨0x2D8, 1, 1, fb p.pl11En 0⟩, ⟨0x2D8, 2, 1, fb p.l12En 0⟩, ⟨0x2D8, 3, 1, fb p.l11En 0⟩, ⟨0x2D8, 16, 10, p.l12Value.toNat⟩,
      ⟨0x2D8, 29, 3, p.l12Scale.toNat⟩])

/-- Every field of configuration space of a function that the spec fixes or the state holds. -/
def Blk.cfgFields (b : Blk) (f1 : Bool) (h : Nat) : List CfgField :=
  b.cfgHeader f1 h ++ capHeaders f1 ++ b.cfgCaps f1 h ++ b.cfgVsec h ++ b.cfgExt f1 h

/-- What a configuration read of a function finds: no function, not ready yet, or a dword, as the bits stated and their
values (R51, R53, R81). -/
inductive CfgView where
  | absent
  | retry
  | dword (mask val : Nat)
  deriving DecidableEq, Repr

/-- The dword at an aligned offset of configuration space of a function (R53 to R58). -/
def Blk.cfgView (b : Blk) (f1 : Bool) (h off : Nat) : CfgView :=
  if b.absent h || !(b.port h).linkUp then .absent
  else if !(b.fn h f1).ready || (b.fn h f1).flr then .retry
  else
    let fs := (b.cfgFields f1 h).filter (fun x => x.off == off)
    .dword (fs.foldl (fun a x => a ||| ((2 ^ x.width - 1) * 2 ^ x.lo)) 0)
      (fs.foldl (fun a x => a ||| (x.val % 2 ^ x.width * 2 ^ x.lo)) 0)

/-! The load window. -/

/-- `n` bytes of the load window of a port (R59, R92, R513): those written since the area was last discarded or released,
0 elsewhere. -/
def Blk.windowView (b : Blk) (h off n : Nat) : List Byte :=
  (List.range n).map (fun k => if off + k < 268435456 then (b.bport h).area.get 0 (off + k) else 0)

/-! The expansion ROM. -/

/-- CRC-checked Device Description Table over its records, `n` of them, END included (R66, R67). -/
def Blk.ddt (b : Blk) (h : Nat) (records : List Byte) (n : Nat) : List Byte :=
  let head := [0x45, 0x4C, 0x46, 0x44, 0x44, 0x54].map (BitVec.ofNat 8) ++ bytesLE 2 0x0100 ++
    bytesLE 4 (32 + records.length) ++ bytesLE 2 n ++ bytesLE 1 h ++
    bytesLE 1 (fb (b.ownerPort == h) 0 + fb (b.loaderAllowed h) 1 + fb (b.x16 h) 2) ++
    [0x45, 0x51, 0x56, 0x32, 0x35, 0x36, 0x34, 0x00].map (BitVec.ofNat 8) ++ bytesLE 1 0xA1 ++ bytesLE 3 0
  head ++ bytesLE 4 (crc32c (head ++ bytesLE 4 0 ++ records)).toNat ++ records

/-- FUNCTION record (R67). -/
def ddtFunction (f1 : Bool) : List Byte :=
  bytesLE 2 1 ++ bytesLE 2 16 ++ bytesLE 1 (if f1 then 1 else 0) ++ bytesLE 1 (if f1 then 1 else 0) ++
  bytesLE 2 (if f1 then 0xE101 else 0xE100) ++ bytesLE 3 (if f1 then 0x028000 else 0x120000) ++ bytesLE 1 0 ++
  bytesLE 2 (if f1 then 2048 else 32) ++ bytesLE 2 0

/-- LIMIT record (R67). -/
def ddtLimit (code val : Nat) : List Byte :=
  bytesLE 2 3 ++ bytesLE 2 16 ++ bytesLE 2 code ++ bytesLE 2 0 ++ bytesLE 8 val

/-- The limits of this stepping, by code (R67). -/
def ddtLimits : List (Nat × Nat) :=
  [(1, 8192), (2, 64), (3, 16), (4, 32768), (5, 4096), (6, 1048576), (7, 268435456), (8, 4), (9, 1048574), (0xA, 65536),
   (0xB, 65536), (0xC, 2884864), (0xD, 32), (0xE, 10000000)]

/-- REGION record (R67): function, BAR, region code, offset, length. -/
def ddtRegion (f1 : Bool) (bar code off len : Nat) : List Byte :=
  bytesLE 2 2 ++ bytesLE 2 24 ++ bytesLE 1 (fb f1 0) ++ bytesLE 1 bar ++ bytesLE 2 code ++ bytesLE 8 off ++ bytesLE 8 len

/-- A region of the maps of R60 to R63. -/
structure DdtRegion where
  f1 : Bool
  bar : Nat
  code : Nat
  off : Nat
  /-- Its length, where the maps give one. -/
  len : Option Nat
  deriving DecidableEq, Repr

/-- The regions of R60 to R63, in their order. -/
def ddtRegions : List DdtRegion :=
  [⟨false, 0, 0x0001, 0x00000000, none⟩, ⟨false, 0, 0x0002, 0x00010000, none⟩, ⟨false, 0, 0x0003, 0x00020000, none⟩,
   ⟨false, 0, 0x0004, 0x00028000, some 512⟩, ⟨false, 0, 0x0005, 0x00029000, some 4⟩, ⟨false, 0, 0x0006, 0x00030000, none⟩,
   ⟨false, 0, 0x0007, 0x00040000, none⟩, ⟨false, 0, 0x0008, 0x00050000, none⟩, ⟨false, 0, 0x0009, 0x01000000, none⟩,
   ⟨false, 2, 0x0010, 0, some 0x10000000⟩, ⟨true, 0, 0x0020, 0, some 0x02000000⟩, ⟨true, 0, 0x0021, 0x02000000, none⟩,
   ⟨true, 2, 0x0022, 0, some 0x400000000⟩, ⟨true, 4, 0x0004, 0, some 32768⟩, ⟨true, 4, 0x0005, 0x8000, some 256⟩]

/-- CAPABILITY record of a port (R67): the spec states neither the versions nor what enables one, so both are free. -/
def ddtCap (h code : Nat) : List Byte :=
  bytesLE 2 4 ++ bytesLE 2 8 ++ bytesLE 2 code ++ bytesLE 1 (Config.capVersion code).toNat ++ bytesLE 1 (fb (Config.capEnabled h code) 0)

/-- The records of the table of a port but END. DESIGN CHOICE (log 111): one for each row of the tables of R67 that this stepping
has, by type and in the order of the tables, and a length that the maps do not give is free. -/
def ddtRecords (h : Nat) : List (List Byte) :=
  [ddtFunction false, ddtFunction true] ++
  ddtRegions.map (fun r => ddtRegion r.f1 r.bar r.code r.off (r.len.getD (Config.regionLen r.code).toNat)) ++
  ddtLimits.map (fun x => ddtLimit x.1 x.2) ++
  ((List.range 9).map (fun k => ddtCap h (k + 1)))

/-- The END record (R67). -/
def ddtEnd : List Byte := bytesLE 2 0xFFFF ++ bytesLE 2 4

/-- The first 64 bytes of the ROM: header and PCI data structure (R65). -/
def romHeader : List Byte :=
  bytesLE 2 0xAA55 ++ List.replicate 22 0 ++ bytesLE 2 0x20 ++ bytesLE 2 0 ++ bytesLE 4 0x40 ++
  [0x50, 0x43, 0x49, 0x52].map (BitVec.ofNat 8) ++ bytesLE 2 0x1E6A ++ bytesLE 2 0xE100 ++ bytesLE 2 0 ++ bytesLE 2 0x1C ++
  bytesLE 1 3 ++ bytesLE 3 0x120000 ++ bytesLE 2 0x0800 ++ bytesLE 2 0x0100 ++ bytesLE 1 0x70 ++ bytesLE 1 0x80 ++
  List.replicate 10 0

/-- The ROM of a port, as far as it is listed (R65 to R67). -/
def Blk.rom (b : Blk) (h : Nat) : List Byte :=
  romHeader ++ b.ddt h ((ddtRecords h).flatten ++ ddtEnd) ((ddtRecords h).length + 1)

/-- `n` bytes of the ROM of a port: zeros beyond what is listed (R65); nothing before the image is built. -/
def Blk.romView (b : Blk) (h off n : Nat) : List Byte :=
  if (b.port h).rom then slice (b.rom h) off n else List.replicate n 0

end Sys2Proof.Machine
end

