-- ==== Sys2Proof/Tests/Slice0.lean ====
section
/-! SUPPORT. Tests: terms that the well-formedness check refuses, instruction words written from the tables of chapter 09,
one step on small states, and for each statement a concrete state and operands that meet its hypotheses. -/

namespace Sys2Proof.Tests
open Sys2Proof Sys2Proof.Machine

set_option Elab.async false
/-! An ill-formed term for each check. -/

theorem test_wf_load_double_signed : Instr.wf (.load 0 .d true false 1 2 0) = false := by decide
theorem test_wf_send_zero : Instr.wf (.chSend 0 1 2 0) = false := by decide
theorem test_wf_send_sixty_five : Instr.wf (.chSend 0 1 2 65) = false := by decide
theorem test_wf_fill_zero : Instr.wf (.hwFill 0 1 2 0) = false := by decide
theorem test_wf_spill_past_window : Instr.wf (.hwSpill 0 2 513) = false := by decide
theorem test_wf_sum_zero : Instr.wf (.csumHw 0 1 2 0) = false := by decide
theorem test_wf_crc_zero : Instr.wf (.crcHw 0 1 2 0) = false := by decide
theorem test_wf_field_past_top : Instr.wf (.bfx 0 1 2 63 1) = false := by decide
theorem test_wf_register_absent : Instr.wf (.registerWrite (.thread 0) (.chCfg 4096) 0) = false := by decide
theorem test_wf_aligned_access_is_no_misaligned : Instr.wf (.misalignedRegisterAccess (.thread 0) .mono 0 4 true) = false := by decide
theorem test_wf_low_word_of_narrow : Instr.wf (.lowWordRead (.thread 0) (.bootId 0)) = false := by decide
theorem test_wf_high_word_absent : Instr.wf (.highWordWrite (.thread 0) (.fqBase 2) 0) = false := by decide
theorem test_wf_low_word_absent : Instr.wf (.lowWordWrite (.thread 0) (.fqBase 2) 0) = false := by decide
theorem test_wf_illegal_word_is_legal : Instr.wf (.illegalInstruction 0 0x18000000) = false := by decide
theorem test_wf_load_window_past_end : Instr.wf (.loadWindowWrite 0 1073741823 [none, none]) = false := by decide
theorem test_wf_wqe_short : Instr.wf (.wqeFetch (.wq 1 3) (.ok [0]) (.ok [])) = false := by decide
theorem test_wf_descriptor_short : Instr.wf (.dmaDescRead 0 0 (.ok [0])) = false := by decide
theorem test_wf_walk_for_nothing : Instr.wf (.translationWalk 1 0 false false ⟨none, 0⟩) = false := by decide
theorem test_wf_body_too_long : Instr.wf (.getInfo .smbus 0 (List.replicate 4081 0)) = false := by decide +kernel
theorem test_wf_frame_too_long : Instr.wf (.frameReceive 0 (List.replicate 65536 0) true ⟨false, 0, 0, 0⟩) = false := by decide +kernel

/-! Words written out from the formats and code tables of chapter 09. -/

/-- ADD g1, g2, g3: major 0x00, rd 1, ra 2, rb 3, func 0x001 (Test of the ALU table). -/
theorem test_word_add : decodePol (0b00000000001000100001100000000001#32) = some (.alu .add 1 2 3) := by decide
/-- ADDI g0, g0, 0 as ORI: major 0x06, NOP of the assembler. -/
theorem test_word_ori : decodePol 0x18000000#32 = some (.imm .ori 0 0 0) := by decide
/-- SRAI g4, g5, 63: major 0x0A, code 2, sh 63. -/
theorem test_word_srai : decodePol (0b00101000100001010000000010111111#32) = some (.shift .srai 4 5 63) := by decide
/-- BNE g1, g2, −1: major 0x19. -/
theorem test_word_bne : decodePol (0b01100100001000101111111111111111#32) = some (.br .bne 1 2 0xFFFF#16) := by decide
/-- LD.W signed with acquire, g7, 8(g6): major 0x10, size 2, sx 1, acq 1, disp 8. -/
theorem test_word_load : decodePol (0b01000000111001101011000000001000#32) = some (.load .w true true 7 6 8) := by decide
/-- AMO.CAS g1, g2, g3 with order 3: major 0x12, aop 9. -/
theorem test_word_cas : decodePol (0b01001000001000101001000111100000#32) = some (.amo .cas .acqRel 1 2 3) := by decide
/-- SYSCALL 5: major 0x3F, xop 2. -/
theorem test_word_syscall : decodePol (0b11111100000000000010000000000101#32) = some (.syscall 5) := by decide
/-- CH.SEND g1, g2, 64: major 0x3F, xop 0xA. -/
theorem test_word_send : decodePol (0b11111100001000101010000001000000#32) = some (.chSend 1 2 64) := by decide
/-- CSUM.HW g7, g6, 20: major 0x3E, xop 4, as the worked example of chapter 09 spells it. -/
theorem test_word_csum : decodePol 0xF8E64014#32 = some (.csumHw 7 6 20) := by decide
/-- BFX g1, g2, 8, 16: major 0x3E, xop 8, width − 1 in [11:6]. -/
theorem test_word_bfx : decodePol (0b11111000001000101000001111001000#32) = some (.bf .bfx 1 2 8 15) := by decide
/-- The all-zero word is illegal (R216). -/
theorem test_word_zero : decodePol 0#32 = none := by decide
/-- FENCE kind 0 is illegal (R223). -/
theorem test_word_fence_zero : decodePol (0b11111100000000000101000000000000#32) = none := by decide
/-- An unused field that is not 0: ERET with ximm 1 (R216). -/
theorem test_word_eret_rsv : decodePol (0b11111100000000000100000000000001#32) = none := by decide
/-- A bit field that passes bit 63: pos 60, width 8 (R235). -/
theorem test_word_bfx_past : decodePol (0b11111000001000101000000111111100#32) = none := by decide

/-! A thread that runs: thread 0 in Galliard mode as system code at the start of firmware memory. -/

/-- Thread 0 with some registers, and what the thread is beyond them. -/
def runs (g : Tab W64) (f : Thread → Thread := id) (h : Blk → Blk := id) : State :=
  { blk := h { cores := { threads := [(0, f { st := .running, started := true, pc := BitVec.ofNat 64 fwBase, g := g })] } } }

theorem test_runs_issues : (runs []).blk.issues 0 := ⟨by decide, by decide, rfl⟩

/-- ADD wraps at 2^64 (ALU table). -/
theorem test_add_wraps :
    (match exec (.add 0 3 1 2) (runs [(1, BitVec.allOnes 64), (2, 2)]) with
      | .next t => t.blk.greg 0 3
      | _ => 0) = 1 := by decide +kernel
/-- DIV of −2^63 by −1 gives −2^63 (R219). -/
theorem test_div_overflow :
    (match exec (.div 0 3 1 2) (runs [(1, BitVec.ofNat 64 (2 ^ 63)), (2, BitVec.allOnes 64)]) with
      | .next t => t.blk.greg 0 3
      | _ => 0) = BitVec.ofNat 64 (2 ^ 63) := by decide +kernel
/-- REM by zero gives ra (R219). -/
theorem test_rem_zero :
    (match exec (.rem 0 3 1 2) (runs [(1, 7)]) with
      | .next t => t.blk.greg 0 3
      | _ => 0) = 7 := by decide +kernel
/-- A branch taken backward by one word (R218). -/
theorem test_branch_back :
    (match exec (.bne 0 1 2 (BitVec.allOnes 16)) (runs [(1, 7)]) with
      | .next t => (t.blk.thread 0).pc
      | _ => 0) = BitVec.ofNat 64 (fwBase - 4) := by decide +kernel
/-- CSUM.REG folds its carry: 0xFFFF + 2 gives 2 (R233). -/
theorem test_csum_carry :
    (match exec (.csumReg 0 3 1) (runs [(1, 2), (3, 0xFFFF)]) with
      | .next t => t.blk.greg 0 3
      | _ => 0) = 2 := by decide +kernel
/-- g0 is not written (R217). -/
theorem test_g0 :
    (match exec (.addi 0 0 1 5) (runs [(1, 2)]) with
      | .next t => t.blk.greg 0 0
      | _ => 1) = 0 := by decide +kernel
/-- A store and what it leaves at its first and last byte (R220). -/
theorem test_store_bytes :
    (match exec (.store 0 .w false 2 1 0) (runs [(1, 0x1000), (2, 0x0000000044332211)]) with
      | .next t => (t.blk.byte 0x1000, t.blk.byte 0x1003, t.blk.byte 0x1004)
      | _ => (0, 0, 0)) = (0x11, 0x44, 0) := by decide +kernel
/-- HW.ST is big-endian and extends the valid length (R231). -/
theorem test_window_store :
    (match exec (.hwSt 0 .h 2 1 3) (runs [(2, 0x1234)]) with
      | .next t => ((t.blk.thread 0).win.bytes.get 0 3, (t.blk.thread 0).win.bytes.get 0 4, (t.blk.thread 0).win.len)
      | _ => (0, 0, 0)) = (0x12, 0x34, 5) := by decide +kernel
/-- The empty queue lets the clocks count (R326). -/
theorem test_tick :
    (match step { blk := { clk := { on := true } } } with
      | .next t => (t.blk.clk.mono, t.blk.clk.tb)
      | _ => (0, 0)) = (1, 65536) := by decide +kernel

/-! States that meet the hypotheses of the statements about instructions, at boundary values. -/

/-- Service code with one region that it may execute, read and write. -/
def asService (x : Thread) : Thread :=
  let g : Region := {
    valid := true, r := true, w := true, x := true, base := BitVec.ofNat 52 (fwBase / 4096),
    limit := BitVec.ofNat 52 (fwBase / 4096) }
  { x with sr := { x.sr with priv := false, regions := [(0, g)] } }
/-- A handler in force. -/
def handled (x : Thread) : Thread := { x with sr := { x.sr with evecValid := true, evecBase := 0x40000 } }

theorem wit_IntegerInstructions : (runs [(1, BitVec.intMin 64), (2, BitVec.allOnes 64)]).blk.issues 0 ∧
    (runs [(1, BitVec.intMin 64), (2, BitVec.allOnes 64)]).blk.greg 0 1 = BitVec.intMin 64 ∧
    (runs [(1, BitVec.intMin 64), (2, BitVec.allOnes 64)]).blk.greg 0 2 = BitVec.allOnes 64 := by
  refine ⟨⟨?_, ?_⟩, ?_⟩ <;> decide +kernel

theorem wit_JumpsAndBranches : (runs [(1, 0x1004)]).blk.issues 0 ∧
    ((runs [(1, 0x1004)]).blk.greg 0 1 + (BitVec.allOnes 16 &&& 0xFFFC#16).signExtend 64).toNat % 4 = 0 := by
  refine ⟨⟨?_, ?_⟩, ?_⟩ <;> decide +kernel

theorem wit_FieldsAndHash : (runs []).blk.issues 0 ∧ (63 : Fin 64).val + ((0 : Fin 64).val + 1) ≤ 64 ∧
    64 < (63 : Fin 64).val + ((1 : Fin 64).val + 1) := by
  refine ⟨⟨?_, ?_⟩, ?_⟩ <;> decide +kernel

/-- The whole window valid. -/
def fullWindow (x : Thread) : Thread := { x with win := { len := 512 } }

theorem wit_SumsAndCrc : (runs [] fullWindow).blk.issues 0 ∧
    1 ≤ (512 : Fin 1024).val ∧ ((runs [] fullWindow).blk.greg 0 1).toNat % 512 + (512 : Fin 1024).val ≤
      ((runs [] fullWindow).blk.thread 0).win.len ∧ ((runs [] fullWindow).blk.thread 0).win.len ≤ 512 := by
  refine ⟨⟨?_, ?_⟩, ?_⟩ <;> decide +kernel

theorem wit_HeaderWindowAll : (runs [(1, 504)] fullWindow).blk.issues 0 ∧
    ((runs [(1, 504)] fullWindow).blk.greg 0 1 + 0).toNat + Sz.d.bytes ≤ ((runs [(1, 504)] fullWindow).blk.thread 0).win.len ∧
    ((runs [(1, 504)]).blk.greg 0 1 + 0).toNat + Sz.d.bytes ≤ 512 ∧
    (∀ k < (512 : Fin 1024).val, spaceOf (halfOfThread 0) (addr48 ((runs [(1, 0x1003)]).blk.greg 0 1 + BitVec.ofNat 64 k)) 1 =
      .mem (byteLoc 0 ((runs [(1, 0x1003)]).blk.greg 0 1 + BitVec.ofNat 64 k))) ∧
    (∀ k < (512 : Fin 1024).val, ((runs [(1, 0x1003)] fullWindow).blk.thread 0).allowed
      (addr48 ((runs [(1, 0x1003)]).blk.greg 0 1 + BitVec.ofNat 64 k)) 1 { r := true, w := true } = true ∧
      (runs [(1, 0x1003)]).blk.anyPoison (byteLoc 0 ((runs [(1, 0x1003)]).blk.greg 0 1 + BitVec.ofNat 64 k)) 1 = false) ∧
    (512 : Fin 1024).val ≤ ((runs [(1, 0x1003)] fullWindow).blk.thread 0).win.len := by
  refine ⟨⟨?_, ?_⟩, ?_⟩ <;> decide +kernel

theorem wit_LoadsAndStores : (runs [(1, BitVec.ofNat 64 (hbmSize - 8))]).blk.issues 0 ∧
    spaceOf (halfOfThread 0) (addr48 ((runs [(1, BitVec.ofNat 64 (hbmSize - 8))]).blk.greg 0 1 + (0#12).signExtend 64)) Sz.d.bytes =
      .mem (hbmSize - 8) ∧ (hbmSize - 8) % Sz.d.bytes = 0 ∧
    ((runs []).blk.thread 0).allowed (hbmSize - 8) 8 { r := true, w := true } = true ∧
    (runs []).blk.anyPoison (hbmSize - 8) 8 = false := by
  refine ⟨⟨?_, ?_⟩, ?_⟩ <;> decide +kernel

theorem wit_AtomicsFencesCache : (runs [(1, 0x1040)]).blk.issues 0 ∧ ((runs [(1, 0x1040)]).blk.thread 0).sr.priv = true ∧
    spaceOf (halfOfThread 0) (addr48 ((runs [(1, 0x1040)]).blk.greg 0 1)) 8 = .mem 0x1040 ∧
    spaceOf (halfOfThread 0) (addr48 ((runs [(1, 0x1040)]).blk.greg 0 1)) 1 = .mem 0x1040 ∧
    spaceOf (halfOfThread 0) (addr48 ((runs [(1, 0x1040)]).blk.greg 0 1)) 64 = .mem 0x1040 ∧ 0x1040 % 64 = 0 ∧
    ((runs []).blk.thread 0).allowed 0x1040 64 { r := true, w := true } = true ∧ (runs []).blk.anyPoison 0x1040 8 = false := by
  refine ⟨⟨?_, ?_⟩, ?_⟩ <;> decide +kernel

theorem wit_SystemRegisterAccess : (runs [] (fun x => asService (handled x))).blk.issues 0 ∧
    ((runs [] (fun x => asService (handled x))).blk.thread 0).sr.priv = false ∧
    ((runs [] (fun x => asService (handled x))).blk.thread 0).sr.exc = false ∧
    ((runs [] (fun x => asService (handled x))).blk.thread 0).sr.evecValid = true ∧
    (runs [] handled).blk.canIssueNow 0 = true ∧ ((runs [] handled).blk.thread 0).sr.priv = true := by
  refine ⟨⟨?_, ?_⟩, ?_⟩ <;> decide +kernel

theorem wit_SystemRegisterWrites : (runs []).blk.issues 0 ∧ ((runs []).blk.thread 0).sr.priv = true ∧
    (0x03E#12).toNat = 0x020 + 2 * 15 := by
  refine ⟨⟨?_, ?_⟩, ?_⟩ <;> decide +kernel

theorem wit_Exceptions_enter : (runs [(1, 0x1001)] (fun x => asService (handled x))).blk.issues 0 ∧
    ((runs [(1, 0x1001)] (fun x => asService (handled x))).blk.thread 0).attached = false ∧
    decodePol 0 = none ∧ addr48 ((runs [(1, 0x1001)] handled).blk.greg 0 1) % 8 ≠ 0 ∧
    spaceOf (halfOfThread 0) (addr48 (BitVec.ofNat 64 (2 ^ 47))) 8 = .none ∧
    ((runs [(1, 0x1001)] handled).blk.thread 0).win.len < ((runs [(1, 0x1001)] handled).blk.greg 0 1).toNat + Sz.b.bytes ∧
    ((runs [(1, 0x1001)] handled).blk.chan (0x1001 % 4096)).enable = false := by
  refine ⟨⟨?_, ?_⟩, ?_⟩ <;> decide +kernel

theorem wit_Exceptions_stop : (runs [(1, 0x1000)] id (fun b => { b with poison := [(0x200, true)] })).blk.issues 0 ∧
    ((runs []).blk.thread 0).sr.exc = false ∧ ((runs []).blk.thread 0).sr.evecValid = false ∧
    (runs [] (fun x => { x with sr := { x.sr with exc := true } })).blk.canIssueNow 0 = true ∧
    spaceOf (halfOfThread 0) 0x1000 8 = .mem 0x1000 ∧
    (runs [(1, 0x1000)] id (fun b => { b with poison := [(0x200, true)] })).blk.anyPoison 0x1000 8 = true := by
  refine ⟨⟨?_, ?_⟩, ?_⟩ <;> decide +kernel

/-- A SOFT event is latched. -/
def softEvent (x : Thread) : Thread := { x with wt := { x.wt with latched := BitVec.ofNat 58 (2 ^ 47) } }
/-- It waits, its timer armed on MONO and met. -/
def timedWait (x : Thread) : Thread := { x with st := .waiting, wt := { x.wt with armed := true, baseMono := true } }

theorem wit_ReturnHaltWait : (runs [] (fun x => { x with attached := true })).blk.issues 0 ∧
    ((runs []).blk.thread 0).pmc.enable = 0 ∧ (runs [(1, 1)]).blk.greg 0 1 ≠ 0 ∧
    (runs [(1, 1)]).blk.evPending 0 &&& (1 : BitVec 58).toNat = 0 ∧ (runs [] softEvent).blk.levels 0 = 0 ∧
    (runs [] softEvent).blk.evPending 0 &&& (BitVec.ofNat 58 (2 ^ 47)).toNat = 2 ^ 47 ∧
    ((runs [] timedWait).blk.thread 0).wt.tcmp.toNat ≤ (runs [] timedWait).blk.mono ∧
    (runs [] timedWait).blk.evPending 0 &&& ((runs [] timedWait).blk.thread 0).wt.evmask.toNat = 0 ∧
    ((runs [] timedWait).blk.thread 0).wt.resumed = false ∧ ((runs [] timedWait).blk.thread 0).wt.moved = false := by
  refine ⟨⟨?_, ?_⟩, ?_⟩ <;> decide +kernel

/-- Channel 5 of 32 credits, to thread 0 from any thread, with a message queued and one on its way. -/
def channel (b : Blk) : Blk := { b with cores := { b.cores with chans := [(5, {
  enable := true, creditsM1 := 31, queue := [{ words := [], len := 8, src := .west }], transit := [{ words := [], len := 64, src := .west }] })] } }
/-- The thread holds 30 credits of channel 5. -/
def holds30 (x : Thread) : Thread := { x with credits := [(5, 30)] }

theorem wit_ChannelOpen : (runs [(1, 5)] id channel).blk.issues 0 ∧ (runs [(1, 5)] id channel).blk.maySend 0 5 = true ∧
    (runs [(1, 5)] id channel).blk.freeCredits 5 = 30 ∧ ((runs [(1, 5)] id channel).blk.thread 0).credits = [] ∧
    (runs [(1, 5)] holds30 channel).blk.freeCredits 5 = 0 ∧ (runs [(1, 5)] holds30 channel).blk.maySend 0 5 = true ∧
    ((runs [(1, 5)] holds30 channel).blk.chan 5).registered = [] := by
  refine ⟨⟨?_, ?_⟩, ?_⟩ <;> decide +kernel

/-- A message of the East half on its way to thread 0, whose half works or was reset. -/
def crossing (down : Bool) : Blk := (runs [(1, 5)] holds30 (fun b =>
  let c := channel b
  { c with
    boot := { c.boot with state := if down then bsRecovery else bsEnabled, mpEast := 3, mpWest := if down then 0 else 3 }
    cores := { c.cores with chans := [(5, {
      enable := true, creditsM1 := 31, transit := [{ words := [], len := 64, src := .east }] })] } })).blk

theorem wit_ChannelMessages : (runs [(1, 5)] holds30 channel).blk.issues 0 ∧
    (runs [(1, 5)] holds30 channel).blk.maySend 0 5 = true ∧ 1 ≤ ((runs [(1, 5)] holds30 channel).blk.thread 0).credits.get 0 5 ∧
    (runs [(1, 5)] holds30 channel).blk.mayRecv 0 5 = true ∧
    ((runs [(1, 5)] holds30 channel).blk.chan 5).queue = [{ words := [], len := 8, src := .west }] ∧
    ((runs [(1, 5)] holds30 channel).blk.chan 5).transit = [{ words := [], len := 64, src := .west }] ∧
    halfOfThread ((runs [(1, 5)] holds30 channel).blk.chan 5).receiver.toNat = .west ∧
    (∀ b ∈ [crossing false, crossing true], (b.chan 5).transit = [{ words := [], len := 64, src := .east }] ∧
      halfOfThread (b.chan 5).receiver.toNat = .west ∧ (b.bridgeTo .west).retrain = none ∧ b.dataTurn .west = true) ∧
    ¬ ((crossing false).boot.state = bsRecovery ∧ (crossing false).mp .west = 0) ∧
    ((crossing true).boot.state = bsRecovery ∧ (crossing true).mp .west = 0) ∧
    ({ crossing false with brg := { toWest := { retrain := some 0 } } } : Blk).retrains = true := by
  refine ⟨⟨?_, ?_⟩, ?_⟩ <;> decide +kernel

/-- Thread 3 in a state. -/
def other (st : ThrSt) (byStop : Bool) (b : Blk) : Blk := { b with cores := { b.cores with
  threads := b.cores.threads ++ [(3, { st := st, byStop := byStop })] } }

theorem wit_ThreadControl : (runs [(1, 3)] id (other .stopped true)).blk.issues 0 ∧
    ((runs [(1, 3)] id (other .stopped true)).blk.thread 0).sr.priv = true ∧
    ((runs [(1, 3)] id (other .stopped true)).blk.greg 0 1).toNat % 512 = 3 ∧
    ((runs [(1, 3)] id (other .stopped true)).blk.thread 3).st = .stopped ∧
    ((runs [(1, 3)] id (other .stopped true)).blk.thread 3).byStop = true ∧
    ((runs [(1, 3)] id (other .stopped true)).blk.thread 3).wt.waitResume = false ∧
    ((runs [(1, 3)] id (other .running false)).blk.thread 3).st = .running ∧
    ((runs [(1, 3)] id (other .halted false)).blk.thread 3).st = .halted ∧
    ((runs [(1, 0)]).blk.greg 0 1).toNat % 512 = 0 := by
  refine ⟨⟨?_, ?_⟩, ?_⟩ <;> decide +kernel

theorem wit_ThreadBlockWrites : ((runs []).blk.thread 0).st ≠ .waiting ∧ ((runs []).blk.chan 4095).enable = false ∧
    (BitVec.ofNat 64 (2 ^ 9 + 255 * 2 ^ 10)).getLsbD 9 = true ∧
    (runs []).blk.halfCredits (halfOfThread 0) + ((BitVec.ofNat 64 (2 ^ 9 + 255 * 2 ^ 10)).extractLsb' 10 8).toNat + 1 ≤ 32768 ∧
    ((runs [] id channel).blk.chan 5).enable = true ∧ ((runs []).blk.fq .east).waitingRecs = [] ∧
    ((runs []).blk.thread ((runs []).blk.fq .east).sup.toNat).st ≠ .waiting ∧ ((runs []).blk.members 63).length < 64 := by
  decide +kernel

/-- Group 2 enabled, with thread 3 its one member, waiting with nothing that could end its wait, for 1 µs. -/
def blocked (b : Blk) : Blk := { b with clk := { b.clk with mono := 1000 }, cores := { b.cores with
  groups := [(2, { enable := true })],
  threads := b.cores.threads ++ [(3, { st := .waiting, group := 2, member := true })] } }

theorem wit_ModeAndDeadlock : ((runs []).blk.thread 0).sr.priv = true ∧ ((runs []).blk.core 0).pavane = !true ∧
    (let b := { (runs []).blk.updCore 7 (fun x => { x with switchTo := some true, switchAt := 7 }) with clk := { mono := 8 } }
     (b.core 7).switchTo = some true ∧ (b.core 7).switchAt < b.mono ∧ b.mono % 8 = 0) ∧
    ((runs [] id blocked).blk.group 2).enable = true ∧ ((runs [] id blocked).blk.group 2).raised = false ∧
    (runs [] id blocked).blk.deadlocked 2 = true ∧ (runs [] id blocked).blk.deadSince 2 + 1000 ≤ (runs [] id blocked).blk.mono ∧
    ((runs [] id blocked).blk.thread ((runs [] id blocked).blk.fq .west).sup.toNat).st ≠ .waiting := by
  decide +kernel

/-! The part in operation: port 0 up with both functions enabled, instance 1 bound to it and enabled, epoch 1 in force. -/

def openFn : Fn := { memEn := true, busMaster := true, ready := true, atomicReq := true }
/-- Port 0 as `p` leaves it. -/
def upPort : HostPort := { perst := false, linkUp := true, rom := true, width := 8, lanes := 8, f0 := openFn, f1 := openFn }
/-- A configuration with instance 1 at port 0. -/
def cfg1 : Cfg := { insts := [(1, { life := .enabled, grants := [(9, 1)], root := 0x1000 })] }
/-- The part in operation with a configuration, changed by `f`. -/
def works (c : Cfg := cfg1) (f : Blk → Blk := id) : Blk := f {
  clk := { on := true }, ports := [(0, upPort)], elec := { vin := true },
  mss := { powered := true }, boot := { state := 5, enable := true, mpWest := 7, mpEast := 7 },
  ctl := { newest := 1, cfg := c, live := [{ num := 1, cfg := c, seen := List.range 72, superseded := none, expired := false }] } }
/-- The part after start-up, before an image: BOOT_STATE is `st`. -/
def starts (st : BitVec 4) (f : Blk → Blk := id) : Blk := f {
  clk := { on := true }, ports := [(0, upPort), (1, upPort)], elec := { vin := true }, mss := { powered := true },
  boot := { state := st } }

theorem wit_works_sound : (works).sound := by refine ⟨?_, ?_, ?_⟩ <;> decide +kernel

theorem wit_RegisterAccessRules : (works).gate (.thread 0) .errRoute = .pass ∧ (works).gate (.thread 0) .mono = .pass ∧
    Reg.mono.wide = true ∧ Reg.errRoute.wide = true ∧ properAccess .mono 1 8 = false ∧ properAccess .mono 0 9 = false ∧
    (works).gate (.f0 0) .spdStatus = .pass ∧ (works).ownerPort = 0 ∧ (works).gate (.f0 0) (.ctlWqBase 0) = .pass := by
  decide +kernel

/-- A function of port 0 in function-level reset. -/
def inFlr (f1 : Bool) (b : Blk) : Blk := b.updPort 0 (fun p =>
  if f1 then { p with f1 := { p.f1 with flr := true } } else { p with f0 := { p.f0 with flr := true } })

theorem wit_PortResetsAndTraining : (works).mss.resetting = [] ∧ ((works).port 0).linkUp = true ∧
    ((works).port 0).f0.flr = false ∧ ((works).port 0).f1.flr = false ∧ (works).boundInsts 0 = [1] ∧
    ((works cfg1 (inFlr true)).port 0).f1.flr = true ∧ ((works cfg1 (inFlr false)).port 0).f0.flr = true ∧
    (works).ownerPort = 0 ∧ ((works).eng 0).st = .running ∧ ((works).port 15).perst = true ∧ (works).absent 15 = false ∧
    (works).mss.powered = true ∧ 15 ∉ (works).elec.refLost ∧ (8#6).toNat ∈ [1, 2, 4, 8, 16] ∧ (8#6).toNat ≤ (works).maxWidth 15 ∧
    (((works).updPort 0 (fun p => { p with linkUp := false })).port 0).perst = false := by
  decide +kernel

/-- F1 of port 0 with a message pending on its last vector, Function Mask 1. -/
def pends (b : Blk) : Blk := b.updPort 0 (fun p => { p with f1 := { p.f1 with
  msixEn := true, fnMask := true, pba := [(2047, true)], vecs := [(2047, { addr := 4, mask := false })] } })
/-- Instance 1 holds one bushel of device memory. -/
def bushel (b : Blk) : Blk := b.updInst 1 (fun d => { d with blocks := [0] })

theorem wit_HostAccesses : (works {}).boundInsts 0 = [] ∧ (works).rmt.incs = [] ∧ ((works).port 0).f1.pba = [] ∧
    ((works).port 1).f1.pba = [] ∧ ((works).port 1).linkUp = false ∧
    ((works cfg1 pends).port 0).f1.pba = [(2047, true)] ∧ ((works cfg1 pends).port 0).f1.msixEn = true ∧
    ((works cfg1 pends).port 0).f1.inta = false ∧ (works cfg1 pends).canIssue 0 true = true ∧
    ((works cfg1 pends).port 0).f1.fnMask = true ∧
    (let b := works cfg1 (fun b => b.updPort 0 (fun p => { p with f1 := { p.f1 with inta := true } }));
      (b.port 0).f1.inta = true ∧ (b.port 0).linkUp = true ∧ (b.port 0).f1.flr = false) ∧
    (works).intSource 0 true = false ∧ ((works).fn 0 true).inta = false ∧
    ({ works with ports := [(0, { upPort with f1 := { openFn with flr := true } })] } : Blk).memOpen 0 true = false ∧
    (works cfg1 bushel).poison = [] ∧
    (Tab.get ({} : MsiVec) ((works cfg1 pends).port 0).f1.vecs 2047).mask = false ∧
    (Tab.get ({} : MsiVec) ((works cfg1 pends).port 0).f1.vecs 2047).addr.toNat % 4 = 0 ∧
    (works).memOpen 0 true = true ∧ (works).memOpen 0 false = true ∧ ((works).fn 1 true).memEn = false ∧
    (works).boundTo 2 0 = false ∧ (works).boundTo 1 0 = true ∧ 2097151 + 1 ≤ (works cfg1 bushel).apertureLen 1 ∧
    (works cfg1 bushel).devLoc 1 2097151 = some (devmemPool .west + 2097151) := by
  decide +kernel

theorem wit_LoadWindowAndLinkPower : (starts 0).memOpen 0 false = true ∧ (starts 0).loadFault 0 = none ∧
    ((starts 0).bport 0).verifying = false ∧ (starts 0).activating 0 = false ∧ (starts 0).loading = true ∧
    268435454 + 1 < 268435456 ∧ (1#12) ≠ ((works).inst 1).gen ∧ (0#12) = ((works).inst 1).gen ∧
    (starts 8).loadFault 0 = some 0x0515 ∧ (starts 8).memOpen 0 false = true ∧ (works).loadFault 1 = some 0x0510 ∧
    (let b := (works).updPort 0 (fun p => { p with l1En := true, l12En := true, l12Value := 3, l12Scale := 2, ltr := some 100 })
     (b.port 0).linkUp = true ∧ b.pm.get .l0 0 = .l0 ∧ (b.port 0).l1En = true ∧ ((b.port 0).f0.d3 && (b.port 0).f1.d3) = false ∧
       (b.port 0).l12En = true ∧ (b.port 0).ltr = some 100 ∧ (b.port 0).l12Value.toNat * 32 ^ (b.port 0).l12Scale.toNat ≤ 100 * 1000) ∧
    (let b := (works).updPort 0 (fun p => { p with
        l1En := true, pl11En := true, f0 := { p.f0 with d3 := true }, f1 := { p.f1 with d3 := true } })
     ((b.port 0).f0.d3 && (b.port 0).f1.d3) = true ∧ (b.port 0).pl11En = true) ∧
    ({ works with pm := [(0, .l1)] } : Blk).pm.get .l0 0 ≠ .l0 ∧
    (let p := ((works).updPort 0 (fun p => { p with l0pEn := true, flit := true, lanes := 4 })).port 0
     p.linkUp = true ∧ p.l0pEn = true ∧ p.flit = true ∧ 4 ≤ p.lanes.toNat) ∧
    (let b := { (works).updPort 0 (fun p => { p with ltrEn := true }) with clk := { on := true, mono := 1000000 } }
     (b.port 0).ltrEn = true ∧ (b.port 0).linkUp = true ∧ b.portBusy 0 = false ∧ (b.port 0).busyAt + 1000000 ≤ b.mono ∧
       (b.port 0).ltr ≠ some 100) ∧
    (let b := (works).updPort 0 (fun p => { p with ltrEn := true, ctlWq := { pi := 1 } })
     (b.port 0).ltrEn = true ∧ b.portBusy 0 = true ∧ (b.port 0).ltr ≠ some 2) := by
  decide +kernel

/-- An image of one section of two bytes at the start of firmware memory. -/
def image1 : Image := {
  version := 1, secVersion := 1, entry := fwBase, migrate := fwBase + 64, live := true, digest := [], sections := [(fwBase, [1, 2])] }
theorem wit_ImageLoading : (starts 0).memOpen 0 false = true ∧ (starts 0).loading = true ∧
    ((starts 0).bport 0).verifying = false ∧ (starts 0).loaderAllowed 0 = true ∧ (starts 0).boot.verifyLine = [] ∧
    (starts 0).loaderAllowed 1 = false ∧ (starts 0).memOpen 1 false = true ∧ (starts 0).activating 0 = false ∧
    (let b := (starts 1).setBoot (fun o => { o with verifyLine := [0] })
     b.boot.verifyLine = [0] ∧ b.loading = true ∧ (b.bport 0).rst = false ∧ b.boot.retained = none) ∧
    (starts 2).starting = true ∧ (starts 2).loaderAllowed 0 = true ∧ (starts 5).starting = false ∧
    (starts 6).boot.state = 6 ∧ 0 = (starts 6).ownerPort ∧ (starts 8).loadFault 0 = some 0x0515 ∧ (starts 0).loadFault 1 = some 0x0510 ∧
    ((starts 1).setBoot (fun o => { o with retained := some (image1, none) })).boot.retained = some (image1, none) ∧
    ((starts 1).setBoot (fun o => { o with retained := some (image1, some 0x0112) })).boot.retained =
      some (image1, some 0x0112) := by
  decide +kernel

theorem wit_TrainingAndEnable : (starts 2).boot.state = 2 ∧ (starts 2).boot.trainFailed = false ∧
    (starts 2).boot.jigFailed = [] ∧ ((starts 2).spareFor (.core 63)).isSome = true ∧
    ({ starts 2 with rel := { sparesUsed := [(1, 99)] } } : Blk).boot.state = 2 ∧
    (({ starts 2 with rel := { sparesUsed := [(1, 99)] } } : Blk).spareFor (.core 63)).isSome = false ∧
    ((starts 2).setBoot (fun o => { o with jigFailed := [.core 63] })).boot.jigFailed ≠ [] ∧
    (starts 3).memOpen 1 false = true ∧ 1 ≠ (starts 3).ownerPort ∧ 0 = (starts 3).ownerPort ∧
    (starts 3).memOpen 0 false = true ∧ (starts 3).boot.enable = false ∧ (starts 3).keys.alarm = false := by
  decide +kernel

/-- A live activation in a phase, with threads moved. -/
def activates (phase : Nat) (moved : List Nat) (b : Blk) : Blk := b.setBoot (fun o => { o with
  state := 6, act := some { port := 0, phase := phase, moved := moved, image := image1 } })

theorem wit_LiveActivation : (works).memOpen 0 false = true ∧ 0 = (works).ownerPort ∧
    ((works).setBoot (fun o => { o with staged := some image1 })).boot.staged = some image1 ∧
    ((works cfg1 (activates 0 [])).boot.act.map (·.phase)) = some 0 ∧ image1.sections = [(fwBase, [1, 2])] ∧
    fwBase + 2 ≤ fwBase + fwSize ∧ 511 / 256 = Half.east.code ∧ 511 ≠ ((works).fq .east).sup.toNat ∧
    (∀ v < 511, v / 256 = Half.east.code → v ∈ List.range' 257 254 ∨ v = ((works).fq .east).sup.toNat) ∧
    (List.range' 257 254).length < 511 ∧ 511 ∉ List.range' 257 254 ∧
    (works cfg1 (activates 3 [])).boot.heldReset = [] ∧ (works cfg1 (activates 3 [])).mss.resetting = [] := by
  decide +kernel

theorem wit_PowerUpAndJig : State.reset.blk.elec.vin = false ∧ State.reset.blk.mss.fw.active = false ∧
    State.reset.blk.mss.fw.validA = true ∧ State.reset.blk.mss.fw.trialNext = false ∧
    ({ mss := { fw := { validA := false, validB := false } } } : Blk).mss.fw.validB = false ∧
    (let b := (starts 0).setBoot (fun o => { o with jig := true })
     b.boot.jig = true ∧ b.mss.powered = true ∧ b.boot.state ≠ 8) ∧
    State.reset.blk.boot.jig = false ∧ ((starts 8).spareFor (.core 0)).isSome = true ∧
    jigFails [] [] [] = [] ∧ jigFails [0] [] [] = [.core 0] ∧ jigFails [] [(2, 3)] [] = [.inlineUnit 2 3] ∧
    jigCode .arrays ∈ ((starts 8).setBoot (fun o => { o with jigLeft := List.range 8 })).boot.jigLeft := by
  decide +kernel

/-- Instance 1 with WQ 3 (PKT_SEND) and CQ 3, both enabled, of 16 entries, EQ 7. -/
def cfgQ : Cfg := {
  insts := cfg1.insts, wqs := [(67, { life := .enabled, kind := 2, log2 := 4, cq := 3 })],
  cqs := [(67, { life := .enabled, log2 := 4 })], eqs := [(15, { life := .enabled, log2 := 5 })] }
/-- Its scan has come to WQ 3, where one entry stands ready. -/
def scanned (b : Blk) : Blk :=
  { b with wqs := [(67, { pi := 1 })], scans := [(17, { active := true, turn := [3] })] }

theorem wit_DoorbellAndFetch : (works cfgQ).memOpen 0 true = true ∧ (works cfgQ).boundTo 1 0 = true ∧
    ((works cfgQ).cfg.inst 1).life = .enabled ∧ (works cfgQ).serving ((works cfgQ).homeOf 1) = true ∧
    (let b := (works cfgQ).updPort 0 (fun p => { p with ctlWqEn := true })
     (b.scan 0).active = false ∧ b.wqState (.ctl 0) = 1 ∧ b.memOpen 0 false = true) ∧
    (let b := works { cfg1 with wqs := [(64, { life := .enabled, kind := 1, log2 := 4, cq := 3 })],
                                cqs := [(67, { life := .enabled, log2 := 4 })] } (fun b => { b with
        wqs := [(64, { pi := 1 })], scans := [(17, { active := true, turn := [0] })] })
     (b.scan 17).active = true ∧ (b.scan 17).turn.head? = some 0 ∧ b.wqState (.inst 1 0) = 1 ∧ (b.ctlq 17).arrived = none ∧
       (∀ x ∈ b.ctl.line, x.queue ≠ 17) ∧ (b.wq 1 0).pi ≠ (b.wq 1 0).ci ∧ b.cqSlotFree (.inst 1 ((b.cfg.wq 1 0).cq.toNat)) = true) ∧
    (let b := { works with scans := [(0, { active := true, turn := [0] })], ports := [(0, { upPort with
        ctlWqEn := true, ctlCqEn := true, ctlWqLog2 := 4, ctlCqLog2 := 4, ctlWq := { pi := 1, st := .ready } })] }
     (b.scan 0).active = true ∧ (b.scan 0).turn.head? = some 0 ∧ b.wqState (.ctl 0) = 1 ∧ b.atPoint .west 2 = true ∧
       ((b.port 0).ctlWq.pi - (b.port 0).ctlWq.ci).toNat ≤ 2 ^ (b.port 0).ctlWqLog2.toNat ∧
       (b.port 0).ctlWq.pi ≠ (b.port 0).ctlWq.ci ∧ (b.port 0).ctlCqEn = true ∧ b.cqSlotFree (.ctl 0) = true ∧
       b.canIssue 0 false = true ∧ (b.ctlq 0).arrived = none ∧ b.ctl.line = []) ∧
    (works).mss.fw.up = true ∧ (works).cqSlotFree .mss = true ∧ ((works).ctlq mssKey).arrived = none ∧
    (let b := works cfgQ scanned
     (b.cfg.inst 1).life = .enabled ∧ b.serving (b.homeOf 1) = true ∧ (b.cfg.inst 1).root ≠ 0 ∧
       (b.cfg.wq 1 3).base.toNat + (b.wq 1 3).ci.toNat % b.wqSize (.inst 1 3) * 64 < 2 ^ 48 ∧
     (b.scan 17).active = true ∧ (b.scan 17).turn.head? = some 3 ∧ b.wqState (.inst 1 3) = 1 ∧
       (b.inst 1).detached = false ∧ ((b.wq 1 3).pi - (b.wq 1 3).ci).toNat ≤ b.wqSize (.inst 1 3) ∧
       (b.wq 1 3).pi ≠ (b.wq 1 3).ci ∧ b.cqSlotFree (.inst 1 ((b.cfg.wq 1 3).cq.toNat)) = true ∧
       b.canIssue (b.cfg.inst 1).port.toNat true = true) ∧
    fmtCheck 2 (entOf (List.replicate 64 0xFF)) ≠ none := by
  decide +kernel

/-- WQ 3 with an entry at its front whose fence is set. -/
def fenced (b : Blk) : Blk := { b with wqs := [(67, {
  pi := 1, ci := 1, fetched := [{ idx := 0, raw := BitVec.ofNat 512 0x200, epoch := 1, gen := 0 }] })] }

theorem wit_QueueIndices : (16#16 - ((works cfgQ).wq 1 3).ci).toNat ≤ (works cfgQ).wqSize (.inst 1 3) ∧
    (works cfgQ).wqSize (.inst 1 3) < (17#16 - ((works cfgQ).wq 1 3).ci).toNat ∧ (works cfgQ).wqEnabled (.inst 1 3) = true ∧
    ((works cfgQ).wq 1 3).st ≠ .error ∧ (((works cfgQ).cq 1 3).pi - 0xFFF0#16).toNat ≤ (works cfgQ).cqSize (.inst 1 3) ∧
    ((works cfgQ).cq 1 3).held = [] ∧ (works cfgQ).rmt.incs = [] ∧
    (works cfgQ).cqSize (.inst 1 3) < (((works cfgQ).cq 1 3).pi - 0xFFEF#16).toNat ∧
    (works cfgQ).eqSize (.inst 1 7) < (((works cfgQ).eq 1 7).pi - 0xFFDF#16).toNat ∧
    (((works cfgQ).eq 1 7).pi - 0xFFE0#16).toNat ≤ (works cfgQ).eqSize (.inst 1 7) ∧ ((works cfgQ).eq 1 7).srcs = [] ∧
    (let b := works cfgQ (fun b => { b with wqs := [(67, { st := .cqWait })] })
     b.wqEnabled (.inst 1 3) = true ∧ (b.wq 1 3).st = .cqWait ∧ b.cqSlotFree (b.wqCq (.inst 1 3)) = true) ∧
    (let b := works cfgQ (fun b => { b with wqs := [(67, { st := .bmeOff })] })
     (b.wq 1 3).st = .bmeOff ∧ b.wqCanIssue (.inst 1 3) = true) ∧
    ((works cfgQ).cq 1 3).mfault = false ∧ ((works cfgQ).cq 1 3).mirrorHeld = false ∧ ((works cfgQ).cq 1 3).pi ≠ 0xFFF0#16 ∧
    ((works cfgQ).cfg.eq 1 7).life ≠ .absent ∧ ((works cfgQ).eq 1 7).xfault = false ∧ ((works cfgQ).eq 1 7).mfault = false ∧
    (((works cfgQ fenced).wq 1 3).fetched.head?.map (fun x => (x.st, x.lifted, weFence x.raw))) = some (.fetched, false, true) ∧
    ((works cfgQ).cfg.cq 1 3).life ≠ .absent ∧ ((works cfgQ).cq 1 3).xfault = false ∧
    (((works cfgQ).updInst 1 (fun d => { d with faultReported := true })).inst 1).faultReported = true := by
  decide +kernel

theorem wit_QueueControls : (works).memOpen 0 false = true ∧ (9#32).getLsbD 0 = true ∧ 4 ≤ (9#32).toNat / 2 % 16 ∧
    ((works).port 0).ctlWqEn = false ∧ ((works).port 0).ctlCqEn = false ∧ ((works).port 0).ctlCq.held = [] ∧
    ((works).port 0).ctlCq.mirrorHeld = false ∧ 5 ≤ (11#32).toNat / 2 % 16 ∧ ((works).port 0).eqEn = false ∧
    ((works).port 0).eq.srcs = [] ∧ (7#32).toNat / 2 % 16 < 4 ∧ ((works).port 0).f0.inta = false ∧ ((works).port 0).f0.flr = false ∧
    (let b := (works).updPort 0 (fun p => { p with f0 := { p.f0 with inta := true } })
     (b.port 0).f0.inta = true ∧ (b.port 0).linkUp = true) ∧
    (let b := (works).updPort 0 (fun p => { p with ctlCqEn := true, ctlWqEn := true, ctlWq := { st := .ready } })
     (b.port 0).ctlCqEn = true ∧ (b.port 0).ctlWqEn = true ∧ (b.port 0).ctlWq.st = .ready) ∧
    (((works).updPort 0 (fun p => { p with eqEn := true })).port 0).eqEn = true ∧
    (((works).updPort 0 (fun p => { p with ctlWqEn := true })).port 0).ctlWqEn = true ∧ (8#32).getLsbD 0 = false := by
  decide +kernel

/-! Control programs: instructions as 64-byte numbers, a value at a byte offset. -/

def entry (l : List (Nat × Nat)) : W512 := BitVec.ofNat 512 (l.foldl (fun a x => a + x.2 * 256 ^ x.1) 0)
/-- An instruction of version 1 with the seq 1. -/
def instr (opcode : Nat) (l : List (Nat × Nat)) : W512 := entry ([(0, opcode), (2, 1), (4, 1)] ++ l)
/-- An open program of the owner with nothing staged. -/
def opened : Prog := {
  issuer := .owner, idx := 0, tag := 0, resultAddr := 0, resultLen := 0, expect := none, beginEpoch := 1, beginCfg := cfg1,
  lastSeq := 0, bytes := 0, refused := none, staged := [], records := [], lastFetch := 0 }
/-- CTL queue 0 with what it holds. -/
def ctlHolds (e : Option W512) (p : Option Prog) (ended : List Ended) (b : Blk) : Blk :=
  b.updCtlq 0 (fun c => { c with arrived := e.map (fun x => (0, x, [], 0)), prog := p, ended := ended })
/-- The line of commits holds one program, due, that carries one instruction. -/
def due (x : CInstr) (b : Blk) : Blk := { b with ctl := { b.ctl with line := [{
  queue := 0, prog := { opened with staged := [x] }, seq := 2, noWait := false, checked := true, since := 0,
  unreported := false }] } }

/-- The hypothesis that the statements about commits share is met with any instruction. -/
theorem wit_commitDue (x : CInstr) : (works cfg1 (due x)).commitDue x := by
  refine ⟨_, rfl, rfl, rfl, rfl, ?_, rfl⟩
  have h : ∀ n, ((works cfg1 (due x)).slot n).old = none := fun _ => rfl
  simp only [Blk.mustWait, Blk.keyWaits, h]
  simp [works, due, opened]

theorem wit_ProgramStaging : (let b := works cfg1 (ctlHolds (some (instr 0x0310 [(16, 4791)])) (some opened) []);
    (b.ctlq 0).arrived = some (0, instr 0x0310 [(16, 4791)], [], 0) ∧ (b.ctlq 0).prog = some opened) ∧ opened.refused = none ∧
    ciOp (instr 0x0310 [(16, 4791)]) = some .rmtConfig ∧
    stageFaults (works) opened (instr 0x0310 [(16, 4791)]) [] 0 = none ∧
    stageFaults (works) opened (instr 0x0310 [(18, 1)]) [] 0 ≠ none := by
  decide +kernel

/-- A program that has ended, refused. -/
def endedOne : Ended := {
  idx := 0, tag := 0, outcome := 2, status := 0x0450, badIndex := 0, epoch := 1, waited := false, waitUs := 0,
  resultAddr := 0, resultLen := 0, records := [], sums := [], drains := [], fenceRetire := false, fenceXlate := false,
  since := 0, unreported := false }

theorem wit_ProgramEnds : (let b := works cfg1 (ctlHolds (some (entry [(0, 0x0F00), (2, 1)])) none []);
      (b.ctlq 0).arrived = some (0, entry [(0, 0x0F00), (2, 1)], [], 0) ∧ (b.ctlq 0).prog = none) ∧
    ciOp (entry [(0, 0x0F00), (2, 1)]) = some .begin_ ∧ ciSeq (entry [(0, 0x0F00), (2, 1)]) = 0 ∧
    formFaults (entry [(0, 0x0F00), (2, 1)]) 0 = none ∧ ent (entry [(0, 0x0F00), (2, 1)]) 16 8 % 64 = 0 ∧
    ciOp (instr 0x0F01 []) = some .commit ∧ ciOp (instr 0x0F02 []) = some .abort ∧
    (let b := works cfg1 (ctlHolds (some (instr 0x0F01 [])) (some opened) []);
      (b.ctlq 0).prog = some opened ∧
      stageFaults ((b.updCtlq 0 (fun c => { c with arrived := none })).stagedView opened) opened (instr 0x0F01 []) [] 0 = none ∧
      stageFaults ((b.updCtlq 0 (fun c => { c with arrived := none })).stagedView opened) opened (instr 0x0F02 []) [] 0 = none ∧
      b.boot.enable = true ∧ b.issuerOf 0 = opened.issuer ∧ opened.expect = none ∧ b.ctl.line = [] ∧ b.ctl.live.length < 4 ∧
      b.rmt.incs = []) ∧
    (let b := (works).setBoot (fun o => { o with state := 4, mpWest := 3, mpEast := 3 });
      b.boot.state = 4 ∧ b.atPoint .west 2 = true ∧ b.atPoint .east 2 = true) ∧
    (let b := { works cfg1 (ctlHolds none (some opened) []) with clk := { mono := 10000000000 } };
      (b.ctlq 0).arrived = none ∧ (b.ctlq 0).prog = some opened ∧ opened.lastFetch + 10000000000 ≤ b.mono) ∧
    (let b := (works cfg1 (ctlHolds none none [endedOne])).updPort 0 (fun p => { p with ctlCqEn := true });
      (b.ctlq 0).ended = [endedOne] ∧ (b.port 0).ctlCqEn = true ∧ b.canIssue 0 false = true ∧ (b.port 0).ctlMirrorEn = false ∧
      (b.port 0).ctlCq.held = [] ∧ (b.port 0).ctlCq.armed = false ∧ b.cqFull (.ctl 0) = false ∧ b.ctl.newest < 2 ^ 64) := by
  decide +kernel

/-- A line of commits of one program, and of four live epochs. -/
def lineOf (p : Prog) (b : Blk) : Blk := { b with ctl := { b.ctl with line := [{
  queue := 0, prog := p, seq := 2, noWait := false, checked := true, since := 0, unreported := false }] } }
def epochs4 (b : Blk) : Blk := { b with ctl := { b.ctl with live := (List.range 4).map (fun k =>
  { num := k + 1, cfg := cfg1, seen := [], superseded := none, expired := false }) } }

theorem wit_ProgramEnds_line :
    (let b := works cfg1 (fun b => lineOf opened (ctlHolds (some (instr 0x0F01 [])) (some opened) [] b));
      (b.ctlq 0).arrived = some (0, instr 0x0F01 [], [], 0) ∧ (b.ctlq 0).prog = some opened ∧ b.ctl.line ≠ [] ∧
      stageFaults ((b.updCtlq 0 (fun c => { c with arrived := none })).stagedView opened) opened (instr 0x0F01 []) [] 0 = none) ∧
    (works cfg1 (fun b => lineOf opened (epochs4 b))).mustWait opened = true ∧
    (works cfg1 (lineOf opened)).mustWait opened = false ∧
    ({ opened with refused := some (0x0120, 3) } : Prog).refused = some (0x0120, 3) ∧
    (works).endReady endedOne = true ∧ (works).ctlWrites 0 endedOne = true ∧
    (works).endReady { endedOne with outcome := 0, epoch := 1 } = true ∧
    (works cfg1 epochs4).endReady { endedOne with outcome := 0, epoch := 4 } = false ∧
    ((works).updPort 0 (fun p => { p with f0 := {} })).ctlWrites 0 { endedOne with records := [[0]] } = false ∧
    ciOp (entry [(0, 0x0310), (2, 1)]) ≠ some .begin_ := by
  decide +kernel

/-- WQ 3 of instance 1 in state CREATED. -/
theorem wit_CommitObjects : (∀ k ∈ [1, 5, 6, 7], ciOp (instr 0x0100 [(16, k), (18, 1), (20, 65535)]) = some .create ∧
      ciKind (instr 0x0100 [(16, k), (18, 1), (20, 65535)]) = k ∧ ciId (instr 0x0100 [(16, k), (18, 1), (20, 65535)]) < 65536) ∧
    (∀ k ∈ [2, 3], ciOp (instr 0x0600 [(16, k), (18, 1), (20, 63)]) = some .qCreate ∧
      ciKind (instr 0x0600 [(16, k), (18, 1), (20, 63)]) = k) ∧
    ciObj .enable (instr 0x0101 [(16, 1), (18, 1)]) = some (.inst 1) ∧ cfg1.life (.inst 1) ≠ .absent ∧
    (∀ x ∈ [(0x0101, COp.enable), (0x0102, .disable), (0x0103, .destroy), (0x0601, .qEnable), (0x0602, .qDisable),
      (0x0603, .qDestroy), (0x0604, .qReset)], ciOp (instr x.1 [(16, 2), (18, 1), (20, 3)]) = some x.2) ∧
    ciObj .destroy (instr 0x0103 [(16, 1), (18, 1)]) = some (.inst 1) ∧
    ((({ cfg1 with wqs := [(127, { life := .created })] } : Cfg).wq 1 63).life = .created) ∧
    ciId (instr 0x0604 [(16, 2), (18, 1), (20, 3)]) ≠ 0 := by
  decide +kernel

/-- The other instructions, and operands that their clauses ask for. The PIPE.LOAD clause asks for an image that its load
rules accept: 4,288 bytes, one parse state and one action of zeros, with the CRC32C 0x0D56B425 of the header, are one. -/
theorem wit_CommitTablesAndSettings : bitOf (ent (instr 0x0210 [(28, 1)]) 28 1) 0 = true ∧
    (∀ x ∈ [(0x0210, COp.pipeLoad), (0x0200, .tblInsert), (0x0202, .tblModify), (0x0201, .tblDelete), (0x0F03, .fence),
      (0x0700, .query), (0x0203, .tblQuery), (0x0701, .summary), (0x0104, .invalidate), (0x0310, .rmtConfig), (0x0300, .qpConnect),
      (0x0301, .qpTune), (0x0302, .winModify), (0x0401, .keyBind), (0x0610, .instResize), (0x0611, .instAttach),
      (0x0612, .dirtyLog), (0x0620, .poolSet), (0x0630, .powerCap)], ciOp (instr x.1 []) = some x.2) ∧
    ciPipes (instr 0x0200 [(16, 0x80)]) = [7] ∧ cfg1.kindOf 7 (tbTable (instr 0x0200 [(16, 0x80)])) = 1 ∧
    bitOf (ent (instr 0x0104 [(24, 3)]) 24 1) 0 = true ∧ bitOf (ent (instr 0x0104 [(24, 3)]) 24 1) 1 = true ∧
    ciId (instr 0x0302 [(16, 6), (20, 65535)]) < 65536 ∧ rzPairs (instr 0x0610 [(20, 1), (24, 9), (25, 2)]) = [(9, 2)] ∧
    bitOf (ent (instr 0x0612 [(18, 1)]) 18 1) 0 = true ∧ ent (instr 0x0620 [(17, 15)]) 17 1 < 16 := by
  decide +kernel

theorem wit_CommitUnits : (∀ x ∈ [(0x0400, COp.keyImport), (0x0402, .keyRetire), (0x0500, .timeStep), (0x0501, .timeServo),
      (0x0502, .timeSource), (0x0640, .slotControl)], ciOp (instr x.1 []) = some x.2) ∧
    ((works).updSlot 65535 (fun s => { s with next := some { material := [], limit := 1, counter := 0 } })).slot 65535 =
      { next := some { material := [], limit := 1, counter := 0 } } ∧
    bitOf (ent (instr 0x0402 []) 18 1) 0 = false ∧ bitOf (ent (instr 0x0402 [(18, 1)]) 18 1) 0 = true ∧
    bitOf (ent (instr 0x0501 [(18, 2)]) 18 1) 1 = true ∧ ent (instr 0x0502 [(16, 1)]) 16 1 = 1 ∧
    ent (instr 0x0640 [(17, 2)]) 17 1 % 4 = 2 ∧ bitOf (ent (instr 0x0640 [(17, 2)]) 20 1) 0 = false ∧
    ((works).dsport 7).dllActive = false := by
  decide +kernel

/-- Two live epochs: 1, superseded at MONO 0, and 2, which is everywhere. -/
def epochs2 (b : Blk) : Blk := { b with clk := { b.clk with mono := 100000000 }, ctl := { b.ctl with
  newest := 2, live := [{ num := 1, cfg := cfg1, seen := [], superseded := some 0, expired := false },
                        { num := 2, cfg := cfg1, seen := List.range 72, superseded := none, expired := false }] } }
/-- The West half was reset and is to rejoin. -/
def westDown (b : Blk) : Blk := b.setBoot (fun o => { o with state := 7, before := 5, mpWest := 0, image := some image1 })

theorem wit_Epochs : (∃ y ∈ (works cfg1 epochs2).ctl.live, y.num = (2#64).toNat) ∧
    (works cfg1 epochs2).ctl.live.map (·.num) = [1, 2] ∧ (∃ y ∈ (works cfg1 epochs2).ctl.live.tail, y.everywhere = true) ∧
    (works cfg1 epochs2).epochBusy 1 = false ∧ ((works cfg1 epochs2).expiring.map (·.num)) = some 1 ∧
    (∀ y ∈ (works cfg1 epochs2).ctl.live, (y.num ≤ (2#64).toNat → 0 ∈ y.seen ∨ y.src = .west ∨
      ((works cfg1 epochs2).bridgeTo .west).retrain = none)) ∧
    (let b : Blk := { works cfg1 (fun b => { b with ctl := { b.ctl with live := b.ctl.live.map (fun y => { y with src := .east, seen := [] }) } }) with
        brg := { toWest := { retrain := some 0 } } };
      ∃ y ∈ b.ctl.live, y.num ≤ (1#64).toNat ∧ 0 ∉ y.seen ∧ y.src ≠ .west ∧ (b.bridgeTo .west).retrain ≠ none) ∧
    (let b := works cfg1 westDown;
      b.mss.fw.imageMinSec ≤ image1.secVersion ∧
      (∀ c ∈ image1.sections, b.anyPoison (fwLoc Half.west.other c.1) c.2.length = false) ∧
      image1.secVersion < (works cfg1 (fun b => westDown { b with mss := { b.mss with fw := { b.mss.fw with
        imageMinSec := 2 } } })).mss.fw.imageMinSec) ∧
    (let b := works cfg1 westDown;
      b.boot.state = 7 ∧ b.mp .west = 0 ∧ b.mp .east ≠ 0 ∧ Half.west.code ∉ b.boot.shutOut ∧ b.boot.image = some image1) ∧
    (let b := works cfg1 (activates 2 []);
      b.boot.act.map (·.phase) = some 2 ∧ b.ctl.line = [] ∧ b.ctl.live.length < 4) := by
  decide +kernel

/-- A walk of instance 1 under way at a level. -/
def walkAt (level : Nat) : Walk := {
  inst := 1, gen := 0, va := 0x1000, read := true, write := false, root := 0x1000, level := level, table := 0, permR := true,
  permW := true, cache := true }
def walking (level : Nat) (b : Blk) : Blk := { b with insts := { b.insts with walks := [walkAt level] } }

theorem wit_Translation : (works cfg1 (walking 3)).insts.walks = [walkAt 3] ∧ (walkAt 3).gen = ((works).inst 1).gen ∧
    (0x2005 : Nat) / 16 % 256 = 0 ∧ (0x2005 : Nat) / 2 ^ 52 = 0 ∧ (0x2005#64).getLsbD 0 = true ∧ (0x2005#64).getLsbD 1 = false ∧
    (0x2004#64).getLsbD 0 = false ∧ (0x200007#64).getLsbD 1 = true ∧
    (0x40000007#64).toNat / 4096 % 2 ^ 40 * 4096 % 2 ^ (12 + 9 * 2) = 0 ∧ (0x40000007#64).getLsbD 2 = true ∧
    (works cfg1 (walking 2)).insts.cache ((works).homeOf 1) = [] ∧ (works).xReserved ((works).homeOf 1) < 32768 ∧
    (works).insts.walks = [] ∧ ((works).cfg.inst 1).root.toNat ≠ 0 ∧ (0xFFFFFFFFF000#64).toNat < 2 ^ 48 ∧
    (works).canIssue ((works).cfg.inst 1).port.toNat true = true ∧ ((works).inst 1).detached = false ∧
    ((works).ctl.live[0]?.map (fun y => (y.cfg.inst 1).root.toNat)) = some 0x1000 ∧ (works).ctl.live[3]? = none ∧
    (((works).instCfg 1).inst 1).port.toNat = (0 : PortId).val ∧
    ((works cfg1 (walking 3)).updInst 1 (fun d => { d with gen := 1 })).insts.walks = [walkAt 3] ∧
    (walkAt 3).gen ≠ (((works cfg1 (walking 3)).updInst 1 (fun d => { d with gen := 1 })).inst 1).gen := by
  decide +kernel

/-- A dirty log of 16 records with so many written, and one page that waits. -/
def logs (pi : W32) (b : Blk) : Blk := b.updInst 1 (fun d => { d with dirty := { d.dirty with
  on := true, log2 := 4, pi := pi, waiting := [{ writer := 1, page := 7 }] } })

theorem wit_DirtyLogAndZeroing : (works).canIssue ((works).cfg.inst 1).port.toNat true = true ∧
    ((works cfg1 (logs 15)).inst 1).dirty.waiting = [{ writer := 1, page := 7 }] ∧ ((works cfg1 (logs 15)).inst 1).dirty.full = false ∧
    ((works cfg1 (logs 16)).inst 1).dirty.full = true ∧ ((works cfg1 (logs 16)).inst 1).dirty.held = false ∧
    (((works cfg1 (logs 16)).inst 1).dirty.pi - 1).toNat < 16 ∧ (((works cfg1 (logs 16)).inst 1).dirty.pi - 0).toNat = 16 ∧
    (decide (Half.east = .east), 8191) ∈ ({ insts := { zeroing := [(true, 8191)] } } : Blk).insts.zeroing := by
  decide +kernel

/-- Ethernet port 0 of one lane, enabled, with PFC on priority 7; the link of lane 0 is up. -/
def cfgP : Cfg := { ports := [(0, { life := .enabled, lanes := 1, maxFrame := 1518, pfc := true, pfcMask := 0x80 })] }
/-- A minimal frame, a packet of it, and what holds it. -/
def frame1 : List Byte := List.replicate 60 0
def packet1 (md : Meta) : Packet := { uid := 0, frame := frame1, md := md, epoch := 1, pipe := 0, origin := {}, born := 0 }
def ethUp (f : EthLane → EthLane) (b : Blk) : Blk := { b with eth := [(0, f { link := .up })] }

theorem wit_FramesAtTheMac : ((works cfgP).cfg.port 0).life = .enabled ∧ ((works cfgP (ethUp id)).lane 0).link = .up ∧
    (works cfgP).serving (halfOfLane 0) = true ∧ 60 ≤ frame1.length ∧ frame1.length + 4 ≤ ((works cfgP).cfg.port 0).maxFrame.toNat ∧
    beAt frame1 12 2 ≠ 0x8808 ∧ ((works cfgP).cfg.port 0).macsec = false ∧ ((works cfgP).cfgOf ((works cfgP).epochAt (pipeOfLane 0))).sas = [] ∧
    ((works cfgP).cfg.port 0).pfc = true ∧ bitOf ((works cfgP).cfg.port 0).pfcMask.toNat 7 = true ∧
    (let b : Blk := { works cfgP with hog := { queues := [{ key := .port 0 7, pausedTo := some 0 }] } };
      (b.tmq (.port 0 7)).pausedTo = some 0 ∧ 0 ≤ b.mono) ∧
    (0 + 0x7FFF * 512 * 1000 / max (portRate ((works cfgP).cfg.port 0)) 1 ≤ 1000000000) ∧
    (let b : Blk := { works cfgP with clk := { mono := 1000000000 }, hog := { xoff := [{ lane := 0, prio := 7, since := 0 }] } };
      b.hog.xoff = [{ lane := 0, prio := 7, since := 0 }]) ∧
    (works cfgP).spd.floorMiss = false ∧ ({ works cfgP with spd := { floorMiss := true } } : Blk).spd.floorMiss = true ∧
    ({ works with boot := { state := 7, mpEast := 7 } } : Blk).serving (halfOfLane 0) = false ∧
    ((works cfgP (ethUp (fun y => { y with link := .down }))).lane 0).link ≠ .up ∧
    ((works { ports := [(0, { life := .enabled, fec := 2 })] }).cfg.port 0).fec = 2 ∧
    2048 < ({ packet1 0 with frame := List.replicate 2045 0 } : Packet).frame.length + 4 ∧
    (let b : Blk := { works cfgP (ethUp id) with hog := { egress := [{ lane := 0, pkt := packet1 0 }] } };
      b.hog.egress = [{ lane := 0, pkt := packet1 0 }] ∧ (b.lane 0).oneStep = false ∧ (b.lane 0).tcCorr = false ∧
      mdTsReq (packet1 0).md = false) := by
  decide +kernel

/-- A program with no stage enabled. -/
def noStage : PipeProg := { parse := [], stages := [], tables := [], actions := [], tm := [], crc := 0, digest := [] }
def cfgG : Cfg := { cfgP with progs := [(0, some noStage)], insts := cfg1.insts }
def wait1 : HbmWait := { pkt := packet1 0, start := packet1 0, stage := 0 }
/-- A packet for an Ethernet port: dest 1. -/
def toPort : Packet := packet1 (BitVec.ofNat 1024 (2 ^ 512))
def queue1 (k : QKey) : TmQueue := { key := k, pkts := [toPort] }
def posted1 : Entry := { idx := 0, raw := entry [(24, 64)], epoch := 1, gen := 0, st := .started }

theorem wit_PacketPath :
    (let b := works cfgP (ethUp (fun y => { y with rx := [{ frame := frame1, rxNsec := 0, rxSecLo := 0, step := 0, epoch := none }] }));
      (b.lane 0).rx.length = 1 ∧ b.sourceHeld (pipeOfLane 0) { lane := 0 } = false ∧ b.serving (halfOfPipe (pipeOfLane 0)) = true ∧
      (b.cfgOf (b.epochAt (pipeOfLane 0))).prog (pipeOfLane 0) = none) ∧
    (let b : Blk := { works cfgG with hostFrames := [(0, [{ frame := frame1, origin := {} }])] };
      b.hostFrames.get [] 0 = [{ frame := frame1, origin := {} }] ∧ b.sourceHeld (pipeOfPort 0) {} = false) ∧
    ((works cfgG).cfgOf ((works cfgG).epochAt 0)).prog 0 = some noStage ∧ (∀ x ∈ noStage.stages, x.enable = false) ∧
    (∀ x ∈ noStage.parse, x.slot < 16) ∧
    (let b : Blk := { works cfgG with pipes := [(0, { waits := [wait1] })] };
      (b.pipe 0).waits = [wait1] ∧ wait1.pkt.pipe = 0 ∧ (b.cfgOf wait1.pkt.epoch).prog 0 = some noStage ∧
      mdDest wait1.pkt.md = 0 ∧ wait1.learn = none) ∧
    (let b : Blk := { works cfgG (ethUp id) with clk := { mono := 1000001 }, hog := { queues := [queue1 (.port 0 7)] } };
      b.hog.queues = [queue1 (.port 0 7)] ∧ toPort.launch = none ∧ (b.cfg.port 0).life = .enabled ∧ (b.lane 0).link = .up ∧
      b.paused (queue1 (.port 0 7)) = false ∧ (b.headClass 0 7 toPort).rate = 0 ∧ (b.tmAt toPort.epoch 0).rate = 0 ∧
      (b.headClass 0 7 toPort).level < 8 ∧ (b.cfgOf toPort.epoch).prog (pipeOfLane 0) = some noStage ∧ (b.pipe 0).undef = false ∧
      b.dueHead 0 7 = none ∧ b.mayServe 0 7 = true ∧
      mdDest toPort.md = 1 ∧ mdCsum toPort.md = false ∧ mdSa toPort.md = none ∧ toPort.stamp = none ∧ toPort.markCe = false ∧
      toPort.frame.length + 4 ≤ ((b.cfgOf toPort.epoch).port 0).maxFrame.toNat ∧ 1000000 < b.mono - toPort.born) ∧
    (let b : Blk := { works cfgG (ethUp id) with hog := { crossing := [{ pkt := toPort, dest := .queue (.port 0 7) }] } };
      (b.bridgeTo .west).retrain = none ∧ b.serving .west = true ∧ halfOfLane 0 = .west ∧ b.dataWait .west = false ∧
      b.crossingTo .west = [{ pkt := toPort, dest := .queue (.port 0 7) }] ∧ (b.lane 0).link = .up ∧ (b.cfg.port 0).life = .enabled ∧
      1000000 < ({ b with clk := { mono := 1000001 } } : Blk).mono - toPort.born ∧
      b.admits toPort.epoch (.port 0 7) toPort.cells = true) ∧
    (let b : Blk := { works cfgG (ethUp id) with hog := { crossing := [{ pkt := toPort, dest := .engine .west }] } };
      b.cellsWait .west = false ∧ b.serving .west = true ∧ b.crossingTo .west = [{ pkt := toPort, dest := .engine .west }] ∧
      ({ b with boot := { state := 7, mpEast := 7 } } : Blk).serving .west = false) ∧
    (let b : Blk := { works cfgG with rmt := { inWest := [toPort] }, clk := { mono := 1000001 } };
      b.hog.crossing.find? (fun c => c.dest == CrossDest.engine .west) = none ∧ b.rmt.inWest = [toPort] ∧
      1000000 < b.mono - toPort.born) ∧
    (works cfgG).launchFar 0 = false ∧ rvLen (entry [(24, 8)]) < toPort.frame.length ∧
    (let b : Blk := { works cfgG with hog := { queues := [queue1 (.deliver 1 63)] }, wqs := [(127, { fetched := [posted1] })] };
      b.hog.queues = [queue1 (.deliver 1 63)] ∧ (b.cfg.inst 1).port.toNat = 0 ∧ b.instCan 1 = true ∧
      (b.wq 1 63).fetched = [posted1] ∧ posted1.st = .started ∧ toPort.frame.length ≤ rvLen posted1.raw) := by
  decide +kernel

/-- A learned entry, and the learn unit that holds it alone, at the first slot of its key. -/
def learned1 : Learned := { key := 9, port := 0, hit := false, strike := true, moves := 0, window := 0, flapping := false, pinUntil := 0 }
def slot9 : Nat := 0 + 4 * (Config.learnHash 0 9 % 65536)
def unit9 : LearnUnit := { slots := [(slot9, some learned1)], moveLimit := 0, queue := [{ key := 9, port := 1 }], flGo := true }

theorem slot9_mem : slot9 ∈ learnSlots 9 := by simp [slot9, learnSlots]

theorem unit9_find : unit9.find 9 = some slot9 := by
  have other : ∀ i, i ≠ slot9 → unit9.slots.get none i = none := by
    intro i hi
    simp [unit9, Tab.get, Ne.symm hi]
  have own : unit9.slots.get none slot9 = some learned1 := by simp [unit9, Tab.get]
  unfold LearnUnit.find
  rw [List.find?_eq_some_iff_append]
  obtain ⟨l, r, h⟩ := List.append_of_mem slot9_mem
  refine ⟨by rw [own]; decide, l, r, h, ?_⟩
  intro a ha
  have nodup : (learnSlots 9).Nodup := List.nodup_dedup _
  rw [h] at nodup
  have ne : a ≠ slot9 := by
    rintro rfl
    exact (List.disjoint_of_nodup_append nodup) ha (by simp)
  rw [other a ne]
  rfl

theorem wit_LearningTable : unit9.queue = [{ key := 9, port := 1 }] ∧ unit9.slots.get none slot9 = some learned1 ∧
    learned1.flapping = false ∧ learned1.port ≠ 1 ∧ unit9.moveLimit = 0 ∧ unit9.find 9 = some slot9 ∧ unit9.ageEn = true ∧
    learned1.hit = false ∧ learned1.strike = true ∧ unit9.flGo = true ∧ unit9.flOwn = [] ∧
    ({ sweepPos := 262143 } : LearnUnit).sweepDue 10000000000 = true ∧ ({} : LearnUnit).sweepDue 0 = false ∧
    (({} : LearnUnit).find 9 = none ∧ slot9 ∈ learnSlots 9 ∧ Tab.get none ({} : LearnUnit).slots slot9 = none) := by
  refine ⟨rfl, by simp [unit9, Tab.get], rfl, by decide, rfl, unit9_find, rfl, rfl, rfl, rfl, rfl, by decide, by decide, ?_, slot9_mem, rfl⟩
  unfold LearnUnit.find
  rw [List.find?_eq_none]
  intro i _
  simp [Tab.get]

theorem wit_PortsAndSlots : (works cfgP).linkAllowed 0 = true ∧ (5 : Fin 6) ≠ 0 ∧
    linkOf 3 = .up ∧ ((works cfgP).lane 0).forced = false ∧
    ((works cfgP (ethUp (fun y => { y with link := .negotiating }))).lane 0).link = .negotiating ∧
    (let b := works cfgP (fun b => { ethUp (fun y => { y with link := .negotiating }) b with clk := { mono := 500000000 } });
      (b.lane 0).link = .negotiating ∧ (b.lane 0).negAt + 500000000 ≤ b.mono) ∧
    (let y : Dsp := { presence := true, power := 1, perst := false, dllActive := true }; y.dllActive = true ∧ y.power = 1) ∧
    inHbm 0x001800000000 4 = false ∧ (0x0018000700FC : Nat) = 0x001800000000 + (7 : DspId).val * 0x10000 + 4 * (63 : Fin 64).val ∧
    (works {}).linkAllowed 0 = false ∧
    (let b := works cfgP (fun b => { ethUp (fun y => { y with link := .down }) b with clk := { mono := 1000000000 } });
      b.linkAllowed 0 = true ∧ (b.lane 0).link = .down ∧ (b.lane 0).downAt + 1000000000 ≤ b.mono) ∧
    ((works).dsport 7).presence = false ∧ ((works).dsport 7).dllActive = false ∧ ((works).dsport 7).power ≠ 1 ∧
    (let y : Dsp := { presence := true, power := 1, perst := false, onAt := some 0 };
      y.presence = true ∧ y.power = 1 ∧ y.dllActive = false ∧ y.perst = false ∧ y.onAt = some 0) ∧
    0 + 100000000 ≤ (100000000 : Nat) ∧ inHbm (hbmEast + hbmSize - 4096) 4096 = true := by
  decide +kernel

/-- A trigger counter of instance 1, enabled. -/
def cfgT : Cfg := { cfg1 with trigs := [(5, { life := .enabled, inst := 1 })] }

theorem wit_DeviceRegisters : 10 ≤ fieldNat (0xA00000000#64) 32 12 ∧ fieldNat (0xE1000000000#64) 32 12 ≤ 3600 ∧
    ((works).pipe 0).learn.flGo = false ∧ (0x1000000#64).getLsbD 24 = true ∧ unit9.flGo = true ∧
    ((works).pipe 0).puntEnable = false ∧ (1#64).getLsbD 0 = true ∧ ({ puntEnable := true } : Pipe).puntEnable = true ∧
    fieldNat (0x30#64) 4 2 = 3 ∧ fieldNat (0x10#64) 4 2 = 1 ∧ ({ presence := true } : Dsp).power ≠ 1 ∧
    ({ dllActive := true } : Dsp).dllActive = true ∧ ((works cfgP).cfg.port 0).life ≠ .absent ∧
    (works cfgT).memOpen 0 true = true ∧ (works cfgT).boundTo 1 0 = true ∧
    ((works cfgT).cfg.trig (fieldNat ((0x10005#32).setWidth 64) 0 16)).life = .enabled ∧
    ((works cfgT).cfg.trig 5).inst = 1 ∧ fieldNat ((0x10005#32).setWidth 64) 16 16 ≠ 0 ∧ (works cfgT).rmt.posted = [] ∧
    (works cfgT).rmt.incs = [] := by
  decide +kernel

/-- A launch frame of class 0 that is due, on lane 0. -/
def launches (b : Blk) : Blk := { b with eth := [(0, { launch := [{ packet1 0 with launch := some 0 }] })] }

theorem wit_TimeAndServo : ({ servo := .holdover } : Clock).servo = .holdover ∧
    ({ hold := true } : Clock).servo ≠ .holdover ∧ (65536000000#64).toInt.natAbs ≤ ({} : Clock).threshold * 65536 ∧
    ({} : Clock).threshold * 65536 < (65536000001#64).toInt.natAbs ∧ ({} : Clock).autoStep = false ∧
    ({} : Clock).servo ≠ .stepRequest ∧ ({ tb := 65536000001 } : Clock).stepOk (-(65536000001#64).toInt) = true ∧
    ({ lastPps := some 0, mono := 1500000000 } : Clock).mono ≤ 0 + 1500000000 ∧ ({} : Clock).source ≠ 0 ∧
    ({ source := 1 } : Clock).source ≠ 2 ∧ ({ servo := .holdover, source := 0, ppsEdges := 4 } : Clock).ppsEdges = 4 ∧
    ({} : Clock).ppsOut = false ∧ ({ tb := 65535 } : Clock).tb % secGrains < 65536 ∧
    ({ ppsOut := true, mono := 100000000 } : Clock).ppsRise + 100000000 ≤ 100000000 ∧
    (let b : Blk := { works with
        clk := { source := 1, refPair := 3, mono := 1000000 }
        elec := { vin := true, refLost := [19], refAt := [(19, 990000)] } };
      b.ethRef 3 = false ∧ b.elec.refAt.get 0 19 + 10000 ≤ b.mono) ∧
    (let b : Blk := { works with clk := { source := 1, servo := .holdover, mono := 1000000 } };
      b.ethRef b.clk.refPair.toNat = true ∧ b.elec.refAt.get 0 16 + 1000000 ≤ b.mono) ∧
    ({ lastPps := none, srcSince := 0, mono := 1500000000 } : Clock).lastPps.getD 0 + 1500000000 ≤ 1500000000 ∧
    ({ ppsDue := true } : Clock).ppsOut = false ∧ (works).gate (.thread 0) .tbNsec = .pass ∧
    (works cfg1 launches).dueHead 0 0 = some { packet1 0 with launch := some 0 } ∧ (works).dueHead 0 0 = none ∧
    (((works cfg1 launches).lane 0).launchHeld 0).head? = some { packet1 0 with launch := some 0 } ∧
    0 ≤ (works cfg1 launches).clk.tb := by
  decide +kernel

/-- Channel 31 of the engine of port 0. -/
def dma31 (x : Dch) (f : Dma → Dma := id) (b : Blk) : Blk :=
  { b with dma := [(0, f { chans := [(31, x)] })] }
/-- A descriptor in hand: 16 MiB, own set. -/
def desc1 : Desc := BitVec.ofNat 256 (16777216 * 256 ^ 16 + 256 ^ 20)

theorem wit_DmaControls : ((works).chn 0 31).enable = false ∧ ((works).eng 0).st = .running ∧ ((works).chn 0 31).next.sys = false ∧
    (works).canIssue 0 false = true ∧ ((works).chn 0 31).desc = none ∧ ((works).chn 0 31).reading = none ∧
    ({ enable := true, st := .error } : Dch).enable = true ∧ ({ enable := true, st := .bmeOff } : Dch).enable = true ∧
    ({ st := .paused, pause := true, desc := some desc1, remain := 1 } : Dch).remain ≠ 0 ∧ dInt desc1 = false ∧
    (let b := works cfg1 (dma31 { st := .pausing });
      (b.eng 0).st = .running ∧ (b.chn 0 31).st = .pausing ∧ (b.chn 0 31).bursts = [] ∧ (b.chn 0 31).desc = none) ∧
    (let b := works cfg1 (dma31 { st := .paused, desc := some desc1 });
      (b.chn 0 31).st = .paused ∧ (b.chn 0 31).desc = some desc1 ∧ (b.chn 0 31).arm = false ∧ (b.chn 0 31).curDesc.sys = false) ∧
    (let b := works cfg1 (dma31 { st := .halted, kept := .paused } (fun e => { e with st := .halted }));
      (b.eng 0).st = .halted ∧ (b.port 0).linkUp = true ∧ (b.chn 0 31).st = .halted ∧ (b.chn 0 31).kept = .paused) := by
  decide +kernel

theorem wit_DmaControls_gates : (works).gate (.thread 0) (.dmaCtrl 0 31) = .pass ∧ (works).dmaOpen (.thread 0) 0 31 = true ∧
    (works).gate (.thread 0) (.dmaKick 0 31) = .pass ∧ (works).gate (.thread 0) (.dmaShadow 0 31) = .pass ∧
    (works).gate (.thread 0) (.dmaEngCtrl 0) = .pass ∧ (works).gate (.f0 0) (.dmaCtrl 0 0) = .pass ∧ (works).dmaOpen (.f0 0) 0 0 = false ∧
    (let b := works cfg1 (dma31 { st := .idle });
      (b.chn 0 31).st = .idle ∧ (b.chn 0 31).desc = none ∧ (b.chn 0 31).reading = none) ∧
    (let b := works cfg1 (dma31 { st := .paused, pause := true, desc := some desc1, remain := 1 });
      (b.chn 0 31).pause = true ∧ (b.chn 0 31).st = .paused ∧ (b.chn 0 31).desc = some desc1 ∧ (b.chn 0 31).remain ≠ 0 ∧
      (b.eng 0).st = .running ∧ b.dmaRuns 0 = true) ∧
    (let b := works cfg1 (dma31 { st := .halted, desc := some desc1 } (fun e => { e with st := .halted }));
      (b.chn 0 31).st = .halted ∧ (b.eng 0).st = .halted ∧ b.dmaRuns 0 = false) ∧
    (let b := works cfg1 (dma31 { st := .pausing, desc := some desc1, remain := 1, pause := true, rdLeft := 1 });
      b.dmaRuns 0 = true ∧ (b.chn 0 31).bursts = [] ∧ (b.chn 0 31).remain ≠ 0 ∧ (b.chn 0 31).rdLeft ≠ 0) := by
  decide +kernel

theorem wit_DmaTransfers_ends :
    (let b := works cfg1 (dma31 { st := .active, reading := some {} } (fun e => { e with st := .halting, ending := 1 }));
      b.dmaRuns 0 = false ∧ (b.eng 0).st = .halting ∧ 0 < (b.eng 0).ending) ∧
    (let b := works cfg1 (dma31 { st := .bmeOff, reading := some {} });
      b.dmaRuns 0 = true ∧ (b.chn 0 31).reading = some (b.chn 0 31).next ∧ (b.chn 0 31).dropRead = false ∧
      b.dmaData 0 false 0 32 (.ok (bytesLE 32 desc1.toNat)) = .ok (bytesLE 32 desc1.toNat) ∧
      b.dmaData 0 false 0 32 (.fail .timeout) = .fail .timeout) ∧
    (let b := works cfg1 (dma31 { st := .active, desc := some desc1, rdLeft := 512, aheadDone := false });
      (b.eng 0).pick = some 31 ∧ b.dmaCan 0 (b.chn 0 31).srcSys = true ∧
      min (b.chn 0 31).rdLeft (512 - (b.chn 0 31).rdSrc % 512) = (b.chn 0 31).rdLeft) ∧
    (let b := { works cfg1 (dma31 { st := .active, desc := some desc1 }) with ports := [(0, { upPort with f0 := { openFn with busMaster := false } })] };
      b.dmaCan 0 (b.chn 0 31).curDesc.sys = false ∧ b.dmaRuns 0 = true) ∧
    (let b := works cfg1 (fun b => dma31 {} (fun e => { e with st := .halting, ending := 3, stopAt := 0 }) { b with clk := { mono := 10000000 } });
      (b.eng 0).st = .halting ∧ (b.eng 0).stopAt + 10000000 ≤ b.mono) := by
  decide +kernel

theorem wit_DmaTransfers : (let b := works cfg1 (dma31 { st := .active, reading := some {}, endMark := true });
      (b.eng 0).st = .running ∧ (b.chn 0 31).st = .active ∧ (b.chn 0 31).reading = some (b.chn 0 31).next ∧
      (b.chn 0 31).next.sys = false ∧ (b.chn 0 31).endMark = true ∧ (b.chn 0 31).kick = false) ∧
    BitVec.ofNat 256 (natLE (slice (bytesLE 32 desc1.toNat) 0 32)) = desc1 ∧ dOwn desc1 = true ∧ descFault 0 desc1 = none ∧
    dLink desc1 = false ∧ dLen desc1 ≠ 0 ∧ dOwn 0 = false ∧ descFault 0 (desc1 + BitVec.ofNat 256 (256 ^ 16)) = some 0x0103 ∧
    (StopCause.ur ≠ StopCause.linkLoss) ∧
    (let b := works cfg1 (dma31 { st := .active, desc := some desc1, rdLeft := 513 });
      (b.eng 0).pick = some 31 ∧ (b.eng 0).chans.foldl (fun a c => a + c.2.bursts.length) 0 < 128 ∧
      b.dmaCan 0 (b.chn 0 31).srcSys = true ∧ min (b.chn 0 31).rdLeft (512 - (b.chn 0 31).rdSrc % 512) < (b.chn 0 31).rdLeft) ∧
    (let b := works cfg1 (dma31 { st := .active, desc := some desc1, bursts := [{ src := 0, len := 512 }] });
      (b.chn 0 31).bursts = [{ src := 0, len := 512 }] ∧ (b.chn 0 31).srcSys = false ∧ (b.chn 0 31).dstSys = false ∧
      b.canIssue 0 false = true) ∧
    (let b := works cfg1 (dma31 { st := .active, desc := some desc1 });
      (b.chn 0 31).rdLeft = 0 ∧ (b.chn 0 31).bursts = [] ∧ (b.chn 0 31).reading = none ∧ (b.chn 0 31).ahead = none ∧
      (b.chn 0 31).arm = false ∧ dInt desc1 = false ∧ (b.chn 0 31).curDesc.sys = false) ∧
    (let b := works cfg1 (dma31 {} (fun e => { e with st := .halting }));
      (b.eng 0).st = .halting ∧ (b.eng 0).ending = 0 ∧ (b.eng 0).rEnable = false) := by
  decide +kernel

/-- Instance 1 may hold one lookaside unit, and has WQ 3 of kind CIPHER, bound to key slot 9. -/
def cfgL : Cfg := {
  insts := [(1, { life := .enabled, grants := [(9, 2)], root := 0x1000 })], wqs := [(67, { life := .enabled, kind := 5, log2 := 4, cq := 3 })],
  bindings := [(9, some 1)] }
/-- Unit 0 held by an instance, with a job on WQ 3. -/
def unitOf (i : Nat) (st : LuSt) (l : List Entry) (f : Keys → Keys := id) (b : Blk) : Blk :=
  { b with keys := f { units := [(0, { st := st, inst := i })] }, wqs := [(67, { fetched := l })] }
/-- A job: algorithm and opcode, on unit 0 with slot 9. -/
def job (op alg : Nat) (st : EntrySt := .fetched) : Entry :=
  { idx := 0, raw := entry [(0, op), (4, 9), (6, alg), (32, 16)], epoch := 1, gen := 0, st := st }

theorem wit_LookasideLocks : (works cfgL).memOpen 0 true = true ∧ (works cfgL).boundTo 1 0 = true ∧
    halfOfUnit 0 = (works cfgL).homeOf 1 ∧ ((works cfgL).unit 0).st = .free ∧ (works cfgL).locksHeld 1 < (works cfgL).cfg.grant 1 9 ∧
    ((works cfgL (unitOf 2 .held [])).unit 0).inst ≠ 1 ∧ ((works cfgL (unitOf 2 .held [])).unit 0).st = .held ∧
    (works { cfgL with insts := [(1, { life := .enabled })] }).cfg.grant 1 9 ≤ 0 ∧
    ((works cfgL (unitOf 1 .held [])).unit 0).inst = 1 ∧
    ((works cfgL (unitOf 1 .held [])).unitJobs 1 0).any (fun e => e.2.held) = false ∧
    ((works cfgL (unitOf 1 .held [job 0x20 1])).unitJobs 1 0).any (fun e => e.2.held) = true ∧
    ((works cfgL (unitOf 1 .releasing [])).unit 0).st = .releasing ∧ (works cfgL (unitOf 1 .releasing [])).unitBusy 0 = false := by
  decide +kernel

/-- A job that is next, with a key that has one invocation left. -/
def jobReady (op alg : Nat) : Blk := works cfgL (unitOf 1 .held [job op alg] (fun k => { k with
  slots := [(9, { st := .active, alg := BitVec.ofNat 8 alg, cur := some { material := [], limit := 1, counter := 0 }, curFrom := 1 })] }))
/-- Unit 0 with a job in hand and what it is to write. -/
def inHand1 (outs : List (Nat × List Byte)) : Blk := works cfgL (unitOf 1 .held [job 0x21 1 .started] (fun k => { k with
  units := [(0, { st := .held, inst := 1, job := some (1, 3, 0), outs := outs })] }))

theorem wit_CipherJobs : (∀ x ∈ [(0x20, 1), (0x21, 1), (0x22, 7), (0x23, 7)],
      (jobReady x.1 x.2).jobNext 1 3 x.1 = some (job x.1 x.2) ∧ (jobReady x.1 x.2).startStatus 1 (job x.1 x.2) = 0 ∧
      ((jobReady x.1 x.2).slot (cpSlot (job x.1 x.2).raw)).reg 1 = some { material := [], limit := 1, counter := 0 }) ∧
    jobChecks (job 0x21 1).raw = true ∧ jobRead (job 0x21 1).raw .busError (.ok [5]) = .ok [5] ∧
    (jobReady 0x21 1).canIssue (((jobReady 0x21 1).instCfg 1).inst 1).port.toNat true = true ∧
    (jobReady 0x21 1).xlated 1 (cpSrc (job 0x21 1).raw) (.ok [5]) = .ok [5] ∧
    (jobReady 0x21 1).xlated 1 (cpSrc (job 0x21 1).raw) .busError = .busError ∧
    (jobReady 0x21 1).xlated 1 (cpSrc (job 0x21 1).raw) (.xfault .notValid) = .xfault .notValid ∧
    (works cfgL).jobNext 1 3 0x21 = none ∧
    (works { cfgL with bindings := [] } (unitOf 1 .held [job 0x21 1])).startStatus 1 (job 0x21 1) ≠ 0 ∧
    ((inHand1 [(64, [7])]).unit 0).job = some (1, 3, 0) ∧ ((inHand1 [(64, [7])]).unit 0).st = .held ∧
    ((inHand1 [(64, [7])]).unit 0).outs = [(64, [7])] ∧ (inHand1 [(64, [7])]).instCan 1 = true ∧
    (inHand1 [(64, [7])]).xlated 1 64 (.ok []) = .ok [] ∧
    ((inHand1 [(64, [7])]).unit 0).status = 0 ∧ ((inHand1 []).unit 0).outs = [] ∧
    ((inHand1 []).wq 1 3).entry 0 = some (job 0x21 1 .started) := by
  decide +kernel

/-- Either side of a tag check is met by some tag that is read: the tag expected itself, and another one. -/
theorem wit_CipherJobs_tags (dec : List Byte) : (∀ l : List Byte, l.length = 16 → dec = l → slice l 0 16 = dec) ∧
    (slice [0] 0 16 ≠ dec ∨ slice [1] 0 16 ≠ dec) := by
  constructor
  · rintro l h rfl
    apply List.ext_getElem
    · simp [slice, h]
    · intro n h1 h2
      simp [slice, byteAt, List.getD, h2]
  · by_cases h : slice [0] 0 16 = dec
    · right
      rw [← h]
      decide +kernel
    · left
      exact h

/-- Core 63 with threads still to move, and its half's spare cores used or not. -/
def movesOf (l : List Nat) (used : Nat) (b : Blk) : Blk :=
  { b with cores := { b.cores with cores := [(63, { moving := l })] },
           rel := { b.rel with sparesUsed := [(0, used), (1, used), (2, used), (3, used)] } }

theorem wit_CoresUnderFault : (works).rel.rEnable = false ∧ ((works).core 63).moving = [] ∧ ((works).core 63).mismatches = [] ∧
    ((works cfg1 (movesOf [510, 511] 0)).core 63).moving.contains 511 = true ∧
    0 < (works cfg1 (movesOf [510, 511] 0)).sparesLeft 0 (halfOfCore 63).code ∧
    [510, 511].filter (· != 511) ≠ [] ∧ [511].filter (· != 511) = [] ∧
    ((works cfg1 (movesOf [511] 9)).core 63).claimed = false ∧ (works cfg1 (movesOf [511] 9)).sparesLeft 0 (halfOfCore 63).code = 0 := by
  decide +kernel

theorem wit_UnitsUnderFault : (works).rel.laneFault.get 0 (7 * 4 + 3) = 0 ∧
    ({ lanesTesting := 8 } : Pipe).lanesTesting &&& BitVec.ofNat 4 (2 ^ 3) ≠ 0 ∧
    (works).rel.onShadow.contains (7, true, 31) = false ∧ (works).rel.rebuilding = [] ∧
    (∀ t ∈ [true, false], 0 < (works).sparesLeft (bankKind t) 7 ∧
      ({ works with rel := { sparesUsed := [(bankKind t * 16 + 7, 99)] } } : Blk).sparesLeft (bankKind t) 7 = 0) ∧
    0 < (works).sparesLeft 4 Half.east.code ∧ ({ works with rel := { sparesUsed := [(64, 99)] } } : Blk).sparesLeft 4 0 = 0 ∧
    0 < (works).sparesLeft 1 7 ∧ ({ works with rel := { sparesUsed := [(23, 99)] } } : Blk).sparesLeft 1 7 = 0 ∧
    ({ lanes := [5] } : BridgeDir).lanes = 5 :: [] ∧ (works).elec.phasesShed.get 0 (Half.east.code * 16 + 15) < 2 ∧
    (works).boot.state ≠ bsActivating ∧ (works).mp .west ≠ 0 ∧ (works).mp .east ≠ 0 := by
  decide +kernel

theorem wit_UnitsUnderFault_again :
    (let b : Blk := { works with clk := { mono := 1000000000 }, rel := { laneFault := [(31, 2)] } };
      b.rel.laneFault.get 0 (7 * 4 + 3) = 2 ∧ b.mono + 1 < 2 + 1000000000) ∧
    ({ works with rel := { onShadow := [(7, true, 31)] } } : Blk).rel.onShadow.contains (7, true, 31) = true ∧
    ({ works with rel := { rebuilding := [{ pipe := 7, ternary := true, bank := 31, predictive := false }] } } : Blk).rel.rebuilding.find?
      (fun r => r.pipe == 7 && r.ternary == true) = some { pipe := 7, ternary := true, bank := 31, predictive := false } ∧
    (31 ∉ (works).keys.unitsLost.get [] 7) ∧ (31 ∈ ({ works with keys := { unitsLost := [(7, [31])] } } : Blk).keys.unitsLost.get [] 7) ∧
    2 ≤ ({ works with elec := { phasesShed := [(31, 2)] } } : Blk).elec.phasesShed.get 0 (Half.east.code * 16 + 15) ∧
    (works cfg1 (activates 1 [])).boot.state = bsActivating ∧
    ({ works with boot := { state := 7, mpEast := 7 } } : Blk).mp .west = 0 ∧
    ({ works with clk := { mono := 3599999999999 }, rel := { fatalEast := 1 } } : Blk).mono + 1 ≤ 1 + 3600000000000 ∧
    ({ works with clk := { mono := 0 }, rel := { fatalEast := 1 } } : Blk).mono + 1 < 1 + 3600000000000 := by
  decide +kernel

theorem wit_ArrayErrors : correctable 4 = true ∧ correctable 7 = true ∧
    ({ works with rel := { lastCorr := [(errKey 4 .east, 1)] } } : Blk).rel.lastCorr.get 0 (errKey 4 .east) =
      (works).mono / 60000000000 + 1 := by
  decide +kernel

theorem wit_SupplyAndSensors : (works).mss.powered = true ∧ (works).mss.fw.up = true ∧
    ((works).spd.doms.get {} 7).supplyMv.toNat + 5 < 4096 ∧ ({ supplyMv := 4090 } : SpdDom).supplyMv.toNat + 5 < 4096 ∧
    (let w : SpdMon := { belowFloor := true, belowSince := 0 }; w.belowFloor = true ∧ w.belowSince + 10000 < 10001) ∧
    (works).spd.overSince = none ∧
    (({ overSince := some 0 } : Speed).overSince = some 0 ∧ 0 + 10000000 < (10000001 : Nat)) ∧ (works).currentHeld = false ∧
    (works).elec.refLost.contains (clkKey (.host 15)) ≠ true ∧ (works).elec.refLost.contains (clkKey (.eth 3)) ≠ true ∧
    (127 : LaneId).val / 32 = (3 : Fin 4).val ∧ (works { ports := [(127, { life := .enabled })] }).linkWanted 127 = true ∧
    35 < (40 : Fin 41).val ∧ tripAt 31 920 = true ∧ tripAt 35 840 = true ∧ ((works).port 0).linkUp = true ∧
    (works).absent 0 = false := by
  decide +kernel

/-- A record and a seal of slot 511. -/
def rec1 : ReelRec := { seq := 0, type := 0x20, severity := 0, origin := 0, tbSec := 0, mono := 0, body := [] }
def seal1 : Seal := { index := 511, seq := 0, sig := none }
/-- The management die, changed by `f`; over SMBus every request is open to it, with platform authority. -/
def mssWith (f : Mss → Mss) (b : Blk) : Blk := { b with mss := f b.mss }

theorem wit_MssReads : (∀ cmd ∈ [0x0001, 0x0002, 0x0003, 0x0004, 0x0010, 0x0011, 0x0012, 0x0060, 0x0061],
      (works).mssOpen .smbus cmd 7 [] = true) ∧ (works).mssOpen (.mctpPcie 0) 0x0011 7 [] = true ∧
    ((works).rank .smbus).owns = true ∧
    (let b := works cfg1 (fun b => { b with ports := [(0, upPort), (1, upPort)] });
      b.mssOpen (.mctpPcie 1) 0x0011 7 [] = true ∧ (b.rank (.mctpPcie 1)).owns = false) ∧
    (let b := works cfg1 (mssWith (fun m => { m with smbus := { rest := [1], restTag := 7 } }));
      (b.mssPort .smbus).rest ≠ [] ∧ (b.mssPort .smbus).restTag = 7) ∧
    leAt [40, 1] 0 1 + leAt [40, 1] 1 1 ≤ 41 ∧ leAt [0, 41] 0 1 + leAt [0, 41] 1 1 ≤ 41 ∧
    leAt [0, 0, 0, 0, 0, 0, 0, 0, 63] 8 1 ≤ 63 ∧
    (works cfg1 (mssWith (fun m => { m with reel := { next := 1, recs := [(0, some rec1)] } }))).mss.reel.next ≠ 0 ∧
    leAt [0xFF, 1, 0, 0] 0 4 < 512 ∧
    (works cfg1 (mssWith (fun m => { m with reel := { seals := [(511, some seal1)] } }))).mss.reel.seals.get none 511 = some seal1 := by
  decide +kernel

/-- The body of SET: its code, then the operand. -/
def setBody (code : Nat) (l : List Byte) : List Byte := BitVec.ofNat 8 code :: 0 :: 0 :: 0 :: l ++ List.replicate (8 - l.length) 0

theorem wit_MssChanges : (∀ cmd ∈ [0x0011, 0x0030, 0x0031, 0x0032, 0x0033, 0x0040], (works).mssOpen .smbus cmd 7 [] = true) ∧
    (works).rank .smbus = .platform ∧ (works).mss.fw.up = true ∧
    (let r : Reel := { sinceSeal := 1 }; 0 < r.sinceSeal ∧ r.lastSeal + 60000000000 ≤ 60000000000) ∧
    (let r : Reel := { recs := [(0, some rec1)], seals := [(511, some seal1)] };
      r.seals.get none 511 = some seal1 ∧ seal1.sig = none ∧ r.recs.get none (seal1.seq % reelSlots) = some rec1) ∧
    (works).alarmClear = true ∧ (works cfg1 (mssWith (fun m => { m with meshOpen := true }))).alarmClear = false ∧
    (works).keys.alarm = false ∧ 0 + 60000000000 ≤ (60000000000 : Nat) ∧
    (∀ x ∈ [(1, [15]), (3, [20]), (3, [100]), (4, [1, 0xFF, 1]), (5, [10, 0, 0, 1, 32])], (setBody x.1 x.2).length = 12) ∧
    setZero (setBody 1 [15]) 5 = true ∧ (works).absent 15 = false ∧ setZero (setBody 3 [100]) 5 = true ∧
    leAt (setBody 3 [20]) 4 1 = 20 ∧ setZero (setBody 4 [1, 0xFF, 1]) 7 = true ∧ leAt (setBody 4 [1, 0xFF, 1]) 5 2 = 511 ∧
    halfOfThread 511 = Half.ofBit 1 ∧ setZero (setBody 5 [10, 0, 0, 1, 32]) 9 = true ∧ leAt (setBody 5 [10, 0, 0, 1, 32]) 8 1 ≤ 32 ∧
    (works).elec.vin = true ∧
    (works cfg1 (mssWith (fun m => { m with set := { m.set with mgmtAddr := 0x0A000001 } }))).mss.set.mgmtAddr = 0x0A000001#32 := by
  decide +kernel

theorem wit_MssResetsAndPower : (∀ cmd ∈ [0x0020, 0x0021, 0x0022, 0x0023, 0x0080], (works).mssOpen .smbus cmd 7 [] = true) ∧
    (∀ l ∈ [[0, 15, 1, 0], [1, 15, 0, 0], [2, 0, 1, 0], [3, 0, 0, 0]],
      (works).mayReset .smbus l = true ∧ resetOperandsOk l = true) ∧
    (works).mayReset (.mctpPcie 0) [2, 0, 1, 0] = true ∧ (works).boot.state ≠ bsActivating ∧ (works).mp .west ≠ 0 ∧
    (works).mp .east ≠ 0 ∧ (works).boot.image = none ∧ (works).boot.act = none ∧ (works).mss.powered = true ∧
    ({ works with mss := {} } : Blk).mss.powered = false ∧ ({ works with mss := {} } : Blk).tooHot = false ∧
    ({ works with mss := { sens := [(36, { value := 760, valid := true })] } } : Blk).tooHot = true ∧
    ((starts 8).setBoot (fun o => { o with jig := true })).boot.jig = true ∧
    (∃ c, ((works).setBoot (fun o => { o with staged := some image1 })).activate = .ok c) ∧
    (∃ r, (works).activate = .error r) := by
  refine ⟨?_, ?_, ?_, ?_, ?_, ?_, ?_, ?_, ?_, ?_, ?_, ?_, ?_, ⟨_, rfl⟩, ⟨_, rfl⟩⟩ <;> decide +kernel

/-- Two ports up: the host of port 1 is no owner. -/
def twoUp (b : Blk) : Blk := { b with ports := [(0, upPort), (1, upPort)] }

theorem wit_MssRequests_refused : (works cfg1 twoUp).mssOpen (.mctpPcie 1) 0x0030 7 [] = true ∧
    ((works cfg1 twoUp).rank (.mctpPcie 1)).owns = false ∧ (works cfg1 twoUp).mayReset (.mctpPcie 1) [2, 0, 1, 0] = false ∧
    (works cfg1 twoUp).mssOpen (.mctpPcie 1) 0x0020 7 [2, 0, 1, 0] = true ∧
    (works).mayReset .smbus [0, 15] = true ∧ resetOperandsOk [3, 0, 0, 4] = false ∧ (works).rank (.mctpPcie 0) ≠ .platform ∧
    ({ works with elec := {} } : Blk).mssOpen .smbus 0x0001 7 [] = false ∧
    leAt (setBody 0 []) 0 1 = 0 ∧ leAt (setBody 2 [8]) 0 1 = 2 ∧ setZero (setBody 2 [8]) 5 = true ∧
    leAt [3, 0, 0, 1] 3 1 < 2 ∧ 2 ≤ leAt [3, 0, 0, 2] 3 1 ∧
    (works cfg1 (activates 1 [])).boot.state = bsActivating ∧ ({ works with boot := { state := 7, mpWest := 7 } } : Blk).mp .east = 0 ∧
    (works).boot.jig = false ∧ ({ works with boot := { state := 5, image := some image1 } } : Blk).retains = some image1 := by
  decide +kernel

theorem wit_MssFirmware : (∀ cmd ∈ [0x0050, 0x0051, 0x0052], (works).mssOpen .smbus cmd 7 [] = true) ∧
    (let l : List Byte := [0xFF, 0xFF, 0x7F, 0, 9];
      4 ≤ l.length ∧ l.length ≤ 4076 ∧ leAt l 0 4 + (l.length - 4) = 8388608) ∧
    (works).mss.fw.trial = none ∧ (works).switchFault = none ∧
    (works cfg1 (mssWith (fun m => { m with fw := { m.fw with validB := false } }))).switchFault = some 0x0110 ∧
    (let f : MssFw := { trial := some 0, running := true };
      f.trial = some 0 ∧ 0 + 60000000000 ≤ (60000000000 : Nat) ∧ f.up = true) ∧
    ({ up := false, trialNext := true, cause := 1 } : MssFw).nextBank = some true ∧
    ({ up := false } : MssFw).nextBank = some false := by
  decide +kernel

theorem wit_DebugOfThreads : (works).debugOpen .smbus = true ∧ ((works).rank .smbus).owns = true ∧
    ((works).thread 511).st ≠ .halted ∧ ((works).thread 511).st ≠ .waiting ∧
    (let b := works cfg1 (fun b => b.updThread 511 (fun x => { x with st := .halted, kept := .running, pc := BitVec.ofNat 64 fwBase }));
      (b.thread 511).st = .halted ∧ (b.thread 511).kept ≠ .waiting ∧ dbgReadable .pc = true ∧
      (b.updMssPort .smbus (fun p => { p with rest := [] })).fetchCause 511 (addr48 (b.thread 511).pc) = none ∧
      b.modeNow (511 / 8) = false ∧ b.bridgeHolds 511 (decodePol 0x18000000) = false) ∧
    (let b := works cfg1 (fun b => (b.updThread 511 (fun x => { x with st := .halted, kept := .running })).updCore 63 (fun c => { c with pavane := true }));
      ¬ (b.modeNow (511 / 8) = false ∨ b.inSlot 511 = true)) ∧
    (let b := works cfg1 (fun b => b.updThread 511 (fun x => { x with st := .halted, kept := .waiting }));
      (b.thread 511).kept = .waiting ∧ b.waitEnds 511 = false) ∧
    (let b := works cfg1 (fun b => b.updThread 511 (fun x => { x with
        st := .halted, kept := .waiting, wt := { x.wt with evmask := BitVec.allOnes 58, latched := BitVec.ofNat 58 (2 ^ 47) } }));
      (b.updThread 511 (fun x => { x with st := .waiting })).waitEnds 511 = true) ∧
    ({ works with elec := {} } : Blk).debugOpen .smbus = false ∧ (works cfg1 twoUp).debugOpen (.mctpPcie 1) = true ∧
    ((works cfg1 twoUp).rank (.mctpPcie 1)).owns = false ∧ dbgReadable (.sysreg 0x060) = false ∧ dbgWritable (.sysreg 0x010) = false ∧
    dbgWritable (.sysreg 0x002) = true := by
  decide +kernel

/-- A transport packet in an IPv4 frame: transport opcode, bytes of its header by offset, payload. -/
def rmtPacket (op : Nat) (l : List (Nat × Nat)) (payload : List Byte) : Packet := {
  packet1 (BitVec.ofNat 1024 (2 ^ 143 + 2 ^ 124)) with
  frame := 0x45 :: List.replicate 23 0 ++ bytesBE 2 (56 + payload.length) ++ [0, 0] ++
    (List.range 48).map (fun i => BitVec.ofNat 8 (((((0, 0x10) : Nat × Nat) :: (1, op) :: (7, 9) :: l).find? (·.1 == i)).map (·.2) |>.getD 0)) ++
    payload }
/-- It stands at the head of the West engine's queue. -/
def engineHas (p : Packet) (b : Blk) : Blk := { b with rmt := { b.rmt with inWest := [p] } }

/-- QP 9 of instance 1, connected and enabled; window 65,535 of 32 bytes for it; WQ 3 is its receive queue. -/
def conn1 : Conn := { ipv6 := false, remoteQpn := 0, paths := 1, remoteIp := 0, mtu := 1024, dscp := 0, tc := 0, localIp := 0 }
def tune1 : Tune := { rtoUs := 20, retryLimit := 2, ccProfile := 0, msgTimeoutMs := 1 }
def cfgR : Cfg := { cfg1 with
  qps := [(9, { life := .enabled, inst := 1, maxOut := 1, conn := some conn1, tune := tune1, recvWq := 3 })],
  wins := [(65536 + 65535, { life := .enabled, base := 0, length := 32, access := 7, qpn := 9 })],
  wqs := [(67, { life := .enabled, kind := 4, log2 := 4 })], cqs := [(64, { life := .enabled, log2 := 4 })],
  trigs := [(5, { life := .enabled, inst := 1 })] }

/-- A message of QP 9 that is outstanding. -/
def msg1 (op : Nat) : OutMsg := {
  msn := 0, inst := 1, wq := 3, idx := 0, epoch := 1, op := op, localAddr := 0, remoteAddr := 0, rkey := 0, total := 8, imm := 0,
  op0 := 0, op1 := 0, solicited := false, mtu := 1024, tune := tune1 }
def qp9 (q : Qp) (b : Blk) : Blk := { b with rmt := { b.rmt with qps := [(9, q)] } }

/-- A WQ of instance 1 with one entry that is next to start. -/
def wqOf (e : Entry) (b : Blk) : Blk := { b with wqs := [(67, { fetched := [e] })] }
def cfgK (kind : BitVec 4) : Cfg := { cfgR with wqs := [(67, { life := .enabled, kind := kind, log2 := 4 })] }
def plain (l : List (Nat × Nat)) : Entry := { idx := 0, raw := entry l, epoch := 1, gen := 0 }
def write1 : Entry := plain [(0, 0x10), (4, 9), (24, 8)]
/-- A triggered request with a threshold. -/
def trig1 (n : Nat) : Entry := plain [(0, 0x10), (1, 8), (2, 5), (4, 9), (24, 8), (40, n)]

theorem wit_WorkRequests :
    (∀ k ∈ [1, 2, 3, 4], ((works (cfgK (BitVec.ofNat 4 k))).cfg.wq 1 3).kind.toNat = k) ∧
    ((works (cfgK 3) (wqOf write1)).wq 1 3).nextStart = some write1 ∧
    (works (cfgK 3) (wqOf write1)).wrCheck 1 3 write1.raw 1 = 0 ∧ (works (cfgK 3)).rmt.incs = [] ∧
    rsTriggered write1.raw = false ∧ weOp write1.raw = 0x10 ∧ rsTriggered (trig1 0).raw = true ∧
    (∀ n ∈ [0, 1], (works (cfgK 3) (wqOf (trig1 n))).wrCheck 1 3 (trig1 n).raw 1 = 0) ∧ (works (cfgK 3)).rmt.posted = [] ∧
    (works (cfgK 3)).trigOn (rsTrig (trig1 0).raw) = true ∧
    ((works (cfgK 3)).trig (rsTrig (trig1 1).raw)).value < rsThreshold (trig1 1).raw ∧
    rsThreshold (trig1 0).raw ≤ ((works (cfgK 3)).trig (rsTrig (trig1 0).raw)).value ∧
    (((works (cfgK 3)).cfgOf ((works (cfgK 3)).epochOfHalf .west)).qp 9).life = .enabled ∧
    ((works (cfgK 3)).qp 9).stopped = false ∧
    (let q : Qp := { sendList := [(1, 3, 0, 1)], paths := [(0, { cwnd := 4096 })] };
      q.out = [] ∧ q.newPath conn1.paths 8 ≠ none ∧ q.newPath conn1.paths (16 * 1024) ≠ none ∧ 0 < (((works cfgR).cfgOf 1).qp 9).maxOut) ∧
    ((works (cfgK 3) (wqOf write1)).wq 1 3).entry 0 = some write1 ∧ rsLen write1.raw ≠ 0 ∧
    (let r := entry [(0, 0x12), (4, 9), (25, 64)]
     weOp r = 0x12 ∧ rsLen r = 16 * conn1.mtu ∧ 0 < conn1.mtu ∧
       ((cutUnits 0x12 (rsLen r) 1024 0).head?.map (·.len)).getD 0 = 16 * 1024) := by
  decide +kernel

theorem wit_AnswersAndTimers :
    (∀ x ∈ [(0x10, [(2, 4)], [], 0x10), (0x11, [(43, 1)], [], 0x10), (0x11, [(43, 5)], [], 0x10), (5, [(39, 8)], List.replicate 8 1, 0x12),
        (8, [(39, 8)], List.replicate 8 1, 0x15)],
      ((works cfgR (fun b => qp9 { out := [msg1 x.2.2.2] } (engineHas (rmtPacket x.1 x.2.1 x.2.2.1) b))).rmtTake .west x.1).any
        (fun r => decide (r.1.opcode = x.1 ∧ r.1.version = 1 ∧ r.1.rsv = false ∧ r.1.destQpn = 9 ∧ r.1.msn = 0 ∧
          r.1.formOk 1024 = true ∧ answerFits x.2.2.2 x.1 = true ∧ r.2.instCan 1 = true ∧ r.1.payload = x.2.2.1)) = true) ∧
    (((works cfgR (engineHas (rmtPacket 0x10 [(2, 4)] []))).rmtTake .west 0x10).map (·.1.done)) = some true ∧
    (∀ k ∈ [1, 5], (((works cfgR (engineHas (rmtPacket 0x11 [(43, k)] []))).rmtTake .west 0x11).map (·.1.aux % 256)) = some k) ∧
    wireStatus 1 = some 0x0203 ∧ (∀ z ∈ (msg1 0x10).units, z.attempts < (msg1 0x10).tune.retryLimit) ∧
    (let u : TUnit := { off := 0, len := 8, path := 0, attempts := 1, since := 0, order := 0, step := 0, flying := 8 }
     let m : OutMsg := { msg1 0x10 with units := [u] }
     let q : Qp := { out := [m] }
     q.msg 0 = some m ∧ m.total ≠ 0 ∧ m.units.find? (fun z => z.off == 0) = some u ∧ u.since + unitTimeout m.tune q u ≤ 40000 ∧
       u.attempts < m.tune.retryLimit) ∧
    ({ out := [{ msg1 0x10 with holdTo := some 0 }] } : Qp).msg 0 = some { msg1 0x10 with holdTo := some 0 } ∧
    ({ st := .failed } : Path).failedAt + 1000000 ≤ 1000000 ∧
    (let k : Tracker := { msn := 0, op := 1, epoch := 1, inst := 1, win := none, addr := 0, rkey := 0, total := 8, imm := 0,
                          solicited := false, born := 0 }
     ({ trackers := [k] } : Qp).tracker 0 = some k ∧
       k.born + (tuneOf (((works cfgR).cfgOf k.epoch).qp 9).tune).msgTimeoutMs * 1000000 ≤ 1000000) := by
  decide +kernel

/-- A request packet of eight bytes, or of no payload, as each opcode has it. -/
def req1 (op : Nat) : Packet :=
  if op = 4 then rmtPacket 4 [(39, 8), (43, 8)] []
  else if op = 6 ∨ op = 7 then rmtPacket op [(39, 8)] (List.replicate 16 0)
  else rmtPacket op [(39, 8)] (List.replicate 8 1)
/-- The receive queue of QP 9 holds one buffer of eight bytes. -/
def buffer1 : Entry := { plain [(24, 8)] with st := .started }

theorem wit_RequestsAtTheResponder : ∀ op ∈ [1, 2, 3, 4, 6, 7],
    ((works cfgR (fun b => wqOf buffer1 (engineHas (req1 op) b))).rmtTake .west op).any (fun r =>
      let q := (r.2.cfgOf r.1.epoch).qp r.1.destQpn
      let d := (r.2.classify 9 r.1.msn).2
      decide (r.1.opcode = op ∧ r.1.destQpn = 9 ∧ q.conn = some conn1 ∧ q.life = .enabled ∧ r.1.formOk conn1.mtu = true ∧
        (r.2.classify 9 r.1.msn).1 = .at .opened ∧ (d.qp 9).tracker r.1.msn = none ∧ d.cfgOf r.1.epoch = r.2.cfgOf r.1.epoch ∧
        (op ≠ 3 → d.admission r.1 = .pass (some 65535) none ∧ ((r.2.cfgOf r.1.epoch).win 1 65535).devmem = false) ∧
        (op = 3 → d.admission r.1 = .pass none (some (3, 0)) ∧ (d.wq 1 3).entry 0 = some buffer1) ∧
        (op < 4 → r.1.payload ≠ [] ∧ r.1.payload.length = r.1.total))) = true := by
  decide +kernel

/-- What a request of QP 9 meets at the West engine when the QP is `q` and the configuration `c`. -/
def meets (c : Cfg) (q : Qp) (f : Blk → Blk) (op : Nat) (p : RmtPkt → Blk → Machine.Class × Blk → Bool) : Bool :=
  ((works c (fun b => f (qp9 q (engineHas (req1 op) b)))).rmtTake .west op).any (fun r => p r.1 r.2 (r.2.classify 9 r.1.msn))

/-- A tracker of the message of `req1 1`, none of whose bytes has come. -/
def tracker1 : Tracker := { msn := 0, op := 1, epoch := 1, inst := 1, win := some 65535, addr := 0, rkey := 0x10000, total := 8, imm := 0,
                            solicited := false, born := 0 }

theorem wit_RequestsAtTheResponder_others :
    meets cfgR {} id 3 (fun x b r => decide ((b.cfgOf x.epoch).qp 9 = cfgR.qp 9 ∧ r.1 = .at .opened ∧ r.2.admission x = .rnr)) = true ∧
    meets cfgR { head := 0, states := [(0, .done)] } id 1 (fun _ _ r => decide (r.1 = .at .done)) = true ∧
    meets cfgR { head := 0, states := [(0, .refused 3)] } id 1 (fun _ _ r => decide (r.1 = .at (.refused 3))) = true ∧
    meets { cfgR with wins := [] } {} id 1 (fun x _ r => decide (r.1 = .at .opened ∧ ∃ k ∈ List.range 20, r.2.admission x = .final k)) = true ∧
    meets cfgR {} (fun b => { b with ports := [(0, { upPort with f1 := { openFn with busMaster := false } })] }) 1
      (fun x _ r => decide (r.1 = .at .opened ∧ r.2.admission x = .held)) = true ∧
    meets { cfgR with qps := [] } {} id 1 (fun x b _ => decide (((b.cfgOf x.epoch).qp 9).life = .absent)) = true ∧
    ((works cfgR (engineHas (rmtPacket 0x10 [] []))).rmtTake .west 1) = none ∧ isRequest 0x10 = false ∧
    meets cfgR { head := 0, states := [(0, .opened)], trackers := [tracker1] } id 1 (fun x b r => decide ((r.2.qp 9).tracker x.msn = some tracker1 ∧
      tracker1.op = x.opcode ∧ tracker1.addr = x.remoteAddr ∧ tracker1.total = x.total ∧ r.2.instCan 1 = true ∧
      (b.judgedBy x).epoch = 1 ∧ tracker1.bits.contains 0 = false)) = true := by
  decide +kernel

theorem wit_StepRunsFrontCommand : ({ State.reset with pending := [.mssReturn] } : State).pending = .mssReturn :: [] ∧
    State.reset.pending = [] ∧ State.reset.blk.clk.on = false ∧ (works).clk.on = true ∧ (works).paced = [] := by
  decide +kernel

/-- The first hypothesis of StepKeepsSound is met by `works` (wit_works_sound); its step from there is a next state. -/
theorem wit_StepKeepsSound : ∃ t, step ({ blk := works } : State) = .next t := ⟨_, rfl⟩

theorem wit_PolwardEncoding : ∃ w : W32, ∃ i : Pol, decodePol w = some i ∧ i.wf = true := by
  refine ⟨0x18000000, (decodePol 0x18000000).get (by decide +kernel), by simp, by decide +kernel⟩

end Sys2Proof.Tests
end

section
/-! SUPPORT. Register accesses (R3 to R6): staging latches, what a write does by what the gate answers, improper accesses,
low-word reads; and the proof of the statement on register access rules. -/

namespace Sys2Proof.Machine
open Sys2Proof

/-! Staging latches (R5). -/

/-- Leaving one pair out of a list of latches leaves every other pair's latch. -/
theorem find?_dropLatch_other (l : List ((Who × Reg) × W32)) {k q : Who × Reg} (h : q ≠ k) :
    (dropLatch l k).find? (fun e => e.1 == q) = l.find? (fun e => e.1 == q) := by
  unfold dropLatch
  rw [List.find?_filter]
  congr 1
  funext e
  by_cases he : e.1 = q
  · simp [he, h]
  · simp [he]

/-- No latch of a pair that was left out is found. -/
theorem find?_dropLatch_same (l : List ((Who × Reg) × W32)) (k : Who × Reg) :
    (dropLatch l k).find? (fun e => e.1 == k) = none := by
  unfold dropLatch
  rw [List.find?_filter]
  simp

theorem Blk.staged_unstage_same (b : Blk) (w : Who) (r : Reg) : (b.unstage w r).staged w r = 0 := by
  unfold Blk.unstage Blk.staged
  rw [find?_dropLatch_same]

theorem Blk.staged_congr {b c : Blk} (h : c.stg = b.stg) (w : Who) (r : Reg) : c.staged w r = b.staged w r := by
  unfold Blk.staged
  rw [h]

/-- The block after a high-word write: one latch holds the word. -/
theorem Blk.partWrite_high_staged (b : Blk) (w : Who) (r : Reg) (v : W64) :
    (b.partWrite w r .high v).staged w r = v.extractLsb' 0 32 := by
  simp [Blk.partWrite, Blk.staged]

theorem Blk.partWrite_high_staged_other (b : Blk) {w w' : Who} {r r' : Reg} (v : W64) (h : (w', r') ≠ (w, r)) :
    (b.partWrite w r .high v).staged w' r' = b.staged w' r' := by
  have hk : ((w, r) == (w', r')) = false := beq_eq_false_iff_ne.2 (Ne.symm h)
  simp only [Blk.partWrite, Blk.staged, List.find?_cons, hk, find?_dropLatch_other _ h]

/-- The low word of a written 64-bit value. -/
theorem extractLsb'_setWidth_low (v : W32) : (v.setWidth 64).extractLsb' 0 32 = v := by
  ext k hk
  simp [hk, show k < 64 by omega]

/-- A low word under a staged high word is one 64-bit value. -/
theorem word64_low_of_staged (hi lo : W32) :
    word64 (hi.setWidth 64 <<< 32) false lo = BitVec.ofNat 64 (hi.toNat * 2 ^ 32 + lo.toNat) := by
  have h1 := hi.isLt
  have h2 := lo.isLt
  have hx : (hi.setWidth 64 <<< 32).extractLsb' 32 32 = hi := by
    ext k hk
    simp [show 32 + k < 64 by omega, BitVec.getLsbD_eq_getElem hk]
  have hs : (hi.toNat * 2 ^ 32) % 2 ^ 64 = hi.toNat * 2 ^ 32 := Nat.mod_eq_of_lt (by omega)
  unfold word64
  rw [if_neg (by decide), hx]
  apply BitVec.eq_of_toNat_eq
  rw [BitVec.toNat_or, BitVec.toNat_shiftLeft, BitVec.toNat_setWidth_of_le (by decide), BitVec.toNat_setWidth_of_le (by decide),
    Nat.shiftLeft_eq, hs, ← Nat.shiftLeft_eq, ← Nat.shiftLeft_add_eq_or_of_lt h2, Nat.shiftLeft_eq, BitVec.toNat_ofNat,
    Nat.mod_eq_of_lt (by omega)]

/-! What a write command does, by what the gate answers. -/

variable {b : Blk} {w : Who} {r : Reg} {v : W64}

theorem Blk.writeBy_all_of_pass (h : b.gate w r = .pass) : b.writeBy w r .all v = (b.unstage w r).regWrite w r v := by
  unfold Blk.writeBy
  rw [if_neg (by simp), if_pos h]
  rfl

theorem Blk.writeBy_of_pass {p : Part} (hw : r.wide = true) (h : b.gate w r = .pass) :
    b.writeBy w r p v = b.partWrite w r p v := by
  unfold Blk.writeBy
  rw [if_neg (by simp [hw]), if_pos h]

theorem Blk.writeBy_of_gate_none {p : Part} (h : b.gate w r = .none) : b.writeBy w r p v = b := by
  unfold Blk.writeBy
  rw [h, if_neg (by decide : ¬ Gate.none = Gate.pass)]
  split <;> rfl

theorem Blk.gate_dev_of_thread {t : Tid} (ho : r.ok = true) (hp : r.place = .dev) : b.gate (.thread t) r = .pass := by
  unfold Blk.gate
  rw [hp, ho]
  rfl

theorem Blk.gate_dev_of_not_thread (hw : ∀ t, w ≠ .thread t) (hp : r.place = .dev) : b.gate w r = .none := by
  unfold Blk.gate
  rw [hp]
  cases w with
  | thread t => exact absurd rfl (hw t)
  | f0 h => simp
  | f1 h => simp
  | mss => simp

/-! An improper access (R3). -/

theorem Blk.oddAccess_write_of_pass {off n : Nat} (h : b.gate w r = .pass) (hn : properAccess r off n = false) :
    b.oddAccess w r off n true = b := by
  simp [Blk.oddAccess, h, hn]

theorem Blk.oddAccess_read_of_pass {off n : Nat} (h : b.gate w r = .pass) (hn : properAccess r off n = false) :
    b.oddAccess w r off n false = b.emit (.readData w 0) := by
  simp [Blk.oddAccess, h, hn, Blk.deadRead]

/-! Reads by the low word (R4). -/

/-- The bits of a register that are not reserved read as the register holds them (R6). -/
theorem rsv64_and_not_mask (free : W64) (mask v : Nat) :
    rsv64 free mask v &&& ~~~(BitVec.ofNat 64 mask) = BitVec.ofNat 64 v &&& ~~~(BitVec.ofNat 64 mask) := by
  unfold rsv64
  ext i hi
  simp only [BitVec.getElem_and, BitVec.getElem_or, BitVec.getElem_not]
  cases (BitVec.ofNat 64 mask)[i] <;> simp

/-- A read of the whole register changes at most the count of free values drawn. -/
theorem Blk.regWhole_rest (b : Blk) (w : Who) (r : Reg) :
    (b.regWhole w r).1 = { b with fresh := (b.regWhole w r).1.fresh } := by
  unfold Blk.regWhole
  dsimp only
  split <;> rfl

/-- No register of 64 bits is TB_NSEC, whose read has a latch of its own (R328). -/
theorem Reg.ne_tbNsec_of_wide (h : r.wide = true) : r ≠ .tbNsec := by
  rintro rfl
  exact absurd h (by decide)

/-- A low-word read that the register answers: the data sent, and the latch that takes the high word. -/
theorem Blk.lowRead_of_pass (hw : r.wide = true) (h : b.gate w r = .pass) :
    b.lowRead w r = Blk.emit { (b.regWhole w r).1 with
        hlat := ((w, r), (b.regWhole w r).2.extractLsb' 32 32) :: dropLatch (b.regWhole w r).1.hlat (w, r) }
      (.readData w (((b.regWhole w r).2.extractLsb' 0 32).setWidth 64)) := by
  simp [Blk.lowRead, hw, h, Blk.regPart, Reg.ne_tbNsec_of_wide hw]

/-! The commands that access a register. -/

/-- A meaning that answers a known block. -/
theorem State.run_of_eq {s : State} {f : Blk → Blk} {c : Blk} (h : f s.blk = c) : s.run f = .next { s with blk := c } := by
  rw [← h]
  rfl

theorem exec_misalignedRegisterAccess_write {s : State} {who : Who} {r : Reg} {off : Fin 8} {n : Fin 9}
    (h : s.blk.gate who r = .pass) (hn : properAccess r off.val n.val = false) :
    exec (.misalignedRegisterAccess who r off n true) s = .next s := by
  show s.run (fun b => b.oddAccess who r off.val n.val true) = .next s
  exact State.run_of_eq (Blk.oddAccess_write_of_pass h hn)

theorem exec_misalignedRegisterAccess_read {s : State} {who : Who} {r : Reg} {off : Fin 8} {n : Fin 9}
    (h : s.blk.gate who r = .pass) (hn : properAccess r off.val n.val = false) :
    exec (.misalignedRegisterAccess who r off n false) s = .next { s with blk := s.blk.emit (.readData who 0) } := by
  show s.run (fun b => b.oddAccess who r off.val n.val false) = _
  exact State.run_of_eq (Blk.oddAccess_read_of_pass h hn)

theorem exec_registerWrite {s : State} {who : Who} {r : Reg} {v : W64} (h : s.blk.gate who r = .pass) :
    exec (.registerWrite who r v) s = .next { s with blk := (s.blk.unstage who r).regWrite who r v } := by
  show s.run (fun b => b.writeBy who r .all v) = _
  exact State.run_of_eq (Blk.writeBy_all_of_pass h)

theorem exec_highWordWrite {s : State} {who : Who} {r : Reg} {v : W32} (hw : r.wide = true) (h : s.blk.gate who r = .pass) :
    exec (.highWordWrite who r v) s = .next { s with blk := s.blk.partWrite who r .high (v.setWidth 64) } := by
  show s.run (fun b => b.writeBy who r .high (v.setWidth 64)) = _
  exact State.run_of_eq (Blk.writeBy_of_pass hw h)

/-- A low-word write is the write of the whole register with the staged word on top (R5). -/
theorem exec_lowWordWrite {s : State} {who : Who} {r : Reg} {v : W32} (hw : r.wide = true) (h : s.blk.gate who r = .pass) :
    exec (.lowWordWrite who r v) s =
      exec (.registerWrite who r (BitVec.ofNat 64 ((s.blk.staged who r).toNat * 2 ^ 32 + v.toNat))) s := by
  rw [exec_registerWrite h]
  show s.run (fun b => b.writeBy who r .low (v.setWidth 64)) = _
  refine State.run_of_eq ((Blk.writeBy_of_pass hw h).trans ?_)
  unfold Blk.partWrite
  dsimp only
  rw [extractLsb'_setWidth_low, word64_low_of_staged]

theorem exec_lowWordRead {s : State} {who : Who} {r : Reg} (hw : r.wide = true) (h : s.blk.gate who r = .pass) :
    ∃ (s' : State) (x : W64), exec (.lowWordRead who r) s = .next s' ∧
      x &&& ~~~(BitVec.ofNat 64 r.rsv) = BitVec.ofNat 64 (s.blk.regVal who r) &&& ~~~(BitVec.ofNat 64 r.rsv) ∧
      s'.blk.out = .readData who ((x.extractLsb' 0 32).setWidth 64) :: s.blk.out ∧
      s'.blk.hlat.find? (fun e => e.1 == (who, r)) = some ((who, r), x.extractLsb' 32 32) ∧
      s'.blk = { s.blk with out := s'.blk.out, hlat := s'.blk.hlat, pm := s'.blk.pm, fresh := s'.blk.fresh } := by
  refine ⟨{ s with blk := s.blk.lowRead who r }, (s.blk.regWhole who r).2, rfl, rsv64_and_not_mask _ _ _, ?_⟩
  have hr := s.blk.regWhole_rest who r
  rw [Blk.lowRead_of_pass hw h]
  generalize (s.blk.regWhole who r).1 = c at hr ⊢
  rw [hr]
  exact ⟨rfl, by simp, rfl⟩

/-! Fields as they are written: RW, RO, RW1C (R6). -/

theorem Blk.regWrite_errRoute (b : Blk) (w : Who) (v : W64) : b.regWrite w .errRoute v = { b with rel := { b.rel with
    rThread := v.extractLsb' 0 9, rUnit := v.extractLsb' 9 3, rEnable := v.getLsbD 12 } } := rfl

theorem Blk.regWrite_mono (b : Blk) (w : Who) (v : W64) : b.regWrite w .mono v = b := rfl

theorem Blk.regWrite_spdStatus_owner {b : Blk} {h : PortId} (ho : b.ownerPort = h.val) (v : W64) :
    b.regWrite (.f0 h) .spdStatus v = { b with spd := { b.spd with
      floorMiss := b.spd.floorMiss && !v.getLsbD 0, capUnmet := b.spd.capUnmet && !v.getLsbD 1 } } :=
  if_pos (beq_iff_eq.2 ho)

theorem Blk.regWrite_ctlWqBase (b : Blk) (w : Who) (h : Nat) (v : W64) : b.regWrite w (.ctlWqBase h) v =
    b.updPort h (fun p => if p.ctlWqEn then p else { p with ctlWqBase := v.extractLsb' 12 52 }) := rfl

/-- The base of a CTL queue takes the written bits while the queue is disabled and keeps its value while it is enabled. -/
theorem exec_registerWrite_ctlWqBase {s : State} {h : PortId} {v : W64} (hg : s.blk.gate (.f0 h) (.ctlWqBase h.val) = .pass) :
    ∃ s', exec (.registerWrite (.f0 h) (.ctlWqBase h.val) v) s = .next s' ∧
      s'.blk = { s.blk with stg := s'.blk.stg, ports := s'.blk.ports } ∧
      s'.blk.port h.val = { s.blk.port h.val with ctlWqBase :=
        if (s.blk.port h.val).ctlWqEn then (s.blk.port h.val).ctlWqBase else v.extractLsb' 12 52 } ∧
      ∀ k ≠ h.val, s'.blk.port k = s.blk.port k := by
  refine ⟨_, exec_registerWrite hg, ?_⟩
  dsimp only
  rw [Blk.regWrite_ctlWqBase]
  refine ⟨rfl, ?_, fun k hk => Blk.port_updPort_ne _ _ _ hk⟩
  rw [Blk.port_updPort]
  show (if (s.blk.port h.val).ctlWqEn then _ else _) = _
  split <;> rfl

theorem exec_registerWrite_errRoute {s : State} {who : Who} {v : W64} (hg : s.blk.gate who .errRoute = .pass) :
    ∃ s', exec (.registerWrite who .errRoute v) s = .next s' ∧
      s'.blk = { s.blk with stg := s'.blk.stg, rel := { s.blk.rel with
        rThread := v.extractLsb' 0 9, rUnit := v.extractLsb' 9 3, rEnable := v.getLsbD 12 } } := by
  refine ⟨_, exec_registerWrite hg, ?_⟩
  dsimp only
  rw [Blk.regWrite_errRoute]
  rfl

theorem exec_registerWrite_mono {s : State} {who : Who} {v : W64} (hg : s.blk.gate who .mono = .pass) :
    ∃ s', exec (.registerWrite who .mono v) s = .next s' ∧ s'.blk = { s.blk with stg := s'.blk.stg } := by
  refine ⟨_, exec_registerWrite hg, ?_⟩
  dsimp only
  rw [Blk.regWrite_mono]
  rfl

theorem exec_registerWrite_spdStatus {s : State} {h : PortId} {v : W64} (hg : s.blk.gate (.f0 h) .spdStatus = .pass)
    (ho : s.blk.ownerPort = h.val) :
    ∃ s', exec (.registerWrite (.f0 h) .spdStatus v) s = .next s' ∧
      s'.blk = { s.blk with stg := s'.blk.stg, spd := { s.blk.spd with
        floorMiss := s.blk.spd.floorMiss && !v.getLsbD 0, capUnmet := s.blk.spd.capUnmet && !v.getLsbD 1 } } := by
  refine ⟨_, exec_registerWrite hg, ?_⟩
  have ho' : (s.blk.unstage (.f0 h) .spdStatus).ownerPort = h.val := ho
  dsimp only
  rw [Blk.regWrite_spdStatus_owner ho']
  rfl

/-- Settles O16 (R3 to R6): each clause is what one access of a register that passes the gate answers. -/
theorem registerAccessRules : Obligations.RegisterAccessRules := by
  refine ⟨fun s who r off n v hg => ⟨fun hn => ?_, fun hw => ⟨?_, exec_lowWordWrite hw hg, ?_⟩,
      fun hw => exec_lowWordRead hw hg, ?_⟩,
    fun s who h v => ⟨exec_registerWrite_errRoute, exec_registerWrite_mono, exec_registerWrite_spdStatus,
      exec_registerWrite_ctlWqBase⟩⟩
  · exact ⟨exec_misalignedRegisterAccess_write hg hn, exec_misalignedRegisterAccess_read hg hn⟩
  · refine ⟨_, exec_highWordWrite hw hg, rfl, ?_, fun w q hne => Blk.partWrite_high_staged_other _ _ hne⟩
    exact (Blk.partWrite_high_staged _ _ _ _).trans (extractLsb'_setWidth_low v)
  · rintro rfl
    refine ⟨_, (exec_lowWordWrite hw hg).trans (exec_registerWrite hg), ?_⟩
    refine (Blk.staged_congr ?_ who .errRoute).trans (s.blk.staged_unstage_same who .errRoute)
    rw [Blk.regWrite_errRoute]
  · rintro rfl
    exact ⟨rfl, rfl⟩

end Sys2Proof.Machine
end

section
/-! SUPPORT. What the report of an event, and a change of a drive's slot with its events, leave alone (R122, R323). -/

namespace Sys2Proof.Machine
open Sys2Proof

/-! What the report of an event changes: interrupt state and event queue of a port, what is sent; and the threads that a
UNIT event wakes. -/

/-- The two blocks differ in the ports' own state, in what was sent and in the power states of links. -/
structure Blk.reports (b c : Blk) : Prop where
  rest : c = { b with ports := c.ports, out := c.out, pm := c.pm }

theorem Blk.reports_refl (b : Blk) : b.reports b := ⟨rfl⟩

theorem Blk.reports.trans {b c d : Blk} (h : b.reports c) (k : c.reports d) : b.reports d where
  rest := by conv => lhs; rw [k.rest, h.rest]

theorem Blk.reports_updPort (b : Blk) (h : Nat) (f : HostPort → HostPort) : b.reports (b.updPort h f) := ⟨rfl⟩

theorem Blk.reports_updFn (b : Blk) (h : Nat) (f1 : Bool) (f : Fn → Fn) : b.reports (b.updFn h f1 f) := b.reports_updPort h _

theorem Blk.reports_emit (b : Blk) (e : Emit) : b.reports (b.emit e) := ⟨rfl⟩

theorem Blk.reports_evalIntx (b : Blk) (h : Nat) (f1 : Bool) : b.reports (b.evalIntx h f1) := ⟨b.evalIntx_rest h f1⟩

theorem Blk.reports_msiSend (b : Blk) (h : Nat) (f1 : Bool) (v : Nat) : b.reports (b.msiSend h f1 v) := by
  unfold Blk.msiSend
  split
  · split
    · exact b.reports_refl
    · exact b.reports_emit _
  · split
    · exact b.reports_updFn _ _ _
    · exact b.reports_refl

theorem Blk.reports_eqMirror_f0 (b : Blk) (h : Nat) : b.reports (b.eqMirror (.f0 h)) := by
  unfold Blk.eqMirror
  dsimp only
  split
  · exact b.reports_emit (.bus h false _ _)
  · exact b.reports_refl

theorem Blk.reports_eqPut_f0 (b : Blk) (h : Nat) (ev : Ev) (m : Nat) : b.reports (b.eqPut (.f0 h) ev m) :=
  ((b.reports_emit _).trans (Blk.reports_updPort _ h _)).trans (Blk.reports_eqMirror_f0 _ h)

theorem Blk.reports_eqTake_f0 (b : Blk) (h : Nat) (ev : Ev) : b.reports (b.eqTake (.f0 h) ev) := by
  unfold Blk.eqTake
  dsimp only
  split
  · exact b.reports_updPort _ _
  · split
    · exact b.reports_updPort _ _
    · split
      · exact b.reports_updPort _ _
      · exact b.reports_eqPut_f0 _ _ _

/-- An event of an F0 EQ stays within host ports, whatever interrupt follows: the chain of a misaligned MSI-X address goes to
another F0 EQ (R73). -/
theorem Blk.reports_raise_f0 (fuel : Nat) (b : Blk) (h : Nat) (ev : Ev) : b.reports (Blk.raise fuel b (.f0 h) ev) := by
  induction fuel generalizing b h ev with
  | zero => exact b.reports_eqTake_f0 h ev
  | succ fuel ih =>
    have take := b.reports_eqTake_f0 h ev
    have sent := (take.trans (Blk.reports_msiSend _ h false ((b.eqTake (.f0 h) ev).eqVector (.f0 h)))).trans
      (Blk.reports_evalIntx _ h false)
    unfold Blk.raise
    dsimp only
    split
    · split
      · exact sent.trans (ih _ _ _)
      · exact sent
    · exact take.trans (Blk.reports_evalIntx _ _ _)

theorem Blk.reports_devEvent (b : Blk) (type index reason value detail : Nat) :
    b.reports (b.devEvent type index reason value detail) := b.reports_raise_f0 3 _ _

theorem Blk.evalWait_rest (b : Blk) (t : Nat) : b.evalWait t = { b with cores := (b.evalWait t).cores } := by
  unfold Blk.evalWait
  split
  · exact (b.wake_rest t).1
  · rfl

theorem Blk.unitEvent_rest (b : Blk) (t k : Nat) : b.unitEvent t k = { b with cores := (b.unitEvent t k).cores } := by
  unfold Blk.unitEvent Blk.latch
  exact (Blk.evalWait_rest _ t).trans rfl

/-! Slots of downstream ports (R323). -/

theorem Blk.dspEvent_rest (b : Blk) (d : Nat) : b.dspEvent d = { b with cores := (b.dspEvent d).cores } := by
  unfold Blk.dspEvent
  dsimp only
  split
  · exact b.unitEvent_rest _ _
  · rfl

theorem Blk.slotEvent_rest (b : Blk) (d : Nat) (rose : Bool) : b.slotEvent d rose = { b with
    cores := (b.slotEvent d rose).cores, ports := (b.slotEvent d rose).ports, out := (b.slotEvent d rose).out,
    pm := (b.slotEvent d rose).pm } := by
  unfold Blk.slotEvent
  split
  · have h := (b.reports_devEvent 0x0025 d 0 (b.dsport d).slotBits 0).rest
    generalize b.devEvent 0x0025 d 0 (b.dsport d).slotBits = c at h ⊢
    rw [c.dspEvent_rest, h]
  · rfl

/-- A change of a slot changes, beyond the slot, only what its events report. -/
theorem Blk.slotSet_rest (b : Blk) (d : Nat) (f : Dsp → Dsp) : b.slotSet d f = { b with
    dsp := (b.updDsp d f).dsp, cores := (b.slotSet d f).cores, ports := (b.slotSet d f).ports, out := (b.slotSet d f).out,
    pm := (b.slotSet d f).pm } := by
  unfold Blk.slotSet
  dsimp only
  rw [Blk.slotEvent_rest, Blk.slotEvent_rest, Blk.slotEvent_rest]
  rfl

@[simp] theorem Blk.dsport_slotSet (b : Blk) (d : Nat) (f : Dsp → Dsp) : (b.slotSet d f).dsport d = f (b.dsport d) := by
  rw [Blk.slotSet_rest]
  exact b.dsport_updDsp d f

theorem Blk.dsport_slotSet_ne (b : Blk) {d j : Nat} (f : Dsp → Dsp) (h : j ≠ d) : (b.slotSet d f).dsport j = b.dsport j := by
  rw [Blk.slotSet_rest]
  exact b.dsport_updDsp_ne d f h

theorem Blk.dsport_slotAct (b : Blk) (d : Nat) (clear : BitVec 3) (power attention led : Nat) :
    (b.slotAct d clear power attention led).dsport d =
      (fun x : Dsp => { x with attention := ledSet x.attention attention, powerLed := ledSet x.powerLed led })
        (({ b.dsport d with
          presenceChanged := (b.dsport d).presenceChanged && !clear.getLsbD 0, button := (b.dsport d).button && !clear.getLsbD 1,
          dllChanged := (b.dsport d).dllChanged && !clear.getLsbD 2 } : Dsp).setPower b.mono power) := by
  unfold Blk.slotAct
  dsimp only
  rw [Blk.dsport_slotSet, Blk.dsport_slotSet, Blk.dsport_slotSet]

theorem Blk.dsport_slotAct_ne (b : Blk) {d j : Nat} (clear : BitVec 3) (power attention led : Nat) (h : j ≠ d) :
    (b.slotAct d clear power attention led).dsport j = b.dsport j := by
  unfold Blk.slotAct
  dsimp only
  rw [Blk.dsport_slotSet_ne _ _ h, Blk.dsport_slotSet_ne _ _ h, Blk.dsport_slotSet_ne _ _ h]

/-- Indicator fields are two bits wide. -/
theorem ledSet_fieldNat (old : BitVec 2) (v : W64) (lo : Nat) :
    ledSet old (fieldNat v lo 2) = if fieldNat v lo 2 = 0 then old else BitVec.ofNat 2 (fieldNat v lo 2) := by
  have : fieldNat v lo 2 % 4 = fieldNat v lo 2 := by unfold fieldNat; omega
  unfold ledSet
  rw [this]

/-- Power is driven on in a slot that holds a drive and has no power yet, off in any (R323, R324). -/
theorem Dsp.setPower_eq (x : Dsp) (mono v : Nat) : x.setPower mono v =
    if v = 1 ∧ x.presence = true ∧ x.power ≠ 1 then { x with
      power := 1, pwren := true, clock := true, onAt := some mono, autoOff := false, ur := 0, errMsg := 0 }
    else if v = 2 then x.powerOff else x := by
  unfold Dsp.setPower Dsp.powerOn
  by_cases h1 : v = 1
  · subst h1
    by_cases hp : x.presence = true <;> by_cases h : x.power = 1 <;> simp [hp, h]
  · simp [h1]

theorem Dsp.setPower_leds (x : Dsp) (mono v : Nat) :
    (x.setPower mono v).attention = x.attention ∧ (x.setPower mono v).powerLed = x.powerLed := by
  rw [Dsp.setPower_eq]
  split
  · exact ⟨rfl, rfl⟩
  · split <;> exact ⟨rfl, rfl⟩

end Sys2Proof.Machine
end

section
/-! SUPPORT. Registers of pipelines, drives and lanes as a thread writes them, and TRIG_ADD (R287, R301, R304, R320, R323, R336,
R409); and the proof of the statement on device registers. -/

namespace Sys2Proof.Machine
open Sys2Proof

/-! A register of device space alone: what a thread's write does, and that no other writer reaches it (R193). -/

theorem run_devWrite_of_thread {s : State} {th : Tid} {r : Reg} {v : W64} (ho : r.ok = true) (hp : r.place = .dev) :
    s.run (fun b => b.writeBy (.thread th) r .all v) =
      .next { s with blk := (s.blk.unstage (.thread th) r).regWrite (.thread th) r v } :=
  State.run_of_eq (Blk.writeBy_all_of_pass (Blk.gate_dev_of_thread ho hp))

theorem run_devWrite_of_not_thread {s : State} {w : Who} {r : Reg} {v : W64} (hw : ∀ t, w ≠ .thread t) (hp : r.place = .dev) :
    s.run (fun b => b.writeBy w r .all v) = .next s :=
  State.run_of_eq (Blk.writeBy_of_gate_none (Blk.gate_dev_of_not_thread hw hp))

/-- A write that changes the pipeline `p` by `f` changes nothing else but the writer's staging latch. -/
theorem run_pipeWrite {s : State} {th : Tid} {p : PipeId} {r : Reg} {v : W64} {f : Pipe → Pipe} (ho : r.ok = true)
    (hp : r.place = .dev) (hr : ∀ b : Blk, b.regWrite (.thread th) r v = b.updPipe p.val f) {z : Pipe}
    (hz : f (s.blk.pipe p.val) = z) :
    ∃ t, s.run (fun b => b.writeBy (.thread th) r .all v) = .next t ∧
      t.blk = { s.blk with pipes := t.blk.pipes, stg := t.blk.stg } ∧ t.blk.pipe p.val = z ∧
      ∀ j ≠ p.val, t.blk.pipe j = s.blk.pipe j := by
  refine ⟨_, run_devWrite_of_thread ho hp, ?_⟩
  dsimp only
  rw [hr, Blk.pipe_updPipe]
  exact ⟨rfl, hz, fun j hj => Blk.pipe_updPipe_ne _ _ _ hj⟩

theorem LearnUnit.flushWrite_idle {u : LearnUnit} (h : u.flGo = false) (v : W64) : u.flushWrite v = { u with
    flBd := v.extractLsb' 0 14, flByBd := v.getLsbD 14, flPort := v.extractLsb' 16 7, flByPort := v.getLsbD 23,
    flGo := v.getLsbD 24 } := by
  simp [LearnUnit.flushWrite, h]

theorem LearnUnit.flushWrite_running {u : LearnUnit} (h : u.flGo = true) (v : W64) : u.flushWrite v = u := by
  simp [LearnUnit.flushWrite, h]

theorem Pipe.puntCiWrite_eq (x : Pipe) (v : W32) : x.puntCiWrite v = { x with
    puntCi := if (v - x.puntCi).toNat ≤ (x.puntPi - x.puntCi).toNat then v else x.puntCi } := by
  unfold Pipe.puntCiWrite
  split <;> rfl

theorem Blk.dsport_dspSlotWrite (b : Blk) (d : Nat) (v : W64) :
    let y := b.dsport d
    let y1 := { y with
      presenceChanged := y.presenceChanged && !v.getLsbD 1, button := y.button && !v.getLsbD 2,
      dllChanged := y.dllChanged && !v.getLsbD 3 }
    let y2 := if fieldNat v 4 2 = 1 ∧ y.presence = true ∧ y.power ≠ 1 then { y1 with
        power := 1, pwren := true, clock := true, onAt := some b.mono, autoOff := false, ur := 0, errMsg := 0 }
      else if fieldNat v 4 2 = 2 then { y1 with
        power := 2, perst := true, clock := false, pwren := false, onAt := none, dllActive := false,
        dllChanged := y1.dllChanged || y.dllActive, speed := 0, width := 0, training := false, retrain := false }
      else y1
    (b.dspSlotWrite d v).dsport d = { y2 with
      attention := if fieldNat v 6 2 = 0 then y.attention else BitVec.ofNat 2 (fieldNat v 6 2),
      powerLed := if fieldNat v 8 2 = 0 then y.powerLed else BitVec.ofNat 2 (fieldNat v 8 2) } := by
  dsimp only
  have e : ∀ k < 3, (v.extractLsb' 1 3).getLsbD k = v.getLsbD (1 + k) := fun k hk => by simp [hk]
  unfold Blk.dspSlotWrite
  rw [Blk.dsport_slotAct]
  dsimp only
  rw [(Dsp.setPower_leds _ _ _).1, (Dsp.setPower_leds _ _ _).2, ledSet_fieldNat, ledSet_fieldNat, Dsp.setPower_eq,
    e 0 (by decide), e 1 (by decide), e 2 (by decide)]
  rfl

/-- A write of a register of device space that leaves a block `c`, where drive `d` is `z` and the others are as before. -/
theorem run_driveWrite {s : State} {th : Tid} {d : DspId} {r : Reg} {v : W64} (ho : r.ok = true) (hp : r.place = .dev)
    {c : Blk} {z : Dsp} (hc : (s.blk.unstage (.thread th) r).regWrite (.thread th) r v = c) (hz : c.dsport d.val = z)
    (hne : ∀ j ≠ d.val, c.dsport j = s.blk.dsport j) :
    ∃ t, s.run (fun b => b.writeBy (.thread th) r .all v) = .next t ∧ t.blk.dsport d.val = z ∧
      ∀ j ≠ d.val, t.blk.dsport j = s.blk.dsport j := by
  subst hc
  exact ⟨_, run_devWrite_of_thread ho hp, hz, hne⟩

/-! Trigger counters (R409, R413). -/

theorem sat32_eq_min (x n : Nat) : sat32 x n = min 0xFFFFFFFF (x + n) := Nat.min_comm _ _

theorem Blk.ownTrig_iff {b : Blk} {i k : Nat} :
    b.ownTrig i k = true ↔ (b.cfg.trig k).life ≠ .absent ∧ (b.cfg.trig k).inst = i := by
  simp [Blk.ownTrig]

/-- With no request posted, a counter fires nothing. -/
theorem Blk.fire_of_posted_nil {b : Blk} (h : b.rmt.posted = []) (k : Nat) : b.fire k = b := by
  unfold Blk.fire
  split
  · rfl
  · rw [h]
    show { b with rmt := { b.rmt with posted := [] } } = b
    rw [← h]

/-- With no increment due, nothing is settled. -/
theorem Blk.settleIncs_of_incs_nil {b : Blk} (h : b.rmt.incs = []) : b.settleIncs = b := by
  unfold Blk.settleIncs Blk.applyIncs
  rw [h]

theorem Blk.trigInc_of_enabled {b : Blk} {k : Nat} (hk : (b.cfg.trig k).life = .enabled) (h : b.rmt.posted = []) (n : Nat) :
    b.trigInc k n = b.updTrig k (fun t => { t with value := sat32 t.value n, increments := sat64 t.increments 1 }) := by
  have on : b.trigOn k = true := beq_iff_eq.2 hk
  unfold Blk.trigInc
  rw [if_pos on]
  exact Blk.fire_of_posted_nil (b := b.updTrig k _) h k

theorem Blk.trigInc_of_not_enabled {b : Blk} {k : Nat} (ha : (b.cfg.trig k).life ≠ .absent)
    (hk : (b.cfg.trig k).life ≠ .enabled) (n : Nat) :
    b.trigInc k n = b.updTrig k (fun t => { t with discarded := sat64 t.discarded 1 }) := by
  have off : ¬ b.trigOn k = true := fun h => hk (beq_iff_eq.1 h)
  unfold Blk.trigInc
  rw [if_neg off, if_neg ha]

section
variable {b : Blk} {i k m : Nat} {v : W32} (hk : fieldNat v 0 16 = k) (hm : fieldNat v 16 16 = m)
include hk hm

/-- A write of TRIG_ADD that names no counter of the page's owner, or adds 0, has no effect. -/
theorem Blk.trigAddWrite_of_not_own (h : ¬ ((b.cfg.trig k).life ≠ .absent ∧ (b.cfg.trig k).inst = i) ∨ m = 0) :
    b.trigAddWrite i v = b := by
  subst hk hm
  exact if_neg (fun ⟨ho, hn⟩ => h.elim (fun h => h (Blk.ownTrig_iff.1 ho)) hn)

/-- A write of TRIG_ADD to a counter of the page's owner, with no other increment due, is one increment. -/
theorem Blk.trigAddWrite_of_own (ho : (b.cfg.trig k).life ≠ .absent ∧ (b.cfg.trig k).inst = i) (hn : m ≠ 0)
    {f : Trig → Trig} (hf : b.trigInc k m = b.updTrig k f) (h : b.rmt.incs = []) : b.trigAddWrite i v = b.updTrig k f := by
  subst hk hm
  unfold Blk.trigAddWrite
  dsimp only
  rw [if_pos ⟨Blk.ownTrig_iff.2 ho, hn⟩, hf]
  exact Blk.settleIncs_of_incs_nil h

end

theorem exec_trigAdd {s : State} {h : PortId} {inst : InstId} {n : W32}
    (hg : s.blk.gate (.f1 h) (.trigAdd inst.val) = .pass) : exec (.trigAdd h inst n) s =
      .next { s with blk := (s.blk.unstage (.f1 h) (.trigAdd inst.val)).trigAddWrite inst.val n } := by
  show s.run (fun b => b.writeBy (.f1 h) (.trigAdd inst.val) .all (n.setWidth 64)) = _
  refine (State.run_of_eq (Blk.writeBy_all_of_pass hg)).trans ?_
  show Host.Outcome.next { s with blk := Blk.trigAddWrite _ _ ((n.setWidth 64).extractLsb' 0 32) } = _
  rw [extractLsb'_setWidth_low]

section
variable {s : State} {h : PortId} {inst : InstId} {n : W32} {k m : Nat}
  (hg : s.blk.gate (.f1 h) (.trigAdd inst.val) = .pass) (hk : fieldNat n 0 16 = k) (hm : fieldNat n 16 16 = m)
include hg hk hm

theorem exec_trigAdd_of_not_own
    (ho : ¬ ((s.blk.cfg.trig k).life ≠ .absent ∧ (s.blk.cfg.trig k).inst = inst.val) ∨ m = 0) :
    ∃ t, exec (.trigAdd h inst n) s = .next t ∧ t.blk = { s.blk with rmt := t.blk.rmt, stg := t.blk.stg } ∧
      t.blk.trig k = s.blk.trig k ∧ ∀ j ≠ k, t.blk.trig j = s.blk.trig j := by
  refine ⟨_, exec_trigAdd hg, ?_⟩
  dsimp only
  rw [Blk.trigAddWrite_of_not_own (b := s.blk.unstage _ _) hk hm ho]
  exact ⟨rfl, rfl, fun _ _ => rfl⟩

/-- Where the increment changes counter `k` by `f`, the write changes nothing else but the writer's staging latch. -/
theorem exec_trigAdd_of_own (ho : (s.blk.cfg.trig k).life ≠ .absent ∧ (s.blk.cfg.trig k).inst = inst.val) (hn : m ≠ 0)
    (hi : s.blk.rmt.incs = []) {f : Trig → Trig} (hf : (s.blk.unstage (.f1 h) (.trigAdd inst.val)).trigInc k m =
      (s.blk.unstage (.f1 h) (.trigAdd inst.val)).updTrig k f) :
    ∃ t, exec (.trigAdd h inst n) s = .next t ∧ t.blk = { s.blk with rmt := t.blk.rmt, stg := t.blk.stg } ∧
      t.blk.trig k = f (s.blk.trig k) ∧ ∀ j ≠ k, t.blk.trig j = s.blk.trig j := by
  refine ⟨_, exec_trigAdd hg, ?_⟩
  dsimp only
  rw [Blk.trigAddWrite_of_own (b := s.blk.unstage _ _) hk hm ho hn hf hi, Blk.trig_updTrig]
  exact ⟨rfl, rfl, fun j hj => Blk.trig_updTrig_ne _ _ _ hj⟩

end

/-! Retrain and the timestamp FIFO (R320, R336). -/

theorem Blk.dspRetrain_up {b : Blk} {d : Nat} (h : (b.dsport d).dllActive = true) : b.dspRetrain d =
    b.slotSet d (fun x => { x with retrain := true, training := true, dllActive := false, dllChanged := true }) := by
  unfold Blk.dspRetrain
  exact if_pos h

theorem Blk.dspRetrain_down {b : Blk} {d : Nat} (h : (b.dsport d).dllActive = false) : b.dspRetrain d = b := by
  unfold Blk.dspRetrain
  exact if_neg (by rw [h]; decide)

theorem Blk.regWrite_dspLink_retrain (b : Blk) (w : Who) (d : Nat) : b.regWrite w (.dspLink d) 0x100 = b.dspRetrain d := rfl

/-- A write of a lane's ETH block changes that lane alone, and only where it is the first of a port that exists. -/
theorem Blk.laneWrite_spec (b : Blk) (l : Nat) (f : EthLane → EthLane) :
    b.laneWrite l f = { b with eth := (b.laneWrite l f).eth } ∧
    (b.laneWrite l f).lane l = (if (b.cfg.port l).life = .absent then b.lane l else f (b.lane l)) ∧
    ∀ j ≠ l, (b.laneWrite l f).lane j = b.lane j := by
  unfold Blk.laneWrite
  split
  · exact ⟨rfl, rfl, fun _ _ => rfl⟩
  · exact ⟨rfl, b.lane_updLane l f, fun j hj => b.lane_updLane_ne l f hj⟩

theorem exec_tsPop (s : State) (th : Tid) (l : LaneId) : ∃ t, exec (.tsPop (.thread th) l) s = .next t ∧
    t.blk = { s.blk with eth := t.blk.eth, stg := t.blk.stg } ∧
    t.blk.lane l.val = (if (s.blk.cfg.port l.val).life = .absent then s.blk.lane l.val else
      { s.blk.lane l.val with ts := (s.blk.lane l.val).ts.drop 1 }) ∧ ∀ j ≠ l.val, t.blk.lane j = s.blk.lane j := by
  have hr : ∀ b : Blk, b.regWrite (.thread th) (.tsPop l.val) 0 = b.laneWrite l.val (fun x => { x with ts := x.ts.drop 1 }) :=
    fun _ => rfl
  refine ⟨_, run_devWrite_of_thread (decide_eq_true l.isLt) rfl, ?_⟩
  dsimp only
  rw [hr]
  obtain ⟨h1, h2, h3⟩ := (s.blk.unstage (.thread th) (.tsPop l.val)).laneWrite_spec l.val (fun x => { x with ts := x.ts.drop 1 })
  generalize (s.blk.unstage (.thread th) (.tsPop l.val)).laneWrite l.val _ = c at h1 h2 h3 ⊢
  exact ⟨by rw [h1]; rfl, h2, h3⟩

/-- Registers of device space alone take nothing from another writer. -/
theorem exec_deviceWrites_of_not_thread {s : State} {who : Who} (hw : ∀ t, who ≠ .thread t) (p : PipeId) (d : DspId)
    (l : LaneId) (v : W64) :
    ∀ c ∈ [Instr.learnCfgWrite who p v, .learnFlushGo who p v, .puntCiWrite who p v, .puntBaseWrite who p v,
      .dspSlotWrite who d v, .dspRetrain who d, .tsPop who l], exec c s = .next s := by
  have discarded : ∀ (r : Reg) (x : W64), r.place = .dev → s.run (fun b => b.writeBy who r .all x) = .next s :=
    fun _ _ hp => run_devWrite_of_not_thread hw hp
  simp only [List.forall_mem_cons, List.not_mem_nil, false_implies, implies_true, and_true]
  exact ⟨discarded (.learnCfg p.val) v rfl, discarded (.learnFlush p.val) v rfl, discarded (.puntCi p.val) v rfl,
    discarded (.puntBase p.val) v rfl, discarded (.dspSlot d.val) v rfl, discarded (.dspLink d.val) 0x100 rfl,
    discarded (.tsPop l.val) 0 rfl⟩

/-- A field of a 32-bit word is that of the word as it is written. -/
theorem fieldNat_setWidth (n : W32) (lo k : Nat) : fieldNat (n.setWidth 64) lo k = fieldNat n lo k := by
  unfold fieldNat
  rw [BitVec.toNat_setWidth_of_le (by decide)]

theorem Pipe.puntBaseWrite_enabled {x : Pipe} (h : x.puntEnable = true) (v : W64) :
    x.puntBaseWrite v = { x with puntEnable := v.getLsbD 0 } := if_pos h

theorem Pipe.puntBaseWrite_enables {x : Pipe} (h : x.puntEnable = false) {v : W64} (hv : v.getLsbD 0 = true) :
    x.puntBaseWrite v = { x with puntEnable := true, puntBase := v.extractLsb' 12 52, puntPi := 0, puntCi := 0 } := by
  simp [Pipe.puntBaseWrite, h, hv]

theorem Pipe.puntBaseWrite_disabled {x : Pipe} (h : x.puntEnable = false) {v : W64} (hv : v.getLsbD 0 = false) :
    x.puntBaseWrite v = { x with puntBase := v.extractLsb' 12 52 } := by
  unfold Pipe.puntBaseWrite
  rw [h, hv]
  rfl

/-- Settles O38 (R6, R287, R301, R304, R320, R323, R336, R409). -/
theorem deviceRegisters : Obligations.DeviceRegisters := by
  intro s th who p d l v h inst n b w u x y k add pipe drive
  have hp := decide_eq_true p.isLt
  have hd := decide_eq_true d.isLt
  have hk : fieldNat n 0 16 = k := (fieldNat_setWidth n 0 16).symm
  have hm : fieldNat n 16 16 = add := (fieldNat_setWidth n 16 16).symm
  have withLearn : ∀ {z z' : LearnUnit}, z = z' → { x with learn := z } = { x with learn := z' } := fun h => by rw [h]
  refine ⟨fun hw => exec_deviceWrites_of_not_thread hw p d l v, ?_, fun hf => ?_, fun hf => ?_, ?_, fun he hv => ?_,
    fun he hv => ?_, fun he => ?_, ?_, fun hl => ?_, fun hl => ?_, exec_tsPop s th l, fun hg => ⟨fun ho => ?_,
    fun ho hn hpost hincs => ⟨fun hl => ?_, fun hl => ?_⟩⟩⟩
  · exact run_pipeWrite (r := .learnCfg p.val) hp rfl (fun _ => rfl) rfl
  · exact run_pipeWrite (r := .learnFlush p.val) hp rfl (fun _ => rfl) (withLearn (LearnUnit.flushWrite_idle hf v))
  · exact run_pipeWrite (r := .learnFlush p.val) hp rfl (fun _ => rfl) (withLearn (LearnUnit.flushWrite_running hf v))
  · exact run_pipeWrite (r := .puntCi p.val) hp rfl (fun _ => rfl) (Pipe.puntCiWrite_eq _ _)
  · exact run_pipeWrite (r := .puntBase p.val) hp rfl (fun _ => rfl) (Pipe.puntBaseWrite_enables he hv)
  · exact run_pipeWrite (r := .puntBase p.val) hp rfl (fun _ => rfl) (Pipe.puntBaseWrite_disabled he hv)
  · exact run_pipeWrite (r := .puntBase p.val) hp rfl (fun _ => rfl) (Pipe.puntBaseWrite_enabled he v)
  · exact run_driveWrite (r := .dspSlot d.val) hd rfl (c := (s.blk.unstage w (.dspSlot d.val)).dspSlotWrite d.val v) rfl
      (Blk.dsport_dspSlotWrite _ d.val v) (fun j hj => Blk.dsport_slotAct_ne _ _ _ _ _ hj)
  · exact run_driveWrite (r := .dspLink d.val) (v := 0x100) hd rfl
      ((Blk.regWrite_dspLink_retrain _ w d.val).trans (Blk.dspRetrain_up hl))
      (Blk.dsport_slotSet _ _ _) (fun j hj => Blk.dsport_slotSet_ne _ _ hj)
  · exact run_driveWrite (r := .dspLink d.val) (v := 0x100) hd rfl
      ((Blk.regWrite_dspLink_retrain _ w d.val).trans (Blk.dspRetrain_down hl)) rfl (fun _ _ => rfl)
  · exact exec_trigAdd_of_not_own hg hk hm ho
  · have added := exec_trigAdd_of_own hg hk hm ho hn hincs (Blk.trigInc_of_enabled (b := s.blk.unstage _ _) hl hpost add)
    simpa only [sat32_eq_min] using added
  · exact exec_trigAdd_of_own hg hk hm ho hn hincs
      (Blk.trigInc_of_not_enabled (b := s.blk.unstage _ _) ho.1 hl add)

end Sys2Proof.Machine
end

section
/-! SUPPORT. What the soundness of a block speaks of (`Blk.vital`), and the functions that leave all of it: one frame lemma for
each function over the block that neither writes memory nor makes or retires an epoch, in the order of the model. -/

namespace Sys2Proof.Machine
open Sys2Proof

/-- What the soundness of a block speaks of: memory, the numbers of the live epochs, the newest epoch. -/
def Blk.vital (b : Blk) : Tab Byte × List Nat × Nat := (b.mem, b.ctl.live.map (·.num), b.ctl.newest)

@[simp] theorem Blk.vital_mk (clk spd brg cores mem poison dir ctl ports pm scans wqs cqs eqs mssWq mssCq insts pipes hog eth
    dsp keys rmt dma mss boot rel elec stg hlat tbLat hostFrames preEpoch halfDown out fresh) :
    Blk.vital ⟨clk, spd, brg, cores, mem, poison, dir, ctl, ports, pm, scans, wqs, cqs, eqs, mssWq, mssCq, insts, pipes, hog,
      eth, dsp, keys, rmt, dma, mss, boot, rel, elec, stg, hlat, tbLat, hostFrames, preEpoch, halfDown, out, fresh⟩ =
      (mem, ctl.live.map (·.num), ctl.newest) := rfl

@[simp] theorem Blk.vital_eta (b : Blk) : (b.mem, b.ctl.live.map (·.num), b.ctl.newest) = b.vital := rfl

@[simp] theorem Blk.vital_ite {p : Prop} [Decidable p] (b c : Blk) :
    (if p then b else c).vital = if p then b.vital else c.vital := apply_ite _ _ _ _

@[simp] theorem Blk.vital_foldl {α : Type} {f : Blk → α → Blk} (h : ∀ b x, (f b x).vital = b.vital) (l : List α) (b : Blk) :
    (l.foldl f b).vital = b.vital := by
  induction l generalizing b with
  | nil => rfl
  | cons x l ih => exact (ih _).trans (h b x)

/-- The block with which the work of an inline unit on a packet ends. -/
def SaRes.blk : SaRes → Blk
  | .pass b _ => b
  | .lost b _ => b

/-! Memory, events and the tables of the state. -/

@[simp] theorem Blk.vital_drawn (b : Blk) (n : Nat) : (b.drawn n).vital = b.vital := by rfl
@[simp] theorem Blk.vital_updPort (b : Blk) (h : Nat) (f : HostPort → HostPort) : (b.updPort h f).vital = b.vital := by rfl
@[simp] theorem Blk.vital_updFn (b : Blk) (h : Nat) (f1 : Bool) (f : Fn → Fn) : (b.updFn h f1 f).vital = b.vital := by rfl
@[simp] theorem Blk.vital_updWq (b : Blk) (i q : Nat) (f : Wq → Wq) : (b.updWq i q f).vital = b.vital := by rfl
@[simp] theorem Blk.vital_updCq (b : Blk) (i q : Nat) (f : Cq → Cq) : (b.updCq i q f).vital = b.vital := by rfl
@[simp] theorem Blk.vital_updEq (b : Blk) (i e : Nat) (f : EvQ → EvQ) : (b.updEq i e f).vital = b.vital := by rfl
@[simp] theorem Blk.vital_updInst (b : Blk) (i : Nat) (f : InstDyn → InstDyn) : (b.updInst i f).vital = b.vital := by rfl
@[simp] theorem Blk.vital_updThread (b : Blk) (t : Nat) (f : Thread → Thread) : (b.updThread t f).vital = b.vital := by rfl
@[simp] theorem Blk.vital_updCore (b : Blk) (c : Nat) (f : Core → Core) : (b.updCore c f).vital = b.vital := by rfl
@[simp] theorem Blk.vital_updChan (b : Blk) (c : Nat) (f : Channel → Channel) : (b.updChan c f).vital = b.vital := by rfl
@[simp] theorem Blk.vital_updGroup (b : Blk) (g : Nat) (f : Group → Group) : (b.updGroup g f).vital = b.vital := by rfl

@[simp] theorem Blk.vital_updFq (b : Blk) (h : Half) (f : FaultQ → FaultQ) : (b.updFq h f).vital = b.vital := by
  unfold Blk.updFq
  split <;> simp

@[simp] theorem Blk.vital_updPipe (b : Blk) (p : Nat) (f : Pipe → Pipe) : (b.updPipe p f).vital = b.vital := by rfl

@[simp] theorem Blk.vital_updLearn (b : Blk) (p : Nat) (f : LearnUnit → LearnUnit) : (b.updLearn p f).vital = b.vital := by
  rfl

@[simp] theorem Blk.vital_updLane (b : Blk) (l : Nat) (f : EthLane → EthLane) : (b.updLane l f).vital = b.vital := by rfl
@[simp] theorem Blk.vital_updDsp (b : Blk) (d : Nat) (f : Dsp → Dsp) : (b.updDsp d f).vital = b.vital := by rfl
@[simp] theorem Blk.vital_updEng (b : Blk) (h : Nat) (f : Dma → Dma) : (b.updEng h f).vital = b.vital := by rfl
@[simp] theorem Blk.vital_updChn (b : Blk) (h c : Nat) (f : Dch → Dch) : (b.updChn h c f).vital = b.vital := by rfl
@[simp] theorem Blk.vital_updSlot (b : Blk) (k : Nat) (f : Slot → Slot) : (b.updSlot k f).vital = b.vital := by rfl
@[simp] theorem Blk.vital_updSa (b : Blk) (k : Nat) (f : SaState → SaState) : (b.updSa k f).vital = b.vital := by rfl
@[simp] theorem Blk.vital_updUnit (b : Blk) (u : Nat) (f : Lu → Lu) : (b.updUnit u f).vital = b.vital := by rfl
@[simp] theorem Blk.vital_updQp (b : Blk) (n : Nat) (f : Qp → Qp) : (b.updQp n f).vital = b.vital := by rfl
@[simp] theorem Blk.vital_updTrig (b : Blk) (k : Nat) (f : Trig → Trig) : (b.updTrig k f).vital = b.vital := by rfl

@[simp] theorem Blk.vital_updBport (b : Blk) (h : Nat) (f : BootPort → BootPort) : (b.updBport h f).vital = b.vital := by
  rfl

@[simp] theorem Blk.vital_updCtlq (b : Blk) (k : CqKey) (f : CtlState → CtlState) : (b.updCtlq k f).vital = b.vital := by
  rfl

@[simp] theorem Blk.vital_updScan (b : Blk) (k : CqKey) (f : Scan → Scan) : (b.updScan k f).vital = b.vital := by rfl
@[simp] theorem Blk.vital_linkAwake (b : Blk) (h : Nat) : (b.linkAwake h).vital = b.vital := by rfl
@[simp] theorem Blk.vital_emit (b : Blk) (e : Emit) : (b.emit e).vital = b.vital := by rfl
@[simp] theorem Blk.vital_setPoison (b : Blk) (gs : List Nat) (v : Bool) : (b.setPoison gs v).vital = b.vital := by rfl
@[simp] theorem Blk.vital_l1iDrop (b : Blk) (lo hi : Nat) : (b.l1iDrop lo hi).vital = b.vital := by rfl
@[simp] theorem Blk.vital_tablesHit (b : Blk) (a n : Nat) : (b.tablesHit a n).vital = b.vital := by simp [Blk.tablesHit]
@[simp] theorem Blk.vital_errUncorr (b : Blk) (s : Nat) (h : Half) : (b.errUncorr s h).vital = b.vital := by rfl

@[simp] theorem Blk.vital_reelRaw (b : Blk) (type severity origin : Nat) (body : List Byte) :
    (b.reelRaw type severity origin body).vital = b.vital := by
  simp [Blk.reelRaw]

@[simp] theorem Blk.vital_reel (b : Blk) (type origin : Nat) (fields : List Nat) :
    (b.reel type origin fields).vital = b.vital := by
  simp [Blk.reel]

/-! Completions, events and interrupts (R64 to R72). -/

@[simp] theorem Blk.vital_instWrite (b : Blk) (i writer va : Nat) (l : List Byte) :
    (b.instWrite i writer va l).vital = b.vital := by
  rfl

@[simp] theorem Blk.vital_updEvq (b : Blk) (r : EqR) (f : EvQ → EvQ) : (b.updEvq r f).vital = b.vital := by
  unfold Blk.updEvq
  split <;> simp

@[simp] theorem Blk.vital_evalIntx (b : Blk) (h : Nat) (f1 : Bool) : (b.evalIntx h f1).vital = b.vital := by
  simp [Blk.evalIntx]

@[simp] theorem Blk.vital_msiSend (b : Blk) (h : Nat) (f1 : Bool) (v : Nat) : (b.msiSend h f1 v).vital = b.vital := by
  simp [Blk.msiSend]

@[simp] theorem Blk.vital_eqWrite (b : Blk) (r : EqR) (a : Nat) (l : List Byte) : (b.eqWrite r a l).vital = b.vital := by
  unfold Blk.eqWrite
  split <;> simp

@[simp] theorem Blk.vital_eqMirror (b : Blk) (r : EqR) : (b.eqMirror r).vital = b.vital := by
  unfold Blk.eqMirror
  split <;> simp

@[simp] theorem Blk.vital_eqPut (b : Blk) (r : EqR) (ev : Ev) (merged : Nat) : (b.eqPut r ev merged).vital = b.vital := by
  simp [Blk.eqPut]

@[simp] theorem Blk.vital_eqTake (b : Blk) (r : EqR) (ev : Ev) : (b.eqTake r ev).vital = b.vital := by simp [Blk.eqTake]

@[simp] theorem Blk.vital_raise (fuel : Nat) (b : Blk) (r : EqR) (ev : Ev) : (Blk.raise fuel b r ev).vital = b.vital := by
  induction fuel generalizing b r ev with
  | zero => exact b.vital_eqTake r ev
  | succ n ih => simp [Blk.raise, ih]

@[simp] theorem Blk.vital_devEvent (b : Blk) (type index reason value detail : Nat) :
    (b.devEvent type index reason value detail).vital = b.vital := by
  simp [Blk.devEvent]

@[simp] theorem Blk.vital_mssEvent (b : Blk) (type index reason value detail : Nat) :
    (b.mssEvent type index reason value detail).vital = b.vital := by
  simp [Blk.mssEvent]

@[simp] theorem Blk.vital_msiDue (b : Blk) (r : EqR) : (b.msiDue r).vital = b.vital := by simp [Blk.msiDue]
@[simp] theorem Blk.vital_eqFlush (b : Blk) (r : EqR) : (b.eqFlush r).vital = b.vital := by simp [Blk.eqFlush]

@[simp] theorem Blk.vital_eqMirrorRetry (b : Blk) (r : EqR) : (b.eqMirrorRetry r).vital = b.vital := by
  unfold Blk.eqMirrorRetry
  split <;> simp

@[simp] theorem Blk.vital_eqRetry (b0 : Blk) (r : EqR) : (b0.eqRetry r).vital = b0.vital := by simp [Blk.eqRetry]
@[simp] theorem Blk.vital_f0Flush (b : Blk) (h : Nat) : (b.f0Flush h).vital = b.vital := by simp [Blk.f0Flush]

@[simp] theorem Blk.vital_eqCiWrite (b : Blk) (r : EqR) (ci : W16) : (b.eqCiWrite r ci).vital = b.vital := by
  simp [Blk.eqCiWrite]

@[simp] theorem Blk.vital_eqCtrlWrite (b : Blk) (r : EqR) (intEn clear : Bool) :
    (b.eqCtrlWrite r intEn clear).vital = b.vital := by
  simp [Blk.eqCtrlWrite]

@[simp] theorem Blk.vital_updCqOf (b : Blk) (r : CqR) (f : Cq → Cq) : (b.updCqOf r f).vital = b.vital := by
  unfold Blk.updCqOf
  split <;> simp

@[simp] theorem Blk.vital_cqWrite (b : Blk) (r : CqR) (a : Nat) (l : List Byte) : (b.cqWrite r a l).vital = b.vital := by
  unfold Blk.cqWrite
  split <;> simp

@[simp] theorem Blk.vital_cqMirror (b : Blk) (r : CqR) : (b.cqMirror r).vital = b.vital := by
  unfold Blk.cqMirror
  split <;> simp

@[simp] theorem Blk.vital_cqEvent (b : Blk) (r : CqR) (type : Nat) : (b.cqEvent r type).vital = b.vital := by
  unfold Blk.cqEvent
  split <;> simp

@[simp] theorem Blk.vital_cqNotify (b : Blk) (r : CqR) : (b.cqNotify r).vital = b.vital := by simp [Blk.cqNotify]
@[simp] theorem Blk.vital_cqPut (b : Blk) (r : CqR) (x : HeldCpl) : (b.cqPut r x).vital = b.vital := by simp [Blk.cqPut]

@[simp] theorem Blk.vital_cqDrain (fuel : Nat) (b : Blk) (r : CqR) : (Blk.cqDrain fuel b r).vital = b.vital := by
  induction fuel generalizing b with
  | zero => rfl
  | succ n ih =>
    unfold Blk.cqDrain
    split <;> simp [ih]

@[simp] theorem Blk.vital_complete (b : Blk) (r : CqR) (c : Cpl) (bump : Option Nat) (solicited : Bool) (epoch qpn : Nat) :
    (b.complete r c bump solicited epoch qpn).vital = b.vital := by
  simp [Blk.complete]

@[simp] theorem Blk.vital_cqMirrorRetry (b : Blk) (r : CqR) : (b.cqMirrorRetry r).vital = b.vital := by
  unfold Blk.cqMirrorRetry
  split <;> simp

@[simp] theorem Blk.vital_cqRetry (b0 : Blk) (r : CqR) : (b0.cqRetry r).vital = b0.vital := by simp [Blk.cqRetry]

@[simp] theorem Blk.vital_cqCiWrite (b : Blk) (r : CqR) (ci : W16) (arm : Bool) :
    (b.cqCiWrite r ci arm).vital = b.vital := by
  simp [Blk.cqCiWrite]

@[simp] theorem Blk.vital_pbaFlush (b : Blk) (h : Nat) (f1 : Bool) : (b.pbaFlush h f1).vital = b.vital := by
  simp [Blk.pbaFlush]

@[simp] theorem Blk.vital_instRetry (b : Blk) (i : Nat) : (b.instRetry i).vital = b.vital := by simp [Blk.instRetry]

@[simp] theorem Blk.vital_xlateFault (b : Blk) (i cause va : Nat) : (b.xlateFault i cause va).vital = b.vital := by
  simp [Blk.xlateFault]

/-! Work queues (R101 to R123). -/

@[simp] theorem Blk.vital_updWqOf (b : Blk) (r : WqR) (f : Wq → Wq) : (b.updWqOf r f).vital = b.vital := by
  unfold Blk.updWqOf
  split <;> simp

@[simp] theorem Blk.vital_wqErrorEvent (b : Blk) (r : WqR) (reason idx : Nat) :
    (b.wqErrorEvent r reason idx).vital = b.vital := by
  unfold Blk.wqErrorEvent
  split <;> simp

@[simp] theorem Blk.vital_wqError (b : Blk) (r : WqR) (reason : Nat) : (b.wqError r reason).vital = b.vital := by
  simp [Blk.wqError]

@[simp] theorem Blk.vital_wqPiWrite (b : Blk) (r : WqR) (pi : W16) : (b.wqPiWrite r pi).vital = b.vital := by
  simp [Blk.wqPiWrite]

@[simp] theorem Blk.vital_ring (b : Blk) (k : CqKey) : (b.ring k).vital = b.vital := by simp [Blk.ring]

@[simp] theorem Blk.vital_settle (fuel : Nat) (b : Blk) (k : CqKey) : (Blk.settle fuel b k).vital = b.vital := by
  induction fuel generalizing b with
  | zero => rfl
  | succ n ih =>
    unfold Blk.settle
    dsimp only
    repeat' split
    all_goals simp [ih]

@[simp] theorem Blk.vital_served (b : Blk) (k : CqKey) : (b.served k).vital = b.vital := by rfl

@[simp] theorem Blk.vital_takeEntry (b : Blk) (i q : Nat) (raw : W512) : (b.takeEntry i q raw).vital = b.vital := by
  unfold Blk.takeEntry
  dsimp only
  split <;> simp

@[simp] theorem Blk.vital_fetchFailed (b : Blk) (r : WqR) (q reason : Nat) :
    (b.fetchFailed r q reason).vital = b.vital := by
  simp [Blk.fetchFailed]

@[simp] theorem Blk.vital_resumeQueue (b : Blk) (r : WqR) : (b.resumeQueue r).vital = b.vital := by simp [Blk.resumeQueue]

@[simp] theorem Blk.vital_release (fuel : Nat) (b : Blk) (i q : Nat) : (Blk.release fuel b i q).vital = b.vital := by
  induction fuel generalizing b with
  | zero => rfl
  | succ n ih =>
    unfold Blk.release
    dsimp only
    repeat' split
    all_goals simp [ih]

@[simp] theorem Blk.vital_finish (b : Blk) (i q : Nat) (idx : W16) (status : Nat) (c : CplF) :
    (b.finish i q idx status c).vital = b.vital := by
  unfold Blk.finish
  split <;> simp

@[simp] theorem Blk.vital_finishNow (b : Blk) (i q : Nat) (idx : W16) (status : Nat) (c : CplF) (bump : Option Nat)
    (solicited : Bool) (qpn : Nat) :
    (b.finishNow i q idx status c bump solicited qpn).vital = b.vital := by
  unfold Blk.finishNow
  split <;> simp

@[simp] theorem Blk.vital_ctlWqCtrl (b : Blk) (h : Nat) (v : W32) : (b.ctlWqCtrl h v).vital = b.vital := by
  simp [Blk.ctlWqCtrl]

@[simp] theorem Blk.vital_ctlCqCtrl (b : Blk) (h : Nat) (v : W32) : (b.ctlCqCtrl h v).vital = b.vital := by
  simp [Blk.ctlCqCtrl]

@[simp] theorem Blk.vital_f0EqCtrl (b : Blk) (h : Nat) (v : W32) : (b.f0EqCtrl h v).vital = b.vital := by
  simp [Blk.f0EqCtrl]

set_option maxRecDepth 20000 in
theorem Blk.takeBlocks_succ (n : Nat) (b : Blk) (i : Nat) : Blk.takeBlocks (n + 1) b i =
    match (b.freeBlocks (b.homeOf i))[b.freeVal.toNat % (b.freeBlocks (b.homeOf i)).length]? with
    | none => b
    | some k => Blk.takeBlocks n ((b.updInst i (fun d => { d with blocks := d.blocks ++ [k] })).drawn 1) i := rfl

/-! Objects of the configuration. -/

@[simp] theorem Blk.vital_takeBlocks (n : Nat) (b : Blk) (i : Nat) : (Blk.takeBlocks n b i).vital = b.vital := by
  induction n generalizing b with
  | zero => rfl
  | succ n ih =>
    rw [Blk.takeBlocks_succ]
    split
    · rfl
    · exact (ih _).trans (by simp)

@[simp] theorem Blk.vital_giveBlocks (b : Blk) (i n before : Nat) : (b.giveBlocks i n before).vital = b.vital := by rfl
@[simp] theorem Blk.vital_zeroLeft (b : Blk) (i before : Nat) : (b.zeroLeft i before).vital = b.vital := by rfl

@[simp] theorem Blk.vital_resizeBlocks (b : Blk) (i n before : Nat) : (b.resizeBlocks i n before).vital = b.vital := by
  simp [Blk.resizeBlocks]

/-! The check phase. -/

@[simp] theorem Blk.vital_objNew (b : Blk) (o : Obj) (e : W512) : (b.objNew o e).vital = b.vital := by
  unfold Blk.objNew
  split <;> simp

@[simp] theorem Blk.vital_freshQueues (b : Blk) (i : Nat) : (b.freshQueues i).vital = b.vital := by rfl

@[simp] theorem Blk.vital_dynStaged (b : Blk) (prior : List CInstr) (o : COp) (e : W512) :
    (b.dynStaged prior o e).vital = b.vital := by
  unfold Blk.dynStaged
  generalize ciObj o e = obj
  split
  case h_3 => split <;> simp
  case h_11 => simp
  all_goals simp

@[simp] theorem Blk.vital_staged1 (b : Blk) (s : Issuer) (prior : List CInstr) (x : CInstr) :
    (b.staged1 s prior x).vital = b.vital := by
  unfold Blk.staged1
  split <;> simp

@[simp] theorem Blk.vital_stagedAll (s : Issuer) (b : Blk) (prior l : List CInstr) :
    (Blk.stagedAll s b prior l).vital = b.vital := by
  induction l generalizing b prior with
  | nil => rfl
  | cons x r ih => simp [Blk.stagedAll, ih]

/-! The key store. -/

@[simp] theorem Blk.vital_takeInv (b : Blk) (k epoch n : Nat) : (b.takeInv k epoch n).vital = b.vital := by
  simp [Blk.takeInv]

@[simp] theorem Blk.vital_flip (b : Blk) (k alg epoch : Nat) (key : KeyReg) : (b.flip k alg epoch key).vital = b.vital := by
  rfl

@[simp] theorem Blk.vital_retireSlot (b : Blk) (k epoch : Nat) : (b.retireSlot k epoch).vital = b.vital := by rfl
@[simp] theorem Blk.vital_wipeOld (b : Blk) : b.wipeOld.vital = b.vital := by rfl
@[simp] theorem Blk.vital_releaseUnit (b : Blk) (u : Nat) : (b.releaseUnit u).vital = b.vital := by simp [Blk.releaseUnit]

@[simp] theorem Blk.vital_lockUnit (b : Blk) (i u thread : Nat) (acquire release : Bool) :
    (b.lockUnit i u thread acquire release).vital = b.vital := by
  simp [Blk.lockUnit]

@[simp] theorem Blk.vital_lockWrite (b : Blk) (i u : Nat) (acquire release : Bool) :
    (b.lockWrite i u acquire release).vital = b.vital := by
  simp [Blk.lockWrite]

@[simp] theorem Blk.vital_luLockWrite (b : Blk) (t i u : Nat) (acquire release : Bool) :
    (b.luLockWrite t i u acquire release).vital = b.vital := by
  simp [Blk.luLockWrite]

@[simp] theorem Blk.vital_jobEnd (b : Blk) (i q : Nat) (idx : W16) (u status length : Nat) :
    (b.jobEnd i q idx u status length).vital = b.vital := by
  unfold Blk.jobEnd
  split <;> simp

/-! Lookaside jobs. -/

theorem Blk.vital_of_ansFault {b : Blk} {i va : Nat} {a : Ans} {y : Nat × Blk} (h : b.ansFault i va a = some y) :
    y.2.vital = b.vital := by
  unfold Blk.ansFault at h
  split at h <;> simp at h <;> simp [← h]

theorem Blk.vital_of_writeFault {b : Blk} {i va : Nat} {a : Ans} {y : Nat × Blk} (h : b.writeFault i va a = some y) :
    y.2.vital = b.vital := by
  unfold Blk.writeFault at h
  split at h <;> simp at h
  simp [← h]

@[simp] theorem Blk.vital_inHand (b : Blk) (i q : Nat) (e : Entry) (status : Nat) (outs : List (Nat × List Byte)) :
    (b.inHand i q e status outs).vital = b.vital := by
  rfl

@[simp] theorem Blk.vital_cipherStart (b : Blk) (i q op : Nat) (aad src tag : Ans) :
    (b.cipherStart i q op aad src tag).vital = b.vital := by
  unfold Blk.cipherStart
  split
  · rfl
  · dsimp only
    split
    · simp
    · split
      · rfl
      · split
        · next h => simpa using Blk.vital_of_ansFault h
        · split
          · next h =>
            split at h
            · simpa using Blk.vital_of_ansFault h
            · simp at h
          · split <;> simp

@[simp] theorem Blk.vital_cipherDone (b : Blk) (u : Nat) (out : Ans) : (b.cipherDone u out).vital = b.vital := by
  unfold Blk.cipherDone
  split
  · rfl
  · dsimp only
    split
    · simp
    · split
      · rfl
      · split
        · next h => simpa using Blk.vital_of_writeFault h
        · simp

@[simp] theorem Blk.vital_endJobs (b : Blk) (status : Nat) (p : Nat → Entry → Bool) :
    (b.endJobs status p).vital = b.vital := by
  simp [Blk.endJobs]

@[simp] theorem Blk.vital_endLocks (b : Blk) (i : Nat) : (b.endLocks i).vital = b.vital := by rfl

@[simp] theorem Blk.vital_unitFault (b : Blk) (u : Nat) : (b.unitFault u).vital = b.vital := by
  unfold Blk.unitFault
  split <;> simp

@[simp] theorem Blk.vital_eraseSlot (b : Blk) (k : Nat) : (b.eraseSlot k).vital = b.vital := by simp [Blk.eraseSlot]
@[simp] theorem Blk.vital_alarm (b : Blk) (cause : Nat) : (b.alarm cause).vital = b.vital := by simp [Blk.alarm]

/-! Inline security associations. -/

@[simp] theorem Blk.vital_ethCnt (b : Blk) (l n k : Nat) : (b.ethCnt l n k).vital = b.vital := by rfl
@[simp] theorem Blk.vital_pipeCnt (b : Blk) (p n k : Nat) : (b.pipeCnt p n k).vital = b.vital := by rfl
@[simp] theorem Blk.vital_drop (b : Blk) (p reason : Nat) : (b.drop p reason).vital = b.vital := by rfl
@[simp] theorem Blk.vital_saCount (b : Blk) (k reason : Nat) : (b.saCount k reason).vital = b.vital := by rfl

theorem Blk.vital_macsecIn (b : Blk) (l epoch : Nat) (f : List Byte) : (b.macsecIn l epoch f).blk.vital = b.vital := by
  unfold Blk.macsecIn
  dsimp only
  repeat' split
  all_goals simp [SaRes.blk]

theorem Blk.vital_espIn (b : Blk) (p epoch : Nat) (f : List Byte) : (b.espIn p epoch f).blk.vital = b.vital := by
  unfold Blk.espIn
  dsimp only
  repeat' split
  all_goals simp [SaRes.blk]

@[simp] theorem Blk.vital_setBatch (b : Blk) (key first n : Nat) : (b.setBatch key first n).vital = b.vital := by rfl

theorem Blk.vital_of_saInvoke {b b1 : Blk} {k slot epoch : Nat} (h : b.saInvoke k slot epoch = some b1) :
    b1.vital = b.vital := by
  unfold Blk.saInvoke at h
  dsimp only at h
  repeat' split at h
  all_goals simp at h
  all_goals simp [← h]

theorem Blk.vital_saOut (b : Blk) (p epoch k : Nat) (m : Meta) (f : List Byte) :
    (b.saOut p epoch k m f).blk.vital = b.vital := by
  unfold Blk.saOut
  extract_lets s alg
  split
  · rfl
  · split
    · simp [SaRes.blk]
    · extract_lets pn last espAt
      split
      · rfl
      · split
        · simp [SaRes.blk]
        · split
          · simp [SaRes.blk]
          · next h =>
            split <;> exact (Blk.vital_updSa _ _ _).trans (Blk.vital_of_saInvoke h)

/-! The learn unit. -/

@[simp] theorem Blk.vital_learnApply (b : Blk) (p : Nat) : (b.learnApply p).vital = b.vital := by
  unfold Blk.learnApply
  repeat' split
  all_goals simp

/-! Threads, channels, fault records. -/

@[simp] theorem Blk.vital_setG (b : Blk) (t : Nat) (r : GReg) (v : W64) : (b.setG t r v).vital = b.vital := by rfl
@[simp] theorem Blk.vital_pmcFree (b : Blk) (t : Nat) : (b.pmcFree t).vital = b.vital := by rfl
@[simp] theorem Blk.vital_leaveWait (b : Blk) (t : Nat) : (b.leaveWait t).vital = b.vital := by simp [Blk.leaveWait]
@[simp] theorem Blk.vital_wake (b : Blk) (t : Nat) : (b.wake t).vital = b.vital := by simp [Blk.wake]
@[simp] theorem Blk.vital_evalWait (b : Blk) (t : Nat) : (b.evalWait t).vital = b.vital := by simp [Blk.evalWait]

@[simp] theorem Blk.vital_pmcCount (b : Blk) (t code n : Nat) : (b.pmcCount t code n).vital = b.vital := by
  simp [Blk.pmcCount]

@[simp] theorem Blk.vital_evalWaits (b : Blk) (ts : List Nat) : (b.evalWaits ts).vital = b.vital := by simp [Blk.evalWaits]
@[simp] theorem Blk.vital_latch (b : Blk) (t bitsv : Nat) : (b.latch t bitsv).vital = b.vital := by simp [Blk.latch]
@[simp] theorem Blk.vital_unitEvent (b : Blk) (t k : Nat) : (b.unitEvent t k).vital = b.vital := by simp [Blk.unitEvent]
@[simp] theorem Blk.vital_stepWaits (b : Blk) : b.stepWaits.vital = b.vital := by simp [Blk.stepWaits]

@[simp] theorem Blk.vital_enterVector (b : Blk) (t cause detail : Nat) (epc eaddr : W64) :
    (b.enterVector t cause detail epc eaddr).vital = b.vital := by
  rfl

@[simp] theorem Blk.vital_eretTo (b : Blk) (t : Nat) : (b.eretTo t).vital = b.vital := by rfl
@[simp] theorem Blk.vital_creditsRise (b : Blk) (c : Nat) : (b.creditsRise c).vital = b.vital := by simp [Blk.creditsRise]

@[simp] theorem Blk.vital_returnCredits (b : Blk) (t c : Nat) : (b.returnCredits t c).vital = b.vital := by
  simp [Blk.returnCredits]

theorem Blk.vital_of_unitSend {b b1 : Blk} {c len : Nat} {src : Half} {words : Tab W64} (h : b.unitSend c src words len = some b1) :
    b1.vital = b.vital := by
  unfold Blk.unitSend at h
  split at h <;> simp at h
  simp [← h]

@[simp] theorem Blk.vital_chQueue (b : Blk) (c : Nat) : (b.chQueue c).vital = b.vital := by
  unfold Blk.chQueue
  split <;> simp

theorem Blk.vital_remeasure (b c : Blk) : (b.remeasure c).vital = c.vital :=
  Blk.vital_foldl (fun b g => by simp) _ c

@[simp] theorem Blk.vital_startThread (b : Blk) (t : Nat) (pc : W64) : (b.startThread t pc).vital = b.vital := by
  simp [Blk.startThread]

@[simp] theorem Blk.vital_stopThread (b : Blk) (t : Nat) : (b.stopThread t).vital = b.vital := by simp [Blk.stopThread]
@[simp] theorem Blk.vital_resumeWait (b : Blk) (t : Nat) : (b.resumeWait t).vital = b.vital := by simp [Blk.resumeWait]

@[simp] theorem Blk.vital_resumeThread (b : Blk) (t : Nat) : (b.resumeThread t).vital = b.vital := by
  simp [Blk.resumeThread]

@[simp] theorem Blk.vital_thrApply (b : Blk) (t op : Nat) (pc : W64) : (b.thrApply t op pc).vital = b.vital := by
  simp [Blk.thrApply]

@[simp] theorem Blk.vital_haltThread (b : Blk) (t : Nat) : (b.haltThread t).vital = b.vital := by simp [Blk.haltThread]
@[simp] theorem Blk.vital_goThread (b : Blk) (t : Nat) : (b.goThread t).vital = b.vital := by simp [Blk.goThread]

/-! Hogsheads and traffic managers. -/

@[simp] theorem Blk.vital_setTmq (b : Blk) (q : TmQueue) : (b.setTmq q).vital = b.vital := by rfl

@[simp] theorem Blk.vital_pfcSend (b : Blk) (l prio quanta : Nat) : (b.pfcSend l prio quanta).vital = b.vital := by
  simp [Blk.pfcSend]

@[simp] theorem Blk.vital_pfcEval (b : Blk) (l prio : Nat) : (b.pfcEval l prio).vital = b.vital := by simp [Blk.pfcEval]
@[simp] theorem Blk.vital_pfcSettle (b : Blk) : b.pfcSettle.vital = b.vital := by simp [Blk.pfcSettle]

@[simp] theorem Blk.vital_pfcRx (b : Blk) (l : Nat) (qs : List (Nat × Nat)) : (b.pfcRx l qs).vital = b.vital := by
  simp [Blk.pfcRx]

@[simp] theorem Blk.vital_endLaunch (b : Blk) (p : Packet) (status : Nat) : (b.endLaunch p status).vital = b.vital := by
  unfold Blk.endLaunch
  repeat' split
  all_goals simp

@[simp] theorem Blk.vital_dropPkt (b : Blk) (p : Packet) (pipe reason : Nat) :
    (b.dropPkt p pipe reason).vital = b.vital := by
  simp [Blk.dropPkt]

@[simp] theorem Blk.vital_enqueue (b : Blk) (p : Packet) (k : QKey) (headroom : Bool) :
    (b.enqueue p k headroom).vital = b.vital := by
  simp [Blk.enqueue]

@[simp] theorem Blk.vital_takeIn (b : Blk) (p : Packet) (k : QKey) : (b.takeIn p k).vital = b.vital := by simp [Blk.takeIn]
@[simp] theorem Blk.vital_countDown (b : Blk) (h : Half) : (b.countDown h).vital = b.vital := by rfl

@[simp] theorem Blk.vital_dropDown (b : Blk) (p : Packet) (h : Half) : (b.dropDown p h).vital = b.vital := by
  simp [Blk.dropDown]

@[simp] theorem Blk.vital_updBridgeTo (b : Blk) (h : Half) (f : BridgeDir → BridgeDir) :
    (b.updBridgeTo h f).vital = b.vital := by
  unfold Blk.updBridgeTo
  split <;> simp

@[simp] theorem Blk.vital_cross (b : Blk) (p : Packet) (d : CrossDest) (pipe : Nat) :
    (b.cross p d pipe).vital = b.vital := by
  simp [Blk.cross]

@[simp] theorem Blk.vital_toQueue (b : Blk) (p : Packet) (k : QKey) : (b.toQueue p k).vital = b.vital := by
  simp [Blk.toQueue]

@[simp] theorem Blk.vital_carried (b : Blk) (h : Half) (cells : Bool) (n : Nat) :
    (b.carried h cells n).vital = b.vital := by
  simp [Blk.carried]

@[simp] theorem Blk.vital_engineTake (b : Blk) (p : Packet) (h : Half) : (b.engineTake p h).vital = b.vital := by
  unfold Blk.engineTake
  split <;> simp

@[simp] theorem Blk.vital_crossed (b : Blk) (c : Crossing) : (b.crossed c).vital = b.vital := by
  unfold Blk.crossed
  split <;> simp

@[simp] theorem Blk.vital_bridgeTransfer (b : Blk) (h : Half) : (b.bridgeTransfer h).vital = b.vital := by
  unfold Blk.bridgeTransfer
  repeat' split
  all_goals simp

@[simp] theorem Blk.vital_chArrive (b : Blk) (c : Nat) : (b.chArrive c).vital = b.vital := by
  unfold Blk.chArrive
  split <;> simp

@[simp] theorem Blk.vital_flood (b : Blk) (p : Packet) : (b.flood p).vital = b.vital := by simp [Blk.flood]

@[simp] theorem Blk.vital_toEngine (b : Blk) (p : Packet) (h : Half) : (b.toEngine p h).vital = b.vital := by
  simp [Blk.toEngine]

/-! From the queue to the wire or the host. -/

@[simp] theorem Blk.vital_drrCharge (b : Blk) (l : List (QKey × Nat × Nat)) (served : QKey) (rounds len : Nat) :
    (b.drrCharge l served rounds len).vital = b.vital := by
  simp [Blk.drrCharge]

@[simp] theorem Blk.vital_takeTokens (b : Blk) (l tc : Nat) (p : Packet) : (b.takeTokens l tc p).vital = b.vital := by
  simp [Blk.takeTokens]

@[simp] theorem Blk.vital_lateHead (b : Blk) (l tc : Nat) : (b.lateHead l tc).vital = b.vital := by rfl

@[simp] theorem Blk.vital_launchDrop (b : Blk) (l : Nat) (p : Packet) : (b.launchDrop l p).vital = b.vital := by
  simp [Blk.launchDrop]

@[simp] theorem Blk.vital_launchEnter (b : Blk) (l : Nat) (p : Packet) : (b.launchEnter l p).vital = b.vital := by
  unfold Blk.launchEnter
  split <;> simp

@[simp] theorem Blk.vital_launchCheck (b : Blk) : b.launchCheck.vital = b.vital := by simp [Blk.launchCheck]

@[simp] theorem Blk.vital_launchDue (b : Blk) (l tc : Nat) : (b.launchDue l tc).vital = b.vital := by
  unfold Blk.launchDue
  split <;> simp

@[simp] theorem Blk.vital_stampTx (b : Blk) (st : Option TxStamp) : (b.stampTx st).vital = b.vital := by
  unfold Blk.stampTx
  split <;> simp

@[simp] theorem Blk.vital_commitRun (b : Blk) (pipe : Nat) (r : RunSt) : (b.commitRun pipe r).vital = b.vital := by
  simp [Blk.commitRun]

@[simp] theorem Blk.vital_egressEnd (b : Blk) (l : Nat) (p : Packet) : (b.egressEnd l p).vital = b.vital := by
  have spent : ∀ {r : SaRes} {f : List Byte}, (match mdSa p.md with
      | some k => (b.stampTx p.stamp).saOut (pipeOfLane l) p.epoch k p.md f
      | none => .pass (b.stampTx p.stamp) f) = r → r.blk.vital = b.vital := by
    rintro r f rfl
    split
    · simp [Blk.vital_saOut]
    · simp [SaRes.blk]
  unfold Blk.egressEnd
  dsimp only
  split
  · simp
  · split
    · next h => exact (Blk.vital_dropPkt _ _ _ _).trans (spent h)
    · next b3 f2 h =>
      have h : b3.vital = b.vital := spent h
      repeat' split
      all_goals simpa using h

@[simp] theorem Blk.vital_egressRun (b : Blk) (l : Nat) (start p : Packet) (n : Nat) (preds : List (Nat × Nat))
    (miss : Bool) :
    (b.egressRun l start p n preds miss).vital = b.vital := by
  unfold Blk.egressRun
  dsimp only
  repeat' split
  all_goals simp

@[simp] theorem Blk.vital_egress (b : Blk) (l : Nat) (p : Packet) (miss : Bool) : (b.egress l p miss).vital = b.vital := by
  simp [Blk.egress]

@[simp] theorem Blk.vital_schedule (b : Blk) (l : Nat) (miss : Bool) : (b.schedule l miss).vital = b.vital := by
  unfold Blk.schedule
  dsimp only
  repeat' split
  all_goals simp

@[simp] theorem Blk.vital_txStamp (b : Blk) (l id : Nat) : (b.txStamp l id).vital = b.vital := by simp [Blk.txStamp]

@[simp] theorem Blk.vital_transmit (b : Blk) (l : Nat) (underrun : Bool) : (b.transmit l underrun).vital = b.vital := by
  unfold Blk.transmit
  split <;> simp

@[simp] theorem Blk.vital_deliver (b : Blk) (h : Nat) (ans : Ans) : (b.deliver h ans).vital = b.vital := by
  unfold Blk.deliver
  dsimp only
  split
  · split
    · split
      · simp
      · split
        · next hf => simpa using Blk.vital_of_writeFault hf
        · simp
    · rfl
  · rfl

@[simp] theorem Blk.vital_ageCrossing (b : Blk) (d : CrossDest) (pipe : Nat) : (b.ageCrossing d pipe).vital = b.vital := by
  unfold Blk.ageCrossing
  split <;> simp

@[simp] theorem Blk.vital_ageQueue (b : Blk) (k : QKey) : (b.ageQueue k).vital = b.vital := by
  unfold Blk.ageQueue
  dsimp only
  split <;> simp

@[simp] theorem Blk.vital_ageEngine (b00 : Blk) (h : Half) : (b00.ageEngine h).vital = b00.vital := by
  unfold Blk.ageEngine
  dsimp only
  repeat' split
  all_goals simp

/-! Ingress of a pipeline. -/

@[simp] theorem Blk.vital_learnRequest (b : Blk) (pipe : Nat) (before after : Option (Option (Nat × Nat))) :
    (b.learnRequest pipe before after).vital = b.vital := by
  unfold Blk.learnRequest
  repeat' split
  all_goals simp

@[simp] theorem Blk.vital_laneReplay (b : Blk) (p : Nat) : (b.laneReplay p).vital = b.vital := by simp [Blk.laneReplay]

/-! A thread's access to memory. -/

@[simp] theorem Blk.vital_dirTouch (b : Blk) (h : Half) (loc n : Nat) (write : Bool) :
    (b.dirTouch h loc n write).vital = b.vital := by
  simp [Blk.dirTouch]

@[simp] theorem Blk.vital_fillL1i (b : Blk) (c loc : Nat) : (b.fillL1i c loc).vital = b.vital := by simp [Blk.fillL1i]
@[simp] theorem Blk.vital_iinv (b : Blk) (line : Nat) : (b.iinv line).vital = b.vital := by rfl
@[simp] theorem Blk.vital_fetched (b : Blk) (t loc : Nat) : (b.fetched t loc).vital = b.vital := by simp [Blk.fetched]

/-! System registers. -/

@[simp] theorem Blk.vital_tmodeWrite (b : Blk) (c : Nat) (pavane : Bool) : (b.tmodeWrite c pavane).vital = b.vital := by rfl

@[simp] theorem Blk.vital_srWrite (b : Blk) (t n : Nat) (v : W64) : (b.srWrite t n v).vital = b.vital := by
  simp [Blk.srWrite]

@[simp] theorem Blk.vital_tmodeSwitch (b : Blk) (c : Nat) : (b.tmodeSwitch c).vital = b.vital := by simp [Blk.tmodeSwitch]

/-! The issue of an instruction. -/

@[simp] theorem Blk.vital_register (b : Blk) (t c : Nat) : (b.register t c).vital = b.vital := by rfl
@[simp] theorem Blk.vital_coreRound (b : Blk) (c : Nat) : (b.coreRound c).vital = b.vital := by simp [Blk.coreRound]

@[simp] theorem Blk.vital_galliardSlot (b : Blk) (t : Nat) : (b.galliardSlot t).vital = b.vital := by
  simp [Blk.galliardSlot]

@[simp] theorem Blk.vital_takeSlot (b : Blk) (t : Nat) : (b.takeSlot t).vital = b.vital := by simp [Blk.takeSlot]
@[simp] theorem Blk.vital_commitInstr (b : Blk) (t : Nat) : (b.commitInstr t).vital = b.vital := by simp [Blk.commitInstr]

/-! Ethernet ports and drives. -/

@[simp] theorem Blk.vital_toParser (b : Blk) (l : Nat) (f : List Byte) : (b.toParser l f).vital = b.vital := by
  have opened : ∀ {r : SaRes} {e : Nat}, (if ((b.cfgOf e).port l).macsec then b.macsecIn l e f else .pass b f) = r →
      r.blk.vital = b.vital := by
    rintro r e rfl
    split
    · exact b.vital_macsecIn l _ f
    · rfl
  unfold Blk.toParser
  dsimp only
  split
  · next h => exact (Blk.vital_drop _ _ _).trans (opened h)
  · next b1 f1 h =>
    have h1 : b1.vital = b.vital := opened h
    have h2 := b1.vital_espIn (pipeOfLane l) (b.epochAt (pipeOfLane l)) f1
    split
    · next h3 =>
      rw [h3] at h2
      exact (Blk.vital_drop _ _ _).trans (h2.trans h1)
    · next h3 =>
      rw [h3] at h2
      exact (Blk.vital_updLane _ _ _).trans (h2.trans h1)

@[simp] theorem Blk.vital_fecCount (b : Blk) (l : Nat) (detect : Bool) (w : FecWords) :
    (b.fecCount l detect w).vital = b.vital := by
  simp [Blk.fecCount]

@[simp] theorem Blk.vital_macRx (b : Blk) (l : Nat) (f : List Byte) (fcsOk overrun : Bool) :
    (b.macRx l f fcsOk overrun).vital = b.vital := by
  simp [Blk.macRx]

@[simp] theorem Blk.vital_frameRx (b : Blk) (l : Nat) (f : List Byte) (fcsOk overrun : Bool) (fec : FecWords) :
    (b.frameRx l f fcsOk overrun fec).vital = b.vital := by
  simp [Blk.frameRx]

@[simp] theorem Blk.vital_dropQueued (b : Blk) (l : Nat) : (b.dropQueued l).vital = b.vital := by simp [Blk.dropQueued]

@[simp] theorem Blk.vital_setLink (b : Blk) (l : Nat) (s : LinkSt) : (b.setLink l s).vital = b.vital := by
  simp [Blk.setLink]

@[simp] theorem Blk.vital_setFaults (b : Blk) (l : Nat) (local_ remote : Bool) :
    (b.setFaults l local_ remote).vital = b.vital := by
  simp [Blk.setFaults]

@[simp] theorem Blk.vital_linkChange (b : Blk) (l : Nat) (s : LinkSt) (autoneg local_ remote : Bool) :
    (b.linkChange l s autoneg local_ remote).vital = b.vital := by
  simp [Blk.linkChange]

@[simp] theorem Blk.vital_autonegTimeout (b : Blk) (l : Nat) : (b.autonegTimeout l).vital = b.vital := by
  simp [Blk.autonegTimeout]

@[simp] theorem Blk.vital_linkRetry (b : Blk) (l : Nat) : (b.linkRetry l).vital = b.vital := by simp [Blk.linkRetry]
@[simp] theorem Blk.vital_linkSettle (b : Blk) (l : Nat) : (b.linkSettle l).vital = b.vital := by simp [Blk.linkSettle]
@[simp] theorem Blk.vital_dspEvent (b : Blk) (d : Nat) : (b.dspEvent d).vital = b.vital := by simp [Blk.dspEvent]

@[simp] theorem Blk.vital_slotEvent (b : Blk) (d : Nat) (rose : Bool) : (b.slotEvent d rose).vital = b.vital := by
  simp [Blk.slotEvent]

@[simp] theorem Blk.vital_slotSet (b : Blk) (d : Nat) (f : Dsp → Dsp) : (b.slotSet d f).vital = b.vital := by
  simp [Blk.slotSet]

@[simp] theorem Blk.vital_presence (b : Blk) (d : Nat) (v : Bool) : (b.presence d v).vital = b.vital := by
  simp [Blk.presence]

@[simp] theorem Blk.vital_attnButton (b : Blk) (d : Nat) : (b.attnButton d).vital = b.vital := by simp [Blk.attnButton]

@[simp] theorem Blk.vital_dllChange (b : Blk) (d : Nat) (up : Bool) (speed width : BitVec 3) :
    (b.dllChange d up speed width).vital = b.vital := by
  simp [Blk.dllChange]

@[simp] theorem Blk.vital_dsPerstRelease (b : Blk) (d : Nat) : (b.dsPerstRelease d).vital = b.vital := by
  unfold Blk.dsPerstRelease
  split <;> simp

@[simp] theorem Blk.vital_slotAct (b : Blk) (d : Nat) (clear : BitVec 3) (power attention led : Nat) :
    (b.slotAct d clear power attention led).vital = b.vital := by
  simp [Blk.slotAct]

@[simp] theorem Blk.vital_dspSlotWrite (b : Blk) (d : Nat) (v : W64) : (b.dspSlotWrite d v).vital = b.vital := by
  simp [Blk.dspSlotWrite]

@[simp] theorem Blk.vital_slotControl (b : Blk) (d : Nat) (clear : Bool) (power attention led : Nat) :
    (b.slotControl d clear power attention led).vital = b.vital := by
  simp [Blk.slotControl]

@[simp] theorem Blk.vital_dspRetrain (b : Blk) (d : Nat) : (b.dspRetrain d).vital = b.vital := by simp [Blk.dspRetrain]
@[simp] theorem Blk.vital_dspUr (b : Blk) (d : Nat) : (b.dspUr d).vital = b.vital := by rfl
@[simp] theorem Blk.vital_dspRefuse (b : Blk) (d : Nat) : (b.dspRefuse d).vital = b.vital := by rfl
@[simp] theorem Blk.vital_dsMsi (b : Blk) (d v : Nat) : (b.dsMsi d v).vital = b.vital := by simp [Blk.dsMsi]

@[simp] theorem Blk.vital_dsConfig (b : Blk) (d off : Nat) (write : Option W32) (resp : CfgResp) :
    (b.dsConfig d off write resp).vital = b.vital := by
  unfold Blk.dsConfig
  cases (b.dsport d).dllActive <;> cases write <;> cases resp <;> simp

/-! The timebase. -/

@[simp] theorem Blk.vital_applyStep (b : Blk) (d : Int) : (b.applyStep d).vital = b.vital := by simp [Blk.applyStep]
@[simp] theorem Blk.vital_stepRequest (b : Blk) (o : Int) : (b.stepRequest o).vital = b.vital := by simp [Blk.stepRequest]

@[simp] theorem Blk.vital_servoSample (b : Blk) (o : Int) : (b.servoSample o).vital = b.vital := by
  unfold Blk.servoSample
  dsimp only
  repeat' split
  all_goals simp

@[simp] theorem Blk.vital_ppsEdge (b : Blk) : b.ppsEdge.vital = b.vital := by simp [Blk.ppsEdge]
@[simp] theorem Blk.vital_timeSourceEvent (b : Blk) : b.timeSourceEvent.vital = b.vital := by simp [Blk.timeSourceEvent]
@[simp] theorem Blk.vital_sourceLost (b : Blk) (ref : Bool) : (b.sourceLost ref).vital = b.vital := by simp [Blk.sourceLost]
@[simp] theorem Blk.vital_sourceRegained (b : Blk) : b.sourceRegained.vital = b.vital := by simp [Blk.sourceRegained]
@[simp] theorem Blk.vital_nsecRead (b : Blk) (w : Who) (wide : Bool) : (b.nsecRead w wide).vital = b.vital := by rfl

/-! Transport packets. -/

@[simp] theorem Blk.vital_rmtCnt (b : Blk) (h : Half) (k n : Nat) : (b.rmtCnt h k n).vital = b.vital := by rfl

@[simp] theorem Blk.vital_rmtSend (b : Blk) (half : Half) (port inst meta_ tc : Nat) (e : RmtEnds) (x : RmtHdr)
    (payload : List Byte) (st : TxStamp) :
    (b.rmtSend half port inst meta_ tc e x payload st).vital = b.vital := by
  rfl

@[simp] theorem Blk.vital_qpSend (b : Blk) (n : Nat) (q : QpCfg) (c : Conn) (srcPort : Nat) (x : RmtHdr)
    (payload : List Byte) (st : TxStamp) :
    (b.qpSend n q c srcPort x payload st).vital = b.vital := by
  rfl

/-! The requester. -/

@[simp] theorem Blk.vital_reqDone (b : Blk) (i q : Nat) (idx : W16) (status : Nat) :
    (b.reqDone i q idx status).vital = b.vital := by
  unfold Blk.reqDone
  split <;> simp

@[simp] theorem Blk.vital_joinList (b : Blk) (i q : Nat) (idx : W16) (epoch n : Nat) :
    (b.joinList i q idx epoch n).vital = b.vital := by
  simp [Blk.joinList]

@[simp] theorem Blk.vital_fire (b : Blk) (k : Nat) : (b.fire k).vital = b.vital := by simp [Blk.fire]
@[simp] theorem Blk.vital_trigInc (b : Blk) (k n : Nat) : (b.trigInc k n).vital = b.vital := by simp [Blk.trigInc]

@[simp] theorem Blk.vital_applyIncs (fuel : Nat) (b : Blk) : (Blk.applyIncs fuel b).vital = b.vital := by
  induction fuel generalizing b with
  | zero => rfl
  | succ n ih =>
    unfold Blk.applyIncs
    split <;> simp [ih]

@[simp] theorem Blk.vital_settleIncs (b : Blk) : b.settleIncs.vital = b.vital := by simp [Blk.settleIncs]

@[simp] theorem Blk.vital_wrStart (b : Blk) (i q op : Nat) (triggered : Bool) :
    (b.wrStart i q op triggered).vital = b.vital := by
  unfold Blk.wrStart
  repeat' split
  all_goals simp

@[simp] theorem Blk.vital_releaseMsgs (fuel : Nat) (b : Blk) (n : Nat) : (Blk.releaseMsgs fuel b n).vital = b.vital := by
  induction fuel generalizing b with
  | zero => rfl
  | succ k ih =>
    unfold Blk.releaseMsgs
    repeat' split
    all_goals simp [ih]

@[simp] theorem Blk.vital_endMsg (b : Blk) (n msn status : Nat) (stop : Bool) :
    (b.endMsg n msn status stop).vital = b.vital := by
  simp [Blk.endMsg]

@[simp] theorem Blk.vital_sendUnit (b : Blk) (n : Nat) (m : OutMsg) (u : Unsent) (path : Nat) (payload : List Byte) :
    (b.sendUnit n m u path payload).vital = b.vital := by
  unfold Blk.sendUnit
  dsimp only
  split <;> simp

theorem Blk.vital_of_tryUnit {b c : Blk} {n : Nat} {m : OutMsg} {u : Unsent} {src : List SrcRead}
    (h : b.tryUnit n m u src = some c) : c.vital = b.vital := by
  unfold Blk.tryUnit at h
  dsimp only at h
  split at h
  · simp at h
  · split at h
    · split at h
      · simp at h
      · split at h
        · simp at h
        · split at h
          · next hf =>
            obtain rfl := Option.some.inj h
            simpa using Blk.vital_of_ansFault hf
          · obtain rfl := Option.some.inj h
            simp
    · obtain rfl := Option.some.inj h
      simp

@[simp] theorem Blk.vital_pumpMsg (n msn : Nat) (src : List SrcRead) (us : List Unsent) (b : Blk) :
    (Blk.pumpMsg n msn src us b).vital = b.vital := by
  induction us generalizing b with
  | nil => rfl
  | cons u us ih =>
    unfold Blk.pumpMsg
    split
    · rfl
    · split
      · rfl
      · split
        · rfl
        · next h => exact (ih _).trans ((Blk.vital_updQp _ _ _).trans (Blk.vital_of_tryUnit h))

@[simp] theorem Blk.vital_pump (b : Blk) (n : Nat) (src : List SrcRead) : (b.pump n src).vital = b.vital := by
  simp [Blk.pump]

@[simp] theorem Blk.vital_startMsg (b : Blk) (n : Nat) (src : List SrcRead) : (b.startMsg n src).vital = b.vital := by
  unfold Blk.startMsg
  dsimp only
  repeat' split
  all_goals simp

@[simp] theorem Blk.vital_lose (b : Blk) (n msn : Nat) (u : TUnit) : (b.lose n msn u).vital = b.vital := by
  unfold Blk.lose
  split <;> simp

@[simp] theorem Blk.vital_pathExpiry (b : Blk) (n p : Nat) : (b.pathExpiry n p).vital = b.vital := by simp [Blk.pathExpiry]

@[simp] theorem Blk.vital_retxTimeout (b : Blk) (n msn off : Nat) (src : List SrcRead) :
    (b.retxTimeout n msn off src).vital = b.vital := by
  unfold Blk.retxTimeout
  repeat' split
  all_goals simp

@[simp] theorem Blk.vital_restart (b : Blk) (n msn : Nat) : (b.restart n msn).vital = b.vital := by
  unfold Blk.restart
  split <;> simp

@[simp] theorem Blk.vital_rnrHold (b : Blk) (n msn : Nat) : (b.rnrHold n msn).vital = b.vital := by
  unfold Blk.rnrHold
  split <;> simp

@[simp] theorem Blk.vital_rnrExpire (b : Blk) (n msn : Nat) (src : List SrcRead) :
    (b.rnrExpire n msn src).vital = b.vital := by
  unfold Blk.rnrExpire
  split <;> simp

@[simp] theorem Blk.vital_pathReroll (b : Blk) (n p : Nat) : (b.pathReroll n p).vital = b.vital := by simp [Blk.pathReroll]

@[simp] theorem Blk.vital_pathAnswer (b : Blk) (n : Nat) (x : RmtPkt) (m : OutMsg) (ended : List (TUnit × Nat)) :
    (b.pathAnswer n x m ended).vital = b.vital := by
  simp [Blk.pathAnswer]

@[simp] theorem Blk.vital_loseLate (b : Blk) (n : Nat) : (b.loseLate n).vital = b.vital := by simp [Blk.loseLate]

@[simp] theorem Blk.vital_onAck (b : Blk) (n : Nat) (x : RmtPkt) (m : OutMsg) : (b.onAck n x m).vital = b.vital := by
  simp [Blk.onAck]

@[simp] theorem Blk.vital_onNak (b : Blk) (n : Nat) (x : RmtPkt) (m : OutMsg) : (b.onNak n x m).vital = b.vital := by
  unfold Blk.onNak
  split <;> simp

@[simp] theorem Blk.vital_onReadResp (b : Blk) (n : Nat) (x : RmtPkt) (m : OutMsg) (ans : Ans) :
    (b.onReadResp n x m ans).vital = b.vital := by
  unfold Blk.onReadResp
  dsimp only
  split
  · next h =>
    split at h
    · simp at h
    · simpa using Blk.vital_of_writeFault h
  · split
    · simp
    · split <;> simp

@[simp] theorem Blk.vital_onAtomicResp (b : Blk) (n : Nat) (x : RmtPkt) (m : OutMsg) (ans : Ans) :
    (b.onAtomicResp n x m ans).vital = b.vital := by
  unfold Blk.onAtomicResp
  split
  · next h => simpa using Blk.vital_of_writeFault h
  · simp

@[simp] theorem Blk.vital_onAnswer (b : Blk) (x : RmtPkt) (ans : Ans) (src : List SrcRead) :
    (b.onAnswer x ans src).vital = b.vital := by
  unfold Blk.onAnswer
  dsimp only
  split <;> simp

/-! The responder. -/

@[simp] theorem Blk.vital_answer (b : Blk) (x : RmtPkt) (h : RmtHdr) (payload : List Byte) (serves : Option
    (Nat × Nat × Nat)) :
    (b.answer x h payload serves).vital = b.vital := by
  unfold Blk.answer
  dsimp only
  split <;> simp

@[simp] theorem Blk.vital_ack (b : Blk) (x : RmtPkt) (done : Bool) (total : Nat) :
    (b.ack x done total).vital = b.vital := by
  simp [Blk.ack]

@[simp] theorem Blk.vital_nak (b : Blk) (x : RmtPkt) (code : Nat) : (b.nak x code).vital = b.vital := by simp [Blk.nak]

@[simp] theorem Blk.vital_nakSource (b : Blk) (x : RmtPkt) (port inst meta_ tc : Nat) :
    (b.nakSource x port inst meta_ tc).vital = b.vital := by
  simp [Blk.nakSource]

@[simp] theorem Blk.vital_nakNoQp (b : Blk) (x : RmtPkt) : (b.nakNoQp x).vital = b.vital := by
  unfold Blk.nakNoQp
  split <;> simp

@[simp] theorem Blk.vital_refuseBadQp (b : Blk) (x : RmtPkt) : (b.refuseBadQp x).vital = b.vital := by
  simp [Blk.refuseBadQp]

@[simp] theorem Blk.vital_refuse (b : Blk) (x : RmtPkt) (code : Nat) : (b.refuse x code).vital = b.vital := by
  simp [Blk.refuse]

@[simp] theorem Blk.vital_abandon (b : Blk) (n msn : Nat) : (b.abandon n msn).vital = b.vital := by
  unfold Blk.abandon
  dsimp only
  repeat' split
  all_goals simp

@[simp] theorem Blk.vital_slide (k : Nat) (b : Blk) (n : Nat) : (Blk.slide k b n).vital = b.vital := by
  induction k generalizing b with
  | zero => rfl
  | succ k ih => simp [Blk.slide, ih]

@[simp] theorem Blk.vital_classify (b : Blk) (n msn : Nat) : (b.classify n msn).2.vital = b.vital := by
  unfold Blk.classify
  extract_lets head back ahead
  split
  · rfl
  · split
    · exact Blk.vital_slide ahead b n
    · rfl

@[simp] theorem Blk.vital_resend (b : Blk) (x : RmtPkt) : (b.resend x).vital = b.vital := by
  unfold Blk.resend
  repeat' split
  all_goals simp

@[simp] theorem Blk.vital_admitted (b : Blk) (i : Nat) (w : Option Nat) : (b.admitted i w).vital = b.vital := by
  unfold Blk.admitted
  split <;> simp

theorem Blk.vital_of_accessFault {b : Blk} {i va : Nat} {a : Ans} {y : Nat × Blk} (h : b.accessFault i va a = some y) :
    y.2.vital = b.vital := by
  obtain ⟨z, hz, rfl⟩ := Option.map_eq_some_iff.1 h
  exact Blk.vital_of_ansFault (y := z) hz

theorem Blk.vital_of_storeFault {b : Blk} {i va : Nat} {a : Ans} {y : Nat × Blk} (h : b.storeFault i va a = some y) :
    y.2.vital = b.vital := by
  obtain ⟨z, hz, rfl⟩ := Option.map_eq_some_iff.1 h
  exact Blk.vital_of_writeFault (y := z) hz

@[simp] theorem Blk.vital_msgEnd (b : Blk) (x : RmtPkt) (t : Tracker) : (b.msgEnd x t).vital = b.vital := by
  unfold Blk.msgEnd
  dsimp only
  repeat' split
  all_goals simp

@[simp] theorem Blk.vital_serveRead (b : Blk) (x : RmtPkt) (w : Nat) (ans : Ans) :
    (b.serveRead x w ans).vital = b.vital := by
  unfold Blk.serveRead
  dsimp only
  split
  · next h =>
    split at h
    · simp at h
    · split at h
      · split at h <;> simp at h
        simp [← h.2]
      · simpa using Blk.vital_of_accessFault h
  · simp

theorem Blk.vital_of_rmtTake {b : Blk} {h : Half} {op : Nat} {y : RmtPkt × Blk} (e : b.rmtTake h op = some y) :
    y.2.vital = b.vital := by
  unfold Blk.rmtTake at e
  cases h <;> dsimp only at e <;> split at e <;> simp at e <;> simp [← e.2]

@[simp] theorem Blk.vital_rmtAnswer (b : Blk) (h : Half) (op : Nat) (ans : Ans) (src : List SrcRead) :
    (b.rmtAnswer h op ans src).vital = b.vital := by
  unfold Blk.rmtAnswer
  split
  · rfl
  · next e =>
    have e := Blk.vital_of_rmtTake e
    split <;> simpa using e

@[simp] theorem Blk.vital_trackerTimeout (b : Blk) (n msn : Nat) : (b.trackerTimeout n msn).vital = b.vital := by
  unfold Blk.trackerTimeout
  split <;> simp

@[simp] theorem Blk.vital_pktSend (b : Blk) (i q : Nat) (src : Ans) : (b.pktSend i q src).vital = b.vital := by
  unfold Blk.pktSend
  dsimp only
  split
  · rfl
  · split
    · simp
    · split
      · rfl
      · split
        · next h => simpa using Blk.vital_of_ansFault h
        · split <;> simp

@[simp] theorem Blk.vital_postBuffer (b : Blk) (i q kind : Nat) : (b.postBuffer i q kind).vital = b.vital := by
  unfold Blk.postBuffer
  split <;> simp

/-! Instances: walks and device memory. -/

@[simp] theorem Blk.vital_errRec (b : Blk) (type reason index port epoch detail : Nat) :
    (b.errRec type reason index port epoch detail).vital = b.vital := by
  rfl

@[simp] theorem Blk.vital_noteRefusal (b : Blk) (k : CqKey) (reason : Nat) (idx : W16) (tag : Nat) :
    (b.noteRefusal k reason idx tag).vital = b.vital := by
  simp [Blk.noteRefusal]

@[simp] theorem Blk.vital_dropPrograms (b : Blk) (k : CqKey) : (b.dropPrograms k).vital = b.vital := by
  unfold Blk.dropPrograms
  extract_lets c gone b1 b2
  have noted : b1.vital = b.vital :=
    Blk.vital_foldl (f := fun b (p : Prog) => b.noteRefusal k 0x0503 p.idx p.tag.toNat) (fun _ _ => by simp) _ b
  exact Eq.trans rfl noted

@[simp] theorem Blk.vital_updCache (b : Blk) (h : Half) (f : List XEntry → List XEntry) :
    (b.updCache h f).vital = b.vital := by
  unfold Blk.updCache
  split <;> simp

@[simp] theorem Blk.vital_cachePut (b : Blk) (h : Half) (x : XEntry) : (b.cachePut h x).vital = b.vital := by
  simp [Blk.cachePut]

@[simp] theorem Blk.vital_walkReturn (b : Blk) (i va : Nat) (read write : Bool) (e : Option W64) (k : Nat) :
    (b.walkReturn i va read write e k).vital = b.vital := by
  unfold Blk.walkReturn
  dsimp only
  repeat' split
  all_goals simp

@[simp] theorem Blk.vital_intxAll (b : Blk) : b.intxAll.vital = b.vital := by simp [Blk.intxAll]

@[simp] theorem Blk.vital_invalidate (b : Blk) (i : Nat) (all : Bool) (start len : Nat) :
    (b.invalidate i all start len).vital = b.vital := by
  rfl

@[simp] theorem Blk.vital_genDrain (b : Blk) (i : Nat) (gen : BitVec 12) : (b.genDrain i gen).vital = b.vital := by
  simp [Blk.genDrain]

@[simp] theorem Blk.vital_genUp (b : Blk) (i : Nat) : (b.genUp i).vital = b.vital := by simp [Blk.genUp]
@[simp] theorem Blk.vital_loseWork (b : Blk) (i : Nat) : (b.loseWork i).vital = b.vital := by simp [Blk.loseWork]
@[simp] theorem Blk.vital_detachKeep (b : Blk) (i : Nat) : (b.detachKeep i).vital = b.vital := by simp [Blk.detachKeep]
@[simp] theorem Blk.vital_detach (b : Blk) (i : Nat) : (b.detach i).vital = b.vital := by simp [Blk.detach]
@[simp] theorem Blk.vital_detachPort (b : Blk) (h : Nat) : (b.detachPort h).vital = b.vital := by simp [Blk.detachPort]

@[simp] theorem Blk.vital_dirtyWrite (b : Blk) (i : Nat) : (b.dirtyWrite i).vital = b.vital := by
  unfold Blk.dirtyWrite
  dsimp only
  split <;> simp

@[simp] theorem Blk.vital_dirtyPoll (b : Blk) (i : Nat) (ci : W32) : (b.dirtyPoll i ci).vital = b.vital := by
  simp [Blk.dirtyPoll]

/-! Epochs. -/

@[simp] theorem Blk.vital_epochVisible (b : Blk) (u e : Nat) : (b.epochVisible u e).vital = b.vital := by
  unfold Blk.epochVisible
  split
  · simp [Function.comp_def, apply_ite EpochRec.num]
  · rfl

@[simp] theorem Blk.vital_dropEpoch (b : Blk) (e : Nat) : (b.dropEpoch e).vital = b.vital := by simp [Blk.dropEpoch]

@[simp] theorem Blk.vital_endRequest (b : Blk) (r : Nat × Nat × W16) (status : Nat) :
    (b.endRequest r status).vital = b.vital := by
  simp [Blk.endRequest]

@[simp] theorem Blk.vital_endEpochWork (b : Blk) (e : Nat) : (b.endEpochWork e).vital = b.vital := by
  simp [Blk.endEpochWork]

@[simp] theorem Blk.vital_expiredIn (b : Blk) (h : Half) (n e : Nat) : (b.expiredIn h n e).vital = b.vital := by
  simp [Blk.expiredIn]

@[simp] theorem Blk.vital_epochExpire (b : Blk) : b.epochExpire.vital = b.vital := by
  unfold Blk.epochExpire
  split
  · rfl
  · simp [Function.comp_def, apply_ite EpochRec.num]

/-! Start-up and activation. -/

@[simp] theorem Blk.vital_startHalf (b : Blk) (h : Half) (x : Image) : (b.startHalf h x).vital = b.vital := by
  simp [Blk.startHalf]

@[simp] theorem Blk.vital_setBoot (b : Blk) (f : Boot → Boot) : (b.setBoot f).vital = b.vital := by rfl

@[simp] theorem Blk.vital_bootRefuse (b : Blk) (h reason source : Nat) :
    (b.bootRefuse h reason source).vital = b.vital := by
  rfl

@[simp] theorem Blk.vital_loadWrite (b : Blk) (h off : Nat) (l : List (Option Byte)) :
    (b.loadWrite h off l).vital = b.vital := by
  unfold Blk.loadWrite
  split <;> simp

@[simp] theorem Blk.vital_verifyRequest (b : Blk) (h : Nat) : (b.verifyRequest h).vital = b.vital := by
  unfold Blk.verifyRequest
  repeat' split
  all_goals simp

@[simp] theorem Blk.vital_verifyNext (b : Blk) : b.verifyNext.vital = b.vital := by
  unfold Blk.verifyNext
  split <;> simp

@[simp] theorem Blk.vital_loadDiscard (b : Blk) (h : Nat) : (b.loadDiscard h).vital = b.vital := by simp [Blk.loadDiscard]

@[simp] theorem Blk.vital_bootPortReset (b : Blk) (h : Nat) : (b.bootPortReset h).vital = b.vital := by
  simp [Blk.bootPortReset]

@[simp] theorem Blk.vital_enableRequest (b : Blk) (h : Nat) (ready : Bool) : (b.enableRequest h ready).vital = b.vital := by
  unfold Blk.enableRequest
  repeat' split
  all_goals simp

theorem Blk.vital_of_activate {b c : Blk} (h : b.activate = .ok c) : c.vital = b.vital := by
  unfold Blk.activate at h
  repeat' split at h
  all_goals simp at h
  simp [← h]

@[simp] theorem Blk.vital_activateWrite (b : Blk) (h : Nat) : (b.activateWrite h).vital = b.vital := by
  unfold Blk.activateWrite
  dsimp only
  split
  · simp
  · split
    · next h => exact Blk.vital_of_activate h
    · simp

@[simp] theorem Blk.vital_inPhase (b : Blk) (n : Nat) {f : Activation → Blk} (h : ∀ a, (f a).vital = b.vital) :
    (b.inPhase n f).vital = b.vital := by
  unfold Blk.inPhase
  repeat' split
  all_goals simp [h]

@[simp] theorem Blk.vital_moveThread (b : Blk) (t : Nat) (x : Image) : (b.moveThread t x).vital = b.vital := by
  simp [Blk.moveThread]

@[simp] theorem Blk.vital_threadMove (b : Blk) (h : Half) : (b.threadMove h).vital = b.vital := by
  refine b.vital_inPhase 1 (fun a => ?_)
  split <;> simp

@[simp] theorem Blk.vital_activationFinish (b : Blk) : b.activationFinish.vital = b.vital := by simp [Blk.activationFinish]
@[simp] theorem Blk.vital_jigEntry (b : Blk) : b.jigEntry.vital = b.vital := by simp [Blk.jigEntry]

/-! The DMA engines. -/

@[simp] theorem Blk.vital_dmaStop (b : Blk) (h : Nat) (c : StopCause) (addr : Nat) (write sys : Bool) (lost : Nat) :
    (b.dmaStop h c addr write sys lost).vital = b.vital := by
  simp [Blk.dmaStop]

@[simp] theorem Blk.vital_cplError (b : Blk) (h : Nat) (c : StopCause) : (b.cplError h c).vital = b.vital := by
  unfold Blk.cplError
  split <;> simp

@[simp] theorem Blk.vital_dmaFailed (b : Blk) (h : Nat) (c : StopCause) (addr : Nat) (sys : Bool) :
    (b.dmaFailed h c addr sys).vital = b.vital := by
  simp [Blk.dmaFailed]

@[simp] theorem Blk.vital_dmaBusError (b : Blk) (h : Nat) (c : StopCause) (addr : Nat) (write sys : Bool) :
    (b.dmaBusError h c addr write sys).vital = b.vital := by
  simp [Blk.dmaBusError]

@[simp] theorem Blk.vital_dmaFlr (b : Blk) (h : Nat) : (b.dmaFlr h).vital = b.vital := by rfl
@[simp] theorem Blk.vital_dmaLinkLost (b : Blk) (h : Nat) : (b.dmaLinkLost h).vital = b.vital := by simp [Blk.dmaLinkLost]

@[simp] theorem Blk.vital_dmaInt (b : Blk) (h c : Nat) (cfg : ChCfg) (at_ : DAddr) :
    (b.dmaInt h c cfg at_).vital = b.vital := by
  simp [Blk.dmaInt]

@[simp] theorem Blk.vital_dmaRead (b : Blk) (h c : Nat) (mark : Bool) : (b.dmaRead h c mark).vital = b.vital := by
  simp [Blk.dmaRead]

@[simp] theorem Blk.vital_dmaGo (b : Blk) (h c : Nat) : (b.dmaGo h c).vital = b.vital := by simp [Blk.dmaGo]
@[simp] theorem Blk.vital_dmaLate (b : Blk) (h : Nat) : (b.dmaLate h).vital = b.vital := by simp [Blk.dmaLate]

@[simp] theorem Blk.vital_burstIssue (b : Blk) (h : Nat) : (b.burstIssue h).vital = b.vital := by
  unfold Blk.burstIssue
  dsimp only
  repeat' split
  all_goals simp

@[simp] theorem Blk.vital_dmaKickWrite (b : Blk) (h c : Nat) : (b.dmaKickWrite h c).vital = b.vital := by
  simp [Blk.dmaKickWrite]

@[simp] theorem Blk.vital_dmaEnable (b : Blk) (h c : Nat) (en : Bool) : (b.dmaEnable h c en).vital = b.vital := by
  simp [Blk.dmaEnable]

@[simp] theorem Blk.vital_dmaPause (b : Blk) (h c : Nat) (p : Bool) : (b.dmaPause h c p).vital = b.vital := by
  simp [Blk.dmaPause]

@[simp] theorem Blk.vital_pauseDrained (b : Blk) (h c : Nat) : (b.pauseDrained h c).vital = b.vital := by
  simp [Blk.pauseDrained]

@[simp] theorem Blk.vital_dmaShadowWrite (b : Blk) (h c : Nat) (v : W32) : (b.dmaShadowWrite h c v).vital = b.vital := by
  simp [Blk.dmaShadowWrite]

@[simp] theorem Blk.vital_dmaHalted (b : Blk) (h : Nat) : (b.dmaHalted h).vital = b.vital := by simp [Blk.dmaHalted]
@[simp] theorem Blk.vital_dmaReset (b : Blk) (h : Nat) (whole : Bool) : (b.dmaReset h whole).vital = b.vital := by rfl

/-! Host ports. -/

@[simp] theorem Blk.vital_mbxReset (b : Blk) (h : Nat) : (b.mbxReset h).vital = b.vital := by rfl
@[simp] theorem Blk.vital_dropLatches (b : Blk) (w : Who) : (b.dropLatches w).vital = b.vital := by rfl
@[simp] theorem Blk.vital_dropRegs (b : Blk) (p : Reg → Bool) : (b.dropRegs p).vital = b.vital := by rfl

@[simp] theorem Blk.vital_f0Reset (b : Blk) (h : PortId) (ready : Bool) : (b.f0Reset h ready).vital = b.vital := by
  simp [Blk.f0Reset]

@[simp] theorem Blk.vital_f1Reset (b : Blk) (h : PortId) (ready : Bool) : (b.f1Reset h ready).vital = b.vital := by rfl
@[simp] theorem Blk.vital_portReset (b : Blk) (h : PortId) : (b.portReset h).vital = b.vital := by simp [Blk.portReset]

@[simp] theorem Blk.vital_perstAssert (b : Blk) (h : PortId) : (b.perstAssert h).vital = b.vital := by
  simp [Blk.perstAssert]

@[simp] theorem Blk.vital_hotReset (b : Blk) (h : PortId) : (b.hotReset h).vital = b.vital := by simp [Blk.hotReset]

@[simp] theorem Blk.vital_linkTrains (b : Blk) (h w : Nat) (top : Fin 6) (flit : Bool) :
    (b.linkTrains h w top flit).vital = b.vital := by
  simp [Blk.linkTrains]

@[simp] theorem Blk.vital_perstRelease (b : Blk) (h : PortId) (w : Nat) (top : Fin 6) (flit : Bool) :
    (b.perstRelease h w top flit).vital = b.vital := by
  simp [Blk.perstRelease]

@[simp] theorem Blk.vital_fnsReady (b : Blk) (h : Nat) : (b.fnsReady h).vital = b.vital := by simp [Blk.fnsReady]
@[simp] theorem Blk.vital_flr (b : Blk) (h : PortId) (f1 : Bool) : (b.flr h f1).vital = b.vital := by simp [Blk.flr]

@[simp] theorem Blk.vital_flrComplete (b : Blk) (h : PortId) (f1 : Bool) : (b.flrComplete h f1).vital = b.vital := by
  simp [Blk.flrComplete]

@[simp] theorem Blk.vital_linkLost (b : Blk) (h : Nat) : (b.linkLost h).vital = b.vital := by simp [Blk.linkLost]
@[simp] theorem Blk.vital_removal (b : Blk) (h : Nat) : (b.removal h).vital = b.vital := by simp [Blk.removal]

@[simp] theorem Blk.vital_insertion (b : Blk) (h w : Nat) (top : Fin 6) (flit : Bool) :
    (b.insertion h w top flit).vital = b.vital := by
  simp [Blk.insertion]

@[simp] theorem Blk.vital_maskChange (b : Blk) (h : Nat) (f1 : Bool) (m : MaskSet) :
    (b.maskChange h f1 m).vital = b.vital := by
  simp [Blk.maskChange]

@[simp] theorem Blk.vital_closedAccess (b : Blk) (h : Nat) (f1 write : Bool) :
    (b.closedAccess h f1 write).vital = b.vital := by
  simp [Blk.closedAccess]

@[simp] theorem Blk.vital_unserved (b : Blk) (h : Nat) (f1 write : Bool) (n : Nat) :
    (b.unserved h f1 write n).vital = b.vital := by
  simp [Blk.unserved]

@[simp] theorem Blk.vital_countUnbound (b : Blk) (h : Nat) : (b.countUnbound h).vital = b.vital := by rfl

@[simp] theorem Blk.vital_unboundPage (b : Blk) (h i : Nat) (write : Bool) (n : Nat) :
    (b.unboundPage h i write n).vital = b.vital := by
  simp [Blk.unboundPage]

@[simp] theorem Blk.vital_apertureHeal (b : Blk) (i off : Nat) (l : List (Option Byte)) :
    (b.apertureHeal i off l).vital = b.vital := by
  simp [Blk.apertureHeal]

@[simp] theorem Blk.vital_loadWindow (b : Blk) (h off : Nat) (l : List (Option Byte)) :
    (b.loadWindow h off l).vital = b.vital := by
  simp [Blk.loadWindow]

@[simp] theorem Blk.vital_completionRx (b : Blk) (h : Nat) (inst : Option InstId) (gen : BitVec 12) (lost : Bool) :
    (b.completionRx h inst gen lost).vital = b.vital := by
  unfold Blk.completionRx
  split <;> simp

@[simp] theorem Blk.vital_l1Entry (b : Blk) (h : Nat) (pm : LinkPm) : (b.l1Entry h pm).vital = b.vital := by
  simp [Blk.l1Entry]

@[simp] theorem Blk.vital_l1Exit (b : Blk) (h : Nat) : (b.l1Exit h).vital = b.vital := by simp [Blk.l1Exit]
@[simp] theorem Blk.vital_l0pNarrow (b : Blk) (h : Nat) : (b.l0pNarrow h).vital = b.vital := by simp [Blk.l0pNarrow]
@[simp] theorem Blk.vital_l0pWiden (b : Blk) (h : Nat) : (b.l0pWiden h).vital = b.vital := by rfl
@[simp] theorem Blk.vital_noteBusy (b : Blk) (h : Nat) : (b.noteBusy h).vital = b.vital := by simp [Blk.noteBusy]

@[simp] theorem Blk.vital_ltrUpdate (b : Blk) (h : Nat) (active : Bool) : (b.ltrUpdate h active).vital = b.vital := by
  simp [Blk.ltrUpdate]

/-! Resets of a half and of the device, power. -/

@[simp] theorem Blk.vital_raiseAlarm (b : Blk) (cause : Nat) : (b.raiseAlarm cause).vital = b.vital := by
  simp [Blk.raiseAlarm]

@[simp] theorem Blk.vital_loseThreads (b : Blk) (h : Half) : (b.loseThreads h).vital = b.vital := by simp [Blk.loseThreads]
@[simp] theorem Blk.vital_dropBound (b : Blk) (h : Half) : (b.dropBound h).vital = b.vital := by simp [Blk.dropBound]
@[simp] theorem Blk.vital_dropHalfRegs (b : Blk) (h : Half) : (b.dropHalfRegs h).vital = b.vital := by rfl
@[simp] theorem Blk.vital_instForgotten (b : Blk) (i : Nat) : (b.instForgotten i).vital = b.vital := by rfl
@[simp] theorem Blk.vital_loseInsts (b : Blk) (h : Half) : (b.loseInsts h).vital = b.vital := by simp [Blk.loseInsts]
@[simp] theorem Blk.vital_losePort (b : Blk) (h : PortId) : (b.losePort h).vital = b.vital := by simp [Blk.losePort]
@[simp] theorem Blk.vital_shutIn (b : Blk) (h : Half) : (b.shutIn h).vital = b.vital := by rfl
@[simp] theorem Blk.vital_sensOff (b : Blk) : b.sensOff.vital = b.vital := by rfl
@[simp] theorem Blk.vital_railsUp (b : Blk) : b.railsUp.vital = b.vital := by rfl

theorem Blk.vital_of_powerOn {b c : Blk} (h : b.powerOn = .ok c) : c.vital = b.vital := by
  unfold Blk.powerOn at h
  repeat' split at h
  all_goals simp at h
  simp [← h]

/-! What a commit does beside the configuration. -/

@[simp] theorem Blk.vital_endQpWaiting (b : Blk) (n status : Nat) : (b.endQpWaiting n status).vital = b.vital := by
  simp [Blk.endQpWaiting]

@[simp] theorem Blk.vital_endPosted (b : Blk) (k status : Nat) : (b.endPosted k status).vital = b.vital := by
  simp [Blk.endPosted]

@[simp] theorem Blk.vital_endQueue (b : Blk) (i q status : Nat) : (b.endQueue i q status).vital = b.vital := by
  unfold Blk.endQueue
  refine Blk.vital_foldl (fun b e => ?_) _ b
  dsimp only
  repeat' split
  all_goals simp

@[simp] theorem Blk.vital_endBuffers (b : Blk) (i : Nat) : (b.endBuffers i).vital = b.vital := by simp [Blk.endBuffers]
@[simp] theorem Blk.vital_instDisable (b : Blk) (i : Nat) : (b.instDisable i).vital = b.vital := by simp [Blk.instDisable]

@[simp] theorem Blk.vital_instDestroy (b : Blk) (i ep : Nat) : (b.instDestroy i ep).vital = b.vital := by
  simp [Blk.instDestroy]

@[simp] theorem Blk.vital_instGone (b : Blk) (i : Nat) : (b.instGone i).vital = b.vital := by simp [Blk.instGone]

@[simp] theorem Blk.vital_numberFree (b : Blk) (o : Obj) : (b.numberFree o).vital = b.vital := by
  unfold Blk.numberFree
  split <;> simp

@[simp] theorem Blk.vital_qpEnable (b : Blk) (n : Nat) : (b.qpEnable n).vital = b.vital := by simp [Blk.qpEnable]
@[simp] theorem Blk.vital_portGone (b : Blk) (l : Nat) : (b.portGone l).vital = b.vital := by simp [Blk.portGone]
@[simp] theorem Blk.vital_winDrains (b : Blk) (k : Nat) : (b.winDrains k).vital = b.vital := by simp [Blk.winDrains]

@[simp] theorem Blk.vital_objEnable (b : Blk) (o : Obj) : (b.objEnable o).vital = b.vital := by
  unfold Blk.objEnable
  split <;> simp

@[simp] theorem Blk.vital_objDisable (b : Blk) (o : Obj) : (b.objDisable o).vital = b.vital := by
  unfold Blk.objDisable
  split <;> simp

@[simp] theorem Blk.vital_objDestroy (b : Blk) (o : Obj) (ep : Nat) : (b.objDestroy o ep).vital = b.vital := by
  unfold Blk.objDestroy
  split <;> simp

@[simp] theorem Blk.vital_portAfter (b : Blk) (o : Obj) : (b.portAfter o).vital = b.vital := by
  unfold Blk.portAfter
  split <;> simp

@[simp] theorem Blk.vital_before (b : Blk) (ep : Nat) (s : Issuer) (x : CInstr) : (b.before ep s x).vital = b.vital := by
  unfold Blk.before
  dsimp only
  repeat' split
  all_goals simp

@[simp] theorem Blk.vital_xRetry (b : Blk) (i : Nat) : (b.xRetry i).vital = b.vital := by simp [Blk.xRetry]

@[simp] theorem Blk.vital_after (b : Blk) (prior : List CInstr) (x : CInstr) : (b.after prior x).vital = b.vital := by
  unfold Blk.after
  dsimp only
  repeat' split
  all_goals simp

@[simp] theorem Blk.vital_resetProgram (b : Blk) (x : CInstr) : (b.resetProgram x).vital = b.vital := by
  simp [Blk.resetProgram]

@[simp] theorem Blk.vital_applyInstr (b : Blk) (ep : Nat) (s : Issuer) (prior : List CInstr) (x : CInstr) :
    (b.applyInstr ep s prior x).vital = b.vital := by
  unfold Blk.applyInstr
  exact (Blk.vital_resetProgram _ x).trans ((Blk.vital_after _ prior x).trans (b.vital_before ep s x))

@[simp] theorem Blk.vital_applyAll (ep : Nat) (s : Issuer) (b : Blk) (prior l : List CInstr) :
    (Blk.applyAll ep s b prior l).vital = b.vital := by
  induction l generalizing b prior with
  | nil => rfl
  | cons x r ih => simp [Blk.applyAll, ih]

@[simp] theorem Blk.vital_drainEnd (b : Blk) (d : Drain) : (b.drainEnd d).vital = b.vital := by simp [Blk.drainEnd]

/-! Control programs. -/

@[simp] theorem Blk.vital_ends (b : Blk) (k : CqKey) (e : Ended) : (b.ends k e).vital = b.vital := by rfl

@[simp] theorem Blk.vital_refuseProg (b : Blk) (k : CqKey) (p : Prog) (reason bad : Nat) (sums : List (Nat × List Byte)) :
    (b.refuseProg k p reason bad sums).vital = b.vital := by
  simp [Blk.refuseProg]

@[simp] theorem Blk.vital_refuseAlone (b : Blk) (k : CqKey) (idx : W16) (e : W512) :
    (b.refuseAlone k idx e).vital = b.vital := by
  rfl

@[simp] theorem Blk.vital_stagedView (b : Blk) (p : Prog) : (b.stagedView p).vital = b.vital := by simp [Blk.stagedView]

@[simp] theorem Blk.vital_openProg (b : Blk) (k : CqKey) (idx : W16) (e : W512) : (b.openProg k idx e).vital = b.vital := by
  rfl

@[simp] theorem Blk.vital_closeProg (b : Blk) (k : CqKey) : (b.closeProg k).vital = b.vital := by rfl

@[simp] theorem Blk.vital_stage (b : Blk) (k : CqKey) (p : Prog) (e : W512) (ext : List Byte) (extRead : Nat) :
    (b.stage k p e ext extRead).vital = b.vital := by
  rfl

@[simp] theorem Blk.vital_setNext (b : Blk) (p : Prog) : (b.setNext p).vital = b.vital := by simp [Blk.setNext]
@[simp] theorem Blk.vital_dropNext (b : Blk) (p : Prog) : (b.dropNext p).vital = b.vital := by simp [Blk.dropNext]
@[simp] theorem Blk.vital_point3 (b : Blk) (s : Issuer) : (b.point3 s).vital = b.vital := by simp [Blk.point3]

@[simp] theorem Blk.vital_abortReq (b : Blk) (k : CqKey) (p : Prog) : (b.abortReq k p).vital = b.vital := by
  unfold Blk.abortReq
  repeat' split
  all_goals simp

@[simp] theorem Blk.vital_stalled (b : Blk) (k : CqKey) : (b.stalled k).vital = b.vital := by
  unfold Blk.stalled
  split <;> simp

@[simp] theorem Blk.vital_ctlWrite (b : Blk) (k : CqKey) (a : Nat) (l : List Byte) :
    (b.ctlWrite k a l).vital = b.vital := by
  simp [Blk.ctlWrite]

@[simp] theorem Blk.vital_recordRead (b : Blk) (r : List Byte) : (b.recordRead r).vital = b.vital := by
  simp [Blk.recordRead]

theorem Blk.vital_of_ctlFault {b c : Blk} {k : CqKey} {a : Nat} {ans : Ans} (h : b.ctlFault k a ans = some c) :
    c.vital = b.vital := by
  unfold Blk.ctlFault at h
  split at h
  · simp at h
  · obtain ⟨z, hz, rfl⟩ := Option.map_eq_some_iff.1 h
    exact Blk.vital_of_writeFault hz

@[simp] theorem Blk.vital_writeRecords (b : Blk) (k : CqKey) (e : Ended) (res : Ans) :
    (b.writeRecords k e res).1.vital = b.vital := by
  unfold Blk.writeRecords
  extract_lets l
  split
  · rfl
  · split
    · rfl
    · split
      · next h => exact Blk.vital_of_ctlFault h
      · simp

@[simp] theorem Blk.vital_writeSums (b : Blk) (k : CqKey) (e : Ended) (ans : Ans) :
    (b.writeSums k e ans).vital = b.vital := by
  refine Blk.vital_foldl (fun b x => ?_) _ b
  split
  · next h => exact Blk.vital_of_ctlFault h
  · simp

@[simp] theorem Blk.vital_noteSteps (b : Blk) : b.noteSteps.vital = b.vital := by rfl

@[simp] theorem Blk.vital_progComplete (b : Blk) (k : CqKey) (res sum : Ans) :
    (b.progComplete k res sum).vital = b.vital := by
  unfold Blk.progComplete
  split <;> simp

/-! Queue commands. -/

@[simp] theorem Blk.vital_pageWrite (b : Blk) (h i : Nat) {f : Blk → Blk} (hf : (f b).vital = b.vital) :
    (b.pageWrite h i f).vital = b.vital := by
  simp [Blk.pageWrite, hf]

@[simp] theorem Blk.vital_f0Write (b : Blk) (h : Nat) {f : Blk → Blk} (hf : (f b).vital = b.vital) :
    (b.f0Write h f).vital = b.vital := by
  simp [Blk.f0Write, hf]

@[simp] theorem Blk.vital_doorbell (b : Blk) (i : Nat) : (b.doorbell i).vital = b.vital := by simp [Blk.doorbell]

@[simp] theorem Blk.vital_extRead (b : Blk) (r : WqR) (e : W512) (ext : Ans) : (b.extRead r e ext).1.vital = b.vital := by
  unfold Blk.extRead
  repeat' split
  all_goals simp

@[simp] theorem Blk.vital_takeInstr (b : Blk) (r : WqR) (k : CqKey) (raw : W512) (ext : Ans) :
    (b.takeInstr r k raw ext).vital = b.vital := by
  simp [Blk.takeInstr]

@[simp] theorem Blk.vital_entryRead (b : Blk) (r : WqR) (ans ext : Ans) : (b.entryRead r ans ext).vital = b.vital := by
  unfold Blk.entryRead
  repeat' split
  all_goals simp

@[simp] theorem Blk.vital_mssEntry (b : Blk) (ans ext : Ans) : (b.mssEntry ans ext).vital = b.vital := by
  unfold Blk.mssEntry
  split <;> simp

@[simp] theorem Blk.vital_fetchEntry (b : Blk) (r : WqR) (ans ext : Ans) : (b.fetchEntry r ans ext).vital = b.vital := by
  simp [Blk.fetchEntry]

@[simp] theorem Blk.vital_resume (b : Blk) (r : WqR) : (b.resume r).vital = b.vital := by simp [Blk.resume]

@[simp] theorem Blk.vital_fenceStart (b : Blk) (i q : Nat) : (b.fenceStart i q).vital = b.vital := by
  unfold Blk.fenceStart
  repeat' split
  all_goals simp

@[simp] theorem Blk.vital_ctlWqWrite (b : Blk) (h : Nat) (v : W32) : (b.ctlWqWrite h v).vital = b.vital := by
  simp [Blk.ctlWqWrite]

@[simp] theorem Blk.vital_cqFaulted (b : Blk) (i q : Nat) (mirror : Bool) (c : XFault) :
    (b.cqFaulted i q mirror c).vital = b.vital := by
  simp [Blk.cqFaulted]

@[simp] theorem Blk.vital_eqFaulted (b : Blk) (i e : Nat) (mirror : Bool) (c : XFault) :
    (b.eqFaulted i e mirror c).vital = b.vital := by
  simp [Blk.eqFaulted]

/-! Faults of units. -/

@[simp] theorem Blk.vital_errorRecord (b : Blk) (x : ErrBody) : (b.errorRecord x).vital = b.vital := by
  simp [Blk.errorRecord]

@[simp] theorem Blk.vital_uncovered (b : Blk) (x : ErrBody) : (b.uncovered x).vital = b.vital := by simp [Blk.uncovered]
@[simp] theorem Blk.vital_useSpare (b : Blk) (kind pool : Nat) : (b.useSpare kind pool).vital = b.vital := by rfl

@[simp] theorem Blk.vital_failUnit (b : Blk) (kind pool : Nat) (x : ErrBody) (action : Nat) {gone : Blk → Blk}
    (h : ∀ c, (gone c).vital = c.vital) : (b.failUnit kind pool x action gone).vital = b.vital := by
  unfold Blk.failUnit
  split <;> simp [h]

@[simp] theorem Blk.vital_residueReplay (b : Blk) (t path : Nat) (recurs : Bool) (ns : Nat) :
    (b.residueReplay t path recurs ns).vital = b.vital := by
  simp [Blk.residueReplay]

@[simp] theorem Blk.vital_laneFault (b : Blk) (p lane ns : Nat) : (b.laneFault p lane ns).vital = b.vital := by
  simp [Blk.laneFault]

@[simp] theorem Blk.vital_laneTested (b : Blk) (p lane : Nat) (ok : Bool) : (b.laneTested p lane ok).vital = b.vital := by
  simp [Blk.laneTested]

@[simp] theorem Blk.vital_bankOut (b : Blk) (p : Nat) (ternary : Bool) (bank : Nat) (predictive : Bool) (ns : Nat) :
    (b.bankOut p ternary bank predictive ns).vital = b.vital := by
  simp [Blk.bankOut]

@[simp] theorem Blk.vital_bankFault (b : Blk) (p : Nat) (ternary : Bool) (bank ns : Nat) :
    (b.bankFault p ternary bank ns).vital = b.vital := by
  simp [Blk.bankFault]

@[simp] theorem Blk.vital_bankRebuilt (b : Blk) (p : Nat) (ternary : Bool) (ns : Nat) :
    (b.bankRebuilt p ternary ns).vital = b.vital := by
  unfold Blk.bankRebuilt
  split <;> simp

@[simp] theorem Blk.vital_hogBankOut (b : Blk) (h : Half) (bank : Nat) (predictive : Bool) (ns : Nat) :
    (b.hogBankOut h bank predictive ns).vital = b.vital :=
  b.vital_failUnit _ _ _ _ (fun _ => rfl)

@[simp] theorem Blk.vital_loseUnit (b : Blk) (p u : Nat) : (b.loseUnit p u).vital = b.vital := by rfl

@[simp] theorem Blk.vital_reHome (b : Blk) (p u : Nat) : (b.reHome p u).vital = b.vital := by
  simp [Blk.reHome, Function.comp_def]

@[simp] theorem Blk.vital_inlineFault (b : Blk) (p u ns : Nat) : (b.inlineFault p u ns).vital = b.vital := by
  simp [Blk.inlineFault]

@[simp] theorem Blk.vital_lookasideFault (b : Blk) (u ns : Nat) : (b.lookasideFault u ns).vital = b.vital := by
  simp [Blk.lookasideFault]

@[simp] theorem Blk.vital_setBridge (b : Blk) (toEast : Bool) (d : BridgeDir) : (b.setBridge toEast d).vital = b.vital := by
  rfl

@[simp] theorem Blk.vital_bridgeFault (b : Blk) (toEast : Bool) (lane : Nat) :
    (b.bridgeFault toEast lane).vital = b.vital := by
  rfl

@[simp] theorem Blk.vital_bridgeTrained (b : Blk) (toEast : Bool) (ns : Nat) :
    (b.bridgeTrained toEast ns).vital = b.vital := by
  unfold Blk.bridgeTrained
  dsimp only
  split <;> simp

@[simp] theorem Blk.vital_corrected (b : Blk) (s : Nat) (h : Half) (unit sub addr : Nat) :
    (b.corrected s h unit sub addr).vital = b.vital := by
  simp [Blk.corrected]

@[simp] theorem Blk.vital_refetched (b : Blk) (s : Nat) (h : Half) (unit sub addr ns : Nat) :
    (b.refetched s h unit sub addr ns).vital = b.vital := by
  simp [Blk.refetched]

@[simp] theorem Blk.vital_poisonAt (b : Blk) (s addr n ns : Nat) : (b.poisonAt s addr n ns).vital = b.vital := by
  simp [Blk.poisonAt]

@[simp] theorem Blk.vital_scrub (b : Blk) (s addr n : Nat) : (b.scrub s addr n).vital = b.vital := by simp [Blk.scrub]

/-! Speed, sensors, clocks. -/

@[simp] theorem Blk.vital_speedNote (b : Blk) (was : Bool) : (b.speedNote was).vital = b.vital := by simp [Blk.speedNote]
@[simp] theorem Blk.vital_floorMiss (b : Blk) (n : Nat) : (b.floorMiss n).vital = b.vital := by simp [Blk.floorMiss]

@[simp] theorem Blk.vital_capUnmet (b : Blk) : b.capUnmet.vital = b.vital := by
  unfold Blk.capUnmet
  split <;> simp

@[simp] theorem Blk.vital_avsUpdate (b : Blk) (d : Nat) (rates : List W16) (inputW : W16) :
    (b.avsUpdate d rates inputW).vital = b.vital := by
  simp [Blk.avsUpdate]

@[simp] theorem Blk.vital_sensorReads (b : Blk) (n : Nat) (v : W16) : (b.sensorReads n v).vital = b.vital := by
  simp [Blk.sensorReads]

@[simp] theorem Blk.vital_storeErrorAlarm (b : Blk) (ns : Nat) : (b.storeErrorAlarm ns).vital = b.vital := by
  simp [Blk.storeErrorAlarm]

@[simp] theorem Blk.vital_refChange (b : Blk) (r : ClkRef) (lost : Bool) : (b.refChange r lost).vital = b.vital := by
  unfold Blk.refChange
  repeat' split
  all_goals simp

/-! The management subsystem. -/

@[simp] theorem Blk.vital_updMssPort (b : Blk) (v : Transport) (f : MssPort → MssPort) :
    (b.updMssPort v f).vital = b.vital := by
  rfl

@[simp] theorem Blk.vital_mssReply (b : Blk) (v : Transport) (cmd : Nat) (tag : W32) (status : Nat) (body : List Byte) :
    (b.mssReply v cmd tag status body).vital = b.vital := by
  unfold Blk.mssReply
  split <;> simp

@[simp] theorem Blk.vital_mssServe (b : Blk) (v : Transport) (cmd : Nat) (tag : W32) (body : List Byte)
    (allowed lengthOk operandsOk : Bool) {f : Blk → Blk × MssAns} (h : ∀ c, (f c).1.vital = c.vital) :
    (b.mssServe v cmd tag body allowed lengthOk operandsOk f).vital = b.vital := by
  unfold Blk.mssServe
  dsimp only
  repeat' split
  all_goals simp [h]

@[simp] theorem Blk.vital_mssPlain (b : Blk) (v : Transport) (cmd : Nat) (tag : W32) (body : List Byte) (allowed : Bool)
    {f : Blk → Blk × MssAns} (h : ∀ c, (f c).1.vital = c.vital) : (b.mssPlain v cmd tag body allowed f).vital = b.vital :=
  b.vital_mssServe v cmd tag body allowed _ _ h

@[simp] theorem Blk.vital_getMore (b : Blk) (v : Transport) (tag : W32) (body : List Byte) :
    (b.getMore v tag body).vital = b.vital := by
  simp [Blk.getMore]

@[simp] theorem Blk.vital_sensorRead (b : Blk) (v : Transport) (tag : W32) (body : List Byte) :
    (b.sensorRead v tag body).vital = b.vital := by
  simp [Blk.sensorRead]

@[simp] theorem Blk.vital_attest (b : Blk) (v : Transport) (tag : W32) (body : List Byte) :
    (b.attest v tag body).vital = b.vital := by
  simp [Blk.attest]

@[simp] theorem Blk.vital_logRead (b : Blk) (v : Transport) (tag : W32) (body : List Byte) :
    (b.logRead v tag body).vital = b.vital := by
  simp [Blk.logRead]

@[simp] theorem Blk.vital_sealNow (b : Blk) : b.sealNow.vital = b.vital := by rfl
@[simp] theorem Blk.vital_reelSeal (b : Blk) : b.reelSeal.vital = b.vital := by simp [Blk.reelSeal]

@[simp] theorem Blk.vital_sealSigned (b : Blk) (k : Nat) : (b.sealSigned k).vital = b.vital := by
  unfold Blk.sealSigned
  dsimp only
  repeat' split
  all_goals simp

@[simp] theorem Blk.vital_logSeal (b : Blk) (v : Transport) (tag : W32) (body : List Byte) :
    (b.logSeal v tag body).vital = b.vital := by
  simp [Blk.logSeal]

@[simp] theorem Blk.vital_sealRead (b : Blk) (v : Transport) (tag : W32) (body : List Byte) :
    (b.sealRead v tag body).vital = b.vital :=
  b.vital_mssServe _ _ _ _ _ _ _ (fun c => by split <;> rfl)

@[simp] theorem Blk.vital_settleResets (b : Blk) : b.settleResets.vital = b.vital := by simp [Blk.settleResets]

@[simp] theorem Blk.vital_resetRecord (b : Blk) (v : Transport) (body : List Byte) :
    (b.resetRecord v body).vital = b.vital := by
  simp [Blk.resetRecord]

@[simp] theorem Blk.vital_mssReset (b : Blk) (scope : Nat) (v : Transport) (tag : W32) (body : List Byte)
    {f : Blk → Blk × Option ResetKey} (h : ∀ c, (f c).1.vital = c.vital) : (b.mssReset scope v tag body f).vital = b.vital := by
  unfold Blk.mssReset
  extract_lets b0 r
  have done : r.1.vital = b.vital := by simp [r, b0, h]
  split
  · rfl
  · split
    · simp [b0]
    · split
      · simp [b0]
      · split
        · simp [b0]
        · split
          · simp [done]
          · exact (Blk.vital_settleResets _).trans done

@[simp] theorem Blk.vital_resetFunction (b : Blk) (v : Transport) (tag : W32) (body : List Byte) :
    (b.resetFunction v tag body).vital = b.vital := by
  simp [Blk.resetFunction]

@[simp] theorem Blk.vital_perstLike (b : Blk) (h : PortId) : (b.perstLike h).vital = b.vital := by simp [Blk.perstLike]

@[simp] theorem Blk.vital_resetPort (b : Blk) (v : Transport) (tag : W32) (body : List Byte) :
    (b.resetPort v tag body).vital = b.vital := by
  simp [Blk.resetPort]

@[simp] theorem Blk.vital_mssPowerOn (b : Blk) (v : Transport) (tag : W32) (body : List Byte) :
    (b.mssPowerOn v tag body).vital = b.vital := by
  refine b.vital_mssPlain _ _ _ _ _ (fun c => ?_)
  split
  · next h => exact Blk.vital_of_powerOn h
  · rfl

@[simp] theorem Blk.vital_keyErase (b : Blk) (v : Transport) (tag : W32) (body : List Byte) :
    (b.keyErase v tag body).vital = b.vital := by
  simp [Blk.keyErase]

@[simp] theorem Blk.vital_keyRearm (b : Blk) (v : Transport) (tag : W32) (body : List Byte) :
    (b.keyRearm v tag body).vital = b.vital :=
  b.vital_mssPlain _ _ _ _ _ (fun c => by split <;> rfl)

@[simp] theorem Blk.vital_importOpen (b : Blk) (v : Transport) (tag : W32) (body : List Byte) :
    (b.importOpen v tag body).vital = b.vital :=
  b.vital_mssServe _ _ _ _ _ _ _ (fun c => by split <;> rfl)

@[simp] theorem Blk.vital_importSet (b : Blk) (v : Transport) (tag : W32) (body : List Byte) :
    (b.importSet v tag body).vital = b.vital := by
  refine b.vital_mssServe _ _ _ _ _ _ _ (fun c => ?_)
  split
  · rfl
  · split <;> rfl

@[simp] theorem Blk.vital_importTimeout (b : Blk) : b.importTimeout.vital = b.vital := by
  unfold Blk.importTimeout
  split <;> simp

@[simp] theorem Blk.vital_mssSet (b : Blk) (code : Nat) (v : Transport) (tag : W32) (body : List Byte) (allowed inRange : Bool)
    (old new : Nat) {f : Blk → Blk} (h : ∀ c, (f c).vital = c.vital) :
    (b.mssSet code v tag body allowed inRange old new f).vital = b.vital := by
  unfold Blk.mssSet
  split
  · rfl
  · exact b.vital_mssServe _ _ _ _ _ _ _ (fun c => (Blk.vital_reel _ _ _ _).trans (h c))

@[simp] theorem Blk.vital_setOwnerPort (b : Blk) (v : Transport) (tag : W32) (body : List Byte) :
    (b.setOwnerPort v tag body).vital = b.vital :=
  b.vital_mssSet _ _ _ _ _ _ _ _ (fun _ => rfl)

@[simp] theorem Blk.vital_setWidth (b : Blk) (v : Transport) (tag : W32) (body : List Byte) :
    (b.setWidth v tag body).vital = b.vital :=
  b.vital_mssSet _ _ _ _ _ _ _ _ (fun _ => rfl)

@[simp] theorem Blk.vital_setMargin (b : Blk) (v : Transport) (tag : W32) (body : List Byte) :
    (b.setMargin v tag body).vital = b.vital :=
  b.vital_mssSet _ _ _ _ _ _ _ _ (fun c => by simp only [Blk.vital_mk, Blk.vital_eta])

@[simp] theorem Blk.vital_supWrite (b : Blk) (h : Half) (t : Nat) : (b.supWrite h t).vital = b.vital := by
  simp [Blk.supWrite]

@[simp] theorem Blk.vital_setSupervisor (b : Blk) (v : Transport) (tag : W32) (body : List Byte) :
    (b.setSupervisor v tag body).vital = b.vital := by
  simp [Blk.setSupervisor]

@[simp] theorem Blk.vital_setMgmtAddr (b : Blk) (v : Transport) (tag : W32) (body : List Byte) :
    (b.setMgmtAddr v tag body).vital = b.vital :=
  b.vital_mssSet _ _ _ _ _ _ _ _ (fun _ => rfl)

@[simp] theorem Blk.vital_arpRequest (b : Blk) (target : W32) : (b.arpRequest target).vital = b.vital := by
  simp [Blk.arpRequest]

@[simp] theorem Blk.vital_mssDown (b : Blk) : b.mssDown.vital = b.vital := by rfl
@[simp] theorem Blk.vital_mssRestart (b : Blk) : b.mssRestart.vital = b.vital := by simp [Blk.mssRestart]

@[simp] theorem Blk.vital_mssReturn (b : Blk) : b.mssReturn.vital = b.vital := by
  unfold Blk.mssReturn
  repeat' split
  all_goals simp

@[simp] theorem Blk.vital_mssWrite (b : Blk) (v : Transport) (tag : W32) (body : List Byte) :
    (b.mssWrite v tag body).vital = b.vital :=
  b.vital_mssServe _ _ _ _ _ _ _ (fun c => by dsimp only; split <;> rfl)

@[simp] theorem Blk.vital_mssSwitch (b : Blk) (v : Transport) (tag : W32) (body : List Byte) :
    (b.mssSwitch v tag body).vital = b.vital := by
  unfold Blk.mssSwitch
  extract_lets ok b1 f f1
  have answered : b1.vital = b.vital := b.vital_mssPlain _ _ _ _ _ (fun c => by split <;> rfl)
  split
  · exact (Blk.vital_mssDown _).trans answered
  · exact answered

@[simp] theorem Blk.vital_mssConfirm (b : Blk) (v : Transport) (tag : W32) (body : List Byte) :
    (b.mssConfirm v tag body).vital = b.vital :=
  b.vital_mssPlain _ _ _ _ _ (fun c => by dsimp only; split <;> simp)

@[simp] theorem Blk.vital_trialTimeout (b : Blk) : b.trialTimeout.vital = b.vital := by
  unfold Blk.trialTimeout
  split <;> simp

@[simp] theorem Blk.vital_mssDebug (b : Blk) (v : Transport) (tag : W32) (accepted : Bool) {f : Blk → Blk × List Byte}
    (h : ∀ c, (f c).1.vital = c.vital) : (b.mssDebug v tag accepted f).vital = b.vital := by
  unfold Blk.mssDebug
  extract_lets busy b0 r
  clear_value busy
  split
  · rfl
  · split
    · simp [b0]
    · split <;> simp [b0, r, h]

@[simp] theorem Blk.vital_dbgWrite (b : Blk) (t : Nat) (i : DbgItem) (v : W64) : (b.dbgWrite t i v).vital = b.vital := by
  unfold Blk.dbgWrite
  split <;> simp

/-! Register reads. -/

@[simp] theorem Blk.vital_deadRead (b : Blk) (w : Who) (g : Gate) : (b.deadRead w g).vital = b.vital := by
  unfold Blk.deadRead
  split <;> simp

@[simp] theorem Blk.vital_deadWrite (b : Blk) (w : Who) (g : Gate) : (b.deadWrite w g).vital = b.vital := by
  unfold Blk.deadWrite
  split <;> simp

@[simp] theorem Blk.vital_regWhole (b : Blk) (w : Who) (r : Reg) : (b.regWhole w r).1.vital = b.vital := by
  rw [Blk.regWhole_rest]
  rfl

@[simp] theorem Blk.vital_regPart (b : Blk) (w : Who) (r : Reg) (p : Part) : (b.regPart w r p).1.vital = b.vital := by
  unfold Blk.regPart
  dsimp only
  repeat' split
  all_goals simp

@[simp] theorem Blk.vital_lowRead (b : Blk) (w : Who) (r : Reg) : (b.lowRead w r).vital = b.vital := by
  have known := b.vital_regPart w r .low
  unfold Blk.lowRead
  split
  · rfl
  · split
    · exact known
    · simp

@[simp] theorem Blk.vital_nsecReadBy (b : Blk) (w : Who) (wide : Bool) : (b.nsecReadBy w wide).vital = b.vital := by
  unfold Blk.nsecReadBy
  dsimp only
  repeat' split
  all_goals simp

/-! Registers of the THREAD block. -/

@[simp] theorem Blk.vital_chanChange (b : Blk) {f : Blk → Blk} (h : (f b).vital = b.vital) :
    (b.chanChange f).vital = b.vital :=
  (b.vital_remeasure (f b)).trans h

@[simp] theorem Blk.vital_chDisable (b : Blk) (c : Nat) : (b.chDisable c).vital = b.vital := by simp [Blk.chDisable]

@[simp] theorem Blk.vital_chCfgWrite (b : Blk) (c : Nat) (v : W64) : (b.chCfgWrite c v).vital = b.vital := by
  simp [Blk.chCfgWrite]

@[simp] theorem Blk.vital_restartMeasure (b : Blk) (g : Nat) : (b.restartMeasure g).vital = b.vital := by rfl

@[simp] theorem Blk.vital_thrGroupWrite (b : Blk) (t : Nat) (v : W64) : (b.thrGroupWrite t v).vital = b.vital := by
  simp [Blk.thrGroupWrite]

@[simp] theorem Blk.vital_grpCtrlWrite (b : Blk) (g : Nat) (v : W64) : (b.grpCtrlWrite g v).vital = b.vital := by rfl

@[simp] theorem Blk.vital_supRegWrite (b : Blk) (h : Half) (v : W64) : (b.supRegWrite h v).vital = b.vital := by
  simp [Blk.supRegWrite]

@[simp] theorem Blk.vital_consumed (b : Blk) (o : RecOwner) : (b.consumed o).vital = b.vital := by
  cases o <;> rfl

@[simp] theorem Blk.vital_fqCiWrite (b : Blk) (h : Half) (v : W64) : (b.fqCiWrite h v).vital = b.vital := by
  simp [Blk.fqCiWrite]

@[simp] theorem Blk.vital_signalWrite (b : Blk) (t : Nat) (v : W64) : (b.signalWrite t v).vital = b.vital := by
  simp [Blk.signalWrite]

/-! Register writes and device space. -/

@[simp] theorem Blk.vital_mbxCtrlWrite (b : Blk) (h : PortId) (v : W32) : (b.mbxCtrlWrite h v).vital = b.vital := by
  simp [Blk.mbxCtrlWrite]

@[simp] theorem Blk.vital_mbxReqWrite (b : Blk) (h : PortId) (k : Nat) (v : W32) :
    (b.mbxReqWrite h k v).vital = b.vital := by
  rfl

@[simp] theorem Blk.vital_puntCtrlWrite (b : Blk) (p : Nat) (v : W64) : (b.puntCtrlWrite p v).vital = b.vital := by
  simp [Blk.puntCtrlWrite]

@[simp] theorem Blk.vital_laneWrite (b : Blk) (l : Nat) (f : EthLane → EthLane) : (b.laneWrite l f).vital = b.vital := by
  simp [Blk.laneWrite]

@[simp] theorem Blk.vital_trigAddWrite (b : Blk) (i : Nat) (v : W32) : (b.trigAddWrite i v).vital = b.vital := by
  simp [Blk.trigAddWrite]

@[simp] theorem Blk.vital_unstage (b : Blk) (w : Who) (r : Reg) : (b.unstage w r).vital = b.vital := by rfl

@[simp] theorem Blk.vital_oddAccess (b : Blk) (w : Who) (r : Reg) (off n : Nat) (write : Bool) :
    (b.oddAccess w r off n write).vital = b.vital := by
  simp [Blk.oddAccess]

@[simp] theorem Blk.vital_windowRead (b : Blk) (d off : Nat) (cfg : Bool) (n : Nat) :
    (b.windowRead d off cfg n).1.vital = b.vital := by
  unfold Blk.windowRead
  dsimp only
  repeat' split
  all_goals simp

@[simp] theorem Blk.vital_windowWrite (b : Blk) (d off : Nat) (cfg : Bool) (n : Nat) (v : W64) :
    (b.windowWrite d off cfg n v).vital = b.vital := by
  simp [Blk.windowWrite]

theorem Blk.vital_of_spaceRead {b : Blk} {t a n : Nat} {r : Blk × W64} (h : b.spaceRead t a n = r) :
    r.1.vital = b.vital := by
  obtain ⟨f, hf⟩ : ∃ f, f = Blk.spaceRead := ⟨_, rfl⟩
  rw [← hf] at h
  delta Blk.spaceRead at hf
  subst hf
  beta_reduce at h
  generalize a - devBase = x at h
  extract_lets x' w at h
  clear_value x' w
  generalize dspWindow x' = y, devReg x' = z at h
  rcases y with _ | ⟨d, off, cfg⟩
  · rcases z with _ | ⟨g, o⟩
    · simp [← h]
    · dsimp only at h
      split at h
      · simp [← h]
      · split at h
        · rw [← h]
          exact (Blk.vital_nsecRead _ _ _).trans ((Blk.vital_regWhole _ _ _).trans (Blk.vital_regWhole _ _ _))
        · repeat' split at h
          all_goals simp [← h]
  · dsimp only at h
    split at h <;> simp [← h]

@[simp] theorem Blk.vital_spaceRead (b : Blk) (t a n : Nat) : (b.spaceRead t a n).1.vital = b.vital :=
  Blk.vital_of_spaceRead rfl

/-! Power-up and read timeouts. -/

@[simp] theorem Blk.vital_powerUp (b : Blk) (boot owner : BitVec 4) (any jig : Bool) :
    (b.powerUp boot owner any jig).vital = b.vital := by
  unfold Blk.powerUp
  dsimp only
  repeat' split
  all_goals simp

@[simp] theorem Blk.vital_aerTimeout (b : Blk) (h : Nat) (f1 : Bool) : (b.aerTimeout h f1).vital = b.vital := by rfl

/-! Training and Jig tests. -/

theorem Blk.vital_of_spareFor {b : Blk} {u : FailedUnit} {y : Blk × Nat} (h : b.spareFor u = some y) :
    y.1.vital = b.vital := by
  unfold Blk.spareFor at h
  dsimp only at h
  repeat' split at h
  all_goals simp at h
  all_goals simp [← h]

@[simp] theorem Blk.vital_unitFails (b : Blk) (u : FailedUnit) : (b.unitFails u).1.vital = b.vital := by
  unfold Blk.unitFails
  split
  · next h => simpa using Blk.vital_of_spareFor h
  · simp

@[simp] theorem Blk.vital_unitsFail (b : Blk) (us : List FailedUnit) : (b.unitsFail us).1.vital = b.vital := by
  have step : ∀ (us : List FailedUnit) (x : Blk × List FailedUnit), (us.foldl (fun x u =>
      ((x.1.unitFails u).1, if (x.1.unitFails u).2 then x.2 else x.2 ++ [u])) x).1.vital = x.1.vital := by
    intro us
    induction us with
    | nil => exact fun _ => rfl
    | cons u us ih => exact fun x => (ih _).trans (x.1.vital_unitFails u)
  exact step us (b, [])

@[simp] theorem Blk.vital_dataTrained (b : Blk) (fails : List FailedUnit) : (b.dataTrained fails).vital = b.vital := by
  simp [Blk.dataTrained]

@[simp] theorem Blk.vital_jigDone (b : Blk) (i : JigItem) (fails : List FailedUnit) :
    (b.jigDone i fails).vital = b.vital := by
  simp [Blk.jigDone]

/-! Packets to the service core. -/

@[simp] theorem Blk.vital_pauseExpire (b : Blk) (l tc : Nat) : (b.pauseExpire l tc).vital = b.vital := by
  unfold Blk.pauseExpire
  dsimp only
  split <;> simp

@[simp] theorem Blk.vital_pfcRepeat (b : Blk) (l prio : Nat) : (b.pfcRepeat l prio).vital = b.vital := by
  unfold Blk.pfcRepeat
  split <;> simp

/-! One nanosecond. -/

@[simp] theorem Blk.vital_slotEnds (b : Blk) (c : Nat) : (b.slotEnds c).vital = b.vital := by simp [Blk.slotEnds]

end Sys2Proof.Machine
end

section
/-! SUPPORT. The functions that write memory, and those that make, retire or withdraw epochs (R28, R29), keep soundness: one
lemma for each, in the order of the model; and the proof of the statement on what every step keeps. -/

namespace Sys2Proof.Machine
open Sys2Proof

/-- Soundness, as a property of what it speaks of. -/
def vitalSound (v : Tab Byte × List Nat × Nat) : Prop :=
  Memory.wf v.1 = true ∧ v.2.1.length ≤ 4 ∧ v.2.1.getLast? = if v.2.2 = 0 then none else some v.2.2

theorem Blk.length_vital (b : Blk) : b.vital.2.1.length = b.ctl.live.length := List.length_map _

theorem Blk.sound_iff (b : Blk) : b.sound ↔ vitalSound b.vital := by
  have hl := b.length_vital
  refine ⟨fun ⟨hm, hf, hn⟩ => ⟨hm, hl.trans_le hf, hn⟩, fun ⟨hm, hf, hn⟩ => ⟨hm, hl.symm.trans_le hf, hn⟩⟩

@[simp] theorem vitalSound_ite {p : Prop} [Decidable p] (v w : Tab Byte × List Nat × Nat) :
    vitalSound (if p then v else w) ↔ if p then vitalSound v else vitalSound w := by
  split <;> rfl

@[simp] theorem Blk.sound_foldl {α : Type} {f : Blk → α → Blk} (hf : ∀ b x, vitalSound b.vital → vitalSound (f b x).vital)
    (l : List α) {b : Blk} (h : vitalSound b.vital) : vitalSound (l.foldl f b).vital := by
  induction l generalizing b with
  | nil => exact h
  | cons x l ih => exact ih (hf b x h)

@[simp] theorem Blk.sound_setBytes {b : Blk} (h : vitalSound b.vital) (a : Nat) (l : List Byte) :
    vitalSound (b.setBytes a l).vital := ⟨b.setBytes_wf a l h.1, h.2⟩

@[simp] theorem Blk.sound_zeroRange {b : Blk} (h : vitalSound b.vital) (a n : Nat) :
    vitalSound (b.zeroRange a n).vital := ⟨b.zeroRange_wf a n h.1, h.2⟩

/-- A reset of the device leaves memory empty and no epoch. -/
@[simp] theorem Blk.sound_withdrawAll (b : Blk) (rails : Bool) : vitalSound (b.withdrawAll rails).vital :=
  ⟨rfl, Nat.zero_le 4, rfl⟩

@[simp] theorem Blk.sound_cold (b : Blk) : vitalSound b.cold.vital := ⟨rfl, Nat.zero_le 4, rfl⟩

/-- What the issue of instructions asks of device space: a read leaves what soundness speaks of, a write leaves soundness. -/
structure DevBus.Lawful (dev : DevBus) : Prop where
  read : ∀ b t x n, (dev.read b t x n).1.vital = b.vital
  write : ∀ {b : Blk}, vitalSound b.vital → ∀ t x n v, vitalSound (dev.write b t x n v).vital

/-- How an instruction ends keeps soundness. -/
def PolRes.keeps : PolRes → Prop
  | .done b _ => vitalSound b.vital
  | .stay b => vitalSound b.vital
  | .exc _ _ _ => True

/-! Memory, events and the tables of the state. -/

@[simp] theorem Blk.sound_devWrite {b : Blk} (h : vitalSound b.vital) (a : Nat) (l : List Byte) :
    vitalSound (b.devWrite a l).vital := by
  simp [Blk.devWrite, h]

/-! Threads, channels, fault records. -/

@[simp] theorem Blk.sound_fqFlush {b : Blk} (hs : vitalSound b.vital) (h : Half) : vitalSound (b.fqFlush h).vital := by
  have written : ∀ (l : List (RecOwner × List Byte)) (acc : Blk × Nat), vitalSound acc.1.vital →
      vitalSound (l.foldl (fun acc r => (acc.1.devWrite ((b.fq h).base.toNat * 4096 + acc.2 % 512 * 32) (r.2 ++ bytesLE 8 b.mono),
        acc.2 + 1)) acc).1.vital := by
    intro l
    induction l with
    | nil => exact fun _ h => h
    | cons r l ih => exact fun acc ha => ih _ (Blk.sound_devWrite ha _ _)
  unfold Blk.fqFlush
  dsimp only
  split
  · simpa using written _ (b, _) hs
  · exact hs

@[simp] theorem Blk.sound_fqRecord {b : Blk} (hs : vitalSound b.vital) (h : Half) (o : RecOwner) (r : List Byte) :
    vitalSound (b.fqRecord h o r).vital := by
  simp [Blk.fqRecord, hs]

@[simp] theorem Blk.sound_faultStop {b : Blk} (h : vitalSound b.vital) (t cause detail : Nat) (epc eaddr : W64) :
    vitalSound (b.faultStop t cause detail epc eaddr).vital := by
  simp [Blk.faultStop, h]

@[simp] theorem Blk.sound_takeException {b : Blk} (h : vitalSound b.vital) (t cause detail : Nat) (epc eaddr : W64) :
    vitalSound (b.takeException t cause detail epc eaddr).vital := by
  simp [Blk.takeException, h]

@[simp] theorem Blk.sound_deadlockRaise {b : Blk} (h : vitalSound b.vital) (g : Nat) :
    vitalSound (b.deadlockRaise g).vital := by
  simp [Blk.deadlockRaise, h]

/-! Hogsheads and traffic managers. -/

@[simp] theorem Blk.sound_punt {b : Blk} (h : vitalSound b.vital) (p : Packet) : vitalSound (b.punt p).vital := by
  have sent : ∀ {b : Blk} (c : Nat) (src : Half) (words : Tab W64) (len : Nat),
      ((b.unitSend c src words len).getD b).vital = b.vital := by
    intro b c src words len
    cases e : b.unitSend c src words len with
    | none => rfl
    | some y => exact Blk.vital_of_unitSend e
  unfold Blk.punt
  dsimp only
  repeat' split
  all_goals simp [h, sent]

@[simp] theorem Blk.sound_dispatch {b : Blk} (h : vitalSound b.vital) (p0 : Packet) : vitalSound (b.dispatch p0).vital := by
  simp [Blk.dispatch, h]

/-! Ingress of a pipeline. -/

@[simp] theorem Blk.sound_ingressRun {b : Blk} (h : vitalSound b.vital) (start p : Packet) (n : Nat) (preds : List (Nat × Nat))
    (learn : Option (Option (Nat × Nat))) (miss : Bool) : vitalSound (b.ingressRun start p n preds learn miss).vital := by
  unfold Blk.ingressRun
  dsimp only
  repeat' split
  all_goals simp [h]

@[simp] theorem Blk.sound_parserEntry {b : Blk} (h : vitalSound b.vital) (p : Nat) (frame : List Byte) (e : Entering)
    (tsId : W16) (launch : Option Nat) (stamp : Option TxStamp) (miss : Bool) :
    vitalSound (b.parserEntry p frame e tsId launch stamp miss).vital := by
  unfold Blk.parserEntry
  dsimp only
  repeat' split
  all_goals simp [h]

@[simp] theorem Blk.sound_ingress {b : Blk} (h : vitalSound b.vital) (src : InSrc) (miss : Bool) :
    vitalSound (b.ingress src miss).vital := by
  unfold Blk.ingress
  cases src with
  | eth l =>
    dsimp only
    split
    · exact h
    · split
      · exact h
      · exact Blk.sound_parserEntry (by simpa using h) _ _ _ _ _ _ _
  | host k =>
    dsimp only
    split
    · exact h
    · split
      · exact h
      · exact Blk.sound_parserEntry (by simpa using h) _ _ _ _ _ _ _

@[simp] theorem Blk.sound_hbmReturn {b : Blk} (h : vitalSound b.vital) (p : Nat) : vitalSound (b.hbmReturn p).vital := by
  unfold Blk.hbmReturn
  repeat' split
  all_goals simp [h]

/-! A thread's access to memory. -/

@[simp] theorem Blk.sound_storeMem {b : Blk} (hs : vitalSound b.vital) (h : Half) (loc : Nat) (l : List Byte) :
    vitalSound (b.storeMem h loc l).vital := by
  simp [Blk.storeMem, hs]

/-! The issue of an instruction. -/

@[simp] theorem Blk.sound_raised {b : Blk} (h : vitalSound b.vital) (t c d : Nat) (pc a : W64) :
    vitalSound (b.raised t c d pc a).vital := by
  simp [Blk.raised, h]

theorem Blk.keeps_retire {b : Blk} (h : vitalSound b.vital) (t : Nat) (rd : GReg) (v pc : W64) :
    (b.retire t rd v pc).keeps := by
  simpa [Blk.retire, PolRes.keeps] using h

theorem Blk.keeps_doLoad {dev : DevBus} (hd : dev.Lawful) {b : Blk} (h : vitalSound b.vital)
    (t n : Nat) (sx : Bool) (rd : GReg) (a pc : W64) : (b.doLoad dev t n sx rd a pc).keeps := by
  unfold Blk.doLoad
  split
  · trivial
  · split
    · exact Blk.keeps_retire (by simpa using h) _ _ _ _
    · exact Blk.keeps_retire (by simpa [hd.read] using h) _ _ _ _
    · trivial

theorem Blk.keeps_doStore {dev : DevBus} (hd : dev.Lawful)
    {b : Blk} (h : vitalSound b.vital) (t n : Nat) (v a pc : W64) : (b.doStore dev t n v a pc).keeps := by
  unfold Blk.doStore
  split
  · trivial
  · split
    · exact Blk.sound_storeMem h _ _ _
    · exact hd.write (by simpa using h) _ _ _ _
    · trivial

theorem Blk.keeps_doAmo {b : Blk} (h : vitalSound b.vital) (t : Nat) (f : AmoF) (rd : GReg) (a x pc : W64) :
    (b.doAmo t f rd a x pc).keeps := by
  unfold Blk.doAmo
  split
  · trivial
  · split
    · refine Blk.keeps_retire ?_ _ _ _ _
      split <;> simp [h]
    · trivial

theorem Blk.keeps_doCache {b : Blk} (h : vitalSound b.vital) (t : Nat) (f : CacheF) (a word pc : W64) :
    (b.doCache t f a word pc).keeps := by
  unfold Blk.doCache
  cases f with
  | iinv =>
    dsimp only
    split
    · trivial
    · split <;> simp [PolRes.keeps, h]
  | prefetch => exact h
  | zero =>
    dsimp only
    split
    · trivial
    · split
      · exact Blk.sound_storeMem h _ _ _
      · trivial

theorem Blk.keeps_doHwSpill {b : Blk} (h : vitalSound b.vital) (t : Nat) (a : W64) (n : Nat) (pc : W64) :
    (b.doHwSpill t a n pc).keeps := by
  unfold Blk.doHwSpill
  split
  · trivial
  · split
    · trivial
    · exact Blk.sound_foldl (fun b j hb => Blk.sound_storeMem hb _ _ _) _ h

theorem Blk.keeps_doHwFill {b : Blk} (h : vitalSound b.vital) (t : Nat) (rd : GReg) (a : W64) (n : Nat) (pc : W64) :
    (b.doHwFill t rd a n pc).keeps := by
  unfold Blk.doHwFill
  split
  · trivial
  · exact Blk.keeps_retire (by simpa using h) _ _ _ _

theorem Blk.keeps_doSrRd {b : Blk} (h : vitalSound b.vital) (t : Nat) (rd : GReg) (n : Nat) (word pc : W64) :
    (b.doSrRd t rd n word pc).keeps := by
  unfold Blk.doSrRd
  split
  · trivial
  · exact Blk.keeps_retire (by simpa using h) _ _ _ _

theorem Blk.keeps_doSrWr {b : Blk} (h : vitalSound b.vital) (t : Nat) (v : W64) (n : Nat) (word pc : W64) :
    (b.doSrWr t v n word pc).keeps := by
  unfold Blk.doSrWr
  split
  · trivial
  · simpa [PolRes.keeps] using h

theorem Blk.keeps_channelOp {b : Blk} (h : vitalSound b.vital) (t : Nat) (rd : GReg) (c n w : Nat) (v pc : W64) :
    (b.doChOpen t rd c n pc).keeps ∧ (b.doChPut t c w v pc).keeps ∧ (b.doChSend t rd c n pc).keeps ∧
      (b.doChRecv t rd c pc).keeps ∧ (b.doChGet t rd c w pc).keeps := by
  refine ⟨?_, ?_, ?_, ?_, ?_⟩
  · unfold Blk.doChOpen
    dsimp only
    repeat' split
    all_goals simp [PolRes.keeps, Blk.retire, h]
  · unfold Blk.doChPut
    split <;> simp [PolRes.keeps, h]
  · unfold Blk.doChSend
    dsimp only
    split <;> simp [PolRes.keeps, Blk.retire, h]
  · unfold Blk.doChRecv
    split
    · trivial
    · split <;> simp [PolRes.keeps, Blk.retire, h]
  · unfold Blk.doChGet
    split <;> simp [PolRes.keeps, Blk.retire, h]

theorem Blk.keeps_doThrCtl {b : Blk} (h : vitalSound b.vital) (t : Nat) (f : ThrF) (rd : GReg)
    (target : Nat) (start word pc : W64) :
    (b.doThrCtl t f rd target start word pc).keeps := by
  unfold Blk.doThrCtl
  repeat' split
  all_goals simp [PolRes.keeps, Blk.retire, h]

theorem Blk.keeps_doWait {b : Blk} (h : vitalSound b.vital) (t : Nat) (rd : GReg) (mask : W64) (timer : Bool) (word : W64) :
    (b.doWait t rd mask timer word).keeps := by
  unfold Blk.doWait
  split <;> simp [PolRes.keeps, h]

theorem Blk.keeps_windowOp {b : Blk} (h : vitalSound b.vital) (t n : Nat) (sx : Bool) (rd : GReg)
    (v a : W64) (off : Nat) (pc : W64) :
    (b.doHwLd t n sx rd a off pc).keeps ∧ (b.doHwSt t n v a off pc).keeps ∧ (b.doCsumHw t rd off n pc).keeps ∧
      (b.doCrcHw t rd off n pc).keeps := by
  refine ⟨?_, ?_, ?_, ?_⟩
  · unfold Blk.doHwLd
    dsimp only
    split <;> simp [PolRes.keeps, Blk.retire, h]
  · unfold Blk.doHwSt
    dsimp only
    split <;> simp [PolRes.keeps, h]
  · unfold Blk.doCsumHw
    split <;> simp [PolRes.keeps, Blk.retire, h]
  · unfold Blk.doCrcHw
    split <;> simp [PolRes.keeps, Blk.retire, h]

/-- What any instruction leaves is sound, where device space is. -/
theorem Blk.keeps_polStep {dev : DevBus} (hd : dev.Lawful) {b : Blk} (h : vitalSound b.vital) (t : Nat) (i : Pol) (word pc : W64) :
    (b.polStep dev t i word pc).keeps := by
  have retire := Blk.keeps_retire h t
  have channel := fun rd c n w v => Blk.keeps_channelOp h t rd c n w v pc
  have window := fun n sx rd v a off => Blk.keeps_windowOp h t n sx rd v a off pc
  cases i with
  | jalr rd ra x =>
    simp only [Blk.polStep]
    split
    · trivial
    · exact retire _ _ _
  | br f ra rb d => exact h
  | fence o => exact h
  | load sz sx acq rd ra d => exact Blk.keeps_doLoad hd h _ _ _ _ _ _
  | store sz rel rs ra d => exact Blk.keeps_doStore hd h _ _ _ _ _
  | amo f o rd ra rb => exact Blk.keeps_doAmo h _ _ _ _ _ _
  | srRd rd n => exact Blk.keeps_doSrRd h _ _ _ _ _
  | srWr ra n => exact Blk.keeps_doSrWr h _ _ _ _ _
  | syscall c => trivial
  | brk c =>
    simp only [Blk.polStep, Blk.doBreak]
    split <;> simp [PolRes.keeps, h]
  | eret =>
    simp only [Blk.polStep, Blk.doEret]
    split <;> simp [PolRes.keeps, h]
  | cache f ra => exact Blk.keeps_doCache h _ _ _ _ _
  | wait rd ra timer => exact Blk.keeps_doWait h _ _ _ _ _
  | chOpen rd ra n => exact (channel rd _ n.val 0 0).1
  | chPut rs ra w => exact (channel 0 _ 0 w.val _).2.1
  | chSend rd ra n => exact (channel rd _ n.val 0 0).2.2.1
  | chRecv rd ra => exact (channel rd _ 0 0 0).2.2.2.1
  | chGet rd ra w => exact (channel rd _ 0 w.val 0).2.2.2.2
  | thrCtl f rd ra rb => exact Blk.keeps_doThrCtl h _ _ _ _ _ _ _
  | hwLd sz sx rd ra off => exact (window _ _ _ 0 _ _).1
  | hwSt sz rs ra off => exact (window _ false 0 _ _ _).2.1
  | hwFill rd ra n => exact Blk.keeps_doHwFill h _ _ _ _ _
  | hwSpill ra n => exact Blk.keeps_doHwSpill h _ _ _ _
  | csumHw rd ra n => exact (window _ false _ 0 0 _).2.2.1
  | crcHw rd ra n => exact (window _ false _ 0 0 _).2.2.2
  | _ => exact retire _ _ _

theorem Blk.sound_runInstr {dev : DevBus} (hd : dev.Lawful) {b : Blk} (h : vitalSound b.vital) (t : Nat) (i : Option Pol) (word : W32) :
    vitalSound (b.runInstr dev t i word).vital := by
  unfold Blk.runInstr
  extract_lets pc b1
  have h1 : vitalSound b1.vital := by
    simp only [b1]
    split <;> simp [h]
  clear_value b1
  split
  · simp [h]
  · cases i with
    | none => simp [h1]
    | some op =>
      have kept := Blk.keeps_polStep hd h1 t op (word.setWidth 64) pc
      dsimp only
      split
      · next e =>
        rw [e] at kept
        simpa [PolRes.keeps] using kept
      · next e =>
        rw [e] at kept
        simpa [PolRes.keeps] using kept
      · simp [h1]

theorem Blk.sound_issueWord {dev : DevBus} (hd : dev.Lawful) {b : Blk} (h : vitalSound b.vital) (t : Nat) (i : Option Pol) (word : W32) :
    vitalSound (b.issueWord dev t i word).vital := by
  unfold Blk.issueWord
  split
  · exact Blk.sound_runInstr hd (by simpa using h) _ _ _
  · exact h

theorem Blk.sound_issue {dev : DevBus} (hd : dev.Lawful) {b : Blk} (h : vitalSound b.vital) (t : Nat) (i : Pol) :
    vitalSound (b.issue dev t i).vital :=
  Blk.sound_issueWord hd h _ _ _

theorem Blk.sound_stepNow {dev : DevBus} (hd : dev.Lawful) {b : Blk} (h : vitalSound b.vital) (t : Nat) (word : W32) :
    vitalSound (b.stepNow dev t word).vital := by
  unfold Blk.stepNow
  extract_lets b0 b1
  have stepped : vitalSound b1.vital := Blk.sound_runInstr hd (by simpa [b0] using h) _ _ _
  split
  · exact stepped
  · simpa using stepped

theorem Blk.sound_stepThread {dev : DevBus} (hd : dev.Lawful) {b : Blk} (h : vitalSound b.vital) (t : Nat) (word : W32) :
    vitalSound (b.stepThread dev t word).vital := by
  unfold Blk.stepThread
  split
  · exact Blk.sound_stepNow hd h _ _
  · simpa using h

/-! Ethernet ports and drives. -/

@[simp] theorem Blk.sound_dsMemory {b : Blk} (h : vitalSound b.vital) (d : Nat) (r : DsReq) :
    vitalSound (b.dsMemory d r).vital := by
  unfold Blk.dsMemory
  split <;> simp [h]

/-! Transport packets. -/

@[simp] theorem Blk.sound_devStore {b : Blk} (h : vitalSound b.vital) (epoch i off : Nat) (l : List Byte) :
    vitalSound (b.devStore epoch i off l).vital := by
  refine Blk.sound_foldl (fun b k hb => ?_) _ h
  dsimp only
  split
  · split
    · exact Blk.sound_devWrite hb _ _
    · exact hb
  · exact hb

/-! The responder. -/

@[simp] theorem Blk.sound_place {b : Blk} (h : vitalSound b.vital) (x : RmtPkt) (t : Tracker) (ans : Ans) :
    vitalSound (b.place x t ans).vital := by
  unfold Blk.place
  extract_lets n c mtu k devmem va b1 t1 b2
  have h1 : vitalSound b1.vital := by
    simp only [b1]
    repeat' split
    all_goals simp [h]
  clear_value b1 devmem va
  split
  · simp [h]
  · split
    · simp [h]
    · split
      · next e =>
        split at e
        · simp at e
        · split at e
          · split at e <;> simp at e
            simp [← e.2, h]
          · simpa [Blk.vital_of_storeFault e] using h
      · split <;> simp [b2, h1]

@[simp] theorem Blk.sound_placeNext {b : Blk} (h : vitalSound b.vital) (x : RmtPkt) (t : Tracker) (ans : Ans) :
    vitalSound (b.placeNext x t ans).vital := by
  simp [Blk.placeNext, h]

@[simp] theorem Blk.sound_serveAtomic {b : Blk} (h : vitalSound b.vital) (x : RmtPkt) (w : Nat) (ans : Ans) :
    vitalSound (b.serveAtomic x w ans).vital := by
  unfold Blk.serveAtomic
  extract_lets n c i a0 a1 new b0 devmem old b1 b2
  have h0 : vitalSound b0.vital := by simpa [b0] using h
  have h1 : vitalSound b1.vital := by
    simp only [b1]
    split <;> simp [h0]
  clear_value b0 devmem old b1
  split
  · next e =>
    split at e
    · split at e <;> simp at e
      simp [← e.2, h0]
    · simpa [Blk.vital_of_accessFault e] using h0
  · simp [b2, h1]

@[simp] theorem Blk.sound_admitMsg {b : Blk} (h : vitalSound b.vital) (x : RmtPkt) (ans : Ans) :
    vitalSound (b.admitMsg x ans).vital := by
  unfold Blk.admitMsg
  split <;> simp [h]

@[simp] theorem Blk.sound_onRequest {b : Blk} (h : vitalSound b.vital) (x : RmtPkt) (ans : Ans) :
    vitalSound (b.onRequest x ans).vital := by
  have left : ∀ n m, vitalSound (b.classify n m).2.vital := by simp [h]
  unfold Blk.onRequest
  extract_lets y n q mtu
  split
  · simp [h]
  · split
    · simp [h]
    · split
      · next e =>
        have := left n y.msn
        rw [e] at this
        simpa using this
      · next e =>
        have := left n y.msn
        rw [e] at this
        repeat' split
        all_goals simp at this
        all_goals simp [this]

@[simp] theorem Blk.sound_rmtRequest {b : Blk} (hs : vitalSound b.vital) (h : Half) (op : Nat) (ans : Ans) :
    vitalSound (b.rmtRequest h op ans).vital := by
  unfold Blk.rmtRequest
  split
  · exact hs
  · next e =>
    have taken := Blk.vital_of_rmtTake e
    rw [← taken] at hs
    split <;> simp [hs]

/-! Instances: walks and device memory. -/

@[simp] theorem Blk.sound_zeroDone {b : Blk} (hs : vitalSound b.vital) (h : Half) (k : Nat) :
    vitalSound (b.zeroDone h k).vital := by
  simp [Blk.zeroDone, hs]

/-! Epochs. -/

@[simp] theorem Blk.sound_epochRetire {b : Blk} (h : vitalSound b.vital) : vitalSound b.epochRetire.vital := by
  unfold Blk.epochRetire
  split
  · next hr =>
    simp only [Blk.vital_wipeOld, Blk.vital_mk]
    unfold Blk.mayRetire at hr
    obtain ⟨hm, hf, hn⟩ := h
    have hl : b.vital.2.1 = b.ctl.live.map (·.num) := rfl
    rw [hl] at hf hn
    refine ⟨hm, ?_, hn ▸ ?_⟩
    · simp only [List.map_tail, List.length_tail]
      omega
    · match b.ctl.live, hr with
      | r :: y :: rest, _ => simp
      | [r], hr => simp at hr
      | [], _ => rfl
  · exact h

/-! Start-up and activation. -/

@[simp] theorem Blk.sound_placeImage {b : Blk} (hs : vitalSound b.vital) (h : Half) (x : Image) :
    vitalSound (b.placeImage h x).vital :=
  Blk.sound_foldl (fun b s hb => by simpa using Blk.sound_setBytes hb _ _) _ hs

@[simp] theorem Blk.sound_point1 {b : Blk} (h : vitalSound b.vital) (x : Image) : vitalSound (b.point1 x).vital := by
  simp [Blk.point1, h]

@[simp] theorem Blk.sound_imageWins {b : Blk} (hs : vitalSound b.vital) (h : Nat) (x : Image) :
    vitalSound (b.imageWins h x).vital := by
  simp [Blk.imageWins, hs]

@[simp] theorem Blk.sound_retainedVerified {b : Blk} (h : vitalSound b.vital) (x : Image) (fault : Option Nat) :
    vitalSound (b.retainedVerified x fault).vital := by
  unfold Blk.retainedVerified
  split <;> simp [h]

@[simp] theorem Blk.sound_verifyComplete {b : Blk} (h : vitalSound b.vital) (us : W16) :
    vitalSound (b.verifyComplete us).vital := by
  unfold Blk.verifyComplete
  dsimp only
  repeat' split
  all_goals simp [h]

@[simp] theorem Blk.sound_imagePlaced {b : Blk} (h : vitalSound b.vital) : vitalSound b.imagePlaced.vital := by
  unfold Blk.imagePlaced Blk.inPhase
  repeat' split
  all_goals simp [h]

/-! The DMA engines. -/

@[simp] theorem Blk.sound_dmaWrite {b : Blk} (hs : vitalSound b.vital) (h : Nat) (sys : Bool) (a : Nat) (l : List Byte) :
    vitalSound (b.dmaWrite h sys a l).vital := by
  unfold Blk.dmaWrite
  repeat' split
  all_goals simp [hs]

@[simp] theorem Blk.sound_writeBack {b : Blk} (hs : vitalSound b.vital) (h : Nat) (at_ : DAddr) (d : Desc) (own : Bool)
    (status : Nat) :
    vitalSound (b.writeBack h at_ d own status).vital := by
  simp [Blk.writeBack, hs]

@[simp] theorem Blk.sound_dmaFinish {b : Blk} (hs : vitalSound b.vital) (h c status : Nat) (hand : Bool) :
    vitalSound (b.dmaFinish h c status hand).vital := by
  unfold Blk.dmaFinish
  dsimp only
  split <;> simp [hs]

@[simp] theorem Blk.sound_dmaTake {b : Blk} (hs : vitalSound b.vital) (h c : Nat) (d : Desc) :
    vitalSound (b.dmaTake h c d).vital := by
  unfold Blk.dmaTake
  split <;> simp [hs]

@[simp] theorem Blk.sound_descRead {b : Blk} (hs : vitalSound b.vital) (h c : Nat) (ans : DmaAns) :
    vitalSound (b.descRead h c ans).vital := by
  unfold Blk.descRead
  dsimp only
  repeat' split
  all_goals simp [hs]

@[simp] theorem Blk.sound_burstData {b : Blk} (hs : vitalSound b.vital) (h c : Nat) (ans : DmaAns) :
    vitalSound (b.burstData h c ans).vital := by
  unfold Blk.burstData
  dsimp only
  repeat' split
  all_goals simp [hs]

@[simp] theorem Blk.sound_descComplete {b : Blk} (hs : vitalSound b.vital) (h c : Nat) :
    vitalSound (b.descComplete h c).vital := by
  unfold Blk.descComplete
  dsimp only
  repeat' split
  all_goals simp [hs]

@[simp] theorem Blk.sound_dmaAbort {b : Blk} (hs : vitalSound b.vital) (h c : Nat) : vitalSound (b.dmaAbort h c).vital := by
  simp [Blk.dmaAbort, hs]

@[simp] theorem Blk.sound_dmaCtrlWrite {b : Blk} (hs : vitalSound b.vital) (h c : Nat) (v : W32) :
    vitalSound (b.dmaCtrlWrite h c v).vital := by
  simp [Blk.dmaCtrlWrite, hs]

@[simp] theorem Blk.sound_dmaBme {b : Blk} (hs : vitalSound b.vital) (h : Nat) : vitalSound (b.dmaBme h).vital := by
  unfold Blk.dmaBme
  split
  · refine Blk.sound_foldl (fun b c hb => ?_) _ hs
    dsimp only
    split
    · split <;> simp [hb]
    · exact hb
  · exact hs

@[simp] theorem Blk.sound_dmaRestart {b : Blk} (hs : vitalSound b.vital) (h : Nat) : vitalSound (b.dmaRestart h).vital := by
  simp [Blk.dmaRestart, hs]

/-! Host ports. -/

@[simp] theorem Blk.sound_fnResumes {b : Blk} (hs : vitalSound b.vital) (h : Nat) (f1 : Bool) :
    vitalSound (b.fnResumes h f1).vital := by
  simp [Blk.fnResumes, hs]

@[simp] theorem Blk.sound_bmeChange {b : Blk} (hs : vitalSound b.vital) (h : Nat) (f1 v : Bool) :
    vitalSound (b.bmeChange h f1 v).vital := by
  simp [Blk.bmeChange, hs]

@[simp] theorem Blk.sound_d3Change {b : Blk} (hs : vitalSound b.vital) (h : Nat) (f1 v : Bool) :
    vitalSound (b.d3Change h f1 v).vital := by
  simp [Blk.d3Change, hs]

@[simp] theorem Blk.sound_aperture {b : Blk} (hs : vitalSound b.vital) (h i off : Nat) (r : MemReq) :
    vitalSound (b.aperture h i off r).vital := by
  have stored : ∀ l : List (Option Byte × Nat), vitalSound (l.foldl (fun b x => match x.1, b.devLoc i (off + x.2) with
      | some v, some a => b.devWrite a [v]
      | _, _ => b) b).vital := by
    intro l
    refine Blk.sound_foldl (fun b x hb => ?_) _ hs
    split
    · exact Blk.sound_devWrite hb _ _
    · exact hb
  unfold Blk.aperture
  split
  · simp [hs]
  · split
    · cases r with
      | read n => simp [hs]
      | write l =>
        simp only [Blk.vital_apertureHeal]
        exact stored _
    · cases r <;> simp [hs]

/-! Resets of a half and of the device, power. -/

@[simp] theorem Blk.sound_clearHalfMem {b : Blk} (hs : vitalSound b.vital) (h : Half) :
    vitalSound (b.clearHalfMem h).vital := by
  simp [Blk.clearHalfMem, hs]

@[simp] theorem Blk.sound_halfReset {b : Blk} (hs : vitalSound b.vital) (h : Half) : vitalSound (b.halfReset h).vital := by
  unfold Blk.halfReset
  extract_lets ports lanes b1 gone b2 b3 b4 c k b5
  have lost : vitalSound b4.vital := by
    simp [b4, b3, b2, b1, hs]
  have seen : b5.vital = b4.vital := by
    simp only [b5, EpochRec.seenAll, Function.comp_def, List.map_map, Blk.vital_mk]
    rfl
  simpa only [Blk.vital_foldl, Blk.vital_endLaunch, implies_true, seen] using lost

@[simp] theorem Blk.sound_halfRejoin {b : Blk} (hs : vitalSound b.vital) (h : Half) :
    vitalSound (b.halfRejoin h).vital := by
  unfold Blk.halfRejoin
  dsimp only
  repeat' split
  all_goals simp [hs]

@[simp] theorem Blk.sound_deviceReset (b : Blk) (newDownload jig : Bool) :
    vitalSound (b.deviceReset newDownload jig).vital := by
  unfold Blk.deviceReset
  repeat' split
  all_goals simp

@[simp] theorem Blk.sound_resetHalf {b : Blk} (hs : vitalSound b.vital) (h : Half) : vitalSound (b.resetHalf h).vital := by
  simp [Blk.resetHalf, hs]

@[simp] theorem Blk.sound_activationEnd {b : Blk} (h : vitalSound b.vital) : vitalSound b.activationEnd.vital := by
  unfold Blk.activationEnd
  split
  · exact Blk.sound_foldl (fun _ _ hb => Blk.sound_resetHalf hb _) _ (by simpa using h)
  · exact h

@[simp] theorem Blk.sound_powerDown (b : Blk) : vitalSound b.powerDown.vital := by
  simp [Blk.powerDown]

@[simp] theorem Blk.sound_powerOff {b : Blk} (h : vitalSound b.vital) : vitalSound b.powerOff.vital := by
  simp [Blk.powerOff, h]

/-! Control programs. -/

theorem Blk.sound_announce {b : Blk} (h : vitalSound b.vital) (hl : b.vital.2.1.length < 4) {ep : Nat} (hep : ep ≠ 0) (src : Half) :
    vitalSound (b.announce ep src).vital := by
  have nums : (b.announce ep src).vital = (b.mem, b.vital.2.1 ++ [ep], ep) := by
    simp [Blk.announce, Blk.newEpoch, Function.comp_def, apply_ite EpochRec.num]
    rfl
  rw [nums]
  refine ⟨h.1, ?_, ?_⟩
  · simp only [List.length_append, List.length_singleton]
    omega
  · simp [hep]

@[simp] theorem Blk.sound_commitProg {b : Blk} (h : vitalSound b.vital) (hl : b.vital.2.1.length < 4) (l : InLine) (waited : Bool) :
    vitalSound (b.commitProg l waited).vital := by
  have bound : (Blk.applyAll (b.ctl.newest + 1) l.prog.issuer b [] l.prog.staged).vital = b.vital := by simp
  simp only [Blk.commitProg, Blk.vital_ends, Blk.vital_intxAll, Blk.vital_settleIncs, Blk.vital_point3]
  exact Blk.sound_announce (bound ▸ h) (bound ▸ hl) (Nat.succ_ne_zero _) _

theorem Blk.few_of_not_mustWait {b : Blk} {p : Prog} (h : ¬ b.mustWait p = true) : b.vital.2.1.length < 4 := by
  rw [Blk.length_vital]
  simp only [Blk.mustWait, Bool.or_eq_true, decide_eq_true_eq, not_or] at h
  omega

theorem Blk.sound_lineHead {b : Blk} (h : vitalSound b.vital) (l : InLine) : vitalSound (b.lineHead l).2.vital := by
  unfold Blk.lineHead
  dsimp only
  split
  · split <;> simp [h]
  · split
    · split
      · exact h
      · next hw =>
        have few := Blk.few_of_not_mustWait hw
        refine Blk.sound_commitProg ?_ ?_ _ _
        · simpa using h
        · simpa using few
    · split
      · simp [h]
      · split
        · simp [h]
        · split
          · simp [h]
          · split
            · simp [h]
            · next hw =>
              have few : (b.setNext l.prog).vital.2.1.length < 4 := Blk.few_of_not_mustWait hw
              rw [Blk.vital_setNext] at few
              refine Blk.sound_commitProg ?_ ?_ _ _
              · simpa using h
              · simpa using few

@[simp] theorem Blk.sound_runLine (fuel : Nat) {b : Blk} (h : vitalSound b.vital) :
    vitalSound (Blk.runLine fuel b).vital := by
  induction fuel generalizing b with
  | zero => exact h
  | succ n ih =>
    unfold Blk.runLine
    split
    · exact h
    · have left := Blk.sound_lineHead h ‹InLine›
      dsimp only
      split
      · exact ih left
      · exact left

@[simp] theorem Blk.sound_commitReq {b : Blk} (h : vitalSound b.vital) (k : CqKey) (p : Prog) (e : W512) :
    vitalSound (b.commitReq k p e).vital := by
  unfold Blk.commitReq
  split
  · exact Blk.sound_runLine 1 h
  · exact h

@[simp] theorem Blk.sound_handle {b : Blk} (h : vitalSound b.vital) (k : CqKey) : vitalSound (b.handle k).vital := by
  unfold Blk.handle
  dsimp only
  repeat' split
  all_goals simp [h]

@[simp] theorem Blk.sound_arrive {b : Blk} (h : vitalSound b.vital) (k : CqKey) (op : COp) :
    vitalSound (b.arrive k op).vital := by
  unfold Blk.arrive
  split <;> simp [h]

@[simp] theorem Blk.sound_outside {b : Blk} (h : vitalSound b.vital) (k : CqKey) : vitalSound (b.outside k).vital := by
  unfold Blk.outside
  split <;> simp [h]

@[simp] theorem Blk.sound_proceed {b : Blk} (h : vitalSound b.vital) : vitalSound b.proceed.vital := by
  simp [Blk.proceed, h]

@[simp] theorem Blk.sound_bindImage {b : Blk} (h : vitalSound b.vital) : vitalSound b.bindImage.vital := by
  unfold Blk.bindImage Blk.inPhase
  split
  · split
    · split
      · exact h
      · next hw =>
        have few : b.vital.2.1.length < 4 := by
          simp only [Bool.or_eq_true, decide_eq_true_eq, not_or] at hw
          rw [Blk.length_vital]
          omega
        simpa using Blk.sound_announce h few (Nat.succ_ne_zero _) _
    · exact h
  · exact h

/-! Faults of units. -/

@[simp] theorem Blk.sound_coreDies {b : Blk} (h : vitalSound b.vital) (c : Nat) : vitalSound (b.coreDies c).vital :=
  Blk.sound_foldl (fun _ _ hb => Blk.sound_faultStop hb _ _ _ _ _) _ h

@[simp] theorem Blk.sound_spareMove {b : Blk} (h : vitalSound b.vital) (t ns : Nat) :
    vitalSound (b.spareMove t ns).vital := by
  simp [Blk.spareMove, h]

@[simp] theorem Blk.sound_arrayError {b : Blk} (h : vitalSound b.vital) (e : ArrayErr) (ns : Nat) :
    vitalSound (b.arrayError e ns).vital := by
  unfold Blk.arrayError
  split <;> simp [h]

@[simp] theorem Blk.sound_halfFatal {b : Blk} (hs : vitalSound b.vital) (h : Half) (s ns : Nat) :
    vitalSound (b.halfFatal h s ns).vital := by
  simp [Blk.halfFatal, hs]

@[simp] theorem Blk.sound_phaseLoss {b : Blk} (hs : vitalSound b.vital) (h : Half) (rail phase ns : Nat) :
    vitalSound (b.phaseLoss h rail phase ns).vital := by
  unfold Blk.phaseLoss
  extract_lets k n e b1
  have h1 : vitalSound b1.vital := hs
  clear_value b1
  split <;> simp [h1]

/-! Speed, sensors, clocks. -/

@[simp] theorem Blk.sound_thermalTrip {b : Blk} (h : vitalSound b.vital) (n : Nat) (v : W16) :
    vitalSound (b.thermalTrip n v).vital := by
  simp [Blk.thermalTrip, h]

@[simp] theorem Blk.sound_overVoltage {b : Blk} (h : vitalSound b.vital) : vitalSound b.overVoltage.vital := by
  simp [Blk.overVoltage, h]

@[simp] theorem Blk.sound_lockout (b : Blk) : vitalSound b.lockout.vital := by
  simp [Blk.lockout]

/-! The management subsystem. -/

theorem Blk.sound_mssReset {b : Blk} (h : vitalSound b.vital) (scope : Nat) (v : Transport) (tag : W32) (body : List Byte)
    {f : Blk → Blk × Option ResetKey} (hf : ∀ {c : Blk}, vitalSound c.vital → vitalSound (f c).1.vital) :
    vitalSound (b.mssReset scope v tag body f).vital := by
  unfold Blk.mssReset
  extract_lets b0 r
  have h0 : vitalSound b0.vital := by simpa [b0] using h
  have done : vitalSound r.1.vital := hf (by simpa using h0)
  split
  · exact h
  · split
    · simp [h0]
    · split
      · simp [h0]
      · split
        · simp [h0]
        · split
          · simpa using done
          · exact (Blk.vital_settleResets _).symm ▸ done

@[simp] theorem Blk.sound_resetHalfMss {b : Blk} (h : vitalSound b.vital) (v : Transport) (tag : W32) (body : List Byte) :
    vitalSound (b.resetHalfMss v tag body).vital :=
  Blk.sound_mssReset h _ _ _ _ (fun hc => by simp [hc])

@[simp] theorem Blk.sound_resetDevice {b : Blk} (h : vitalSound b.vital) (v : Transport) (tag : W32) (body : List Byte)
    (pin : Bool) :
    vitalSound (b.resetDevice v tag body pin).vital := by
  simp [Blk.resetDevice, h]

theorem Blk.sound_mssServe {b : Blk} (h : vitalSound b.vital) (v : Transport) (cmd : Nat) (tag : W32) (body : List Byte)
    (allowed lengthOk operandsOk : Bool) {f : Blk → Blk × MssAns}
    (hf : ∀ {c : Blk}, vitalSound c.vital → vitalSound (f c).1.vital) :
    vitalSound (b.mssServe v cmd tag body allowed lengthOk operandsOk f).vital := by
  unfold Blk.mssServe
  dsimp only
  repeat' split
  all_goals simp [h, hf]

@[simp] theorem Blk.sound_mssPowerOff {b : Blk} (h : vitalSound b.vital) (v : Transport) (tag : W32) (body : List Byte) :
    vitalSound (b.mssPowerOff v tag body).vital :=
  Blk.sound_mssServe h _ _ _ _ _ _ _ (fun hc => Blk.sound_powerOff hc)

@[simp] theorem Blk.sound_mssJig {b : Blk} (h : vitalSound b.vital) (enter : Bool) (v : Transport) (tag : W32)
    (body : List Byte) :
    vitalSound (b.mssJig enter v tag body).vital := by
  simp [Blk.mssJig, h]

/-! Registers of the THREAD block. -/

@[simp] theorem Blk.sound_fqBaseWrite {b : Blk} (hs : vitalSound b.vital) (h : Half) (v : W64) :
    vitalSound (b.fqBaseWrite h v).vital := by
  simp [Blk.fqBaseWrite, hs]

@[simp] theorem Blk.sound_deadlockTry {b : Blk} (h : vitalSound b.vital) (g : Nat) :
    vitalSound (b.deadlockTry g).vital := by
  simp [Blk.deadlockTry, h]

/-! Register writes and device space. -/

@[simp] theorem Blk.sound_commandWrite {b : Blk} (hs : vitalSound b.vital) (h : Nat) (f1 : Bool) (v : W32) :
    vitalSound (b.commandWrite h f1 v).vital := by
  simp [Blk.commandWrite, hs]

@[simp] theorem Blk.sound_regWrite {b : Blk} (h : vitalSound b.vital) (w : Who) (r : Reg) (v : W64) :
    vitalSound (b.regWrite w r v).vital := by
  unfold Blk.regWrite
  repeat' split
  all_goals simp [h]

@[simp] theorem Blk.sound_partWrite {b : Blk} (h : vitalSound b.vital) (w : Who) (r : Reg) (p : Part) (v : W64) :
    vitalSound (b.partWrite w r p v).vital := by
  unfold Blk.partWrite
  split <;> simp [h]

@[simp] theorem Blk.sound_writeBy {b : Blk} (h : vitalSound b.vital) (w : Who) (r : Reg) (p : Part) (v : W64) :
    vitalSound (b.writeBy w r p v).vital := by
  simp [Blk.writeBy, h]

theorem Blk.sound_of_spaceWrite {b : Blk} (h : vitalSound b.vital) {t a n : Nat} {v : W64} {r : Blk} (e : b.spaceWrite t a n v = r) :
    vitalSound r.vital := by
  obtain ⟨f, hf⟩ : ∃ f, f = Blk.spaceWrite := ⟨_, rfl⟩
  rw [← hf] at e
  delta Blk.spaceWrite at hf
  subst hf
  beta_reduce at e
  generalize a - devBase = x at e
  extract_lets x' w at e
  clear_value x' w
  generalize dspWindow x' = y, devReg x' = z at e
  rcases y with _ | ⟨d, off, cfg⟩
  · rcases z with _ | ⟨g, o⟩
    · simpa [← e] using h
    · dsimp only at e
      repeat' split at e
      all_goals simp [← e, h]
  · dsimp only at e
    split at e <;> simp [← e, h]

@[simp] theorem Blk.sound_spaceWrite {b : Blk} (h : vitalSound b.vital) (t a n : Nat) (v : W64) :
    vitalSound (b.spaceWrite t a n v).vital := Blk.sound_of_spaceWrite h rfl

/-! Power-up and read timeouts. -/

@[simp] theorem Blk.sound_timeout {b : Blk} (hs : vitalSound b.vital) (h : Nat) (r : OutReq) :
    vitalSound (b.timeout h r).vital := by
  unfold Blk.timeout
  repeat' split
  all_goals simp [hs]

/-- Device space leaves memory and the epochs at a read, and soundness at a write. -/
theorem devBus_lawful : devBus.Lawful where
  read b t x n := by simp [devBus]
  write h t x n v := by
    simp only [devBus]
    exact Blk.sound_spaceWrite h _ _ _ _

@[simp] theorem Blk.sound_stepDue {b : Blk} (h : vitalSound b.vital) (t : Nat) : vitalSound (b.stepDue t).vital := by
  unfold Blk.stepDue
  split
  · split
    · exact Blk.sound_stepThread devBus_lawful h _ _
    · exact h
  · exact h

@[simp] theorem Blk.sound_tick {b : Blk} (h : vitalSound b.vital) : vitalSound b.tick.vital := by
  unfold Blk.tick
  split
  · exact Blk.sound_foldl (fun _ _ hb => Blk.sound_stepDue hb _) _ (by simpa using h)
  · exact h

/-! Commands and steps. -/

@[simp] theorem Blk.sound_issueWord_devBus {b : Blk} (h : vitalSound b.vital) (t : Nat) (i : Option Pol) (w : W32) :
    vitalSound (b.issueWord devBus t i w).vital :=
  Blk.sound_issueWord devBus_lawful h t i w

@[simp] theorem Blk.sound_issue_devBus {b : Blk} (h : vitalSound b.vital) (t : Nat) (i : Pol) :
    vitalSound (b.issue devBus t i).vital :=
  Blk.sound_issue devBus_lawful h t i

theorem Blk.sound_mssDebug {b : Blk} (h : vitalSound b.vital) (v : Transport) (tag : W32) (accepted : Bool)
    {f : Blk → Blk × List Byte} (hf : ∀ {c : Blk}, vitalSound c.vital → vitalSound (f c).1.vital) :
    vitalSound (b.mssDebug v tag accepted f).vital := by
  unfold Blk.mssDebug
  extract_lets busy b0 r
  clear_value busy
  have h0 : vitalSound b0.vital := by simpa [b0] using h
  have done : vitalSound r.1.vital := hf (by simpa using h0)
  split
  · exact h
  · split
    · simpa using h0
    · split
      · simpa using h0
      · simpa using done

/-- ACTIVATE over the Mss leaves memory and the epochs: only its phases move them (R97). -/
@[simp] theorem Blk.vital_mssActivate (b : Blk) (v : Transport) (cmd : Nat) (tag : W32) (body : List Byte) (allowed : Bool) :
    (b.mssPlain v cmd tag body allowed (fun b => match b.activate with
      | .ok b1 => (b1, 0, [])
      | .error r => (b, r, []))).vital = b.vital := by
  refine b.vital_mssPlain _ _ _ _ _ (fun c => ?_)
  split
  · next h => exact Blk.vital_of_activate h
  · rfl

/-- Every command leaves a sound block sound: the work it does on the block has its law above. -/
theorem exec_sound {s t : State} (h : vitalSound s.blk.vital) (c : Instr) (e : exec c s = .next t) :
    vitalSound t.blk.vital := by
  cases c with
  | dsErrMessage d =>
    obtain rfl := Host.Outcome.next.inj e
    exact h
  | cellAged q =>
    cases q <;> obtain rfl := Host.Outcome.next.inj e <;> simp [h]
  | illegalInstruction t w =>
    obtain rfl := Host.Outcome.next.inj e
    dsimp only
    split <;> simp [h]
  | debugStep v tag t w =>
    obtain rfl := Host.Outcome.next.inj e
    exact Blk.sound_mssDebug h _ _ _ (Blk.sound_stepThread devBus_lawful · _ _)
  | activate v tag body =>
    obtain rfl := Host.Outcome.next.inj e
    exact (Blk.vital_mssActivate s.blk _ _ _ _ _).symm ▸ h
  | _ =>
    obtain rfl := Host.Outcome.next.inj e
    simp [h]

/-- Settles O59: a nanosecond keeps soundness by `Blk.sound_tick`, a command by `exec_sound`. -/
theorem stepKeepsSound : Obligations.StepKeepsSound := by
  unfold Obligations.StepKeepsSound
  intro s t hs ht
  rw [Blk.sound_iff] at hs ⊢
  unfold step at ht
  split at ht
  · obtain rfl := Host.Outcome.next.inj ht
    exact Blk.sound_tick hs
  · next c rest _ => exact exec_sound (s := { s with pending := rest }) hs c ht

end Sys2Proof.Machine
end

section
/-! SUPPORT. The proof of the statement on what the part holds right after reset: every field reads as its structure states it. -/

namespace Sys2Proof.Machine
open Sys2Proof

/-- A general register right after reset: no register is kept, so each reads 0 (R188). -/
theorem Blk.greg_reset (t : Nat) (r : GReg) : State.reset.blk.greg t r = 0 := by
  show (if r.val = 0 then 0 else _) = (0 : W64)
  split <;> rfl

/-- Memory right after reset is empty, and no epoch lives (R28). -/
theorem Blk.reset_sound : State.reset.blk.sound := ⟨rfl, Nat.zero_le 4, rfl⟩

/-- Settles O58: tables are empty, so each reads as its default, and every default is the value of its table. -/
theorem resetValues : Obligations.ResetValues := by
  unfold Obligations.ResetValues
  refine ⟨rfl, Blk.reset_sound, fun _ => rfl, fun h => ?meeting, rfl, rfl, rfl,
    fun t => ⟨rfl, rfl, rfl, rfl, rfl, Blk.greg_reset t⟩, fun _ => rfl, fun _ => ⟨rfl, rfl⟩, rfl, rfl, fun h => ?faultRing,
    fun _ => ⟨rfl, rfl, rfl, rfl, rfl, rfl⟩, fun _ _ => ⟨rfl, rfl, rfl⟩, fun _ => ⟨rfl, rfl, rfl⟩, fun _ _ => ⟨rfl, rfl⟩,
    fun _ => rfl, rfl, fun _ => ⟨rfl, rfl⟩, rfl, rfl, rfl, rfl, rfl, fun _ => rfl, rfl, rfl, fun _ _ => rfl, rfl, rfl⟩
  case meeting => cases h <;> rfl
  case faultRing => cases h <;> exact ⟨rfl, rfl, rfl⟩

end Sys2Proof.Machine
end

section
/-! SUPPORT. What an ERROR record, its events and its Reel record leave alone (R468, R486, R488). -/

namespace Sys2Proof.Machine
open Sys2Proof

/-- The two blocks differ in what a record of a fault touches: the ports' own state, what was sent and the power states of
links, the management die, threads, the error records of SUMMARY, and the count of free values. -/
structure Blk.logs (b c : Blk) : Prop where
  rest : c = { b with ports := c.ports, out := c.out, pm := c.pm, mss := c.mss, cores := c.cores, fresh := c.fresh,
                      ctl := { b.ctl with errs := c.ctl.errs } }

theorem Blk.logs_refl (b : Blk) : b.logs b := ⟨rfl⟩

theorem Blk.logs.trans {b c d : Blk} (h : b.logs c) (k : c.logs d) : b.logs d where
  rest := by conv => lhs; rw [k.rest, h.rest]

theorem Blk.reports.logs {b c : Blk} (h : b.reports c) : b.logs c where
  rest := by rw [h.rest]

theorem Blk.logs_devEvent (b : Blk) (type index reason value detail : Nat) : b.logs (b.devEvent type index reason value detail) :=
  (b.reports_devEvent type index reason value detail).logs

theorem Blk.logs_drawn (b : Blk) (n : Nat) : b.logs (b.drawn n) := ⟨rfl⟩

theorem Blk.logs_reelRaw (b : Blk) (type severity origin : Nat) (body : List Byte) :
    b.logs (b.reelRaw type severity origin body) := by
  unfold Blk.reelRaw
  dsimp only
  split <;> exact ⟨rfl⟩

theorem Blk.logs_mssEvent (b : Blk) (type index reason value detail : Nat) :
    b.logs (b.mssEvent type index reason value detail) := by
  unfold Blk.mssEvent
  split
  · exact b.logs_devEvent _ _ _ _ _
  · exact ⟨rfl⟩

theorem Blk.logs_unitEvent (b : Blk) (t k : Nat) : b.logs (b.unitEvent t k) where
  rest := by rw [b.unitEvent_rest t k]

theorem Blk.logs_errRec (b : Blk) (type reason index port epoch detail : Nat) :
    b.logs (b.errRec type reason index port epoch detail) := ⟨rfl⟩

theorem Blk.logs_reel (b : Blk) (type origin : Nat) (fields : List Nat) : b.logs (b.reel type origin fields) :=
  (b.logs_reelRaw _ _ _ _).trans (Blk.logs_drawn _ _)

theorem Blk.logs_errorRecord (b : Blk) (x : ErrBody) : b.logs (b.errorRecord x) := by
  unfold Blk.errorRecord
  extract_lets b1 b2
  have reel : b.logs b1 := (b.logs_reelRaw _ _ _ _).trans (Blk.logs_drawn _ _)
  have event : b.logs b2 := by
    simp only [b2]
    split
    · exact reel
    · exact reel.trans (Blk.logs_mssEvent _ _ _ _ _ _)
  split
  · exact event.trans (Blk.logs_unitEvent _ _ _)
  · exact event

theorem Blk.logs_uncovered (b : Blk) (x : ErrBody) : b.logs (b.uncovered x) :=
  (b.logs_errRec _ _ _ _ _ _).trans (Blk.logs_errorRecord _ _)

theorem Blk.logs.boot {b c : Blk} (h : b.logs c) : c.boot = b.boot := (congrArg Blk.boot h.rest :)
theorem Blk.logs.rel {b c : Blk} (h : b.logs c) : c.rel = b.rel := (congrArg Blk.rel h.rest :)
theorem Blk.logs.pipes {b c : Blk} (h : b.logs c) : c.pipes = b.pipes := (congrArg Blk.pipes h.rest :)
theorem Blk.logs.hog {b c : Blk} (h : b.logs c) : c.hog = b.hog := (congrArg Blk.hog h.rest :)
theorem Blk.logs.keys {b c : Blk} (h : b.logs c) : c.keys = b.keys := (congrArg Blk.keys h.rest :)
theorem Blk.logs.brg {b c : Blk} (h : b.logs c) : c.brg = b.brg := (congrArg Blk.brg h.rest :)
theorem Blk.logs.elec {b c : Blk} (h : b.logs c) : c.elec = b.elec := (congrArg Blk.elec h.rest :)

/-! Spares (R485). -/

/-- A spare that takes the place of a unit leaves start-up as it stands. -/
theorem Blk.boot_of_spareFor {b : Blk} {u : FailedUnit} {y : Blk × Nat} (h : b.spareFor u = some y) : y.1.boot = b.boot := by
  unfold Blk.spareFor at h
  dsimp only at h
  repeat' split at h
  all_goals simp only [Option.some.injEq, reduceCtorEq] at h
  all_goals subst h; rfl

theorem Blk.boot_unitFails (b : Blk) (u : FailedUnit) : (b.unitFails u).1.boot = b.boot := by
  unfold Blk.unitFails
  split
  · next h => exact (Blk.logs_errorRecord _ _).boot.trans (Blk.boot_of_spareFor h)
  · exact (b.logs_uncovered _).boot

/-- A unit that fails is covered exactly where a spare is left for it. -/
theorem Blk.unitFails_covered (b : Blk) (u : FailedUnit) : (b.unitFails u).2 = (b.spareFor u).isSome := by
  unfold Blk.unitFails
  split <;> simp [*]

end Sys2Proof.Machine
end

section
/-! SUPPORT. The proof of the statement on training and enable (R20, R21, R88, R95). -/

namespace Sys2Proof.Machine
open Sys2Proof

/-! The end of training. -/

theorem Blk.dataTrained_elsewhere {b : Blk} (h : b.boot.state ≠ 2) (l : List FailedUnit) : b.dataTrained l = b := if_pos h

/-- Training ends well: meeting point 2 for each half, inst 0 for the owner port (R20, R157). -/
def Blk.trainedWell (b : Blk) : Blk :=
  { b with
    boot := { b.boot with state := 3, mpWest := b.boot.mpWest ||| 2, mpEast := b.boot.mpEast ||| 2 },
    ctl := { b.ctl with cfg := { b.ctl.cfg with
      insts := b.ctl.cfg.insts.put {} 0 { life := .enabled, port := BitVec.ofNat 4 b.ownerPort } } } }

theorem Blk.inst_trainedWell (b : Blk) (i : Nat) : b.trainedWell.cfg.inst i =
    if i = 0 then { life := .enabled, port := BitVec.ofNat 4 b.ownerPort } else b.cfg.inst i := by
  simp only [Blk.trainedWell, Blk.cfg, Cfg.inst, Tab.get_put]

theorem Blk.dataTrained_none {b : Blk} (h : b.boot.state = 2) (hj : b.boot.jigFailed = []) : b.dataTrained [] = b.trainedWell := by
  simp [Blk.dataTrained, Blk.unitsFail, Blk.setBoot, h, hj, bsTraining, Blk.trainedWell, bsTrained, Blk.ownerPort, Blk.present,
    Blk.absent, Blk.x16]

theorem Blk.logs_foldl_uncovered (l : List FailedUnit) (b : Blk) : b.logs (l.foldl (fun b u => b.uncovered (unitBody u)) b) := by
  induction l generalizing b with
  | nil => exact b.logs_refl
  | cons u l ih => exact (b.logs_uncovered _).trans (ih _)

/-- Where the training ends, by whether a unit is left that no spare covers (R88). -/
theorem Blk.dataTrained_boot {b : Blk} (h : b.boot.state = 2) {l left : List FailedUnit} {b1 : Blk} (hl : b.unitsFail l = (b1, left))
    (hb : b1.boot = b.boot) :
    let well := left.isEmpty && b.boot.jigFailed.isEmpty
    (b.dataTrained l).boot.state = (if well then 3 else 15) ∧ (b.dataTrained l).boot.trainFailed = (b.boot.trainFailed || !well) := by
  have jig := (Blk.logs_foldl_uncovered b.boot.jigFailed b1).boot.trans hb
  have trained : ¬ b.boot.state ≠ bsTraining := not_not_intro h
  unfold Blk.dataTrained
  simp only [if_neg trained, hl]
  split
  · next well => simp [well, Blk.setBoot, bsTrained, jig]
  · next well => simp [well, Blk.setBoot, bsFailed]

theorem Blk.unitsFail_one (b : Blk) (u : FailedUnit) :
    b.unitsFail [u] = ((b.unitFails u).1, if (b.spareFor u).isSome then [] else [u]) := by
  simp [Blk.unitsFail, Blk.unitFails_covered]

/-! The enable request (R95). -/

theorem exec_bootEnableRequest {s : State} {h : PortId} (ho : s.blk.memOpen h.val false = true) (ready : Bool) :
    exec (.bootEnableRequest h ready) s = .next { s with blk := s.blk.enableRequest h.val ready } :=
  State.run_of_eq (f := fun b => b.f0Write h.val (·.enableRequest h.val ready)) (if_pos ho)

theorem exec_dataPlaneTrained (s : State) (l : List FailedUnit) :
    exec (.dataPlaneTrained l) s = .next { s with blk := s.blk.dataTrained l } := rfl

/-- A refusal stands in the port's BOOT_REFUSE (R89). -/
theorem Blk.bport_bootRefuse (b : Blk) (h reason source : Nat) : (b.bootRefuse h reason source).bport h =
    { b.bport h with reason := BitVec.ofNat 16 reason, source := BitVec.ofNat 2 source } :=
  Blk.bport_updBport _ h _

theorem Blk.enableRequest_of_other {b : Blk} {h : Nat} (hn : h ≠ b.ownerPort) (ready : Bool) :
    b.enableRequest h ready = b.bootRefuse h 0x0210 1 := if_pos hn

theorem Blk.enableRequest_owner (b : Blk) (ready : Bool) : b.enableRequest b.ownerPort ready =
    if b.boot.enable then b
    else match b.enableFault ready with
      | some r => ((b.setBoot (fun o => { o with refused := true })).bootRefuse b.ownerPort r 1).devEvent 0x0013 0 r
      | none => { b with boot := { b.boot with enable := true, state := 4 } } := if_neg (not_not_intro rfl)

/-- A request of the owner that is refused: the reason, and nothing else of start-up but the refusal (R95). -/
theorem Blk.boot_enableRequest_of_fault {b : Blk} {ready : Bool} {r : Nat} (he : b.boot.enable = false)
    (hr : b.enableFault ready = some r) : (b.enableRequest b.ownerPort ready).boot =
      ((b.setBoot (fun o => { o with refused := true })).bootRefuse b.ownerPort r 1).boot := by
  simp only [Blk.enableRequest_owner, he, hr, Bool.false_eq_true, if_false]
  exact (Blk.logs_devEvent _ _ _ _ _ _).boot

theorem firstOf_chk (c : Bool) (r : Nat) (l : List (Option Nat)) : firstOf (chk c r :: l) = if c then firstOf l else some r := by
  cases c <;> rfl

/-- The first reason that applies (R95). -/
theorem Blk.enableFault_eq (b : Blk) (ready : Bool) : b.enableFault ready =
    if b.boot.state = 8 then some 0x0515 else if b.boot.state ≠ 3 ∧ b.boot.state ≠ 15 then some 0x0511
    else if ready = false then some 0x0430 else if b.boot.trainFailed = true then some 0x0431
    else if b.keys.alarm = true then some 0x0620 else none := by
  simp only [Blk.enableFault, firstOf_chk, bsJig, bsTrained, bsFailed, bne_iff_ne, Bool.or_eq_true, beq_iff_eq, Bool.not_eq_true',
    ite_not, firstOf]
  cases ready <;> cases b.boot.trainFailed <;> cases b.keys.alarm <;> grind

/-- Settles O21. -/
theorem trainingAndEnable : Obligations.TrainingAndEnable := by
  unfold Obligations.TrainingAndEnable
  intro s h ready u b
  refine ⟨fun h2 => ⟨fun hj => ?_, fun hj => ⟨_, exec_dataPlaneTrained s [u], ?_⟩, fun hj => ⟨_, exec_dataPlaneTrained s [], ?_⟩⟩,
    fun h2 l => ?_, fun ho => ?_⟩
  · rw [exec_dataPlaneTrained, Blk.dataTrained_none h2 hj]
    exact ⟨_, rfl, rfl, rfl, b.inst_trainedWell 0, fun i hi => (b.inst_trainedWell i).trans (if_neg hi)⟩
  · have ends := Blk.dataTrained_boot h2 (b.unitsFail_one u) (b.boot_unitFails u)
    cases hu : b.spareFor u <;> simpa [hu, hj] using ends
  · have ends := Blk.dataTrained_boot h2 (l := []) (b := b) rfl rfl
    exact ends.imp (·.trans (by simp [hj])) (·.trans (by simp [hj]))
  · rw [exec_dataPlaneTrained, Blk.dataTrained_elsewhere h2 l]
  · rw [exec_bootEnableRequest ho]
    refine ⟨fun hn => ⟨_, rfl, ?_⟩, fun hw he => ?_, fun hw he => ?_⟩
    · rw [Blk.enableRequest_of_other hn]
      exact ⟨Blk.bport_bootRefuse _ _ _ _, rfl, rfl⟩
    · rw [hw, Blk.enableRequest_owner, if_pos he]
    · intro reason
      rw [hw]
      have first : b.enableFault ready = reason := b.enableFault_eq ready
      refine ⟨fun hr => ?_, fun r hr => ⟨_, rfl, ?_⟩⟩
      · rw [Blk.enableRequest_owner, if_neg (ne_true_of_eq_false he), first.trans hr]
      · have refused := Blk.boot_enableRequest_of_fault he (first.trans hr)
        have place : (b.enableRequest b.ownerPort ready).bport b.ownerPort =
            ((b.setBoot (fun o => { o with refused := true })).bootRefuse b.ownerPort r 1).bport b.ownerPort := by
          simp only [Blk.bport, refused]
        rw [Blk.bport_bootRefuse] at place
        exact ⟨(congrArg Boot.enable refused :).trans he, (congrArg Boot.refused refused :), (congrArg Boot.state refused :), place⟩

end Sys2Proof.Machine
end

section
/-! SUPPORT. The proof of the statement on the staging of programs (R33, R131, R132). -/

namespace Sys2Proof.Machine
open Sys2Proof

/-- The opcodes whose instructions join an open program: all but BEGIN, COMMIT and ABORT (R131). -/
def COp.staged : COp → Bool
  | .begin_ | .commit | .abort => false
  | _ => true

theorem COp.ne_of_staged {o : COp} (h : o.staged = true) : o ≠ .begin_ ∧ o ≠ .commit ∧ o ≠ .abort := by
  refine ⟨?_, ?_, ?_⟩ <;> rintro rfl <;> cases h

section Fetched

variable {b : Blk} {k : CqKey} {idx : W16} {e : W512} {ext : List Byte} {rd : Nat} {p : Prog} {o : COp}
  (ha : (b.ctlq k).arrived = some (idx, e, ext, rd)) (hp : (b.ctlq k).prog = some p) (ho : ciOp e = some o) (hs : o.staged = true)
include ha hp ho hs

/-- A program that refuses already passes over the instruction (R131). -/
theorem Blk.arrive_refusing (hr : p.refused.isSome = true) :
    b.arrive k o = (b.updCtlq k (fun c => { c with arrived := none })).updCtlq k (fun c => { c with
      prog := some { p with lastFetch := b.mono } }) := by
  obtain ⟨r, hr⟩ := Option.isSome_iff_exists.1 hr
  obtain ⟨hb, hc, hab⟩ := COp.ne_of_staged hs
  simp [Blk.arrive, ha, ho, Blk.handle, hp, hr, hb, hc, hab]

/-- A program that does not refuse takes the instruction through the checks of staging (R131, R132). -/
theorem Blk.arrive_staging (hr : p.refused = none) :
    b.arrive k o = (b.updCtlq k (fun c => { c with arrived := none })).stage k p e ext rd := by
  obtain ⟨hb, hc, hab⟩ := COp.ne_of_staged hs
  simp [Blk.arrive, ha, ho, Blk.handle, hp, hr, hb, hc, hab]

end Fetched

theorem Blk.recsOf_of_not_query {e : W512} {o : COp} (ho : ciOp e = some o) (hq : o ≠ .query) (ht : o ≠ .tblQuery) (b : Blk)
    (i : Issuer) (n : Nat) (ext : List Byte) : b.recsOf i { seq := n, raw := e, ext := ext } = [] := by
  unfold Blk.recsOf
  split <;> simp_all

/-- The program with an instruction staged, or refusing (R131, R132). -/
def Prog.staging (p : Prog) (v : Blk) (now : Nat) (e : W512) (ext : List Byte) (rd : Nat) : Prog :=
  match stageFaults v p e ext rd with
  | some r => { p with lastFetch := now, refused := some (r, ciSeq e) }
  | none => { p with
      lastFetch := now, lastSeq := ciSeq e, bytes := p.bytes + stagingBytes e,
      staged := p.staged ++ [{ seq := ciSeq e, raw := e, ext := ext }],
      records := p.records ++ v.recsOf p.issuer { seq := ciSeq e, raw := e, ext := ext } }

theorem Blk.stage_eq (b : Blk) (k : CqKey) (p : Prog) (e : W512) (ext : List Byte) (rd : Nat) :
    ∃ n, b.stage k p e ext rd = (b.drawn n).updCtlq k (fun c => { c with prog := some (p.staging (b.stagedView p) b.mono e ext rd) }) :=
  ⟨_, rfl⟩

/-- The commands whose instruction joins a program, with their opcodes. -/
def stagedCommands (q : CtlQ) : List (Instr × COp) :=
  [(.fence q, .fence), (.create q, .create), (.enable q, .enable), (.disable q, .disable), (.destroy q, .destroy),
    (.invalidate q, .invalidate), (.pipeLoad q, .pipeLoad), (.tblInsert q, .tblInsert), (.tblDelete q, .tblDelete),
    (.tblModify q, .tblModify), (.tblQuery q, .tblQuery), (.rmtConfig q, .rmtConfig), (.qpConnect q, .qpConnect),
    (.qpTune q, .qpTune), (.winModify q, .winModify), (.keyImport q, .keyImport), (.keyBind q, .keyBind),
    (.keyRetire q, .keyRetire), (.timeStep q, .timeStep), (.timeServo q, .timeServo), (.timeSource q, .timeSource),
    (.qCreate q, .qCreate), (.qEnable q, .qEnable), (.qDisable q, .qDisable), (.qDestroy q, .qDestroy), (.qReset q, .qReset),
    (.instResize q, .instResize), (.instAttach q, .instAttach), (.instDirtyLog q, .dirtyLog), (.poolSet q, .poolSet),
    (.devPowerCap q, .powerCap), (.slotControl q, .slotControl), (.query q, .query), (.summary q, .summary)]

theorem exec_of_mem_stagedCommands {q : CtlQ} (s : State) : ∀ x ∈ stagedCommands q, x.2.staged = true ∧
    exec x.1 s = .next { s with blk := s.blk.arrive (ctlKey q) x.2 } := by
  unfold stagedCommands
  simp only [List.forall_mem_cons, List.not_mem_nil, false_imp_iff, implies_true, and_true]
  and_intros <;> rfl

/-- Settles O26. -/
theorem programStaging : Obligations.ProgramStaging := by
  unfold Obligations.ProgramStaging
  intro s q idx e ext rd p c o hc b k v ha hp ho
  obtain ⟨hs, hx⟩ := exec_of_mem_stagedCommands s (c, o) hc
  rw [hx]
  have recs : o ≠ .query → o ≠ .tblQuery → v.recsOf p.issuer { seq := ciSeq e, raw := e, ext := ext } = [] :=
    fun hq ht => Blk.recsOf_of_not_query ho hq ht _ _ _ _
  have others : ∀ (b : Blk) (f g : CtlState → CtlState), ∀ j ≠ k, ((b.updCtlq k f).updCtlq k g).ctlq j = b.ctlq j :=
    fun b f g j hj => (Blk.ctlq_updCtlq_ne _ k g hj).trans (Blk.ctlq_updCtlq_ne _ k f hj)
  by_cases refusing : p.refused.isSome = true
  · rw [Blk.arrive_refusing ha hp ho hs refusing]
    refine ⟨_, { p with lastFetch := b.mono }, _, rfl, ?_, others b _ _, rfl, rfl, recs, by rw [if_pos refusing]⟩
    rw [Blk.ctlq_updCtlq, Blk.ctlq_updCtlq]
  · rw [Blk.arrive_staging ha hp ho hs (Option.not_isSome_iff_eq_none.1 refusing)]
    obtain ⟨n, hn⟩ := Blk.stage_eq (b.updCtlq k (fun c => { c with arrived := none })) k p e ext rd
    rw [hn]
    refine ⟨_, p.staging v b.mono e ext rd, _, rfl, ?_, others (b.drawn n) _ _, rfl, rfl, recs, ?_⟩
    · show (Blk.updCtlq (Blk.updCtlq (b.drawn n) k _) k _).ctlq k = _
      rw [Blk.ctlq_updCtlq, Blk.ctlq_updCtlq]
      rfl
    · rw [if_neg refusing]
      rfl

end Sys2Proof.Machine
end

section
/-! SUPPORT. What the control plane holds beside its error records, and start-up and reliability (`Blk.plane`):
one frame lemma for each function that leaves them, in the order of the model. -/

namespace Sys2Proof.Machine
open Sys2Proof

/-- What the control plane holds beside its error records: configuration, live epochs, control queues, the line of commits; and
start-up and reliability. -/
def Blk.plane (b : Blk) : Ctl × Boot × Rel := ({ b.ctl with errs := [] }, b.boot, b.rel)

@[simp] theorem Blk.plane_mk (clk spd brg cores mem poison dir ctl ports pm scans wqs cqs eqs mssWq mssCq insts pipes hog eth
    dsp keys rmt dma mss boot rel elec stg hlat tbLat hostFrames preEpoch halfDown out fresh) :
    Blk.plane ⟨clk, spd, brg, cores, mem, poison, dir, ctl, ports, pm, scans, wqs, cqs, eqs, mssWq, mssCq, insts, pipes, hog,
      eth, dsp, keys, rmt, dma, mss, boot, rel, elec, stg, hlat, tbLat, hostFrames, preEpoch, halfDown, out, fresh⟩ =
      ({ ctl with errs := [] }, boot, rel) := rfl

@[simp] theorem Blk.plane_eta (b : Blk) : ({ b.ctl with errs := [] }, b.boot, b.rel) = b.plane := rfl

@[simp] theorem Blk.plane_ite {p : Prop} [Decidable p] (b c : Blk) :
    (if p then b else c).plane = if p then b.plane else c.plane := apply_ite _ _ _ _

@[simp] theorem Blk.plane_foldl {α : Type} {f : Blk → α → Blk} (h : ∀ b x, (f b x).plane = b.plane) (l : List α) (b : Blk) :
    (l.foldl f b).plane = b.plane := by
  induction l generalizing b with
  | nil => rfl
  | cons x l ih => exact (ih _).trans (h b x)

/-! Memory, events and the tables of the state. -/

@[simp] theorem Blk.plane_drawn (b : Blk) (n : Nat) : (b.drawn n).plane = b.plane := by rfl
@[simp] theorem Blk.plane_updPort (b : Blk) (h : Nat) (f : HostPort → HostPort) : (b.updPort h f).plane = b.plane := by rfl
@[simp] theorem Blk.plane_updFn (b : Blk) (h : Nat) (f1 : Bool) (f : Fn → Fn) : (b.updFn h f1 f).plane = b.plane := by rfl
@[simp] theorem Blk.plane_updWq (b : Blk) (i q : Nat) (f : Wq → Wq) : (b.updWq i q f).plane = b.plane := by rfl
@[simp] theorem Blk.plane_updCq (b : Blk) (i q : Nat) (f : Cq → Cq) : (b.updCq i q f).plane = b.plane := by rfl
@[simp] theorem Blk.plane_updEq (b : Blk) (i e : Nat) (f : EvQ → EvQ) : (b.updEq i e f).plane = b.plane := by rfl
@[simp] theorem Blk.plane_updInst (b : Blk) (i : Nat) (f : InstDyn → InstDyn) : (b.updInst i f).plane = b.plane := by rfl
@[simp] theorem Blk.plane_updThread (b : Blk) (t : Nat) (f : Thread → Thread) : (b.updThread t f).plane = b.plane := by rfl
@[simp] theorem Blk.plane_updChan (b : Blk) (c : Nat) (f : Channel → Channel) : (b.updChan c f).plane = b.plane := by rfl
@[simp] theorem Blk.plane_updGroup (b : Blk) (g : Nat) (f : Group → Group) : (b.updGroup g f).plane = b.plane := by rfl
@[simp] theorem Blk.plane_updPipe (b : Blk) (p : Nat) (f : Pipe → Pipe) : (b.updPipe p f).plane = b.plane := by rfl

@[simp] theorem Blk.plane_updLearn (b : Blk) (p : Nat) (f : LearnUnit → LearnUnit) : (b.updLearn p f).plane = b.plane := by
  rfl

@[simp] theorem Blk.plane_updLane (b : Blk) (l : Nat) (f : EthLane → EthLane) : (b.updLane l f).plane = b.plane := by rfl
@[simp] theorem Blk.plane_updDsp (b : Blk) (d : Nat) (f : Dsp → Dsp) : (b.updDsp d f).plane = b.plane := by rfl
@[simp] theorem Blk.plane_updEng (b : Blk) (h : Nat) (f : Dma → Dma) : (b.updEng h f).plane = b.plane := by rfl
@[simp] theorem Blk.plane_updSlot (b : Blk) (k : Nat) (f : Slot → Slot) : (b.updSlot k f).plane = b.plane := by rfl
@[simp] theorem Blk.plane_updSa (b : Blk) (k : Nat) (f : SaState → SaState) : (b.updSa k f).plane = b.plane := by rfl
@[simp] theorem Blk.plane_updUnit (b : Blk) (u : Nat) (f : Lu → Lu) : (b.updUnit u f).plane = b.plane := by rfl
@[simp] theorem Blk.plane_updQp (b : Blk) (n : Nat) (f : Qp → Qp) : (b.updQp n f).plane = b.plane := by rfl
@[simp] theorem Blk.plane_updTrig (b : Blk) (k : Nat) (f : Trig → Trig) : (b.updTrig k f).plane = b.plane := by rfl
@[simp] theorem Blk.plane_linkAwake (b : Blk) (h : Nat) : (b.linkAwake h).plane = b.plane := by rfl
@[simp] theorem Blk.plane_emit (b : Blk) (e : Emit) : (b.emit e).plane = b.plane := by rfl
@[simp] theorem Blk.plane_setPoison (b : Blk) (gs : List Nat) (v : Bool) : (b.setPoison gs v).plane = b.plane := by rfl

@[simp] theorem Blk.plane_reelRaw (b : Blk) (type severity origin : Nat) (body : List Byte) :
    (b.reelRaw type severity origin body).plane = b.plane := by
  simp [Blk.reelRaw]

@[simp] theorem Blk.plane_reel (b : Blk) (type origin : Nat) (fields : List Nat) :
    (b.reel type origin fields).plane = b.plane := by
  simp [Blk.reel]

/-! Completions, events and interrupts (R64 to R72). -/

@[simp] theorem Blk.plane_instWrite (b : Blk) (i writer va : Nat) (l : List Byte) :
    (b.instWrite i writer va l).plane = b.plane := by
  rfl

@[simp] theorem Blk.plane_updEvq (b : Blk) (r : EqR) (f : EvQ → EvQ) : (b.updEvq r f).plane = b.plane := by
  unfold Blk.updEvq
  split <;> simp

@[simp] theorem Blk.plane_evalIntx (b : Blk) (h : Nat) (f1 : Bool) : (b.evalIntx h f1).plane = b.plane := by
  simp [Blk.evalIntx]

@[simp] theorem Blk.plane_msiSend (b : Blk) (h : Nat) (f1 : Bool) (v : Nat) : (b.msiSend h f1 v).plane = b.plane := by
  simp [Blk.msiSend]

@[simp] theorem Blk.plane_eqWrite (b : Blk) (r : EqR) (a : Nat) (l : List Byte) : (b.eqWrite r a l).plane = b.plane := by
  unfold Blk.eqWrite
  split <;> simp

@[simp] theorem Blk.plane_eqMirror (b : Blk) (r : EqR) : (b.eqMirror r).plane = b.plane := by
  unfold Blk.eqMirror
  split <;> simp

@[simp] theorem Blk.plane_eqPut (b : Blk) (r : EqR) (ev : Ev) (merged : Nat) : (b.eqPut r ev merged).plane = b.plane := by
  simp [Blk.eqPut]

@[simp] theorem Blk.plane_eqTake (b : Blk) (r : EqR) (ev : Ev) : (b.eqTake r ev).plane = b.plane := by simp [Blk.eqTake]

@[simp] theorem Blk.plane_raise (fuel : Nat) (b : Blk) (r : EqR) (ev : Ev) : (Blk.raise fuel b r ev).plane = b.plane := by
  induction fuel generalizing b r ev with
  | zero => exact b.plane_eqTake r ev
  | succ n ih => simp [Blk.raise, ih]

@[simp] theorem Blk.plane_devEvent (b : Blk) (type index reason value detail : Nat) :
    (b.devEvent type index reason value detail).plane = b.plane := by
  simp [Blk.devEvent]

@[simp] theorem Blk.plane_msiDue (b : Blk) (r : EqR) : (b.msiDue r).plane = b.plane := by simp [Blk.msiDue]

@[simp] theorem Blk.plane_eqMirrorRetry (b : Blk) (r : EqR) : (b.eqMirrorRetry r).plane = b.plane := by
  unfold Blk.eqMirrorRetry
  split <;> simp

@[simp] theorem Blk.plane_eqRetry (b0 : Blk) (r : EqR) : (b0.eqRetry r).plane = b0.plane := by simp [Blk.eqRetry]

@[simp] theorem Blk.plane_updCqOf (b : Blk) (r : CqR) (f : Cq → Cq) : (b.updCqOf r f).plane = b.plane := by
  unfold Blk.updCqOf
  split <;> simp

@[simp] theorem Blk.plane_cqWrite (b : Blk) (r : CqR) (a : Nat) (l : List Byte) : (b.cqWrite r a l).plane = b.plane := by
  unfold Blk.cqWrite
  split <;> simp

@[simp] theorem Blk.plane_cqMirror (b : Blk) (r : CqR) : (b.cqMirror r).plane = b.plane := by
  unfold Blk.cqMirror
  split <;> simp

@[simp] theorem Blk.plane_cqEvent (b : Blk) (r : CqR) (type : Nat) : (b.cqEvent r type).plane = b.plane := by
  unfold Blk.cqEvent
  split <;> simp

@[simp] theorem Blk.plane_cqNotify (b : Blk) (r : CqR) : (b.cqNotify r).plane = b.plane := by simp [Blk.cqNotify]
@[simp] theorem Blk.plane_cqPut (b : Blk) (r : CqR) (x : HeldCpl) : (b.cqPut r x).plane = b.plane := by simp [Blk.cqPut]

@[simp] theorem Blk.plane_cqDrain (fuel : Nat) (b : Blk) (r : CqR) : (Blk.cqDrain fuel b r).plane = b.plane := by
  induction fuel generalizing b with
  | zero => rfl
  | succ n ih =>
    unfold Blk.cqDrain
    split <;> simp [ih]

@[simp] theorem Blk.plane_complete (b : Blk) (r : CqR) (c : Cpl) (bump : Option Nat) (solicited : Bool) (epoch qpn : Nat) :
    (b.complete r c bump solicited epoch qpn).plane = b.plane := by
  simp [Blk.complete]

@[simp] theorem Blk.plane_cqMirrorRetry (b : Blk) (r : CqR) : (b.cqMirrorRetry r).plane = b.plane := by
  unfold Blk.cqMirrorRetry
  split <;> simp

@[simp] theorem Blk.plane_cqRetry (b0 : Blk) (r : CqR) : (b0.cqRetry r).plane = b0.plane := by simp [Blk.cqRetry]
@[simp] theorem Blk.plane_instRetry (b : Blk) (i : Nat) : (b.instRetry i).plane = b.plane := by simp [Blk.instRetry]

@[simp] theorem Blk.plane_xlateFault (b : Blk) (i cause va : Nat) : (b.xlateFault i cause va).plane = b.plane := by
  simp [Blk.xlateFault]

/-! Work queues (R101 to R123). -/

@[simp] theorem Blk.plane_release (fuel : Nat) (b : Blk) (i q : Nat) : (Blk.release fuel b i q).plane = b.plane := by
  induction fuel generalizing b with
  | zero => rfl
  | succ n ih =>
    unfold Blk.release
    dsimp only
    repeat' split
    all_goals simp [ih]

@[simp] theorem Blk.plane_finish (b : Blk) (i q : Nat) (idx : W16) (status : Nat) (c : CplF) :
    (b.finish i q idx status c).plane = b.plane := by
  unfold Blk.finish
  split <;> simp

@[simp] theorem Blk.plane_finishNow (b : Blk) (i q : Nat) (idx : W16) (status : Nat) (c : CplF) (bump : Option Nat)
    (solicited : Bool) (qpn : Nat) :
    (b.finishNow i q idx status c bump solicited qpn).plane = b.plane := by
  unfold Blk.finishNow
  split <;> simp

/-! Objects of the configuration. -/

@[simp] theorem Blk.plane_takeBlocks (n : Nat) (b : Blk) (i : Nat) : (Blk.takeBlocks n b i).plane = b.plane := by
  induction n generalizing b with
  | zero => rfl
  | succ n ih =>
    rw [Blk.takeBlocks_succ]
    split
    · rfl
    · exact (ih _).trans (by simp)

@[simp] theorem Blk.plane_giveBlocks (b : Blk) (i n before : Nat) : (b.giveBlocks i n before).plane = b.plane := by rfl
@[simp] theorem Blk.plane_zeroLeft (b : Blk) (i before : Nat) : (b.zeroLeft i before).plane = b.plane := by rfl

@[simp] theorem Blk.plane_resizeBlocks (b : Blk) (i n before : Nat) : (b.resizeBlocks i n before).plane = b.plane := by
  simp [Blk.resizeBlocks]

/-! The check phase. -/

@[simp] theorem Blk.plane_objNew (b : Blk) (o : Obj) (e : W512) : (b.objNew o e).plane = b.plane := by
  unfold Blk.objNew
  split <;> simp

@[simp] theorem Blk.plane_freshQueues (b : Blk) (i : Nat) : (b.freshQueues i).plane = b.plane := by rfl

/-! The key store. -/

@[simp] theorem Blk.plane_flip (b : Blk) (k alg epoch : Nat) (key : KeyReg) : (b.flip k alg epoch key).plane = b.plane := by
  rfl

@[simp] theorem Blk.plane_retireSlot (b : Blk) (k epoch : Nat) : (b.retireSlot k epoch).plane = b.plane := by rfl
@[simp] theorem Blk.plane_wipeOld (b : Blk) : b.wipeOld.plane = b.plane := by rfl
@[simp] theorem Blk.plane_releaseUnit (b : Blk) (u : Nat) : (b.releaseUnit u).plane = b.plane := by simp [Blk.releaseUnit]

@[simp] theorem Blk.plane_jobEnd (b : Blk) (i q : Nat) (idx : W16) (u status length : Nat) :
    (b.jobEnd i q idx u status length).plane = b.plane := by
  unfold Blk.jobEnd
  split <;> simp

/-! Lookaside jobs. -/

theorem Blk.plane_of_writeFault {b : Blk} {i va : Nat} {a : Ans} {y : Nat × Blk} (h : b.writeFault i va a = some y) :
    y.2.plane = b.plane := by
  unfold Blk.writeFault at h
  split at h <;> simp at h
  simp [← h]

@[simp] theorem Blk.plane_endJobs (b : Blk) (status : Nat) (p : Nat → Entry → Bool) :
    (b.endJobs status p).plane = b.plane := by
  simp [Blk.endJobs]

@[simp] theorem Blk.plane_endLocks (b : Blk) (i : Nat) : (b.endLocks i).plane = b.plane := by rfl

@[simp] theorem Blk.plane_unitFault (b : Blk) (u : Nat) : (b.unitFault u).plane = b.plane := by
  unfold Blk.unitFault
  split <;> simp

@[simp] theorem Blk.plane_eraseSlot (b : Blk) (k : Nat) : (b.eraseSlot k).plane = b.plane := by simp [Blk.eraseSlot]

/-! Inline security associations. -/

@[simp] theorem Blk.plane_ethCnt (b : Blk) (l n k : Nat) : (b.ethCnt l n k).plane = b.plane := by rfl
@[simp] theorem Blk.plane_pipeCnt (b : Blk) (p n k : Nat) : (b.pipeCnt p n k).plane = b.plane := by rfl
@[simp] theorem Blk.plane_drop (b : Blk) (p reason : Nat) : (b.drop p reason).plane = b.plane := by rfl

/-! Threads, channels, fault records. -/

@[simp] theorem Blk.plane_leaveWait (b : Blk) (t : Nat) : (b.leaveWait t).plane = b.plane := by simp [Blk.leaveWait]
@[simp] theorem Blk.plane_wake (b : Blk) (t : Nat) : (b.wake t).plane = b.plane := by simp [Blk.wake]
@[simp] theorem Blk.plane_evalWait (b : Blk) (t : Nat) : (b.evalWait t).plane = b.plane := by simp [Blk.evalWait]
@[simp] theorem Blk.plane_evalWaits (b : Blk) (ts : List Nat) : (b.evalWaits ts).plane = b.plane := by simp [Blk.evalWaits]
@[simp] theorem Blk.plane_latch (b : Blk) (t bitsv : Nat) : (b.latch t bitsv).plane = b.plane := by simp [Blk.latch]
@[simp] theorem Blk.plane_unitEvent (b : Blk) (t k : Nat) : (b.unitEvent t k).plane = b.plane := by simp [Blk.unitEvent]
@[simp] theorem Blk.plane_stepWaits (b : Blk) : b.stepWaits.plane = b.plane := by simp [Blk.stepWaits]
@[simp] theorem Blk.plane_creditsRise (b : Blk) (c : Nat) : (b.creditsRise c).plane = b.plane := by simp [Blk.creditsRise]

@[simp] theorem Blk.plane_returnCredits (b : Blk) (t c : Nat) : (b.returnCredits t c).plane = b.plane := by
  simp [Blk.returnCredits]

@[simp] theorem Blk.plane_startThread (b : Blk) (t : Nat) (pc : W64) : (b.startThread t pc).plane = b.plane := by
  simp [Blk.startThread]

/-! Hogsheads and traffic managers. -/

@[simp] theorem Blk.plane_setTmq (b : Blk) (q : TmQueue) : (b.setTmq q).plane = b.plane := by rfl

@[simp] theorem Blk.plane_pfcSend (b : Blk) (l prio quanta : Nat) : (b.pfcSend l prio quanta).plane = b.plane := by
  simp [Blk.pfcSend]

@[simp] theorem Blk.plane_pfcEval (b : Blk) (l prio : Nat) : (b.pfcEval l prio).plane = b.plane := by simp [Blk.pfcEval]
@[simp] theorem Blk.plane_pfcSettle (b : Blk) : b.pfcSettle.plane = b.plane := by simp [Blk.pfcSettle]

@[simp] theorem Blk.plane_endLaunch (b : Blk) (p : Packet) (status : Nat) : (b.endLaunch p status).plane = b.plane := by
  unfold Blk.endLaunch
  repeat' split
  all_goals simp

@[simp] theorem Blk.plane_dropPkt (b : Blk) (p : Packet) (pipe reason : Nat) :
    (b.dropPkt p pipe reason).plane = b.plane := by
  simp [Blk.dropPkt]

@[simp] theorem Blk.plane_countDown (b : Blk) (h : Half) : (b.countDown h).plane = b.plane := by rfl

@[simp] theorem Blk.plane_dropDown (b : Blk) (p : Packet) (h : Half) : (b.dropDown p h).plane = b.plane := by
  simp [Blk.dropDown]

/-! From the queue to the wire or the host. -/

@[simp] theorem Blk.plane_lateHead (b : Blk) (l tc : Nat) : (b.lateHead l tc).plane = b.plane := by rfl

@[simp] theorem Blk.plane_launchDrop (b : Blk) (l : Nat) (p : Packet) : (b.launchDrop l p).plane = b.plane := by
  simp [Blk.launchDrop]

@[simp] theorem Blk.plane_launchCheck (b : Blk) : b.launchCheck.plane = b.plane := by simp [Blk.launchCheck]

/-! Ingress of a pipeline. -/

@[simp] theorem Blk.plane_laneReplay (b : Blk) (p : Nat) : (b.laneReplay p).plane = b.plane := by simp [Blk.laneReplay]

/-! Ethernet ports and drives. -/

@[simp] theorem Blk.plane_dropQueued (b : Blk) (l : Nat) : (b.dropQueued l).plane = b.plane := by simp [Blk.dropQueued]

@[simp] theorem Blk.plane_setLink (b : Blk) (l : Nat) (s : LinkSt) : (b.setLink l s).plane = b.plane := by
  simp [Blk.setLink]

@[simp] theorem Blk.plane_setFaults (b : Blk) (l : Nat) (local_ remote : Bool) :
    (b.setFaults l local_ remote).plane = b.plane := by
  simp [Blk.setFaults]

@[simp] theorem Blk.plane_linkSettle (b : Blk) (l : Nat) : (b.linkSettle l).plane = b.plane := by simp [Blk.linkSettle]
@[simp] theorem Blk.plane_dspEvent (b : Blk) (d : Nat) : (b.dspEvent d).plane = b.plane := by simp [Blk.dspEvent]

@[simp] theorem Blk.plane_slotEvent (b : Blk) (d : Nat) (rose : Bool) : (b.slotEvent d rose).plane = b.plane := by
  simp [Blk.slotEvent]

@[simp] theorem Blk.plane_slotSet (b : Blk) (d : Nat) (f : Dsp → Dsp) : (b.slotSet d f).plane = b.plane := by
  simp [Blk.slotSet]

@[simp] theorem Blk.plane_slotAct (b : Blk) (d : Nat) (clear : BitVec 3) (power attention led : Nat) :
    (b.slotAct d clear power attention led).plane = b.plane := by
  simp [Blk.slotAct]

@[simp] theorem Blk.plane_slotControl (b : Blk) (d : Nat) (clear : Bool) (power attention led : Nat) :
    (b.slotControl d clear power attention led).plane = b.plane := by
  simp [Blk.slotControl]

/-! The timebase. -/

@[simp] theorem Blk.plane_applyStep (b : Blk) (d : Int) : (b.applyStep d).plane = b.plane := by simp [Blk.applyStep]

/-! Transport packets. -/

@[simp] theorem Blk.plane_rmtCnt (b : Blk) (h : Half) (k n : Nat) : (b.rmtCnt h k n).plane = b.plane := by rfl

@[simp] theorem Blk.plane_rmtSend (b : Blk) (half : Half) (port inst meta_ tc : Nat) (e : RmtEnds) (x : RmtHdr)
    (payload : List Byte) (st : TxStamp) :
    (b.rmtSend half port inst meta_ tc e x payload st).plane = b.plane := by
  rfl

@[simp] theorem Blk.plane_qpSend (b : Blk) (n : Nat) (q : QpCfg) (c : Conn) (srcPort : Nat) (x : RmtHdr)
    (payload : List Byte) (st : TxStamp) :
    (b.qpSend n q c srcPort x payload st).plane = b.plane := by
  rfl

/-! The requester. -/

@[simp] theorem Blk.plane_reqDone (b : Blk) (i q : Nat) (idx : W16) (status : Nat) :
    (b.reqDone i q idx status).plane = b.plane := by
  unfold Blk.reqDone
  split <;> simp

@[simp] theorem Blk.plane_joinList (b : Blk) (i q : Nat) (idx : W16) (epoch n : Nat) :
    (b.joinList i q idx epoch n).plane = b.plane := by
  simp [Blk.joinList]

@[simp] theorem Blk.plane_fire (b : Blk) (k : Nat) : (b.fire k).plane = b.plane := by simp [Blk.fire]
@[simp] theorem Blk.plane_trigInc (b : Blk) (k n : Nat) : (b.trigInc k n).plane = b.plane := by simp [Blk.trigInc]

@[simp] theorem Blk.plane_applyIncs (fuel : Nat) (b : Blk) : (Blk.applyIncs fuel b).plane = b.plane := by
  induction fuel generalizing b with
  | zero => rfl
  | succ n ih =>
    unfold Blk.applyIncs
    split <;> simp [ih]

@[simp] theorem Blk.plane_settleIncs (b : Blk) : b.settleIncs.plane = b.plane := by simp [Blk.settleIncs]

@[simp] theorem Blk.plane_releaseMsgs (fuel : Nat) (b : Blk) (n : Nat) : (Blk.releaseMsgs fuel b n).plane = b.plane := by
  induction fuel generalizing b with
  | zero => rfl
  | succ k ih =>
    unfold Blk.releaseMsgs
    repeat' split
    all_goals simp [ih]

@[simp] theorem Blk.plane_endMsg (b : Blk) (n msn status : Nat) (stop : Bool) :
    (b.endMsg n msn status stop).plane = b.plane := by
  simp [Blk.endMsg]

/-! The responder. -/

@[simp] theorem Blk.plane_abandon (b : Blk) (n msn : Nat) : (b.abandon n msn).plane = b.plane := by
  unfold Blk.abandon
  dsimp only
  repeat' split
  all_goals simp

/-! Instances: walks and device memory. -/

@[simp] theorem Blk.plane_errRec (b : Blk) (type reason index port epoch detail : Nat) :
    (b.errRec type reason index port epoch detail).plane = b.plane := by
  rfl

@[simp] theorem Blk.plane_updCache (b : Blk) (h : Half) (f : List XEntry → List XEntry) :
    (b.updCache h f).plane = b.plane := by
  unfold Blk.updCache
  split <;> simp

@[simp] theorem Blk.plane_intxAll (b : Blk) : b.intxAll.plane = b.plane := by simp [Blk.intxAll]

@[simp] theorem Blk.plane_invalidate (b : Blk) (i : Nat) (all : Bool) (start len : Nat) :
    (b.invalidate i all start len).plane = b.plane := by
  rfl

@[simp] theorem Blk.plane_genDrain (b : Blk) (i : Nat) (gen : BitVec 12) : (b.genDrain i gen).plane = b.plane := by
  simp [Blk.genDrain]

@[simp] theorem Blk.plane_genUp (b : Blk) (i : Nat) : (b.genUp i).plane = b.plane := by simp [Blk.genUp]

/-! Epochs. -/

@[simp] theorem Blk.plane_dropEpoch (b : Blk) (e : Nat) : (b.dropEpoch e).plane = b.plane := by simp [Blk.dropEpoch]

@[simp] theorem Blk.plane_endRequest (b : Blk) (r : Nat × Nat × W16) (status : Nat) :
    (b.endRequest r status).plane = b.plane := by
  simp [Blk.endRequest]

@[simp] theorem Blk.plane_endEpochWork (b : Blk) (e : Nat) : (b.endEpochWork e).plane = b.plane := by
  simp [Blk.endEpochWork]

@[simp] theorem Blk.plane_expiredIn (b : Blk) (h : Half) (n e : Nat) : (b.expiredIn h n e).plane = b.plane := by
  simp [Blk.expiredIn]

/-! Start-up and activation. -/

@[simp] theorem Blk.plane_startHalf (b : Blk) (h : Half) (x : Image) : (b.startHalf h x).plane = b.plane := by
  simp [Blk.startHalf]

/-! The DMA engines. -/

@[simp] theorem Blk.plane_dmaStop (b : Blk) (h : Nat) (c : StopCause) (addr : Nat) (write sys : Bool) (lost : Nat) :
    (b.dmaStop h c addr write sys lost).plane = b.plane := by
  simp [Blk.dmaStop]

@[simp] theorem Blk.plane_dmaLinkLost (b : Blk) (h : Nat) : (b.dmaLinkLost h).plane = b.plane := by simp [Blk.dmaLinkLost]
@[simp] theorem Blk.plane_dmaReset (b : Blk) (h : Nat) (whole : Bool) : (b.dmaReset h whole).plane = b.plane := by rfl

/-! Host ports. -/

@[simp] theorem Blk.plane_dropLatches (b : Blk) (w : Who) : (b.dropLatches w).plane = b.plane := by rfl
@[simp] theorem Blk.plane_dropRegs (b : Blk) (p : Reg → Bool) : (b.dropRegs p).plane = b.plane := by rfl

/-! Resets of a half and of the device, power. -/

@[simp] theorem Blk.plane_loseThreads (b : Blk) (h : Half) : (b.loseThreads h).plane = b.plane := by simp [Blk.loseThreads]
@[simp] theorem Blk.plane_dropHalfRegs (b : Blk) (h : Half) : (b.dropHalfRegs h).plane = b.plane := by rfl
@[simp] theorem Blk.plane_sensOff (b : Blk) : b.sensOff.plane = b.plane := by rfl

/-! What a commit does beside the configuration. -/

@[simp] theorem Blk.plane_endQpWaiting (b : Blk) (n status : Nat) : (b.endQpWaiting n status).plane = b.plane := by
  simp [Blk.endQpWaiting]

@[simp] theorem Blk.plane_endPosted (b : Blk) (k status : Nat) : (b.endPosted k status).plane = b.plane := by
  simp [Blk.endPosted]

@[simp] theorem Blk.plane_endQueue (b : Blk) (i q status : Nat) : (b.endQueue i q status).plane = b.plane := by
  unfold Blk.endQueue
  refine Blk.plane_foldl (fun b e => ?_) _ b
  dsimp only
  repeat' split
  all_goals simp

@[simp] theorem Blk.plane_endBuffers (b : Blk) (i : Nat) : (b.endBuffers i).plane = b.plane := by simp [Blk.endBuffers]
@[simp] theorem Blk.plane_instDisable (b : Blk) (i : Nat) : (b.instDisable i).plane = b.plane := by simp [Blk.instDisable]
@[simp] theorem Blk.plane_qpEnable (b : Blk) (n : Nat) : (b.qpEnable n).plane = b.plane := by simp [Blk.qpEnable]
@[simp] theorem Blk.plane_portGone (b : Blk) (l : Nat) : (b.portGone l).plane = b.plane := by simp [Blk.portGone]
@[simp] theorem Blk.plane_winDrains (b : Blk) (k : Nat) : (b.winDrains k).plane = b.plane := by simp [Blk.winDrains]

@[simp] theorem Blk.plane_objEnable (b : Blk) (o : Obj) : (b.objEnable o).plane = b.plane := by
  unfold Blk.objEnable
  split <;> simp

@[simp] theorem Blk.plane_objDisable (b : Blk) (o : Obj) : (b.objDisable o).plane = b.plane := by
  unfold Blk.objDisable
  split <;> simp

@[simp] theorem Blk.plane_portAfter (b : Blk) (o : Obj) : (b.portAfter o).plane = b.plane := by
  unfold Blk.portAfter
  split <;> simp

@[simp] theorem Blk.plane_xRetry (b : Blk) (i : Nat) : (b.xRetry i).plane = b.plane := by simp [Blk.xRetry]

@[simp] theorem Blk.plane_after (b : Blk) (prior : List CInstr) (x : CInstr) : (b.after prior x).plane = b.plane := by
  unfold Blk.after
  dsimp only
  repeat' split
  all_goals simp

/-! Control programs. -/

@[simp] theorem Blk.plane_setNext (b : Blk) (p : Prog) : (b.setNext p).plane = b.plane := by simp [Blk.setNext]
@[simp] theorem Blk.plane_dropNext (b : Blk) (p : Prog) : (b.dropNext p).plane = b.plane := by simp [Blk.dropNext]

@[simp] theorem Blk.plane_ctlWrite (b : Blk) (k : CqKey) (a : Nat) (l : List Byte) :
    (b.ctlWrite k a l).plane = b.plane := by
  simp [Blk.ctlWrite]

@[simp] theorem Blk.plane_recordRead (b : Blk) (r : List Byte) : (b.recordRead r).plane = b.plane := by
  simp [Blk.recordRead]

theorem Blk.plane_of_ctlFault {b c : Blk} {k : CqKey} {a : Nat} {ans : Ans} (h : b.ctlFault k a ans = some c) :
    c.plane = b.plane := by
  unfold Blk.ctlFault at h
  split at h
  · simp at h
  · obtain ⟨z, hz, rfl⟩ := Option.map_eq_some_iff.1 h
    exact Blk.plane_of_writeFault hz

@[simp] theorem Blk.plane_writeRecords (b : Blk) (k : CqKey) (e : Ended) (res : Ans) :
    (b.writeRecords k e res).1.plane = b.plane := by
  unfold Blk.writeRecords
  extract_lets l
  split
  · rfl
  · split
    · rfl
    · split
      · next h => exact Blk.plane_of_ctlFault h
      · simp

@[simp] theorem Blk.plane_writeSums (b : Blk) (k : CqKey) (e : Ended) (ans : Ans) :
    (b.writeSums k e ans).plane = b.plane := by
  refine Blk.plane_foldl (fun b x => ?_) _ b
  split
  · next h => exact Blk.plane_of_ctlFault h
  · simp

/-! The management subsystem. -/

@[simp] theorem Blk.plane_updMssPort (b : Blk) (v : Transport) (f : MssPort → MssPort) :
    (b.updMssPort v f).plane = b.plane := by
  rfl

@[simp] theorem Blk.plane_mssReply (b : Blk) (v : Transport) (cmd : Nat) (tag : W32) (status : Nat) (body : List Byte) :
    (b.mssReply v cmd tag status body).plane = b.plane := by
  unfold Blk.mssReply
  split <;> simp

end Sys2Proof.Machine
end

section
/-! SUPPORT. The proof of the statement on epochs (R16, R19, R23, R27, R28, R94, R97, R141). -/

namespace Sys2Proof.Machine
open Sys2Proof

theorem exec_epochVisible (s : State) (u : Fin 72) (e : W64) :
    exec (.epochVisible u e) s = .next { s with blk := s.blk.epochVisible u.val e.toNat } := rfl
theorem exec_epochRetire (s : State) : exec .epochRetire s = .next { s with blk := s.blk.epochRetire } := rfl
theorem exec_epochExpired (s : State) : exec .epochExpired s = .next { s with blk := s.blk.epochExpire } := rfl
theorem exec_halfRejoin (s : State) (h : Half) : exec (.halfRejoin h) s = .next { s with blk := s.blk.halfRejoin h } := rfl
theorem exec_activationBindCommit (s : State) : exec .activationBindCommit s = .next { s with blk := s.blk.bindImage } := rfl

/-! Visibility (R27). -/

/-- The unit has the epoch, as one more or as before. -/
def EpochRec.seenBy (r : EpochRec) (u e : Nat) : EpochRec :=
  if r.num ≤ e ∧ ¬ r.seen.contains u then { r with seen := r.seen ++ [u] } else r

theorem EpochRec.num_seenBy (r : EpochRec) (u e : Nat) : (r.seenBy u e).num = r.num := by
  unfold EpochRec.seenBy
  split <;> rfl

theorem EpochRec.mem_seen_seenBy {r : EpochRec} {u e : Nat} (h : r.num ≤ e) : u ∈ (r.seenBy u e).seen := by
  unfold EpochRec.seenBy
  split
  · simp
  · next hn => simpa [h] using hn

/-- No retrain of the bridge holds an epoch up to `e` from the unit. -/
def Blk.allReach (b : Blk) (u e : Nat) : Bool :=
  b.ctl.live.all (fun r => decide (e < r.num) || r.seen.contains u || b.announced r (halfOfEpochUnit u))

theorem Blk.epochVisible_of_reach {b : Blk} {u e : Nat} (hl : ∃ y ∈ b.ctl.live, y.num = e) (hr : b.allReach u e = true) :
    b.epochVisible u e = { b with ctl := { b.ctl with live := b.ctl.live.map (·.seenBy u e) } } := by
  have live : b.ctl.live.any (fun r => r.num == e) = true := by simpa using hl
  unfold Blk.allReach at hr
  unfold Blk.epochVisible
  rw [live, hr]
  rfl

theorem Blk.allReach_iff (b : Blk) (u e : Nat) : b.allReach u e = true ↔ ∀ y ∈ b.ctl.live, y.num ≤ e →
    u ∈ y.seen ∨ y.src = halfOfEpochUnit u ∨ (b.bridgeTo (halfOfEpochUnit u)).retrain = none := by
  simp only [Blk.allReach, Blk.announced, List.all_eq_true, Bool.or_eq_true, decide_eq_true_eq, List.contains_iff_mem, beq_iff_eq,
    Option.isNone_iff_eq_none, ← Nat.not_le, imp_iff_not_or, or_assoc]

theorem Blk.epochVisible_of_held {b : Blk} {u e : Nat} (hr : b.allReach u e = false) : b.epochVisible u e = b := by
  unfold Blk.allReach at hr
  unfold Blk.epochVisible
  rw [hr, Bool.and_false, if_neg Bool.false_ne_true]

/-! Retirement (R28). -/

theorem Blk.epochRetire_of_head {b : Blk} {r : EpochRec} {rest : List EpochRec} (hl : b.ctl.live = r :: rest)
    (he : ∃ y ∈ rest, y.everywhere = true) (hb : b.epochBusy r.num = false) :
    b.epochRetire = Blk.wipeOld { b with
      ctl := { b.ctl with live := rest }, boot := { b.boot with old := b.boot.old.filter (fun o => decide (r.num < o.1)) } } := by
  have may : b.mayRetire = true := by simpa [Blk.mayRetire, hl, hb] using he
  unfold Blk.epochRetire
  rw [if_pos may, hl]
  rfl

/-! Expiry (R141). -/

theorem Blk.ctl_of_plane {b c : Blk} (h : c.plane = b.plane) : c.ctl = { b.ctl with errs := c.ctl.errs } := by
  have hc : ({ c.ctl with errs := [] } : Ctl) = { b.ctl with errs := [] } := congrArg Prod.fst h
  exact congrArg (fun x : Ctl => { x with errs := c.ctl.errs }) hc

theorem Blk.boot_of_plane {b c : Blk} (h : c.plane = b.plane) : c.boot = b.boot := congrArg (·.2.1) h
theorem Blk.rel_of_plane {b c : Blk} (h : c.plane = b.plane) : c.rel = b.rel := congrArg (·.2.2) h

/-- The end of an epoch's work leaves the control plane; the epoch is marked (R141). -/
theorem Blk.ctl_epochExpire {b : Blk} {r : EpochRec} (h : b.expiring = some r) : ∃ l, b.epochExpire.ctl = { b.ctl with
    live := b.ctl.live.map (fun x => if x.num = r.num then { x with expired := true } else x), errs := l } := by
  have work := Blk.ctl_of_plane (Blk.plane_endEpochWork b r.num)
  unfold Blk.epochExpire
  rw [h]
  dsimp only
  generalize b.epochUnits r.num .west = west, b.epochUnits r.num .east = east
  exact ⟨_, by rw [Blk.ctl_of_plane ((Blk.plane_expiredIn _ _ _ _).trans (Blk.plane_expiredIn _ _ _ _)), work]⟩

/-! The return of a half (R23, R24). -/

/-- Start-up as a half rejoins: it holds the points of the other, and the part goes on as before the loss. -/
def Boot.rejoined (o : Boot) (h : Half) : Boot :=
  { o with
    state := o.before,
    mpWest := if h = .west then o.mpEast else o.mpWest, mpEast := if h = .west then o.mpEast else o.mpWest }

theorem Blk.halfRejoin_of_image {b : Blk} {h : Half} {x : Image} (hs : b.boot.state = 7) (h0 : b.mp h = 0) (ho : b.mp h.other ≠ 0)
    (hout : h.code ∉ b.boot.shutOut) (hi : b.boot.image = some x) (hf : b.retainedFault (b.copyLost h.other x) x = none) :
    ∃ c : Blk, b.halfRejoin h = (c.placeImage h x).startHalf h x ∧ c.plane = ({ b.ctl with errs := [] }, b.boot.rejoined h, b.rel) := by
  have may : ¬ (b.boot.state ≠ bsRecovery ∨ b.mp h ≠ 0 ∨ b.mp h.other = 0 ∨ b.boot.shutOut.contains h.code = true ∨
      (b.boot.image.any (fun x => (b.retainedFault (b.copyLost h.other x) x).isSome)) = true) := by
    simp [hs, h0, ho, hout, hi, hf, bsRecovery]
  unfold Blk.halfRejoin
  extract_lets mp b1 k b2 b3
  have points : b1.boot = b.boot.rejoined h := by
    cases h <;> simp [b1, mp, Blk.setBoot, Blk.mp, Half.other, Boot.rejoined]
  have settled : b3.plane = b2.plane := by simp [b3]
  have image : b3.boot.image = some x := by
    rw [Blk.boot_of_plane settled]
    show b1.boot.image = some x
    rw [points]
    exact hi
  refine ⟨b3, by rw [if_neg may, image], settled.trans ?_⟩
  show ({ b.ctl with errs := [] }, b1.boot, b.rel) = _
  rw [points]

theorem Blk.mp_rejoined {c b : Blk} {h : Half} (hc : c.boot = b.boot.rejoined h) :
    c.mp h = b.mp h.other ∧ c.mp h.other = b.mp h.other := by
  cases h <;> simp [Blk.mp, Half.other, hc, Boot.rejoined]

@[simp] theorem Blk.plane_placeImage (b : Blk) (h : Half) (x : Image) : (b.placeImage h x).plane = b.plane := by
  unfold Blk.placeImage
  exact Blk.plane_foldl (fun _ _ => by rfl) _ _

theorem Blk.thread_startThread (b : Blk) (t : Nat) (pc : W64) :
    ((b.startThread t pc).thread t).st = .running ∧ ((b.startThread t pc).thread t).pc = pcOf pc := by
  simp [Blk.startThread]

theorem Blk.thread_startHalf (b : Blk) (h : Half) (x : Image) :
    let first := if h = .west then 0 else 256
    ((b.startHalf h x).thread first).st = .running ∧ ((b.startHalf h x).thread first).pc = pcOf (BitVec.ofNat 64 x.entry) :=
  Blk.thread_startThread _ _ _

/-- An image whose copy in the other half is whole and whose version reaches the floor verifies again (R94). -/
theorem Blk.retainedFault_none {b : Blk} {x : Image} (hv : b.mss.fw.imageMinSec ≤ x.secVersion) {h : Half}
    (hp : ∀ c ∈ x.sections, b.anyPoison (fwLoc h c.1) c.2.length = false) : b.retainedFault (b.copyLost h x) x = none := by
  have kept : b.copyLost h x = false := by simpa [Blk.copyLost] using fun a l hm => hp (a, l) hm
  simp [Blk.retainedFault, chk, firstOf, hv, kept]

/-- A version below the floor leaves the half withdrawn (R91; the model's choice, log 117). -/
theorem Blk.halfRejoin_of_old_image {b : Blk} {h : Half} {x : Image} (hi : b.boot.image = some x)
    (hv : x.secVersion < b.mss.fw.imageMinSec) : b.halfRejoin h = b := by
  have fault : b.boot.image.any (fun x => (b.retainedFault (b.copyLost h.other x) x).isSome) = true := by
    simp [hi, Blk.retainedFault, chk, firstOf, Nat.not_le.2 hv]
  exact if_pos (Or.inr (Or.inr (Or.inr (Or.inr fault))))

/-! The epoch of an activation (R97). -/

theorem Blk.bindImage_of_free {b : Blk} {a : Activation} (ha : b.boot.act = some a) (hp : a.phase = 2) (hl : b.ctl.line = [])
    (hf : b.ctl.live.length < 4) : b.bindImage = { b with
      ctl := (b.announce (b.ctl.newest + 1) (b.keyHalf mssKey)).ctl,
      boot := { b.boot with
        image := some a.image, old := b.boot.image.map (fun y => (b.ctl.newest, y)), act := some { a with phase := 3 } } } := by
  have free : ¬ (!b.ctl.line.isEmpty || decide (4 ≤ b.ctl.live.length)) = true := by simp [hl, hf]
  simp only [Blk.bindImage, Blk.inPhase, ha, hp, if_true, if_neg free]
  simp only [Blk.setBoot, Blk.announce, ha, Option.map_some]

/-- Settles O31. -/
theorem epochs : Obligations.Epochs := by
  unfold Obligations.Epochs
  intro s u e h r rest a x b first here
  refine ⟨fun hl => ⟨fun hr => ?_, fun hr => ?_⟩, fun hl he hb => ?_, fun hx => ?_, fun hs h0 ho hout hi => ⟨fun hv hp => ?_, fun hv => ?_⟩,
    fun ha hp hl hf => ?_⟩
  · have reach : b.allReach u.val e.toNat = true := (b.allReach_iff _ _).2 hr
    rw [exec_epochVisible, Blk.epochVisible_of_reach hl reach]
    refine ⟨_, rfl, rfl, ?_, ?_, fun y hy he => ?_⟩
    · simp [Function.comp_def, EpochRec.num_seenBy]
    · intro y hy he
      obtain ⟨z, hz, rfl⟩ := List.mem_map.1 hy
      rw [EpochRec.num_seenBy] at he
      exact EpochRec.mem_seen_seenBy he
    · exact List.mem_map.2 ⟨y, hy, if_neg (fun hn => Nat.not_le.2 he hn.1)⟩
  · have held : b.allReach u.val e.toNat = false := by
      obtain ⟨y, hy, hn, hu, hsrc, hret⟩ := hr
      exact Bool.eq_false_iff.2 (fun reach => ((b.allReach_iff _ _).1 reach y hy hn).elim hu (·.elim hsrc hret))
    rw [exec_epochVisible, Blk.epochVisible_of_held held]
  · refine ⟨_, exec_epochRetire s, ?_⟩
    rw [Blk.epochRetire_of_head hl he hb]
    exact ⟨rfl, rfl⟩
  · obtain ⟨l, hc⟩ := Blk.ctl_epochExpire hx
    refine ⟨_, exec_epochExpired s, (congrArg Ctl.newest hc :), (congrArg Ctl.cfg hc :), ?_, ?_⟩
    · show b.epochExpire.ctl.live.map (·.num) = _
      rw [hc, List.map_map]
      exact List.map_congr_left (fun y _ => by dsimp only [Function.comp_apply]; split <;> rfl)
    · show ∀ y ∈ b.epochExpire.ctl.live, _
      rw [hc]
      intro y hy hn
      obtain ⟨z, hz, rfl⟩ := List.mem_map.1 hy
      split at hn <;> simp_all
  · obtain ⟨c, hc, hp⟩ := Blk.halfRejoin_of_image hs h0 ho hout hi (Blk.retainedFault_none hv hp)
    have left : (b.halfRejoin h).plane = ({ b.ctl with errs := [] }, b.boot.rejoined h, b.rel) := by
      rw [hc]
      exact (Blk.plane_startHalf _ _ _).trans ((Blk.plane_placeImage _ _ _).trans hp)
    have boot : (b.halfRejoin h).boot = b.boot.rejoined h := congrArg (·.2.1) left
    have ctl : ({ (b.halfRejoin h).ctl with errs := [] } : Ctl) = { b.ctl with errs := [] } := congrArg Prod.fst left
    obtain ⟨own, other⟩ := Blk.mp_rejoined boot
    obtain ⟨runs, pc⟩ := (c.placeImage h x).thread_startHalf h x
    rw [← hc] at runs pc
    exact ⟨_, exec_halfRejoin s h, own, other, (congrArg Boot.state boot :), runs, pc, (congrArg Ctl.newest ctl :),
      (congrArg Ctl.cfg ctl :)⟩
  · rw [exec_halfRejoin, Blk.halfRejoin_of_old_image hi hv]
  · refine ⟨_, exec_activationBindCommit s, ?_⟩
    rw [Blk.bindImage_of_free ha hp hl hf]
    exact ⟨rfl, rfl, rfl, rfl⟩

end Sys2Proof.Machine
end

section
/-! SUPPORT. The proof of the statement on the ends of programs (R20, R130, R131, R133, R139, R143). -/

namespace Sys2Proof.Machine
open Sys2Proof

theorem exec_begin (s : State) (q : CtlQ) : exec (.begin_ q) s = .next { s with blk := s.blk.arrive (ctlKey q) .begin_ } := rfl
theorem exec_commit (s : State) (q : CtlQ) : exec (.commit q) s = .next { s with blk := s.blk.arrive (ctlKey q) .commit } := rfl
theorem exec_abort (s : State) (q : CtlQ) : exec (.abort q) s = .next { s with blk := s.blk.arrive (ctlKey q) .abort } := rfl
theorem exec_instructionOutsideProgram (s : State) (q : CtlQ) :
    exec (.instructionOutsideProgram q) s = .next { s with blk := s.blk.outside (ctlKey q) } := rfl
theorem exec_programStalled (s : State) (q : CtlQ) :
    exec (.programStalled q) s = .next { s with blk := s.blk.stalled (ctlKey q) } := rfl
theorem exec_commitProceed (s : State) : exec .commitProceed s = .next { s with blk := s.blk.proceed } := rfl
theorem exec_programComplete (s : State) (q : CtlQ) (res sum : Ans) :
    exec (.programComplete q res sum) s = .next { s with blk := s.blk.progComplete (ctlKey q) res sum } := rfl

/-! How an arrived instruction is handled (R131). -/

/-- The queue with its instruction taken. -/
def Blk.taken (b : Blk) (k : CqKey) : Blk := b.updCtlq k (fun c => { c with arrived := none })

section Arrived

variable {b : Blk} {k : CqKey} {idx : W16} {e : W512} {ext : List Byte} {rd : Nat} {p : Prog}
  (ha : (b.ctlq k).arrived = some (idx, e, ext, rd))
include ha

theorem Blk.arrive_begin (hp : (b.ctlq k).prog = none) (ho : ciOp e = some .begin_) :
    b.arrive k .begin_ = (b.taken k).openProg k idx e := by
  simp [Blk.arrive, Blk.handle, ha, hp, ho, Blk.taken]

theorem Blk.outside_stray (hp : (b.ctlq k).prog = none) (ho : ciOp e ≠ some .begin_) :
    b.outside k = (b.taken k).refuseAlone k idx e := by
  simp [Blk.outside, Blk.handle, ha, hp, ho, Blk.taken]

/-- COMMIT or ABORT of a program that refuses already ends it with the reason it took first. -/
theorem Blk.arrive_end_refused (hp : (b.ctlq k).prog = some p) {r : Nat × Nat} (hr : p.refused = some r) {o : COp}
    (ho : ciOp e = some o) (hend : o = .commit ∨ o = .abort) :
    b.arrive k o = ((b.taken k).closeProg k).refuseProg k p r.1 r.2 := by
  obtain rfl | rfl := hend <;> simp [Blk.arrive, Blk.handle, ha, hp, ho, hr, Blk.taken]

variable (hp : (b.ctlq k).prog = some p) (hr : p.refused = none)
  (hs : stageFaults ((b.taken k).stagedView p) p e ext rd = none)
include hp hr hs

theorem Blk.arrive_commit (ho : ciOp e = some .commit) : b.arrive k .commit = ((b.taken k).closeProg k).commitReq k p e := by
  unfold Blk.taken at hs ⊢
  simp [Blk.arrive, Blk.handle, ha, hp, ho, hr, hs]

theorem Blk.arrive_abort (ho : ciOp e = some .abort) : b.arrive k .abort = ((b.taken k).closeProg k).abortReq k p := by
  unfold Blk.taken at hs ⊢
  simp [Blk.arrive, Blk.handle, ha, hp, ho, hr, hs]

end Arrived

/-! Refusals. -/

theorem Blk.ctlq_ends (b : Blk) (k : CqKey) (e : Ended) :
    (b.ends k e).ctlq k = { b.ctlq k with ended := (b.ctlq k).ended ++ [e] } := Blk.ctlq_updCtlq _ _ _

theorem Blk.ctlq_noteRefusal (b : Blk) (k : CqKey) (reason : Nat) (idx : W16) (tag : Nat) :
    ((b.noteRefusal k reason idx tag).ctlq k).prog = (b.ctlq k).prog ∧
      ((b.noteRefusal k reason idx tag).ctlq k).ended = (b.ctlq k).ended := by
  unfold Blk.noteRefusal
  split
  · exact ⟨rfl, rfl⟩
  · simp

theorem Blk.noteRefusal_ctl (b : Blk) (k : CqKey) (reason : Nat) (idx : W16) (tag : Nat) :
    let c := b.noteRefusal k reason idx tag
    c.ctl.cfg = b.ctl.cfg ∧ c.ctl.newest = b.ctl.newest ∧ c.ctl.line = b.ctl.line := by
  unfold Blk.noteRefusal
  dsimp only
  split <;> exact ⟨rfl, rfl, rfl⟩

/-- What a refused program leaves: its completion is due, the configuration and the line stand (R33, R131). -/
theorem Blk.refuseProg_leaves (b : Blk) (k : CqKey) (p : Prog) (reason bad : Nat) (sums : List (Nat × List Byte)) :
    let c := b.refuseProg k p reason bad sums
    (c.ctlq k).prog = (b.ctlq k).prog ∧ (c.ctlq k).ended = (b.ctlq k).ended ++ [p.over 2 reason bad b.mono [] sums] ∧
      c.ctl.cfg = b.ctl.cfg ∧ c.ctl.newest = b.ctl.newest ∧ c.ctl.line = b.ctl.line := by
  obtain ⟨prog, ended⟩ := b.ctlq_noteRefusal k reason p.idx p.tag.toNat
  obtain ⟨cfg, newest, line⟩ := b.noteRefusal_ctl k reason p.idx p.tag.toNat
  unfold Blk.refuseProg
  refine ⟨?_, ?_, cfg, newest, line⟩
  · rw [Blk.ctlq_ends]
    exact prog
  · rw [Blk.ctlq_ends]
    exact congrArg (· ++ _) ended

/-! What a COMMIT does (R139). -/

/-- A program as its COMMIT puts it into the line (R29, R139). -/
def InLine.arriving (b : Blk) (k : CqKey) (p : Prog) (e : W512) : InLine :=
  { queue := k, prog := p, seq := ciSeq e, noWait := bitOf (ent e 16 1) 0, checked := false, since := b.mono,
    unreported := false }

/-- The block with a line of one. -/
def Blk.lined (b : Blk) (l : InLine) : Blk := { b with ctl := { b.ctl with line := [l] } }

/-- Alone in the line, a COMMIT is worked at once. -/
theorem Blk.commitReq_alone {b : Blk} (hl : b.ctl.line = []) (k : CqKey) (p : Prog) (e : W512) :
    b.commitReq k p e = ((b.lined (.arriving b k p e)).lineHead (.arriving b k p e)).2 := by
  simp only [Blk.commitReq, hl, List.isEmpty_nil, if_true, List.nil_append, Blk.runLine]
  split <;> rfl

/-- Behind others, it joins the line. -/
theorem Blk.commitReq_behind {b : Blk} (hl : b.ctl.line ≠ []) (k : CqKey) (p : Prog) (e : W512) :
    b.commitReq k p e = { b with ctl := { b.ctl with line := b.ctl.line ++ [.arriving b k p e] } } := by
  simp only [Blk.commitReq, List.isEmpty_iff, if_neg hl, InLine.arriving]

/-- A commit: what its instructions leave, the new epoch, meeting point 3, and the completion that is due. -/
theorem Blk.commitProg_eq (b : Blk) (l : InLine) (waited : Bool) : ∃ (c : Blk) (y : Ended),
    b.commitProg l waited = c.ends l.queue y ∧ y.outcome = 0 ∧ y.status = 0 ∧ y.epoch = b.ctl.newest + 1 ∧
    y.waited = waited ∧ y.tag = l.prog.tag ∧ y.idx = l.prog.idx ∧
    c.plane = (((Blk.applyAll (b.ctl.newest + 1) l.prog.issuer b [] l.prog.staged).announce (b.ctl.newest + 1)
      (b.keyHalf l.queue)).point3 l.prog.issuer).plane :=
  ⟨_, _, rfl, rfl, rfl, rfl, rfl, rfl, rfl, by simp⟩

theorem Blk.ctl_point3 (b : Blk) (i : Issuer) : (b.point3 i).ctl = b.ctl := by
  unfold Blk.point3
  split <;> rfl

/-! The line of commits is empty still after the instructions of a commit (R77). -/

theorem Blk.line_of_plane {b c : Blk} (h : c.plane = b.plane) : c.ctl.line = b.ctl.line := by rw [Blk.ctl_of_plane h]

theorem Blk.line_dropPrograms {b : Blk} (h : b.ctl.line = []) (k : CqKey) : (b.dropPrograms k).ctl.line = [] := by
  have noted : ∀ (l : List Prog) (b : Blk),
      (l.foldl (fun b p => b.noteRefusal k 0x0503 p.idx p.tag.toNat) b).ctl.line = b.ctl.line := by
    intro l
    induction l with
    | nil => exact fun _ => rfl
    | cons p l ih => exact fun b => (ih _).trans (b.noteRefusal_ctl k _ _ _).2.2
  unfold Blk.dropPrograms
  extract_lets c gone b1 b2
  have line : b2.ctl.line = [] := (noted _ b).trans h
  show (b2.ctl.line.filter _).map _ = []
  rw [line]
  rfl

theorem Blk.line_loseWork {b : Blk} (h : b.ctl.line = []) (i : Nat) : (b.loseWork i).ctl.line = [] := by
  unfold Blk.loseWork
  extract_lets qps b1 b2
  have line : b1.ctl.line = [] := (Blk.line_of_plane (by simp [b1])).trans h
  have dropped : b2.ctl.line = [] := Blk.line_dropPrograms line _
  exact dropped

theorem Blk.line_instForgotten (b : Blk) (i : Nat) : (b.instForgotten i).ctl.line = b.ctl.line := rfl

theorem Blk.line_instGone {b : Blk} (h : b.ctl.line = []) (i : Nat) : (b.instGone i).ctl.line = [] := by
  unfold Blk.instGone
  rw [Blk.line_instForgotten]
  exact Blk.line_loseWork ((Blk.line_of_plane (by simp)).trans h) i

theorem Blk.line_instDestroy (b : Blk) (i ep : Nat) : (b.instDestroy i ep).ctl.line = b.ctl.line := by
  unfold Blk.instDestroy
  extract_lets slots trigs b1 b2 b3
  have kept : b3.plane = b.plane := by simp [b3, b2, b1]
  show b3.ctl.line = _
  exact Blk.line_of_plane kept

theorem Blk.line_numberFree {b : Blk} (h : b.ctl.line = []) (o : Obj) : (b.numberFree o).ctl.line = [] := by
  unfold Blk.numberFree
  split
  · split
    · exact Blk.line_instGone h _
    · exact h
  · exact h

theorem Blk.line_objDestroy (b : Blk) (o : Obj) (ep : Nat) : (b.objDestroy o ep).ctl.line = b.ctl.line := by
  cases o with
  | inst i => exact b.line_instDestroy i ep
  | _ => exact Blk.line_of_plane (by simp [Blk.objDestroy])

/-- Instructions that neither create, destroy nor attach leave the control plane before their change of it. -/
theorem Blk.plane_before (b : Blk) (ep : Nat) (i : Issuer) (x : CInstr)
    (ho : ciOp x.raw ∉ [some .create, some .qCreate, some .destroy, some .qDestroy, some .instAttach]) :
    (b.before ep i x).plane = b.plane := by
  unfold Blk.before
  dsimp only
  repeat' split
  all_goals simp_all

theorem Blk.line_before {b : Blk} (h : b.ctl.line = []) (ep : Nat) (i : Issuer) (x : CInstr) :
    (b.before ep i x).ctl.line = [] := by
  by_cases ho : ciOp x.raw ∈ [some .create, some .qCreate, some .destroy, some .qDestroy, some .instAttach]
  · have made : ∀ o : Obj, ((b.numberFree o).objNew o x.raw).ctl.line = [] := fun o =>
      (Blk.line_of_plane (Blk.plane_objNew _ _ _)).trans (Blk.line_numberFree h o)
    have gone : ∀ o : Obj, (b.objDestroy o ep).ctl.line = [] := fun o => (b.line_objDestroy o ep).trans h
    have attached : ∀ n : Nat, (((b.genUp n).loseWork n).freshQueues n).ctl.line = [] := fun n =>
      (Blk.line_of_plane (Blk.plane_freshQueues _ _)).trans
        (Blk.line_loseWork ((Blk.line_of_plane (Blk.plane_genUp b n)).trans h) n)
    simp only [List.mem_cons, List.not_mem_nil, or_false] at ho
    unfold Blk.before
    obtain ho | ho | ho | ho | ho := ho <;> simp only [ho]
    · split
      · exact made _
      · exact h
    · split
      · exact made _
      · exact h
    · split
      · exact gone _
      · exact h
    · split
      · exact gone _
      · exact h
    · rw [Blk.line_of_plane (Blk.plane_updInst _ _ _)]
      exact attached _
  · exact (Blk.line_of_plane (b.plane_before ep i x ho)).trans h

theorem Blk.line_resetProgram {b : Blk} (h : b.ctl.line = []) (x : CInstr) : (b.resetProgram x).ctl.line = [] := by
  unfold Blk.resetProgram
  split
  · exact Blk.line_dropPrograms h _
  · exact h

theorem Blk.line_applyAll {ep : Nat} {i : Issuer} (l : List CInstr) {b : Blk} (prior : List CInstr) (h : b.ctl.line = []) :
    (Blk.applyAll ep i b prior l).ctl.line = [] := by
  induction l generalizing b prior with
  | nil => exact h
  | cons x l ih =>
    refine ih _ (Blk.line_resetProgram ?_ x)
    exact (Blk.line_of_plane (Blk.plane_after _ _ _)).trans (Blk.line_before h ep i x)

/-! The head of the line. -/

/-- A program that holds nothing passes the check phase where it may commit (R136). -/
theorem Blk.checkProg_empty {b : Blk} {k : CqKey} {p : Prog} (hs : p.staged = []) (he : b.boot.enable = true)
    (hi : b.issuerOf k = p.issuer) (hx : p.expect = none ∨ p.expect = some b.ctl.newest) (n : Nat) :
    b.checkProg k p n = none := by
  obtain hx | hx := hx <;> simp [Blk.checkProg, Blk.checkAll, loadings, hs, he, hi, hx]

theorem Blk.checkProg_disabled {b : Blk} (he : b.boot.enable = false) (k : CqKey) (p : Prog) (n : Nat) :
    b.checkProg k p n = some (0x0512, n) := if_pos (by simp [he])

theorem Blk.mustWait_empty {b : Blk} {p : Prog} (hs : p.staged = []) (hl : b.ctl.live.length < 4) : b.mustWait p = false := by
  simp [Blk.mustWait, Blk.keyWaits, hs, hl]

theorem Blk.sumSmall_empty {b : Blk} {p : Prog} (hs : p.staged = []) : b.sumSmall p = none := by
  simp [Blk.sumSmall, Prog.summaries, hs]

/-- The block with the head of its line gone. -/
def Blk.headGone (b : Blk) : Blk := { b with ctl := { b.ctl with line := b.ctl.line.tail } }

theorem Blk.lineHead_empty {b : Blk} {l : InLine} (hr : l.prog.refused = none) (hc : l.checked = false) (hs : l.prog.staged = [])
    (hk : b.checkProg l.queue l.prog l.seq = none) (hl : b.ctl.live.length < 4) :
    (b.lineHead l).2 = b.headGone.commitProg { l with sums := [] } false := by
  have waits := Blk.mustWait_empty (b := b) hs hl
  have same : b.setNext l.prog = b := by simp [Blk.setNext, hs]
  have sums : b.sumWrites l.queue l.prog false = [] := by simp [Blk.sumWrites, Prog.summaries, hs]
  have few : ¬ (l.noWait = true ∧ 4 ≤ b.ctl.live.length) := fun h => Nat.not_le.2 hl h.2
  have new : ¬ l.checked = true := ne_true_of_eq_false hc
  simp only [Blk.lineHead, hr, if_neg new, hk, Blk.sumSmall_empty hs, if_neg few, same, waits, sums, Bool.false_eq_true, if_false,
    Blk.headGone]

theorem Blk.lineHead_failed {b : Blk} {l : InLine} (hr : l.prog.refused = none) (hc : l.checked = false) {r : Nat × Nat}
    (hk : b.checkProg l.queue l.prog l.seq = some r) : b.lineHead l = (true, b.headGone.refuseProg l.queue l.prog r.1 r.2) := by
  simp [Blk.lineHead, hr, hc, hk, Blk.headGone]

theorem Blk.lineHead_ready {b : Blk} {l : InLine} (hr : l.prog.refused = none) (hc : l.checked = true)
    (hw : b.mustWait l.prog = false) : b.lineHead l = (true, b.headGone.commitProg l true) := by
  simp [Blk.lineHead, hr, hc, hw, Blk.headGone]

theorem Blk.lineHead_waits {b : Blk} {l : InLine} (hr : l.prog.refused = none) (hc : l.checked = true)
    (hw : b.mustWait l.prog = true) : b.lineHead l = (false, b) := by
  simp [Blk.lineHead, hr, hc, hw]

theorem Blk.lineHead_refused {b : Blk} {l : InLine} {r : Nat × Nat} (hr : l.prog.refused = some r) (hu : l.unreported = false) :
    b.lineHead l = (true, (b.headGone.dropNext l.prog).refuseProg l.queue l.prog r.1 r.2) := by
  simp [Blk.lineHead, hr, hu, Blk.headGone]

/-- A line of one whose head leaves it. -/
theorem Blk.proceed_one {b c : Blk} {w : InLine} (hl : b.ctl.line = [w]) (hh : b.lineHead w = (true, c)) : b.proceed = c := by
  simp [Blk.proceed, hl, Blk.runLine, hh]

theorem Blk.proceed_waits {b : Blk} {w : InLine} {ws : List InLine} (hl : b.ctl.line = w :: ws) (hh : b.lineHead w = (false, b)) :
    b.proceed = b := by
  simp [Blk.proceed, hl, Blk.runLine, hh]

theorem Blk.proceed_nil {b : Blk} (hl : b.ctl.line = []) : b.proceed = b := by
  simp [Blk.proceed, hl, Blk.runLine]

theorem bitOf_toNat {w : Nat} (x : BitVec w) (i : Nat) : bitOf x.toNat i = x.getLsbD i := by
  rw [BitVec.getLsbD, Nat.testBit_eq_decide_div_mod_eq]
  rfl

/-- A half that holds meeting point 2 takes meeting point 3 (R20). -/
theorem bitOf_point3 {x : BitVec 3} (h : bitOf x.toNat 1 = true) :
    bitOf (if x.getLsbD 1 then x ||| 4 else x).toNat 2 = true := by
  rw [bitOf_toNat] at h ⊢
  simp [h]

/-- After the owner's first commit both halves serve, and the part runs (R20). -/
theorem Blk.point3_owner {b : Blk} (hs : b.boot.state = 4) (hw : b.atPoint .west 2 = true) (he : b.atPoint .east 2 = true) :
    (b.point3 .owner).boot.state = 5 ∧ (b.point3 .owner).serving .west = true ∧ (b.point3 .owner).serving .east = true := by
  have awaits : Issuer.owner = .owner ∧ b.boot.awaits3 = true := ⟨rfl, by simp [Boot.awaits3, hs, bsEnabled]⟩
  unfold Blk.point3
  rw [if_pos awaits]
  exact ⟨if_pos hs, bitOf_point3 hw, bitOf_point3 he⟩

theorem Blk.point3_other {b : Blk} {i : Issuer} (hi : i ≠ .owner) : b.point3 i = b := if_neg (fun h => hi h.1)


/-! The entry that a CTL ring takes (R103, R113, R143). -/

theorem length_bytesLE (n v : Nat) : (bytesLE n v).length = n := by
  induction n generalizing v with
  | zero => rfl
  | succ n ih => simp [bytesLE, ih]

theorem natLE_lt (l : List Byte) : natLE l < 256 ^ l.length := by
  induction l with
  | nil => exact Nat.one_pos
  | cons b l ih =>
    have hb : b.toNat < 256 := b.isLt
    simp only [natLE, List.length_cons, Nat.pow_succ]
    omega

theorem bytesLE_natLE (l : List Byte) : bytesLE l.length (natLE l) = l := by
  induction l with
  | nil => rfl
  | cons b l ih =>
    have hb : b.toNat < 256 := b.isLt
    have rest : (b.toNat + 256 * natLE l) / 256 = natLE l := by omega
    have low : BitVec.ofNat 8 (b.toNat + 256 * natLE l) = b := BitVec.eq_of_toNat_eq (by simp; omega)
    simp only [natLE, List.length_cons, bytesLE, rest, low, ih]

/-- The 32 bytes of a completion, as its ring takes them. -/
theorem bytesLE_cpl {l : List Byte} (h : l.length = 32) : bytesLE 32 (BitVec.ofNat 256 (natLE l)).toNat = l := by
  have small : natLE l < 2 ^ 256 := by
    have lt := natLE_lt l
    rw [h] at lt
    exact lt
  rw [BitVec.toNat_ofNat, Nat.mod_eq_of_lt small, ← h]
  exact bytesLE_natLE l

/-- A change of a function leaves the port's CTL completion queue. -/
theorem Blk.ctlCq_updFn (b : Blk) (h : Nat) (f1 : Bool) (f : Fn → Fn) (j : Nat) :
    ((b.updFn h f1 f).port j).ctlCq = (b.port j).ctlCq := by
  unfold Blk.updFn
  by_cases hj : j = h
  · subst hj
    rw [Blk.port_updPort]
    split <;> rfl
  · rw [Blk.port_updPort_ne _ _ _ hj]

theorem Blk.evalIntx_keeps (b : Blk) (h : Nat) (f1 : Bool) :
    (∀ j, ((b.evalIntx h f1).port j).ctlCq = (b.port j).ctlCq) ∧ ∀ e ∈ b.out, e ∈ (b.evalIntx h f1).out := by
  unfold Blk.evalIntx
  extract_lets f st
  split
  · exact ⟨fun j => (congrArg HostPort.ctlCq (Blk.port_emit _ _ j)).trans (b.ctlCq_updFn h f1 _ j),
      fun e he => List.mem_cons_of_mem _ he⟩
  · exact ⟨fun _ => rfl, fun _ he => he⟩

theorem Blk.intxAll_keeps (b : Blk) :
    (∀ j, (b.intxAll.port j).ctlCq = (b.port j).ctlCq) ∧ ∀ e ∈ b.out, e ∈ b.intxAll.out := by
  unfold Blk.intxAll
  generalize List.range 16 = l
  induction l generalizing b with
  | nil => exact ⟨fun _ => rfl, fun _ he => he⟩
  | cons h l ih =>
    obtain ⟨port, out⟩ := b.evalIntx_keeps h true
    obtain ⟨ports, outs⟩ := ih (b.evalIntx h true)
    exact ⟨fun j => (ports j).trans (port j), fun e he => outs e (out e he)⟩

/-- With no increment due there is none to settle. -/
theorem Blk.settleIncs_nil {b : Blk} (h : b.rmt.incs = []) : b.settleIncs = b := by
  unfold Blk.settleIncs
  rw [Blk.applyIncs, h]

/-- The address at which a CTL ring takes its next entry (R103). -/
def Blk.ctlSlot (b : Blk) (h : Nat) : Nat :=
  (b.port h).ctlCqBase.toNat * 4096 + (b.port h).ctlCq.pi.toNat % 2 ^ (b.port h).ctlCqLog2.toNat * 32

/-- An entry written to a CTL ring leaves the queue with PI advanced, and the bytes sent (R103, R113). -/
structure Blk.EntryPut (b d : Blk) (h : Nat) (c : Cpl) (held : List HeldCpl) : Prop where
  cq : (d.port h).ctlCq = { (b.port h).ctlCq with pi := (b.port h).ctlCq.pi + 1, held := held }
  out : d.out = .bus h false (b.ctlSlot h) (bytesLE 32 c.toNat) :: b.out
  incs : d.rmt.incs = b.rmt.incs

/-- With no mirror and the queue not armed, the oldest held completion is written and PI advances, and that is all (R113). -/
theorem Blk.cqPut_ctl {b : Blk} {h : Nat} (hm : (b.port h).ctlMirrorEn = false) (ha : (b.port h).ctlCq.armed = false) (c : Cpl) :
    b.EntryPut (b.cqPut (.ctl h) { raw := c }) h c (b.port h).ctlCq.held.tail := by
  unfold Blk.cqPut
  extract_lets pi b1 b2 b3
  have port : b2.port h = { b.port h with ctlCq := { (b.port h).ctlCq with
      pi := (b.port h).ctlCq.pi + 1, held := (b.port h).ctlCq.held.tail } } :=
    (Blk.port_updPort b1 h _).trans (by simp [b1, Blk.cqWrite, ha])
  have mirror : b2.cqMirror (.ctl h) = b2 := by simp [Blk.cqMirror, port, hm]
  have notify : b2.cqNotify (.ctl h) = b2 := by simp [Blk.cqNotify, Blk.cqOf, port, ha]
  have same : b3 = b2 := by simp only [b3, mirror, notify]
  rw [same]
  exact ⟨congrArg HostPort.ctlCq port, rfl, List.append_nil _⟩

/-- The completion of a CTL queue that can write, whose ring has room and which holds none before it (R113, R115). -/
theorem Blk.complete_ctl {b : Blk} {h : Nat} (he : (b.port h).ctlCqEn = true) (hc : b.canIssue h false = true)
    (hm : (b.port h).ctlMirrorEn = false) (hh : (b.port h).ctlCq.held = []) (ha : (b.port h).ctlCq.armed = false)
    (hf : b.cqFull (.ctl h) = false) (c : Cpl) :
    b.EntryPut (b.complete (.ctl h) c) h c [] := by
  unfold Blk.complete
  extract_lets b1 b2
  have port : b1.port h = { b.port h with ctlCq := { (b.port h).ctlCq with held := [{ raw := c }] } } :=
    (Blk.port_updPort b h _).trans (by simp only [hh, List.nil_append])
  have full : b1.cqFull (.ctl h) = false := by
    rw [← hf]
    unfold Blk.cqFull Blk.cqOf Blk.cqSize
    simp only [port]
  have can : b1.cqCan (.ctl h) = true := by
    unfold Blk.canIssue Blk.fn at hc
    simpa [Blk.cqCan, Blk.canIssue, Blk.fn, port, he] using hc
  have slot : b1.ctlSlot h = b.ctlSlot h := by simp only [Blk.ctlSlot, port]
  obtain ⟨cq, out, incs⟩ := Blk.cqPut_ctl (b := b1) (h := h) (by rw [port]; exact hm) (by rw [port]; exact ha) c
  have put : b2 = b1.cqPut (.ctl h) { raw := c } := by
    simp only [b2, Blk.cqOf, port, List.length_singleton, Blk.cqDrain, full, can, Bool.not_true, Bool.or_self,
      Bool.false_eq_true, if_false]
  rw [← put] at cq out incs
  simp only [port, List.tail_cons] at cq
  have empty : (b2.cqOf (.ctl h)).held = [] := congrArg Cq.held cq
  simp only [empty, List.isEmpty_nil, Bool.not_true, Bool.false_and, Bool.false_eq_true, if_false]
  exact ⟨cq, out.trans (by rw [slot]; rfl), incs⟩


/-! The bytes of a completion (R143). -/

theorem length_raw (x : Ended) (count : Nat) (trunc : Bool) (epoch ms : Nat) :
    (bytesLE 2 x.status ++ bytesLE 1 x.outcome ++ bytesLE 1 (flag (decide (0 < count)) 0 + flag trunc 1 + flag x.waited 2) ++
      bytesLE 2 x.badIndex ++ bytesLE 2 x.idx.toNat ++ bytesLE 8 x.tag.toNat ++ bytesLE 8 epoch ++ bytesLE 4 x.waitUs ++
      bytesLE 2 count ++ bytesLE 2 ms).length = 32 := by
  simp only [List.length_append, length_bytesLE]

/-- A completion with no record. -/
theorem Ended.raw_bytes (x : Ended) (epoch ms : Nat) : bytesLE 32 (x.raw 0 false epoch ms).toNat =
    bytesLE 2 x.status ++ bytesLE 1 x.outcome ++ [if x.waited then 4 else 0] ++ bytesLE 2 x.badIndex ++ bytesLE 2 x.idx.toNat ++
      bytesLE 8 x.tag.toNat ++ bytesLE 8 epoch ++ bytesLE 4 x.waitUs ++ bytesLE 2 0 ++ bytesLE 2 ms := by
  have flags : bytesLE 1 (flag (decide (0 < 0)) 0 + flag false 1 + flag x.waited 2) = [if x.waited then 4 else 0] := by
    cases x.waited <;> rfl
  unfold Ended.raw
  rw [bytesLE_cpl (length_raw x 0 false epoch ms), flags]

/-! The clauses. -/

/-- BEGIN of a right form opens a program that holds nothing (R130). -/
theorem Blk.openProg_leaves (b : Blk) (k : CqKey) (idx : W16) (e : W512) (hs : ciSeq e = 0) (hf : formFaults e 0 = none)
    (ha : ent e 16 8 % 64 = 0) :
    ∃ n : Prog, ((b.taken k).openProg k idx e).ctlq k = { (b.taken k).ctlq k with prog := some n } ∧
      n.refused = none ∧ n.staged = [] ∧ n.issuer = b.issuerOf k ∧ n.idx = idx ∧ n.tag.toNat = ciTag e ∧
      n.beginEpoch = b.ctl.newest ∧ n.beginCfg = b.cfg := by
  have version : (ciVersion e == 1) = true := by
    unfold formFaults at hf
    rw [firstOf_chk] at hf
    by_contra hv
    rw [if_neg hv] at hf
    cases hf
  have address : opRanges (b.taken k) [] .begin_ e [] = none := if_pos (by simpa using ha)
  have none : firstOf [chk (ciVersion e == 1) 0x0123, chk (ciSeq e == 0) 0x0122, formFaults e 0,
      opRanges (b.taken k) [] .begin_ e []] = none := by
    rw [firstOf_chk, if_pos version, firstOf_chk, hs, hf, address]
    rfl
  have tag : ciTag e < 2 ^ 64 := Nat.mod_lt _ (by decide)
  refine ⟨_, Blk.ctlq_updCtlq _ _ _, congrArg (Option.map _) none, rfl, rfl, rfl, ?_, rfl, rfl⟩
  exact (BitVec.toNat_ofNat _ _).trans (Nat.mod_eq_of_lt tag)

/-- A program that ends without a commit: it is closed, its completion is due, and the configuration stands. -/
structure Blk.Ends (b d : Blk) (k : CqKey) (y : Ended) : Prop where
  prog : (d.ctlq k).prog = none
  ended : (d.ctlq k).ended = (b.ctlq k).ended ++ [y]
  cfg : d.ctl.cfg = b.ctl.cfg

theorem Blk.closed_taken (b : Blk) (k : CqKey) :
    ((b.taken k).closeProg k).ctlq k = { b.ctlq k with arrived := none, prog := none } := by
  simp [Blk.taken, Blk.closeProg]

/-- A program that is refused. -/
theorem Blk.ends_refuse {b d : Blk} {k : CqKey} (hd : (d.ctlq k).prog = none) (he : (d.ctlq k).ended = (b.ctlq k).ended)
    (hc : d.ctl.cfg = b.ctl.cfg) (p : Prog) (r bad : Nat) :
    b.Ends (d.refuseProg k p r bad) k (p.over 2 r bad d.mono [] []) := by
  obtain ⟨prog, ended, cfg, -, -⟩ := d.refuseProg_leaves k p r bad []
  exact ⟨prog.trans hd, by rw [ended, he], cfg.trans hc⟩

/-- A closed program that is refused. -/
theorem Blk.ends_refuse_closed (b : Blk) (k : CqKey) (p : Prog) (r bad : Nat) :
    b.Ends (((b.taken k).closeProg k).refuseProg k p r bad) k (p.over 2 r bad b.mono [] []) :=
  Blk.ends_refuse (b := b) (d := (b.taken k).closeProg k) (by rw [b.closed_taken k]) (by rw [b.closed_taken k]) rfl p r bad

/-- An ABORT of a program that holds nothing ends it. -/
theorem Blk.ends_abort (b : Blk) (k : CqKey) {p : Prog} (hs : p.staged = []) :
    ∃ y, b.Ends (((b.taken k).closeProg k).abortReq k p) k y ∧ y.outcome = 1 ∧ y.status = 0 ∧ y.badIndex = 0xFFFF ∧
      y.tag = p.tag := by
  have pure : p.mixed = none := by simp [Prog.mixed, Prog.summaries, hs]
  unfold Blk.abortReq
  rw [pure]
  dsimp only
  rw [Blk.sumSmall_empty hs]
  refine ⟨p.over 1 0 0xFFFF b.mono p.records (((b.taken k).closeProg k).sumWrites k p false), ⟨?_, ?_, rfl⟩,
    rfl, rfl, rfl, rfl⟩
  · rw [Blk.ctlq_ends, Blk.closed_taken]
  · rw [Blk.ctlq_ends, Blk.closed_taken]
    rfl

theorem Blk.ends_stalled {b : Blk} {k : CqKey} {p : Prog} (hp : (b.ctlq k).prog = some p) (ha : (b.ctlq k).arrived = none)
    (ht : p.lastFetch + 10000000000 ≤ b.mono) : ∃ bad, b.Ends (b.stalled k) k (p.over 2 0x0502 bad b.mono [] []) := by
  have closed : (b.closeProg k).ctlq k = { b.ctlq k with prog := none } := Blk.ctlq_updCtlq _ _ _
  obtain ⟨prog, ended, cfg⟩ := Blk.ends_refuse (b := b) (d := b.closeProg k) (k := k) (by rw [closed]) (by rw [closed]) rfl
    p 0x0502 (b.freeVal.toNat % 65536)
  have run : b.stalled k = (Blk.refuseProg (b.closeProg k) k p 0x0502 (b.freeVal.toNat % 65536)).drawn 1 := by
    simp only [Blk.stalled, hp, ha, if_neg (Nat.not_lt.2 ht)]
  exact ⟨_, by rw [run]; exact ⟨prog, ended, cfg⟩⟩

theorem Blk.stalled_none {b : Blk} {k : CqKey} {p : Prog} (h : (b.ctlq k).prog = none ∨ (b.ctlq k).arrived ≠ none ∨
    (b.ctlq k).prog = some p ∧ b.mono < p.lastFetch + 10000000000) : b.stalled k = b := by
  unfold Blk.stalled
  split
  next q hq ha =>
    obtain h | h | ⟨h, ht⟩ := h
    · rw [hq] at h
      cases h
    · exact absurd ha h
    · rw [hq] at h
      cases h
      exact if_pos ht
  next => rfl

theorem Blk.ctlq_of_plane {b c : Blk} (h : c.plane = b.plane) (k : CqKey) : c.ctlq k = b.ctlq k := by
  unfold Blk.ctlq
  rw [Blk.ctl_of_plane h]

/-- What a commit leaves of the control plane (R20, R139). -/
structure Blk.Committed (b d : Blk) (l : InLine) (waited : Bool) (y : Ended) : Prop where
  newest : d.ctl.newest = b.ctl.newest + 1
  outcome : y.outcome = 0
  status : y.status = 0
  epoch : y.epoch = b.ctl.newest + 1
  waited : y.waited = waited
  tag : y.tag = l.prog.tag
  idx : y.idx = l.prog.idx

theorem Blk.committed_commitProg (b : Blk) (l : InLine) (waited : Bool) : ∃ (c : Blk) (y : Ended),
    b.commitProg l waited = c.ends l.queue y ∧ b.Committed (c.ends l.queue y) l waited y ∧
      c.plane = (((Blk.applyAll (b.ctl.newest + 1) l.prog.issuer b [] l.prog.staged).announce (b.ctl.newest + 1)
      (b.keyHalf l.queue)).point3 l.prog.issuer).plane := by
  obtain ⟨c, y, run, outcome, status, epoch, hw, tag, idx, plane⟩ := b.commitProg_eq l waited
  have newest : c.ctl.newest = b.ctl.newest + 1 := by
    rw [Blk.ctl_of_plane plane, Blk.ctl_point3]
    rfl
  exact ⟨c, y, run, ⟨newest, outcome, status, epoch, hw, tag, idx⟩, plane⟩

/-- The head of a line of one leaves the line empty, as it was. -/
theorem Blk.headGone_lined {b : Blk} (hl : b.ctl.line = []) (l : InLine) : (b.lined l).headGone = b := by
  have back : ({ b.ctl with line := [] } : Ctl) = b.ctl := by rw [← hl]
  exact congrArg (fun c : Ctl => { b with ctl := c }) back

/-- What a COMMIT of an empty program leaves of its queue and of start-up (R20, R130, R139). -/
structure Blk.CommittedEmpty (b d : Blk) (k : CqKey) (p : Prog) (y : Ended) : Prop where
  cfg : d.ctl.cfg = b.ctl.cfg
  queue : d.ctlq k = { b.ctlq k with ended := (b.ctlq k).ended ++ [y] }
  boot : d.boot = (b.point3 p.issuer).boot

theorem Blk.boot_point3_of_boot {b c : Blk} (h : c.boot = b.boot) (i : Issuer) : (c.point3 i).boot = (b.point3 i).boot := by
  unfold Blk.point3
  rw [h]
  split <;> simp [Blk.setBoot, h]

theorem Blk.ctlq_point3 (b : Blk) (i : Issuer) (k : CqKey) : (b.point3 i).ctlq k = b.ctlq k := by
  unfold Blk.ctlq
  rw [Blk.ctl_point3]

/-- The COMMIT of an empty program. -/
theorem Blk.commit_empty {b : Blk} {k : CqKey} {p : Prog} {e : W512} (hr : p.refused = none) (hs : p.staged = [])
    (he : b.boot.enable = true) (hi : b.issuerOf k = p.issuer) (hx : p.expect = none ∨ p.expect = some b.ctl.newest)
    (hl : b.ctl.line = []) (h4 : b.ctl.live.length < 4) :
    ∃ y, b.Committed (b.commitReq k p e) (.arriving b k p e) false y ∧ b.CommittedEmpty (b.commitReq k p e) k p y := by
  have passes : (b.lined (.arriving b k p e)).checkProg k p (ciSeq e) = none :=
    Blk.checkProg_empty (b := b.lined (.arriving b k p e)) hs he hi hx _
  have run := (Blk.commitReq_alone hl k p e).trans (Blk.lineHead_empty (l := .arriving b k p e) hr rfl hs passes h4)
  rw [Blk.headGone_lined hl] at run
  obtain ⟨c, y, ends, ⟨newest, outcome, status, epoch, waited, tag, idx⟩, plane⟩ :=
    b.committed_commitProg { InLine.arriving b k p e with sums := [] } false
  replace run := run.trans ends
  rw [show ({ InLine.arriving b k p e with sums := [] } : InLine).prog.staged = [] from hs] at plane
  rw [run]
  refine ⟨y, ⟨newest, outcome, status, epoch, waited, tag, idx⟩, ?_, ?_, ?_⟩
  · show c.ctl.cfg = _
    rw [Blk.ctl_of_plane plane, Blk.ctl_point3]
    rfl
  · have queue : c.ctlq k = b.ctlq k := (Blk.ctlq_of_plane plane k).trans (Blk.ctlq_point3 _ _ k)
    exact (Blk.ctlq_ends c k y).trans (by rw [queue])
  · show c.boot = _
    rw [Blk.boot_of_plane plane]
    exact Blk.boot_point3_of_boot (b := b) (c := b.announce (b.ctl.newest + 1) (b.keyHalf k)) rfl p.issuer

/-- The COMMIT of an empty program before BOOT_ENABLE is refused (R136). -/
theorem Blk.commit_disabled {b : Blk} {k : CqKey} {p : Prog} {e : W512} (hr : p.refused = none)
    (he : b.boot.enable = false) (hl : b.ctl.line = []) : b.commitReq k p e = b.refuseProg k p 0x0512 (ciSeq e) := by
  have fails : (b.lined (.arriving b k p e)).checkProg k p (ciSeq e) = some (0x0512, ciSeq e) :=
    Blk.checkProg_disabled (b := b.lined (.arriving b k p e)) he k p _
  rw [Blk.commitReq_alone hl k p e, Blk.lineHead_failed hr rfl fails, Blk.headGone_lined hl]
  rfl

/-! The head of the line commits, or is refused (R29, R32). -/

/-- A commit of a program that waited, alone in the line. -/
theorem Blk.proceed_commits {b : Blk} {w : InLine} (hl : b.ctl.line = [w]) (hr : w.prog.refused = none) (hc : w.checked = true)
    (hw : b.mustWait w.prog = false) :
    ∃ y, b.Committed b.proceed w true y ∧ b.proceed.ctl.line = [] ∧ y ∈ (b.proceed.ctlq w.queue).ended := by
  have run := Blk.proceed_one hl (Blk.lineHead_ready hr hc hw)
  obtain ⟨c, y, ends, ⟨newest, outcome, status, epoch, waited, tag, idx⟩, plane⟩ := b.headGone.committed_commitProg w true
  rw [run, ends]
  have line : b.headGone.ctl.line = [] := congrArg List.tail hl
  refine ⟨y, ⟨newest, outcome, status, epoch, waited, tag, idx⟩, ?_, ?_⟩
  · show c.ctl.line = []
    rw [Blk.ctl_of_plane plane, Blk.ctl_point3]
    exact Blk.line_applyAll _ _ line
  · rw [Blk.ctlq_ends]
    exact List.mem_append_right _ (List.mem_singleton_self y)

/-- A refusal of a program that waited, alone in the line. -/
theorem Blk.proceed_refuses {b : Blk} {w : InLine} {r : Nat × Nat} (hl : b.ctl.line = [w]) (hr : w.prog.refused = some r)
    (hu : w.unreported = false) : b.proceed.ctl.newest = b.ctl.newest ∧ b.proceed.ctl.line = [] ∧
      ∃ mono, w.prog.over 2 r.1 r.2 mono [] [] ∈ (b.proceed.ctlq w.queue).ended := by
  have run := Blk.proceed_one hl (Blk.lineHead_refused hr hu)
  obtain ⟨-, ended, -, newest, line⟩ := (b.headGone.dropNext w.prog).refuseProg_leaves w.queue w.prog r.1 r.2 []
  have ctl := Blk.ctl_of_plane (b.headGone.plane_dropNext w.prog)
  rw [run]
  refine ⟨newest.trans ?_, line.trans ?_, (b.headGone.dropNext w.prog).mono, ?_⟩
  · rw [ctl]
    rfl
  · rw [ctl]
    exact congrArg List.tail hl
  · rw [ended]
    exact List.mem_append_right _ (List.mem_singleton_self _)


/-! The completion of an ended program (R126, R139, R143). -/

theorem Blk.progComplete_held {b : Blk} {k : CqKey} {x : Ended} {r : List Ended} (he : (b.ctlq k).ended = x :: r)
    (h : b.endReady x = false ∨ b.ctlWrites k x = false) (res sum : Ans) : b.progComplete k res sum = b := by
  unfold Blk.progComplete
  rw [he]
  exact if_pos (h.imp ne_true_of_eq_false ne_true_of_eq_false)

/-- The block with the oldest ended program taken off its queue. -/
def Blk.endTaken (b : Blk) (k : CqKey) (r : List Ended) : Blk := b.updCtlq k (fun c => { c with ended := r })

theorem Blk.progComplete_run {b : Blk} {k : CqKey} {x : Ended} {r : List Ended} (he : (b.ctlq k).ended = x :: r)
    (hr : b.endReady x = true) (hw : b.ctlWrites k x = true) (hd : x.drains = []) (res sum : Ans) :
    b.progComplete k res sum =
      if x.unreported then (b.endTaken k r).errRec 4 x.status x.idx.toNat (if k < 16 then k else 0xFFFF) x.epoch x.tag.toNat
      else
        let w := ((b.endTaken k r).writeSums k (b.noteEnded x) sum).writeRecords k (b.noteEnded x) res
        (w.1.complete (w.1.wqCq (queueOf k)) ((b.noteEnded x).raw w.2.1 w.2.2 (if x.outcome = 0 then x.epoch else b.ctl.newest)
          ((b.noteEnded x).drainMs b.mono))).settleIncs.intxAll := by
  have goes : ¬ (¬ b.endReady x ∨ ¬ b.ctlWrites k x) := by simp [hr, hw]
  unfold Blk.progComplete
  rw [he]
  dsimp only
  rw [if_neg goes, hd]
  rfl

/-- It leaves the queue the programs behind it. -/
theorem Blk.progComplete_ended {b : Blk} {k : CqKey} {x : Ended} {r : List Ended} (he : (b.ctlq k).ended = x :: r)
    (hr : b.endReady x = true) (hw : b.ctlWrites k x = true) (hd : x.drains = []) (res sum : Ans) :
    ((b.progComplete k res sum).ctlq k).ended = r := by
  have taken : ((b.endTaken k r).ctlq k).ended = r := by simp [Blk.endTaken]
  rw [Blk.progComplete_run he hr hw hd, Blk.ctlq_of_plane (b := b.endTaken k r) ?_, taken]
  split <;> simp

/-- A completion with nothing beside it, on a CTL queue that takes it at once. -/
theorem Blk.progComplete_ctl {b : Blk} {h : Nat} (h16 : h < 16) {x : Ended} {r : List Ended} (he : (b.ctlq h).ended = x :: r)
    (hr : b.endReady x = true) (hu : x.unreported = false) (hrec : x.records = []) (hsum : x.sums = []) (hd : x.drains = [])
    (hen : (b.port h).ctlCqEn = true) (hc : b.canIssue h false = true) (hm : (b.port h).ctlMirrorEn = false)
    (hh : (b.port h).ctlCq.held = []) (ha : (b.port h).ctlCq.armed = false) (hf : b.cqFull (.ctl h) = false)
    (hi : b.rmt.incs = []) (res sum : Ans) :
    let d := b.progComplete h res sum
    (d.port h).ctlCq = { (b.port h).ctlCq with pi := (b.port h).ctlCq.pi + 1 } ∧
      .bus h false (b.ctlSlot h) (bytesLE 32 ((b.noteEnded x).raw 0 false (if x.outcome = 0 then x.epoch else b.ctl.newest)
        ((b.noteEnded x).drainMs b.mono)).toNat) ∈ d.out := by
  have writes : b.ctlWrites h x = true := by simp [Blk.ctlWrites, hrec, hsum]
  have sums : (b.endTaken h r).writeSums h (b.noteEnded x) sum = b.endTaken h r := by simp [Blk.writeSums, Blk.noteEnded, hsum]
  have records : (b.endTaken h r).writeRecords h (b.noteEnded x) res = (b.endTaken h r, 0, false) := by
    simp [Blk.writeRecords, Blk.noteEnded, hrec]
  have queue : (b.endTaken h r).wqCq (queueOf h) = .ctl h := by simp [queueOf, wqRefOf, h16, Blk.wqCq]
  intro d
  have run : d = _ := Blk.progComplete_run he hr writes hd res sum
  simp only [hu, Bool.false_eq_true, if_false, sums, records, queue] at run
  rw [run]
  generalize (b.noteEnded x).raw 0 false _ _ = c
  obtain ⟨cq, out, incs⟩ := Blk.complete_ctl (b := b.endTaken h r) hen hc hm hh ha hf c
  obtain ⟨ports, outs⟩ := ((b.endTaken h r).complete (.ctl h) c).intxAll_keeps
  rw [Blk.settleIncs_nil (incs.trans hi)]
  refine ⟨(ports h).trans (cq.trans ?_), outs _ ?_⟩
  · rw [← hh]
    rfl
  · rw [out]
    exact List.mem_cons_self

/-- A part whose halves hold the same meeting points serves the same. -/
theorem Blk.serving_of_boot {b c : Blk} (h : c.boot = b.boot) (s : Half) : c.serving s = b.serving s := by
  cases s <;> simp [Blk.serving, Blk.atPoint, Blk.mp, h]


/-- An instruction with no program open ends by itself, refused (R131). -/
theorem Blk.outside_ended {b : Blk} {k : CqKey} {idx : W16} {e : W512} {ext : List Byte} {rd : Nat}
    (ha : (b.ctlq k).arrived = some (idx, e, ext, rd)) (hp : (b.ctlq k).prog = none) (ho : ciOp e ≠ some .begin_) :
    ∃ y, ((b.outside k).ctlq k).ended = (b.ctlq k).ended ++ [y] ∧ y.outcome = 2 ∧ y.status = 0x0120 ∧ y.idx = idx := by
  have taken : (b.taken k).ctlq k = { b.ctlq k with arrived := none } := Blk.ctlq_updCtlq _ _ _
  have queue := Blk.ctlq_ends (b.taken k) k
  rw [taken] at queue
  rw [Blk.outside_stray ha hp ho]
  exact ⟨_, congrArg CtlState.ended (queue _), rfl, rfl, rfl⟩

/-- Settles O27: the queue's rule for each clause (a COMMIT of an empty program is worked at once; the head of a line of one
leaves it empty), and the ring entry's bytes for the last. -/
theorem programEnds : Obligations.ProgramEnds := by
  unfold Obligations.ProgramEnds
  intro s q h idx e ext rd p x r res sum code bad w ws b k v ends
  have ended : ∀ {c : Instr} {d : Blk} {y : Ended}, exec c s = .next { s with blk := d } → b.Ends d k y → ends c y :=
    fun run y => ⟨_, run, y.prog, y.ended, y.cfg⟩
  refine ⟨fun ha => ⟨fun hp ho hseq hf h64 => ?_, fun hp ho => ?_, fun hp hr hs hst => ⟨fun ho hen hi hx hl h4 hin => ?_,
      fun ho hen hl => ?_, fun ho => ?_⟩, fun hp hr => ⟨fun ho => ?_, fun ho => ?_⟩⟩, fun hp ha ht => ?_, fun h => ?_,
    fun ha hp hr ho hst hl => ?_, fun hl => ?_, fun hl hc hr hw => ?_, fun hl hr hc hw => ?_, fun hl hr hu => ?_, fun he => ?_,
    fun he => ⟨fun hn => ?_, fun hr hw => ⟨_, exec_programComplete s q res sum, fun hd => ?_⟩⟩, ?_⟩
  · obtain ⟨n, queue, refused, staged, issuer, hidx, tag, epoch, cfg⟩ := b.openProg_leaves k idx e hseq hf h64
    refine ⟨_, n, exec_begin s q, ?_⟩
    rw [Blk.arrive_begin ha hp ho]
    exact ⟨by rw [queue], refused, staged, issuer, hidx, tag, epoch, cfg, rfl⟩
  · obtain ⟨y, queue, outcome, status, hidx⟩ := Blk.outside_ended ha hp ho
    exact ⟨_, y, exec_instructionOutsideProgram s q, queue, outcome, status, hidx⟩
  · obtain ⟨y, committed, cfg, queue, boot⟩ :=
      Blk.commit_empty (b := (b.taken k).closeProg k) (k := k) (e := e) hr hs hen hi hx hl h4
    rw [← Blk.arrive_commit ha hp hr hst ho] at committed cfg queue boot
    rw [b.closed_taken k] at queue
    refine ⟨_, y, exec_commit s q, committed.newest, cfg, congrArg CtlState.prog queue, congrArg CtlState.ended queue,
      committed.outcome, committed.status, committed.epoch, committed.tag, committed.idx, ?_, ?_⟩
    · intro howner hstate west east
      obtain ⟨state, servesWest, servesEast⟩ := Blk.point3_owner (b := (b.taken k).closeProg k) hstate west east
      rw [howner] at boot
      exact ⟨(congrArg Boot.state boot).trans state, (Blk.serving_of_boot boot _).trans servesWest,
        (Blk.serving_of_boot boot _).trans servesEast⟩
    · intro hother
      rw [Blk.point3_other hother] at boot
      exact boot
  · have run := (Blk.arrive_commit ha hp hr hst ho).trans (Blk.commit_disabled hr hen hl)
    exact ⟨_, ended (exec_commit s q) (run ▸ b.ends_refuse_closed k p _ _), rfl, rfl, rfl⟩
  · obtain ⟨y, hy, outcome, status, hbad, tag⟩ := b.ends_abort k hs
    rw [← Blk.arrive_abort ha hp hr hst ho] at hy
    exact ⟨y, ended (exec_abort s q) hy, outcome, status, hbad, tag⟩
  · have run := Blk.arrive_end_refused ha hp hr ho (.inl rfl)
    exact ⟨_, ended (exec_commit s q) (run ▸ b.ends_refuse_closed k p _ _), rfl, rfl, rfl, rfl⟩
  · have run := Blk.arrive_end_refused ha hp hr ho (.inr rfl)
    exact ⟨_, ended (exec_abort s q) (run ▸ b.ends_refuse_closed k p _ _), rfl, rfl, rfl, rfl⟩
  · obtain ⟨_, hy⟩ := Blk.ends_stalled hp ha ht
    exact ⟨_, ended (exec_programStalled s q) hy, rfl, rfl, rfl⟩
  · have same : b.stalled k = b := Blk.stalled_none h
    exact (exec_programStalled s q).trans (by rw [same])
  · have run := (Blk.arrive_commit ha hp hr hst ho).trans (Blk.commitReq_behind (b := (b.taken k).closeProg k) hl k p e)
    refine ⟨_, .arriving b k p e, exec_commit s q, ?_⟩
    rw [run]
    exact ⟨rfl, rfl, rfl, rfl, rfl⟩
  · have same : b.proceed = b := Blk.proceed_nil hl
    exact (exec_commitProceed s).trans (by rw [same])
  · have same : b.proceed = b := Blk.proceed_waits hl (Blk.lineHead_waits hr hc hw)
    exact (exec_commitProceed s).trans (by rw [same])
  · obtain ⟨y, committed, line, queue⟩ := Blk.proceed_commits hl hr hc hw
    exact ⟨_, exec_commitProceed s, committed.newest, line, y, queue, committed.outcome, committed.epoch, committed.waited,
      committed.tag⟩
  · obtain ⟨newest, line, _, queue⟩ := Blk.proceed_refuses hl hr hu
    exact ⟨_, exec_commitProceed s, newest, line, _, queue, rfl, rfl, rfl, rfl⟩
  · have same : b.progComplete k res sum = b := by
      unfold Blk.progComplete
      rw [he]
    exact (exec_programComplete s q res sum).trans (by rw [same])
  · have same : b.progComplete k res sum = b := Blk.progComplete_held he hn res sum
    exact (exec_programComplete s q res sum).trans (by rw [same])
  · exact Blk.progComplete_ended he hr hw hd res sum
  · rintro rfl he hr hu hrec hsum hd hen hc hm hh ha hf hi
    have writes : b.ctlWrites k x = true := by simp [Blk.ctlWrites, hrec, hsum]
    obtain ⟨cq, out⟩ := Blk.progComplete_ctl h.isLt he hr hu hrec hsum hd hen hc hm hh ha hf hi res sum
    exact ⟨_, _, exec_programComplete s _ res sum, Blk.progComplete_ended he hr writes hd res sum, cq, out,
      Ended.raw_bytes _ _ _⟩

end Sys2Proof.Machine
end

section
/-! SUPPORT. Start-up over the resets: a detached port, a half that is reset, the device (R20, R22 to R24, R98). -/

namespace Sys2Proof.Machine
open Sys2Proof

theorem Blk.boot_foldl {α : Type} {f : Blk → α → Blk} (h : ∀ b x, (f b x).boot = b.boot) (l : List α) (b : Blk) :
    (l.foldl f b).boot = b.boot := by
  induction l generalizing b with
  | nil => rfl
  | cons x l ih => exact (ih _).trans (h b x)

/-! What a control queue and an inst lose (R24, R77). -/

@[simp] theorem Blk.boot_noteRefusal (b : Blk) (k : CqKey) (reason : Nat) (idx : W16) (tag : Nat) :
    (b.noteRefusal k reason idx tag).boot = b.boot := by
  unfold Blk.noteRefusal
  split <;> rfl

@[simp] theorem Blk.boot_dropPrograms (b : Blk) (k : CqKey) : (b.dropPrograms k).boot = b.boot :=
  Blk.boot_foldl (fun _ _ => Blk.boot_noteRefusal _ _ _ _ _) _ b

@[simp] theorem Blk.boot_loseWork (b : Blk) (i : Nat) : (b.loseWork i).boot = b.boot := by
  unfold Blk.loseWork
  extract_lets qps b1 b2
  have kept : b1.boot = b.boot := Blk.boot_of_plane (by simp [b1])
  have dropped : b2.boot = b.boot := (b1.boot_dropPrograms _).trans kept
  clear_value b2
  exact dropped

@[simp] theorem Blk.boot_detachKeep (b : Blk) (i : Nat) : (b.detachKeep i).boot = b.boot :=
  (Blk.boot_of_plane (Blk.plane_evalIntx _ _ _)).trans (Blk.boot_loseWork _ _)

@[simp] theorem Blk.boot_detach (b : Blk) (i : Nat) : (b.detach i).boot = b.boot :=
  (Blk.boot_detachKeep _ _).trans (Blk.boot_of_plane (b.plane_genUp i))

@[simp] theorem Blk.boot_detachPort (b : Blk) (h : Nat) : (b.detachPort h).boot = b.boot := Blk.boot_foldl Blk.boot_detach _ b

@[simp] theorem Blk.boot_linkLost (b : Blk) (h : Nat) : (b.linkLost h).boot = b.boot := by
  unfold Blk.linkLost
  extract_lets b1
  exact (Blk.boot_of_plane (Blk.plane_dmaLinkLost _ _)).trans (b.boot_detachPort h)

@[simp] theorem Blk.boot_reel (b : Blk) (type origin : Nat) (fields : List Nat) : (b.reel type origin fields).boot = b.boot :=
  Blk.boot_of_plane (b.plane_reel type origin fields)

@[simp] theorem Blk.boot_devEvent (b : Blk) (type index reason value detail : Nat) :
    (b.devEvent type index reason value detail).boot = b.boot :=
  Blk.boot_of_plane (b.plane_devEvent type index reason value detail)

@[simp] theorem Blk.boot_removal (b : Blk) (h : Nat) : (b.removal h).boot = b.boot := by
  unfold Blk.removal
  extract_lets b1 b2
  have event : b2.boot = b.boot := by
    simp only [b2]
    split
    · exact b.boot_linkLost h
    · rw [Blk.boot_devEvent]
      exact b.boot_linkLost h
  clear_value b2
  split
  · rw [Blk.boot_reel]
    exact event
  · rfl

@[simp] theorem Blk.boot_losePort (b : Blk) (h : PortId) : (b.losePort h).boot = b.boot := by
  unfold Blk.losePort
  extract_lets b1 b2
  have kept : b2.boot = b.boot := by simp [b2, b1]
  clear_value b2
  refine Eq.trans (Blk.boot_of_plane ?_) kept
  simp

@[simp] theorem Blk.boot_loseInsts (b : Blk) (h : Half) : (b.loseInsts h).boot = b.boot := by
  unfold Blk.loseInsts
  extract_lets mine insts b1
  exact Blk.boot_foldl (f := Blk.instForgotten) (fun _ _ => rfl) _ b1

@[simp] theorem Blk.boot_dropBound (b : Blk) (h : Half) : (b.dropBound h).boot = b.boot := by
  unfold Blk.dropBound
  extract_lets gone hog b1
  exact Blk.boot_of_plane ((Blk.plane_pfcSettle _).trans (Blk.plane_foldl (fun _ _ => Blk.plane_dropDown _ _ _) _ b1))

@[simp] theorem Blk.plane_clearHalfMem (b : Blk) (h : Half) : (b.clearHalfMem h).plane = b.plane := by
  simp [Blk.clearHalfMem, Blk.zeroRange]

/-- A reset of one half withdraws its meeting points and nothing else of start-up (R23). -/
theorem Blk.boot_halfReset (b : Blk) (h : Half) : (b.halfReset h).boot = b.boot.withdraw h := by
  unfold Blk.halfReset
  extract_lets ports lanes b1 gone b2 b3 b4 ctl keys b5
  have bound : b1.boot = b.boot.withdraw h := Blk.boot_dropBound _ _
  have settled : b2.boot = b1.boot := Blk.boot_of_plane (by simp [b2])
  have ports : b3.boot = b2.boot := Blk.boot_foldl Blk.boot_losePort _ b2
  have cleared : b4.boot = (b3.loseInsts h).boot := Blk.boot_of_plane (by simp [b4])
  have launched : (gone.foldl (fun b p => b.endLaunch p 0) b5).boot = b5.boot := Blk.boot_of_plane (by simp)
  clear_value b4
  have kept : b5.boot = b4.boot := rfl
  rw [launched, kept, cleared, Blk.boot_loseInsts, ports, settled, bound]

/-! The reset of the device (R22, R98). -/

/-- A reset of the device withdraws the points of both halves. -/
theorem Blk.mp_deviceReset (b : Blk) (newDownload jig : Bool) (h : Half) : (b.deviceReset newDownload jig).mp h = 0 := by
  unfold Blk.deviceReset
  extract_lets b1
  have boot : b1.boot = (b.withdrawAll b.mss.powered).boot := Blk.boot_of_plane (by simp [b1])
  have west : b1.boot.mpWest = 0 := by rw [boot]; rfl
  have east : b1.boot.mpEast = 0 := by rw [boot]; rfl
  repeat' split
  all_goals cases h <;> simp [Blk.mp, Blk.setBoot, west, east]

/-! The reset of one half (R22, R23, R98). -/

theorem Blk.resetHalf_held {b : Blk} {h : Half} (ha : b.boot.state = bsActivating) :
    b.resetHalf h = b.setBoot (fun o => { o with heldReset := o.heldReset ++ [h.code] }) := if_pos ha

theorem Blk.resetHalf_device {b : Blk} {h : Half} (ha : b.boot.state ≠ bsActivating) (ho : b.mp h.other = 0) :
    b.resetHalf h = b.deviceReset false false := by
  unfold Blk.resetHalf
  rw [if_neg ha, if_pos ho]

theorem Blk.resetHalf_down {b : Blk} {h : Half} (ha : b.boot.state ≠ bsActivating) (ho : b.mp h.other ≠ 0) (hm : b.mp h = 0) :
    b.resetHalf h = b := by
  unfold Blk.resetHalf
  rw [if_neg ha, if_neg ho, if_pos hm]

theorem Blk.resetHalf_up {b : Blk} {h : Half} (ha : b.boot.state ≠ bsActivating) (ho : b.mp h.other ≠ 0) (hm : b.mp h ≠ 0) :
    b.resetHalf h = b.halfReset h := by
  unfold Blk.resetHalf
  rw [if_neg ha, if_neg ho, if_neg hm]

end Sys2Proof.Machine
end

section
/-! SUPPORT. The proof of the statement on units under fault (R19, R30, R360, R481, R483 to R486, R491). -/

namespace Sys2Proof.Machine
open Sys2Proof

theorem exec_pipeLaneFault (s : State) (p : PipeId) (k : Fin 4) (ns : W32) :
    exec (.pipeLaneFault p k ns) s = .next { s with blk := s.blk.laneFault p.val k.val ns.toNat } := rfl
theorem exec_laneSelftestDone (s : State) (p : PipeId) (k : Fin 4) (ok : Bool) :
    exec (.laneSelftestDone p k ok) s = .next { s with blk := s.blk.laneTested p.val k.val ok } := rfl
theorem exec_tableBankFault (s : State) (p : PipeId) (tern : Bool) (bank : Fin 32) (ns : W32) :
    exec (.tableBankFault p tern bank ns) s = .next { s with blk := s.blk.bankFault p.val tern bank.val ns.toNat } := rfl
theorem exec_bankRebuildDone (s : State) (p : PipeId) (tern : Bool) (ns : W32) :
    exec (.bankRebuildDone p tern ns) s = .next { s with blk := s.blk.bankRebuilt p.val tern ns.toNat } := rfl
theorem exec_hogsheadBankFault (s : State) (h : Half) (bank : Fin 48) (ns : W32) :
    exec (.hogsheadBankFault h bank ns) s =
      .next { s with blk := (s.blk.errUncorr 8 h).hogBankOut h bank.val false ns.toNat } := rfl
theorem exec_cipherInlineFault (s : State) (p : PipeId) (u : Fin 32) (ns : W32) :
    exec (.cipherInlineFault p u ns) s = .next { s with blk := s.blk.inlineFault p.val u.val ns.toNat } := rfl
theorem exec_lookasideUnitFault (s : State) (u : UnitId) (ns : W32) :
    exec (.lookasideUnitFault u ns) s = .next { s with blk := s.blk.lookasideFault u.val ns.toNat } := rfl
theorem exec_bridgeLaneFault (s : State) (e : Bool) (n : Fin 168) :
    exec (.bridgeLaneFault e n) s = .next { s with blk := s.blk.bridgeFault e n.val } := rfl
theorem exec_bridgeRetrainDone (s : State) (e : Bool) (ns : W32) :
    exec (.bridgeRetrainDone e ns) s = .next { s with blk := s.blk.bridgeTrained e ns.toNat } := rfl
theorem exec_powerPhaseLoss (s : State) (h : Half) (rail : Fin 16) (ph : Fin 64) (ns : W32) :
    exec (.powerPhaseLoss h rail ph ns) s = .next { s with blk := s.blk.phaseLoss h rail.val ph.val ns.toNat } := rfl
theorem exec_halfFatalFault (s : State) (h : Half) (rail : Bool) (ns : W32) :
    exec (.halfFatalFault h rail ns) s = .next { s with blk := s.blk.halfFatal h (if rail then 0x13 else 6) ns.toNat } := rfl

/-! A fault is counted once (R490). -/

/-- The fault of a structure in a half is counted. -/
def Blk.Counts (b c : Blk) (z : Nat) (g : Half) : Prop :=
  c.rel.uncorr.get 0 (errKey z g) = sat64 (b.rel.uncorr.get 0 (errKey z g)) 1

theorem Blk.counts_errUncorr {b c : Blk} (h : c.rel.uncorr = b.rel.uncorr) (z : Nat) (g : Half) :
    b.Counts (c.errUncorr z g) z g := by
  unfold Blk.Counts
  rw [← h]
  exact Tab.get_upd_same 0 c.rel.uncorr (errKey z g) (fun n => sat64 n 1)

theorem Blk.Counts.of_uncorr {b c d : Blk} {z : Nat} {g : Half} (h : b.Counts c z g) (hd : d.rel.uncorr = c.rel.uncorr) :
    b.Counts d z g := by
  unfold Blk.Counts
  rw [hd]
  exact h

/-! Pipeline lanes (R30, R483). -/

/-- A pipeline after a replay of its lane: each packet at work as it stood, or anew from its ingress copy (R30). -/
structure Pipe.Replayed (x y : Pipe) : Prop where
  rest : y = { x with waits := y.waits, counts := y.counts }
  length : y.waits.length = x.waits.length
  each : ∀ (j : Nat) (v : HbmWait), x.waits[j]? = some v → y.waits[j]? = some v ∨
    y.waits[j]? = some { v with pkt := v.start, stage := if v.port.isSome then 20 else 0, preds := [] }

theorem Blk.replayed_laneReplay (b : Blk) (p : Nat) : (b.pipe p).Replayed ((b.laneReplay p).pipe p) := by
  unfold Blk.laneReplay
  extract_lets ws hit
  simp only [Blk.pipeCnt, Blk.pipe_updPipe, Blk.pipe_drawn]
  refine ⟨rfl, by simp [ws, hit], fun j v hv => ?_⟩
  have hj : j < ws.length := (List.getElem?_eq_some_iff.1 hv).1
  have pair : (ws.zip hit)[j]? = some (v, (Config.freeBits (b.fresh + j)).getLsbD 0) :=
    List.getElem?_zip_eq_some.2 ⟨hv, by simp [hit, hj]⟩
  dsimp only
  rw [List.getElem?_map, pair]
  by_cases hh : (Config.freeBits (b.fresh + j)).getLsbD 0 = true
  · exact .inr (congrArg some (if_pos hh))
  · exact .inl (congrArg some (if_neg hh))

theorem Blk.pipe_of_pipes {b c : Blk} (h : c.pipes = b.pipes) (p : Nat) : c.pipe p = b.pipe p := by
  unfold Blk.pipe
  rw [h]

/-- A lane that faults: fenced, and tested unless it had faulted within 1 s; then its packets are replayed (R30, R483). -/
def Pipe.fence (x : Pipe) (lane : Nat) (again : Prop) [Decidable again] : Pipe :=
  { x with laneFenced := x.laneFenced ||| BitVec.ofNat 4 (2 ^ lane),
           lanesTesting := if again then x.lanesTesting &&& ~~~ BitVec.ofNat 4 (2 ^ lane)
             else x.lanesTesting ||| BitVec.ofNat 4 (2 ^ lane) }

theorem Blk.laneFault_fences (b : Blk) (p lane ns : Nat) : b.Counts (b.laneFault p lane ns) 0x0D (halfOfPipe p) ∧
    ((b.pipe p).fence lane (b.rel.laneFault.get 0 (p * 4 + lane) ≠ 0 ∧
      b.mono + 1 < b.rel.laneFault.get 0 (p * 4 + lane) + 1000000000)).Replayed ((b.laneFault p lane ns).pipe p) := by
  unfold Blk.laneFault
  extract_lets k again m b1 rel b2
  have logs := Blk.logs_errorRecord (b2.errUncorr 0x0D (halfOfPipe p))
    { structure_ := 0x0D, action := if again then actFenced else actReplayed, unit := p, half := halfOfPipe p, sub := lane,
      ns := ns }
  have kept : b2.rel.uncorr = b.rel.uncorr := by rw [Blk.rel_of_plane (Blk.plane_laneReplay _ p)]; rfl
  have fenced : b1.pipe p = (b.pipe p).fence lane again := Blk.pipe_updPipe _ _ _
  have replayed : (b1.pipe p).Replayed (b2.pipe p) := Blk.replayed_laneReplay _ p
  clear_value b2 b1
  refine ⟨(Blk.counts_errUncorr kept _ _).of_uncorr (by rw [logs.rel]), ?_⟩
  rw [Blk.pipe_of_pipes logs.pipes, ← fenced]
  exact replayed

theorem Blk.laneTested_idle {b : Blk} {p lane : Nat} (h : (b.pipe p).lanesTesting &&& BitVec.ofNat 4 (2 ^ lane) = 0) (ok : Bool) :
    b.laneTested p lane ok = b := if_pos h

theorem Blk.laneTested_passes {b : Blk} {p lane : Nat} (h : (b.pipe p).lanesTesting &&& BitVec.ofNat 4 (2 ^ lane) ≠ 0) :
    b.laneTested p lane true = b.updPipe p (fun x => { x with
      lanesTesting := x.lanesTesting &&& ~~~ BitVec.ofNat 4 (2 ^ lane),
      laneFenced := x.laneFenced &&& ~~~ BitVec.ofNat 4 (2 ^ lane) }) := if_neg h

theorem Blk.laneTested_fails {b : Blk} {p lane : Nat} (h : (b.pipe p).lanesTesting &&& BitVec.ofNat 4 (2 ^ lane) ≠ 0) :
    (b.laneTested p lane false).pipe p =
      { b.pipe p with lanesTesting := (b.pipe p).lanesTesting &&& ~~~ BitVec.ofNat 4 (2 ^ lane) } := by
  unfold Blk.laneTested
  extract_lets m
  rw [if_neg h, if_neg Bool.false_ne_true, Blk.pipe_of_pipes (Blk.logs_errorRecord _ _).pipes, Blk.pipe_updPipe]

/-! Table banks (R483, R486). -/

/-- The spares left, where the spares used stand as they stood. -/
theorem Blk.sparesLeft_of_used {b c : Blk} (h : c.rel.sparesUsed = b.rel.sparesUsed) (kind pool : Nat) :
    c.sparesLeft kind pool = b.sparesLeft kind pool := by
  unfold Blk.sparesLeft
  rw [h]

theorem Blk.sparesLeft_useSpare {b : Blk} {kind pool : Nat} (h : 0 < b.sparesLeft kind pool) :
    (b.useSpare kind pool).sparesLeft kind pool + 1 = b.sparesLeft kind pool := by
  have used : (b.useSpare kind pool).rel.sparesUsed.get 0 (kind * 16 + pool) = b.rel.sparesUsed.get 0 (kind * 16 + pool) + 1 :=
    Tab.get_upd_same 0 b.rel.sparesUsed (kind * 16 + pool) (· + 1)
  unfold Blk.sparesLeft at h ⊢
  omega

/-- A bank is on its shadow, or being rebuilt. -/
def Blk.bankKnown (b : Blk) (p : Nat) (tern : Bool) (bank : Nat) : Prop := b.rel.onShadow.contains (p, tern, bank) = true ∨
  b.rel.rebuilding.any (fun r => r.pipe == p && r.ternary == tern && r.bank == bank) = true

/-- What a fault of a table bank leaves: a rebuild on a spare, or the bank on its shadow, unless it is out already. -/
structure Blk.BankOut (b c : Blk) (p : Nat) (tern : Bool) (bank : Nat) : Prop where
  counted : b.Counts c (bankCode tern) (halfOfPipe p)
  known : b.bankKnown p tern bank → c.rel.rebuilding = b.rel.rebuilding ∧ c.rel.onShadow = b.rel.onShadow
  spared : ¬ b.bankKnown p tern bank → 0 < b.sparesLeft (bankKind tern) p →
    c.sparesLeft (bankKind tern) p + 1 = b.sparesLeft (bankKind tern) p ∧ c.rel.onShadow = b.rel.onShadow ∧
    c.rel.rebuilding = b.rel.rebuilding ++ [{ pipe := p, ternary := tern, bank := bank, predictive := false }]
  shadow : ¬ b.bankKnown p tern bank → b.sparesLeft (bankKind tern) p = 0 →
    c.rel.rebuilding = b.rel.rebuilding ∧ c.rel.onShadow = b.rel.onShadow ++ [(p, tern, bank)]

theorem Blk.bankFault_out (b : Blk) (p : Nat) (tern : Bool) (bank ns : Nat) :
    b.BankOut (b.bankFault p tern bank ns) p tern bank := by
  have counted := Blk.counts_errUncorr (b := b) rfl (bankCode tern) (halfOfPipe p)
  unfold Blk.bankFault Blk.bankOut
  extract_lets x b1 rel b2
  split
  next hk => exact ⟨counted, fun _ => ⟨rfl, rfl⟩, fun hn => absurd hk hn, fun hn => absurd hk hn⟩
  next hk =>
    split
    next hs =>
      exact ⟨counted.of_uncorr rfl, fun h => absurd h hk, fun _ h => ⟨Blk.sparesLeft_useSpare hs, rfl, rfl⟩,
        fun _ h => absurd h (Nat.ne_of_gt hs)⟩
    next hs =>
      refine ⟨counted.of_uncorr ?_, fun h => absurd h hk, fun _ h => absurd h hs, fun _ _ => ?_⟩
      · rw [(Blk.logs_uncovered _ x).rel]
      · rw [(Blk.logs_uncovered _ x).rel]
        exact ⟨rfl, rfl⟩

theorem Blk.bankRebuilt_none {b : Blk} {p : Nat} {tern : Bool}
    (h : b.rel.rebuilding.find? (fun r => r.pipe == p && r.ternary == tern) = none) (ns : Nat) : b.bankRebuilt p tern ns = b := by
  unfold Blk.bankRebuilt
  rw [h]

theorem Blk.bankRebuilt_some {b : Blk} {p : Nat} {tern : Bool} {r : Rebuild}
    (h : b.rel.rebuilding.find? (fun r => r.pipe == p && r.ternary == tern) = some r) (ns : Nat) :
    (b.bankRebuilt p tern ns).rel = { b.rel with rebuilding := b.rel.rebuilding.erase r } := by
  unfold Blk.bankRebuilt
  rw [h]
  exact (Blk.logs_errorRecord _ _).rel

/-! Hogshead banks and inline units (R485, R486). -/

/-- A unit that fails for good with a spare left: the spare is used, and its record made. -/
theorem Blk.failUnit_spared {b : Blk} {kind pool : Nat} (h : 0 < b.sparesLeft kind pool) (x : ErrBody) (action : Nat)
    (gone : Blk → Blk) : (b.useSpare kind pool).logs (b.failUnit kind pool x action gone) := by
  unfold Blk.failUnit
  rw [if_pos h]
  exact Blk.logs_errorRecord _ _

/-- With none left, its effect follows. -/
theorem Blk.failUnit_gone {b : Blk} {kind pool : Nat} (h : b.sparesLeft kind pool = 0) (x : ErrBody) (action : Nat)
    (gone : Blk → Blk) : (gone b).logs (b.failUnit kind pool x action gone) := by
  unfold Blk.failUnit
  rw [if_neg (by omega)]
  exact Blk.logs_uncovered _ _

/-- A unit that fails, after its fault was counted. -/
theorem Blk.failUnit_counts {b c : Blk} (z : Nat) (g : Half) (hc : b.Counts c z g) {kind pool : Nat} (x : ErrBody) (action : Nat)
    {gone : Blk → Blk} (hg : (gone c).rel = c.rel) : b.Counts (c.failUnit kind pool x action gone) z g := by
  by_cases h : 0 < c.sparesLeft kind pool
  · exact hc.of_uncorr (by rw [(Blk.failUnit_spared h x action gone).rel]; rfl)
  · exact hc.of_uncorr (by rw [(Blk.failUnit_gone (by omega) x action gone).rel, hg])

/-- A spare that takes its place. -/
theorem Blk.failUnit_sparesLeft {b : Blk} {kind pool : Nat} (h : 0 < b.sparesLeft kind pool) (x : ErrBody) (action : Nat)
    (gone : Blk → Blk) : (b.failUnit kind pool x action gone).sparesLeft kind pool + 1 = b.sparesLeft kind pool := by
  rw [Blk.sparesLeft_of_used (b := b.useSpare kind pool) (by rw [(Blk.failUnit_spared h x action gone).rel])]
  exact Blk.sparesLeft_useSpare h

/-- Cells retired with a bank of the Hogshead (R486). -/
def Hog.retire (g : Hog) (h : Half) : Hog := match h with
  | .west => { g with retiredWest := g.retiredWest + 8192 }
  | .east => { g with retiredEast := g.retiredEast + 8192 }

/-- What a fault of a Hogshead bank leaves. -/
structure Blk.HogBankOut (b c : Blk) (h : Half) : Prop where
  counted : b.Counts c 8 h
  spared : 0 < b.sparesLeft 4 h.code → c.hog = b.hog ∧ c.sparesLeft 4 h.code + 1 = b.sparesLeft 4 h.code
  retired : b.sparesLeft 4 h.code = 0 → c.hog = b.hog.retire h

theorem Blk.hogBankFault_out (b : Blk) (h : Half) (bank ns : Nat) :
    b.HogBankOut ((b.errUncorr 8 h).hogBankOut h bank false ns) h := by
  have same : (b.errUncorr 8 h).sparesLeft 4 h.code = b.sparesLeft 4 h.code := Blk.sparesLeft_of_used rfl 4 h.code
  unfold Blk.hogBankOut
  refine ⟨Blk.failUnit_counts 8 h (Blk.counts_errUncorr rfl 8 h) _ _ rfl, fun hs => ⟨?_, ?_⟩, fun hs => ?_⟩
  · rw [(Blk.failUnit_spared (same ▸ hs) _ _ _).hog]
    rfl
  · rw [Blk.failUnit_sparesLeft (same ▸ hs), same]
  · rw [(Blk.failUnit_gone (same.trans hs) _ _ _).hog]
    cases h <;> rfl

/-- What a fault of an inline unit that was not lost leaves. -/
structure Blk.InlineOut (b c : Blk) (p u : Nat) : Prop where
  counted : b.Counts c 0x0E (halfOfPipe p)
  spared : 0 < b.sparesLeft 1 p → c.keys = b.keys ∧ c.sparesLeft 1 p + 1 = b.sparesLeft 1 p
  lost : b.sparesLeft 1 p = 0 → c.keys.unitsLost.get [] p = b.keys.unitsLost.get [] p ++ [u]

theorem Blk.inlineFault_lost {b : Blk} {p u : Nat} (h : u ∈ b.keys.unitsLost.get [] p) (ns : Nat) : b.inlineFault p u ns = b :=
  if_pos (List.contains_iff_mem.2 h)

theorem Blk.inlineFault_out {b : Blk} {p u : Nat} (h : u ∉ b.keys.unitsLost.get [] p) (ns : Nat) :
    b.InlineOut (b.inlineFault p u ns) p u := by
  have same : (b.errUncorr 0x0E (halfOfPipe p)).sparesLeft 1 p = b.sparesLeft 1 p := Blk.sparesLeft_of_used rfl 1 p
  have here : (b.keys.unitsLost.get [] p).contains u = false := by simpa using h
  unfold Blk.inlineFault
  rw [here, if_neg Bool.false_ne_true]
  refine ⟨Blk.failUnit_counts 0x0E _ (Blk.counts_errUncorr rfl 0x0E _) _ _ rfl, fun hs => ⟨?_, ?_⟩, fun hs => ?_⟩
  · rw [(Blk.failUnit_spared (same ▸ hs) _ _ _).keys]
    rfl
  · rw [Blk.failUnit_sparesLeft (same ▸ hs), same]
  · rw [(Blk.failUnit_gone (same.trans hs) _ _ _).keys]
    exact (Tab.get_upd_same [] b.keys.unitsLost p (fun l => if l.contains u then l else l ++ [u])).trans (by rw [here]; rfl)

/-- A lookaside unit that faults is fenced (R360, R481). -/
theorem Blk.lookasideFault_fences (b : Blk) (u ns : Nat) : (b.lookasideFault u ns).unit u = { st := .fenced } ∧
    b.Counts (b.lookasideFault u ns) 0x0F (halfOfUnit u) := by
  have logs := Blk.logs_errorRecord ((b.unitFault u).errUncorr 0x0F (halfOfUnit u))
    { structure_ := 0x0F, action := actFenced, unit := u, half := halfOfUnit u, ns := ns }
  have kept : (b.unitFault u).rel.uncorr = b.rel.uncorr := by rw [Blk.rel_of_plane (b.plane_unitFault u)]
  refine ⟨?_, (Blk.counts_errUncorr kept _ _).of_uncorr (congrArg Rel.uncorr logs.rel)⟩
  have fenced : (b.unitFault u).unit u = { st := .fenced } := Blk.unit_updUnit _ u _
  rw [← fenced]
  exact congrArg (fun k : Keys => k.units.get {} u) logs.keys

/-! The bridge (R19, R484, R486). -/

theorem Blk.bridge_setBridge (b : Blk) (e : Bool) (d : BridgeDir) : (b.setBridge e d).bridge e = d := by
  cases e <;> rfl

theorem Blk.bridge_setBridge_not (b : Blk) (e : Bool) (d : BridgeDir) : (b.setBridge e d).bridge (!e) = b.bridge (!e) := by
  cases e <;> rfl

theorem Blk.bridge_of_brg {b c : Blk} (h : c.brg = b.brg) (e : Bool) : c.bridge e = b.bridge e := by
  unfold Blk.bridge
  rw [h]

theorem Blk.bridgeTrained_idle {b : Blk} {e : Bool} (h : (b.bridge e).lanes = []) (ns : Nat) : b.bridgeTrained e ns = b := by
  unfold Blk.bridgeTrained
  extract_lets d
  rw [show d.lanes = [] from h]

/-- A direction whose retrain ends: its oldest lane runs on a spare, or is retired; the next waits for a retrain. -/
def BridgeDir.trained (d : BridgeDir) (rest : List Nat) (mono : Nat) : BridgeDir :=
  if d.spareLanesUsed < 8 then
    { d with lanes := rest, retrain := if rest = [] then none else some mono, spareLanesUsed := d.spareLanesUsed + 1 }
  else { d with lanes := rest, retrain := if rest = [] then none else some mono, retired := d.retired + 1 }

theorem Blk.bridgeTrained_logs {b : Blk} {e : Bool} {l : Nat} {ls : List Nat} (h : (b.bridge e).lanes = l :: ls) (ns : Nat) :
    (b.setBridge e ((b.bridge e).trained ls b.mono)).logs (b.bridgeTrained e ns) := by
  unfold Blk.bridgeTrained BridgeDir.trained
  extract_lets d
  rw [show d.lanes = l :: ls from h]
  dsimp only
  split
  · exact Blk.logs_errorRecord _ _
  · exact Blk.logs_uncovered _ _

/-! Power phases and half-fatal faults (R481, R485, R491). -/

/-- The block with one more phase of a rail shed. -/
def Blk.phaseShed (b : Blk) (h : Half) (rail : Nat) : Blk :=
  let k := h.code * 16 + rail
  { b with elec := { b.elec with phasesShed := b.elec.phasesShed.put 0 k (b.elec.phasesShed.get 0 k + 1) } }

/-- Two phases of a rail are covered. -/
theorem Blk.phaseLoss_covered {b : Blk} {h : Half} {rail : Nat} (hs : b.elec.phasesShed.get 0 (h.code * 16 + rail) < 2)
    (phase ns : Nat) : ((b.phaseShed h rail).errUncorr 0x13 h).logs (b.phaseLoss h rail phase ns) := by
  unfold Blk.phaseLoss
  extract_lets k n elec b1
  rw [if_pos (show n < 2 from hs)]
  exact Blk.logs_errorRecord _ _

theorem Blk.phaseLoss_sheds {b : Blk} {h : Half} {rail : Nat} (hs : b.elec.phasesShed.get 0 (h.code * 16 + rail) < 2)
    (phase ns : Nat) : b.Counts (b.phaseLoss h rail phase ns) 0x13 h ∧
      (b.phaseLoss h rail phase ns).elec = { b.elec with phasesShed := (b.phaseLoss h rail phase ns).elec.phasesShed } ∧
      (b.phaseLoss h rail phase ns).elec.phasesShed.get 0 (h.code * 16 + rail) =
        b.elec.phasesShed.get 0 (h.code * 16 + rail) + 1 := by
  have logs := Blk.phaseLoss_covered hs phase ns
  have counted : b.Counts ((b.phaseShed h rail).errUncorr 0x13 h) 0x13 h := Blk.counts_errUncorr rfl 0x13 h
  refine ⟨counted.of_uncorr (by rw [logs.rel]), ?_, ?_⟩ <;> rw [logs.elec]
  · rfl
  · exact Tab.get_put_same 0 b.elec.phasesShed (h.code * 16 + rail) (b.elec.phasesShed.get 0 (h.code * 16 + rail) + 1)

/-- A third one is half-fatal. -/
theorem Blk.phaseLoss_fatal {b : Blk} {h : Half} {rail : Nat} (hs : 2 ≤ b.elec.phasesShed.get 0 (h.code * 16 + rail))
    (phase ns : Nat) : b.phaseLoss h rail phase ns = (b.phaseShed h rail).halfFatal h 0x13 ns := by
  unfold Blk.phaseLoss
  extract_lets k n elec b1
  exact if_neg (Nat.not_lt.2 hs)

/-- MONO at a half's last half-fatal fault, one past it; 0 where there was none. -/
def Rel.fatalOf (r : Rel) : Half → Nat
  | .west => r.fatalWest
  | .east => r.fatalEast

/-- Start-up with the halves `l` shut out. -/
def Boot.shut (o : Boot) (l : List Nat) : Boot := { o with shutOut := l }

/-- A half-fatal fault resets the half; where it is the second within an hour, the half stays withdrawn (R491). -/
theorem Blk.halfFatal_resets (b : Blk) (h : Half) (s ns : Nat) : ∃ c : Blk, b.halfFatal h s ns = c.resetHalf h ∧
    c.boot = b.boot.shut c.boot.shutOut ∧
    (b.rel.fatalOf h ≠ 0 → b.mono + 1 < b.rel.fatalOf h + 3600000000000 → h.code ∈ c.boot.shutOut) := by
  unfold Blk.halfFatal
  extract_lets last again b1 rel b2 b3
  have boot : b2.boot = b.boot := (Blk.logs_errorRecord _ _).boot
  refine ⟨_, rfl, ?_, fun h0 h1 => ?_⟩
  · show b3.boot = b.boot.shut b3.boot.shutOut
    simp only [b3]
    split
    · exact congrArg (·.shut (h.code :: b2.boot.shutOut.filter (· != h.code))) boot
    · rw [boot]
      rfl
  · have second : again = true := decide_eq_true (by cases h <;> exact ⟨h0, h1⟩)
    show h.code ∈ b3.boot.shutOut
    simp only [b3, second, if_true]
    exact List.mem_cons_self

/-- The points of both halves are those of start-up. -/
theorem Blk.mp_of_shut {b c : Blk} {l : List Nat} (hc : c.boot = b.boot.shut l) (h : Half) : c.mp h = b.mp h := by
  cases h <;> simp [Blk.mp, hc, Boot.shut]

theorem Blk.mp_withdraw {b d : Blk} {h : Half} (hd : d.boot = b.boot.withdraw h) :
    d.mp h = 0 ∧ d.mp h.other = b.mp h.other := by
  cases h <;> simp [Blk.mp, Half.other, hd, Boot.withdraw]

/-- What a half-fatal fault leaves of start-up, by the points that the halves hold (R22, R23, R98, R491). -/
structure Blk.Fatal (b t : Blk) (h : Half) : Prop where
  held : b.boot.state = bsActivating → t.boot.heldReset = b.boot.heldReset ++ [h.code] ∧ t.mp h = b.mp h ∧
    t.mp h.other = b.mp h.other
  device : b.boot.state ≠ bsActivating → b.mp h.other = 0 → t.mp h = 0 ∧ t.mp h.other = 0
  down : b.boot.state ≠ bsActivating → b.mp h.other ≠ 0 → b.mp h = 0 → t.mp h = 0 ∧ t.mp h.other = b.mp h.other
  half : b.boot.state ≠ bsActivating → b.mp h.other ≠ 0 → b.mp h ≠ 0 → t.mp h = 0 ∧ t.mp h.other = b.mp h.other ∧
    t.boot.state = bsRecovery ∧
    (b.rel.fatalOf h ≠ 0 → b.mono + 1 < b.rel.fatalOf h + 3600000000000 → h.code ∈ t.boot.shutOut)

theorem Blk.fatal_halfFatal (b : Blk) (h : Half) (s ns : Nat) : b.Fatal (b.halfFatal h s ns) h := by
  obtain ⟨c, run, boot, second⟩ := b.halfFatal_resets h s ns
  have state : c.boot.state = b.boot.state := by rw [boot]; rfl
  have waiting : c.boot.heldReset = b.boot.heldReset := by rw [boot]; rfl
  have mp := Blk.mp_of_shut boot h
  have mpo := Blk.mp_of_shut boot h.other
  rw [run]
  refine ⟨fun ha => ?_, fun ha ho => ?_, fun ha ho hm => ?_, fun ha ho hm => ?_⟩
  · rw [Blk.resetHalf_held (state.trans ha)]
    exact ⟨congrArg (· ++ [h.code]) waiting, mp, mpo⟩
  · rw [Blk.resetHalf_device (state ▸ ha) (mpo.trans ho)]
    exact ⟨Blk.mp_deviceReset _ _ _ _, Blk.mp_deviceReset _ _ _ _⟩
  · rw [Blk.resetHalf_down (state ▸ ha) (mpo ▸ ho) (mp.trans hm)]
    exact ⟨mp.trans hm, mpo⟩
  · rw [Blk.resetHalf_up (state ▸ ha) (mpo ▸ ho) (mp ▸ hm)]
    have left := Blk.boot_halfReset c h
    obtain ⟨own, other⟩ := Blk.mp_withdraw left
    exact ⟨own, other.trans mpo, congrArg Boot.state left, fun h0 h1 => left ▸ second h0 h1⟩

/-- Either fault that is half-fatal: on the part as it stands, or with one more phase shed. -/
theorem exec_fatal (s : State) (h : Half) (e : Bool) (rail : Fin 16) (ph : Fin 64) (ns : W32) (f : Instr)
    (hf : f = .halfFatalFault h e ns ∨
      (f = .powerPhaseLoss h rail ph ns ∧ 2 ≤ s.blk.elec.phasesShed.get 0 (h.code * 16 + rail.val))) :
    ∃ t, exec f s = .next t ∧ s.blk.Fatal t.blk h := by
  obtain rfl | ⟨rfl, hs⟩ := hf
  · exact ⟨_, exec_halfFatalFault s h e ns, Blk.fatal_halfFatal _ _ _ _⟩
  · refine ⟨_, exec_powerPhaseLoss s h rail ph ns, ?_⟩
    dsimp only
    rw [Blk.phaseLoss_fatal hs]
    obtain ⟨held, device, down, half⟩ := Blk.fatal_halfFatal (s.blk.phaseShed h rail.val) h 0x13 ns.toNat
    exact ⟨held, device, down, half⟩

/-- Settles O46: what each fault of a unit leaves of the unit, its spares and the counts; the resets by start-up alone. -/
theorem unitsUnderFault : Obligations.UnitsUnderFault := by
  unfold Obligations.UnitsUnderFault
  intro s p k tern ok bank hb h u lu e n rail ph ns l ls r f b x m d shed last again gives counts known spares fatal
  refine ⟨?_, fun hi => ?_, fun hi => ⟨?_, ?_⟩, ?_, ⟨fun hf => ?_, fun hf => ?_⟩, ?_, ⟨fun hl => ?_, fun hl => ?_⟩,
    ?_, ?_, fun hl => ?_, fun hl => ?_, fun hs => ?_, fun hf => ?_⟩
  · obtain ⟨counted, rest, length, each⟩ := b.laneFault_fences p.val k.val ns.toNat
    have testing : ((b.laneFault p.val k.val ns.toNat).pipe p.val).lanesTesting = (x.fence k.val again).lanesTesting := by
      rw [rest]
    refine ⟨_, exec_pipeLaneFault s p k ns, counted, ?_, fun ha => testing.trans (if_pos ha),
      fun ha => testing.trans (if_neg ha), length, each⟩
    dsimp only
    rw [testing]
    exact rest
  · rw [exec_laneSelftestDone, Blk.laneTested_idle hi]
  · refine ⟨_, exec_laneSelftestDone s p k true, ?_⟩
    rw [Blk.laneTested_passes hi]
    exact ⟨rfl, Blk.pipe_updPipe _ _ _⟩
  · exact ⟨_, exec_laneSelftestDone s p k false, Blk.laneTested_fails hi⟩
  · obtain ⟨counted, known, spared, shadow⟩ := b.bankFault_out p.val tern bank.val ns.toNat
    exact ⟨_, exec_tableBankFault s p tern bank ns, counted, known, spared, shadow⟩
  · rw [exec_bankRebuildDone, Blk.bankRebuilt_none hf]
  · have rel := Blk.bankRebuilt_some hf ns.toNat
    exact ⟨_, exec_bankRebuildDone s p tern ns, congrArg Rel.rebuilding rel, (congrArg Rel.onShadow rel :)⟩
  · obtain ⟨counted, spared, retired⟩ := b.hogBankFault_out h hb.val ns.toNat
    refine ⟨_, exec_hogsheadBankFault s h hb ns, counted, spared, fun hs => (retired hs).trans ?_⟩
    cases h <;> rfl
  · rw [exec_cipherInlineFault, Blk.inlineFault_lost hl]
  · obtain ⟨counted, spared, lost⟩ := Blk.inlineFault_out (b := b) hl ns.toNat
    exact ⟨_, exec_cipherInlineFault s p u ns, counted, spared, lost⟩
  · obtain ⟨fenced, counted⟩ := b.lookasideFault_fences lu.val ns.toNat
    exact ⟨_, exec_lookasideUnitFault s lu ns, fenced, counted⟩
  · exact ⟨_, exec_bridgeLaneFault s e n, rfl, Blk.counts_errUncorr rfl _ _, Blk.bridge_setBridge _ _ _,
      Blk.bridge_setBridge_not _ _ _⟩
  · rw [exec_bridgeRetrainDone, Blk.bridgeTrained_idle hl]
  · have brg := (Blk.bridgeTrained_logs hl ns.toNat).brg
    exact ⟨_, exec_bridgeRetrainDone s e ns, (Blk.bridge_of_brg brg _).trans (Blk.bridge_setBridge_not _ _ _),
      (Blk.bridge_of_brg brg _).trans (Blk.bridge_setBridge _ _ _)⟩
  · exact ⟨_, exec_powerPhaseLoss s h rail ph ns, Blk.phaseLoss_sheds hs ph.val ns.toNat⟩
  · obtain ⟨t, run, held, device, down, half⟩ := exec_fatal s h e rail ph ns f hf
    refine ⟨fun ha => ⟨t, run, held ha⟩, fun ha => ⟨fun ho => ⟨t, run, device ha ho⟩,
      fun ho hm => ⟨t, run, down ha ho hm⟩, fun ho hm => ⟨t, run, ?_⟩⟩⟩
    obtain ⟨own, other, state, second⟩ := half ha ho hm
    refine ⟨own, other, state, ?_⟩
    cases h <;> exact second

end Sys2Proof.Machine
end

section
/-! SUPPORT. What a request to the MSS leaves beside its effect: the answer, records, events (R455 to R457, R461, R468). -/

namespace Sys2Proof.Machine
open Sys2Proof

/-! An event of an F0 EQ leaves the links and the resets of functions (R69, R72). -/

/-- Link and PERST# of a port, and the FLR of its functions. -/
def HostPort.wire (p : HostPort) : Bool × Bool × Bool × Bool := (p.linkUp, p.perst, p.f0.flr, p.f1.flr)

/-- The two blocks agree in the links, PERST# and FLR of every port. -/
def Blk.wired (b c : Blk) : Prop := ∀ h, (c.port h).wire = (b.port h).wire

theorem Blk.wired_refl (b : Blk) : b.wired b := fun _ => rfl
theorem Blk.wired.trans {b c d : Blk} (h : b.wired c) (k : c.wired d) : b.wired d := fun j => (k j).trans (h j)

theorem Blk.wired_updPort (b : Blk) (h : Nat) {f : HostPort → HostPort} (hf : ∀ p, (f p).wire = p.wire) :
    b.wired (b.updPort h f) := by
  intro j
  by_cases hj : j = h
  · rw [hj, Blk.port_updPort, hf]
  · rw [Blk.port_updPort_ne _ _ _ hj]

theorem Blk.wired_updFn (b : Blk) (h : Nat) (f1 : Bool) {f : Fn → Fn} (hf : ∀ x, (f x).flr = x.flr) :
    b.wired (b.updFn h f1 f) :=
  b.wired_updPort h (fun p => by cases f1 <;> simp [HostPort.wire, hf])

theorem Blk.wired_emit (b : Blk) (e : Emit) : b.wired (b.emit e) := fun _ => rfl

theorem Blk.wired_evalIntx (b : Blk) (h : Nat) (f1 : Bool) : b.wired (b.evalIntx h f1) := by
  unfold Blk.evalIntx
  extract_lets f st
  split
  · exact (b.wired_updFn h f1 (f := fun x => { x with inta := st }) (fun _ => rfl)).trans (Blk.wired_emit _ _)
  · exact b.wired_refl

theorem Blk.wired_msiSend (b : Blk) (h : Nat) (f1 : Bool) (v : Nat) : b.wired (b.msiSend h f1 v) := by
  unfold Blk.msiSend
  split
  · split
    · exact b.wired_refl
    · exact b.wired_emit _
  · split
    · exact b.wired_updFn h f1 (f := fun x => { x with pba := x.pba.put false v true }) (fun _ => rfl)
    · exact b.wired_refl

theorem Blk.wired_updEvq_f0 (b : Blk) (h : Nat) (f : EvQ → EvQ) : b.wired (b.updEvq (.f0 h) f) :=
  b.wired_updPort h (fun _ => rfl)

theorem Blk.wired_eqPut_f0 (b : Blk) (h : Nat) (ev : Ev) (m : Nat) : b.wired (b.eqPut (.f0 h) ev m) := by
  unfold Blk.eqPut
  extract_lets q b1
  have entry : b.wired (b1.updEvq (.f0 h) (fun q' => { q' with
      pi := q'.pi + 1, srcs := q'.srcs.put {} ev.source { standing := some q.pi } })) :=
    (b.wired_emit _).trans (b1.wired_updEvq_f0 h _)
  refine entry.trans ?_
  unfold Blk.eqMirror
  dsimp only
  split
  · exact Blk.wired_emit _ (.bus h false _ _)
  · exact Blk.wired_refl _

theorem Blk.wired_eqTake_f0 (b : Blk) (h : Nat) (ev : Ev) : b.wired (b.eqTake (.f0 h) ev) := by
  unfold Blk.eqTake
  extract_lets q s merge
  repeat' split
  · exact b.wired_updEvq_f0 h _
  · exact b.wired_updEvq_f0 h _
  · exact b.wired_updEvq_f0 h _
  · exact b.wired_eqPut_f0 h ev 0

theorem Blk.wired_raise_f0 (fuel : Nat) (b : Blk) (h : Nat) (ev : Ev) : b.wired (Blk.raise fuel b (.f0 h) ev) := by
  induction fuel generalizing b h ev with
  | zero => exact b.wired_eqTake_f0 h ev
  | succ fuel ih =>
    have take := b.wired_eqTake_f0 h ev
    have sent := (take.trans (Blk.wired_msiSend _ h false ((b.eqTake (.f0 h) ev).eqVector (.f0 h)))).trans
      (Blk.wired_evalIntx _ h false)
    unfold Blk.raise
    dsimp only
    split
    · split
      · exact sent.trans (ih _ _ _)
      · exact sent
    · exact take.trans (Blk.wired_evalIntx _ _ _)

/-! What serving a request leaves beside its effect. -/

/-- The two blocks differ in the ports' event queues and what was sent, in the transports of the MSS, its waiting responses and
its Reel, and in the count of free values. -/
structure Blk.serves (b c : Blk) : Prop where
  rest : c = { b with ports := c.ports, out := c.out, pm := c.pm, fresh := c.fresh, mss := { b.mss with
    mbx := c.mss.mbx, mctp := c.mss.mctp, smbus := c.mss.smbus, mgmt := c.mss.mgmt, resetting := c.mss.resetting,
    reel := c.mss.reel, latched := c.mss.latched } }
  wired : b.wired c

theorem Blk.serves_refl (b : Blk) : b.serves b := ⟨rfl, b.wired_refl⟩

theorem Blk.serves.trans {b c d : Blk} (h : b.serves c) (k : c.serves d) : b.serves d where
  rest := by conv => lhs; rw [k.rest, h.rest]
  wired := h.wired.trans k.wired

theorem Blk.serves_updMssPort (b : Blk) (v : Transport) (f : MssPort → MssPort) : b.serves (b.updMssPort v f) := by
  cases v <;> exact ⟨rfl, fun _ => rfl⟩

theorem Blk.serves_emit (b : Blk) (e : Emit) : b.serves (b.emit e) := ⟨rfl, fun _ => rfl⟩

theorem Blk.serves_raise_f0 (fuel : Nat) (b : Blk) (h : Nat) (ev : Ev) : b.serves (Blk.raise fuel b (.f0 h) ev) where
  rest := by rw [(b.reports_raise_f0 fuel h ev).rest]
  wired := b.wired_raise_f0 fuel h ev

theorem Blk.serves_reel (b : Blk) (type origin : Nat) (fields : List Nat) : b.serves (b.reel type origin fields) := by
  unfold Blk.reel Blk.reelRaw
  dsimp only
  split <;> exact ⟨rfl, fun _ => rfl⟩

theorem Blk.serves_mssReply (b : Blk) (v : Transport) (cmd : Nat) (tag : W32) (status : Nat) (body : List Byte) :
    b.serves (b.mssReply v cmd tag status body) := by
  unfold Blk.mssReply
  extract_lets now later msg keep
  split
  next k b1 =>
    have put : b.serves b1 := b.serves_updMssPort _ _
    split
    · split
      · exact put.trans (Blk.serves_raise_f0 _ _ _ _)
      · exact put
    · exact b.serves_refl
  next => exact (b.serves_updMssPort v keep).trans (Blk.serves_emit _ _)

theorem Blk.serves_settleResets (b : Blk) : b.serves b.settleResets := by
  unfold Blk.settleResets
  extract_lets due mss
  have answered : ∀ (l : List (Transport × W32 × ResetKey)) (c : Blk),
      c.serves (l.foldl (fun b r => b.mssReply r.1 0x0020 r.2.1 0 []) c) := by
    intro l
    induction l with
    | nil => exact Blk.serves_refl
    | cons r l ih => exact fun c => (c.serves_mssReply _ _ _ _ _).trans (ih _)
  refine Blk.serves.trans ?_ (answered due _)
  exact ⟨rfl, fun _ => rfl⟩

theorem Blk.serves.boot {b c : Blk} (h : b.serves c) : c.boot = b.boot := (congrArg Blk.boot h.rest :)
theorem Blk.serves.ctl {b c : Blk} (h : b.serves c) : c.ctl = b.ctl := (congrArg Blk.ctl h.rest :)
theorem Blk.serves.cores {b c : Blk} (h : b.serves c) : c.cores = b.cores := (congrArg Blk.cores h.rest :)
theorem Blk.serves.clk {b c : Blk} (h : b.serves c) : c.clk = b.clk := (congrArg Blk.clk h.rest :)
theorem Blk.serves.elec {b c : Blk} (h : b.serves c) : c.elec = b.elec := (congrArg Blk.elec h.rest :)
theorem Blk.serves.spd {b c : Blk} (h : b.serves c) : c.spd = b.spd := (congrArg Blk.spd h.rest :)
theorem Blk.serves.powered {b c : Blk} (h : b.serves c) : c.mss.powered = b.mss.powered := (congrArg (·.mss.powered) h.rest :)
theorem Blk.serves.set {b c : Blk} (h : b.serves c) : c.mss.set = b.mss.set := (congrArg (·.mss.set) h.rest :)
theorem Blk.serves.sens {b c : Blk} (h : b.serves c) : c.mss.sens = b.mss.sens := (congrArg (·.mss.sens) h.rest :)

theorem Blk.serves.mp {b c : Blk} (h : b.serves c) (s : Half) : c.mp s = b.mp s := by
  cases s <;> simp [Blk.mp, h.boot]

theorem Blk.serves.linkUp {b c : Blk} (h : b.serves c) (k : Nat) : (c.port k).linkUp = (b.port k).linkUp :=
  congrArg (·.1) (h.wired k)
theorem Blk.serves.perst {b c : Blk} (h : b.serves c) (k : Nat) : (c.port k).perst = (b.port k).perst :=
  congrArg (·.2.1) (h.wired k)
theorem Blk.serves.flr {b c : Blk} (h : b.serves c) (k : Nat) (f1 : Bool) : (c.fn k f1).flr = (b.fn k f1).flr := by
  cases f1
  · exact congrArg (·.2.2.1) (h.wired k)
  · exact congrArg (·.2.2.2) (h.wired k)

/-! The answer of a request (R455 to R457). -/

theorem length_mssHeader (cmd : Nat) (tag : W32) (status length remaining : Nat) :
    (mssHeader cmd tag status length remaining).length = 16 := by
  simp only [mssHeader, List.length_append, length_bytesLE]

/-- Bytes written to a buffer are read back. -/
theorem imgBytes_memPut (m : Tab Byte) (l : List Byte) : imgBytes (memPut m 0 l) 0 l.length = l := by
  unfold imgBytes
  refine List.ext_getElem (by simp) (fun n h1 h2 => ?_)
  rw [List.getElem_map, List.getElem_range, get_memPut, if_pos (by omega)]
  simp [h2]

/-- A mailbox that is served is BUSY. -/
theorem Blk.busy_of_mssOpen {b : Blk} {h : PortId} {cmd : Nat} {tag : W32} {body : List Byte}
    (ho : b.mssOpen (.mailbox h) cmd tag body = true) : (b.mss.mbx.get {} h.val).st = .busy := by
  simp only [Blk.mssOpen, Bool.and_eq_true, beq_iff_eq] at ho
  exact ho.2.1.1.1.1

/-- A response over a mailbox that is BUSY, or over another transport, is the answer. -/
theorem Blk.answered_mssReply {b : Blk} {v : Transport} (hb : ∀ h, v = .mailbox h → (b.mss.mbx.get {} h.val).st = .busy)
    (cmd : Nat) (tag : W32) (status : Nat) (body : List Byte) :
    (b.mssReply v cmd tag status body).answered v cmd tag status body := by
  unfold Blk.mssReply
  extract_lets now later msg keep
  split
  next k b1 =>
    have busy : (b.mssPort (.mailbox k)).st = .busy := hb k rfl
    have put : b1.mss.mbx.get {} k.val = { keep (b.mss.mbx.get {} k.val) with st := .done, resp := memPut [] 0 msg } :=
      Tab.get_upd_same {} b.mss.mbx k.val (fun p => { keep p with st := .done, resp := memPut [] 0 msg })
    have answer : b1.answered (.mailbox k) cmd tag status body := by
      unfold Blk.answered
      dsimp only
      rw [put]
      exact ⟨rfl, rfl, imgBytes_memPut [] msg⟩
    rw [if_pos busy]
    split
    · rw [(b1.reports_raise_f0 3 k.val (b1.ev 0x002F k.val 0 2 0)).rest]
      exact answer
    · exact answer
  next hv =>
    cases v with
    | mailbox k => exact absurd rfl (hv k)
    | _ => exact List.mem_cons_self

end Sys2Proof.Machine
end

section
/-! SUPPORT. The proof of the statement on resets and power by request to the MSS (R22, R23, R80, R97 to R99, R461, R463). -/

namespace Sys2Proof.Machine
open Sys2Proof


theorem exec_resetFunction (s : State) (v : Transport) (tag : W32) (body : List Byte) :
    exec (.resetFunction v tag body) s = .next { s with blk := s.blk.resetFunction v tag body } := rfl
theorem exec_resetPort (s : State) (v : Transport) (tag : W32) (body : List Byte) :
    exec (.resetPort v tag body) s = .next { s with blk := s.blk.resetPort v tag body } := rfl
theorem exec_resetHalf (s : State) (v : Transport) (tag : W32) (body : List Byte) :
    exec (.resetHalf v tag body) s = .next { s with blk := s.blk.resetHalfMss v tag body } := rfl
theorem exec_resetDevice (s : State) (v : Transport) (tag : W32) (body : List Byte) (pin : Bool) :
    exec (.resetDevice v tag body pin) s = .next { s with blk := s.blk.resetDevice v tag body pin } := rfl
theorem exec_powerOff (s : State) (v : Transport) (tag : W32) (body : List Byte) :
    exec (.powerOff v tag body) s = .next { s with blk := s.blk.mssPowerOff v tag body } := rfl
theorem exec_powerOn (s : State) (v : Transport) (tag : W32) (body : List Byte) :
    exec (.powerOn v tag body) s = .next { s with blk := s.blk.mssPowerOn v tag body } := rfl
theorem exec_jigEnter (s : State) (v : Transport) (tag : W32) (body : List Byte) :
    exec (.jigEnter v tag body) s = .next { s with blk := s.blk.mssJig true v tag body } := rfl
theorem exec_jigExit (s : State) (v : Transport) (tag : W32) (body : List Byte) :
    exec (.jigExit v tag body) s = .next { s with blk := s.blk.mssJig false v tag body } := rfl

/-- What ACTIVATE does, with its answer (R97). -/
def Blk.activateAns (b : Blk) : Blk × MssAns :=
  match b.activate with
  | .ok c => (c, 0, [])
  | .error r => (b, r, [])

theorem exec_activate (s : State) (v : Transport) (tag : W32) (body : List Byte) : exec (.activate v tag body) s =
    .next { s with blk := s.blk.mssPlain v 0x0080 tag body (s.blk.rank v).owns Blk.activateAns } := rfl

/-! Requests that are served (R456). -/

/-- The block with the parts of an earlier response dropped. -/
def Blk.restGone (b : Blk) (v : Transport) : Blk := b.updMssPort v (fun p => { p with rest := [] })

theorem Blk.serves_restGone (b : Blk) (v : Transport) : b.serves (b.restGone v) := b.serves_updMssPort v _

/-- A transport that a request came over can take the answer. -/
def Blk.awaits (b : Blk) (v : Transport) : Prop := ∀ h, v = .mailbox h → (b.mss.mbx.get {} h.val).st = .busy

theorem Blk.awaits_restGone {b : Blk} {v : Transport} {cmd : Nat} {tag : W32} {body : List Byte}
    (ho : b.mssOpen v cmd tag body = true) : (b.restGone v).awaits v := by
  rintro h rfl
  have same : (b.restGone (.mailbox h)).mss.mbx.get {} h.val = { b.mss.mbx.get {} h.val with rest := [] } :=
    Tab.get_upd_same {} b.mss.mbx h.val (fun p => { p with rest := [] })
  rw [same]
  exact Blk.busy_of_mssOpen ho

/-- An answer that leaves all else. -/
structure Blk.OnlyAnswered (b c : Blk) (v : Transport) (cmd : Nat) (tag : W32) (status : Nat) : Prop where
  serves : b.serves c
  answered : c.answered v cmd tag status []

theorem Blk.onlyAnswered_mssReply {b : Blk} {v : Transport} {cmd : Nat} {tag : W32} {body : List Byte}
    (ho : b.mssOpen v cmd tag body = true) (status : Nat) :
    b.OnlyAnswered ((b.restGone v).mssReply v cmd tag status []) v cmd tag status :=
  ⟨(b.serves_restGone v).trans (Blk.serves_mssReply _ _ _ _ _ _), Blk.answered_mssReply (Blk.awaits_restGone ho) _ _ _ _⟩

section Serve
variable {b : Blk} {v : Transport} {cmd : Nat} {tag : W32} {body : List Byte} {allowed lengthOk operandsOk : Bool}
  {f : Blk → Blk × MssAns}

theorem Blk.mssServe_closed (ho : ¬ b.mssOpen v cmd tag body = true) :
    b.mssServe v cmd tag body allowed lengthOk operandsOk f = b := if_pos ho

theorem Blk.mssServe_done (ho : b.mssOpen v cmd tag body = true) (ha : allowed = true) (hl : lengthOk = true)
    (hp : operandsOk = true) : b.mssServe v cmd tag body allowed lengthOk operandsOk f =
      (f (b.restGone v)).1.mssReply v cmd tag (f (b.restGone v)).2.1 (f (b.restGone v)).2.2 := by
  simp [Blk.mssServe, Blk.restGone, ho, ha, hl, hp]

/-- The refusals of a request, in their order. -/
structure Blk.Refusals (b d : Blk) (v : Transport) (cmd : Nat) (tag : W32) (allowed lengthOk operandsOk : Bool) : Prop where
  authority : allowed = false → b.OnlyAnswered d v cmd tag 0x0202
  length : allowed = true → lengthOk = false → b.OnlyAnswered d v cmd tag 0x0103
  operands : allowed = true → lengthOk = true → operandsOk = false → b.OnlyAnswered d v cmd tag 0x0124

theorem Blk.mssServe_refuses (ho : b.mssOpen v cmd tag body = true) :
    b.Refusals (b.mssServe v cmd tag body allowed lengthOk operandsOk f) v cmd tag allowed lengthOk operandsOk := by
  have answers := Blk.onlyAnswered_mssReply ho
  unfold Blk.restGone at answers
  unfold Blk.mssServe
  rw [if_neg (not_not_intro ho)]
  refine ⟨fun ha => ?_, fun ha hl => ?_, fun ha hl hp => ?_⟩
  · simpa [ha] using answers 0x0202
  · simpa [ha, hl] using answers 0x0103
  · simpa [ha, hl, hp] using answers 0x0124

end Serve

/-! RESET (R461). -/

section Reset
variable {b : Blk} {scope : Nat} {v : Transport} {tag : W32} {body : List Byte} {f : Blk → Blk × Option ResetKey}

theorem Blk.mssReset_closed (ho : ¬ b.mssOpen v 0x0020 tag body = true) : b.mssReset scope v tag body f = b := if_pos (.inl ho)

theorem Blk.mssReset_refuses (ho : b.mssOpen v 0x0020 tag body = true)
    (hs : body.length ≠ 4 ∨ leAt body 0 1 = scope ∨ 3 < leAt body 0 1) :
    b.Refusals (b.mssReset scope v tag body f) v 0x0020 tag (b.mayReset v body) (body.length == 4) (resetOperandsOk body) := by
  have answers := Blk.onlyAnswered_mssReply ho
  have mine : ¬ (¬ b.mssOpen v 0x0020 tag body ∨ (body.length = 4 ∧ leAt body 0 1 ≤ 3 ∧ leAt body 0 1 ≠ scope)) := by
    rintro (hc | ⟨h4, h3, hn⟩)
    · exact hc ho
    · omega
  unfold Blk.restGone at answers
  unfold Blk.mssReset
  rw [if_neg mine]
  refine ⟨fun ha => ?_, fun ha hl => ?_, fun ha hl hp => ?_⟩
  · simpa [ha] using answers 0x0202
  · have hl4 : body.length ≠ 4 := by simpa using hl
    simpa [ha, hl4] using answers 0x0103
  · have hl4 : body.length = 4 := by simpa using hl
    simpa [ha, hl4, hp] using answers 0x0124

/-- A RESET that is accepted, with its record. -/
def Blk.recorded (b : Blk) (v : Transport) (body : List Byte) : Blk := (b.restGone v).resetRecord v body

theorem Blk.serves_recorded (b : Blk) (v : Transport) (body : List Byte) : b.serves (b.recorded v body) :=
  (b.serves_restGone v).trans (Blk.serves_reel _ _ _ _)

/-- The scope of a RESET that is accepted. -/
structure Blk.Accepts (b : Blk) (scope : Nat) (v : Transport) (tag : W32) (body : List Byte) : Prop where
  opened : b.mssOpen v 0x0020 tag body = true
  length : body.length = 4
  scope : leAt body 0 1 = scope
  may : b.mayReset v body = true
  operands : resetOperandsOk body = true

/-- It takes its course, then its answer is written, now or when the reset ends. -/
theorem Blk.mssReset_accepted (h : b.Accepts scope v tag body) : b.mssReset scope v tag body f =
    match (f (b.recorded v body)).2 with
    | none => (f (b.recorded v body)).1.mssReply v 0x0020 tag 0 []
    | some k => ({ (f (b.recorded v body)).1 with mss := { (f (b.recorded v body)).1.mss with
        resetting := (f (b.recorded v body)).1.mss.resetting ++ [(v, tag, k)] } } : Blk).settleResets := by
  obtain ⟨opened, length, hscope, may, operands⟩ := h
  unfold Blk.mssReset
  simp only [opened, length, hscope, may, operands, not_true_eq_false, false_or, ne_eq, and_false, if_false]
  rfl

theorem Blk.serves_mssReset (h : b.Accepts scope v tag body) :
    (f (b.recorded v body)).1.serves (b.mssReset scope v tag body f) := by
  rw [Blk.mssReset_accepted h]
  split
  · exact Blk.serves_mssReply _ _ _ _ _ _
  · refine Blk.serves.trans ?_ (Blk.serves_settleResets _)
    exact ⟨rfl, fun _ => rfl⟩

end Reset

/-! The scopes (R23, R76, R80). -/

theorem Blk.flr_flr (b : Blk) (h : PortId) (f1 : Bool) : ((b.flr h f1).fn h.val f1).flr = true := by
  unfold Blk.flr
  split
  next hf => exact hf
  next =>
    extract_lets b1
    rw [Blk.fn_updFn]

theorem Blk.port_linkAwake (b : Blk) (h k : Nat) : (b.linkAwake h).port k = b.port k := rfl

theorem Blk.perstLike_port (b : Blk) (h : PortId) :
    ((b.perstLike h).port h.val).linkUp = false ∧ ((b.perstLike h).port h.val).perst = (b.port h.val).perst := by
  unfold Blk.perstLike Blk.perstAssert
  extract_lets pin
  rw [Blk.port_updPort, Blk.port_linkAwake, Blk.port_updPort]
  exact ⟨rfl, rfl⟩

/-- A half shut out by a second half-fatal fault may rejoin (R491). -/
theorem Blk.boot_shutIn (b : Blk) (h : Half) : (b.shutIn h).boot = b.boot.shut (b.boot.shutOut.filter (· != h.code)) := rfl

theorem Blk.retains_of_shut {b c : Blk} {l : List Nat} (hc : c.boot = b.boot.shut l) : c.retains = b.retains := by
  simp [Blk.retains, hc, Boot.shut]

theorem Blk.retains_of_boot {b c : Blk} (hc : c.boot = b.boot) : c.retains = b.retains := by
  simp [Blk.retains, hc]

/-! The device starts again (R22, R94, R98, R99). -/

/-- Nothing is in flight: no thread, no epoch, no meeting point, no image; the settings stand. -/
structure Blk.Fresh (b t : Blk) : Prop where
  threads : t.cores.threads = []
  live : t.ctl.live = []
  west : t.mp .west = 0
  east : t.mp .east = 0
  image : t.boot.image = none
  set : t.mss.set = b.mss.set

theorem Blk.Fresh.of_serves {b c t : Blk} (h : b.Fresh c) (hs : c.serves t) : b.Fresh t :=
  ⟨by rw [hs.cores]; exact h.threads, by rw [hs.ctl]; exact h.live, by rw [hs.mp]; exact h.west, by rw [hs.mp]; exact h.east,
    by rw [hs.boot]; exact h.image, by rw [hs.set]; exact h.set⟩

theorem Blk.Fresh.of_set {b c t : Blk} (h : b.Fresh t) (hs : b.mss.set = c.mss.set) : c.Fresh t :=
  ⟨h.threads, h.live, h.west, h.east, h.image, h.set.trans hs⟩

/-- The block with its planes withdrawn and INTx settled. -/
def Blk.withdrawn (b : Blk) : Blk :=
  (List.range 16).foldl (fun b h => (b.evalIntx h false).evalIntx h true) (b.withdrawAll b.mss.powered)

theorem Blk.reports_intxEvery (l : List Nat) (b : Blk) :
    b.reports (l.foldl (fun b h => (b.evalIntx h false).evalIntx h true) b) := by
  induction l generalizing b with
  | nil => exact b.reports_refl
  | cons h l ih => exact ((b.reports_evalIntx h false).trans (Blk.reports_evalIntx _ h true)).trans (ih _)

/-- Start-up as a reset of the device leaves it: in Jig mode, or with a retained image to verify again. -/
def Boot.again (o : Boot) (jig : Bool) (x : Option (Image × Option Nat)) : Boot :=
  if jig then { o with jig := true }
  else match x with
    | some y => { o with state := bsVerifying, retained := some y }
    | none => o

theorem Blk.deviceReset_eq (b : Blk) (newDownload jig : Bool) : ∃ x : Option (Image × Option Nat),
    b.deviceReset newDownload jig = b.withdrawn.setBoot (·.again jig x) ∧
      x.map (·.1) = if newDownload then none else b.retains := by
  unfold Blk.deviceReset Boot.again
  extract_lets b1
  have same : b.withdrawn = b1 := rfl
  rw [same]
  clear_value b1
  refine ⟨(if newDownload then none else b.retains).map (fun x =>
    (x, b.retainedFault (b.copyLost .west x && b.copyLost .east x) x)), ?_, ?_⟩
  · cases jig
    · cases (if newDownload then none else b.retains : Option Image) <;> rfl
    · rfl
  · cases (if newDownload then none else b.retains : Option Image) <;> rfl

/-- Start-up when the planes are withdrawn: no point, no image, nothing retained. -/
structure Boot.Bare (o : Boot) : Prop where
  west : o.mpWest = 0
  east : o.mpEast = 0
  image : o.image = none
  jig : o.jig = false
  retained : o.retained = none

theorem Blk.out_intxEvery (l : List Nat) (b : Blk) :
    ∀ e ∈ b.out, e ∈ (l.foldl (fun b h => (b.evalIntx h false).evalIntx h true) b).out := by
  induction l generalizing b with
  | nil => exact fun _ he => he
  | cons h l ih => exact fun e he => ih _ e (((b.evalIntx h false).evalIntx_keeps h true).2 e ((b.evalIntx_keeps h false).2 e he))

/-- What was sent stays sent. -/
theorem Blk.out_withdrawn (b : Blk) : ∀ e ∈ b.out, e ∈ b.withdrawn.out :=
  Blk.out_intxEvery (List.range 16) (b.withdrawAll b.mss.powered)

/-- An entry that a change of every entry leaves is read as it was. -/
theorem Tab.get_mapVals_of_fixed {α : Type} [DecidableEq α] {d : α} {f : Nat → α → α} {t : Tab α} {k : Nat}
    (hf : f k (t.get d k) = t.get d k) (hd : t.get d k ≠ d) : (Tab.mapVals d f t).get d k = t.get d k := by
  induction t with
  | nil => rfl
  | cons e r ih =>
    obtain ⟨i, v⟩ := e
    by_cases hi : i = k
    · subst hi
      simp only [Tab.get, if_true] at hf hd ⊢
      simp [Tab.mapVals, Tab.get, hf, hd]
    · simp only [Tab.get, if_neg hi] at hf hd ⊢
      unfold Tab.mapVals
      split
      · exact ih hf hd
      · simpa only [Tab.get, if_neg hi] using ih hf hd

/-- A mailbox with its answer keeps it (R461). -/
theorem Blk.mbx_withdrawn (b : Blk) {k : Nat} (h : (b.mss.mbx.get {} k).st = .done) :
    b.withdrawn.mss.mbx.get {} k = b.mss.mbx.get {} k := by
  have same : b.withdrawn.mss = (b.withdrawAll b.mss.powered).mss := by
    unfold Blk.withdrawn
    rw [(Blk.reports_intxEvery (List.range 16) (b.withdrawAll b.mss.powered)).rest]
  rw [same]
  refine Tab.get_mapVals_of_fixed ?_ (fun hd => ?_)
  · rw [h]
    rfl
  · rw [hd] at h
    cases h

theorem Blk.bare_withdrawn (b : Blk) : b.withdrawn.boot.Bare := by
  unfold Blk.withdrawn
  rw [(Blk.reports_intxEvery (List.range 16) (b.withdrawAll b.mss.powered)).rest]
  exact ⟨rfl, rfl, rfl, rfl, rfl⟩

theorem Blk.fresh_withdrawn (b : Blk) : b.Fresh b.withdrawn := by
  unfold Blk.withdrawn
  rw [(Blk.reports_intxEvery (List.range 16) (b.withdrawAll b.mss.powered)).rest]
  exact ⟨rfl, rfl, rfl, rfl, rfl, rfl⟩

theorem Boot.mp_again {o : Boot} (h : o.Bare) (jig : Bool) (x : Option (Image × Option Nat)) :
    (o.again jig x).mpWest = 0 ∧ (o.again jig x).mpEast = 0 ∧ (o.again jig x).image = none ∧ (o.again jig x).jig = jig := by
  obtain ⟨west, east, image, hj, retained⟩ := h
  cases jig
  · cases x <;> exact ⟨west, east, image, hj⟩
  · exact ⟨west, east, image, rfl⟩

theorem Blk.fresh_deviceReset (b : Blk) (newDownload jig : Bool) : b.Fresh (b.deviceReset newDownload jig) := by
  obtain ⟨x, run, -⟩ := b.deviceReset_eq newDownload jig
  obtain ⟨threads, live, -, -, -, set⟩ := b.fresh_withdrawn
  obtain ⟨west, east, image, -⟩ := Boot.mp_again b.bare_withdrawn jig x
  rw [run]
  generalize b.withdrawn = c at *
  exact ⟨threads, live, congrArg BitVec.toNat west, congrArg BitVec.toNat east, image, set⟩

/-- The device starts again, and verifies the image `x` that it retains, if any. -/
structure Blk.Restarts (b t : Blk) (x : Option Image) : Prop where
  fresh : b.Fresh t
  jig : t.boot.jig = false
  retained : t.boot.retained.map (·.1) = x
  verifies : x ≠ none → t.boot.state = bsVerifying

theorem Blk.Restarts.of_serves {b c t : Blk} {x : Option Image} (h : b.Restarts c x) (hs : c.serves t) : b.Restarts t x := by
  obtain ⟨fresh, jig, retained, verifies⟩ := h
  rw [← hs.boot] at jig retained verifies
  exact ⟨fresh.of_serves hs, jig, retained, verifies⟩

theorem Blk.restarts_deviceReset (b : Blk) (newDownload : Bool) :
    b.Restarts (b.deviceReset newDownload false) (if newDownload then none else b.retains) := by
  obtain ⟨x, run, hx⟩ := b.deviceReset_eq newDownload false
  have bare := b.bare_withdrawn
  have fresh := b.fresh_deviceReset newDownload false
  rw [run] at fresh ⊢
  generalize b.withdrawn = c at *
  obtain ⟨-, -, -, jig⟩ := Boot.mp_again bare false x
  refine ⟨fresh, jig, ?_, fun h => ?_⟩
  · rw [← hx]
    cases x
    · exact congrArg (Option.map Prod.fst) bare.retained
    · rfl
  · cases x
    · exact absurd hx.symm h
    · rfl

theorem Blk.jigged_deviceReset (b : Blk) (newDownload : Bool) : (b.deviceReset newDownload true).boot.jig = true := by
  obtain ⟨x, run, -⟩ := b.deviceReset_eq newDownload true
  rw [run]
  generalize b.withdrawn = c
  rfl

/-- An answer that was given outlasts a reset of the device (R461). -/
theorem Blk.answered_deviceReset {b : Blk} {v : Transport} {cmd : Nat} {tag : W32} {status : Nat}
    (h : b.answered v cmd tag status []) (newDownload jig : Bool) :
    (b.deviceReset newDownload jig).answered v cmd tag status [] := by
  obtain ⟨x, run, -⟩ := b.deviceReset_eq newDownload jig
  have sent := b.out_withdrawn
  have box : ∀ k, (b.mss.mbx.get {} k).st = .done → b.withdrawn.mss.mbx.get {} k = b.mss.mbx.get {} k :=
    fun _ => b.mbx_withdrawn
  rw [run]
  generalize b.withdrawn = c at *
  unfold Blk.answered at h ⊢
  cases v with
  | mailbox k =>
    obtain ⟨st, left, resp⟩ := h
    have same : (c.setBoot (·.again jig x)).mss.mbx.get {} k.val = b.mss.mbx.get {} k.val := box k.val st
    dsimp only
    rw [same]
    exact ⟨st, left, resp⟩
  | _ => exact sent _ h


section Scopes
variable {b : Blk} {v : Transport} {tag : W32} {body : List Byte}

theorem Blk.resetFunction_accepted (h : b.Accepts 0 v tag body) :
    ((b.resetFunction v tag body).fn (bodyPort body).val (leAt body 2 1 == 1)).flr = true := by
  unfold Blk.resetFunction
  rw [(Blk.serves_mssReset h).flr]
  exact Blk.flr_flr _ _ _

theorem Blk.resetPort_accepted (h : b.Accepts 1 v tag body) :
    ((b.resetPort v tag body).port (bodyPort body).val).linkUp = false ∧
      ((b.resetPort v tag body).port (bodyPort body).val).perst = (b.port (bodyPort body).val).perst := by
  obtain ⟨down, pin⟩ := (b.recorded v body).perstLike_port (bodyPort body)
  unfold Blk.resetPort
  rw [(Blk.serves_mssReset h).linkUp, (Blk.serves_mssReset h).perst]
  exact ⟨down, pin.trans ((b.serves_recorded v body).perst _)⟩

/-- What a RESET of a half leaves of start-up, by the points that the halves hold (R22, R23, R98, R491). -/
structure Blk.HalfReset (b t : Blk) (h : Half) : Prop where
  held : b.boot.state = bsActivating → t.boot.heldReset = b.boot.heldReset ++ [h.code] ∧ t.mp .west = b.mp .west ∧
    t.mp .east = b.mp .east
  device : b.boot.state ≠ bsActivating → b.mp h.other = 0 → b.Restarts t b.retains
  half : b.boot.state ≠ bsActivating → b.mp h.other ≠ 0 → t.mp h = 0 ∧ t.mp h.other = b.mp h.other ∧
    (b.mp h ≠ 0 → t.boot.state = bsRecovery) ∧ h.code ∉ t.boot.shutOut

theorem Blk.HalfReset.of_serves {b c t : Blk} {h : Half} (hc : b.HalfReset c h) (hs : c.serves t) : b.HalfReset t h := by
  obtain ⟨held, device, half⟩ := hc
  rw [← hs.boot, ← hs.mp, ← hs.mp] at held
  refine ⟨held, fun ha ho => (device ha ho).of_serves hs, fun ha ho => ?_⟩
  rw [hs.mp, hs.mp, hs.boot]
  exact half ha ho

theorem Blk.halfReset_shutIn {b c : Blk} (hc : b.serves c) (h : Half) : b.HalfReset ((c.shutIn h).resetHalf h) h := by
  have boot : (c.shutIn h).boot = b.boot.shut (b.boot.shutOut.filter (· != h.code)) := by rw [c.boot_shutIn h, hc.boot]
  have state : (c.shutIn h).boot.state = b.boot.state := by rw [boot]; rfl
  have waiting : (c.shutIn h).boot.heldReset = b.boot.heldReset := by rw [boot]; rfl
  have may : h.code ∉ (c.shutIn h).boot.shutOut := by rw [boot]; simp [Boot.shut]
  have set : (c.shutIn h).mss.set = b.mss.set := hc.set
  have mp := Blk.mp_of_shut boot
  have retains := Blk.retains_of_shut boot
  generalize c.shutIn h = d at *
  refine ⟨fun ha => ?_, fun ha ho => ?_, fun ha ho => ?_⟩
  · rw [Blk.resetHalf_held (state.trans ha)]
    exact ⟨congrArg (· ++ [h.code]) waiting, mp .west, mp .east⟩
  · rw [Blk.resetHalf_device (state ▸ ha) ((mp _).trans ho)]
    obtain ⟨fresh, jig, retained, verifies⟩ := d.restarts_deviceReset false
    rw [← retains]
    exact ⟨fresh.of_set set, jig, retained, verifies⟩
  · by_cases hm : b.mp h = 0
    · rw [Blk.resetHalf_down (state ▸ ha) (mp h.other ▸ ho) ((mp h).trans hm)]
      exact ⟨(mp h).trans hm, mp _, fun h => absurd hm h, may⟩
    · rw [Blk.resetHalf_up (state ▸ ha) (mp h.other ▸ ho) (mp h ▸ hm)]
      have left := Blk.boot_halfReset d h
      obtain ⟨own, other⟩ := Blk.mp_withdraw left
      exact ⟨own, other.trans (mp _), fun _ => congrArg Boot.state left, left ▸ may⟩

theorem Blk.resetHalf_accepted (h : b.Accepts 2 v tag body) :
    b.HalfReset (b.resetHalfMss v tag body) (Half.ofBit (leAt body 2 1)) := by
  unfold Blk.resetHalfMss
  extract_lets half
  exact (Blk.halfReset_shutIn (b.serves_recorded v body) half).of_serves
    (Blk.serves_mssReset (f := fun b => ((b.shutIn half).resetHalf half, some (.half half))) h)

/-- The answer of a RESET of the device is written as it is accepted (R461). -/
def Blk.accepted (b : Blk) (v : Transport) (tag : W32) (body : List Byte) : Blk :=
  (b.recorded v body).mssReply v 0x0020 tag 0 []

theorem Blk.serves_accepted (b : Blk) (v : Transport) (tag : W32) (body : List Byte) : b.serves (b.accepted v tag body) :=
  (b.serves_recorded v body).trans (Blk.serves_mssReply _ _ _ _ _ _)

/-- The Reel leaves the mailboxes. -/
theorem Blk.mbx_reel (b : Blk) (type origin : Nat) (fields : List Nat) : (b.reel type origin fields).mss.mbx = b.mss.mbx := by
  unfold Blk.reel Blk.reelRaw
  dsimp only
  split <;> rfl

theorem Blk.answered_accepted (h : b.Accepts 3 v tag body) : (b.accepted v tag body).answered v 0x0020 tag 0 [] := by
  refine Blk.answered_mssReply (fun k hk => ?_) _ _ _ _
  have same : (b.recorded v body).mss.mbx = (b.restGone v).mss.mbx := Blk.mbx_reel _ _ _ _
  rw [same]
  exact Blk.awaits_restGone h.opened k hk

theorem Blk.resetDevice_accepted (h : b.Accepts 3 v tag body) (pin : Bool) : b.resetDevice v tag body pin =
    (b.accepted v tag body).deviceReset (leAt body 3 1 % 2 == 1) (decide (2 ≤ leAt body 3 1) || pin) := by
  have ran := Blk.mssReset_accepted (f := fun b => (b, none)) h
  obtain ⟨opened, length, scope, may, operands⟩ := h
  unfold Blk.resetDevice
  extract_lets flags ok b1
  have goes : ok = true := by simp [ok, opened, length, scope, may, operands]
  have same : b1 = b.accepted v tag body := ran
  rw [goes, same]
  rfl

/-- One that is not accepted, and refused or not served, ends there. -/
theorem Blk.resetDevice_ends (pin : Bool) (h : ¬ b.Accepts 3 v tag body) :
    b.resetDevice v tag body pin = b.mssReset 3 v tag body (fun b => (b, none)) := by
  unfold Blk.resetDevice
  extract_lets flags ok b1
  have stays : ok ≠ true := by
    intro hk
    simp only [ok, Bool.and_eq_true, beq_iff_eq] at hk
    obtain ⟨⟨⟨⟨opened, scope⟩, length⟩, may⟩, operands⟩ := hk
    exact h ⟨opened, length, scope, may, operands⟩
  exact if_neg stays

end Scopes

/-! Power (R47, R463). -/

theorem Blk.mssPlain_done {b : Blk} {v : Transport} {cmd : Nat} {tag : W32} {allowed : Bool} {f : Blk → Blk × MssAns}
    (ho : b.mssOpen v cmd tag [] = true) (ha : allowed = true) : b.mssPlain v cmd tag [] allowed f =
      (f (b.restGone v)).1.mssReply v cmd tag (f (b.restGone v)).2.1 (f (b.restGone v)).2.2 :=
  Blk.mssServe_done ho ha rfl rfl

theorem Blk.mssPowerOff_on {b : Blk} {v : Transport} {tag : W32} (ho : b.mssOpen v 0x0021 tag [] = true)
    (ha : (b.rank v).owns = true) (hp : b.mss.powered = true) :
    (b.restGone v).powerDown.serves (b.mssPowerOff v tag []) := by
  have on : (b.restGone v).mss.powered = true := (b.serves_restGone v).powered.trans hp
  unfold Blk.mssPowerOff
  rw [Blk.mssPlain_done ho ha]
  simp only [Blk.powerOff, on, if_true]
  exact (Blk.serves_reel _ _ _ _).trans (Blk.serves_mssReply _ _ _ _ _ _)

theorem Blk.mssPowerOff_off {b : Blk} {v : Transport} {tag : W32} (ho : b.mssOpen v 0x0021 tag [] = true)
    (ha : (b.rank v).owns = true) (hp : b.mss.powered = false) :
    b.OnlyAnswered (b.mssPowerOff v tag []) v 0x0021 tag 0 := by
  have off : (b.restGone v).mss.powered = false := (b.serves_restGone v).powered.trans hp
  unfold Blk.mssPowerOff
  rw [Blk.mssPlain_done ho ha]
  simp only [Blk.powerOff, off, Bool.false_eq_true, if_false]
  exact Blk.onlyAnswered_mssReply ho 0

/-- Sensors too hot for power show in the sensors alone (R463). -/
theorem Blk.tooHot_of_sens {b c : Blk} (h : c.mss.sens = b.mss.sens) : c.tooHot = b.tooHot := by
  unfold Blk.tooHot
  rw [h]

/-- The domains at nominal supply (R47). -/
theorem supplyMv_railsUp (l : List Nat) (t : Tab SpdDom) {d : Nat}
    (h : d ∈ l ∨ (t.get {} d).supplyMv = BitVec.ofNat 12 (Config.nominalMv d)) :
    ((l.foldl (fun t d => t.upd {} d (fun x => { x with supplyMv := BitVec.ofNat 12 (Config.nominalMv d) })) t).get {} d).supplyMv
      = BitVec.ofNat 12 (Config.nominalMv d) := by
  induction l generalizing t with
  | nil =>
    obtain h | h := h
    · cases h
    · exact h
  | cons x l ih =>
    refine ih _ ?_
    by_cases hx : d = x
    · rw [hx, Tab.get_upd_same]
      exact .inr rfl
    · rw [Tab.get_upd_other _ _ _ hx]
      exact h.imp_left (fun hm => (List.mem_cons.1 hm).resolve_left hx)

/-- What POWER_ON leaves. -/
structure Blk.Powered (t : Blk) : Prop where
  powered : t.mss.powered = true
  clock : t.clk.on = true
  trip : t.elec.thermTrip = false
  supply : ∀ d < 8, (t.spd.doms.get {} d).supplyMv = BitVec.ofNat 12 (Config.nominalMv d)

theorem Blk.powered_railsUp {b : Blk} (h : b.elec.thermTrip = false) : b.railsUp.Powered :=
  ⟨rfl, rfl, h, fun _ hd => supplyMv_railsUp _ _ (.inl (List.mem_range.2 hd))⟩

theorem Blk.Powered.of_serves {b c : Blk} (h : b.Powered) (hs : b.serves c) : c.Powered := by
  obtain ⟨powered, clock, trip, supply⟩ := h
  rw [← hs.powered] at powered
  rw [← hs.clk] at clock
  rw [← hs.elec] at trip
  rw [← hs.spd] at supply
  exact ⟨powered, clock, trip, supply⟩

theorem Blk.powerOn_off {b : Blk} (hp : b.mss.powered = false) (hh : b.tooHot = false) :
    ∃ d : Blk, b.powerOn = .ok d ∧ d.Powered ∧ d.mss.mbx = b.mss.mbx := by
  unfold Blk.powerOn
  rw [hp, hh]
  extract_lets mss elec b1
  have up : b1.railsUp.Powered := Blk.powered_railsUp rfl
  exact ⟨b1.railsUp.reel 0x0010 0 [1], rfl, up.of_serves (Blk.serves_reel _ _ _ _), Blk.mbx_reel _ _ _ _⟩

theorem Blk.mssPowerOn_off {b : Blk} {v : Transport} {tag : W32} (ho : b.mssOpen v 0x0022 tag [] = true)
    (ha : b.rank v = .platform) (hp : b.mss.powered = false) (hh : b.tooHot = false) :
    (b.mssPowerOn v tag []).Powered ∧ (b.mssPowerOn v tag []).answered v 0x0022 tag 0 [] := by
  have off : (b.restGone v).mss.powered = false := (b.serves_restGone v).powered.trans hp
  have cold : (b.restGone v).tooHot = false := (Blk.tooHot_of_sens (b.serves_restGone v).sens).trans hh
  obtain ⟨d, on, powered, mbx⟩ := Blk.powerOn_off off cold
  unfold Blk.mssPowerOn
  rw [Blk.mssPlain_done ho (by simp [ha])]
  simp only [on]
  refine ⟨powered.of_serves (Blk.serves_mssReply _ _ _ _ _ _), Blk.answered_mssReply (fun k hk => ?_) _ _ _ _⟩
  rw [mbx]
  exact Blk.awaits_restGone ho k hk

theorem Blk.mssPowerOn_refused {b : Blk} {v : Transport} {tag : W32} (ho : b.mssOpen v 0x0022 tag [] = true)
    (ha : b.rank v = .platform) (h : b.mss.powered = true ∨ b.tooHot = true) :
    b.OnlyAnswered (b.mssPowerOn v tag []) v 0x0022 tag 0x0501 := by
  have refused : (b.restGone v).powerOn = .error 0x0501 := by
    have on := (b.serves_restGone v).powered
    have hot := Blk.tooHot_of_sens (b.serves_restGone v).sens
    unfold Blk.powerOn
    rw [on, hot]
    obtain h | h := h
    · rw [if_pos h]
    · rw [if_pos h]
      split <;> rfl
  unfold Blk.mssPowerOn
  rw [Blk.mssPlain_done ho (by simp [ha])]
  simp only [refused]
  exact Blk.onlyAnswered_mssReply ho _

/-! JIG (R99). -/

section Jig
variable {b : Blk} {enter : Bool} {v : Transport} {tag : W32} {body : List Byte}

/-- What a JIG request serves, before the reset that may follow. -/
def Blk.jigServed (b : Blk) (v : Transport) (tag : W32) (body : List Byte) : Blk :=
  b.mssServe v 0x0023 tag body (b.rank v == .platform) (body.length == 1) (decide (leAt body 0 1 ≤ 1)) (fun b => (b, 0, []))

/-- A JIG request that is not accepted is refused, or not served, and that is all. -/
theorem Blk.mssJig_ends (hs : body.length ≠ 1 ∨ leAt body 0 1 = (if enter then 1 else 0) ∨ 1 < leAt body 0 1)
    (h : b.mssOpen v 0x0023 tag body = true → b.rank v = .platform → body.length = 1 → leAt body 0 1 ≤ 1 → False) :
    b.mssJig enter v tag body = b.jigServed v tag body := by
  unfold Blk.mssJig
  extract_lets ok b1
  have stays : ok ≠ true := by
    intro hk
    simp only [ok, Bool.and_eq_true, beq_iff_eq, decide_eq_true_eq] at hk
    obtain ⟨⟨⟨opened, rank⟩, length⟩, operand⟩ := hk
    exact h opened rank length operand
  rw [if_neg (by omega), if_neg stays]
  rfl

theorem Blk.mssJig_closed (ho : ¬ b.mssOpen v 0x0023 tag body = true) : b.mssJig enter v tag body = b := by
  unfold Blk.mssJig
  extract_lets ok b1
  have stays : ok = false := by simp [ok, ho]
  have same : b1 = b := Blk.mssServe_closed ho
  rw [stays, same, if_neg Bool.false_ne_true, ite_self]

theorem Blk.jigServed_done (ho : b.mssOpen v 0x0023 tag body = true) (ha : b.rank v = .platform) (hl : body.length = 1)
    (hp : leAt body 0 1 ≤ 1) : b.OnlyAnswered (b.jigServed v tag body) v 0x0023 tag 0 := by
  unfold Blk.jigServed
  rw [Blk.mssServe_done ho (by simp [ha]) (by simp [hl]) (by simp [hp])]
  exact Blk.onlyAnswered_mssReply ho 0

theorem Blk.mssJig_done (ho : b.mssOpen v 0x0023 tag body = true) (ha : b.rank v = .platform) (hl : body.length = 1)
    (hp : leAt body 0 1 = if enter then 1 else 0) : b.mssJig enter v tag body =
      if enter then (b.jigServed v tag body).deviceReset false true
      else if (b.jigServed v tag body).boot.jig then (b.jigServed v tag body).deviceReset false false
      else b.jigServed v tag body := by
  have small : leAt body 0 1 ≤ 1 := by rw [hp]; split <;> omega
  unfold Blk.mssJig
  extract_lets ok b1
  have goes : ok = true := by simp [ok, ho, ha, hl, small]
  rw [if_neg (fun h => h.2.2 hp), goes]
  rfl

end Jig

/-! ACTIVATE (R97). -/

theorem Blk.activateAns_ok {b c : Blk} (h : b.activate = .ok c) : b.activateAns = (c, 0, []) := by
  unfold Blk.activateAns
  rw [h]

theorem Blk.activateAns_error {b : Blk} {r : Nat} (h : b.activate = .error r) : b.activateAns = (b, r, []) := by
  unfold Blk.activateAns
  rw [h]

theorem Blk.mss_activate {b c : Blk} (h : b.activate = .ok c) : c.mss = b.mss := by
  unfold Blk.activate at h
  repeat' split at h
  all_goals cases h
  rfl

theorem Blk.activate_accepted {b c : Blk} {v : Transport} {tag : W32} (ho : b.mssOpen v 0x0080 tag [] = true)
    (ha : (b.rank v).owns = true) (hc : (b.restGone v).activate = .ok c) :
    c.OnlyAnswered (b.mssPlain v 0x0080 tag [] (b.rank v).owns Blk.activateAns) v 0x0080 tag 0 := by
  rw [Blk.mssPlain_done ho ha, Blk.activateAns_ok hc]
  refine ⟨Blk.serves_mssReply _ _ _ _ _ _, Blk.answered_mssReply (fun k hk => ?_) _ _ _ _⟩
  rw [Blk.mss_activate hc]
  exact Blk.awaits_restGone ho k hk

theorem Blk.activate_refused {b : Blk} {v : Transport} {tag : W32} {r : Nat} (ho : b.mssOpen v 0x0080 tag [] = true)
    (ha : (b.rank v).owns = true) (hc : (b.restGone v).activate = .error r) :
    b.OnlyAnswered (b.mssPlain v 0x0080 tag [] (b.rank v).owns Blk.activateAns) v 0x0080 tag r := by
  rw [Blk.mssPlain_done ho ha, Blk.activateAns_error hc]
  exact Blk.onlyAnswered_mssReply ho r

/-! The clauses. -/

/-- A RESET of a scope that is refused, or not served: what the statement says of each of its four rows. -/
structure Blk.RefusesReset (b d : Blk) (scope : Nat) (v : Transport) (tag : W32) (body : List Byte) : Prop where
  closed : ¬ b.mssOpen v 0x0020 tag body = true → d = b
  refused : b.mssOpen v 0x0020 tag body = true → (body.length ≠ 4 ∨ leAt body 0 1 = scope ∨ 3 < leAt body 0 1) →
    (b.mayReset v body = false → b.OnlyAnswered d v 0x0020 tag 0x0202) ∧
    (b.mayReset v body = true → body.length ≠ 4 → b.OnlyAnswered d v 0x0020 tag 0x0103) ∧
    (b.mayReset v body = true → body.length = 4 → resetOperandsOk body = false → b.OnlyAnswered d v 0x0020 tag 0x0124)

theorem Blk.refusesReset_mssReset (b : Blk) (scope : Nat) (v : Transport) (tag : W32) (body : List Byte)
    (f : Blk → Blk × Option ResetKey) : b.RefusesReset (b.mssReset scope v tag body f) scope v tag body := by
  refine ⟨Blk.mssReset_closed, fun ho hs => ?_⟩
  obtain ⟨authority, length, operands⟩ := Blk.mssReset_refuses (f := f) ho hs
  exact ⟨authority, fun ha hl => length ha (by simp [hl]), fun ha hl => operands ha (by simp [hl])⟩

theorem Blk.refusesReset_device (b : Blk) (v : Transport) (tag : W32) (body : List Byte) (pin : Bool) :
    b.RefusesReset (b.resetDevice v tag body pin) 3 v tag body := by
  obtain ⟨closed, refused⟩ := b.refusesReset_mssReset 3 v tag body (fun b => (b, none))
  refine ⟨fun ho => ?_, fun ho hs => ⟨fun ha => ?_, fun ha hl => ?_, fun ha hl hp => ?_⟩⟩
  · rw [Blk.resetDevice_ends pin (fun h => ho h.opened)]
    exact closed ho
  · rw [Blk.resetDevice_ends pin (fun h => by simp [h.may] at ha)]
    exact (refused ho hs).1 ha
  · rw [Blk.resetDevice_ends pin (fun h => hl h.length)]
    exact (refused ho hs).2.1 ha hl
  · rw [Blk.resetDevice_ends pin (fun h => by simp [h.operands] at hp)]
    exact (refused ho hs).2.2 ha hl hp

theorem Blk.refusesReset_half (b : Blk) (v : Transport) (tag : W32) (body : List Byte) :
    b.RefusesReset (b.resetHalfMss v tag body) 2 v tag body :=
  b.refusesReset_mssReset 2 v tag body (fun b =>
    ((b.shutIn (Half.ofBit (leAt body 2 1))).resetHalf (Half.ofBit (leAt body 2 1)), some (.half (Half.ofBit (leAt body 2 1)))))

theorem Blk.Restarts.of_served {b c t : Blk} {x : Option Image} (h : c.Restarts t x) (hs : b.serves c) : b.Restarts t x :=
  ⟨h.fresh.of_set hs.set, h.jig, h.retained, h.verifies⟩

/-- RESET of the device without Jig mode (R22, R94, R461). -/
theorem Blk.resetDevice_restarts {b : Blk} {v : Transport} {tag : W32} {body : List Byte} (h : b.Accepts 3 v tag body)
    (hf : leAt body 3 1 < 2) : b.Restarts (b.resetDevice v tag body false) (if leAt body 3 1 = 1 then none else b.retains) ∧
      (b.resetDevice v tag body false).answered v 0x0020 tag 0 [] := by
  have calm : (decide (2 ≤ leAt body 3 1) || false) = false := by simpa using hf
  have fresh : (leAt body 3 1 % 2 == 1) = decide (leAt body 3 1 = 1) := by
    rw [Nat.mod_eq_of_lt hf]
    rfl
  have restarts := ((b.accepted v tag body).restarts_deviceReset (leAt body 3 1 % 2 == 1)).of_served
    (b.serves_accepted v tag body)
  rw [Blk.resetDevice_accepted h, calm]
  refine ⟨?_, Blk.answered_deviceReset (Blk.answered_accepted h) _ _⟩
  rw [Blk.retains_of_boot (b.serves_accepted v tag body).boot, fresh] at restarts
  rw [fresh]
  simpa using restarts

/-- RESET of the device into Jig mode (R99, R461). -/
theorem Blk.resetDevice_jigs {b : Blk} {v : Transport} {tag : W32} {body : List Byte} {pin : Bool} (h : b.Accepts 3 v tag body)
    (hf : 2 ≤ leAt body 3 1 ∨ pin = true) : b.Fresh (b.resetDevice v tag body pin) ∧
      (b.resetDevice v tag body pin).boot.jig = true ∧ (b.resetDevice v tag body pin).answered v 0x0020 tag 0 [] := by
  have jigs : (decide (2 ≤ leAt body 3 1) || pin) = true := by simpa using hf
  rw [Blk.resetDevice_accepted h, jigs]
  exact ⟨(Blk.fresh_deviceReset _ _ _).of_set (b.serves_accepted v tag body).set, Blk.jigged_deviceReset _ _,
    Blk.answered_deviceReset (Blk.answered_accepted h) _ _⟩

/-- With its power removed the part holds no point and no image (R463). -/
theorem Blk.powerDown_leaves (b : Blk) : b.powerDown.mss.powered = false ∧ b.powerDown.boot.image = none ∧
    b.powerDown.mp .west = 0 ∧ b.powerDown.mp .east = 0 := ⟨rfl, rfl, rfl, rfl⟩

/-- The refusals of JIG. -/
theorem Blk.mssJig_refuses {b : Blk} {enter : Bool} {v : Transport} {tag : W32} {body : List Byte}
    (ho : b.mssOpen v 0x0023 tag body = true)
    (hs : body.length ≠ 1 ∨ leAt body 0 1 = (if enter then 1 else 0) ∨ 1 < leAt body 0 1) :
    (b.rank v ≠ .platform → b.OnlyAnswered (b.mssJig enter v tag body) v 0x0023 tag 0x0202) ∧
    (b.rank v = .platform → body.length ≠ 1 → b.OnlyAnswered (b.mssJig enter v tag body) v 0x0023 tag 0x0103) ∧
    (b.rank v = .platform → body.length = 1 → 1 < leAt body 0 1 →
      b.OnlyAnswered (b.mssJig enter v tag body) v 0x0023 tag 0x0124) := by
  obtain ⟨authority, length, operands⟩ := Blk.mssServe_refuses (allowed := b.rank v == .platform)
    (lengthOk := body.length == 1) (operandsOk := decide (leAt body 0 1 ≤ 1)) (f := fun b => (b, 0, [])) ho
  refine ⟨fun ha => ?_, fun ha hl => ?_, fun ha hl hp => ?_⟩
  · rw [Blk.mssJig_ends hs (fun _ h _ _ => ha h)]
    exact authority (by simp [ha])
  · rw [Blk.mssJig_ends hs (fun _ _ h _ => hl h)]
    exact length (by simp [ha]) (by simp [hl])
  · rw [Blk.mssJig_ends hs (fun _ _ _ h => Nat.not_le.2 hp h)]
    exact operands (by simp [ha]) (by simp [hl]) (by simp [hp])

/-- JIG with operand 1 (R99). -/
theorem Blk.mssJig_enters {b : Blk} {v : Transport} {tag : W32} (ho : b.mssOpen v 0x0023 tag [1] = true)
    (ha : b.rank v = .platform) : b.Fresh (b.mssJig true v tag [1]) ∧ (b.mssJig true v tag [1]).boot.jig = true ∧
      (b.mssJig true v tag [1]).answered v 0x0023 tag 0 [] := by
  obtain ⟨serves, answered⟩ := Blk.jigServed_done ho ha rfl (by decide)
  rw [Blk.mssJig_done ho ha rfl (by decide), if_pos rfl]
  exact ⟨(Blk.fresh_deviceReset _ _ _).of_set serves.set, Blk.jigged_deviceReset _ _, Blk.answered_deviceReset answered _ _⟩

/-- JIG with operand 0 (R99). -/
theorem Blk.mssJig_leaves {b : Blk} {v : Transport} {tag : W32} (ho : b.mssOpen v 0x0023 tag [0] = true)
    (ha : b.rank v = .platform) (hj : b.boot.jig = true) : b.Restarts (b.mssJig false v tag [0]) b.retains ∧
      (b.mssJig false v tag [0]).answered v 0x0023 tag 0 [] := by
  obtain ⟨serves, answered⟩ := Blk.jigServed_done ho ha rfl (by decide)
  have jig : (b.jigServed v tag [0]).boot.jig = true := by rw [serves.boot, hj]
  rw [Blk.mssJig_done ho ha rfl (by decide), if_neg Bool.false_ne_true, if_pos jig]
  refine ⟨?_, Blk.answered_deviceReset answered _ _⟩
  have restarts := ((b.jigServed v tag [0]).restarts_deviceReset false).of_served serves
  rw [Blk.retains_of_boot serves.boot] at restarts
  exact restarts

theorem Blk.mssJig_stays {b : Blk} {v : Transport} {tag : W32} (ho : b.mssOpen v 0x0023 tag [0] = true)
    (ha : b.rank v = .platform) (hj : b.boot.jig = false) : b.OnlyAnswered (b.mssJig false v tag [0]) v 0x0023 tag 0 := by
  have done := Blk.jigServed_done ho ha rfl (by decide)
  have jig : ¬ (b.jigServed v tag [0]).boot.jig = true := by rw [done.serves.boot, hj]; exact Bool.false_ne_true
  rw [Blk.mssJig_done ho ha rfl (by decide), if_neg Bool.false_ne_true, if_neg jig]
  exact done

/-- A command that is answered with a status, start-up as it stood. -/
def State.Refuses (s : State) (i : Instr) (v : Transport) (cmd : Nat) (tag : W32) (status : Nat) : Prop :=
  ∃ t, exec i s = .next t ∧ t.blk.answered v cmd tag status [] ∧ t.blk.boot = s.blk.boot

theorem State.refuses_of {s : State} {i : Instr} {d : Blk} {v : Transport} {cmd : Nat} {tag : W32} {status : Nat}
    (run : exec i s = .next { s with blk := d }) (h : s.blk.OnlyAnswered d v cmd tag status) : s.Refuses i v cmd tag status :=
  ⟨_, run, h.answered, h.serves.boot⟩

/-- The refusals of a row of RESET. -/
theorem State.reset_row {s : State} {i : Instr} {d : Blk} {k : Nat} {v : Transport} {tag : W32} {body : List Byte}
    (run : exec i s = .next { s with blk := d }) (hd : s.blk.RefusesReset d k v tag body) :
    (¬ s.blk.mssOpen v 0x0020 tag body = true → exec i s = .next s) ∧
    (s.blk.mssOpen v 0x0020 tag body = true → body.length ≠ 4 ∨ leAt body 0 1 = k ∨ 3 < leAt body 0 1 →
      (s.blk.mayReset v body = false → s.Refuses i v 0x0020 tag 0x0202) ∧
      (s.blk.mayReset v body = true → body.length ≠ 4 → s.Refuses i v 0x0020 tag 0x0103) ∧
      (s.blk.mayReset v body = true → body.length = 4 → resetOperandsOk body = false →
        s.Refuses i v 0x0020 tag 0x0124)) := by
  refine ⟨fun ho => by rw [run, hd.closed ho], fun ho hs => ?_⟩
  obtain ⟨authority, length, operands⟩ := hd.refused ho hs
  exact ⟨fun ha => State.refuses_of run (authority ha), fun ha hl => State.refuses_of run (length ha hl),
    fun ha hl hp => State.refuses_of run (operands ha hl hp)⟩

/-- The refusals of a row of JIG. -/
theorem State.jig_row {s : State} {i : Instr} {enter : Bool} {v : Transport} {tag : W32} {body : List Byte}
    (run : exec i s = .next { s with blk := s.blk.mssJig enter v tag body }) :
    (¬ s.blk.mssOpen v 0x0023 tag body = true → exec i s = .next s) ∧
    (s.blk.mssOpen v 0x0023 tag body = true →
      body.length ≠ 1 ∨ leAt body 0 1 = (if enter then 1 else 0) ∨ 1 < leAt body 0 1 →
      (s.blk.rank v ≠ .platform → s.Refuses i v 0x0023 tag 0x0202) ∧
      (s.blk.rank v = .platform → body.length ≠ 1 → s.Refuses i v 0x0023 tag 0x0103) ∧
      (s.blk.rank v = .platform → body.length = 1 → 1 < leAt body 0 1 → s.Refuses i v 0x0023 tag 0x0124)) := by
  refine ⟨fun ho => by rw [run, Blk.mssJig_closed ho], fun ho hs => ?_⟩
  obtain ⟨authority, length, operands⟩ := Blk.mssJig_refuses ho hs
  exact ⟨fun ha => State.refuses_of run (authority ha), fun ha hl => State.refuses_of run (length ha hl),
    fun ha hl hp => State.refuses_of run (operands ha hl hp)⟩

/-- Settles O51: each request is served or refused by its row's rule, and the effect outlasts the answer. -/
theorem mssResetsAndPower : Obligations.MssResetsAndPower := by
  unfold Obligations.MssResetsAndPower
  intro s v tag body pin c r b opened owner platform gives b0 scope port half flags reset fresh restarts jigged
  have accepts : ∀ {k}, reset k → b.Accepts k v tag body :=
    fun ⟨ho, hl, hk, hm, hp⟩ => ⟨ho, hl, hk, hm, hp⟩
  have toFresh : ∀ {t : Blk}, b.Fresh t → fresh t := fun h => ⟨h.threads, h.live, h.west, h.east, h.image, h.set⟩
  have toRestarts : ∀ {t : Blk} {x : Option Image}, b.Restarts t x → restarts t x :=
    fun h => ⟨toFresh h.fresh, h.jig, h.retained, h.verifies⟩
  refine ⟨?_, fun h => ?_, fun h => ?_, fun h => ⟨fun ha => ?_, fun ha ho => ?_, fun ha ho => ?_⟩, fun h hf => ?_,
    fun h hf => ?_, fun ho hb ha => ⟨fun hp => ?_, fun hp => ?_⟩, fun ho hb ha => ⟨fun hp hh => ?_, fun hp => ?_⟩, ?_, fun ho hb ha => ?_,
    fun ho hb ha => ⟨fun hj => ?_, fun hj => ?_⟩, fun ho hb ha => ⟨fun hc => ?_, fun hc => ?_⟩⟩
  · intro e he
    simp only [List.mem_cons, List.not_mem_nil, or_false] at he
    obtain rfl | rfl | rfl | rfl := he
    · exact State.reset_row (exec_resetFunction s v tag body) (b.refusesReset_mssReset 0 v tag body _)
    · exact State.reset_row (exec_resetPort s v tag body) (b.refusesReset_mssReset 1 v tag body _)
    · exact State.reset_row (exec_resetHalf s v tag body) (b.refusesReset_half v tag body)
    · exact State.reset_row (exec_resetDevice s v tag body pin) (b.refusesReset_device v tag body pin)
  · exact ⟨_, exec_resetFunction s v tag body, Blk.resetFunction_accepted (accepts h)⟩
  · exact ⟨_, exec_resetPort s v tag body, Blk.resetPort_accepted (accepts h)⟩
  · exact ⟨_, exec_resetHalf s v tag body, (Blk.resetHalf_accepted (accepts h)).held ha⟩
  · exact ⟨_, exec_resetHalf s v tag body, toRestarts ((Blk.resetHalf_accepted (accepts h)).device ha ho)⟩
  · exact ⟨_, exec_resetHalf s v tag body, (Blk.resetHalf_accepted (accepts h)).half ha ho⟩
  · obtain ⟨again, answered⟩ := Blk.resetDevice_restarts (accepts h) hf
    exact ⟨_, exec_resetDevice s v tag body false, toRestarts again, answered⟩
  · obtain ⟨bare, jig, answered⟩ := Blk.resetDevice_jigs (accepts h) hf
    exact ⟨_, exec_resetDevice s v tag body pin, ⟨toFresh bare, jig⟩, answered⟩
  · subst hb
    have serves := Blk.mssPowerOff_on ho ha hp
    obtain ⟨powered, image, west, east⟩ := (b.restGone v).powerDown_leaves
    exact ⟨_, exec_powerOff s v tag [], serves.powered.trans powered, (congrArg Boot.image serves.boot).trans image,
      (serves.mp .west).trans west, (serves.mp .east).trans east⟩
  · subst hb
    obtain ⟨serves, answered⟩ := Blk.mssPowerOff_off ho ha hp
    exact ⟨_, exec_powerOff s v tag [], serves.powered.trans hp, serves.boot, answered⟩
  · subst hb
    obtain ⟨powered, answered⟩ := Blk.mssPowerOn_off ho ha hp hh
    exact ⟨_, exec_powerOn s v tag [], powered.powered, powered.clock, powered.trip, answered, powered.supply⟩
  · subst hb
    obtain ⟨serves, answered⟩ := Blk.mssPowerOn_refused ho ha hp
    exact ⟨_, exec_powerOn s v tag [], serves.powered, answered⟩
  · intro e he
    simp only [List.mem_cons, List.not_mem_nil, or_false] at he
    obtain rfl | rfl := he
    · exact State.jig_row (enter := true) (exec_jigEnter s v tag body)
    · exact State.jig_row (enter := false) (exec_jigExit s v tag body)
  · subst hb
    obtain ⟨bare, jig, answered⟩ := Blk.mssJig_enters ho ha
    exact ⟨_, exec_jigEnter s v tag [1], ⟨toFresh bare, jig⟩, answered⟩
  · subst hb
    obtain ⟨again, answered⟩ := Blk.mssJig_leaves ho ha hj
    exact ⟨_, exec_jigExit s v tag [0], toRestarts again, answered⟩
  · subst hb
    obtain ⟨serves, answered⟩ := Blk.mssJig_stays ho ha hj
    exact ⟨_, exec_jigExit s v tag [0], serves.boot, answered⟩
  · subst hb
    obtain ⟨serves, answered⟩ := Blk.activate_accepted ho ha hc
    exact ⟨_, exec_activate s v tag [], serves.boot, answered⟩
  · subst hb
    obtain ⟨serves, answered⟩ := Blk.activate_refused ho ha hc
    exact ⟨_, exec_activate s v tag [], serves.boot, answered⟩

end Sys2Proof.Machine
end

section
/-! SUPPORT. Where packets are (`Blk.way`): what completions, events and PFC frames leave of it, and a drop's count. -/

namespace Sys2Proof.Machine
open Sys2Proof

/-- What decides a packet's way and where packets are: settings and time, the waiting packets, drops and entered packets of each
pipeline, the queues of the Hogsheads, the lanes, what comes from hosts, what the half-down interface counted, the engines'
queues. -/
structure Way where
  ctl : Ctl
  clk : Clock
  waits : Nat → List HbmWait
  drops : Nat → Tab Nat
  entered : Nat → Nat
  queues : List TmQueue
  crossing : List Crossing
  egress : List Egressing
  rx : Nat → List RxFrame
  launch : Nat → List Packet
  hostFrames : Tab (List HostFrame)
  halfDown : Tab Nat
  inWest : List Packet
  inEast : List Packet

def Blk.way (b : Blk) : Way :=
  { ctl := b.ctl, clk := b.clk, waits := fun p => (b.pipe p).waits, drops := fun p => (b.pipe p).drops,
    entered := fun p => (b.pipe p).counts.get 0 0, queues := b.hog.queues, crossing := b.hog.crossing, egress := b.hog.egress,
    rx := fun l => (b.lane l).rx, launch := fun l => (b.lane l).launch, hostFrames := b.hostFrames, halfDown := b.halfDown,
    inWest := b.rmt.inWest, inEast := b.rmt.inEast }

/-- No packet went on from `b` to `c`: its way and the work queues are as they were, and what was sent stays sent. -/
structure Blk.Beside (b c : Blk) : Prop where
  way : c.way = b.way
  wqs : c.wqs = b.wqs
  out : ∀ e ∈ b.out, e ∈ c.out

namespace Blk.Beside

theorem refl (b : Blk) : b.Beside b := ⟨rfl, rfl, fun _ he => he⟩

theorem trans {b c d : Blk} (h : b.Beside c) (h' : c.Beside d) : b.Beside d :=
  ⟨h'.way.trans h.way, h'.wqs.trans h.wqs, fun e he => h'.out e (h.out e he)⟩

theorem ite {b c d : Blk} {p : Prop} [Decidable p] (h : b.Beside c) (h' : b.Beside d) : b.Beside (if p then c else d) := by
  split
  · exact h
  · exact h'

theorem foldl {α : Type} {f : Blk → α → Blk} (h : ∀ (b : Blk) x, b.Beside (f b x)) (l : List α) (b : Blk) :
    b.Beside (l.foldl f b) := by
  induction l generalizing b with
  | nil => exact refl b
  | cons x l ih => exact (h b x).trans (ih _)

/-! Sending, and the updates of what lies beside. -/

theorem emit (b : Blk) (e : Emit) : b.Beside (b.emit e) := ⟨rfl, rfl, fun _ he => List.mem_cons_of_mem _ he⟩

theorem updPort (b : Blk) (h : Nat) (f : HostPort → HostPort) : b.Beside (b.updPort h f) := ⟨rfl, rfl, fun _ he => he⟩
theorem updFn (b : Blk) (h : Nat) (f1 : Bool) (f : Fn → Fn) : b.Beside (b.updFn h f1 f) := ⟨rfl, rfl, fun _ he => he⟩
theorem updInst (b : Blk) (i : Nat) (f : InstDyn → InstDyn) : b.Beside (b.updInst i f) := ⟨rfl, rfl, fun _ he => he⟩

theorem updEvq (b : Blk) (r : EqR) (f : EvQ → EvQ) : b.Beside (b.updEvq r f) := by
  cases r <;> exact ⟨rfl, rfl, fun _ he => he⟩

theorem updCqOf (b : Blk) (r : CqR) (f : Cq → Cq) : b.Beside (b.updCqOf r f) := by
  cases r <;> exact ⟨rfl, rfl, fun _ he => he⟩

theorem instWrite (b : Blk) (i writer va : Nat) (l : List Byte) : b.Beside (b.instWrite i writer va l) :=
  (emit b _).trans (updInst _ _ _)

/-! Events and interrupts. -/

theorem eqWrite (b : Blk) (r : EqR) (a : Nat) (l : List Byte) : b.Beside (b.eqWrite r a l) := by
  cases r with
  | f0 h => exact emit b (.bus h false a l)
  | inst i e => exact instWrite b _ _ _ _

theorem eqMirror (b : Blk) (r : EqR) : b.Beside (b.eqMirror r) := by
  cases r with
  | f0 h => exact ite (eqWrite b _ _ _) (refl b)
  | inst i e => exact ite (updEvq b (.inst i e) _) (eqWrite b _ _ _)

theorem eqPut (b : Blk) (r : EqR) (ev : Ev) (merged : Nat) : b.Beside (b.eqPut r ev merged) :=
  ((eqWrite b _ _ _).trans (updEvq _ _ _)).trans (eqMirror _ _)

theorem eqTake (b : Blk) (r : EqR) (ev : Ev) : b.Beside (b.eqTake r ev) :=
  ite (updEvq b _ _) (ite (updEvq b _ _) (ite (updEvq b _ _) (eqPut b _ _ _)))

theorem msiSend (b : Blk) (h : Nat) (f1 : Bool) (v : Nat) : b.Beside (b.msiSend h f1 v) :=
  ite (ite (refl b) (emit b _)) (ite (updFn b _ _ _) (refl b))

theorem evalIntx (b : Blk) (h : Nat) (f1 : Bool) : b.Beside (b.evalIntx h f1) :=
  ite ((updFn b _ _ _).trans (emit _ _)) (refl b)

theorem raise (fuel : Nat) (b : Blk) (r : EqR) (ev : Ev) : b.Beside (Blk.raise fuel b r ev) := by
  induction fuel generalizing b r ev with
  | zero => exact eqTake b r ev
  | succ n ih =>
    unfold Blk.raise
    extract_lets was b1 h v b2
    have took : b.Beside b1 := eqTake b r ev
    have sent : b.Beside b2 := (took.trans (msiSend b1 h r.isF1 v)).trans (evalIntx _ h r.isF1)
    exact ite (ite (sent.trans (ih b2 _ _)) sent) (took.trans (evalIntx b1 _ _))

theorem devEvent (b : Blk) (type index reason value detail : Nat) : b.Beside (b.devEvent type index reason value detail) :=
  raise 3 b _ _

theorem xlateFault (b : Blk) (i cause va : Nat) : b.Beside (b.xlateFault i cause va) :=
  ite (updInst b _ _) ((updInst b _ _).trans (devEvent _ _ _ _ _ _))

/-! Completions. -/

theorem cqEvent (b : Blk) (r : CqR) (type : Nat) : b.Beside (b.cqEvent r type) := by
  unfold Blk.cqEvent
  split
  · exact raise 3 b _ _
  · exact refl b

theorem cqWrite (b : Blk) (r : CqR) (a : Nat) (l : List Byte) : b.Beside (b.cqWrite r a l) := by
  cases r with
  | ctl h => exact emit b (.bus h false a l)
  | inst i q => exact instWrite b _ _ _ _
  | mss => exact emit b (.mssCpl (BitVec.ofNat 256 (natLE l)))

theorem cqMirror (b : Blk) (r : CqR) : b.Beside (b.cqMirror r) := by
  cases r with
  | ctl h => exact ite (emit b _) (refl b)
  | inst i q => exact ite (updCqOf b (.inst i q) _) (instWrite b _ _ _ _)
  | mss => exact refl b

theorem cqNotify (b : Blk) (r : CqR) : b.Beside (b.cqNotify r) :=
  ite ((updCqOf b _ _).trans (cqEvent _ _ _)) (refl b)

theorem cqPut (b : Blk) (r : CqR) (x : HeldCpl) : b.Beside (b.cqPut r x) := by
  have h := (((cqWrite b r (b.cqBase r + (b.cqOf r).pi.toNat % b.cqSize r * 32) (bytesLE 32 x.raw.toNat)).trans
    (updCqOf _ r (fun q => { q with pi := q.pi + 1, held := q.held.tail, armed := q.armed || x.solicited }))).trans
      (cqMirror _ r)).trans (cqNotify _ r)
  exact h.trans ⟨rfl, rfl, fun _ he => he⟩

theorem cqDrain (fuel : Nat) (b : Blk) (r : CqR) : b.Beside (Blk.cqDrain fuel b r) := by
  induction fuel generalizing b with
  | zero => exact refl b
  | succ n ih =>
    unfold Blk.cqDrain
    split
    · exact refl b
    · exact ite (refl b) ((cqPut b r _).trans (ih _))

theorem complete (b : Blk) (r : CqR) (c : Cpl) (bump : Option Nat) (solicited : Bool) (epoch qpn : Nat) :
    b.Beside (b.complete r c bump solicited epoch qpn) := by
  unfold Blk.complete
  extract_lets b1 b2
  have drained : b.Beside b2 := (updCqOf b r _).trans (cqDrain _ b1 r)
  exact ite (drained.trans (cqEvent b2 _ _)) drained

/-! Counts, free values, PFC. -/

theorem drawn (b : Blk) (n : Nat) : b.Beside (b.drawn n) := ⟨rfl, rfl, fun _ he => he⟩

/-- A change of a pipeline that keeps its waiting packets, its drops and what entered it. -/
theorem updPipe (b : Blk) (p : Nat) {f : Pipe → Pipe} (waits : ∀ x, (f x).waits = x.waits) (drops : ∀ x, (f x).drops = x.drops)
    (entered : ∀ x, (f x).counts.get 0 0 = x.counts.get 0 0) : b.Beside (b.updPipe p f) := by
  have way : ∀ {α : Type} {g : Pipe → α}, (∀ x, g (f x) = g x) →
      (fun k => g ((b.updPipe p f).pipe k)) = fun k => g (b.pipe k) := by
    intro α g hg
    funext k
    by_cases hk : k = p
    · subst hk
      exact (congrArg g (b.pipe_updPipe k f)).trans (hg _)
    · exact congrArg g (b.pipe_updPipe_ne p f hk)
  refine ⟨?_, rfl, fun _ he => he⟩
  show Way.mk _ _ _ _ _ _ _ _ _ _ _ _ _ _ = _
  rw [way (g := Pipe.waits) waits, way (g := Pipe.drops) drops, way (g := fun x => x.counts.get 0 0) entered]
  rfl

theorem pipeCnt (b : Blk) (p : Nat) {n : Nat} (k : Nat) (hn : n ≠ 0) : b.Beside (b.pipeCnt p n k) :=
  updPipe b p (fun _ => rfl) (fun _ => rfl) (fun x => Tab.get_upd_other 0 x.counts (fun c => sat64 c k) hn.symm)

theorem ethCnt (b : Blk) (l n k : Nat) : b.Beside (b.ethCnt l n k) := by
  have lane : ∀ j, ((b.ethCnt l n k).lane j).rx = (b.lane j).rx ∧ ((b.ethCnt l n k).lane j).launch = (b.lane j).launch := by
    intro j
    unfold Blk.ethCnt
    by_cases hj : j = l
    · subst hj
      rw [b.lane_updLane]
      exact ⟨rfl, rfl⟩
    · rw [b.lane_updLane_ne l _ hj]
      exact ⟨rfl, rfl⟩
  refine ⟨?_, rfl, fun _ he => he⟩
  show Way.mk _ _ _ _ _ _ _ _ _ _ _ _ _ _ = _
  rw [funext fun j => (lane j).1, funext fun j => (lane j).2]
  rfl

theorem pfcSend (b : Blk) (l prio quanta : Nat) : b.Beside (b.pfcSend l prio quanta) :=
  ite (((emit b _).trans (ethCnt _ _ _ _)).trans (pipeCnt _ _ _ (by decide))) (refl b)

theorem xoff (b : Blk) (x : List Xoff) : b.Beside { b with hog := { b.hog with xoff := x } } := ⟨rfl, rfl, fun _ he => he⟩

theorem pfcEval (b : Blk) (l prio : Nat) : b.Beside (b.pfcEval l prio) :=
  ite ((xoff b _).trans (pfcSend _ _ _ _)) (ite ((xoff b _).trans (pfcSend _ _ _ _)) (refl b))

theorem pfcSettle (b : Blk) : b.Beside b.pfcSettle :=
  foldl (fun b _ => foldl (fun b _ => pfcEval b _ _) _ b) _ b

/-- What the stages did beside a packet, none of whose lookups met poison. -/
theorem commitRun (b : Blk) (pipe : Nat) {r : RunSt} (hr : r.bad = 0) : b.Beside (b.commitRun pipe r) := by
  have counts : ∀ c : Blk, c.Beside (((c.pipeCnt pipe 5 r.skips).pipeCnt pipe 2 r.issued).pipeCnt pipe 3 r.replays) := fun c =>
    ((pipeCnt c pipe _ (by decide)).trans (pipeCnt _ pipe _ (by decide))).trans (pipeCnt _ pipe _ (by decide))
  unfold Blk.commitRun
  extract_lets b0 b1 b2
  have drew : b.Beside b0 := ite (drawn b 64) (refl b)
  have hits : b0.Beside b1 := updPipe b0 pipe (fun _ => rfl) (fun _ => rfl) (fun _ => rfl)
  have none : b2 = b1 := by
    show (List.range r.bad).foldl _ b1 = b1
    rw [hr]
    rfl
  rw [none]
  exact (drew.trans hits).trans (counts b1)

end Blk.Beside

/-! What a drop and a finished entry leave. -/

/-- A queue whose completions go out: the packets' way stays. -/
theorem Blk.way_release (fuel : Nat) (b : Blk) (i q : Nat) :
    (Blk.release fuel b i q).way = b.way ∧ ∀ e ∈ b.out, e ∈ (Blk.release fuel b i q).out := by
  induction fuel generalizing b with
  | zero => exact ⟨rfl, fun _ he => he⟩
  | succ n ih =>
    unfold Blk.release
    split
    · exact ⟨rfl, fun _ he => he⟩
    · split
      · extract_lets b1 b2
        have done : b1.Beside b2 := by
          unfold b2
          split
          · exact Blk.Beside.complete b1 _ _ _ _ _ _
          · exact Blk.Beside.refl b1
        exact ⟨(ih b2).1.trans done.way, fun e he => (ih b2).2 e (done.out e he)⟩
      · exact ⟨rfl, fun _ he => he⟩

theorem Blk.way_finish (b : Blk) (i q : Nat) (idx : W16) (status : Nat) (c : CplF) :
    (b.finish i q idx status c).way = b.way ∧ ∀ e ∈ b.out, e ∈ (b.finish i q idx status c).out := by
  unfold Blk.finish
  split
  · exact ⟨rfl, fun _ he => he⟩
  · extract_lets out b1
    exact b1.way_release _ i q

theorem Blk.way_endLaunch (b : Blk) (p : Packet) (status : Nat) : (b.endLaunch p status).way = b.way := by
  unfold Blk.endLaunch
  split
  · split
    · split
      · exact (b.way_finish _ _ _ _ _).1
      · rfl
    · rfl
  · rfl

/-- A drop of a pipeline is counted. -/
def Way.drop (w : Way) (p reason : Nat) : Way :=
  { w with drops := fun k => if k = p then (w.drops p).upd 0 reason (fun c => sat64 c 1) else w.drops k }

theorem Way.drops_drop (w : Way) (p reason : Nat) :
    ((w.drop p reason).drops p).get 0 reason = sat64 ((w.drops p).get 0 reason) 1 := by
  have read : (w.drop p reason).drops p = (w.drops p).upd 0 reason (fun c => sat64 c 1) := if_pos rfl
  rw [read]
  exact Tab.get_upd_same 0 (w.drops p) reason (fun c => sat64 c 1)

@[simp] theorem Way.queues_drop (w : Way) (p reason : Nat) : (w.drop p reason).queues = w.queues := rfl

theorem Blk.way_drop (b : Blk) (p reason : Nat) : (b.drop p reason).way = b.way.drop p reason := by
  have pipe : ∀ k, ((b.drop p reason).pipe k).waits = (b.pipe k).waits ∧
      ((b.drop p reason).pipe k).drops = (b.way.drop p reason).drops k ∧
      ((b.drop p reason).pipe k).counts.get 0 0 = (b.pipe k).counts.get 0 0 := by
    intro k
    unfold Blk.drop
    by_cases hk : k = p
    · subst hk
      rw [b.pipe_updPipe]
      exact ⟨rfl, (if_pos rfl).symm, rfl⟩
    · rw [b.pipe_updPipe_ne p _ hk]
      exact ⟨rfl, (if_neg hk).symm, rfl⟩
  show Way.mk _ _ _ _ _ _ _ _ _ _ _ _ _ _ = _
  rw [funext fun k => (pipe k).1, funext fun k => (pipe k).2.1, funext fun k => (pipe k).2.2]
  rfl

/-- A dropped packet changes no more of the way than the drop's count. -/
theorem Blk.way_dropPkt (b : Blk) (p : Packet) (pipe reason : Nat) : (b.dropPkt p pipe reason).way = b.way.drop pipe reason :=
  (Blk.way_endLaunch _ p 0).trans (b.way_drop pipe reason)

/-- A packet enters a pipeline. -/
def Way.enter (w : Way) (p : Nat) : Way :=
  { w with entered := fun k => if k = p then sat64 (w.entered p) 1 else w.entered k }

theorem Blk.way_enter (b : Blk) (p : Nat) : (b.pipeCnt p 0 1).way = b.way.enter p := by
  have pipe : ∀ k, ((b.pipeCnt p 0 1).pipe k).waits = (b.pipe k).waits ∧ ((b.pipeCnt p 0 1).pipe k).drops = (b.pipe k).drops ∧
      ((b.pipeCnt p 0 1).pipe k).counts.get 0 0 = (b.way.enter p).entered k := by
    intro k
    unfold Blk.pipeCnt
    by_cases hk : k = p
    · subst hk
      rw [b.pipe_updPipe]
      exact ⟨rfl, rfl, (Tab.get_upd_same 0 (b.pipe k).counts 0 (fun c => sat64 c 1)).trans (if_pos rfl).symm⟩
    · rw [b.pipe_updPipe_ne p _ hk]
      exact ⟨rfl, rfl, (if_neg hk).symm⟩
  show Way.mk _ _ _ _ _ _ _ _ _ _ _ _ _ _ = _
  rw [funext fun k => (pipe k).1, funext fun k => (pipe k).2.1, funext fun k => (pipe k).2.2]
  rfl

theorem Blk.cfgOf_of_way {b c : Blk} (h : c.way = b.way) (e : Nat) : c.cfgOf e = b.cfgOf e := by
  have ctl : c.ctl = b.ctl := congrArg Way.ctl h
  unfold Blk.cfgOf
  rw [ctl]

end Sys2Proof.Machine
end

section
/-! SUPPORT. A packet's metadata out of the parser, and a program none of whose stages is enabled. -/

namespace Sys2Proof.Machine
open Sys2Proof

/-- A bit outside a field stays as the field is written. -/
theorem getLsbD_mdPut (m : Meta) (o w v : Nat) {j : Nat} (h : j < o ∨ o + w ≤ j) : (mdPut m o w v).getLsbD j = m.getLsbD j := by
  have clear : ∀ n : Nat, n < 2 ^ w → (n * 2 ^ o).testBit j = false := by
    intro n hn
    rw [Nat.testBit_mul_two_pow]
    rcases h with h | h
    · rw [decide_eq_false (by omega), Bool.false_and]
    · rw [Nat.testBit_lt_two_pow (hn.trans_le (Nat.pow_le_pow_right (by decide) (by omega))), Bool.and_false]
  have mask := clear (2 ^ w - 1) (by have := Nat.two_pow_pos w; omega)
  have val := clear (v % 2 ^ w) (Nat.mod_lt _ (Nat.two_pow_pos w))
  unfold mdPut
  rw [BitVec.getLsbD_or, BitVec.getLsbD_and, BitVec.getLsbD_not, BitVec.getLsbD_ofNat, BitVec.getLsbD_ofNat, mask, val]
  by_cases hj : j < 1024
  · simp [hj]
  · simp [hj, BitVec.getLsbD_of_ge m j (by omega)]

/-- A field stays as another one that does not meet it is written. -/
theorem mdGet_mdPut (m : Meta) (o w v : Nat) {o' w' : Nat} (h : o' + w' ≤ o ∨ o + w ≤ o') :
    mdGet (mdPut m o w v) o' w' = mdGet m o' w' := by
  unfold mdGet fieldNat
  apply Nat.eq_of_testBit_eq
  intro i
  rw [Nat.testBit_mod_two_pow, Nat.testBit_mod_two_pow, Nat.testBit_div_two_pow, Nat.testBit_div_two_pow]
  by_cases hi : i < w'
  · have bit := getLsbD_mdPut m o w v (j := i + o') (by omega)
    unfold BitVec.getLsbD at bit
    rw [bit]
  · simp [hi]

/-- Every slot recorded is one of the sixteen. -/
def ParseOut.InSlots (o : ParseOut) : Prop := ∀ x ∈ o.slots, x.1 < 16

/-- The slots that a parse walk records lie where its states put them. -/
theorem parseWalk_inSlots {states : List ParseState} (hs : ∀ x ∈ states, x.slot < 16) (win : List Byte) (frameLen : Nat)
    (fuel s pos : Nat) {o : ParseOut} (ho : o.InSlots) : (parseWalk states win frameLen fuel s pos o).InSlots := by
  induction fuel generalizing s pos o with
  | zero => exact ho
  | succ n ih =>
    unfold parseWalk
    split
    · exact ho
    next st found =>
      extract_lets h o1 nx
      have recorded : o1.InSlots := by
        unfold o1
        split
        · intro x hx
          rcases List.mem_append.mp hx with hx | hx
          · exact ho x (List.mem_of_mem_filter hx)
          · rw [List.mem_singleton.mp hx]
            exact hs st (List.mem_of_getElem? found)
        · exact ho
      refine iteInduction (motive := ParseOut.InSlots) (fun _ => ho) fun _ => ?_
      refine iteInduction (motive := ParseOut.InSlots) (fun _ => ho) fun _ => ?_
      refine iteInduction (motive := ParseOut.InSlots) (fun _ => ho) fun _ => ?_
      refine iteInduction (motive := ParseOut.InSlots) (fun _ => ho) fun _ => ?_
      refine iteInduction (motive := ParseOut.InSlots) (fun _ => ho) fun _ => ?_
      refine iteInduction (motive := ParseOut.InSlots) (fun _ => recorded) fun _ => ?_
      exact iteInduction (motive := ParseOut.InSlots) (fun _ => recorded) fun _ => ih nx _ recorded

theorem parseFrame_inSlots {states : List ParseState} (hs : ∀ x ∈ states, x.slot < 16) (frame : List Byte) :
    (parseFrame states frame).InSlots :=
  parseWalk_inSlots hs _ _ 32 0 0 (fun _ hx => nomatch hx)

/-- Writes of fields that do not meet a field leave it. -/
theorem mdGet_foldl {α : Type} (at_ width val : α → Nat) (o w : Nat) (l : List α)
    (h : ∀ f ∈ l, o + w ≤ at_ f ∨ at_ f + width f ≤ o) (m : Meta) :
    mdGet (l.foldl (fun m f => mdPut m (at_ f) (width f) (val f)) m) o w = mdGet m o w := by
  induction l generalizing m with
  | nil => rfl
  | cons f l ih =>
    exact (ih (fun g hg => h g (List.mem_cons_of_mem f hg)) _).trans (mdGet_mdPut m _ _ _ (h f List.mem_cons_self))

/-- The parser leaves every field from bit 480 on but the class and the time stamp request. -/
theorem mdGet_mkMeta (e : Entering) (frame : List Byte) {p : ParseOut} (free : Nat) (hp : p.InSlots) {o w : Nat}
    (lo : 480 ≤ o) (hi : o + w ≤ 576 ∨ 580 ≤ o) : mdGet (mkMeta e frame p free) o w = 0 := by
  unfold mkMeta
  extract_lets m0
  rw [mdGet_foldl (fun s : Nat × Nat => 128 + 16 * s.1) (fun _ => 16) (fun s => 32768 + s.2) o w p.slots
    (fun s hs => Or.inr (by have := hp s hs; omega))]
  have start : mdGet m0 o w = mdGet (0 : Meta) o w := by
    refine mdGet_foldl (fun f : Nat × Nat × Nat => f.1) (fun f => f.2.1) (fun f => f.2.2) o w _ ?_ 0
    simp only [List.mem_cons, List.not_mem_nil, or_false, forall_eq_or_imp, forall_eq]
    omega
  rw [start]
  show (0#1024).toNat / 2 ^ o % 2 ^ w = 0
  rw [BitVec.toNat_zero, Nat.zero_div, Nat.zero_mod]

/-- A packet out of the parser has no destination yet. -/
theorem mdDest_mkMeta (e : Entering) (frame : List Byte) {p : ParseOut} (free : Nat) (hp : p.InSlots) :
    mdDest (mkMeta e frame p free) = 0 := mdGet_mkMeta e frame free hp (by decide) (by decide)

/-- Nor a reason of a drop. -/
theorem mdReason_mkMeta (e : Entering) (frame : List Byte) {p : ParseOut} (free : Nat) (hp : p.InSlots) :
    mdReason (mkMeta e frame p free) = 0 := mdGet_mkMeta e frame free hp (by decide) (by decide)

/-! A program with no stage enabled. -/

/-- A stage that is not enabled does nothing, and none issues a lookup ahead. -/
theorem runStage_disabled {g : PipeProg} (hg : ∀ x ∈ g.stages, x.enable = false) (ar : Around) (n : Nat) (r : RunSt) :
    runStage g ar n r = r := by
  unfold runStage
  split
  · rfl
  next s found =>
    extract_lets ra r1 ahead
    have off : stageRuns s r.md = false := by
      rw [stageRuns, hg s (List.mem_of_getElem? found), Bool.false_and]
    have same : r1 = r := if_neg (off ▸ Bool.false_ne_true)
    have none : ahead = [] := by
      refine List.filter_eq_nil_iff.mpr fun k _ => ?_
      split
      next t ht => simp [hg t (List.mem_of_getElem? ht)]
      · exact Bool.false_ne_true
    rw [none, same, List.length_nil, Nat.add_zero, List.map_nil, List.append_nil]

/-- With no stage enabled the stages leave a packet as it was. -/
theorem runStages_disabled {g : PipeProg} (hg : ∀ x ∈ g.stages, x.enable = false) (ar : Around) (l : List Nat) (r : RunSt) :
    runStages g ar l r = r := by
  induction l with
  | nil => rfl
  | cons n l ih =>
    have hbm : stageHbm g n r.md = false := by
      unfold stageHbm
      split
      next s found => rw [stageRuns, hg s (List.mem_of_getElem? found), Bool.false_and, Bool.false_and]
      · rfl
    unfold runStages
    rw [hbm, Bool.and_false, runStage_disabled hg, ih]
    simp

end Sys2Proof.Machine
end

section
/-! SUPPORT. A packet that enters a pipeline, or whose lookup returns, with no stage enabled (R25, R268, R272, R276). -/

namespace Sys2Proof.Machine
open Sys2Proof

variable {b : Blk} {g : PipeProg} {p : Packet}

/-- The stages that run request no learn beyond what is requested. -/
theorem Blk.learnRequest_same (b : Blk) (pipe : Nat) (x : Option (Option (Nat × Nat))) : b.learnRequest pipe x x = b := by
  cases x <;> rfl

/-- A packet with no destination is dropped with its reason at the end of ingress. -/
theorem Blk.way_dispatch_none (b : Blk) (hd : mdDest p.md = 0) : (b.dispatch p).way = b.way.drop p.pipe (mdReason p.md) := by
  unfold Blk.dispatch
  extract_lets q m c handed k
  have none : k = 0 := hd
  rw [if_pos none]
  exact b.way_dropPkt q p.pipe (mdReason p.md)

/-- Through ingress stages none of which is enabled a packet with no destination is dropped with its reason. -/
theorem Blk.way_ingressRun_disabled (hg : (b.cfgOf p.epoch).prog p.pipe = some g) (off : ∀ x ∈ g.stages, x.enable = false)
    (hd : mdDest p.md = 0) (start : Packet) (n : Nat) (preds : List (Nat × Nat)) (learn : Option (Option (Nat × Nat)))
    (miss : Bool) : (b.ingressRun start p n preds learn miss).way = b.way.drop p.pipe (mdReason p.md) := by
  unfold Blk.ingressRun
  rw [hg]
  simp only [runStages_disabled off, Blk.learnRequest_same]
  rw [Blk.way_dispatch_none _ hd, (Blk.Beside.commitRun b p.pipe rfl).way]

/-- Through egress stages none of which is enabled a packet with no destination is dropped with its reason. -/
theorem Blk.way_egressRun_disabled {l : Nat} (hg : (b.cfgOf p.epoch).prog (pipeOfLane l) = some g)
    (off : ∀ x ∈ g.stages, x.enable = false) (hd : mdDest p.md = 0) (start : Packet) (n : Nat) (preds : List (Nat × Nat))
    (miss : Bool) : (b.egressRun l start p n preds miss).way = b.way.drop (pipeOfLane l) (mdReason p.md) := by
  unfold Blk.egressRun
  extract_lets pipe
  rw [hg]
  simp only [runStages_disabled off]
  unfold Blk.egressEnd
  extract_lets pipe' f0 f1 b2
  rw [if_pos hd, Blk.way_dropPkt, (Blk.Beside.commitRun b pipe rfl).way]

/-- A frame enters its pipeline: dropped where the half does not serve, with no program, and with no stage enabled with no
reason set. -/
theorem Blk.way_parserEntry (b : Blk) (k : Nat) (frame : List Byte) (e : Entering) (tsId : W16) (launch : Option Nat)
    (stamp : Option TxStamp) (miss : Bool) :
    let after := (b.parserEntry k frame e tsId launch stamp miss).way
    (b.serving (halfOfPipe k) = false → after = (b.way.enter k).drop k 2) ∧
    (b.serving (halfOfPipe k) = true →
      ((b.cfgOf e.epoch).prog k = none → after = (b.way.enter k).drop k 4) ∧
      ((b.cfgOf e.epoch).prog k = some g → (∀ x ∈ g.stages, x.enable = false) → (∀ x ∈ g.parse, x.slot < 16) →
        after = (b.way.enter k).drop k 0)) := by
  unfold Blk.parserEntry
  extract_lets uid src b1 pkt after
  have entered : b1.way = b.way.enter k := Blk.way_enter { b with hog := { b.hog with nextUid := uid + 1 } } k
  have serves : b1.serving (halfOfPipe k) = b.serving (halfOfPipe k) := rfl
  have cfg : b1.cfgOf e.epoch = b.cfgOf e.epoch := rfl
  refine ⟨fun down => ?_, fun up => ⟨fun none => ?_, fun found off slots => ?_⟩⟩
  · have first : after = (b1.dropPkt pkt k 2).way := congrArg Blk.way (if_pos (by rw [serves, down]; decide))
    rw [first, Blk.way_dropPkt, entered]
  · unfold after
    rw [if_neg (by rw [serves, up]; decide), cfg, none]
    exact (Blk.way_dropPkt _ _ _ _).trans (by rw [entered])
  · unfold after
    rw [if_neg (by rw [serves, up]; decide), cfg]
    split
    next none => exact absurd (none.symm.trans found) (by simp)
    next g' found' =>
      obtain rfl : g' = g := Option.some.inj (found'.symm.trans found)
      extract_lets out m b2 b3
      have drew : b1.Beside b2 := .ite (.drawn b1 1) (.refl b1)
      have parsed : b1.Beside b3 := drew.trans (.ite (.refl b2) (.pipeCnt b2 k 1 (by decide)))
      have low := parseFrame_inSlots slots frame
      have prog : (b3.cfgOf e.epoch).prog k = some g' := by rw [Blk.cfgOf_of_way parsed.way, cfg, found]
      have run := Blk.way_ingressRun_disabled (p := { pkt with md := m }) prog off (mdDest_mkMeta e frame _ low)
        { pkt with md := m } 0 [] none miss
      have reason : mdReason m = 0 := mdReason_mkMeta e frame _ low
      rw [run, parsed.way, entered]
      show (b.way.enter k).drop k (mdReason m) = _
      rw [reason]

/-- What the spec says of a frame taken from its source, of the state that its way in leads to. -/
theorem Blk.entered_of_way {b c t : Blk} {k reason : Nat} (taken : c.way.drops = b.way.drops ∧ c.way.entered = b.way.entered)
    (h : t.way = (c.way.enter k).drop k reason) :
    (t.pipe k).counts.get 0 0 = sat64 ((b.pipe k).counts.get 0 0) 1 ∧
      (t.pipe k).drops.get 0 reason = sat64 ((b.pipe k).drops.get 0 reason) 1 := by
  obtain ⟨drops, entered⟩ := taken
  constructor
  · have read : t.way.entered k = sat64 (c.way.entered k) 1 := by
      rw [h]
      exact if_pos rfl
    rw [entered] at read
    exact read
  · have read : (t.way.drops k).get 0 reason = sat64 ((c.way.drops k).get 0 reason) 1 := by
      rw [h]
      exact (c.way.enter k).drops_drop k reason
    rw [drops] at read
    exact read

end Sys2Proof.Machine
end

section
/-! SUPPORT. The ways into a pipeline (R25, R265) and out of the wait for the HBM table (R272), as commands. -/

namespace Sys2Proof.Machine
open Sys2Proof

/-- What O35 says of a frame that enters pipeline `k` bound to an epoch, where `taken` tells that its source gave it. -/
def Enters (s : State) (src : InSrc) (miss : Bool) (g : PipeProg) (k ep : Nat) (taken : State → Prop) : Prop :=
  let goes := fun (reason : Nat) => ∃ t, exec (.packetIngress src miss) s = .next t ∧ taken t ∧
    (t.blk.pipe k).counts.get 0 0 = sat64 ((s.blk.pipe k).counts.get 0 0) 1 ∧
    (t.blk.pipe k).drops.get 0 reason = sat64 ((s.blk.pipe k).drops.get 0 reason) 1
  (s.blk.serving (halfOfPipe k) = false → goes 2) ∧
  (s.blk.serving (halfOfPipe k) = true →
    ((s.blk.cfgOf ep).prog k = none → goes 4) ∧
    ((s.blk.cfgOf ep).prog k = some g → (∀ x ∈ g.stages, x.enable = false) → (∀ x ∈ g.parse, x.slot < 16) → goes 0))

/-- A frame taken from its source goes through the parser's entry. -/
theorem enters_of_parserEntry {s : State} {src : InSrc} {miss : Bool} {c : Blk} {k : Nat} {frame : List Byte} {e : Entering}
    {tsId : W16} {launch : Option Nat} {stamp : Option TxStamp} {taken : State → Prop} (g : PipeProg)
    (run : s.blk.ingress src miss = c.parserEntry k frame e tsId launch stamp miss)
    (serves : c.serving = s.blk.serving) (cfg : c.cfgOf = s.blk.cfgOf)
    (kept : c.way.drops = s.blk.way.drops ∧ c.way.entered = s.blk.way.entered)
    (took : ∀ t : State, t.blk.way.rx = c.way.rx → t.blk.way.hostFrames = c.way.hostFrames → taken t) :
    Enters s src miss g k e.epoch taken := by
  obtain ⟨down, up⟩ := c.way_parserEntry (g := g) k frame e tsId launch stamp miss
  rw [serves] at down up
  rw [cfg] at up
  have goes : ∀ reason, (c.parserEntry k frame e tsId launch stamp miss).way = (c.way.enter k).drop k reason →
      ∃ t, exec (.packetIngress src miss) s = .next t ∧ taken t ∧
        (t.blk.pipe k).counts.get 0 0 = sat64 ((s.blk.pipe k).counts.get 0 0) 1 ∧
        (t.blk.pipe k).drops.get 0 reason = sat64 ((s.blk.pipe k).drops.get 0 reason) 1 := by
    intro reason way
    rw [← run] at way
    have rx := congrArg Way.rx way
    have frames := congrArg Way.hostFrames way
    exact ⟨{ s with blk := s.blk.ingress src miss }, rfl, took _ rx frames, Blk.entered_of_way kept way⟩
  exact ⟨fun h => goes 2 (down h), fun h => ⟨fun none => goes 4 ((up h).1 none),
    fun found off slots => goes 0 ((up h).2 found off slots)⟩⟩

theorem enters_eth {s : State} {l : LaneId} {f : RxFrame} {fs : List RxFrame} (miss : Bool) (g : PipeProg)
    (hr : (s.blk.lane l.val).rx = f :: fs) (free : s.blk.sourceHeld (pipeOfLane l.val) { lane := l.val } = false) :
    Enters s (.eth l) miss g (pipeOfLane l.val) (f.epoch.getD (s.blk.epochAt (pipeOfLane l.val)))
      (fun t => (t.blk.lane l.val).rx = fs) := by
  refine enters_of_parserEntry (c := s.blk.updLane l.val (fun x => { x with rx := fs })) (frame := f.frame)
    (e := { epoch := f.epoch.getD (s.blk.epochAt (pipeOfLane l.val)), origin := { lane := l.val }, rxNsec := f.rxNsec,
            rxSecLo := f.rxSecLo, stepCount := f.step }) (tsId := 0) (launch := none) (stamp := none) g ?_ rfl rfl ⟨rfl, rfl⟩ ?_
  · simp only [Blk.ingress, hr, free, Bool.false_eq_true, if_false]
  · intro t rx _
    have read := congrFun rx l.val
    show t.blk.way.rx l.val = fs
    rw [read]
    exact congrArg EthLane.rx (s.blk.lane_updLane l.val (fun x => { x with rx := fs }))

theorem enters_host {s : State} {hp : PortId} {f : HostFrame} {fs : List HostFrame} (miss : Bool) (g : PipeProg)
    (hr : s.blk.hostFrames.get [] hp.val = f :: fs) (free : s.blk.sourceHeld (pipeOfPort hp.val) f.origin = false) :
    Enters s (.host hp) miss g (pipeOfPort hp.val) (s.blk.epochAt (pipeOfPort hp.val))
      (fun t => t.blk.hostFrames.get [] hp.val = fs) := by
  refine enters_of_parserEntry (c := { s.blk with hostFrames := s.blk.hostFrames.put [] hp.val fs })
    (frame := rmtPort f.stamp (s.blk.cfgOf (s.blk.epochAt (pipeOfPort hp.val))).udpPort f.frame)
    (e := { epoch := s.blk.epochAt (pipeOfPort hp.val), origin := f.origin, hostMeta := f.hostMeta, tc := f.tc,
            tsReq := f.tsReq })
    (tsId := f.tsId) (launch := f.launch) (stamp := f.stamp) g ?_ rfl rfl ⟨rfl, rfl⟩ ?_
  · simp only [Blk.ingress, hr, free, Bool.false_eq_true, if_false]
  · intro t _ frames
    have read : t.blk.hostFrames = s.blk.hostFrames.put [] hp.val fs := frames
    rw [read]
    exact Tab.get_put_same [] s.blk.hostFrames hp.val fs

/-- The pipeline in which a packet that waits goes on. -/
def HbmWait.goesOnIn (w : HbmWait) : Nat := match w.port with
  | none => w.pkt.pipe
  | some x => pipeOfLane x

/-- The lookup of the oldest waiting packet returns, no stage is enabled, and the packet has no destination. -/
theorem Blk.way_hbmReturn {b : Blk} {p : Nat} {w : HbmWait} {ws : List HbmWait} {g : PipeProg} (hw : (b.pipe p).waits = w :: ws)
    (off : ∀ x ∈ g.stages, x.enable = false) (hd : mdDest w.pkt.md = 0)
    (hg : (b.cfgOf w.pkt.epoch).prog w.goesOnIn = some g) :
    (b.hbmReturn p).way = (b.updPipe p (fun x => { x with waits := ws })).way.drop w.goesOnIn (mdReason w.pkt.md) := by
  unfold Blk.hbmReturn
  rw [hw]
  dsimp only
  split
  next here =>
    have k : w.goesOnIn = w.pkt.pipe := by rw [HbmWait.goesOnIn, here]
    rw [k] at hg ⊢
    exact Blk.way_ingressRun_disabled (b := b.updPipe p (fun x => { x with waits := ws })) hg off hd w.start w.stage w.preds
      w.learn false
  next l there =>
    have k : w.goesOnIn = pipeOfLane l := by rw [HbmWait.goesOnIn, there]
    rw [k] at hg ⊢
    exact (Blk.Beside.pfcSettle _).way.trans (Blk.way_egressRun_disabled (b := b.updPipe p (fun x => { x with waits := ws })) hg
      off hd w.start w.stage w.preds false)

theorem Blk.hbmReturn_drops {b : Blk} {p : Nat} {w : HbmWait} {ws : List HbmWait} {g : PipeProg} (hw : (b.pipe p).waits = w :: ws)
    (off : ∀ x ∈ g.stages, x.enable = false) (hd : mdDest w.pkt.md = 0)
    (hg : (b.cfgOf w.pkt.epoch).prog w.goesOnIn = some g) :
    ((b.hbmReturn p).pipe p).waits = ws ∧
      ((b.hbmReturn p).pipe w.goesOnIn).drops.get 0 (mdReason w.pkt.md) =
        sat64 ((b.pipe w.goesOnIn).drops.get 0 (mdReason w.pkt.md)) 1 := by
  have way := Blk.way_hbmReturn hw off hd hg
  have kept : ((b.updPipe p (fun x => { x with waits := ws })).pipe w.goesOnIn).drops = (b.pipe w.goesOnIn).drops := by
    by_cases hk : w.goesOnIn = p
    · rw [hk, b.pipe_updPipe]
    · rw [b.pipe_updPipe_ne p _ hk]
  have waits := congrFun (congrArg Way.waits way) p
  have drops := congrArg (fun v : Way => (v.drops w.goesOnIn).get 0 (mdReason w.pkt.md)) way
  rw [Way.drops_drop] at drops
  constructor
  · exact waits.trans (congrArg Pipe.waits (b.pipe_updPipe p (fun x => { x with waits := ws })))
  · exact drops.trans (congrArg (fun d : Tab Nat => sat64 (d.get 0 (mdReason w.pkt.md)) 1) kept)

end Sys2Proof.Machine
end

section
/-! SUPPORT. The queues of the traffic managers, and what ages in them (R280, R281). -/

namespace Sys2Proof.Machine
open Sys2Proof

variable {b : Blk} {k : QKey} {p : Packet} {rest : List Packet}

theorem Hog.key_queue (h : Hog) (k : QKey) : (h.queue k).key = k := by
  unfold Hog.queue
  cases found : h.queues.find? (fun q => q.key == k) with
  | none => rfl
  | some q => exact eq_of_beq (List.find?_some (p := fun q : TmQueue => q.key == k) found)

/-- A queue that was set is read as it was set. -/
theorem Hog.queue_setQueue (h : Hog) (q : TmQueue) : (h.setQueue q).queue q.key = q := by
  have put : ∀ l : List TmQueue, l.any (fun x => x.key == q.key) = true →
      (l.map (fun x => if x.key == q.key then q else x)).find? (fun x => x.key == q.key) = some q := by
    intro l
    induction l with
    | nil => exact fun h => absurd h Bool.false_ne_true
    | cons x l ih =>
      intro h
      rw [List.map_cons]
      by_cases hx : (x.key == q.key) = true
      · rw [if_pos hx]
        exact List.find?_cons_of_pos (p := fun x : TmQueue => x.key == q.key) BEq.rfl
      · rw [if_neg hx, List.find?_cons_of_neg (p := fun x : TmQueue => x.key == q.key) hx]
        rw [List.any_cons, Bool.eq_false_of_not_eq_true hx, Bool.false_or] at h
        exact ih h
  unfold Hog.setQueue Hog.queue
  by_cases h' : h.queues.any (fun x => x.key == q.key) = true
  · rw [if_pos h', put _ h']
    rfl
  · have absent : h.queues.find? (fun x => x.key == q.key) = none :=
      List.find?_eq_none.mpr fun x hx hk => h' (List.any_eq_true.mpr ⟨x, hx, hk⟩)
    rw [if_neg h', List.find?_append, absent, Option.none_or,
      List.find?_cons_of_pos (p := fun x : TmQueue => x.key == q.key) BEq.rfl]
    rfl

theorem Blk.tmq_setTmq (b : Blk) (q : TmQueue) : (b.setTmq q).tmq q.key = q := b.hog.queue_setQueue q

theorem Blk.key_tmq (b : Blk) (k : QKey) : (b.tmq k).key = k := b.hog.key_queue k

/-- A queue whose packets alone were changed holds those. -/
theorem Blk.pkts_setTmq (b c : Blk) (k : QKey) (l : List Packet) :
    ((b.setTmq { c.tmq k with pkts := l }).tmq k).pkts = l := by
  have read := b.tmq_setTmq { c.tmq k with pkts := l }
  rw [show TmQueue.key { c.tmq k with pkts := l } = k from c.key_tmq k] at read
  rw [read]

/-- The queue of a key among queues. -/
def Way.queue (w : Way) (k : QKey) : TmQueue := (w.queues.find? (fun q => q.key == k)).getD { key := k }

theorem Blk.queue_way (b : Blk) (k : QKey) : b.way.queue k = b.tmq k := rfl

/-! Aging. -/

theorem Blk.aged_of_lt (old : 1000000 < b.mono - p.born) : b.aged p = true := decide_eq_true old

/-- With nothing that waits for the bridge to it, the head of a queue that is too old is dropped. -/
theorem Blk.way_ageQueue_head (none : b.hog.crossing.find? (fun c => c.dest == CrossDest.queue k) = none)
    (hp : (b.tmq k).pkts = p :: rest) (old : 1000000 < b.mono - p.born) :
    (b.ageQueue k).way = (b.setTmq { b.tmq k with pkts := rest }).way.drop (b.pipeOfQ k) 7 := by
  have before : b.ageCrossing (.queue k) (b.pipeOfQ k) = b := by rw [Blk.ageCrossing, none]
  unfold Blk.ageQueue
  rw [before]
  dsimp only
  rw [hp]
  dsimp only
  rw [if_pos (Blk.aged_of_lt old), (Blk.Beside.pfcSettle _).way, Blk.way_dropPkt]

/-- The oldest packet that waits for the bridge to a destination is dropped when it is too old. -/
theorem Blk.way_ageCrossing {c : Crossing} {d : CrossDest} {pipe : Nat}
    (found : b.hog.crossing.find? (fun c => c.dest == d) = some c) (old : 1000000 < b.mono - c.pkt.born) :
    (b.ageCrossing d pipe).way = ({ b.way with crossing := b.hog.crossing.erase c }).drop pipe 7 := by
  unfold Blk.ageCrossing
  rw [found]
  dsimp only
  rw [if_pos (Blk.aged_of_lt old), (Blk.Beside.pfcSettle _).way, Blk.way_dropPkt]
  rfl

/-- An empty queue loses nothing more. -/
theorem Blk.way_ageQueue_crossing {c : Crossing} (found : b.hog.crossing.find? (fun c => c.dest == CrossDest.queue k) = some c)
    (empty : (b.tmq k).pkts = []) (old : 1000000 < b.mono - c.pkt.born) :
    (b.ageQueue k).way = ({ b.way with crossing := b.hog.crossing.erase c }).drop (b.pipeOfQ k) 7 := by
  have way := Blk.way_ageCrossing (pipe := b.pipeOfQ k) found old
  have queue : ((b.ageCrossing (.queue k) (b.pipeOfQ k)).tmq k).pkts = [] := by
    rw [← Blk.queue_way, way]
    exact empty
  unfold Blk.ageQueue
  extract_lets b0
  rw [show (b0.tmq k).pkts = [] from queue]
  exact way

/-- The packets that wait for an engine. -/
def Way.engine (w : Way) : Half → List Packet
  | .west => w.inWest
  | .east => w.inEast

def Way.setEngine (w : Way) (l : List Packet) : Half → Way
  | .west => { w with inWest := l }
  | .east => { w with inEast := l }

/-- With nothing that waits for the bridge to it, the oldest packet of an engine's queue that is too old is dropped. -/
theorem Blk.way_ageEngine {h : Half} (none : b.hog.crossing.find? (fun c => c.dest == CrossDest.engine h) = none)
    (hp : b.way.engine h = p :: rest) (old : 1000000 < b.mono - p.born) :
    (b.ageEngine h).way = (b.way.setEngine rest h).drop p.pipe 7 := by
  unfold Blk.ageEngine
  rw [none]
  dsimp only
  cases h with
  | west =>
    rw [show b.rmt.inWest = p :: rest from hp]
    dsimp only
    rw [if_pos (Blk.aged_of_lt old), (Blk.Beside.pfcSettle _).way, Blk.way_dropPkt]
    rfl
  | east =>
    rw [show b.rmt.inEast = p :: rest from hp]
    dsimp only
    rw [if_pos (Blk.aged_of_lt old), (Blk.Beside.pfcSettle _).way, Blk.way_dropPkt]
    rfl

end Sys2Proof.Machine
end

section
/-! SUPPORT. The frame that a port chooses, and its way through egress stages none of which is enabled (R276, R281, R341). -/

namespace Sys2Proof.Machine
open Sys2Proof

variable {b : Blk} {l : Nat} {tc : Fin 8} {p : Packet} {rest : List Packet} {g : PipeProg}

theorem filter_range_eq_singleton : ∀ tc : Fin 8, (List.range 8).filter (fun c => c == tc.val) = [tc.val] := by decide

/-- A class without a packet may send none. -/
theorem Blk.mayServe_empty {k : Nat} (h : (b.tmq (.port l k)).pkts = []) : b.mayServe l k = false := by
  unfold Blk.mayServe
  extract_lets q
  rw [show q.pkts = [] from h]

/-- The one class that has a packet, and may send it, is the port's one candidate. -/
theorem Blk.portCandidates_alone (hp : (b.tmq (.port l tc.val)).pkts = p :: rest)
    (alone : ∀ k < 8, k ≠ tc.val → (b.tmq (.port l k)).pkts = []) (may : b.mayServe l tc.val = true)
    (level : (b.headClass l tc.val p).level < 8) : ∃ w len, b.portCandidates l = [(.port l tc.val, w, len)] := by
  have served : (List.range 8).filter (fun c => b.mayServe l c) = [tc.val] := by
    rw [← filter_range_eq_singleton tc]
    refine List.filter_congr fun k hk => ?_
    by_cases hkt : k = tc.val
    · rw [hkt, may, BEq.rfl]
    · rw [Blk.mayServe_empty (alone k (List.mem_range.mp hk) hkt), beq_false_of_ne hkt]
  have lowest : b.levelOf l tc.val < 8 := by
    rw [Blk.levelOf, hp]
    exact level
  unfold Blk.portCandidates
  rw [served]
  extract_lets cs lv
  have best : lv = b.levelOf l tc.val := Nat.min_eq_right lowest.le
  have picked : cs.filter (fun c => b.levelOf l c == lv) = [tc.val] := by
    rw [best]
    exact List.filter_cons_of_pos (p := fun c => b.levelOf l c == b.levelOf l tc.val) BEq.rfl
  rw [picked]
  exact ⟨_, _, rfl⟩

/-- Deficit round-robin over one candidate serves it. -/
theorem drrPick_singleton (b : Blk) (x : QKey × Nat × Nat) : ∃ n, drrPick b [x] = some (x.1, n) := by
  unfold drrPick
  extract_lets need
  refine ⟨need x, ?_⟩
  have fits : [x].find? (fun y => decide (need y ≤ need x)) = some x :=
    List.find?_cons_of_pos (p := fun y => decide (need y ≤ need x)) (decide_eq_true (Nat.le_refl (need x)))
  exact congrArg (Option.map fun y : QKey × Nat × Nat => (y.1, need x)) fits

/-- Tokens are taken of a queue, whose packets stay, and of the port. -/
theorem Blk.way_takeTokens (b : Blk) (l tc : Nat) (p : Packet) :
    (b.takeTokens l tc p).way = { b.way with queues := (b.takeTokens l tc p).hog.queues } := by
  unfold Blk.takeTokens
  split <;> split <;> rfl

theorem Blk.drrCharge_singleton (b : Blk) (k : QKey) (w len' rounds len : Nat) :
    ∃ d, b.drrCharge [(k, w, len')] k rounds len = b.setTmq { b.tmq k with deficit := d } := ⟨_, rfl⟩

/-- The state in which the head of a queue that was chosen runs its egress stages: without it in its queue. -/
structure Blk.TakenFrom (b c : Blk) (k : QKey) (rest : List Packet) : Prop where
  way : c.way = { b.way with queues := c.hog.queues }
  pkts : (c.tmq k).pkts = rest

theorem Blk.TakenFrom.kept {b c : Blk} {k : QKey} {rest : List Packet} (h : b.TakenFrom c k rest) :
    c.ctl = b.ctl ∧ c.clk = b.clk ∧ c.way.drops = b.way.drops ∧ c.hog.egress = b.hog.egress ∧ c.way.launch = b.way.launch :=
  ⟨congrArg (fun w : Way => w.ctl) h.way, congrArg (fun w : Way => w.clk) h.way, by rw [h.way],
    congrArg (fun w : Way => w.egress) h.way, by rw [h.way]⟩

/-- The head of the queue that round-robin picks is taken and runs the egress stages. -/
theorem Blk.schedule_of_pick {n tc' : Nat} (life : (b.cfg.port l).life = .enabled) (up : (b.lane l).link = .up)
    (due : ∀ k < 8, b.dueHead l k = none) {cs : List (QKey × Nat × Nat)} (cands : b.portCandidates l = cs)
    (pick : drrPick b cs = some (.port l tc', n)) (hp : (b.tmq (.port l tc')).pkts = p :: rest) (miss : Bool) :
    b.schedule l miss = (Blk.egress (((b.takeTokens l tc' p).setTmq
      { (b.takeTokens l tc' p).tmq (.port l tc') with pkts := rest }).drrCharge cs (.port l tc') n p.frame.length)
        l p miss).pfcSettle := by
  have calm : ¬ ((b.cfg.port l).life ≠ .enabled ∨ (b.lane l).link ≠ .up ∨
      (List.range 8).any (fun c => (b.dueHead l c).isSome) = true) := by
    rintro (h | h | h)
    · exact h life
    · exact h up
    · obtain ⟨k, hk, some⟩ := List.any_eq_true.mp h
      rw [due k (List.mem_range.mp hk)] at some
      exact Bool.false_ne_true some
  unfold Blk.schedule
  rw [if_neg calm, cands]
  dsimp only
  rw [pick]
  dsimp only
  rw [hp]

/-- A class that alone has a packet sends its head through the egress stages. -/
theorem Blk.schedule_alone (hp : (b.tmq (.port l tc.val)).pkts = p :: rest)
    (alone : ∀ k < 8, k ≠ tc.val → (b.tmq (.port l k)).pkts = []) (due : ∀ k < 8, b.dueHead l k = none)
    (life : (b.cfg.port l).life = .enabled) (up : (b.lane l).link = .up) (may : b.mayServe l tc.val = true)
    (level : (b.headClass l tc.val p).level < 8) (miss : Bool) :
    ∃ c, b.schedule l miss = (c.egress l p miss).pfcSettle ∧ b.TakenFrom c (.port l tc.val) rest := by
  obtain ⟨w, len', cands⟩ := Blk.portCandidates_alone hp alone may level
  obtain ⟨n, pick⟩ := drrPick_singleton b (.port l tc.val, w, len')
  rw [Blk.schedule_of_pick life up due cands pick hp miss]
  have tokens := b.way_takeTokens l tc.val p
  generalize b.takeTokens l tc.val p = b1 at tokens
  have taken := b1.pkts_setTmq b1 (.port l tc.val) rest
  have way : (b1.setTmq { b1.tmq (.port l tc.val) with pkts := rest }).way =
      { b1.way with queues := (b1.hog.setQueue { b1.tmq (.port l tc.val) with pkts := rest }).queues } := rfl
  generalize b1.setTmq { b1.tmq (.port l tc.val) with pkts := rest } = b2 at taken way
  obtain ⟨d, charge⟩ := b2.drrCharge_singleton (.port l tc.val) w len' n p.frame.length
  have read := b2.tmq_setTmq { b2.tmq (.port l tc.val) with deficit := d }
  rw [show TmQueue.key { b2.tmq (.port l tc.val) with deficit := d } = .port l tc.val from b2.key_tmq _] at read
  rw [charge]
  refine ⟨_, rfl, ?_, ?_⟩
  · show ({ b2.way with queues := _ } : Way) = _
    rw [way, tokens]
  · rw [read]
    exact taken

/-- With no stage enabled a packet that carries no mark leaves the egress stages as it came. -/
theorem Blk.egress_disabled {c : Blk} (hg : (c.cfgOf p.epoch).prog (pipeOfLane l) = some g)
    (off : ∀ x ∈ g.stages, x.enable = false) (mark : p.markCe = false) (miss : Bool) :
    ∃ d, c.Beside d ∧ c.egress l p miss = d.egressEnd l p := by
  have plain : ({ p with frame := if p.markCe then setCe p.frame p.md else p.frame, markCe := false } : Packet) = p := by
    obtain ⟨⟩ := p
    simp only at mark
    subst mark
    rfl
  unfold Blk.egress
  rw [plain]
  unfold Blk.egressRun
  dsimp only
  rw [hg]
  simp only [runStages_disabled off]
  exact ⟨_, .commitRun c (pipeOfLane l) rfl, rfl⟩

/-- With a mark or none, a packet without a destination is dropped in egress with its reason. -/
theorem Blk.way_egress_none {c : Blk} (hg : (c.cfgOf p.epoch).prog (pipeOfLane l) = some g)
    (off : ∀ x ∈ g.stages, x.enable = false) (dest : mdDest p.md = 0) (miss : Bool) :
    (c.egress l p miss).way = c.way.drop (pipeOfLane l) (mdReason p.md) :=
  Blk.way_egressRun_disabled (p := { p with frame := if p.markCe then setCe p.frame p.md else p.frame, markCe := false })
    hg off dest _ 20 [] miss

/-- A packet that asks for no change of its frame: the length check, and then the MAC or the launch queue. -/
theorem Blk.egressEnd_plain {d : Blk} (dest : mdDest p.md ≠ 0) (csum : mdCsum p.md = false) (sa : mdSa p.md = none)
    (stamp : p.stamp = none) : d.egressEnd l p =
      if ((d.cfgOf p.epoch).port l).maxFrame.toNat < p.frame.length + 4 then d.dropPkt p (pipeOfLane l) 0x08
      else if p.launch.isSome then d.launchEnter l p
      else { d with hog := { d.hog with egress := d.hog.egress ++ [{ lane := l, pkt := p }] } } := by
  have plain : ({ p with frame := p.frame, stamp := none } : Packet) = p := by
    obtain ⟨⟩ := p
    simp only at stamp
    subst stamp
    rfl
  unfold Blk.egressEnd
  rw [if_neg dest, csum, sa, stamp]
  simp only [Bool.false_eq_true, if_false, Blk.stampTx]
  rw [plain]

/-- A frame whose launch time is in range joins its launch queue. -/
theorem Blk.way_launchEnter {d : Blk} {u : Nat} (hu : p.launch = some u) (near : d.launchFar u = false) :
    ∃ late, (d.launchEnter l p).way.launch l = d.way.launch l ++ [{ p with late := late }] ∧
      (d.launchEnter l p).way.queues = d.way.queues := by
  unfold Blk.launchEnter
  rw [hu]
  dsimp only
  rw [near, if_neg Bool.false_ne_true]
  refine ⟨_, congrArg EthLane.launch (d.lane_updLane l _), rfl⟩

end Sys2Proof.Machine
end

section
/-! SUPPORT. The port's choice of its next frame (R281), as a command. -/

namespace Sys2Proof.Machine
open Sys2Proof

variable {s : State} {l : LaneId} {tc : Fin 8} {p : Packet} {rest : List Packet} {g : PipeProg} {c : Blk}

/-- What O35 says of a port that chooses its next frame: it leaves its queue, and `r` holds. -/
def Schedules (s : State) (l : LaneId) (tc : Fin 8) (miss : Bool) (rest : List Packet) (r : State → Prop) : Prop :=
  ∃ t, exec (.packetSchedule ⟨l, miss⟩) s = .next t ∧ (t.blk.tmq (.port l.val tc.val)).pkts = rest ∧ r t

/-- The frame taken from its queue goes on in `x`, and what follows is told of the way there. -/
theorem schedules_of_way {miss : Bool} {r : State → Prop} {x : Blk}
    (run : s.blk.schedule l.val miss = x.pfcSettle) (taken : s.blk.TakenFrom c (.port l.val tc.val) rest)
    (queues : x.way.queues = c.way.queues) (told : ∀ t : State, t.blk.way = x.way → r t) : Schedules s l tc miss rest r := by
  have way : (s.blk.schedule l.val miss).way = x.way := by rw [run, (Blk.Beside.pfcSettle x).way]
  have queue : (s.blk.schedule l.val miss).hog.queues = c.hog.queues := (congrArg Way.queues way).trans queues
  refine ⟨{ s with blk := s.blk.schedule l.val miss }, rfl, ?_, told _ way⟩
  have read : (s.blk.schedule l.val miss).tmq (.port l.val tc.val) = c.tmq (.port l.val tc.val) := by
    unfold Blk.tmq Hog.queue
    rw [queue]
  exact (congrArg TmQueue.pkts read).trans taken.pkts

/-- A class that alone has a packet hands its head on, with no stage enabled. -/
theorem schedule_packet (miss : Bool) (hp : (s.blk.tmq (.port l.val tc.val)).pkts = p :: rest)
    (alone : ∀ k < 8, k ≠ tc.val → (s.blk.tmq (.port l.val k)).pkts = []) (due : ∀ k < 8, s.blk.dueHead l.val k = none)
    (life : (s.blk.cfg.port l.val).life = .enabled) (up : (s.blk.lane l.val).link = .up)
    (may : s.blk.mayServe l.val tc.val = true) (level : (s.blk.headClass l.val tc.val p).level < 8)
    (hg : (s.blk.cfgOf p.epoch).prog (pipeOfLane l.val) = some g) (off : ∀ x ∈ g.stages, x.enable = false) :
    let dropped := fun (t : State) (reason : Nat) =>
      (t.blk.pipe (pipeOfLane l.val)).drops.get 0 reason = sat64 ((s.blk.pipe (pipeOfLane l.val)).drops.get 0 reason) 1
    (mdDest p.md = 0 → Schedules s l tc miss rest (fun t => dropped t (mdReason p.md))) ∧
    (mdDest p.md ≠ 0 → mdCsum p.md = false → mdSa p.md = none → p.stamp = none → p.markCe = false →
      (((s.blk.cfgOf p.epoch).port l.val).maxFrame.toNat < p.frame.length + 4 →
        Schedules s l tc miss rest (fun t => dropped t 8)) ∧
      (p.frame.length + 4 ≤ ((s.blk.cfgOf p.epoch).port l.val).maxFrame.toNat →
        (p.launch = none → Schedules s l tc miss rest (fun t =>
          t.blk.hog.egress = s.blk.hog.egress ++ [{ lane := l.val, pkt := p }])) ∧
        (∀ u, p.launch = some u → s.blk.launchFar u = false → Schedules s l tc miss rest (fun t => ∃ late,
          (t.blk.lane l.val).launch = (s.blk.lane l.val).launch ++ [{ p with late := late }])))) := by
  intro dropped
  obtain ⟨c, run, taken⟩ := Blk.schedule_alone hp alone due life up may level miss
  obtain ⟨ctl, clk, drops, egress, held⟩ := taken.kept
  have cfg : c.cfgOf p.epoch = s.blk.cfgOf p.epoch := by
    unfold Blk.cfgOf
    rw [ctl]
  rw [← cfg] at hg ⊢
  have counted : ∀ (t : State) (x : Blk) (reason : Nat), t.blk.way = x.way →
      x.way = c.way.drop (pipeOfLane l.val) reason → dropped t reason := by
    intro t x reason same dropped
    have read := congrArg (fun w : Way => (w.drops (pipeOfLane l.val)).get 0 reason) (same.trans dropped)
    rw [Way.drops_drop, drops] at read
    exact read
  refine ⟨fun dest => ?_, fun dest csum sa stamp mark => ?_⟩
  · have way := Blk.way_egress_none (c := c) hg off dest miss
    exact schedules_of_way run taken (by rw [way, Way.queues_drop]) fun t same => counted t _ _ same way
  obtain ⟨d, beside, ran⟩ := Blk.egress_disabled (c := c) hg off mark miss
  have at_end := Blk.egressEnd_plain (d := d) (l := l.val) dest csum sa stamp
  rw [Blk.cfgOf_of_way beside.way] at at_end
  rw [ran] at run
  refine ⟨fun long => ?_, fun fits => ⟨fun none => ?_, fun u hu near => ?_⟩⟩
  · rw [at_end, if_pos long] at run
    have way : (d.dropPkt p (pipeOfLane l.val) 8).way = c.way.drop (pipeOfLane l.val) 8 := by rw [Blk.way_dropPkt, beside.way]
    exact schedules_of_way run taken (by rw [way, Way.queues_drop]) fun t same => counted t _ _ same way
  · rw [at_end, if_neg (Nat.not_lt.mpr fits), none, if_neg (by decide)] at run
    have queues : d.way.queues = c.way.queues := congrArg Way.queues beside.way
    have kept : d.hog.egress = c.hog.egress := congrArg Way.egress beside.way
    refine schedules_of_way run taken queues fun t same => ?_
    have read : t.blk.hog.egress = d.hog.egress ++ [{ lane := l.val, pkt := p }] := congrArg Way.egress same
    rw [read, kept, egress]
  · rw [at_end, if_neg (Nat.not_lt.mpr fits), hu, if_pos Option.isSome_some] at run
    have now : d.clk = c.clk := congrArg Way.clk beside.way
    have range : d.launchFar u = false := by
      unfold Blk.launchFar
      rw [now, clk]
      exact near
    obtain ⟨late, entered, queues⟩ := Blk.way_launchEnter (l := l.val) hu range
    refine schedules_of_way run taken (queues.trans (congrArg Way.queues beside.way)) fun t same => ⟨late, ?_⟩
    have read := (congrFun (congrArg Way.launch same) l.val).trans entered
    rw [beside.way, held] at read
    exact read

end Sys2Proof.Machine
end

section
/-! SUPPORT. What the bridge carries to the other half (R18, R23, R278, R372). -/

namespace Sys2Proof.Machine
open Sys2Proof

variable {b : Blk} {h : Half} {c : Crossing} {cs : List Crossing} {p : Packet} {k : QKey}

/-- Elements that a filter passes over may leave the list. -/
theorem filter_erase_of_neg {α : Type} [BEq α] [LawfulBEq α] {f : α → Bool} {x : α} (hx : f x = false) (l : List α) :
    (l.erase x).filter f = l.filter f := by
  induction l with
  | nil => rfl
  | cons y l ih =>
    by_cases hy : (y == x) = true
    · rw [List.erase_cons, if_pos hy, eq_of_beq hy, List.filter_cons, hx, if_neg Bool.false_ne_true]
    · rw [List.erase_cons, if_neg hy, List.filter_cons, List.filter_cons, ih]

theorem Blk.crossHalf_head (hc : b.crossingTo h = c :: cs) : b.crossHalf c.dest = h := by
  have mem : c ∈ b.crossingTo h := hc ▸ List.mem_cons_self
  exact eq_of_beq (List.mem_filter.mp mem).2

/-- Of one kind alone the oldest has the turn. -/
theorem Blk.bridgeTransfer_alone (hc : b.crossingTo h = c :: cs) (quiet : (b.bridgeTo h).retrain = none)
    (one : b.dataWait h = false ∨ b.cellsWait h = false) : b.bridgeTransfer h = b.crossed c := by
  have turn : (c.isCells == b.cellsTurn h) = true := by
    rcases one with data | cells
    · have kind : c.isCells = true := by
        rw [Blk.dataWait, hc, List.any_cons, Bool.or_eq_false_iff, Bool.or_eq_false_iff] at data
        simpa using data.1.1
      have waits : b.cellsWait h = true := by
        rw [Blk.cellsWait, hc, List.any_cons, kind, Bool.true_or]
      rw [Blk.cellsTurn, waits, data, kind]
      rfl
    · have kind : c.isCells = false := by
        rw [Blk.cellsWait, hc, List.any_cons, Bool.or_eq_false_iff] at cells
        exact cells.1
      rw [Blk.cellsTurn, cells, kind]
      rfl
  unfold Blk.bridgeTransfer
  rw [quiet, if_neg (by decide), hc, List.find?_cons_of_pos (p := fun c : Crossing => c.isCells == b.cellsTurn h) turn]

/-- The shared class notes what it carried beside everything else. -/
theorem Blk.carried_eq (b : Blk) (h : Half) (cells : Bool) (n : Nat) : ∃ x, b.carried h cells n = { b with brg := x } := by
  cases h
  · exact ⟨_, rfl⟩
  · exact ⟨_, rfl⟩

/-- The state in which a packet has come over the bridge. -/
def Blk.arrived (b : Blk) (c : Crossing) (x : Bridge) : Blk :=
  { b with brg := x, hog := { b.hog with crossing := b.hog.crossing.erase c } }

theorem Blk.crossed_eq (b : Blk) (c : Crossing) : ∃ x, b.crossed c =
    if ¬ b.serving (b.crossHalf c.dest) then ((b.arrived c x).dropDown c.pkt (b.crossHalf c.dest)).pfcSettle
    else match c.dest with
      | .queue k => ((b.arrived c x).takeIn { c.pkt with inHeadroom := false } k).pfcSettle
      | .engine h => ((b.arrived c x).engineTake { c.pkt with inHeadroom := false } h).pfcSettle := by
  obtain ⟨x, carried⟩ := b.carried_eq (b.crossHalf c.dest) c.isCells c.pkt.frame.length
  refine ⟨x, ?_⟩
  unfold Blk.crossed
  rw [carried]
  rfl

/-- A packet bound for a half that is down is dropped, and counted at the bridge. -/
theorem Blk.way_dropDown (b : Blk) (p : Packet) (h : Half) : (b.dropDown p h).way =
    { b.way.drop p.pipe 3 with halfDown := b.halfDown.upd 0 h.code (fun n => sat64 n 1) } := by
  have dropped := b.way_dropPkt p p.pipe 3
  have down : (b.dropPkt p p.pipe 3).halfDown = b.halfDown := congrArg (fun w : Way => w.halfDown) dropped
  show ({ (b.dropPkt p p.pipe 3).way with
    halfDown := (b.dropPkt p p.pipe 3).halfDown.upd 0 h.code (fun n => sat64 n 1) } : Way) = _
  rw [dropped, down]

/-- A queue takes a packet that comes over the bridge to its half as it took it before. -/
theorem Blk.admits_arrived (hq : b.crossHalf c.dest = b.halfOfQ k) (x : Bridge) (epoch n : Nat) :
    (b.arrived c x).admits epoch k n = b.admits epoch k n := by
  have other : (b.arrived c x).crossingTo (b.halfOfQ k).other = b.crossingTo (b.halfOfQ k).other := by
    refine filter_erase_of_neg ?_ b.hog.crossing
    show (b.crossHalf c.dest == (b.halfOfQ k).other) = false
    rw [hq]
    cases b.halfOfQ k <;> rfl
  have used : (b.arrived c x).sharedUsed epoch (b.halfOfQ k) = b.sharedUsed epoch (b.halfOfQ k) := by
    unfold Blk.sharedUsed
    rw [other]
    rfl
  have fits : ∀ alpha len mn, (b.arrived c x).sharedFits epoch (b.halfOfQ k) alpha len mn n =
      b.sharedFits epoch (b.halfOfQ k) alpha len mn n := by
    intro alpha len mn
    unfold Blk.sharedFits
    rw [used]
    rfl
  unfold Blk.admits
  rw [show (b.arrived c x).halfOfQ k = b.halfOfQ k from rfl]
  simp only [fits]
  rfl

/-- An admitted packet ends its queue. -/
theorem Blk.enqueue_pkts (b : Blk) (p : Packet) (k : QKey) (headroom : Bool) :
    ∃ ce, ((b.enqueue p k headroom).tmq k).pkts = (b.tmq k).pkts ++ [{ p with markCe := ce, inHeadroom := headroom }] ∧
      (b.enqueue p k headroom).hog.crossing = b.hog.crossing := by
  unfold Blk.enqueue
  extract_lets ce b1 b2 q
  have drew : b.Beside b2 := (Blk.Beside.drawn b 1).trans (.ite (.pipeCnt b1 _ 1 (by decide)) (.refl b1))
  have settled := (Blk.Beside.pfcSettle (b2.setTmq
    { q with pkts := q.pkts ++ [{ p with markCe := ce, inHeadroom := headroom }] })).way
  have before : q.pkts = (b.tmq k).pkts := congrArg (fun w : Way => (w.queue k).pkts) drew.way
  refine ⟨ce, ?_, ?_⟩
  · have read := congrArg (fun w : Way => (w.queue k).pkts) settled
    exact read.trans ((b2.pkts_setTmq b2 k _).trans (by rw [before]))
  · have read := congrArg (fun w : Way => w.crossing) settled
    exact read.trans (congrArg (fun w : Way => w.crossing) drew.way)

/-- A queue of a port that is up takes an admitted packet. -/
theorem Blk.takeIn_admitted {x y : Nat} (up : (b.lane x).link = .up) (life : (b.cfg.port x).life = .enabled)
    (admitted : b.admits p.epoch (.port x y) p.cells = true) : b.takeIn p (.port x y) = b.enqueue p (.port x y) false := by
  unfold Blk.takeIn
  extract_lets down
  have on : down = false := decide_eq_false (by simp [up, life])
  rw [if_neg (on ▸ Bool.false_ne_true), if_pos admitted]

/-- What O35 says of a packet that crosses the bridge. -/
theorem bridge_packet {s : State} (hc : s.blk.crossingTo h = c :: cs) (quiet : (s.blk.bridgeTo h).retrain = none) :
    let goes := fun (r : State → Prop) => ∃ t, exec (.bridgeCellTransfer h) s = .next t ∧
      t.blk.hog.crossing = s.blk.hog.crossing.erase c ∧ r t
    (s.blk.dataWait h = false ∨ s.blk.cellsWait h = false → s.blk.serving h = false → goes (fun t =>
      (t.blk.pipe c.pkt.pipe).drops.get 0 3 = sat64 ((s.blk.pipe c.pkt.pipe).drops.get 0 3) 1 ∧
      t.blk.halfDown.get 0 h.code = sat64 (s.blk.halfDown.get 0 h.code) 1)) ∧
    (s.blk.dataWait h = false → s.blk.serving h = true → ∀ x y, c.dest = .queue (.port x y) →
      (s.blk.lane x).link = .up → (s.blk.cfg.port x).life = .enabled →
      s.blk.admits c.pkt.epoch (.port x y) c.pkt.cells = true →
      goes (fun t => ∃ ce, (t.blk.tmq (.port x y)).pkts =
        (s.blk.tmq (.port x y)).pkts ++ [{ c.pkt with markCe := ce, inHeadroom := false }])) ∧
    (s.blk.cellsWait h = false → s.blk.serving h = true → goes (fun t =>
      t.blk.way.engine h = s.blk.way.engine h ++ [{ c.pkt with inHeadroom := false }])) := by
  intro goes
  have half := Blk.crossHalf_head hc
  obtain ⟨z, crossed⟩ := s.blk.crossed_eq c
  rw [half] at crossed
  refine ⟨fun one down => ?_, fun data up x y dest link life admitted => ?_, fun cells up => ?_⟩
  · have run := Blk.bridgeTransfer_alone hc quiet one
    rw [crossed, if_pos (by rw [down]; decide)] at run
    have way : (s.blk.bridgeTransfer h).way = _ := (congrArg Blk.way run).trans
      ((Blk.Beside.pfcSettle _).way.trans ((s.blk.arrived c z).way_dropDown c.pkt h))
    refine ⟨{ s with blk := s.blk.bridgeTransfer h }, rfl, congrArg (fun w : Way => w.crossing) way, ?_, ?_⟩
    · exact (congrArg (fun w : Way => (w.drops c.pkt.pipe).get 0 3) way).trans ((s.blk.arrived c z).way.drops_drop c.pkt.pipe 3)
    · exact (congrArg (fun w : Way => w.halfDown.get 0 h.code) way).trans
        (Tab.get_upd_same 0 s.blk.halfDown h.code (fun n => sat64 n 1))
  · have run := Blk.bridgeTransfer_alone hc quiet (Or.inl data)
    have queued : s.blk.crossHalf c.dest = s.blk.halfOfQ (.port x y) := by rw [dest]; rfl
    have took : (s.blk.arrived c z).takeIn { c.pkt with inHeadroom := false } (.port x y) = _ :=
      Blk.takeIn_admitted link life ((Blk.admits_arrived queued z _ _).trans admitted)
    rw [crossed, if_neg (by rw [up]; decide), dest] at run
    dsimp only at run
    rw [took] at run
    have way : (s.blk.bridgeTransfer h).way = _ := (congrArg Blk.way run).trans (Blk.Beside.pfcSettle _).way
    obtain ⟨ce, pkts, crossing⟩ := (s.blk.arrived c z).enqueue_pkts { c.pkt with inHeadroom := false } (.port x y) false
    exact ⟨{ s with blk := s.blk.bridgeTransfer h }, rfl, (congrArg (fun w : Way => w.crossing) way).trans crossing,
      ce, (congrArg (fun w : Way => (w.queue (.port x y)).pkts) way).trans pkts⟩
  · have run := Blk.bridgeTransfer_alone hc quiet (Or.inr cells)
    have kind : c.isCells = false := by
      rw [Blk.cellsWait, hc, List.any_cons, Bool.or_eq_false_iff] at cells
      exact cells.1
    rw [crossed, if_neg (by rw [up]; decide)] at run
    cases dest : c.dest with
    | queue k => rw [Crossing.isCells, dest] at kind; exact absurd kind.symm Bool.false_ne_true
    | engine h' =>
      have here : h' = h := by rw [dest] at half; exact half
      rw [dest, here] at run
      have way : (s.blk.bridgeTransfer h).way = _ := (congrArg Blk.way run).trans (Blk.Beside.pfcSettle _).way
      refine ⟨{ s with blk := s.blk.bridgeTransfer h }, rfl, (congrArg (fun w : Way => w.crossing) way).trans ?_,
        (congrArg (fun w : Way => w.engine h) way).trans ?_⟩
      · cases h <;> rfl
      · cases h <;> rfl

end Sys2Proof.Machine
end

section
/-! SUPPORT. Delivery to a host (R281, R286). -/

namespace Sys2Proof.Machine
open Sys2Proof

variable {b : Blk} {i w h : Nat} {q : TmQueue} {p : Packet} {rest : List Packet} {e : Entry}

/-- The one entry of a queue, finished, leaves it. -/
theorem Blk.fetched_release {out : Option Cpl} (hf : (b.wq i w).fetched = [{ e with st := .finished out }]) :
    ((Blk.release 1 b i w).wq i w).fetched = [] := by
  have gone : ((b.updWq i w (fun w => { w with fetched := [] })).wq i w).fetched = [] := by rw [Blk.wq_updWq]
  unfold Blk.release
  rw [hf]
  dsimp only
  unfold Blk.release
  split
  · rw [Blk.wq, (Blk.Beside.complete _ _ _ _ _ _ _).wqs]
    exact gone
  · exact gone

/-- The one entry of a queue finishes, and leaves it. -/
theorem Blk.fetched_finish (hf : (b.wq i w).fetched = [e]) (status : Nat) (c : CplF) :
    ((b.finish i w e.idx status c).wq i w).fetched = [] := by
  have entry : (b.wq i w).entry e.idx = some e := by
    unfold Wq.entry
    rw [hf]
    exact List.find?_cons_of_pos (p := fun x : Entry => x.idx == e.idx) BEq.rfl
  unfold Blk.finish
  rw [entry]
  dsimp only
  generalize (if (weQuiet e.raw && status == 0) = true then none else some c.raw) = out
  have finished : ((b.updWq i w (fun w => w.updEntry e.idx (fun e => { e with st := .finished out }))).wq i w).fetched =
      [{ e with st := .finished out }] := by
    rw [Blk.wq_updWq, Wq.updEntry, hf]
    exact congrArg (fun x => [x]) (if_pos rfl)
  rw [finished]
  exact Blk.fetched_release finished

/-- The one queue that holds a packet for a host with a buffer is the one that is served. -/
theorem Blk.deliverCandidates_alone (hq : b.hog.queues = [q]) (hk : q.key = .deliver i w) (hp : q.pkts = p :: rest)
    (port : ((b.instCfg i).inst i).port.toNat = h) (can : b.instCan i = true) (posted : (b.wq i w).posted = some e) :
    b.deliverCandidates h = [(.deliver i w, 256, p.frame.length)] := by
  unfold Blk.deliverCandidates
  rw [hq, List.filterMap_cons, hk, hp]
  dsimp only
  rw [if_pos ⟨port, by rw [posted]; rfl, can⟩]
  rfl

/-- What stands when a host takes a packet: everything but its queue. -/
theorem Blk.deliver_alone (hq : b.hog.queues = [q]) (hk : q.key = .deliver i w) (hp : q.pkts = p :: rest)
    (port : ((b.instCfg i).inst i).port.toNat = h) (can : b.instCan i = true) (hf : (b.wq i w).fetched = [e])
    (started : e.st = .started) (ans : Ans) : ∃ g, (g.queue (.deliver i w)).pkts = rest ∧
      b.deliver h ans =
        if rvLen e.raw < p.frame.length then (Blk.dropPkt { b with hog := g } p (pipeOfPort h) 0x0B).pfcSettle
        else match Blk.writeFault { b with hog := g } i (rvAddr e.raw) ans with
          | some (st, b2) => (b2.finish i w e.idx st (cplOf e w st 0)).pfcSettle
          | none => ((Blk.instWrite { b with hog := g } i 1 (rvAddr e.raw) p.frame).finish i w e.idx 0
            { cplOf e w 0 p.frame.length with
              tsValid := !p.origin.fromHost
              tail := if !p.origin.fromHost then mdGet p.md 384 30 + mdGet p.md 416 16 * 2 ^ 32 + mdGet p.md 432 8 * 2 ^ 48
                else 0 }).pfcSettle := by
  have posted : (b.wq i w).posted = some e := by
    unfold Wq.posted
    rw [hf, List.find?_cons_of_pos (by rw [started])]
  have queue : b.tmq (.deliver i w) = q := by
    unfold Blk.tmq Hog.queue
    rw [hq, List.find?_cons_of_pos (by rw [hk]; exact BEq.rfl)]
    rfl
  obtain ⟨n, pick⟩ := drrPick_singleton b (.deliver i w, 256, p.frame.length)
  have pkts : (b.tmq (.deliver i w)).pkts = p :: rest := by rw [queue, hp]
  have taken := b.pkts_setTmq b (.deliver i w) rest
  obtain ⟨d, charge⟩ := (b.setTmq { b.tmq (.deliver i w) with pkts := rest }).drrCharge_singleton (.deliver i w) 256
    p.frame.length n p.frame.length
  have same : b.setTmq { b.tmq (.deliver i w) with pkts := rest } =
      { b with hog := b.hog.setQueue { b.tmq (.deliver i w) with pkts := rest } } := rfl
  generalize b.hog.setQueue { b.tmq (.deliver i w) with pkts := rest } = g at same
  rw [same] at charge taken
  have read := Blk.tmq_setTmq { b with hog := g } { Blk.tmq { b with hog := g } (.deliver i w) with deficit := d }
  rw [show TmQueue.key { Blk.tmq { b with hog := g } (.deliver i w) with deficit := d } = .deliver i w from
    Blk.key_tmq _ _] at read
  refine ⟨g.setQueue { Blk.tmq { b with hog := g } (.deliver i w) with deficit := d },
    (congrArg TmQueue.pkts read).trans taken, ?_⟩
  unfold Blk.deliver
  rw [Blk.deliverCandidates_alone hq hk hp port can posted]
  dsimp only
  rw [pick]
  dsimp only
  rw [pkts, posted]
  dsimp only
  rw [same, charge]
  rfl

/-- What O35 says of the delivery of a packet to its host. -/
theorem deliver_packet {s : State} {inst : InstId} {wq : Fin 64} {hp : PortId} {ans : Ans} (hq : s.blk.hog.queues = [q])
    (hk : q.key = .deliver inst.val wq.val) (pkts : q.pkts = p :: rest)
    (port : ((s.blk.instCfg inst.val).inst inst.val).port.toNat = hp.val) (can : s.blk.instCan inst.val = true)
    (hf : (s.blk.wq inst.val wq.val).fetched = [e]) (started : e.st = .started) :
    let gives := fun (r : State → Prop) => ∃ t, exec (.hostDelivery hp ans) s = .next t ∧ (t.blk.tmq q.key).pkts = rest ∧ r t
    (p.launch = none → rvLen e.raw < p.frame.length → gives (fun t => (t.blk.wq inst.val wq.val).fetched = [e] ∧
      (t.blk.pipe (pipeOfPort hp.val)).drops.get 0 0x0B = sat64 ((s.blk.pipe (pipeOfPort hp.val)).drops.get 0 0x0B) 1)) ∧
    (p.frame.length ≤ rvLen e.raw → gives (fun t => (t.blk.wq inst.val wq.val).fetched = [] ∧
      ((∀ x, s.blk.xlated inst.val (rvAddr e.raw) ans ≠ .xfault x) →
        .inst inst.val (rvAddr e.raw) p.frame ∈ t.blk.out))) := by
  intro gives
  obtain ⟨g, left, run⟩ := Blk.deliver_alone hq hk pkts port can hf started ans
  have queued : ∀ t : Blk, t.way.queues = g.queues → (t.tmq q.key).pkts = rest := by
    intro t queues
    rw [hk, ← left]
    unfold Blk.tmq Hog.queue
    rw [show t.hog.queues = g.queues from queues]
  refine ⟨fun launch short => ?_, fun fits => ?_⟩
  · rw [if_pos short] at run
    have settled := Blk.Beside.pfcSettle (Blk.dropPkt { s.blk with hog := g } p (pipeOfPort hp.val) 0x0B)
    rw [← run] at settled
    have way := settled.way.trans (Blk.way_dropPkt _ _ _ _)
    have kept : (Blk.dropPkt { s.blk with hog := g } p (pipeOfPort hp.val) 0x0B).wqs = s.blk.wqs := by
      unfold Blk.dropPkt Blk.endLaunch
      rw [launch]
      rfl
    have wqs := settled.wqs.trans kept
    refine ⟨{ s with blk := s.blk.deliver hp.val ans }, rfl, queued _ (congrArg (fun w : Way => w.queues) way), ?_, ?_⟩
    · show ((s.blk.deliver hp.val ans).wq inst.val wq.val).fetched = [e]
      rw [Blk.wq, wqs]
      exact hf
    · exact (congrArg (fun w : Way => (w.drops (pipeOfPort hp.val)).get 0 0x0B) way).trans (Way.drops_drop _ _ _)
  rw [if_neg (Nat.not_lt.mpr fits)] at run
  have ends : ∀ (c : Blk) (status : Nat) (cpl : CplF), Blk.Beside { s.blk with hog := g } c →
      s.blk.deliver hp.val ans = (c.finish inst.val wq.val e.idx status cpl).pfcSettle →
      ((s.blk.deliver hp.val ans).tmq q.key).pkts = rest ∧ ((s.blk.deliver hp.val ans).wq inst.val wq.val).fetched = [] ∧
        ∀ x ∈ c.out, x ∈ (s.blk.deliver hp.val ans).out := by
    intro c status cpl beside ran
    have settled := Blk.Beside.pfcSettle (c.finish inst.val wq.val e.idx status cpl)
    rw [← ran] at settled
    obtain ⟨way, out⟩ := c.way_finish inst.val wq.val e.idx status cpl
    have fetched : (c.wq inst.val wq.val).fetched = [e] := by
      rw [Blk.wq, beside.wqs]
      exact hf
    have queues := congrArg (fun w : Way => w.queues) ((settled.way.trans way).trans beside.way)
    refine ⟨queued _ queues, ?_, fun x hx => settled.out x (out x hx)⟩
    rw [Blk.wq, settled.wqs]
    exact Blk.fetched_finish fetched status cpl
  by_cases ok : ∀ x, s.blk.xlated inst.val (rvAddr e.raw) ans ≠ .xfault x
  · have fault : Blk.writeFault { s.blk with hog := g } inst.val (rvAddr e.raw) ans = none := by
      unfold Blk.writeFault
      split
      next x hx => exact absurd hx (ok x)
      · rfl
    rw [fault] at run
    obtain ⟨queue, fetched, out⟩ := ends _ _ _ (.instWrite _ _ _ _ _) run
    exact ⟨{ s with blk := s.blk.deliver hp.val ans }, rfl, queue, fetched, fun _ => out _ List.mem_cons_self⟩
  · obtain ⟨x, found⟩ := not_forall_not.mp ok
    have fault : Blk.writeFault { s.blk with hog := g } inst.val (rvAddr e.raw) ans =
        some (dataReason x, Blk.xlateFault { s.blk with hog := g } inst.val (xcode x) (rvAddr e.raw)) := by
      unfold Blk.writeFault
      rw [show Blk.xlated { s.blk with hog := g } inst.val (rvAddr e.raw) ans = .xfault x from found]
    rw [fault] at run
    obtain ⟨queue, fetched, -⟩ := ends _ _ _ (.xlateFault _ _ _ _) run
    exact ⟨{ s with blk := s.blk.deliver hp.val ans }, rfl, queue, fetched, fun h => absurd h ok⟩

end Sys2Proof.Machine
end

section
/-! SUPPORT. The packet path (O35). -/

namespace Sys2Proof.Machine
open Sys2Proof

/-- The queue that a command of aging names. -/
def agesQueue (ref : TmRef) (k : QKey) : Prop := match ref with
  | .port x y => k = QKey.port x.val y.val
  | .deliver i y => k = .deliver i.val y.val
  | .rmt _ => False

theorem exec_cellAged {ref : TmRef} {k : QKey} (h : agesQueue ref k) (s : State) :
    exec (.cellAged ref) s = .next { s with blk := s.blk.ageQueue k } := by
  cases ref with
  | port x y => obtain rfl : k = _ := h; rfl
  | deliver i y => obtain rfl : k = _ := h; rfl
  | rmt h' => exact h.elim

/-- What O35 says of packets that are too old: in a queue, on their way to it, or in an engine's queue. -/
theorem aged_packet (s : State) (ref : TmRef) (p : Packet) (rest : List Packet) (c : Crossing) (h : Half) :
    (∀ k, agesQueue ref k →
      (s.blk.hog.crossing.find? (fun c => c.dest == CrossDest.queue k) = none → (s.blk.tmq k).pkts = p :: rest →
        1000000 < s.blk.mono - p.born →
        ∃ t, exec (.cellAged ref) s = .next t ∧ (t.blk.tmq k).pkts = rest ∧
          (t.blk.pipe (s.blk.pipeOfQ k)).drops.get 0 7 = sat64 ((s.blk.pipe (s.blk.pipeOfQ k)).drops.get 0 7) 1) ∧
      (s.blk.hog.crossing.find? (fun c => c.dest == CrossDest.queue k) = some c → (s.blk.tmq k).pkts = [] →
        1000000 < s.blk.mono - c.pkt.born →
        ∃ t, exec (.cellAged ref) s = .next t ∧ t.blk.hog.crossing = s.blk.hog.crossing.erase c ∧
          (t.blk.pipe (s.blk.pipeOfQ k)).drops.get 0 7 = sat64 ((s.blk.pipe (s.blk.pipeOfQ k)).drops.get 0 7) 1)) ∧
    (ref = .rmt h → s.blk.hog.crossing.find? (fun c => c.dest == CrossDest.engine h) = none →
      s.blk.way.engine h = p :: rest → 1000000 < s.blk.mono - p.born →
      ∃ t, exec (.cellAged ref) s = .next t ∧
        (t.blk.pipe p.pipe).drops.get 0 7 = sat64 ((s.blk.pipe p.pipe).drops.get 0 7) 1 ∧ t.blk.way.engine h = rest) := by
  refine ⟨fun k hk => ⟨fun none hp old => ?_, fun found empty old => ?_⟩, fun hr none hp old => ?_⟩
  · have aged := Blk.way_ageQueue_head none hp old
    refine ⟨_, exec_cellAged hk s, ?_, ?_⟩
    · exact (congrArg (fun w : Way => (w.queue k).pkts) aged).trans (s.blk.pkts_setTmq s.blk k rest)
    · exact (congrArg (fun w : Way => (w.drops (s.blk.pipeOfQ k)).get 0 7) aged).trans (Way.drops_drop _ _ 7)
  · have aged := Blk.way_ageQueue_crossing found empty old
    refine ⟨_, exec_cellAged hk s, congrArg (fun w : Way => w.crossing) aged, ?_⟩
    exact (congrArg (fun w : Way => (w.drops (s.blk.pipeOfQ k)).get 0 7) aged).trans (Way.drops_drop _ _ 7)
  · subst hr
    have aged := Blk.way_ageEngine none hp old
    refine ⟨{ s with blk := s.blk.ageEngine h }, rfl, ?_, ?_⟩
    · refine (congrArg (fun w : Way => (w.drops p.pipe).get 0 7) aged).trans ((Way.drops_drop _ p.pipe 7).trans ?_)
      cases h <;> rfl
    · refine (congrArg (fun w : Way => w.engine h) aged).trans ?_
      cases h <;> rfl

/-- Settles O35: a packet enters by `enters_eth` and `enters_host`, comes back from the HBM table by `Blk.hbmReturn_drops`, leaves
its queue by `schedule_packet`, ages by `aged_packet`, crosses by `bridge_packet`, and reaches its host by `deliver_packet`. -/
theorem packetPath : Obligations.PacketPath := by
  unfold Obligations.PacketPath
  intro s l h hp inst wq tc pi miss f fs hf hfs g w ws q p rest c cs e ans ref b pl dropped key enters
  refine ⟨fun hr free => enters_eth miss g hr free, fun hr free => enters_host miss g hr free, ?_, ?_, ?_,
    fun hc quiet => ?_, fun hq hk pkts port can hfe started => deliver_packet hq hk pkts port can hfe started⟩
  · intro hw k hg off dest
    obtain ⟨waits, drops⟩ := Blk.hbmReturn_drops (g := g) hw off dest hg
    exact ⟨{ s with blk := b.hbmReturn pi.val }, rfl, waits, drops⟩
  · intro hpk alone due life up may level hg off
    exact schedule_packet miss hpk alone due life up may level hg off
  · obtain ⟨queues, engine⟩ := aged_packet s ref p rest c h
    refine ⟨fun k hk => ?_, fun hr none hp old => ?_⟩
    · exact queues k (by cases ref <;> exact hk)
    · cases h <;> exact engine hr none hp old
  · exact bridge_packet hc quiet

end Sys2Proof.Machine
end

section
/-! SUPPORT. What completions, events and interrupts change: host ports, queues and their instances, lookaside units, what is
sent. -/

namespace Sys2Proof.Machine
open Sys2Proof

/-- The two blocks differ in what work queues' completions and events touch: the ports' own state, what was sent and the power
states of links, queues, instances, counts due at the trigger counters, lookaside units. -/
structure Blk.posts (b c : Blk) : Prop where
  rest : c = { b with ports := c.ports, out := c.out, pm := c.pm, wqs := c.wqs, cqs := c.cqs, eqs := c.eqs, mssCq := c.mssCq,
                      insts := c.insts, rmt := c.rmt, keys := { b.keys with units := c.keys.units } }

namespace Blk.posts

theorem refl (b : Blk) : b.posts b := ⟨rfl⟩

theorem trans {b c d : Blk} (h : b.posts c) (k : c.posts d) : b.posts d where
  rest := by conv => lhs; rw [k.rest, h.rest]

theorem ite {b c d : Blk} {p : Prop} [Decidable p] (h : b.posts c) (h' : b.posts d) : b.posts (if p then c else d) := by
  split
  · exact h
  · exact h'

theorem foldl {α : Type} {f : Blk → α → Blk} (h : ∀ (b : Blk) x, b.posts (f b x)) (l : List α) (b : Blk) :
    b.posts (l.foldl f b) := by
  induction l generalizing b with
  | nil => exact refl b
  | cons x l ih => exact (h b x).trans (ih _)

theorem of_reports {b c : Blk} (h : b.reports c) : b.posts c where
  rest := by rw [h.rest]

theorem elec {b c : Blk} (h : b.posts c) : c.elec = b.elec := (congrArg Blk.elec h.rest :)
theorem mss {b c : Blk} (h : b.posts c) : c.mss = b.mss := (congrArg Blk.mss h.rest :)
theorem rel {b c : Blk} (h : b.posts c) : c.rel = b.rel := (congrArg Blk.rel h.rest :)
theorem slot {b c : Blk} (h : b.posts c) (k : Nat) : c.slot k = b.slot k := (congrArg (·.slot k) h.rest :)
theorem lane {b c : Blk} (h : b.posts c) (l : Nat) : c.lane l = b.lane l := (congrArg (·.lane l) h.rest :)

/-! Events and interrupts (R64 to R72). -/

theorem instWrite (b : Blk) (i writer va : Nat) (l : List Byte) : b.posts (b.instWrite i writer va l) := ⟨rfl⟩

theorem updEvq (b : Blk) (r : EqR) (f : EvQ → EvQ) : b.posts (b.updEvq r f) := by
  cases r <;> exact ⟨rfl⟩

theorem eqWrite (b : Blk) (r : EqR) (a : Nat) (l : List Byte) : b.posts (b.eqWrite r a l) := by
  cases r <;> exact ⟨rfl⟩

theorem eqMirror (b : Blk) (r : EqR) : b.posts (b.eqMirror r) := by
  cases r with
  | f0 h => exact of_reports (b.reports_eqMirror_f0 h)
  | inst i e => exact ite (updEvq b (.inst i e) _) (eqWrite b _ _ _)

theorem eqPut (b : Blk) (r : EqR) (ev : Ev) (merged : Nat) : b.posts (b.eqPut r ev merged) :=
  ((eqWrite b _ _ _).trans (updEvq _ _ _)).trans (eqMirror _ _)

theorem eqTake (b : Blk) (r : EqR) (ev : Ev) : b.posts (b.eqTake r ev) :=
  ite (updEvq b _ _) (ite (updEvq b _ _) (ite (updEvq b _ _) (eqPut b _ _ _)))

theorem raise (fuel : Nat) (b : Blk) (r : EqR) (ev : Ev) : b.posts (Blk.raise fuel b r ev) := by
  induction fuel generalizing b r ev with
  | zero => exact eqTake b r ev
  | succ n ih =>
    unfold Blk.raise
    extract_lets was b1 h v b2
    have took : b.posts b1 := eqTake b r ev
    have sent : b.posts b2 :=
      took.trans (of_reports ((b1.reports_msiSend h r.isF1 v).trans (Blk.reports_evalIntx _ h r.isF1)))
    exact ite (ite (sent.trans (ih b2 _ _)) sent) (took.trans (of_reports (b1.reports_evalIntx _ _)))

/-! Completions (R113 to R116). -/

theorem updCqOf (b : Blk) (r : CqR) (f : Cq → Cq) : b.posts (b.updCqOf r f) := by
  cases r <;> exact ⟨rfl⟩

theorem cqEvent (b : Blk) (r : CqR) (type : Nat) : b.posts (b.cqEvent r type) := by
  unfold Blk.cqEvent
  split
  · exact raise 3 b _ _
  · exact refl b

theorem cqWrite (b : Blk) (r : CqR) (a : Nat) (l : List Byte) : b.posts (b.cqWrite r a l) := by
  cases r <;> exact ⟨rfl⟩

theorem cqMirror (b : Blk) (r : CqR) : b.posts (b.cqMirror r) := by
  cases r with
  | ctl h => exact ite ⟨rfl⟩ (refl b)
  | inst i q => exact ite (updCqOf b (.inst i q) _) (instWrite b _ _ _ _)
  | mss => exact refl b

theorem cqNotify (b : Blk) (r : CqR) : b.posts (b.cqNotify r) :=
  ite ((updCqOf b _ _).trans (cqEvent _ _ _)) (refl b)

theorem cqPut (b : Blk) (r : CqR) (x : HeldCpl) : b.posts (b.cqPut r x) := by
  unfold Blk.cqPut
  extract_lets pi b1 b2 b3
  have put : b.posts b3 := (((cqWrite b r _ _).trans (updCqOf b1 r _)).trans (cqMirror b2 r)).trans (cqNotify _ r)
  exact put.trans ⟨rfl⟩

theorem cqDrain (fuel : Nat) (b : Blk) (r : CqR) : b.posts (Blk.cqDrain fuel b r) := by
  induction fuel generalizing b with
  | zero => exact refl b
  | succ n ih =>
    unfold Blk.cqDrain
    split
    · exact refl b
    · exact ite (refl b) ((cqPut b r _).trans (ih _))

theorem complete (b : Blk) (r : CqR) (c : Cpl) (bump : Option Nat) (solicited : Bool) (epoch qpn : Nat) :
    b.posts (b.complete r c bump solicited epoch qpn) := by
  unfold Blk.complete
  extract_lets b1 b2
  have drained : b.posts b2 := (updCqOf b r _).trans (cqDrain _ b1 r)
  exact ite (drained.trans (cqEvent b2 _ _)) drained

/-! Entries of work queues, jobs, launches. -/

theorem release (fuel : Nat) (b : Blk) (i q : Nat) : b.posts (Blk.release fuel b i q) := by
  induction fuel generalizing b with
  | zero => exact refl b
  | succ n ih =>
    unfold Blk.release
    split
    · exact refl b
    · split
      · extract_lets b1 b2
        have done : b1.posts b2 := by
          unfold b2
          split
          · exact complete b1 _ _ _ _ _ _
          · exact refl b1
        exact (posts.trans ⟨rfl⟩ done).trans (ih b2)
      · exact refl b

theorem finish (b : Blk) (i q : Nat) (idx : W16) (status : Nat) (c : CplF) : b.posts (b.finish i q idx status c) := by
  unfold Blk.finish
  split
  · exact refl b
  · extract_lets out b1
    exact posts.trans ⟨rfl⟩ (release _ b1 i q)

theorem updUnit (b : Blk) (u : Nat) (f : Lu → Lu) : b.posts (b.updUnit u f) := ⟨rfl⟩

theorem jobEnd (b : Blk) (i q : Nat) (idx : W16) (u status length : Nat) : b.posts (b.jobEnd i q idx u status length) := by
  unfold Blk.jobEnd
  split
  · exact refl b
  · extract_lets b1
    have freed : b.posts b1 := ite (updUnit b u _) (refl b)
    exact (freed.trans (finish b1 _ _ _ _ _)).trans (ite (updUnit _ u _) (refl _))

theorem endJobs (b : Blk) (status : Nat) (p : Nat → Entry → Bool) : b.posts (b.endJobs status p) :=
  foldl (fun b _ => jobEnd b _ _ _ _ _ _) _ b

theorem endLaunch (b : Blk) (p : Packet) (status : Nat) : b.posts (b.endLaunch p status) := by
  unfold Blk.endLaunch
  split
  · split
    · exact ite (finish b _ _ _ _ _) (refl b)
    · exact refl b
  · exact refl b

end Blk.posts

end Sys2Proof.Machine
end

section
/-! SUPPORT. What a change of an Ethernet link leaves alone (R312, R313), and a reference clock that is lost or returns (R505). -/

namespace Sys2Proof.Machine
open Sys2Proof

/-- Links of the lanes `ls` may have changed, and packets queued for them are gone with their launches and completions; the
other lanes' links are as they were. -/
structure Blk.relinks (b c : Blk) (ls : List Nat) : Prop where
  rest : c = { b with ports := c.ports, out := c.out, pm := c.pm, wqs := c.wqs, cqs := c.cqs, eqs := c.eqs, mssCq := c.mssCq,
                      insts := c.insts, rmt := c.rmt, keys := { b.keys with units := c.keys.units }, pipes := c.pipes,
                      hog := c.hog, eth := c.eth }
  others : ∀ j ∉ ls, (c.lane j).link = (b.lane j).link

namespace Blk.relinks

theorem refl (b : Blk) (ls : List Nat) : b.relinks b ls := ⟨rfl, fun _ _ => rfl⟩

theorem trans {b c d : Blk} {ls : List Nat} (h : b.relinks c ls) (k : c.relinks d ls) : b.relinks d ls where
  rest := by conv => lhs; rw [k.rest, h.rest]
  others j hj := (k.others j hj).trans (h.others j hj)

theorem mono {b c : Blk} (h : b.relinks c []) (ls : List Nat) : b.relinks c ls :=
  ⟨h.rest, fun j _ => h.others j List.not_mem_nil⟩

theorem ite {b c d : Blk} {ls : List Nat} {p : Prop} [Decidable p] (h : b.relinks c ls) (h' : b.relinks d ls) :
    b.relinks (if p then c else d) ls := by
  split
  · exact h
  · exact h'

theorem foldl {α : Type} {f : Blk → α → Blk} {ls : List Nat} (h : ∀ (b : Blk) x, b.relinks (f b x) ls) (l : List α)
    (b : Blk) :
    b.relinks (l.foldl f b) ls := by
  induction l generalizing b with
  | nil => exact refl b ls
  | cons x l ih => exact (h b x).trans (ih _)

theorem of_posts {b c : Blk} (h : b.posts c) : b.relinks c [] where
  rest := by rw [h.rest]
  others j _ := congrArg EthLane.link (h.lane j)

theorem of_reports {b c : Blk} (h : b.reports c) : b.relinks c [] := of_posts (.of_reports h)

theorem elec {b c : Blk} {ls : List Nat} (h : b.relinks c ls) : c.elec = b.elec := (congrArg Blk.elec h.rest :)

theorem laneRef {b c : Blk} {ls : List Nat} (h : b.relinks c ls) (l : Nat) : c.laneRef l = b.laneRef l :=
  (congrArg (·.laneRef l) h.rest :)

theorem linkAllowed {b c : Blk} {ls : List Nat} (h : b.relinks c ls) (l : Nat) : c.linkAllowed l = b.linkAllowed l := by
  rw [h.rest]
  rfl

/-! Packets queued for a lane (R313). -/

theorem updLane (b : Blk) (l : Nat) (f : EthLane → EthLane) : b.relinks (b.updLane l f) [l] where
  rest := rfl
  others _ hj := congrArg EthLane.link (b.lane_updLane_ne l f (List.mem_singleton.not.1 hj))

theorem updLane_kept (b : Blk) (l : Nat) {f : EthLane → EthLane} (h : ∀ x, (f x).link = x.link) :
    b.relinks (b.updLane l f) [] where
  rest := rfl
  others j _ := by
    by_cases hj : j = l
    · subst hj
      exact (congrArg EthLane.link (b.lane_updLane j f)).trans (h _)
    · exact congrArg EthLane.link (b.lane_updLane_ne l f hj)

theorem ethCnt (b : Blk) (l n k : Nat) : b.relinks (b.ethCnt l n k) [] := updLane_kept b l fun _ => rfl

theorem pipeCnt (b : Blk) (p n k : Nat) : b.relinks (b.pipeCnt p n k) [] := ⟨rfl, fun _ _ => rfl⟩

theorem hog (b : Blk) (h : Hog) : b.relinks { b with hog := h } [] := ⟨rfl, fun _ _ => rfl⟩

theorem setTmq (b : Blk) (q : TmQueue) : b.relinks (b.setTmq q) [] := hog b _

theorem pfcSend (b : Blk) (l prio quanta : Nat) : b.relinks (b.pfcSend l prio quanta) [] :=
  ite (((of_reports (b.reports_emit _)).trans (ethCnt _ _ _ _)).trans (pipeCnt _ _ _ _)) (refl b [])

theorem pfcEval (b : Blk) (l prio : Nat) : b.relinks (b.pfcEval l prio) [] :=
  ite ((hog b _).trans (pfcSend _ _ _ _)) (ite ((hog b _).trans (pfcSend _ _ _ _)) (refl b []))

theorem pfcSettle (b : Blk) : b.relinks b.pfcSettle [] :=
  foldl (fun b _ => foldl (fun b _ => pfcEval b _ _) _ b) _ b

theorem dropPkt (b : Blk) (p : Packet) (pipe reason : Nat) : b.relinks (b.dropPkt p pipe reason) [] :=
  relinks.trans (c := b.drop pipe reason) ⟨rfl, fun _ _ => rfl⟩ (of_posts (.endLaunch _ p 0))

theorem dropQueued (b : Blk) (l : Nat) : b.relinks (b.dropQueued l) [] := by
  unfold Blk.dropQueued
  extract_lets b1 held lane waiting b2
  have queues : b.relinks b1 [] :=
    foldl (fun b _ => (setTmq b _).trans (foldl (fun b _ => dropPkt b _ _ _) _ _)) _ b
  have launches : b1.relinks lane [] := updLane_kept b1 l fun _ => rfl
  have sent : lane.relinks b2 [] := hog lane _
  exact (((queues.trans launches).trans sent).trans (foldl (fun b _ => dropPkt b _ _ _) held b2)).trans (pfcSettle _)

end Blk.relinks

/-! The state that a link takes (R312, R313). -/

/-- A link that takes a state changes that lane's alone. -/
theorem Blk.relinks_setLink (b : Blk) (l : Nat) (s : LinkSt) :
    b.relinks (b.setLink l s) [l] ∧ ((b.setLink l s).lane l).link = s := by
  unfold Blk.setLink
  extract_lets was b1
  have moved : b.relinks b1 [l] := .updLane b l _
  have taken : (b1.lane l).link = s := congrArg EthLane.link (b.lane_updLane l _)
  have after : ∀ {c : Blk}, b1.relinks c [] → b.relinks c [l] ∧ (c.lane l).link = s := fun h =>
    ⟨moved.trans (h.mono [l]), (h.others l List.not_mem_nil).trans taken⟩
  split
  · exact after (((Blk.relinks.ethCnt b1 l 15 1).trans (.dropQueued _ l)).trans
      (.of_reports (Blk.reports_devEvent _ _ _ _ _ _)))
  · split
    · exact after (.of_reports (b1.reports_devEvent _ _ _ _ _))
    · exact after (.refl b1 [])

theorem Blk.relinks_setFaults (b : Blk) (l : Nat) (local_ remote : Bool) : b.relinks (b.setFaults l local_ remote) [] := by
  unfold Blk.setFaults
  extract_lets was b1
  have noted : b.relinks b1 [] := .updLane_kept b l fun _ => rfl
  exact .ite noted (noted.trans (.of_reports (b1.reports_emit _)))

/-- A lane without its reference settles in DOWN or DISABLED (R505). -/
theorem Blk.relinks_linkSettle {b : Blk} {l : Nat} (h : b.laneRef l = false) : b.relinks (b.linkSettle l) [l] ∧
    (((b.linkSettle l).lane l).link = .down ∨ ((b.linkSettle l).lane l).link = .disabled) := by
  have no : ¬ b.linkAllowed l = true := by simp [Blk.linkAllowed, h]
  unfold Blk.linkSettle
  rw [if_neg no]
  split
  · split
    next down => exact ⟨.refl b [l], .inl down⟩
    next =>
      obtain ⟨moved, taken⟩ := b.relinks_setLink l .down
      exact ⟨moved, .inl taken⟩
  · split
    next disabled => exact ⟨.refl b [l], .inr disabled⟩
    next =>
      have off := ((b.relinks_setFaults l false false).mono [l]).trans (.updLane _ l (fun x => { x with autoneg := false }))
      obtain ⟨moved, taken⟩ := Blk.relinks_setLink _ l .disabled
      exact ⟨off.trans moved, .inr taken⟩

/-! The reference of an Ethernet pair (R505). -/

/-- What a lane of the pair does when its reference is lost or returns. -/
def Blk.laneRefChange (lost : Bool) (b : Blk) (l : Nat) : Blk :=
  if lost then b.linkSettle l else if b.linkAllowed l ∧ (b.lane l).link = .down then b.setLink l .negotiating else b

/-- Lanes that lose their reference end in DOWN or DISABLED. -/
theorem Blk.link_refLost (ls : List Nat) {b : Blk} (ref : ∀ l ∈ ls, b.laneRef l = false) {j : Nat}
    (h : j ∈ ls ∨ (b.lane j).link = .down ∨ (b.lane j).link = .disabled) :
    ((ls.foldl (Blk.laneRefChange true) b).lane j).link = .down ∨
      ((ls.foldl (Blk.laneRefChange true) b).lane j).link = .disabled := by
  induction ls generalizing b with
  | nil => exact h.resolve_left List.not_mem_nil
  | cons x ls ih =>
    obtain ⟨moved, settled⟩ := b.relinks_linkSettle (ref x List.mem_cons_self)
    refine ih (b := b.linkSettle x) (fun l hl => (moved.laneRef l).trans (ref l (List.mem_cons_of_mem x hl))) ?_
    by_cases hj : j = x
    · subst hj
      exact .inr settled
    · rw [moved.others j (List.mem_singleton.not.2 hj)]
      exact h.imp_left fun hm => (List.mem_cons.1 hm).resolve_left hj

theorem Blk.relinks_refReturns (b : Blk) (l : Nat) : b.relinks (b.laneRefChange false l) [l] := by
  unfold Blk.laneRefChange
  rw [if_neg Bool.false_ne_true]
  exact .ite (b.relinks_setLink l .negotiating).1 (.refl b [l])

/-- Lanes whose reference returns negotiate where they were DOWN and may run. -/
theorem Blk.link_refReturns (ls : List Nat) {b : Blk} {j : Nat} (may : b.linkAllowed j = true)
    (h : j ∈ ls ∧ (b.lane j).link = .down ∨ (b.lane j).link = .negotiating) :
    ((ls.foldl (Blk.laneRefChange false) b).lane j).link = .negotiating := by
  induction ls generalizing b with
  | nil => exact h.resolve_left fun ⟨hm, _⟩ => List.not_mem_nil hm
  | cons x ls ih =>
    have moved := b.relinks_refReturns x
    refine ih (b := b.laneRefChange false x) ((moved.linkAllowed j).trans may) ?_
    by_cases hj : j = x
    · subst hj
      refine .inr ?_
      show ((if b.linkAllowed j = true ∧ (b.lane j).link = .down then b.setLink j .negotiating else b).lane j).link = _
      split
      next => exact (b.relinks_setLink j .negotiating).2
      next stays => exact h.resolve_left fun ⟨_, down⟩ => stays ⟨may, down⟩
    · rw [moved.others j (List.mem_singleton.not.2 hj)]
      exact h.imp_left fun ⟨hm, down⟩ => ⟨(List.mem_cons.1 hm).resolve_left hj, down⟩

theorem Blk.elec_laneRefChange {lost : Bool} (ls : List Nat) {b : Blk} (ref : ∀ l ∈ ls, lost = true → b.laneRef l = false) :
    (ls.foldl (Blk.laneRefChange lost) b).elec = b.elec := by
  induction ls generalizing b with
  | nil => rfl
  | cons x ls ih =>
    have moved : b.relinks (b.laneRefChange lost x) [x] := by
      cases lost
      · exact b.relinks_refReturns x
      · exact (b.relinks_linkSettle (ref x List.mem_cons_self rfl)).1
    refine (ih fun l hl h => ?_).trans moved.elec
    exact (moved.laneRef l).trans (ref l (List.mem_cons_of_mem x hl) h)

/-! The reference of a host port (R82, R505). -/

/-- A lost link leaves the port down and the electrical inputs as they are (R82). -/
theorem Blk.linkLost_leaves (b : Blk) (h : Nat) :
    (b.linkLost h).elec = b.elec ∧ ((b.linkLost h).port h).linkUp = false := by
  unfold Blk.linkLost
  extract_lets b1
  have elec : b1.elec = b.elec := (congrArg Blk.elec (b.detachPort_rest h) :)
  have down : (b1.port h).linkUp = false := congrArg HostPort.linkUp (Blk.port_updPort _ h _)
  have stop : b1.dmaLinkLost h = { b1 with dma := (b1.dmaLinkLost h).dma } := by
    unfold Blk.dmaLinkLost Blk.dmaStop
    dsimp only
    split <;> rfl
  rw [stop]
  exact ⟨elec, down⟩

/-- A host link is removed by surprise (R82). -/
theorem Blk.removal_leaves (b : Blk) (h : Nat) : (b.removal h).elec = b.elec ∧ ((b.removal h).port h).linkUp = false := by
  unfold Blk.removal
  extract_lets b1 b2
  split
  next up =>
    obtain ⟨elec, down⟩ := b.linkLost_leaves h
    have event : b1.serves b2 := by
      unfold b2
      split
      · exact b1.serves_refl
      · exact b1.serves_raise_f0 3 _ _
    have serves := event.trans (b2.serves_reel 0x0009 0 [h])
    exact ⟨serves.elec.trans elec, (serves.linkUp h).trans down⟩
  next down => exact ⟨rfl, Bool.eq_false_of_not_eq_true down⟩

/-! The list of references lost. -/

/-- A reference `k` was noted as lost or there, now (R505). -/
def Blk.refNoted (b : Blk) (k : Nat) (lost : Bool) : Blk :=
  let others := b.elec.refLost.filter (· != k)
  { b with elec := { b.elec with refLost := if lost then others ++ [k] else others, refAt := b.elec.refAt.put 0 k b.mono } }

theorem Blk.mem_refNoted (b : Blk) (k : Nat) (lost : Bool) : (k ∈ (b.refNoted k lost).elec.refLost ↔ lost = true) ∧
    ∀ j ≠ k, j ∈ (b.refNoted k lost).elec.refLost ↔ j ∈ b.elec.refLost := by
  cases lost <;> simp +contextual [Blk.refNoted]

theorem Blk.refChange_same {b : Blk} {r : ClkRef} {lost : Bool} (h : b.elec.refLost.contains (clkKey r) = lost) :
    b.refChange r lost = b :=
  if_pos (beq_iff_eq.2 h)

/-- What a reference that is lost or returns does beside the note of it. -/
theorem Blk.refChange_news {b : Blk} {r : ClkRef} {lost : Bool} (h : b.elec.refLost.contains (clkKey r) ≠ lost) :
    b.refChange r lost = match r with
      | .host p => if lost ∧ ((b.refNoted (clkKey r) lost).port p.val).linkUp ∧ ¬ b.absent p.val then
          (b.refNoted (clkKey r) lost).removal p.val else b.refNoted (clkKey r) lost
      | .eth k => ((List.range 32).map (· + 32 * k.val)).foldl (Blk.laneRefChange lost) (b.refNoted (clkKey r) lost)
      | .dsp _ => b.refNoted (clkKey r) lost := by
  refine (if_neg (mt beq_iff_eq.1 h)).trans ?_
  cases r <;> rfl

end Sys2Proof.Machine
end

section
/-! SUPPORT. What an alarm, a loss of power and the lockout leave (R368, R462, R463, R497, R499). -/

namespace Sys2Proof.Machine
open Sys2Proof

/-- A slot of the key store that holds no key (R368). -/
def Slot.wiped (x : Slot) : Prop := x.cur = none ∧ x.old = none ∧ x.next = none

theorem Blk.slot_eraseSlot (b : Blk) (k : Nat) : ((b.eraseSlot k).slot k).wiped := by
  unfold Blk.eraseSlot
  rw [(Blk.posts.endJobs _ _ _).slot, Blk.slot_updSlot]
  exact ⟨rfl, rfl, rfl⟩

theorem Blk.slot_eraseSlot_ne (b : Blk) {k j : Nat} (h : j ≠ k) : (b.eraseSlot k).slot j = b.slot j := by
  unfold Blk.eraseSlot
  rw [(Blk.posts.endJobs _ _ _).slot]
  exact b.slot_updSlot_ne k _ h

theorem Blk.eraseSlot_leaves (b : Blk) (k : Nat) : (b.eraseSlot k).mss = b.mss ∧ (b.eraseSlot k).rel = b.rel := by
  unfold Blk.eraseSlot
  exact ⟨(Blk.posts.endJobs _ _ _).mss, (Blk.posts.endJobs _ _ _).rel⟩

/-- Slots erased in turn hold no key afterwards, and the management die and the counts of errors are as they were. -/
theorem Blk.eraseSlots (ks : List Nat) (b : Blk) : (ks.foldl Blk.eraseSlot b).mss = b.mss ∧
    (ks.foldl Blk.eraseSlot b).rel = b.rel ∧
    ∀ j, j ∈ ks ∨ (b.slot j).wiped → ((ks.foldl Blk.eraseSlot b).slot j).wiped := by
  induction ks generalizing b with
  | nil => exact ⟨rfl, rfl, fun j h => h.resolve_left List.not_mem_nil⟩
  | cons k ks ih =>
    obtain ⟨mss, rel⟩ := b.eraseSlot_leaves k
    obtain ⟨mss', rel', wiped⟩ := ih (b.eraseSlot k)
    refine ⟨mss'.trans mss, rel'.trans rel, fun j h => wiped j ?_⟩
    by_cases hj : j = k
    · exact .inr (hj ▸ b.slot_eraseSlot k)
    · rw [b.slot_eraseSlot_ne hj]
      exact h.imp_left fun hm => (List.mem_cons.1 hm).resolve_left hj

/-- A key reads the default, or the table lists it with what it reads. -/
theorem Tab.get_listed {α : Type} (d : α) (t : Tab α) (i : Nat) : Tab.get d t i = d ∨ (i, Tab.get d t i) ∈ t := by
  induction t with
  | nil => exact .inl rfl
  | cons e t ih =>
    by_cases h : e.1 = i
    · subst h
      exact .inr (by simp [Tab.get])
    · simp only [Tab.get, if_neg h]
      exact ih.imp_right (List.mem_cons_of_mem e)

/-- Slots that hold a key, which an alarm erases. -/
theorem Blk.slot_held (b : Blk) (k : Nat) :
    k ∈ (b.keys.slots.filter (fun s => s.2.cur.isSome || s.2.old.isSome || s.2.next.isSome)).map (·.1) ∨ (b.slot k).wiped := by
  by_cases wiped : (b.slot k).wiped
  · exact .inr wiped
  · obtain empty | listed := Tab.get_listed {} b.keys.slots k
    · refine absurd ?_ wiped
      rw [show b.slot k = {} from empty]
      exact ⟨rfl, rfl, rfl⟩
    · refine .inl (List.mem_map.2 ⟨_, List.mem_filter.2 ⟨listed, ?_⟩, rfl⟩)
      by_contra none
      simp only [Bool.or_eq_true, not_or, Option.not_isSome_iff_eq_none] at none
      obtain ⟨⟨cur, old⟩, next⟩ := none
      exact wiped ⟨cur, old, next⟩

/-- An event of the management die, whether it goes out or is latched, leaves power and settings (R471). -/
theorem Blk.mssEvent_leaves (b : Blk) (type index reason value detail : Nat) :
    (b.mssEvent type index reason value detail).mss.powered = b.mss.powered ∧
      (b.mssEvent type index reason value detail).mss.set = b.mss.set := by
  unfold Blk.mssEvent
  split
  · rw [(b.reports_devEvent type index reason value detail).rest]
    exact ⟨rfl, rfl⟩
  · exact ⟨rfl, rfl⟩

/-- What an alarm leaves: no key, and power, settings and the counts of errors as they were (R368). -/
structure Blk.Alarmed (b t : Blk) : Prop where
  powered : t.mss.powered = b.mss.powered
  set : t.mss.set = b.mss.set
  rel : t.rel = b.rel
  importKey : t.keys.importKey = none
  slots : ∀ k, (t.slot k).wiped

theorem Blk.alarmed_alarm (b : Blk) (cause : Nat) : b.Alarmed (b.alarm cause) := by
  unfold Blk.alarm
  extract_lets held b1 keys b2 drawn die b3 rec6 ctl b4
  obtain ⟨mss, rel, wiped⟩ : b1.mss = b.mss ∧ b1.rel = b.rel ∧ ∀ j, j ∈ held ∨ (b.slot j).wiped → (b1.slot j).wiped :=
    Blk.eraseSlots held b
  have slots : ∀ k, (b1.slot k).wiped := fun k => wiped k (b.slot_held k)
  clear_value b1
  have event := b4.logs_mssEvent 0x002A 0 0 (2 ^ cause) b4.mono
  obtain ⟨powered, set⟩ := b4.mssEvent_leaves 0x002A 0 0 (2 ^ cause) b4.mono
  have record := (b4.mssEvent 0x002A 0 0 (2 ^ cause) b4.mono).serves_reel 5 3 [2 ^ cause]
  have logged := event.trans (Blk.logs_reel _ 5 3 [2 ^ cause])
  exact {
    powered := (record.powered.trans powered).trans (congrArg Mss.powered mss :)
    set := (record.set.trans set).trans (congrArg Mss.set mss :)
    rel := logged.rel.trans rel
    importKey := congrArg Keys.importKey logged.keys
    slots := fun k => (congrArg (·.slot k) logged.rest :).symm ▸ slots k }

theorem Blk.alarmed_raiseAlarm (b : Blk) (cause : Nat) : b.Alarmed (b.raiseAlarm cause) := by
  obtain ⟨powered, set, rel, importKey, slots⟩ := b.alarmed_alarm cause
  exact ⟨powered, set, rel, importKey, slots⟩

/-! Power off (R463). -/

/-- No power, no image, no meeting point, no key. -/
structure Blk.Dark (t : Blk) : Prop where
  powered : t.mss.powered = false
  image : t.boot.image = none
  west : t.mp .west = 0
  east : t.mp .east = 0
  importKey : t.keys.importKey = none
  slots : ∀ k, (t.slot k).wiped

theorem Blk.Dark.of_serves {b c : Blk} (h : b.Dark) (hs : b.serves c) : c.Dark := by
  have keys : c.keys = b.keys := (congrArg Blk.keys hs.rest :)
  obtain ⟨powered, image, west, east, importKey, slots⟩ := h
  refine ⟨hs.powered.trans powered, (congrArg Boot.image hs.boot).trans image, (hs.mp .west).trans west,
    (hs.mp .east).trans east, (congrArg Keys.importKey keys).trans importKey, fun k => ?_⟩
  have same : c.slot k = b.slot k := (congrArg (·.slot k) hs.rest :)
  exact same.symm ▸ slots k

theorem Blk.Dark.tripped {b : Blk} (h : b.Dark) : ({ b with elec := { b.elec with thermTrip := true } } : Blk).Dark :=
  ⟨h.powered, h.image, h.west, h.east, h.importKey, h.slots⟩

theorem Blk.dark_powerDown {b : Blk} (h : b.keys.importKey = none) : b.powerDown.Dark := by
  obtain ⟨powered, image, west, east⟩ := b.powerDown_leaves
  exact ⟨powered, image, west, east, h, fun _ => ⟨rfl, rfl, rfl⟩⟩

/-- The trip removes power and every key, and shows at its pin (R462). -/
theorem Blk.dark_thermalTrip {b : Blk} {n : Nat} {v : W16} (trips : tripAt n v.toNat = true) (on : b.mss.powered = true) :
    (b.thermalTrip n v).Dark ∧ (b.thermalTrip n v).elec.thermTrip = true := by
  unfold Blk.thermalTrip
  rw [if_pos ⟨trips, on⟩]
  extract_lets b1 pins
  have down : b1.Dark := Blk.dark_powerDown ((b.sensorReads n v).alarmed_raiseAlarm 1).importKey
  clear_value b1
  have records : ∀ c : Blk, c.serves ((c.reel 6 3 [n, v.toNat]).reel 0x0010 3 [2]) := fun c =>
    (c.serves_reel _ _ _).trans (Blk.serves_reel _ _ _ _)
  exact ⟨down.tripped.of_serves (records _), congrArg Elec.thermTrip (records _).elec⟩

theorem Blk.thermalTrip_below {b : Blk} {n : Nat} {v : W16} (h : tripAt n v.toNat = false ∨ b.mss.powered = false) :
    b.thermalTrip n v = b := by
  refine if_neg ?_
  rintro ⟨trips, on⟩
  obtain h | h := h
  · exact absurd (h.symm.trans trips) Bool.false_ne_true
  · exact absurd (h.symm.trans on) Bool.false_ne_true

/-- Over-voltage wipes the keys, and removes power where there was power (R499). -/
theorem Blk.overVoltage_leaves (b : Blk) : b.overVoltage.mss.powered = false ∧ b.overVoltage.keys.importKey = none ∧
    (∀ k, (b.overVoltage.slot k).wiped) ∧ (b.mss.powered = true → b.overVoltage.Dark) := by
  obtain ⟨powered, -, -, importKey, slots⟩ := b.alarmed_raiseAlarm 0
  unfold Blk.overVoltage Blk.powerOff
  split
  next on =>
    have dark := (Blk.dark_powerDown importKey).of_serves (Blk.serves_reel _ 0x0010 0 [0])
    exact ⟨dark.powered, dark.importKey, dark.slots, fun _ => dark⟩
  next off =>
    rw [powered] at off
    exact ⟨powered.trans (Bool.eq_false_of_not_eq_true off), importKey, slots, fun on => absurd on off⟩

/-- The lockout leaves what MRAM holds, which is none of this (R497). -/
theorem Blk.dark_lockout (b : Blk) : b.lockout.Dark := ⟨rfl, rfl, rfl, rfl, rfl, fun _ => ⟨rfl, rfl, rfl⟩⟩

end Sys2Proof.Machine
end

section
/-! SUPPORT. Speed monitors and the adaptive-voltage loop (R45 to R48, R471, R495). -/

namespace Sys2Proof.Machine
open Sys2Proof

/-- The monitors `ns` read `rates`, in order (R45). -/
def Speed.readings (s : Speed) (mono : Nat) (ns : List Nat) (rates : List W16) : Speed :=
  (ns.zip rates).foldl (fun s p => s.reading mono p.1 p.2.toNat) s

theorem Speed.readings_cons (s : Speed) (mono n : Nat) (ns : List Nat) (r : W16) (rates : List W16) :
    s.readings mono (n :: ns) (r :: rates) = (s.reading mono n r.toNat).readings mono ns rates := rfl

theorem Speed.reading_other (s : Speed) (mono : Nat) {m n : Nat} (rate : Nat) (h : n ≠ m) :
    (s.reading mono m rate).mons.get {} n = s.mons.get {} n := by
  unfold Speed.reading
  dsimp only
  exact Tab.get_upd_other {} s.mons _ h

/-- Readings change monitors alone. -/
theorem Speed.readings_rest (ns : List Nat) (s : Speed) (mono : Nat) (rates : List W16) :
    s.readings mono ns rates = { s with mons := (s.readings mono ns rates).mons } := by
  induction ns generalizing s rates with
  | nil => rfl
  | cons n ns ih =>
    cases rates with
    | nil => rfl
    | cons r rates => exact ih (s.reading mono n r.toNat) rates

theorem Speed.readings_other {n : Nat} {ns : List Nat} (h : n ∉ ns) (s : Speed) (mono : Nat) (rates : List W16) :
    (s.readings mono ns rates).mons.get {} n = s.mons.get {} n := by
  induction ns generalizing s rates with
  | nil => rfl
  | cons m ns ih =>
    cases rates with
    | nil => rfl
    | cons r rates =>
      obtain ⟨other, out⟩ := not_or.1 (mt List.mem_cons.2 h)
      exact (ih out (s.reading mono m r.toNat) rates).trans (s.reading_other mono r.toNat other)

/-- A monitor holds the rate it read, and whether it lies below its floor reading (R45). -/
def SpdMon.Reads (m : SpdMon) (n : Nat) (r : W16) : Prop :=
  m.rate = r ∧ (m.belowFloor = true ↔ r.toNat < floorReading (monKind n))

theorem Speed.reading_reads (s : Speed) (mono n : Nat) (r : W16) : ((s.reading mono n r.toNat).mons.get {} n).Reads n r := by
  unfold Speed.reading
  dsimp only
  rw [Tab.get_upd_same]
  exact ⟨BitVec.eq_of_toNat_eq (by simp), decide_eq_true_iff⟩

/-- Each of distinct monitors holds its own reading. -/
theorem Speed.readings_reads {ns : List Nat} (distinct : ns.Nodup) (s : Speed) (mono : Nat) {rates : List W16} {j n : Nat}
    {r : W16} (hn : ns[j]? = some n) (hr : rates[j]? = some r) : ((s.readings mono ns rates).mons.get {} n).Reads n r := by
  induction ns generalizing s rates j with
  | nil => cases hn
  | cons m ns ih =>
    obtain ⟨out, distinct⟩ := List.nodup_cons.1 distinct
    cases rates with
    | nil => cases hr
    | cons x rates =>
      rw [Speed.readings_cons]
      cases j with
      | zero =>
        obtain rfl : m = n := Option.some.inj hn
        obtain rfl : x = r := Option.some.inj hr
        rw [Speed.readings_other out]
        exact s.reading_reads mono m x
      | succ j => exact ih distinct _ hn hr

theorem nodup_monsOf (d : Nat) : (monsOf d).Nodup := List.nodup_range.filter _

/-! One update of a supply (R47, R48, R495). -/

/-- A supply moves by at most 5 mV, and only the current limit takes it down short of its setpoint `p`, or below it. -/
theorem Blk.nextSupply_within (b : Blk) (d p : Nat) :
    let old := (b.spd.doms.get {} d).supplyMv.toNat
    b.nextSupply d p ≤ old + 5 ∧ old ≤ b.nextSupply d p + 5 ∧
      (b.currentHeld = false → old < p → old ≤ b.nextSupply d p) ∧
      (b.currentHeld = false → p ≤ old → p ≤ b.nextSupply d p) := by
  intro old
  unfold Blk.nextSupply
  extract_lets n
  have moved : n ≤ 5 := Nat.le_of_lt_succ (Nat.mod_lt _ (by decide))
  clear_value n old
  split
  next held =>
    have free : ¬ b.currentHeld = false := by simp [held]
    exact ⟨by omega, by omega, fun h => absurd h free, fun h => absurd h free⟩
  next =>
    repeat' split
    all_goals exact ⟨by omega, by omega, fun _ _ => by omega, fun _ _ => by omega⟩

theorem Blk.avsUpdate_held {b : Blk} (h : b.mss.powered = false ∨ b.mss.fw.up = false) (d : Nat) (rates : List W16)
    (inputW : W16) :
    b.avsUpdate d rates inputW = b :=
  if_pos (h.imp (fun h => by simp [h]) (fun h => by simp [h]))

/-- The block once the loop has taken its readings (R45). -/
def Blk.loopReads (b : Blk) (d : Nat) (rates : List W16) (inputW : W16) : Blk :=
  { b with spd := ({ b.spd with inputW := inputW } : Speed).readings b.mono (monsOf d) rates }

theorem Blk.doms_loopReads (b : Blk) (d : Nat) (rates : List W16) (inputW : W16) :
    (b.loopReads d rates inputW).spd.doms = b.spd.doms :=
  (congrArg Speed.doms (Speed.readings_rest (monsOf d) _ b.mono rates) :)

theorem Blk.inputW_loopReads (b : Blk) (d : Nat) (rates : List W16) (inputW : W16) :
    (b.loopReads d rates inputW).spd.inputW = inputW :=
  (congrArg Speed.inputW (Speed.readings_rest (monsOf d) _ b.mono rates) :)

/-- What one update of the loop leaves, from the readings that it takes (R47). -/
structure Blk.LoopUpdated (b t : Blk) (d : Nat) : Prop where
  rest : t = { b with spd := t.spd, fresh := t.fresh }
  inputW : t.spd.inputW = b.spd.inputW
  mons : t.spd.mons = b.spd.mons
  supply : (t.spd.doms.get {} d).supplyMv = BitVec.ofNat 12 (b.nextSupply d (t.spd.doms.get {} d).setMv)
  margin : (t.spd.doms.get {} d).margin = (b.spd.doms.get {} d).margin
  others : ∀ j ≠ d, t.spd.doms.get {} j = b.spd.doms.get {} j

theorem Blk.avsUpdate_updates {b : Blk} (on : b.mss.powered = true) (up : b.mss.fw.up = true) (d : Nat) (rates : List W16)
    (inputW : W16) : (b.loopReads d rates inputW).LoopUpdated (b.avsUpdate d rates inputW) d := by
  have runs : ¬ (¬ b.mss.powered = true ∨ ¬ b.mss.fw.up = true) := by simp [on, up]
  unfold Blk.avsUpdate
  rw [if_neg runs]
  extract_lets old spd1 b1 p v doms
  have reads : b.loopReads d rates inputW = b1 := rfl
  rw [reads]
  clear reads
  clear_value spd1
  have supply : (doms.get {} d).supplyMv = BitVec.ofNat 12 v := congrArg SpdDom.supplyMv (Tab.get_upd_same _ _ _ _)
  have set : (doms.get {} d).setMv = p := congrArg SpdDom.setMv (Tab.get_upd_same _ _ _ _)
  have margin : (doms.get {} d).margin = (spd1.doms.get {} d).margin :=
    (congrArg SpdDom.margin (Tab.get_upd_same {} spd1.doms d _) :)
  have others : ∀ j ≠ d, doms.get {} j = spd1.doms.get {} j := fun j hj => Tab.get_upd_other {} spd1.doms _ hj
  exact ⟨rfl, rfl, rfl, supply.trans (set.symm ▸ rfl), margin, others⟩

/-! floor_miss and cap_unmet (R46, R48). -/

/-- A bit of SPD_STATUS that rises writes a record; one that was set already writes none (R46). -/
theorem Blk.speedNote_leaves (b : Blk) (was : Bool) : (b.speedNote was).spd = b.spd ∧ (was = true → b.speedNote was = b) ∧
    (was = false → (b.speedNote was).ctl.errs.length = b.ctl.errs.length + 1) := by
  unfold Blk.speedNote
  cases was with
  | true => exact ⟨rfl, fun _ => rfl, nofun⟩
  | false =>
    have noted := (Blk.serves_raise_f0 3 b b.ownerPort (b.ev 0x0010 0 0 (b.spd.status % 4) 0)).trans
      (Blk.serves_reel _ 4 0 [b.spd.status, b.spd.miss.toNat])
    refine ⟨noted.spd, nofun, fun _ => ?_⟩
    refine List.length_append.trans ?_
    exact congrArg (fun c : Ctl => c.errs.length + 1) noted.ctl

end Sys2Proof.Machine
end

section
/-! SUPPORT. The proof of the statement on supply and sensors (R45 to R48, R462, R463, R466, R467, R471, R495 to R497, R499,
R505). -/

namespace Sys2Proof.Machine
open Sys2Proof

theorem exec_avsLoopUpdate (s : State) (d : Fin 8) (rates : List W16) (inputW : W16) :
    exec (.avsLoopUpdate d rates inputW) s = .next { s with blk := s.blk.avsUpdate d.val rates inputW } := rfl
theorem exec_floorMiss (s : State) (mon : Fin 96) :
    exec (.floorMiss mon) s = .next { s with blk := s.blk.floorMiss mon.val } := rfl
theorem exec_capUnmet (s : State) : exec .capUnmet s = .next { s with blk := s.blk.capUnmet } := rfl
theorem exec_sensorWarnChange (s : State) (n : Fin 41) (v : W16) :
    exec (.sensorWarnChange n v) s = .next { s with blk := s.blk.sensorReads n.val v } := rfl
theorem exec_thermalTrip (s : State) (n : Fin 36) (v : W16) :
    exec (.thermalTrip n v) s = .next { s with blk := s.blk.thermalTrip n.val v } := rfl
theorem exec_refclkLoss (s : State) (r : ClkRef) (lost : Bool) :
    exec (.refclkLoss r lost) s = .next { s with blk := s.blk.refChange r lost } := rfl

/-! A sensor reads a value (R466, R467). -/

theorem Blk.sensorReads_unpowered {b : Blk} {n : Nat} (h : b.mss.powered = false) (hn : n ≤ 35) (v : W16) :
    b.sensorReads n v = b :=
  if_pos ⟨hn, by simp [h]⟩

theorem Blk.sensorReads_powered {b : Blk} {n : Nat} (h : b.mss.powered = true ∨ 35 < n) (v : W16) :
    let t := b.sensorReads n v
    t = { b with mss := t.mss, spd := t.spd } ∧
    t.mss.sens.get {} n = {
      value := v, valid := true, warn := warnPast n v.toNat, trip := (b.mss.sens.get {} n).trip || tripAt n v.toNat } ∧
    (n = 39 → t.spd.inputW = v) ∧ ∀ j ≠ n, t.mss.sens.get {} j = b.mss.sens.get {} j := by
  have read : ¬ (n ≤ 35 ∧ ¬ b.mss.powered = true) := fun ⟨hn, off⟩ => h.elim off (Nat.not_lt.2 hn)
  unfold Blk.sensorReads
  rw [if_neg read]
  intro t
  have sens : t.mss.sens = b.mss.sens.upd {} n fun x =>
    { value := v, valid := true, warn := warnPast n v.toNat, trip := x.trip || tripAt n v.toNat } := rfl
  refine ⟨rfl, ?_, fun hn => if_pos hn, fun j hj => ?_⟩
  · rw [sens, Tab.get_upd_same]
  · rw [sens, Tab.get_upd_other _ _ _ hj]

/-! floor_miss and cap_unmet (R46, R48). -/

/-- A monitor has been below its floor reading for more than 10 µs (R46). -/
def Blk.low (b : Blk) (n : Nat) : Prop :=
  (b.spd.mons.get {} n).belowFloor = true ∧ (b.spd.mons.get {} n).belowSince + 10000 < b.mono

theorem Blk.floorMiss_high {b : Blk} {n : Nat} (h : ¬ b.low n) : b.floorMiss n = b := by
  refine if_neg fun low => h ?_
  rwa [Bool.and_eq_true, decide_eq_true_iff] at low

theorem Blk.floorMiss_low {b : Blk} {n : Nat} (h : b.low n) : b.floorMiss n =
    ({ b with spd := { b.spd with floorMiss := true, miss := b.spd.miss ||| BitVec.ofNat 96 (2 ^ n) } } : Blk).speedNote
      b.spd.floorMiss :=
  if_pos (by rwa [Bool.and_eq_true, decide_eq_true_iff])

theorem Blk.capUnmet_early {b : Blk} (h : b.spd.overSince = none ∨ ∃ u, b.spd.overSince = some u ∧ b.mono ≤ u + 10000000) :
    b.capUnmet = b := by
  unfold Blk.capUnmet
  obtain none | ⟨u, since, early⟩ := h
  · rw [none]
  · rw [since]
    exact if_neg (Nat.not_lt.2 early)

theorem Blk.capUnmet_due {b : Blk} {u : Nat} (since : b.spd.overSince = some u) (due : u + 10000000 < b.mono) :
    b.capUnmet = ({ b with spd := { b.spd with capUnmet := true } } : Blk).speedNote b.spd.capUnmet := by
  unfold Blk.capUnmet
  rw [since]
  exact if_pos due

/-! The supply that the loop leaves (R47). -/

/-- A supply below its ceiling reads as the loop set it: within 5 mV, none short of its setpoint down, and below the setpoint only
under the current limit. -/
theorem Blk.LoopUpdated.within {b t : Blk} {d : Nat} (h : b.LoopUpdated t d) :
    let x := b.spd.doms.get {} d
    let z := t.spd.doms.get {} d
    x.supplyMv.toNat + 5 < 4096 → z.supplyMv.toNat ≤ x.supplyMv.toNat + 5 ∧ x.supplyMv.toNat ≤ z.supplyMv.toNat + 5 ∧
      (b.currentHeld = false → x.supplyMv.toNat < z.setMv → x.supplyMv.toNat ≤ z.supplyMv.toNat) ∧
      (b.currentHeld = false → z.setMv ≤ x.supplyMv.toNat → z.setMv ≤ z.supplyMv.toNat) := by
  intro x z fits
  have within := b.nextSupply_within d z.setMv
  have holds : z.supplyMv.toNat = b.nextSupply d z.setMv := by
    rw [h.supply, BitVec.toNat_ofNat]
    exact Nat.mod_eq_of_lt (Nat.lt_of_le_of_lt within.1 fits)
  rw [holds]
  exact within

/-! References (R505). -/

theorem mem_pair {l k : Nat} (h : l / 32 = k) : l ∈ (List.range 32).map (· + 32 * k) :=
  List.mem_map.2 ⟨l % 32, List.mem_range.2 (Nat.mod_lt _ (by decide)), by omega⟩

theorem pair_of_mem {l k : Nat} (h : l ∈ (List.range 32).map (· + 32 * k)) : l / 32 = k := by
  obtain ⟨x, hx, rfl⟩ := List.mem_map.1 h
  have := List.mem_range.1 hx
  omega

/-- The reference of the pair `k` noted: the lanes of the pair see it. -/
theorem Blk.laneRef_refNoted (b : Blk) {l k : Nat} (h : l / 32 = k) (lost : Bool) :
    (b.refNoted (16 + k) lost).laneRef l = !lost := by
  subst h
  unfold Blk.laneRef Blk.ethRef
  rw [Bool.eq_iff_iff]
  simp [(b.mem_refNoted (16 + l / 32) lost).1]

/-- A reference is noted, and the other electrical inputs stand (R505). -/
structure Blk.RefTaken (b t : Blk) (k : Nat) (lost : Bool) : Prop where
  elec : t.elec = { b.elec with refLost := t.elec.refLost, refAt := b.elec.refAt.put 0 k b.mono }
  key : k ∈ t.elec.refLost ↔ lost = true
  others : ∀ j ≠ k, j ∈ t.elec.refLost ↔ j ∈ b.elec.refLost

theorem Blk.refTaken_of_elec {b t : Blk} {k : Nat} {lost : Bool} (h : t.elec = (b.refNoted k lost).elec) :
    b.RefTaken t k lost := by
  obtain ⟨key, others⟩ := b.mem_refNoted k lost
  rw [← h] at key others
  exact ⟨by rw [h]; rfl, key, others⟩

theorem Blk.refChange_dsp {b : Blk} {h : Half} {lost : Bool} (news : b.elec.refLost.contains (clkKey (.dsp h)) ≠ lost) :
    b.refChange (.dsp h) lost = { b with elec := (b.refChange (.dsp h) lost).elec } ∧
      b.RefTaken (b.refChange (.dsp h) lost) (clkKey (.dsp h)) lost := by
  rw [Blk.refChange_news news]
  exact ⟨rfl, Blk.refTaken_of_elec rfl⟩

/-- A host port that is there and loses its reference is removed by surprise; a reference that returns is noted alone. -/
theorem Blk.refChange_host {b : Blk} {p : PortId} {lost : Bool} (news : b.elec.refLost.contains (clkKey (.host p)) ≠ lost) :
    let t := b.refChange (.host p) lost
    b.RefTaken t (clkKey (.host p)) lost ∧ (lost = true → b.absent p.val = false → (t.port p.val).linkUp = false) ∧
      (lost = false → t = { b with elec := t.elec }) := by
  rw [Blk.refChange_news news]
  dsimp only
  split
  next removed =>
    obtain ⟨elec, down⟩ := (b.refNoted (clkKey (.host p)) lost).removal_leaves p.val
    exact ⟨Blk.refTaken_of_elec elec, fun _ _ => down, fun back => absurd (back.symm.trans removed.1) Bool.false_ne_true⟩
  next stays =>
    refine ⟨Blk.refTaken_of_elec rfl, fun gone there => Bool.eq_false_of_not_eq_true fun up => stays ⟨gone, up, ?_⟩,
      fun _ => rfl⟩
    rw [there]
    exact Bool.false_ne_true

/-- The lanes of a pair go down with its reference, and those that are wanted negotiate when it returns. -/
theorem Blk.refChange_eth {b : Blk} {k : Fin 4} {lost : Bool} (news : b.elec.refLost.contains (clkKey (.eth k)) ≠ lost) :
    let t := b.refChange (.eth k) lost
    b.RefTaken t (clkKey (.eth k)) lost ∧ ∀ l, l / 32 = k.val →
      (lost = true → (t.lane l).link = .down ∨ (t.lane l).link = .disabled) ∧
      (lost = false → b.linkWanted l = true → (b.lane l).link = .down → (t.lane l).link = .negotiating) := by
  rw [Blk.refChange_news news]
  dsimp only
  have ref : ∀ l, l / 32 = k.val → (b.refNoted (clkKey (.eth k)) lost).laneRef l = !lost := fun l h =>
    b.laneRef_refNoted h lost
  refine ⟨Blk.refTaken_of_elec (Blk.elec_laneRefChange _ fun l hl gone => ?_),
    fun l hl => ⟨fun gone => ?_, fun back wanted down => ?_⟩⟩
  · rw [ref l (pair_of_mem hl), gone]
    rfl
  · subst gone
    exact Blk.link_refLost _ (fun l hl => ref l (pair_of_mem hl)) (.inl (mem_pair hl))
  · subst back
    refine Blk.link_refReturns _ ?_ (.inl ⟨mem_pair hl, down⟩)
    exact Bool.and_eq_true_iff.2 ⟨wanted, ref l hl⟩

/-- Settles O48: the loop by `Blk.LoopUpdated.within` and `Speed.readings_reads`, the two status bits by
`Blk.speedNote_leaves`, the trip, the lockout and over-voltage by what an alarm and a loss of power leave, the reference clocks by kind of reference. -/
theorem supplyAndSensors : Obligations.SupplyAndSensors := by
  unfold Obligations.SupplyAndSensors
  intro s d rates inputW v mon sensor hot driven lost h port pair lane ref at_ b x w y gives wiped dark low capped key refs news
  have toDark : ∀ {t : Blk}, t.Dark → dark t := fun h => ⟨h.powered, h.image, h.west, h.east, h.importKey, h.slots⟩
  refine ⟨fun held => ?_, fun on up => ?_, fun high => ?_, fun below => ?_, fun early => ?_, fun ⟨since, due⟩ => ?_,
    fun off core => ?_, fun on => ?_, fun below => ?_, fun trips on => ?_, ?_, ?_, ?_, fun same => ?_, fun changed => ?_⟩
  · rw [exec_avsLoopUpdate, Blk.avsUpdate_held held]
  · have updated := Blk.avsUpdate_updates on up d.val rates inputW
    have doms := b.doms_loopReads d.val rates inputW
    have within := updated.within
    rw [doms] at within
    refine ⟨_, exec_avsLoopUpdate s d rates inputW, updated.rest, updated.inputW.trans (b.inputW_loopReads _ _ _), ?_, within,
      updated.margin.trans (congrArg (fun t : Tab SpdDom => (t.get {} d.val).margin) doms), fun j hj => ?_⟩
    · intro j n r hn hr
      rw [updated.mons]
      exact Speed.readings_reads (nodup_monsOf d.val) _ _ hn hr
    · exact (updated.others j hj).trans (congrArg (fun t : Tab SpdDom => t.get {} j) doms)
  · rw [exec_floorMiss, Blk.floorMiss_high high]
  · obtain ⟨spd, again, first⟩ := Blk.speedNote_leaves
      { b with spd := { b.spd with floorMiss := true, miss := b.spd.miss ||| BitVec.ofNat 96 (2 ^ mon.val) } } b.spd.floorMiss
    refine ⟨_, exec_floorMiss s mon, ?_⟩
    dsimp only
    rw [Blk.floorMiss_low below]
    exact ⟨spd, fun set => (again set).trans (congrArg (fun x : Speed => { b with spd := x }) spd.symm), first⟩
  · rw [exec_capUnmet, Blk.capUnmet_early early]
  · obtain ⟨spd, again, first⟩ := Blk.speedNote_leaves { b with spd := { b.spd with capUnmet := true } } b.spd.capUnmet
    refine ⟨_, exec_capUnmet s, ?_⟩
    dsimp only
    rw [Blk.capUnmet_due since due]
    exact ⟨spd, fun set => (again set).trans (congrArg (fun x : Speed => { b with spd := x }) spd.symm), first⟩
  · rw [exec_sensorWarnChange, Blk.sensorReads_unpowered off core]
  · exact ⟨_, exec_sensorWarnChange s sensor v, Blk.sensorReads_powered on v⟩
  · rw [exec_thermalTrip, Blk.thermalTrip_below below]
  · obtain ⟨down, pin⟩ := Blk.dark_thermalTrip trips on
    exact ⟨_, exec_thermalTrip s hot v, toDark down, pin⟩
  · obtain ⟨-, set, rel, -, -⟩ := b.alarmed_raiseAlarm 0
    exact ⟨{ s with blk := b.lockout }, rfl, toDark b.dark_lockout, rfl, set, (congrArg Rel.sparesUsed rel :), rfl, rfl⟩
  · obtain ⟨powered, importKey, slots, down⟩ := b.overVoltage_leaves
    exact ⟨{ s with blk := b.overVoltage }, rfl, powered, ⟨importKey, slots⟩, fun on => toDark (down on)⟩
  · exact ⟨_, rfl, rfl⟩
  · rw [exec_refclkLoss, Blk.refChange_same (not_not.1 same)]
  · refine ⟨?_, ?_, ?_⟩
    · rintro rfl
      obtain ⟨rest, pins, noted, others⟩ := Blk.refChange_dsp changed
      exact ⟨_, exec_refclkLoss s _ lost, rest, pins, noted, others⟩
    · rintro rfl
      obtain ⟨⟨pins, noted, others⟩, removed, back⟩ := Blk.refChange_host changed
      exact ⟨_, exec_refclkLoss s _ lost, ⟨pins, noted, others⟩, removed, back⟩
    · rintro rfl inPair
      obtain ⟨⟨pins, noted, others⟩, lanes⟩ := Blk.refChange_eth changed
      obtain ⟨down, back⟩ := lanes lane.val inPair
      exact ⟨_, exec_refclkLoss s _ lost, ⟨pins, noted, others⟩, down, back⟩

end Sys2Proof.Machine
end

section
/-! SUPPORT. What reports, interrupts and the end of the work of instances leave of a host port (R68 to R73, R76, R121). -/

namespace Sys2Proof.Machine
open Sys2Proof

/-- A port with what events, interrupts and stale completions change of it blanked: INTx states, pending messages, the F0 event
queue, the count of completions discarded. -/
def HostPort.steady (p : HostPort) : HostPort :=
  { p with f0 := { p.f0 with inta := false, pba := [] }, f1 := { p.f1 with inta := false, pba := [] }, eq := {}, discard := 0 }

/-- Every port of two blocks agrees but for what events change, and what was sent stays sent. -/
structure Blk.hums (b c : Blk) : Prop where
  port : ∀ j, (c.port j).steady = (b.port j).steady
  out : ∀ e ∈ b.out, e ∈ c.out

namespace Blk.hums

theorem refl (b : Blk) : b.hums b := ⟨fun _ => rfl, fun _ he => he⟩

theorem trans {b c d : Blk} (h : b.hums c) (k : c.hums d) : b.hums d where
  port j := (k.port j).trans (h.port j)
  out e he := k.out e (h.out e he)

theorem ite {b c d : Blk} {p : Prop} [Decidable p] (h : b.hums c) (h' : b.hums d) : b.hums (if p then c else d) := by
  split
  · exact h
  · exact h'

theorem foldl {α : Type} {f : Blk → α → Blk} (h : ∀ (b : Blk) x, b.hums (f b x)) (l : List α) (b : Blk) :
    b.hums (l.foldl f b) := by
  induction l generalizing b with
  | nil => exact refl b
  | cons x l ih => exact (h b x).trans (ih _)

/-- A block with the same ports that has sent the same. -/
theorem of_eq {b c : Blk} (hp : c.ports = b.ports) (ho : c.out = b.out) : b.hums c where
  port j := by unfold Blk.port; rw [hp]
  out e he := ho ▸ he

theorem updPort (b : Blk) (h : Nat) {f : HostPort → HostPort} (hf : ∀ p, (f p).steady = p.steady) : b.hums (b.updPort h f) where
  port j := by
    by_cases hj : j = h
    · rw [hj, Blk.port_updPort, hf]
    · rw [Blk.port_updPort_ne _ _ _ hj]
  out _ he := he

theorem updFn (b : Blk) (h : Nat) (f1 : Bool) {f : Fn → Fn}
    (hf : ∀ x, { f x with inta := false, pba := [] } = { x with inta := false, pba := [] }) : b.hums (b.updFn h f1 f) :=
  updPort b h (fun p => by cases f1 <;> simp [HostPort.steady, hf])

theorem emit (b : Blk) (e : Emit) : b.hums (b.emit e) := ⟨fun _ => rfl, fun _ he => List.mem_cons_of_mem _ he⟩

theorem evalIntx (b : Blk) (h : Nat) (f1 : Bool) : b.hums (b.evalIntx h f1) := by
  unfold Blk.evalIntx
  extract_lets f st
  exact ite ((updFn b h f1 (f := fun x => { x with inta := st }) fun _ => rfl).trans (emit _ _)) (refl b)

theorem msiSend (b : Blk) (h : Nat) (f1 : Bool) (v : Nat) : b.hums (b.msiSend h f1 v) :=
  ite (ite (refl b) (emit b _)) (ite (updFn b h f1 (f := fun x => { x with pba := x.pba.put false v true }) fun _ => rfl) (refl b))

theorem updEvq_f0 (b : Blk) (h : Nat) (f : EvQ → EvQ) : b.hums (b.updEvq (.f0 h) f) := updPort b h fun _ => rfl

theorem eqMirror_f0 (b : Blk) (h : Nat) : b.hums (b.eqMirror (.f0 h)) := ite (emit b (.bus h false _ _)) (refl b)

theorem eqPut_f0 (b : Blk) (h : Nat) (ev : Ev) (m : Nat) : b.hums (b.eqPut (.f0 h) ev m) :=
  ((emit b (.bus h false _ _)).trans (updEvq_f0 _ h _)).trans (eqMirror_f0 _ h)

theorem eqTake_f0 (b : Blk) (h : Nat) (ev : Ev) : b.hums (b.eqTake (.f0 h) ev) :=
  ite (updEvq_f0 b h _) (ite (updEvq_f0 b h _) (ite (updEvq_f0 b h _) (eqPut_f0 b h ev 0)))

theorem raise_f0 (fuel : Nat) (b : Blk) (h : Nat) (ev : Ev) : b.hums (Blk.raise fuel b (.f0 h) ev) := by
  induction fuel generalizing b h ev with
  | zero => exact eqTake_f0 b h ev
  | succ fuel ih =>
    have take := eqTake_f0 b h ev
    have sent := (take.trans (msiSend _ h false ((b.eqTake (.f0 h) ev).eqVector (.f0 h)))).trans (evalIntx _ h false)
    exact ite (ite (sent.trans (ih _ _ _)) sent) (take.trans (evalIntx _ _ _))

theorem devEvent (b : Blk) (type index reason value detail : Nat) : b.hums (b.devEvent type index reason value detail) :=
  raise_f0 3 b _ _

theorem unitEvent (b : Blk) (t k : Nat) : b.hums (b.unitEvent t k) :=
  of_eq (congrArg Blk.ports (b.unitEvent_rest t k) :) (congrArg Blk.out (b.unitEvent_rest t k) :)

theorem reel (b : Blk) (type origin : Nat) (fields : List Nat) : b.hums (b.reel type origin fields) := by
  unfold Blk.reel Blk.reelRaw
  dsimp only
  split <;> exact of_eq rfl rfl

/-! The end of the work of instances (R434, R444). -/

theorem genDrain (b : Blk) (i : Nat) (g : BitVec 12) : b.hums (b.genDrain i g) := by
  unfold Blk.genDrain
  extract_lets gone rest b1
  exact ite (refl b) ((of_eq (b := b) (c := b1) rfl rfl).trans
    ((updPort b1 (b.cfg.inst i).port.toNat (f := fun p => { p with discard := sat64 p.discard gone.length }) fun _ => rfl).trans
      (of_eq rfl rfl)))

theorem genUp (b : Blk) (i : Nat) : b.hums (b.genUp i) := by
  unfold Blk.genUp Blk.updCache Blk.endLocks
  extract_lets b0 b1
  have drained : b.hums b0 := genDrain b i _
  clear_value b0
  exact ⟨drained.port, drained.out⟩

theorem detachKeep (b : Blk) (i : Nat) : b.hums (b.detachKeep i) := by
  unfold Blk.detachKeep
  generalize hc : b.updInst i (fun d => { d with detached := true, dirty := d.dirty.lose }) = c
  have gone := c.loseWork_rest i
  have work : c.hums (c.loseWork i) := of_eq (congrArg Blk.ports gone :) (congrArg Blk.out gone :)
  exact ((of_eq (b := b) (c := c) (by rw [← hc]; rfl) (by rw [← hc]; rfl)).trans work).trans (evalIntx _ _ _)

theorem detach (b : Blk) (i : Nat) : b.hums (b.detach i) := (genUp b i).trans (detachKeep _ i)

theorem detachPort (b : Blk) (h : Nat) : b.hums (b.detachPort h) := foldl detach _ b

/-! What a port keeps. -/

variable {b c : Blk} (h : b.hums c) (k : Nat)
include h

theorem linkUp : (c.port k).linkUp = (b.port k).linkUp := (congrArg HostPort.linkUp (h.port k) :)

theorem canIssue (f1 : Bool) : c.canIssue k f1 = b.canIssue k f1 := by
  cases f1
  · exact (congrArg (fun p : HostPort => p.f0.busMaster && !p.f0.d3 && !p.f0.flr && p.linkUp) (h.port k) :)
  · exact (congrArg (fun p : HostPort => p.f1.busMaster && !p.f1.d3 && !p.f1.flr && p.linkUp) (h.port k) :)

end Blk.hums

end Sys2Proof.Machine
end

section
/-! SUPPORT. The proof of the statement on port resets and training (R52, R53, R76, R80, R82, R84). -/

namespace Sys2Proof.Machine
open Sys2Proof

theorem exec_perstAssert (s : State) (h : PortId) :
    exec (.perstAssert h) s = .next { s with blk := (s.blk.perstAssert h).settleResets } := rfl
theorem exec_hotReset (s : State) (h : PortId) :
    exec (.hotReset h) s = .next { s with blk := (s.blk.hotReset h).settleResets } := rfl
theorem exec_flr (s : State) (h : PortId) (f1 : Bool) : exec (.flr h f1) s = .next { s with blk := s.blk.flr h f1 } := rfl
theorem exec_flrComplete (s : State) (h : PortId) (f1 : Bool) :
    exec (.flrComplete h f1) s = .next { s with blk := (s.blk.flrComplete h f1).settleResets } := rfl
theorem exec_surpriseRemoval (s : State) (h : PortId) :
    exec (.surpriseRemoval h) s = .next { s with blk := s.blk.removal h.val } := rfl
theorem exec_perstRelease (s : State) (h : PortId) (w : BitVec 6) (top : Fin 6) (flit : Bool) :
    exec (.perstRelease h w ⟨top, flit⟩) s = .next { s with blk := s.blk.perstRelease h w.toNat top flit } := rfl
theorem exec_functionsReady (s : State) (h : PortId) :
    exec (.functionsReady h) s = .next { s with blk := s.blk.fnsReady h.val } := rfl
theorem exec_hotInsertion (s : State) (h : PortId) (w : BitVec 6) (top : Fin 6) (flit : Bool) :
    exec (.hotInsertion h w ⟨top, flit⟩) s = .next { s with blk := s.blk.insertion h.val w.toNat top flit } := rfl

/-! Reads of tables that two blocks share. -/

theorem Blk.inst_of_insts {b c : Blk} (h : c.insts = b.insts) (i : Nat) : c.inst i = b.inst i := by unfold Blk.inst; rw [h]
theorem Blk.eng_of_dma {b c : Blk} (h : c.dma = b.dma) (k : Nat) : c.eng k = b.eng k := by unfold Blk.eng; rw [h]

/-! Resets of functions (R76). -/

/-- With no response that waits, none is written (R461). -/
theorem Blk.settleResets_none {b : Blk} (h : b.mss.resetting = []) : b.settleResets = b := by
  have same : { b.mss with resetting := [] } = b.mss := by rw [← h]
  unfold Blk.settleResets
  rw [h]
  exact congrArg (fun m => { b with mss := m }) same

theorem Blk.bootPortReset_rest (b : Blk) (h : Nat) : b.bootPortReset h = { b with boot := (b.bootPortReset h).boot } := by
  unfold Blk.bootPortReset
  dsimp only
  split <;> rfl

/-- What a reset of F0 leaves (R76). -/
structure Blk.F0Reset (b t : Blk) (h : Nat) (ready : Bool) : Prop where
  f0 : (t.port h).f0 = { ready := ready }
  closed : (t.port h).ctlWqEn = false ∧ (t.port h).ctlCqEn = false ∧ (t.port h).eqEn = false
  linkUp : (t.port h).linkUp = (b.port h).linkUp
  equalised : (t.port h).equalised = (b.port h).equalised
  eng : t.eng h = { haltCount := (b.eng h).haltCount }
  insts : t.insts = b.insts
  resetting : t.mss.resetting = b.mss.resetting

theorem Blk.f0Reset_resets (b : Blk) (h : PortId) (ready : Bool) : b.F0Reset (b.f0Reset h ready) h.val ready := by
  unfold Blk.f0Reset Blk.dropRegs Blk.dropLatches
  rw [b.dropPrograms_rest h.val]
  generalize (b.dropPrograms h.val).ctl = plane
  extract_lets b1
  have port : b1.port h.val = _ := Blk.port_updPort { b with ctl := plane } h.val _
  rw [Blk.bootPortReset_rest]
  have eng := Blk.eng_updEng ({ b1 with scans := b1.scans.put {} h.val {} }.mbxReset h.val) h.val
    (fun _ => { haltCount := (b.eng h.val).haltCount })
  exact ⟨(congrArg HostPort.f0 port :),
    ⟨(congrArg HostPort.ctlWqEn port :), (congrArg HostPort.ctlCqEn port :), (congrArg HostPort.eqEn port :)⟩,
    (congrArg HostPort.linkUp port :), (congrArg HostPort.equalised port :), eng, rfl, rfl⟩

theorem Blk.f1Reset_port (b : Blk) (h : PortId) (ready : Bool) :
    (b.f1Reset h ready).port h.val = { b.port h.val with f1 := { ready := ready } } :=
  Blk.port_updPort b h.val (fun p => { p with f1 := { ready := ready } })

/-- What a reset on the device side of a port leaves (R76). -/
structure Blk.PortReset (b t : Blk) (h : Nat) : Prop where
  f0 : (t.port h).f0 = {}
  f1 : (t.port h).f1 = {}
  closed : (t.port h).ctlWqEn = false ∧ (t.port h).ctlCqEn = false ∧ (t.port h).eqEn = false
  linkUp : (t.port h).linkUp = (b.port h).linkUp
  equalised : (t.port h).equalised = (b.port h).equalised
  eng : t.eng h = { haltCount := (b.eng h).haltCount }
  lost : ∀ i ∈ b.boundInsts h, (t.inst i).detached = true
  resetting : t.mss.resetting = b.mss.resetting

theorem Blk.portReset_resets (b : Blk) (h : PortId) : b.PortReset (b.portReset h) h.val := by
  have lost := b.detachPort_detached h.val
  have steady := (Blk.hums.detachPort b h.val).port h.val
  have engine : (b.detachPort h.val).eng h.val = b.eng h.val := by rw [b.detachPort_rest h.val]; rfl
  have waiting : (b.detachPort h.val).mss = b.mss := by rw [b.detachPort_rest h.val]
  unfold Blk.portReset
  generalize b.detachPort h.val = c at lost steady engine waiting ⊢
  have reset := c.f0Reset_resets h false
  generalize c.f0Reset h false = d at reset ⊢
  have port := d.f1Reset_port h false
  exact ⟨(congrArg HostPort.f0 port).trans reset.f0, congrArg HostPort.f1 port, by rw [port]; exact reset.closed,
    ((congrArg HostPort.linkUp port).trans reset.linkUp).trans (congrArg HostPort.linkUp steady :),
    ((congrArg HostPort.equalised port).trans reset.equalised).trans (congrArg HostPort.equalised steady :),
    reset.eng.trans (by rw [engine]),
    fun i hi => (congrArg InstDyn.detached (Blk.inst_of_insts reset.insts i)).trans (lost i hi),
    reset.resetting.trans (by rw [waiting])⟩

/-- What the assertion of PERST# does beside the reset of the port. -/
theorem Blk.perstAssert_leaves (b : Blk) (h : PortId) : ∃ ports pm,
    b.perstAssert h = { b.portReset h with ports := ports, pm := pm } ∧
    (b.perstAssert h).port h.val = { (b.portReset h).port h.val with
      perst := true, linkUp := false, removed := false, width := 0, lanes := 0, speed := 0, flit := false, equalised := false } := by
  unfold Blk.perstAssert
  generalize b.portReset h = c
  refine ⟨_, _, rfl, ?_⟩
  rw [Blk.port_linkAwake, Blk.port_updPort]

theorem Blk.hotReset_up {b : Blk} {h : PortId} (up : (b.port h.val).linkUp = true) :
    b.hotReset h = (b.portReset h).linkAwake h.val := if_pos up

/-! Function-level resets (R80). -/

theorem Blk.genDrain_port (b : Blk) (i : Nat) (g : BitVec 12) (j : Nat) :
    (b.genDrain i g).port j = { b.port j with discard := ((b.genDrain i g).port j).discard } := by
  unfold Blk.genDrain
  extract_lets gone rest b1
  split
  · rfl
  · rw [Blk.port_updInst]
    by_cases hj : j = (b.cfg.inst i).port.toNat
    · subst hj
      rw [Blk.port_updPort]
      rfl
    · rw [Blk.port_updPort_ne _ _ _ hj]
      rfl

theorem Blk.genUp_port (b : Blk) (i j : Nat) : (b.genUp i).port j = { b.port j with discard := ((b.genUp i).port j).discard } := by
  unfold Blk.genUp Blk.updCache Blk.endLocks
  exact b.genDrain_port i _ j

/-- The next generation of one number leaves those of the other instances as they are. -/
theorem Blk.genUp_gen (b : Blk) (i j : Nat) : ((b.genUp i).inst j).gen = (b.inst j).gen + if j = i then 1 else 0 := by
  have drained : ((b.genDrain i ((b.inst i).gen + 1)).inst j).gen = (b.inst j).gen := by
    rw [b.genDrain_inst]
    split
    next h => rw [h]
    next => rfl
  unfold Blk.genUp
  extract_lets c d
  have up : (d.inst j).gen = (c.inst j).gen + if j = i then 1 else 0 := by
    by_cases hj : j = i
    · subst hj
      rw [if_pos rfl]
      exact congrArg InstDyn.gen (c.inst_updInst j (fun x => { x with gen := x.gen + 1 }))
    · rw [if_neg hj]
      exact (congrArg InstDyn.gen (c.inst_updInst_ne i (fun x => { x with gen := x.gen + 1 }) hj)).trans (BitVec.add_zero _).symm
  rw [drained] at up
  clear_value d
  exact up

theorem Blk.foldl_genUp_port (l : List Nat) (b : Blk) (j : Nat) :
    (l.foldl Blk.genUp b).port j = { b.port j with discard := ((l.foldl Blk.genUp b).port j).discard } := by
  induction l generalizing b with
  | nil => rfl
  | cons i l ih =>
    have up := b.genUp_port i j
    rw [List.foldl_cons, ih, up]

theorem Blk.foldl_genUp_gen {l : List Nat} (distinct : l.Nodup) (b : Blk) (j : Nat) :
    ((l.foldl Blk.genUp b).inst j).gen = (b.inst j).gen + if j ∈ l then 1 else 0 := by
  induction l generalizing b with
  | nil => simp
  | cons i l ih =>
    obtain ⟨fresh, distinct⟩ := List.nodup_cons.1 distinct
    rw [List.foldl_cons, ih distinct, b.genUp_gen]
    by_cases hj : j = i
    · subst hj
      simp [fresh]
    · simp [hj]

theorem Blk.dmaFlr_gen (b : Blk) (h : Nat) : ((b.dmaFlr h).eng h).gen = (b.eng h).gen + 1 := by
  unfold Blk.dmaFlr
  rw [Blk.eng_updEng]

theorem Blk.flr_f0 {b : Blk} {h : PortId} (idle : (b.port h.val).f0.flr = false) : b.flr h false =
    (b.dmaFlr h.val).updFn h.val false (fun x => { x with flr := true, inta := false, pba := [] }) :=
  if_neg (by rw [show b.fn h.val false = (b.port h.val).f0 from rfl, idle]; decide)

theorem Blk.flr_f1 {b : Blk} {h : PortId} (idle : (b.port h.val).f1.flr = false) : b.flr h true =
    ((b.boundInsts h.val).foldl Blk.genUp b).updFn h.val true (fun x => { x with flr := true, inta := false, pba := [] }) :=
  if_neg (by rw [show b.fn h.val true = (b.port h.val).f1 from rfl, idle]; decide)

theorem Blk.flrComplete_f0 {b : Blk} {h : PortId} (runs : (b.port h.val).f0.flr = true) : b.flrComplete h false = b.f0Reset h true :=
  if_pos runs

theorem Blk.flrComplete_f1 {b : Blk} {h : PortId} (runs : (b.port h.val).f1.flr = true) :
    b.flrComplete h true = ((b.boundInsts h.val).foldl Blk.detachKeep b).f1Reset h true := if_pos runs

theorem Blk.detachKeep_rest (b : Blk) (i : Nat) : (b.detachKeep i).mss = b.mss ∧ (b.detachKeep i).insts =
    (b.updInst i (fun d => { d with detached := true, dirty := d.dirty.lose })).insts := by
  unfold Blk.detachKeep
  rw [Blk.evalIntx_rest, Blk.loseWork_rest]
  exact ⟨rfl, rfl⟩

theorem Blk.detachKeep_detached (b : Blk) (i j : Nat) (h : j = i ∨ (b.inst j).detached = true) :
    ((b.detachKeep i).inst j).detached = true := by
  rw [Blk.inst_of_insts (b.detachKeep_rest i).2 j]
  by_cases hj : j = i
  · rw [hj, Blk.inst_updInst]
  · rw [Blk.inst_updInst_ne _ _ _ hj]
    exact h.resolve_left hj

theorem Blk.foldl_detachKeep_detached (l : List Nat) (b : Blk) (j : Nat) (h : j ∈ l ∨ (b.inst j).detached = true) :
    ((l.foldl Blk.detachKeep b).inst j).detached = true := by
  induction l generalizing b with
  | nil => exact h.resolve_left (List.not_mem_nil)
  | cons i l ih =>
    refine ih _ ?_
    rcases h with h | h
    · rcases List.mem_cons.1 h with rfl | h
      · exact .inr (b.detachKeep_detached _ _ (.inl rfl))
      · exact .inl h
    · exact .inr (b.detachKeep_detached _ _ (.inr h))

/-! The loss of a link (R82). -/

/-- A stop of an engine that does not run changes nothing. -/
theorem Blk.dmaStop_rest (b : Blk) (h : Nat) (c : StopCause) (addr : Nat) (write sys : Bool) (lost : Nat) :
    b.dmaStop h c addr write sys lost = { b with dma := (b.dmaStop h c addr write sys lost).dma } := by
  unfold Blk.dmaStop
  dsimp only
  split <;> rfl

/-- The registers of an engine that stops, its channels apart (R430, R431). -/
theorem Blk.dmaStop_eng {b : Blk} {h : Nat} (runs : (b.eng h).st = .running) (c : StopCause) (addr : Nat) (write sys : Bool)
    (lost : Nat) : (b.dmaStop h c addr write sys lost).eng h = { b.eng h with
      st := .halting, gen := (b.eng h).gen + 1, cause := BitVec.ofNat 4 (stopCode c), errWrite := write, errSys := sys,
      errAddr := if c = .linkLoss then 0 else BitVec.ofNat 64 addr, ending := (b.eng h).ending + ((b.eng h).reads - lost),
      stopAt := b.mono, chans := ((b.dmaStop h c addr write sys lost).eng h).chans } := by
  unfold Blk.dmaStop
  rw [if_neg (not_not.2 runs), Blk.eng_updEng]

theorem Blk.linkLost_port (b : Blk) (h : Nat) :
    ((b.linkLost h).port h).linkUp = false ∧ ((b.linkLost h).port h).removed = true := by
  unfold Blk.linkLost Blk.dmaLinkLost
  extract_lets b1
  have port : b1.port h = _ := Blk.port_updPort _ h _
  rw [Blk.dmaStop_rest]
  exact ⟨congrArg HostPort.linkUp port, congrArg HostPort.removed port⟩

theorem Blk.linkLost_inst (b : Blk) (h i : Nat) : (b.linkLost h).inst i = (b.detachPort h).inst i := by
  unfold Blk.linkLost
  extract_lets b1
  have same : (b1.dmaLinkLost h).insts = b1.insts := by
    clear_value b1
    unfold Blk.dmaLinkLost
    rw [Blk.dmaStop_rest]
    rfl
  exact Blk.inst_of_insts same i

/-- The engine of a port whose link is lost: no request outstanding, and a running one halts for it (R82, R430). -/
theorem Blk.linkLost_eng (b : Blk) (h : Nat) : ((b.linkLost h).eng h).ending = 0 ∧
    ((b.eng h).st = .running → ((b.linkLost h).eng h).st = .halting ∧ ((b.linkLost h).eng h).cause = 6) := by
  unfold Blk.linkLost Blk.dmaLinkLost
  extract_lets b1
  have same : b1.eng h = b.eng h := (congrArg (fun t : Blk => t.eng h) (b.detachPort_rest h) :)
  clear_value b1
  rw [Blk.eng_updEng]
  refine ⟨rfl, fun runs => ?_⟩
  rw [Blk.dmaStop_eng (same ▸ runs)]
  exact ⟨rfl, rfl⟩

/-- What a surprise removal does beside the loss of the link: it is reported (R82). -/
theorem Blk.removal_reports {b : Blk} {h : Nat} (up : (b.port h).linkUp = true) :
    (b.linkLost h).logs (b.removal h) ∧ (b.linkLost h).hums (b.removal h) := by
  unfold Blk.removal
  rw [if_pos up]
  extract_lets b1 b2
  have event : b1.logs b2 ∧ b1.hums b2 := by
    unfold b2
    split
    · exact ⟨b1.logs_refl, .refl b1⟩
    · exact ⟨b1.logs_devEvent _ _ _ _ _, .devEvent b1 _ _ _ _ _⟩
  exact ⟨event.1.trans (b2.logs_reel _ _ _), event.2.trans (.reel b2 _ _ _)⟩

/-! Training (R52, R53, R84). -/

/-- A port whose link has come up. -/
def HostPort.trained (p : HostPort) (w : Nat) (top : Fin 6) (flit : Bool) : HostPort :=
  { p with linkUp := true, removed := false, width := BitVec.ofNat 6 w, lanes := BitVec.ofNat 6 w,
           speed := BitVec.ofNat 4 (top.val + 1), flit := flit || top.val == 5,
           equalised := true, f0 := { p.f0 with inta := false }, f1 := { p.f1 with inta := false } }

theorem Blk.linkTrains_trained {b : Blk} {h w : Nat} (can : b.canTrain h = true) (width : w ∈ [1, 2, 4, 8, 16])
    (most : w ≤ b.maxWidth h) (top : Fin 6) (flit : Bool) :
    ((b.linkTrains h w top flit).port h).steady = ((b.port h).trained w top flit).steady := by
  unfold Blk.linkTrains
  rw [if_pos (by simp only [can, List.contains_iff_mem.2 width, most, decide_true, Bool.and_self])]
  extract_lets b1 b2
  have port : b1.port h = (b.port h).trained w top flit := Blk.port_updPort b h _
  have told : b1.hums b2 := .ite (.reel b1 _ _ _) (.refl b1)
  rw [((told.trans (.evalIntx b2 h false)).trans (.evalIntx _ h true)).port h, port]

theorem Blk.canTrain_of {b : Blk} {h : Nat} (perst : (b.port h).perst = false) (there : b.absent h = false)
    (powered : b.mss.powered = true) (ref : h ∉ b.elec.refLost) : b.canTrain h = true := by
  simp [Blk.canTrain, perst, there, powered, ref]

theorem Blk.perstRelease_held {b : Blk} {h : PortId} (held : (b.port h.val).perst = true) (w : Nat) (top : Fin 6) (flit : Bool) :
    b.perstRelease h w top flit = (b.updPort h.val (fun p => { p with perst := false })).linkTrains h.val w top flit := if_pos held

theorem Blk.fnsReady_up {b : Blk} {h : Nat} (up : (b.port h).linkUp = true) : b.fnsReady h =
    b.updPort h (fun p => { p with f0 := { p.f0 with ready := true }, f1 := { p.f1 with ready := true } }) := if_pos up

/-- A port with configuration space at its reset values and its ROM built (R84). -/
def HostPort.inserted (p : HostPort) : HostPort :=
  { p with f0 := {}, f1 := {}, rom := true, l1En := false, l11En := false, l12En := false, pl11En := false, pl12En := false,
           l0pEn := false, ltrEn := false, l12Value := 0, l12Scale := 0, ltr := none }

theorem Blk.insertion_trains {b : Blk} {h : Nat} (down : (b.port h).linkUp = false) (can : b.canTrain h = true) (w : Nat)
    (top : Fin 6) (flit : Bool) : b.insertion h w top flit = (b.updPort h HostPort.inserted).linkTrains h w top flit :=
  if_pos (by rw [down, can]; rfl)

/-- Settles O17: the resets by what `Blk.f0Reset` and `Blk.detachPort` leave, the loss of a link by its engine and its report,
training by the port that `Blk.linkTrains` leaves. -/
theorem portResetsAndTraining : Obligations.PortResetsAndTraining := by
  unfold Obligations.PortResetsAndTraining
  constructor
  · intro s h quiet p lost closed
    refine ⟨?_, fun up => ?_, fun idle => ?_, fun idle distinct => ?_, fun runs => ?_, fun runs => ?_, fun up => ?_⟩
    · have reset := s.blk.portReset_resets h
      obtain ⟨ports, pm, rest, port⟩ := s.blk.perstAssert_leaves h
      refine ⟨_, exec_perstAssert s h, ?_⟩
      generalize s.blk.portReset h = c at reset port rest
      generalize s.blk.perstAssert h = d at port rest ⊢
      rw [Blk.settleResets_none (by rw [rest]; exact reset.resetting.trans quiet)]
      dsimp only [closed, lost]
      rw [port, rest]
      exact ⟨rfl, rfl, reset.f0, reset.f1, reset.closed, rfl, reset.eng, reset.lost⟩
    · have reset := s.blk.portReset_resets h
      refine ⟨_, exec_hotReset s h, ?_⟩
      rw [Blk.hotReset_up up]
      generalize s.blk.portReset h = c at reset ⊢
      rw [Blk.settleResets_none (b := c.linkAwake h.val) (reset.resetting.trans quiet)]
      exact ⟨reset.linkUp.trans up, reset.f0, reset.f1, reset.closed, reset.equalised, reset.eng, reset.lost⟩
    · refine ⟨_, exec_flr s h false, ?_⟩
      rw [Blk.flr_f0 idle]
      exact ⟨Blk.port_updPort _ _ _, s.blk.dmaFlr_gen h.val⟩
    · have port := Blk.foldl_genUp_port (s.blk.boundInsts h.val) s.blk h.val
      refine ⟨_, exec_flr s h true, ?_⟩
      rw [Blk.flr_f1 idle]
      have set : (((s.blk.boundInsts h.val).foldl Blk.genUp s.blk).updFn h.val true
        (fun x => { x with flr := true, inta := false, pba := [] })).port h.val = _ := Blk.port_updPort _ _ _
      dsimp only
      rw [set, port]
      exact ⟨rfl, rfl, fun i hi => (Blk.foldl_genUp_gen distinct s.blk i).trans (by rw [if_pos hi])⟩
    · have detached := Blk.foldl_detachKeep_detached (s.blk.boundInsts h.val) s.blk
      have waiting : ((s.blk.boundInsts h.val).foldl Blk.detachKeep s.blk).mss = s.blk.mss :=
        foldl_proj Blk.detachKeep Blk.mss (fun b i => (b.detachKeep_rest i).1) _ _
      refine ⟨_, exec_flrComplete s h true, ?_⟩
      rw [Blk.flrComplete_f1 runs]
      generalize (s.blk.boundInsts h.val).foldl Blk.detachKeep s.blk = c at detached waiting ⊢
      rw [Blk.settleResets_none (b := c.f1Reset h true) ((congrArg Mss.resetting waiting).trans quiet)]
      exact ⟨congrArg HostPort.f1 (c.f1Reset_port h true), fun i hi => detached i (.inl hi)⟩
    · have reset := s.blk.f0Reset_resets h true
      refine ⟨_, exec_flrComplete s h false, ?_⟩
      rw [Blk.flrComplete_f0 runs, Blk.settleResets_none (reset.resetting.trans quiet)]
      exact ⟨reset.f0, reset.closed, reset.eng⟩
    · obtain ⟨logs, hums⟩ := Blk.removal_reports up
      obtain ⟨down, removed⟩ := s.blk.linkLost_port h.val
      have eng : (s.blk.removal h.val).eng h.val = (s.blk.linkLost h.val).eng h.val :=
        (congrArg (fun t : Blk => t.eng h.val) logs.rest :)
      refine ⟨_, exec_surpriseRemoval s h, (hums.linkUp h.val).trans down,
        (congrArg HostPort.removed (hums.port h.val) :).trans removed, fun i hi => ?_, ?_⟩
      · have same : (s.blk.removal h.val).inst i = (s.blk.linkLost h.val).inst i := (congrArg (fun t : Blk => t.inst i) logs.rest :)
        dsimp only
        rw [same, Blk.linkLost_inst]
        exact s.blk.detachPort_detached h.val i hi
      · dsimp only
        rw [eng]
        exact s.blk.linkLost_eng h.val
  · intro s h w top flit p
    have size : BitVec.ofNat 6 w.toNat = w := by simp
    refine ⟨fun held there powered ref width most => ?_, fun up => ?_, fun down perst there powered ref width most => ?_⟩
    · generalize hc : s.blk.updPort h.val (fun p => { p with perst := false }) = c
      have port : c.port h.val = { p with perst := false } := by rw [← hc]; exact Blk.port_updPort _ _ _
      have can : c.canTrain h.val = true := by
        rw [← hc] at port ⊢
        exact Blk.canTrain_of (congrArg HostPort.perst port) there powered ref
      have trained := Blk.linkTrains_trained can width (by rw [← hc]; exact most) top flit
      rw [port] at trained
      refine ⟨_, exec_perstRelease s h w top flit, ?_⟩
      rw [Blk.perstRelease_held held, hc]
      generalize c.linkTrains h.val w.toNat top flit = d at trained ⊢
      have fast : (d.port h.val).flit = (flit || top.val == 5) := congrArg HostPort.flit trained
      exact ⟨congrArg HostPort.perst trained, congrArg HostPort.linkUp trained, (congrArg HostPort.width trained).trans size,
        congrArg HostPort.speed trained, by simp [fast]⟩
    · refine ⟨_, exec_functionsReady s h, ?_⟩
      rw [Blk.fnsReady_up up]
      exact ⟨Blk.port_updPort _ _ _, rfl, fun k hk => Blk.port_updPort_ne _ _ _ hk⟩
    · refine ⟨_, exec_hotInsertion s h w top flit, ?_⟩
      rw [Blk.insertion_trains down (Blk.canTrain_of perst there powered ref)]
      generalize hc : s.blk.updPort h.val HostPort.inserted = c
      have port : c.port h.val = p.inserted := by rw [← hc]; exact Blk.port_updPort _ _ _
      have can : c.canTrain h.val = true := by
        rw [← hc] at port ⊢
        exact Blk.canTrain_of ((congrArg HostPort.perst port).trans perst) there powered ref
      have trained := Blk.linkTrains_trained can width (by rw [← hc]; exact most) top flit
      rw [port] at trained
      generalize c.linkTrains h.val w.toNat top flit = d at trained ⊢
      exact ⟨congrArg HostPort.linkUp trained, (congrArg HostPort.width trained).trans size, congrArg HostPort.speed trained,
        congrArg HostPort.rom trained, congrArg HostPort.removed trained, congrArg (fun p : HostPort => p.f0.ready) trained,
        congrArg (fun p : HostPort => p.f0.memEn) trained, congrArg (fun p : HostPort => p.f1.memEn) trained⟩

end Sys2Proof.Machine
end

section
/-! SUPPORT. The proof of the statement on the load window and link power (R59, R74, R75, R80, R82, R92, R513). -/

namespace Sys2Proof.Machine
open Sys2Proof

theorem exec_loadWindowWrite (s : State) (h : PortId) (off : Fin 1073741824) (l : List (Option Byte)) :
    exec (.loadWindowWrite h off l) s = .next { s with blk := s.blk.loadWindow h.val off.val l } := rfl
theorem exec_hostCompletionRx (s : State) (h : PortId) (inst : Option InstId) (gen : BitVec 12) (lost : Bool) :
    exec (.hostCompletionRx h inst gen lost) s = .next { s with blk := s.blk.completionRx h.val inst gen lost } := rfl
theorem exec_linkL1Entry (s : State) (h : PortId) (pm : LinkPm) :
    exec (.linkL1Entry h pm) s = .next { s with blk := s.blk.l1Entry h.val pm } := rfl
theorem exec_linkL1Exit (s : State) (h : PortId) : exec (.linkL1Exit h) s = .next { s with blk := s.blk.l1Exit h.val } := rfl
theorem exec_l0pNarrowing (s : State) (h : PortId) :
    exec (.l0pNarrowing h) s = .next { s with blk := s.blk.l0pNarrow h.val } := rfl
theorem exec_l0pWidening (s : State) (h : PortId) : exec (.l0pWidening h) s = .next { s with blk := s.blk.l0pWiden h.val } := rfl
theorem exec_ltrIdleUpdate (s : State) (h : PortId) :
    exec (.ltrIdleUpdate h) s = .next { s with blk := s.blk.ltrUpdate h.val false } := rfl
theorem exec_ltrActiveUpdate (s : State) (h : PortId) :
    exec (.ltrActiveUpdate h) s = .next { s with blk := s.blk.ltrUpdate h.val true } := rfl

/-! Accesses while memory space is closed (R59, R81). -/

theorem Blk.memOpen_closed {b : Blk} {h : Nat} {f1 : Bool} (shut : (b.fn h f1).memEn = false ∨ (b.fn h f1).flr = true) :
    b.memOpen h f1 = false := by
  unfold Blk.memOpen
  rcases shut with shut | shut <;> simp [shut]

theorem Blk.closedAccess_refuses {b : Blk} {h : Nat} {f1 write : Bool} (shut : write = false ∨ (b.fn h f1).memEn = false) :
    b.closedAccess h f1 write = b.emit (.ur h) := by
  unfold Blk.closedAccess
  rcases shut with shut | shut <;> simp [shut]

theorem Blk.closedAccess_discards {b : Blk} {h : Nat} {f1 : Bool} (enabled : (b.fn h f1).memEn = true)
    (resets : (b.fn h f1).flr = true) : b.closedAccess h f1 true = b := by
  simp [Blk.closedAccess, enabled, resets]

/-! The load window (R92, R513). -/

/-- The area of an image, in bytes (R92). -/
abbrev areaBytes : Nat := 268435456

section Bytes
variable {off : Nat} {f : Tab Byte → Option Byte × Nat → Tab Byte} (masked : ∀ m k, f m (none, k) = m)
  (stored : ∀ m v k, off + k < areaBytes → f m (some v, k) = m.put 0 (off + k) v)
  (beyond : ∀ m v k, ¬ off + k < areaBytes → f m (some v, k) = m)
include masked stored beyond

/-- Bytes stored by their enables leave every other byte of the area. -/
theorem get_foldl_enabled_other (l : List (Option Byte)) (n : Nat) (m : Tab Byte) {a : Nat}
    (other : (∀ k v, l[k]? = some (some v) → a ≠ off + (n + k)) ∨ areaBytes ≤ a) :
    Tab.get 0 ((l.zipIdx n).foldl f m) a = Tab.get 0 m a := by
  induction l generalizing n m with
  | nil => rfl
  | cons x l ih =>
    have rest : (∀ k v, l[k]? = some (some v) → a ≠ off + (n + 1 + k)) ∨ areaBytes ≤ a :=
      other.imp_left fun ne k v e => by have := ne (k + 1) v e; omega
    rw [List.zipIdx_cons, List.foldl_cons, ih _ _ rest]
    cases x with
    | none => rw [masked]
    | some v =>
      by_cases inside : off + n < areaBytes
      · rw [stored _ _ _ inside]
        refine Tab.get_put_other _ _ _ ?_
        rcases other with ne | past
        · exact ne 0 v rfl
        · omega
      · rw [beyond _ _ _ inside]

/-- A byte whose enable is set is stored. -/
theorem get_foldl_enabled (l : List (Option Byte)) (n : Nat) (m : Tab Byte) {k : Nat} {v : Byte} (enabled : l[k]? = some (some v))
    (inside : off + (n + k) < areaBytes) : Tab.get 0 ((l.zipIdx n).foldl f m) (off + (n + k)) = v := by
  induction l generalizing n m k with
  | nil => cases enabled
  | cons x l ih =>
    rw [List.zipIdx_cons, List.foldl_cons]
    cases k with
    | zero =>
      obtain rfl : x = some v := by simpa using enabled
      rw [Nat.add_zero] at inside ⊢
      rw [get_foldl_enabled_other masked stored beyond l _ _ (.inl fun k _ _ => by omega), stored _ _ _ inside]
      exact Tab.get_put_same _ _ _ _
    | succ k =>
      have place : off + (n + (k + 1)) = off + (n + 1 + k) := by omega
      rw [place] at inside ⊢
      exact ih _ _ enabled inside

end Bytes

section Window
variable {b : Blk} {h off : Nat} {l : List (Option Byte)}

theorem Blk.loadWindow_shut (shut : (b.fn h false).memEn = false) : b.loadWindow h off l = b.emit (.ur h) := by
  rw [← Blk.closedAccess_refuses (write := true) (.inr shut)]
  exact if_pos (by rw [Blk.memOpen_closed (.inl shut)]; rfl)

theorem Blk.loadWindow_resets (enabled : (b.fn h false).memEn = true) (resets : (b.fn h false).flr = true) :
    b.loadWindow h off l = b := by
  refine (if_pos (by rw [Blk.memOpen_closed (.inr resets)]; rfl)).trans ?_
  exact Blk.closedAccess_discards enabled resets

theorem Blk.loadWindow_beyond (opened : b.memOpen h false = true) (past : areaBytes ≤ off) : b.loadWindow h off l = b :=
  (if_neg (by simp [opened])).trans (if_neg (Nat.not_lt.2 past))

theorem Blk.loadWindow_inside (opened : b.memOpen h false = true) (inside : off < areaBytes) :
    b.loadWindow h off l = b.loadWrite h off l := (if_neg (by simp [opened])).trans (if_pos inside)

theorem Blk.loadWrite_refused {r : Nat} (fault : b.loadFault h = some r) : b.loadWrite h off l = b.bootRefuse h r 3 := by
  unfold Blk.loadWrite
  rw [fault]

theorem Blk.loadWrite_held (may : b.loadFault h = none) (held : (b.bport h).verifying = true ∨ b.activating h = true) :
    b.loadWrite h off l = b := by
  unfold Blk.loadWrite
  rw [may]
  exact if_pos (by simpa using held)

/-- What a write to the load window stores (R92). -/
structure Blk.Loaded (b t : Blk) (h off : Nat) (l : List (Option Byte)) : Prop where
  rest : t = { b with boot := t.boot }
  stored : ∀ k v, l[k]? = some (some v) → off + k < areaBytes → Tab.get 0 (t.bport h).area (off + k) = v
  others : ∀ a, (∀ k v, l[k]? = some (some v) → a ≠ off + k) ∨ areaBytes ≤ a →
    Tab.get 0 (t.bport h).area a = Tab.get 0 (b.bport h).area a

theorem Blk.loadWrite_stores (may : b.loadFault h = none) (idle : (b.bport h).verifying = false)
    (still : b.activating h = false) : b.Loaded (b.loadWrite h off l) h off l := by
  unfold Blk.loadWrite
  rw [may]
  dsimp only
  rw [if_neg (by simp [idle, still])]
  refine ⟨rfl, fun k v enabled inside => ?_, fun a other => ?_⟩
  · rw [Blk.bport_updBport]
    have place : 0 + k = k := Nat.zero_add k
    rw [← place] at inside ⊢
    exact get_foldl_enabled (fun _ _ => rfl) (fun _ _ _ h => if_pos h) (fun _ _ _ h => if_neg h) l 0 _ enabled inside
  · rw [Blk.bport_updBport]
    refine get_foldl_enabled_other (fun _ _ => rfl) (fun _ _ _ h => if_pos h) (fun _ _ _ h => if_neg h) l 0 _ ?_
    exact other.imp_left fun ne k v e => by rw [Nat.zero_add]; exact ne k v e

end Window

/-! Stale completions (R80, R82, R444). -/

/-- A completion that is discarded is counted at its port. -/
def Blk.countDiscard (b : Blk) (h : Nat) : Blk := b.updPort h (fun p => { p with discard := sat64 p.discard 1 })

theorem Blk.countDiscard_port (b : Blk) (h : Nat) :
    (b.countDiscard h).port h = { b.port h with discard := sat64 (b.port h).discard 1 } ∧
    ∀ j ≠ h, (b.countDiscard h).port j = b.port j := ⟨Blk.port_updPort _ _ _, fun _ hj => Blk.port_updPort_ne _ _ _ hj⟩

section Completion
variable {b : Blk} {h : Nat} {i : InstId} {gen : BitVec 12} {lost : Bool}

theorem Blk.completionRx_stale (stale : gen ≠ (b.inst i.val).gen) : b.completionRx h (some i) gen lost =
    (b.countDiscard h).updInst i.val (fun d => { d with stale := sat64 d.stale 1 }) := if_pos stale

theorem Blk.completionRx_lost (fresh : gen = (b.inst i.val).gen) : b.completionRx h (some i) gen true = b.countDiscard h :=
  if_neg (not_not.2 fresh)

theorem Blk.completionRx_used (fresh : gen = (b.inst i.val).gen) : b.completionRx h (some i) gen false = b :=
  if_neg (not_not.2 fresh)

theorem Blk.completionRx_engine (stale : gen ≠ (b.eng h).gen ∨ lost = true) : b.completionRx h none gen lost = b.countDiscard h :=
  if_pos (by simpa using stale)

theorem Blk.completionRx_engine_used (fresh : gen = (b.eng h).gen) : b.completionRx h none gen false = b :=
  if_neg (by simp [fresh])

end Completion

/-! Link power (R74). -/

section Power
variable {b : Blk} {h : Nat}

/-- The host has enabled a link power state of a port (R74). -/
def HostPort.enables (p : HostPort) : LinkPm → Bool
  | .l0 => false
  | .l1 => p.l1En
  | .l11 => p.l1En && if p.f0.d3 && p.f1.d3 then p.pl11En else p.l11En
  | .l12 => p.l1En && (if p.f0.d3 && p.f1.d3 then p.pl12En else p.l12En) &&
      p.ltr.any fun v => decide (p.l12Value.toNat * 32 ^ p.l12Scale.toNat ≤ v * 1000)

theorem Blk.l1Entry_eq (b : Blk) (h : Nat) (pm : LinkPm) : b.l1Entry h pm =
    if (b.port h).linkUp && b.pm.get .l0 h == .l0 && (b.port h).enables pm then
      ({ b with pm := b.pm.put .l0 h pm } : Blk).emit (.link h pm) else b := by
  unfold Blk.l1Entry HostPort.enables
  dsimp only
  cases pm
  case l12 => cases (b.port h).ltr <;> rfl
  all_goals rfl

theorem Blk.l1Entry_enters {pm : LinkPm} (up : (b.port h).linkUp = true) (awake : b.pm.get .l0 h = .l0)
    (enabled : (b.port h).enables pm = true) :
    b.l1Entry h pm = ({ b with pm := b.pm.put .l0 h pm } : Blk).emit (.link h pm) := by
  rw [Blk.l1Entry_eq]
  exact if_pos (by simp [up, awake, enabled])

theorem Blk.l1Entry_refused (shut : (b.port h).l1En = false ∨ b.pm.get .l0 h ≠ .l0) (pm : LinkPm) : b.l1Entry h pm = b := by
  rw [Blk.l1Entry_eq]
  refine if_neg ?_
  rcases shut with shut | asleep
  · cases pm <;> simp [HostPort.enables, shut]
  · simp [asleep]

theorem Blk.l1Exit_wakes (asleep : b.pm.get .l0 h ≠ .l0) : b.l1Exit h = (b.linkAwake h).emit (.link h .l0) := if_pos asleep

theorem Blk.l0pNarrow_halves (up : (b.port h).linkUp = true) (enabled : (b.port h).l0pEn = true) (flit : (b.port h).flit = true)
    (awake : b.pm.get .l0 h = .l0) (wide : 4 ≤ (b.port h).lanes.toNat) :
    b.l0pNarrow h = b.updPort h (fun p => { p with lanes := p.lanes >>> 1 }) :=
  if_pos (by simp [up, enabled, flit, awake, wide])

theorem ushiftRight_one (x : BitVec 6) : x >>> 1 = BitVec.ofNat 6 (x.toNat / 2) := by
  refine BitVec.eq_of_toNat_eq ?_
  rw [BitVec.toNat_ushiftRight, BitVec.toNat_ofNat, Nat.shiftRight_eq_div_pow]
  omega

/-! LTR (R75). -/

/-- The value of an LTR message in µs, by activity. -/
def ltrValue (active : Bool) : Nat := if active then 2 else 100

theorem Blk.ltrUpdate_tells {active : Bool} (enabled : (b.port h).ltrEn = true) (up : (b.port h).linkUp = true)
    (activity : b.portBusy h = active) (due : active = true ∨ (b.port h).busyAt + 1000000 ≤ b.mono)
    (news : (b.port h).ltr ≠ some (ltrValue active)) : b.ltrUpdate h active =
      (b.updPort h (fun p => { p with ltr := some (ltrValue active) })).emit (.ltr h (ltrValue active)) := by
  refine if_pos ?_
  unfold ltrValue at news
  simp only [enabled, up, activity, beq_self_eq_true, Bool.true_and, Bool.and_eq_true, Bool.or_eq_true, decide_eq_true_eq,
    bne_iff_ne]
  exact ⟨due, news⟩

theorem Blk.ltrUpdate_quiet {active : Bool} (quiet : (b.port h).ltrEn = false ∨ (b.port h).ltr = some (ltrValue active)) :
    b.ltrUpdate h active = b := by
  refine if_neg ?_
  unfold ltrValue at quiet
  rcases quiet with quiet | quiet <;> simp [quiet]

end Power

/-- Settles O19: the load window by what `Blk.loadWrite` stores, completions by their generation, link power by the states that
the host enables, LTR by activity. -/
theorem loadWindowAndLinkPower : Obligations.LoadWindowAndLinkPower := by
  unfold Obligations.LoadWindowAndLinkPower
  constructor
  · intro s h off l inst gen lost r b c counted
    have count := b.countDiscard_port h.val
    refine ⟨fun shut => ?_, fun enabled resets => ?_, fun opened past => ?_, fun opened inside => ⟨fun fault => ?_,
      fun may held => ?_, fun may idle still => ?_⟩, fun stale => ?_, fun fresh gone => ?_, fun fresh used => ?_,
      fun stale => ?_, fun fresh used => ?_⟩
    · exact ⟨_, exec_loadWindowWrite s h off l, Blk.loadWindow_shut shut⟩
    · exact (exec_loadWindowWrite s h off l).trans (by rw [Blk.loadWindow_resets enabled resets])
    · exact (exec_loadWindowWrite s h off l).trans (by rw [Blk.loadWindow_beyond opened past])
    · refine ⟨_, exec_loadWindowWrite s h off l, ?_⟩
      rw [Blk.loadWindow_inside opened inside, Blk.loadWrite_refused fault]
      have port : (s.blk.bootRefuse h.val r 3).bport h.val = _ := Blk.bport_updBport _ _ _
      dsimp only
      rw [port]
      exact ⟨rfl, rfl, rfl, rfl⟩
    · exact (exec_loadWindowWrite s h off l).trans (by rw [Blk.loadWindow_inside opened inside, Blk.loadWrite_held may held])
    · have loaded := Blk.loadWrite_stores (off := off.val) (l := l) may idle still
      refine ⟨_, exec_loadWindowWrite s h off l, ?_⟩
      rw [Blk.loadWindow_inside opened inside]
      exact ⟨loaded.rest, loaded.stored, loaded.others⟩
    · refine ⟨_, exec_hostCompletionRx s h (some inst) gen lost, ?_⟩
      rw [Blk.completionRx_stale stale]
      exact ⟨count, Blk.inst_updInst _ _ _, fun j hj => Blk.inst_updInst_ne _ _ _ hj, rfl⟩
    · subst gone
      refine ⟨_, exec_hostCompletionRx s h (some inst) gen true, ?_⟩
      rw [Blk.completionRx_lost fresh]
      exact ⟨count, rfl⟩
    · subst used
      exact (exec_hostCompletionRx s h (some inst) gen false).trans (by rw [Blk.completionRx_used fresh])
    · refine ⟨_, exec_hostCompletionRx s h none gen lost, ?_⟩
      rw [Blk.completionRx_engine stale]
      exact ⟨count, rfl⟩
    · subst used
      exact (exec_hostCompletionRx s h none gen false).trans (by rw [Blk.completionRx_engine_used fresh])
  · intro s h v p pm pci power goes turns tells
    have enters : ∀ x, p.linkUp = true → pm = .l0 → p.enables x = true → goes (.linkL1Entry h x) x := by
      intro x up awake enabled
      refine ⟨_, exec_linkL1Entry s h x, ?_⟩
      rw [Blk.l1Entry_enters up awake enabled]
      exact ⟨⟨Tab.get_put_same _ _ _ _, fun k hk => Tab.get_put_other _ _ _ hk⟩, rfl⟩
    have told : ∀ active, p.ltrEn = true → p.linkUp = true → s.blk.portBusy h.val = active →
        (active = true ∨ p.busyAt + 1000000 ≤ s.blk.mono) → p.ltr ≠ some (ltrValue active) →
        ∃ t : State, s.run (·.ltrUpdate h.val active) = .next t ∧ t.blk.port h.val = { p with ltr := some (ltrValue active) } ∧
          (∀ k ≠ h.val, t.blk.port k = s.blk.port k) ∧ power t .l0 ∧ t.blk = { s.blk with
            ports := t.blk.ports, pm := t.blk.pm, out := .ltr h.val (ltrValue active) :: s.blk.out } := by
      intro active enabled up activity due news
      refine ⟨_, rfl, ?_⟩
      dsimp only
      rw [Blk.ltrUpdate_tells enabled up activity due news]
      exact ⟨(Blk.port_emit _ _ _).trans (Blk.port_updPort _ _ _),
        fun k hk => (Blk.port_emit _ _ _).trans (Blk.port_updPort_ne _ _ _ hk),
        ⟨Tab.get_put_same LinkPm.l0 s.blk.pm h.val LinkPm.l0, fun k hk => Tab.get_put_other LinkPm.l0 s.blk.pm LinkPm.l0 hk⟩,
          rfl⟩
    refine ⟨fun up awake l1 => ⟨enters .l1 up awake l1, fun sub => enters .l11 up awake ?_,
        fun sub last most => enters .l12 up awake ?_⟩,
      fun shut x => ?_, fun asleep => ?_, fun up enabled flit awake wide => ?_, ?_, fun enabled up idle due news => ?_,
      fun enabled up busy news => ?_, fun quiet => ?_, fun quiet => ?_⟩
    · exact Bool.and_eq_true_iff.2 ⟨l1, sub⟩
    · unfold HostPort.enables
      rw [last]
      exact Bool.and_eq_true_iff.2 ⟨Bool.and_eq_true_iff.2 ⟨l1, sub⟩, decide_eq_true most⟩
    · exact (exec_linkL1Entry s h x).trans (by rw [Blk.l1Entry_refused shut])
    · refine ⟨_, exec_linkL1Exit s h, ?_⟩
      rw [Blk.l1Exit_wakes asleep]
      exact ⟨⟨Tab.get_put_same LinkPm.l0 s.blk.pm h.val LinkPm.l0, fun k hk => Tab.get_put_other LinkPm.l0 s.blk.pm LinkPm.l0 hk⟩,
          rfl⟩
    · refine ⟨_, exec_l0pNarrowing s h, ?_⟩
      rw [Blk.l0pNarrow_halves up enabled flit awake wide]
      refine ⟨(Blk.port_updPort _ _ _).trans ?_, rfl, fun k hk => Blk.port_updPort_ne _ _ _ hk⟩
      rw [ushiftRight_one]
    · exact ⟨_, exec_l0pWidening s h, Blk.port_updPort _ _ _, rfl, fun k hk => Blk.port_updPort_ne _ _ _ hk⟩
    · exact told false enabled up idle (.inr due) news
    · exact told true enabled up busy (.inl rfl) news
    · exact (exec_ltrIdleUpdate s h).trans (by rw [Blk.ltrUpdate_quiet quiet])
    · exact (exec_ltrActiveUpdate s h).trans (by rw [Blk.ltrUpdate_quiet quiet])

end Sys2Proof.Machine
end

section
/-! SUPPORT. The proof of the statement on host accesses (R59, R61, R62, R64, R69, R72, R78, R81). -/

namespace Sys2Proof.Machine
open Sys2Proof

theorem exec_busMasterEnableChange (s : State) (h : PortId) (f1 v : Bool) :
    exec (.busMasterEnableChange h f1 v) s = .next { s with blk := s.blk.bmeChange h.val f1 v } := rfl
theorem exec_d3hotChange (s : State) (h : PortId) (f1 v : Bool) :
    exec (.d3hotChange h f1 v) s = .next { s with blk := s.blk.d3Change h.val f1 v } := rfl
theorem exec_msixMaskChange (s : State) (h : PortId) (f1 : Bool) (m : MaskSet) :
    exec (.msixMaskChange h f1 m) s = .next { s with blk := s.blk.maskChange h.val f1 m } := rfl
theorem exec_barAccessUnserved (s : State) (h : PortId) (f1 write : Bool) (n : Fin 4097) :
    exec (.barAccessUnserved h f1 write n) s = .next { s with blk := s.blk.unserved h.val f1 write n.val } := rfl
theorem exec_doorbellPageUnbound (s : State) (h : PortId) (i : InstId) (write : Bool) (n : Fin 9) :
    exec (.doorbellPageUnbound h i write n) s = .next { s with blk := s.blk.unboundPage h.val i.val write n.val } := rfl
theorem exec_apertureAccess (s : State) (h : PortId) (i : InstId) (off : Fin 2097152) (r : MemReq) :
    exec (.apertureAccess h i off r) s = .next { s with blk := s.blk.aperture h.val i.val off.val r } := rfl

/-! A change of a function (R54). -/

theorem Blk.port_updFn (b : Blk) (h : Nat) (f1 : Bool) (f : Fn → Fn) : (b.updFn h f1 f).port h =
    if f1 then { b.port h with f1 := f (b.port h).f1 } else { b.port h with f0 := f (b.port h).f0 } := Blk.port_updPort _ _ _

theorem Blk.port_updFn_ne (b : Blk) (h : Nat) (f1 : Bool) (f : Fn → Fn) {j : Nat} (hj : j ≠ h) :
    (b.updFn h f1 f).port j = b.port j := Blk.port_updPort_ne _ _ _ hj

theorem Blk.linkUp_updFn (b : Blk) (h : Nat) (f1 : Bool) (f : Fn → Fn) :
    ((b.updFn h f1 f).port h).linkUp = (b.port h).linkUp := by
  rw [Blk.port_updFn]
  cases f1 <;> rfl

theorem Blk.eq_updFn_port (b : Blk) (h : Nat) (f1 : Bool) (f : Fn → Fn) :
    ((b.updFn h f1 f).port h).eq = (b.port h).eq := by
  rw [Blk.port_updFn]
  cases f1 <;> rfl

theorem Blk.intSource_updFn (b : Blk) (h : Nat) (f1 : Bool) (f : Fn → Fn) :
    (b.updFn h f1 f).intSource h f1 = b.intSource h f1 := by
  cases f1
  · exact congrArg EvQ.pending (b.eq_updFn_port h false f)
  · rfl

theorem Blk.canIssue_updFn (b : Blk) (h : Nat) (f1 : Bool) {f : Fn → Fn} (master : ∀ x, (f x).busMaster = x.busMaster)
    (d3 : ∀ x, (f x).d3 = x.d3) (flr : ∀ x, (f x).flr = x.flr) : (b.updFn h f1 f).canIssue h f1 = b.canIssue h f1 := by
  unfold Blk.canIssue
  rw [Blk.fn_updFn, Blk.linkUp_updFn, master, d3, flr]

/-! With nothing that waits to be sent, a function resumes to no effect (R78). -/

theorem foldl_of_fixed {α β : Type} {f : β → α → β} {b : β} (l : List α) (h : ∀ x ∈ l, f b x = b) :
    l.foldl f b = b := by
  induction l with
  | nil => rfl
  | cons x l ih =>
    rw [List.foldl_cons, h x List.mem_cons_self]
    exact ih fun y hy => h y (List.mem_cons_of_mem x hy)

section Resume
variable {b : Blk} {h : Nat}

theorem Blk.cqRetry_drained {r : CqR} (mirror : b.cqMirrorRetry r = b) (held : (b.cqOf r).held = []) : b.cqRetry r = b := by
  unfold Blk.cqRetry
  rw [mirror]
  dsimp only
  rw [held]
  exact ite_self b

theorem Blk.cqRetry_inst {i q : Nat} (mirror : (b.cq i q).mirrorHeld = false) (held : (b.cq i q).held = []) :
    b.cqRetry (.inst i q) = b :=
  Blk.cqRetry_drained (if_neg (by simp [mirror])) held

/-- What is held for the rings of a number's queues: no completion, no mirror write, no event queue. -/
def Blk.QueuesIdle (b : Blk) (i : Nat) : Prop :=
  (∀ e ∈ b.cqs, e.1 / 64 = i → e.2.held = [] ∧ e.2.mirrorHeld = false) ∧ ∀ e ∈ b.eqs, e.1 / 8 ≠ i

theorem Blk.QueuesIdle.cq {i q : Nat} (idle : b.QueuesIdle i) (hq : q < 64) :
    (b.cq i q).held = [] ∧ (b.cq i q).mirrorHeld = false := by
  obtain absent | listed := Tab.get_listed {} b.cqs (i * 64 + q)
  · rw [show b.cq i q = {} from absent]
    exact ⟨rfl, rfl⟩
  · exact idle.1 _ listed (by show (i * 64 + q) / 64 = i; omega)

theorem Blk.instRetry_idle {i : Nat} (idle : b.QueuesIdle i) : b.instRetry i = b := by
  unfold Blk.instRetry
  have cqs : ((b.cqs.filter (fun e => e.1 / 64 == i)).map (fun e => e.1 % 64)).foldl (fun b q => b.cqRetry (.inst i q)) b = b := by
    refine foldl_of_fixed _ fun q hq => ?_
    obtain ⟨e, -, rfl⟩ := List.mem_map.1 hq
    obtain ⟨held, mirror⟩ := idle.cq (q := e.1 % 64) (Nat.mod_lt _ (by decide))
    exact Blk.cqRetry_inst mirror held
  have eqs : b.eqs.filter (fun e => e.1 / 8 == i) = [] := List.filter_eq_nil_iff.2 fun e he => by simpa using idle.2 e he
  rw [cqs]
  dsimp only
  rw [eqs]
  rfl

theorem Blk.f0Flush_idle (events : (b.port h).eq.srcs = []) : b.f0Flush h = b := by
  have due : (b.evq (.f0 h)).due = [] := by
    unfold EvQ.due
    rw [show (b.evq (.f0 h)).srcs = [] from events]
    rfl
  have flush : b.eqFlush (.f0 h) = b := by
    unfold Blk.eqFlush
    rw [due]
    split <;> rfl
  unfold Blk.f0Flush
  rw [flush]
  simp

theorem Blk.dmaBme_idle (channels : ∀ c < 32, (b.chn h c).st ≠ .bmeOff) : b.dmaBme h = b := by
  unfold Blk.dmaBme
  split
  · exact foldl_of_fixed _ fun c hc => if_neg (channels c (List.mem_range.1 hc))
  · rfl

theorem Blk.pbaFlush_none {f1 : Bool} (pending : (b.fn h f1).pba = []) : b.pbaFlush h f1 = b := by
  unfold Blk.pbaFlush
  rw [pending]
  rfl

/-- Nothing waits to be sent for a function but pending messages and increments. -/
def Blk.WaitsNot (b : Blk) (h : Nat) (f1 : Bool) : Prop :=
  if f1 then ∀ i ∈ b.boundInsts h, b.QueuesIdle i
  else (b.port h).ctlCq.held = [] ∧ (b.port h).eq.srcs = [] ∧ ∀ c < 32, (b.chn h c).st ≠ .bmeOff

theorem Blk.fnResumes_idle {f1 : Bool} (pending : (b.fn h f1).pba = []) (incs : b.rmt.incs = []) (work : b.WaitsNot h f1) :
    b.fnResumes h f1 = b := by
  unfold Blk.fnResumes
  have same : (if f1 = true then (b.boundInsts h).foldl Blk.instRetry b else ((b.cqRetry (.ctl h)).f0Flush h).dmaBme h) = b := by
    unfold Blk.WaitsNot at work
    split
    next hf =>
      rw [if_pos hf] at work
      exact foldl_of_fixed _ fun i hi => Blk.instRetry_idle (work i hi)
    next hf =>
      rw [if_neg hf] at work
      obtain ⟨held, events, channels⟩ := work
      rw [Blk.cqRetry_drained (r := .ctl h) rfl held, Blk.f0Flush_idle events, Blk.dmaBme_idle channels]
  rw [same]
  dsimp only
  rw [Blk.pbaFlush_none pending, Blk.settleIncs_nil incs]

theorem Blk.WaitsNot.updFn {f1 : Bool} (work : b.WaitsNot h f1) (f : Fn → Fn) : (b.updFn h f1 f).WaitsNot h f1 := by
  unfold Blk.WaitsNot at work ⊢
  rw [Blk.ctlCq_updFn, Blk.eq_updFn_port]
  exact work

end Resume

/-! Masks of messages (R69, R72). -/

section Masks
variable {b : Blk} {h : Nat} {f1 : Bool}

/-- No INTx message is due: the link is down, the function resets, or INTA is not asserted and need not be. -/
theorem Blk.evalIntx_still (still : (b.port h).linkUp = false ∨ (b.fn h f1).flr = true ∨ ((b.fn h f1).inta = false ∧
    ((b.fn h f1).intDis = true ∨ (b.fn h f1).msixEn = true ∨ b.intSource h f1 = false))) : b.evalIntx h f1 = b := by
  refine if_neg ?_
  rcases still with down | resets | ⟨low, masked | enabled | silent⟩ <;> simp [*]

/-- MSI-X Enable takes an asserted INTA back (R69). -/
theorem Blk.evalIntx_falls (up : (b.port h).linkUp = true) (runs : (b.fn h f1).flr = false) (high : (b.fn h f1).inta = true)
    (enabled : (b.fn h f1).msixEn = true) :
    b.evalIntx h f1 = (b.updFn h f1 (fun x => { x with inta := false })).emit (.intx h f1 false) := by
  unfold Blk.evalIntx
  simp [up, runs, high, enabled]

/-- The one pending message is sent, and its bit cleared (R72). -/
theorem Blk.pbaFlush_one {k : Nat} (pending : (b.fn h f1).pba = [(k, true)]) (enabled : (b.fn h f1).msixEn = true)
    (opened : (b.fn h f1).fnMask = false) (clear : ((b.fn h f1).vecs.get {} k).mask = false) (issues : b.canIssue h f1 = true)
    (aligned : ((b.fn h f1).vecs.get {} k).addr.toNat % 4 = 0) : b.pbaFlush h f1 =
      (b.updFn h f1 (fun x => { x with pba := x.pba.put false k false })).emit
        (.msix h f1 k ((b.fn h f1).vecs.get {} k).addr ((b.fn h f1).vecs.get {} k).data) := by
  have can : (b.updFn h f1 (fun x => { x with pba := x.pba.put false k false })).canIssue h f1 = true :=
    (b.canIssue_updFn h f1 (f := fun x => { x with pba := x.pba.put false k false }) (fun _ => rfl) (fun _ => rfl)
      (fun _ => rfl)).trans issues
  unfold Blk.pbaFlush
  rw [pending]
  simp only [List.filter_cons, Blk.msiOpen, enabled, opened, clear, issues, Bool.not_false, Bool.and_self, if_true, List.filter_nil,
    List.foldl_cons, List.foldl_nil, Blk.msiBad, aligned, Blk.msiSend, Blk.fn_updFn, can]
  simp

theorem Blk.maskChange_eq {m : MaskSet} (there : ∀ k v, m = .vector k v → f1 = true ∨ k.val < 32) :
    b.maskChange h f1 m = ((b.updFn h f1 (fun x => x.maskSet m)).pbaFlush h f1).evalIntx h f1 := by
  unfold Blk.maskChange
  cases m with
  | vector k v => exact if_pos (by simpa using there k v rfl)
  | _ => rfl

/-- With no message pending and no INTx message due a change of a mask changes the mask alone. -/
theorem Blk.maskChange_still {m : MaskSet} (there : ∀ k v, m = .vector k v → f1 = true ∨ k.val < 32)
    (pending : (b.fn h f1).pba = []) (still : (b.port h).linkUp = false ∨ (b.fn h f1).flr = true ∨ ((b.fn h f1).inta = false ∧
      ((b.fn h f1).intDis = true ∨ ((b.fn h f1).maskSet m).msixEn = true ∨ b.intSource h f1 = false))) :
    b.maskChange h f1 m = b.updFn h f1 (fun x => x.maskSet m) := by
  have kept : ((b.fn h f1).maskSet m).pba = (b.fn h f1).pba ∧ ((b.fn h f1).maskSet m).flr = (b.fn h f1).flr ∧
      ((b.fn h f1).maskSet m).inta = (b.fn h f1).inta ∧ ((b.fn h f1).maskSet m).intDis = (b.fn h f1).intDis := by
    cases m <;> exact ⟨rfl, rfl, rfl, rfl⟩
  obtain ⟨pba, flr, inta, intDis⟩ := kept
  rw [Blk.maskChange_eq there, Blk.pbaFlush_none (by rw [Blk.fn_updFn, pba, pending])]
  refine Blk.evalIntx_still ?_
  rw [Blk.fn_updFn, Blk.linkUp_updFn, Blk.intSource_updFn, flr, inta, intDis]
  exact still

/-- A pending message whose mask is cleared is sent, and its bit cleared (R72). -/
theorem Blk.maskChange_sends {m : MaskSet} {k : Nat} (there : ∀ k v, m = .vector k v → f1 = true ∨ k.val < 32)
    (pending : ((b.fn h f1).maskSet m).pba = [(k, true)]) (enabled : ((b.fn h f1).maskSet m).msixEn = true)
    (low : ((b.fn h f1).maskSet m).inta = false) (issues : b.canIssue h f1 = true)
    (opened : ((b.fn h f1).maskSet m).fnMask = false) (clear : (((b.fn h f1).maskSet m).vecs.get {} k).mask = false)
    (aligned : (((b.fn h f1).maskSet m).vecs.get {} k).addr.toNat % 4 = 0) :
    ((b.maskChange h f1 m).fn h f1).pba = [] ∧ (b.maskChange h f1 m).out = .msix h f1 k
      (((b.fn h f1).maskSet m).vecs.get {} k).addr (((b.fn h f1).maskSet m).vecs.get {} k).data :: b.out := by
  have fn := b.fn_updFn h f1 (fun x => x.maskSet m)
  have can : (b.updFn h f1 (fun x => x.maskSet m)).canIssue h f1 = true := by
    rw [Blk.canIssue_updFn _ _ _ (fun x => by cases m <;> rfl) (fun x => by cases m <;> rfl) (fun x => by cases m <;> rfl)]
    exact issues
  rw [Blk.maskChange_eq there, Blk.pbaFlush_one (k := k) (by rw [fn, pending]) (by rw [fn, enabled]) (by rw [fn, opened])
    (by rw [fn, clear]) can (by rw [fn, aligned]), Blk.evalIntx_still]
  · rw [Blk.fn_emit, Blk.fn_updFn, fn, pending]
    exact ⟨by simp [Tab.put], rfl⟩
  · refine .inr (.inr ?_)
    rw [Blk.fn_emit, Blk.fn_updFn, fn]
    exact ⟨low, .inr (.inl enabled)⟩

end Masks

end Sys2Proof.Machine
end

section
/-! SUPPORT. Accesses to device memory through the aperture, and the statement on host accesses (R59, R61, R62, R64, R200). -/

namespace Sys2Proof.Machine
open Sys2Proof

/-! Accesses that no register serves (R59, R61). -/

section Unserved
variable {b : Blk} {h i : Nat} {f1 write : Bool} {n : Nat}

theorem Blk.unserved_closed (shut : (b.fn h f1).memEn = false ∨ (b.fn h f1).flr = true) :
    b.unserved h f1 write n = b.closedAccess h f1 write := if_pos (by rw [Blk.memOpen_closed shut]; rfl)

theorem Blk.unserved_open (opened : b.memOpen h f1 = true) :
    b.unserved h f1 write n = if write then b else b.emit (.hostRead h (List.replicate n 0)) :=
  if_neg (by rw [opened]; decide)

theorem Blk.unboundPage_closed (shut : (b.fn h true).memEn = false ∨ (b.fn h true).flr = true) :
    b.unboundPage h i write n = b.closedAccess h true write := if_pos (by rw [Blk.memOpen_closed shut]; rfl)

theorem Blk.unboundPage_bound (opened : b.memOpen h true = true) (bound : b.boundTo i h = true) :
    b.unboundPage h i write n = b := (if_neg (by rw [opened]; decide)).trans (if_pos bound)

theorem Blk.unboundPage_unbound (opened : b.memOpen h true = true) (unbound : b.boundTo i h = false) :
    b.unboundPage h i write n = if write then b.countUnbound h else b.emit (.hostRead h (List.replicate n 0)) :=
  (if_neg (by rw [opened]; decide)).trans (if_neg (by rw [unbound]; decide))

end Unserved

/-- An access is counted in PORT_UNBOUND, and nothing else changes (R64). -/
theorem Blk.countUnbound_counts (b : Blk) (h : Nat) : b.countUnbound h = { b with ports := (b.countUnbound h).ports } ∧
    (b.countUnbound h).port h = { b.port h with unbound := sat64 (b.port h).unbound 1 } ∧
    ∀ j ≠ h, (b.countUnbound h).port j = b.port j :=
  ⟨rfl, Blk.port_updPort _ _ _, fun _ hj => Blk.port_updPort_ne _ _ _ hj⟩

/-! The aperture (R62, R442). -/

section Aperture
variable {b : Blk} {h i off : Nat} {r : MemReq}

theorem Blk.aperture_closed (shut : (b.fn h true).memEn = false ∨ (b.fn h true).flr = true) :
    b.aperture h i off r = b.closedAccess h true (reqWrites r) := if_pos (by rw [Blk.memOpen_closed shut]; rfl)

/-- An access that reaches no device memory is counted, and a read refused (R62, R64). -/
theorem Blk.aperture_misses (opened : b.memOpen h true = true) (beyond : b.boundTo i h = false ∨ b.apertureLen i < off + reqLen r) :
    b.aperture h i off r = if reqWrites r then b.countUnbound h else (b.countUnbound h).emit (.ur h) := by
  have outside : ¬ (b.boundTo i h && off + reqLen r ≤ b.apertureLen i) = true := by
    rcases beyond with unbound | past
    · simp [unbound]
    · simp [past]
  unfold Blk.aperture
  rw [if_neg (by rw [opened]; decide), if_neg outside]
  cases r <;> rfl

/-- With no poison a read returns the bytes of device memory (R62). -/
theorem Blk.aperture_reads {n : Fin 4097} {loc : Nat → Nat} (opened : b.memOpen h true = true) (bound : b.boundTo i h = true)
    (inside : off + n.val ≤ b.apertureLen i) (clean : b.poison = []) (locs : ∀ k < n.val, b.devLoc i (off + k) = some (loc k)) :
    b.aperture h i off (.read n) = b.emit (.hostRead h ((List.range n.val).map fun k => b.byte (loc k))) := by
  have bytes : (List.range n.val).map (fun k => b.apertureByte i (off + k) k) = (List.range n.val).map fun k => b.byte (loc k) := by
    refine List.map_congr_left fun k hk => ?_
    unfold Blk.apertureByte Blk.poisoned
    rw [locs k (List.mem_range.1 hk), clean]
    rfl
  unfold Blk.aperture
  rw [if_neg (by rw [opened]; decide), if_pos (by rw [bound, Bool.true_and]; exact decide_eq_true inside)]
  dsimp only
  rw [bytes, clean]
  rfl

theorem Blk.devWrite_rest (b : Blk) (a : Nat) (l : List Byte) : b.devWrite a l =
    { b with mem := (b.devWrite a l).mem, poison := (b.devWrite a l).poison, dir := (b.devWrite a l).dir,
             cores := (b.devWrite a l).cores, pipes := (b.devWrite a l).pipes } := by
  unfold Blk.devWrite
  rw [Blk.tablesHit_rest]
  rfl

theorem Blk.byte_devWrite_one (b : Blk) (a j : Nat) (v : Byte) : (b.devWrite a [v]).byte j = if j = a then v else b.byte j := by
  unfold Blk.byte
  rw [Blk.mem_devWrite]
  exact Tab.get_put ..

/-- The store of one byte of a write, at its offset `x.2`, where its enable is set. -/
def Blk.storeAt (i off : Nat) (b : Blk) (x : Option Byte × Nat) : Blk := match x.1, b.devLoc i (off + x.2) with
  | some v, some a => b.devWrite a [v]
  | _, _ => b

theorem Blk.storeAt_some {k a : Nat} {v : Byte} (loc : b.devLoc i (off + k) = some a) :
    b.storeAt i off (some v, k) = b.devWrite a [v] := by
  unfold Blk.storeAt
  rw [loc]

theorem Blk.devLoc_devWrite (b : Blk) (a : Nat) (l : List Byte) (i j : Nat) : (b.devWrite a l).devLoc i j = b.devLoc i j := by
  rw [b.devWrite_rest a l]
  rfl

/-- What the bytes of a write leave, each stored at its location. -/
structure Blk.Stores (b t : Blk) (l : List (Option Byte × Nat)) (loc : Nat → Nat) : Prop where
  rest : t = { b with mem := t.mem, poison := t.poison, dir := t.dir, cores := t.cores, pipes := t.pipes }
  written : ∀ k v, (some v, k) ∈ l → t.byte (loc k) = v
  kept : ∀ a, (∀ k v, (some v, k) ∈ l → loc k ≠ a) → t.byte a = b.byte a

theorem Blk.foldl_storeAt {loc : Nat → Nat} {l : List (Option Byte × Nat)}
    (locs : ∀ x ∈ l, b.devLoc i (off + x.2) = some (loc x.2))
    (apart : l.Pairwise fun x y => loc x.2 ≠ loc y.2) : b.Stores (l.foldl (Blk.storeAt i off) b) l loc := by
  induction l generalizing b with
  | nil => exact ⟨rfl, fun _ _ hk => absurd hk List.not_mem_nil, fun _ _ => rfl⟩
  | cons x l ih =>
    obtain ⟨o, k⟩ := x
    obtain ⟨first, later⟩ := List.pairwise_cons.1 apart
    have here := locs _ List.mem_cons_self
    have tail : ∀ x ∈ l, b.devLoc i (off + x.2) = some (loc x.2) := fun x hx => locs x (List.mem_cons_of_mem _ hx)
    rw [List.foldl_cons]
    cases o with
    | none =>
      obtain ⟨rest, written, kept⟩ := ih tail later
      exact ⟨rest, fun j v hj => written j v (by simpa using hj),
        fun a ha => kept a fun j v hj => ha j v (List.mem_cons_of_mem _ hj)⟩
    | some w =>
      rw [Blk.storeAt_some here]
      obtain ⟨rest, written, kept⟩ := ih (b := b.devWrite (loc k) [w])
        (fun x hx => (b.devLoc_devWrite _ _ i _).trans (tail x hx)) later
      refine ⟨by rw [rest, b.devWrite_rest], fun j v hj => ?_, fun a ha => ?_⟩
      · rcases List.mem_cons.1 hj with same | later
        · obtain ⟨rfl, rfl⟩ : v = w ∧ j = k := by simpa using same
          rw [kept _ fun m u hm => (first _ hm).symm, Blk.byte_devWrite_one, if_pos rfl]
        · exact written j v later
      · rw [kept a fun j v hj => ha j v (List.mem_cons_of_mem _ hj), Blk.byte_devWrite_one,
          if_neg (Ne.symm (ha k w List.mem_cons_self))]

theorem Blk.apertureHeal_rest (b : Blk) (i off : Nat) (l : List (Option Byte)) :
    b.apertureHeal i off l = { b with poison := (b.apertureHeal i off l).poison } := by
  unfold Blk.apertureHeal
  split <;> rfl

/-- A write stores the bytes whose enables are set, each at its location, and no other (R62, R513). -/
theorem Blk.aperture_writes {l : List (Option Byte)} {loc : Nat → Nat} (opened : b.memOpen h true = true)
    (bound : b.boundTo i h = true) (inside : off + l.length ≤ b.apertureLen i)
    (locs : ∀ k < l.length, b.devLoc i (off + k) = some (loc k))
    (apart : ∀ j < l.length, ∀ k < l.length, loc j = loc k → j = k) :
    b.Stores (b.aperture h i off (.write l)) l.zipIdx loc := by
  have goes : b.aperture h i off (.write l) = (l.zipIdx.foldl (Blk.storeAt i off) b).apertureHeal i off l := by
    unfold Blk.aperture
    rw [if_neg (by rw [opened]; decide), if_pos (by rw [bound, Bool.true_and]; exact decide_eq_true inside)]
    rfl
  have pairs : l.zipIdx.Pairwise fun x y => loc x.2 ≠ loc y.2 := by
    refine List.pairwise_iff_getElem.2 fun j k hj hk below same => ?_
    rw [List.length_zipIdx] at hj hk
    simp only [List.getElem_zipIdx, Nat.zero_add] at same
    exact absurd (apart j hj k hk same) (by omega)
  obtain ⟨rest, written, kept⟩ := Blk.foldl_storeAt (b := b) (i := i) (off := off)
    (fun x hx => locs x.2 (by simpa using (List.mem_zipIdx hx).2.1)) pairs
  rw [goes]
  generalize l.zipIdx.foldl (Blk.storeAt i off) b = t at rest written kept ⊢
  rw [t.apertureHeal_rest i off l]
  exact ⟨by rw [rest], written, kept⟩

end Aperture

/-! The statement, in its two parts. -/

section Functions
variable {b : Blk} {h : Nat} {f1 : Bool}

theorem Blk.bmeChange_idle (pending : (b.fn h f1).pba = []) (incs : b.rmt.incs = [])
    (work : b.WaitsNot h f1) (v : Bool) : b.bmeChange h f1 v = b.updFn h f1 (fun x => { x with busMaster := v }) :=
  Blk.fnResumes_idle (by rw [Blk.fn_updFn]; exact pending) incs (work.updFn _)

theorem Blk.d3Change_idle (pending : (b.fn h f1).pba = []) (incs : b.rmt.incs = [])
    (work : b.WaitsNot h f1) (v : Bool) : b.d3Change h f1 v = b.updFn h f1 (fun x => { x with d3 := v }) :=
  Blk.fnResumes_idle (by rw [Blk.fn_updFn]; exact pending) incs (work.updFn _)

/-- A vector that F0 lacks has no mask (R72). -/
theorem Blk.maskChange_lacking {k : Fin 2048} {v : Bool} (f0 : f1 = false) (past : 32 ≤ k.val) :
    b.maskChange h f1 (.vector k v) = b := if_neg (by simpa [f0] using past)

/-- A function of a port changed, and nothing else of a block. -/
theorem Blk.updFn_becomes (b : Blk) (h : Nat) (f1 : Bool) (f : Fn → Fn) :
    (b.updFn h f1 f).port h = (if f1 then { b.port h with f1 := f (b.fn h f1) } else { b.port h with f0 := f (b.fn h f1) }) ∧
    b.updFn h f1 f = { b with ports := (b.updFn h f1 f).ports } ∧ ∀ j ≠ h, (b.updFn h f1 f).port j = b.port j :=
  ⟨by rw [Blk.port_updFn]; cases f1 <;> rfl, rfl, fun _ hj => Blk.port_updFn_ne _ _ _ _ hj⟩

end Functions

/-- Settles O18: a change of a function by what resumes with it, its masks by the messages that they hold or send, and accesses
that no register serves by what answers each. -/
theorem hostAccesses : Obligations.HostAccesses := by
  unfold Obligations.HostAccesses
  constructor
  · intro s h f1 v k p x becomes waitsNot still sends due
    have changed : ∀ (m : MaskSet) (y : Fn), x.maskSet m = y → x.pba = [] → still y.msixEn →
        (∀ k v, m = .vector k v → f1 = true ∨ k.val < 32) →
        ∃ t, exec (.msixMaskChange h f1 m) s = .next t ∧ becomes t y := by
      intro m y result pending quiet there
      subst result
      refine ⟨_, exec_msixMaskChange s h f1 m, ?_⟩
      rw [Blk.maskChange_still there pending quiet]
      exact s.blk.updFn_becomes h.val f1 _
    refine ⟨?_, fun pending => ⟨?_, ?_, ?_, ?_⟩, ?_, ?_, ?_⟩
    · rintro ⟨pending, incs, work⟩
      refine ⟨⟨_, exec_busMasterEnableChange s h f1 v, ?_⟩, ⟨_, exec_d3hotChange s h f1 v, ?_⟩⟩
      · rw [Blk.bmeChange_idle pending incs work]
        exact s.blk.updFn_becomes h.val f1 _
      · rw [Blk.d3Change_idle pending incs work]
        exact s.blk.updFn_becomes h.val f1 _
    · exact fun quiet => changed (.fnMask v) _ rfl pending quiet fun _ _ e => nomatch e
    · exact fun quiet => changed (.enable v) _ rfl pending quiet fun _ _ e => nomatch e
    · intro quiet there
      obtain ⟨t, runs, port⟩ := changed (.vector k v) _ rfl pending quiet fun _ _ e => by cases e; exact there
      exact ⟨t, _, runs, port, Tab.get_upd_same _ _ _ _, fun j hj => Tab.get_upd_other _ _ _ hj⟩
    · intro up runs high
      refine ⟨_, exec_msixMaskChange s h f1 (.enable true), ?_⟩
      have fn := s.blk.fn_updFn h.val f1 (fun x => x.maskSet (.enable true))
      dsimp only
      rw [Blk.maskChange_eq (fun _ _ e => by cases e), Blk.pbaFlush_none (by rw [fn]; exact pending),
        Blk.evalIntx_falls ((Blk.linkUp_updFn ..).trans up) (by rw [fn]; exact runs) (by rw [fn]; exact high) (by rw [fn]; rfl),
        Blk.fn_emit, Blk.fn_updFn, fn]
      exact ⟨rfl, (rfl : Blk.out (Blk.emit _ _) = _)⟩
    · intro f0 past
      exact (exec_msixMaskChange s h f1 (.vector k v)).trans (by rw [Blk.maskChange_lacking f0 past])
    · rintro ⟨pending, enabled, low, issues, aligned⟩ - clear
      refine ⟨_, exec_msixMaskChange s h f1 (.fnMask false), ?_⟩
      exact Blk.maskChange_sends (fun _ _ e => nomatch e) pending enabled low issues rfl clear aligned
    · rintro ⟨pending, enabled, low, issues, aligned⟩ opened - there
      refine ⟨_, exec_msixMaskChange s h f1 (.vector k false), ?_⟩
      have vec := Tab.get_upd_same ({} : MsiVec) x.vecs k.val (fun y => { y with mask := false })
      have sent := Blk.maskChange_sends (b := s.blk) (h := h.val) (f1 := f1) (m := .vector k false) (k := k.val)
        (fun _ _ e => by cases e; exact there) pending enabled low issues opened (congrArg MsiVec.mask vec)
        ((congrArg (fun y => y.addr.toNat % 4) vec).trans aligned)
      have message := congrArg (fun y => Emit.msix h.val f1 k.val y.addr y.data :: s.blk.out) vec
      exact ⟨sent.1, sent.2.trans message⟩
  · intro s h f1 wr i n m off l loc b reads refuses counted shut
    have count := b.countUnbound_counts h.val
    have refused : ∀ (c : Instr) (f1 write : Bool) (t : Blk), exec c s = .next { s with blk := t } →
        t = b.closedAccess h.val f1 write →
        (write = false ∨ (b.fn h.val f1).memEn = false) → refuses c := by
      intro c f1 write t runs closed discards
      exact ⟨_, runs, closed.trans (Blk.closedAccess_refuses discards)⟩
    have discarded : ∀ (c : Instr) (f1 : Bool) (t : Blk), exec c s = .next { s with blk := t } →
        t = b.closedAccess h.val f1 true →
        ((b.fn h.val f1).memEn = false ∨ (b.fn h.val f1).flr = true) → (b.fn h.val f1).memEn = true → exec c s = .next s := by
      intro c f1 t runs closed reason enabled
      have resets : (b.fn h.val f1).flr = true := reason.resolve_left (by rw [enabled]; decide)
      exact runs.trans (by rw [closed, Blk.closedAccess_discards enabled resets])
    refine ⟨fun opened => ⟨?_, ?_⟩, fun closed => ⟨?_, ?_⟩, ?_, fun opened => ⟨?_, ?_, ?_, ?_, ?_, ?_⟩⟩
    · exact (exec_barAccessUnserved s h f1 true n).trans (by rw [Blk.unserved_open opened]; rfl)
    · exact ⟨_, exec_barAccessUnserved s h f1 false n, Blk.unserved_open opened⟩
    · exact refused _ _ _ _ (exec_barAccessUnserved s h f1 wr n) (Blk.unserved_closed closed)
    · rintro rfl
      exact discarded _ _ _ (exec_barAccessUnserved s h f1 true n) (Blk.unserved_closed closed) closed
    · rintro rfl closed
      refine ⟨refused _ _ _ _ (exec_doorbellPageUnbound s h i wr m) (Blk.unboundPage_closed closed), ?_,
        refused _ _ _ _ (exec_apertureAccess s h i off (.read n)) (Blk.aperture_closed closed) (.inl rfl),
        fun disabled => refused _ _ _ _ (exec_apertureAccess s h i off (.write l)) (Blk.aperture_closed closed) (.inr disabled),
        discarded _ _ _ (exec_apertureAccess s h i off (.write l)) (Blk.aperture_closed closed) closed⟩
      rintro rfl
      exact discarded _ _ _ (exec_doorbellPageUnbound s h i true m) (Blk.unboundPage_closed closed) closed
    · exact fun bound => (exec_doorbellPageUnbound s h i wr m).trans (by rw [Blk.unboundPage_bound opened bound])
    · intro unbound
      refine ⟨⟨_, exec_doorbellPageUnbound s h i true m, ?_⟩, ⟨_, exec_doorbellPageUnbound s h i false m, ?_⟩,
        ⟨_, exec_apertureAccess s h i off (.write l), ?_⟩, ⟨_, _, exec_apertureAccess s h i off (.read n), ?_, count⟩⟩
      · rw [Blk.unboundPage_unbound opened unbound]
        exact count
      · exact Blk.unboundPage_unbound opened unbound
      · rw [Blk.aperture_misses opened (.inl unbound)]
        exact count
      · exact Blk.aperture_misses opened (.inl unbound)
    · intro _ past
      refine ⟨_, exec_apertureAccess s h i off (.write l), ?_⟩
      rw [Blk.aperture_misses opened (.inr past)]
      exact count
    · exact fun _ past => ⟨_, _, exec_apertureAccess s h i off (.read n), Blk.aperture_misses opened (.inr past), count⟩
    · exact fun bound inside clean locs =>
        ⟨_, exec_apertureAccess s h i off (.read n), Blk.aperture_reads opened bound inside clean locs⟩
    · intro bound inside locs apart
      obtain ⟨rest, written, kept⟩ := Blk.aperture_writes opened bound inside locs apart
      refine ⟨_, exec_apertureAccess s h i off (.write l), fun k v enabled => ?_, fun a others => ?_, rest⟩
      · exact written k v (List.mem_zipIdx_iff_getElem?.2 enabled)
      · exact kept a fun k v stored => others k v (List.mem_zipIdx_iff_getElem?.1 stored)

end Sys2Proof.Machine
end

section
/-! SUPPORT. What a channel of a DMA engine does next: descriptor reads, what a descriptor is taken for, writes and
completions (R418 to R432). -/

namespace Sys2Proof.Machine
open Sys2Proof

/-! One channel turns, and no other of its engine. -/

/-- A channel of an engine became `y`; no other channel changed, no other engine, and no port but for what events change. -/
structure Blk.Serves (b t : Blk) (h c : Nat) (y : Dch) : Prop where
  chn : t.chn h c = y
  others : ∀ j ≠ c, t.chn h j = b.chn h j
  engs : ∀ k ≠ h, t.eng k = b.eng k
  st : (t.eng h).st = (b.eng h).st
  hums : b.hums t

/-- The same, where nothing else changed but the power state of links. -/
structure Blk.Turns (b t : Blk) (h c : Nat) (y : Dch) : Prop extends b.Serves t h c y where
  rest : t = { b with dma := t.dma, pm := t.pm }

section Channel
variable {b t u : Blk} {h c : Nat} {y z : Dch}

theorem Blk.Serves.trans (first : b.Serves t h c y) (later : t.Serves u h c z) : b.Serves u h c z where
  chn := later.chn
  others j hj := (later.others j hj).trans (first.others j hj)
  engs k hk := (later.engs k hk).trans (first.engs k hk)
  st := later.st.trans first.st
  hums := first.hums.trans later.hums

theorem Blk.Turns.trans (first : b.Turns t h c y) (later : t.Turns u h c z) : b.Turns u h c z where
  toServes := first.toServes.trans later.toServes
  rest := by conv => lhs; rw [later.rest, first.rest]

/-- A block with the same engines. -/
theorem Blk.serves_of_dma (same : t.dma = b.dma) (hums : b.hums t) : b.Serves t h c (b.chn h c) := by
  have eng := Blk.eng_of_dma same
  have chn : ∀ j, t.chn h j = b.chn h j := fun j => congrArg (fun e : Dma => Tab.get ({} : Dch) e.chans j) (eng h)
  exact ⟨chn c, fun j _ => chn j, fun k _ => eng k, congrArg Dma.st (eng h), hums⟩

theorem Blk.turns_refl (b : Blk) (h c : Nat) : b.Turns b h c (b.chn h c) :=
  ⟨Blk.serves_of_dma rfl (.refl b), rfl⟩

theorem Blk.chn_updChn_ne (b : Blk) (h c : Nat) (f : Dch → Dch) {j : Nat} (hj : j ≠ c) :
    (b.updChn h c f).chn h j = b.chn h j := by
  unfold Blk.chn Blk.updChn
  rw [Blk.eng_updEng]
  exact Tab.get_upd_other _ _ _ hj

theorem Blk.turns_updChn (b : Blk) (h c : Nat) (f : Dch → Dch) : b.Turns (b.updChn h c f) h c (f (b.chn h c)) where
  chn := Blk.chn_updChn ..
  others _ hj := Blk.chn_updChn_ne _ _ _ _ hj
  engs _ hk := Blk.eng_updEng_ne _ _ _ hk
  st := by unfold Blk.updChn; rw [Blk.eng_updEng]
  hums := .of_eq rfl rfl
  rest := rfl

theorem Blk.turns_awake (b : Blk) (h c : Nat) (sys : Bool) :
    b.Turns (if sys then b else b.linkAwake h) h c (b.chn h c) := by
  cases sys
  · exact ⟨Blk.serves_of_dma rfl (.of_eq rfl rfl), rfl⟩
  · exact b.turns_refl h c

theorem Blk.hums.flr (hums : b.hums t) (h : Nat) : (t.fn h false).flr = (b.fn h false).flr :=
  (congrArg (fun p : HostPort => p.f0.flr) (hums.port h) :)

theorem Blk.Serves.runs (turned : b.Serves t h c y) (runs : b.dmaRuns h = true) : t.dmaRuns h = true := by
  unfold Blk.dmaRuns at runs ⊢
  rw [turned.st, turned.hums.flr h, runs]

theorem Blk.Serves.can (turned : b.Serves t h c y) (k : Nat) (sys : Bool) : t.dmaCan k sys = b.dmaCan k sys := by
  unfold Blk.dmaCan
  rw [turned.hums.canIssue k]

end Channel

/-! Descriptor reads (R422, R428). -/

/-- What an ACTIVE channel with no descriptor does: an end-mark read, BME_OFF, or an address that its ring does not have. -/
def Blk.going (b : Blk) (h : Nat) (y : Dch) : Dch :=
  if y.next.sys = true ∧ (sysLoc h y.next.byte 32).isNone = true then { y with st := .error, reason := 0x0522, curDesc := y.next }
  else if b.dmaCan h y.next.sys = false then { y with st := .bmeOff, before := .active }
  else { y with reading := some y.next, dropRead := false, endMark := true, aheadDone := true, kick := false }

/-- A read at DMA_CH_NEXT can be issued. -/
def Blk.nextReady (b : Blk) (h : Nat) (x : Dch) : Prop :=
  ¬(x.next.sys = true ∧ (sysLoc h x.next.byte 32).isNone = true) ∧ b.dmaCan h x.next.sys = true

section Reads
variable {b t : Blk} {h c : Nat} {x : Dch}

theorem Blk.Serves.going {y : Dch} (turned : b.Serves t h c y) (z : Dch) : t.going h z = b.going h z := by
  unfold Blk.going
  rw [turned.can]

/-- A channel that reads at DMA_CH_NEXT. -/
def Dch.reads (x : Dch) (mark : Bool) : Dch :=
  { x with reading := some x.next, dropRead := false, endMark := mark, aheadDone := true, kick := x.kick && !mark }

theorem Dch.reads_mark (x : Dch) : x.reads true =
    { x with reading := some x.next, dropRead := false, endMark := true, aheadDone := true, kick := false } := by
  simp [Dch.reads]

theorem Dch.reads_ahead (x : Dch) : x.reads false =
    { x with reading := some x.next, dropRead := false, endMark := false, aheadDone := true } := by
  simp [Dch.reads]

/-- A read at DMA_CH_NEXT is issued. -/
theorem Blk.dmaRead_issues (at_ : b.chn h c = x) (ready : b.nextReady h x) (mark : Bool) :
    b.Turns (b.dmaRead h c mark) h c (x.reads mark) := by
  subst at_
  obtain ⟨there, can⟩ := ready
  have awake := b.turns_awake h c (b.chn h c).next.sys
  have read := awake.trans (Blk.turns_updChn _ h c (Dch.reads · mark))
  rw [awake.chn] at read
  unfold Blk.dmaRead
  dsimp only
  rw [if_neg there, if_neg (not_not.2 can)]
  exact read

/-- An end-mark read. -/
theorem Blk.dmaRead_mark (at_ : b.chn h c = x) (active : x.st = .active) : b.Turns (b.dmaRead h c true) h c (b.going h x) := by
  by_cases ready : b.nextReady h x
  · have issued := Blk.dmaRead_issues at_ ready true
    unfold Blk.going
    rw [if_neg ready.1, if_neg (by rw [ready.2]; decide), ← Dch.reads_mark]
    exact issued
  · subst at_
    unfold Blk.dmaRead Blk.going
    dsimp only
    by_cases beyond : (b.chn h c).next.sys = true ∧ (sysLoc h (b.chn h c).next.byte 32).isNone = true
    · rw [if_pos beyond, if_pos beyond]
      exact b.turns_updChn h c _
    · have shut : ¬ b.dmaCan h (b.chn h c).next.sys = true := fun can => ready ⟨beyond, can⟩
      have off := b.turns_updChn h c Dch.bmeOff
      unfold Dch.bmeOff at off
      rw [active] at off
      rw [if_neg beyond, if_neg beyond, if_pos shut, if_pos (Bool.eq_false_iff.2 shut)]
      exact off

/-- A read ahead is issued. -/
theorem Blk.dmaRead_ahead (at_ : b.chn h c = x) (ready : b.nextReady h x) : b.Turns (b.dmaRead h c false) h c
    { x with reading := some x.next, dropRead := false, endMark := false, aheadDone := true } := by
  rw [← Dch.reads_ahead]
  exact Blk.dmaRead_issues at_ ready false

/-- A read ahead that cannot be issued changes nothing. -/
theorem Blk.dmaRead_waits (at_ : b.chn h c = x) (waits : ¬ b.nextReady h x) : b.Turns (b.dmaRead h c false) h c x := by
  subst at_
  unfold Blk.dmaRead
  dsimp only
  split
  · exact b.turns_refl h c
  next there =>
    rw [if_pos fun can => waits ⟨there, can⟩]
    exact b.turns_updChn h c _

/-- A channel that is ACTIVE with no descriptor and no read outstanding. -/
structure Blk.Free (b : Blk) (h : Nat) (x : Dch) : Prop where
  runs : b.dmaRuns h = true
  active : x.st = .active
  reading : x.reading = none
  desc : x.desc = none

theorem Blk.dmaGo_free (at_ : b.chn h c = x) (free : b.Free h x) : b.Turns (b.dmaGo h c) h c (b.going h x) := by
  obtain ⟨runs, active, reading, desc⟩ := free
  have goes : b.dmaGo h c = b.dmaRead h c true := by
    unfold Blk.dmaGo
    rw [at_]
    simp [runs, active, reading, desc]
  rw [goes]
  exact Blk.dmaRead_mark at_ active

/-- A channel with a descriptor in hand whose bursts are not all issued, that has read ahead or may not, stays. -/
theorem Blk.dmaGo_busy (at_ : b.chn h c = x) (desc : x.desc.isSome = true)
    (busy : x.reading.isSome = true ∨ x.rdLeft ≠ 0 ∨ x.aheadDone = true ∨ x.arm = true) : b.dmaGo h c = b := by
  unfold Blk.dmaGo
  rw [at_]
  have held : x.desc.isNone = false := by simpa using desc
  rcases busy with reading | left | done | arm
  · simp [reading]
  · simp [held, left]
  · simp [held, done]
  · simp [held, arm]

/-- With the last burst issued a channel may read ahead. -/
theorem Blk.dmaGo_ahead (at_ : b.chn h c = x) (runs : b.dmaRuns h = true) (active : x.st = .active) (desc : x.desc.isSome = true)
    (issued : x.rdLeft = 0) (reading : x.reading = none) (fresh : x.aheadDone = false) (arm : x.arm = false) :
    b.dmaGo h c = b.dmaRead h c false := by
  have held : x.desc.isNone = false := by simpa using desc
  unfold Blk.dmaGo
  rw [at_]
  simp [runs, active, reading, held, issued, fresh, arm]

end Reads

/-! Writes of an engine (R418, R421). -/

/-- Bytes have been written to a space as the engine of port `h`. -/
def Blk.Written (t : Blk) (h : Nat) (sys : Bool) (at_ : Nat) (l : List Byte) : Prop :=
  (sys = false → .bus h false at_ l ∈ t.out) ∧
  (sys = true → ∀ loc, sysLoc h at_ l.length = some loc → ∀ j < l.length, l[j]? = some (t.byte (loc + j)))

section Writes
variable {b t u : Blk} {h c : Nat} {sys : Bool} {at_ : Nat} {l : List Byte} {y : Dch}

theorem Blk.Written.keep (written : t.Written h sys at_ l) (out : ∀ e ∈ t.out, e ∈ u.out) (mem : u.mem = t.mem) :
    u.Written h sys at_ l := by
  have byte : ∀ a, u.byte a = t.byte a := fun a => congrArg (fun m : Tab Byte => m.get 0 a) mem
  exact ⟨fun host => out _ (written.1 host), fun here loc at_ j hj => by rw [byte]; exact written.2 here loc at_ j hj⟩

theorem Blk.Turns.written (turned : t.Turns u h c y) (written : t.Written h sys at_ l) : u.Written h sys at_ l :=
  written.keep turned.hums.out (congrArg Blk.mem turned.rest :)

theorem Blk.byte_devWrite (b : Blk) (a : Nat) {j : Nat} (hj : j < l.length) : l[j]? = some ((b.devWrite a l).byte (a + j)) := by
  unfold Blk.byte
  rw [Blk.mem_devWrite, get_memPut, if_pos ⟨Nat.le_add_right a j, Nat.add_lt_add_left hj a⟩, Nat.add_sub_cancel_left,
    List.getElem?_eq_getElem hj, List.getD_eq_getElem?_getD, List.getElem?_eq_getElem hj]
  rfl

theorem Blk.dmaWrite_writes (b : Blk) (h c : Nat) (sys : Bool) (at_ : Nat) (l : List Byte) :
    b.Serves (b.dmaWrite h sys at_ l) h c (b.chn h c) ∧ (b.dmaWrite h sys at_ l).Written h sys at_ l := by
  unfold Blk.dmaWrite
  cases sys with
  | false =>
    exact ⟨Blk.serves_of_dma rfl (Blk.hums.emit b (.bus h false at_ l)), fun _ => List.mem_cons_self, fun host => nomatch host⟩
  | true =>
    rw [if_pos rfl]
    cases loc : sysLoc h at_ l.length with
    | none =>
      exact ⟨Blk.serves_of_dma rfl (.refl b), fun host => (nomatch host), fun _ a e => nomatch (loc.symm.trans e)⟩
    | some a =>
      have rest := b.devWrite_rest a l
      refine ⟨Blk.serves_of_dma (congrArg Blk.dma rest :) (.of_eq (congrArg Blk.ports rest :) (congrArg Blk.out rest :)),
        fun host => (nomatch host), fun _ a' e j hj => ?_⟩
      obtain rfl : a = a' := Option.some.inj (loc.symm.trans e)
      exact b.byte_devWrite a hj

/-- The bytes that a write-back writes (R421). -/
def backBytes (d : Desc) (own status : Nat) : List Byte :=
  bytesLE 1 (dFlags d / 2 * 2 + own) ++ bytesLE 1 (dN d 21 1) ++ bytesLE 2 status

theorem Blk.writeBack_writes (b : Blk) (h c : Nat) (a : DAddr) (d : Desc) (own : Bool) (status : Nat) :
    b.Serves (b.writeBack h a d own status) h c (b.chn h c) ∧
    (b.writeBack h a d own status).Written h a.sys (a.byte + 20) (backBytes d (if own then 1 else 0) status) :=
  b.dmaWrite_writes h c _ _ _

end Writes

/-! Completions (R421, R426). -/

section Completion
variable {b : Blk} {h c : Nat} {x : Dch} {d : Desc}

/-- The interrupts of a completed descriptor change neither memory nor an engine. -/
theorem Blk.dmaInt_keeps (b : Blk) (h c : Nat) (cfg : ChCfg) (a : DAddr) :
    b.hums (b.dmaInt h c cfg a) ∧ (b.dmaInt h c cfg a).dma = b.dma ∧ (b.dmaInt h c cfg a).mem = b.mem := by
  unfold Blk.dmaInt
  extract_lets b1
  have event : b.hums b1 ∧ b.logs b1 := by
    unfold b1
    split
    · exact ⟨.devEvent b _ _ _ _ _, b.logs_devEvent _ _ _ _ _⟩
    · exact ⟨.refl b, b.logs_refl⟩
  clear_value b1
  obtain ⟨hums, logs⟩ := event
  split
  · have wakes := logs.trans (b1.logs_unitEvent cfg.thread.toNat cfg.unitBit.toNat)
    exact ⟨hums.trans (.unitEvent b1 _ _), (congrArg Blk.dma wakes.rest :), (congrArg Blk.mem wakes.rest :)⟩
  · exact ⟨hums, (congrArg Blk.dma logs.rest :), (congrArg Blk.mem logs.rest :)⟩

/-- A channel whose descriptor has completed. -/
def Dch.finished (x : Dch) : Dch := { x with desc := none, rdLeft := 0, bursts := [], done := sat64 x.done 1 }

/-- A channel whose descriptor has completed, and that has handed over where it is armed. -/
def Dch.completed (x : Dch) : Dch := if x.arm = true then x.finished.handOver else x.finished

theorem Dch.completed_keeps (x : Dch) :
    x.completed.st = x.st ∧ x.completed.reading = x.reading ∧ x.completed.desc = none := by
  unfold Dch.completed
  split <;> exact ⟨rfl, rfl, rfl⟩

theorem Dch.completed_ahead {x : Dch} (fresh : x.ahead = none ∨ x.arm = true) : x.completed.ahead = none := by
  unfold Dch.completed
  split
  · rfl
  next arm => exact fresh.resolve_right arm

theorem Blk.dmaFinish_finishes (at_ : b.chn h c = x) (inHand : x.desc = some d) (status : Nat) :
    b.Serves (b.dmaFinish h c status true) h c x.completed ∧
    (b.dmaFinish h c status true).Written h x.curDesc.sys (x.curDesc.byte + 20) (backBytes d 0 status) := by
  obtain ⟨serves, written⟩ := b.writeBack_writes h c x.curDesc d false status
  have shape : b.dmaFinish h c status true = Blk.updChn
      (if dInt d then ((b.writeBack h x.curDesc d false status).updChn h c Dch.finished).dmaInt h c x.cfg x.curDesc
        else (b.writeBack h x.curDesc d false status).updChn h c Dch.finished)
      h c (fun x => if true = true ∧ x.arm = true then x.handOver else x) := by
    unfold Blk.dmaFinish
    rw [at_]
    dsimp only
    rw [inHand]
    rfl
  rw [shape]
  generalize b.writeBack h x.curDesc d false status = b1 at serves written ⊢
  have finished := b1.turns_updChn h c Dch.finished
  rw [serves.chn, at_] at finished
  generalize b1.updChn h c Dch.finished = b2 at finished ⊢
  have told : b2.Serves (if dInt d then b2.dmaInt h c x.cfg x.curDesc else b2) h c (b2.chn h c) ∧
      (if dInt d then b2.dmaInt h c x.cfg x.curDesc else b2).mem = b2.mem := by
    obtain ⟨hums, dma, mem⟩ := b2.dmaInt_keeps h c x.cfg x.curDesc
    split
    · exact ⟨Blk.serves_of_dma dma hums, mem⟩
    · exact ⟨Blk.serves_of_dma rfl (.refl b2), rfl⟩
  generalize (if dInt d then b2.dmaInt h c x.cfg x.curDesc else b2) = b3 at told ⊢
  obtain ⟨told, mem⟩ := told
  have handed := b3.turns_updChn h c (fun x => if true = true ∧ x.arm = true then x.handOver else x)
  rw [told.chn, finished.chn] at handed
  refine ⟨?_, handed.written ((finished.written written).keep told.hums.out mem)⟩
  simpa [Dch.completed, Dch.finished] using ((serves.trans finished.toServes).trans told).trans handed.toServes

end Completion

/-! What a descriptor is taken for (R420, R422, R429). -/

/-- A channel with a descriptor in hand. -/
def Dch.inHand (x : Dch) (d : Desc) : Dch := { x with
  desc := some d, curDesc := x.next, curSrc := BitVec.ofNat 64 (dSrc d), curDst := BitVec.ofNat 64 (dDst d),
  remain := BitVec.ofNat 25 (dLen d), srcSys := dSrcSys d, dstSys := dDstSys d, rdSrc := dSrc d, rdLeft := dLen d,
  next := { x.next with addr := x.next.addr + 1 }, aheadDone := false }

section Take
variable {b : Blk} {h c : Nat} {x : Dch} {d : Desc}

theorem Blk.dmaTake_waits (at_ : b.chn h c = x) (active : x.st = .active) (writes : (descFault h d).isSome = true ∨ dLink d = true)
    (shut : b.dmaCan h x.next.sys = false) :
    b.Turns (b.dmaTake h c d) h c { x with st := .bmeOff, before := .active, ahead := some d } := by
  have turned := b.turns_updChn h c (fun x => { x.bmeOff with ahead := some d })
  rw [at_] at turned
  unfold Blk.dmaTake
  rw [at_]
  dsimp only
  rw [if_pos ⟨writes, by rw [shut]; decide⟩]
  unfold Dch.bmeOff at turned ⊢
  rw [active] at turned
  exact turned

theorem Blk.dmaTake_faulty {r : Nat} (at_ : b.chn h c = x) (fault : descFault h d = some r) (can : b.dmaCan h x.next.sys = true) :
    b.Serves (b.dmaTake h c d) h c { x with st := .error, reason := BitVec.ofNat 16 r, curDesc := x.next, ahead := none } ∧
    (b.dmaTake h c d).Written h x.next.sys (x.next.byte + 20) (backBytes d 1 r) := by
  obtain ⟨serves, written⟩ := b.writeBack_writes h c x.next d true r
  have turned := (b.writeBack h x.next d true r).turns_updChn h c
    (fun y => { y with st := .error, reason := BitVec.ofNat 16 r, curDesc := y.next, ahead := none })
  rw [serves.chn, at_] at turned
  unfold Blk.dmaTake
  rw [at_]
  dsimp only
  rw [if_neg fun shut => shut.2 can, fault]
  exact ⟨serves.trans turned.toServes, turned.written written⟩

theorem Blk.dmaTake_link (at_ : b.chn h c = x) (free : b.Free h x) (good : descFault h d = none) (link : dLink d = true)
    (can : b.dmaCan h x.next.sys = true) :
    b.Serves (b.dmaTake h c d) h c (b.going h { x with next := dAddr (dSrcSys d) (dSrc d), done := sat64 x.done 1 }) ∧
    (b.dmaTake h c d).Written h x.next.sys (x.next.byte + 20) (backBytes d 0 0) := by
  obtain ⟨serves, written⟩ := b.writeBack_writes h c x.next d false 0
  have turned := (b.writeBack h x.next d false 0).turns_updChn h c
    (fun y => { y with next := dAddr (dSrcSys d) (dSrc d), done := sat64 y.done 1 })
  rw [serves.chn, at_] at turned
  have goes := Blk.dmaGo_free turned.chn
    ⟨turned.runs (serves.runs free.runs), free.active, free.reading, free.desc⟩
  rw [(serves.trans turned.toServes).going] at goes
  unfold Blk.dmaTake
  rw [at_]
  dsimp only
  rw [if_neg fun shut => shut.2 can, good]
  dsimp only
  rw [if_pos link]
  exact ⟨(serves.trans turned.toServes).trans goes.toServes, goes.written (turned.written written)⟩

theorem Blk.dmaTake_good (at_ : b.chn h c = x) (good : descFault h d = none) (plain : dLink d = false) (long : dLen d ≠ 0) :
    b.Turns (b.dmaTake h c d) h c (x.inHand d) := by
  have turned := b.turns_updChn h c (Dch.inHand · d)
  rw [at_] at turned
  have stays : (b.updChn h c (Dch.inHand · d)).dmaGo h c = b.updChn h c (Dch.inHand · d) :=
    Blk.dmaGo_busy turned.chn rfl (.inr (.inl long))
  unfold Blk.dmaTake
  rw [at_]
  dsimp only
  rw [if_neg (by simp [good, plain]), good]
  dsimp only
  rw [if_neg (by rw [plain]; decide)]
  rw [← stays] at turned
  exact turned

end Take

end Sys2Proof.Machine
end

section
/-! SUPPORT. What the commands of a DMA engine do: reads that return or fail, bursts, completions, the stop and its end
(R56, R420 to R426, R429 to R431). -/

namespace Sys2Proof.Machine
open Sys2Proof

/-! The stop of an engine (R430, R431). -/

/-- An entry that a change of every entry changes to another value than the default is read as changed. -/
theorem Tab.get_mapVals {α : Type} [DecidableEq α] {d : α} {f : Nat → α → α} {t : Tab α} {k : Nat}
    (listed : t.get d k ≠ d) (kept : f k (t.get d k) ≠ d) : (Tab.mapVals d f t).get d k = f k (t.get d k) := by
  induction t with
  | nil => exact absurd rfl listed
  | cons e r ih =>
    obtain ⟨i, v⟩ := e
    by_cases hi : i = k
    · subst hi
      simp only [Tab.get, if_true] at listed kept ⊢
      simp [Tab.mapVals, Tab.get, kept]
    · simp only [Tab.get, if_neg hi] at listed kept ⊢
      unfold Tab.mapVals
      split
      · exact ih listed kept
      · simpa only [Tab.get, if_neg hi] using ih listed kept

/-- An engine has stopped for a cause met at an address, with `lost` of its reads ended; a channel at work is HALTED. -/
structure Blk.Stops (b t : Blk) (h c : Nat) (cause : StopCause) (addr : W64) (wr sys : Bool) (lost : Nat) : Prop where
  eng : t.eng h = { b.eng h with
    st := .halting, gen := (b.eng h).gen + 1, cause := BitVec.ofNat 4 (stopCode cause), errWrite := wr, errSys := sys,
    errAddr := if cause = .linkLoss then 0 else addr, ending := (b.eng h).ending + ((b.eng h).reads - lost), stopAt := b.mono,
    chans := (t.eng h).chans }
  chn : (b.chn h c).st = .active ∨ (b.chn h c).st = .pausing ∨ (b.chn h c).st = .paused ∨ (b.chn h c).st = .bmeOff →
    t.chn h c = { b.chn h c with bursts := [], reading := none, ahead := none, st := .halted, kept := (b.chn h c).st }

section Stop
variable {b a t : Blk} {h c : Nat} {cause : StopCause} {addr : W64} {wr sys : Bool} {lost : Nat}

theorem Blk.dmaRuns_running (runs : b.dmaRuns h = true) : (b.eng h).st = .running := by
  unfold Blk.dmaRuns at runs
  simpa using (Bool.and_eq_true_iff.1 runs).1

theorem Blk.dmaStop_stops (runs : (b.eng h).st = .running) (c : Nat) (cause : StopCause) (addr : Nat) (wr sys : Bool) (lost : Nat) :
    b.Stops (b.dmaStop h cause addr wr sys lost) h c cause (BitVec.ofNat 64 addr) wr sys lost where
  eng := Blk.dmaStop_eng runs cause addr wr sys lost
  chn := by
    intro works
    unfold Blk.chn at works
    unfold Blk.dmaStop Blk.chn
    rw [if_neg (not_not.2 runs), Blk.eng_updEng]
    dsimp only
    rw [Tab.get_mapVals]
    · exact if_pos works
    · intro idle
      rw [idle] at works
      simp at works
    · rw [if_pos works]
      exact fun idle => nomatch congrArg Dch.st idle

/-- What the ports note beside a stop does not bear on it. -/
theorem Blk.Stops.of_ports (stops : a.Stops t h c cause addr wr sys lost) (same : a = { b with ports := a.ports }) :
    b.Stops t h c cause addr wr sys lost := by
  have eng : a.eng h = b.eng h := (congrArg (fun t : Blk => t.eng h) same :)
  have chn : a.chn h c = b.chn h c := (congrArg (fun t : Blk => t.chn h c) same :)
  have mono : a.mono = b.mono := (congrArg Blk.mono same :)
  obtain ⟨e, x⟩ := stops
  rw [eng, mono] at e
  rw [chn] at x
  exact ⟨e, x⟩

theorem Blk.cplError_rest (b : Blk) (h : Nat) (c : StopCause) : b.cplError h c = { b with ports := (b.cplError h c).ports } := by
  cases c <;> rfl

theorem Blk.dmaFailed_stops (runs : (b.eng h).st = .running) (c : Nat) (cause : StopCause) (addr : Nat) (sys : Bool) :
    b.Stops (b.dmaFailed h cause addr sys) h c cause (BitVec.ofNat 64 addr) false sys 1 := by
  unfold Blk.dmaFailed
  cases sys with
  | true => exact Blk.dmaStop_stops runs c cause addr false true 1
  | false =>
    have rest := b.cplError_rest h cause
    have eng : (b.cplError h cause).eng h = b.eng h := (congrArg (fun t : Blk => t.eng h) rest :)
    exact (Blk.dmaStop_stops (b := b.cplError h cause) (by rw [eng]; exact runs) c cause addr false false 1).of_ports rest

/-- A read that ends while the engine halts, or its function resets, is counted. -/
theorem Blk.dmaLate_counts (ends : (b.eng h).st = .halting ∨ (b.fn h false).flr = true) (left : 0 < (b.eng h).ending) :
    (b.dmaLate h).eng h = { b.eng h with ending := (b.eng h).ending - 1 } ∧
    ((b.dmaLate h).port h).discard = sat64 (b.port h).discard 1 := by
  unfold Blk.dmaLate
  dsimp only
  rw [if_pos ⟨ends, left⟩]
  exact ⟨Blk.eng_updEng b h (fun e => { e with ending := e.ending - 1 }), congrArg HostPort.discard (Blk.port_updPort _ _ _)⟩

theorem Blk.dmaLate_none (none : ¬(((b.eng h).st = .halting ∨ (b.fn h false).flr = true) ∧ 0 < (b.eng h).ending)) :
    b.dmaLate h = b := if_neg none

end Stop

/-! Descriptor reads that return (R422, R429). -/

section DescRead
variable {b : Blk} {h c : Nat} {ans : DmaAns} {i : DAddr} {m : List Byte}

theorem Blk.descRead_late (idle : b.dmaRuns h = false) : b.descRead h c ans = b.dmaLate h := if_pos (by rw [idle]; decide)

theorem Blk.descRead_none (runs : b.dmaRuns h = true) (reading : (b.chn h c).reading = none) : b.descRead h c ans = b := by
  unfold Blk.descRead
  rw [if_neg (not_not.2 runs)]
  dsimp only
  rw [reading]

theorem Blk.descRead_fails {z : StopCause} (runs : b.dmaRuns h = true) (reading : (b.chn h c).reading = some i)
    (failed : b.dmaData h i.sys i.byte 32 ans = .fail z) : b.descRead h c ans = b.dmaFailed h z i.byte i.sys := by
  unfold Blk.descRead
  rw [if_neg (not_not.2 runs)]
  dsimp only
  rw [reading]
  dsimp only
  rw [failed]

/-- A channel whose descriptor read has ended. -/
def Dch.readEnded (x : Dch) : Dch := { x with reading := none, dropRead := false }

section Returned
variable {d : Desc} (runs : b.dmaRuns h = true) (reading : (b.chn h c).reading = some i)
  (data : b.dmaData h i.sys i.byte 32 ans = .ok m) (next : i = (b.chn h c).next) (keep : (b.chn h c).dropRead = false)
  (came : BitVec.ofNat 256 (natLE m) = d)
include runs reading data next keep came

/-- A read ahead is kept while its predecessor is in hand, and so is a descriptor that comes in BME_OFF. -/
theorem Blk.descRead_kept (own : dOwn d = true) (arm : (b.chn h c).arm = false)
    (waits : (b.chn h c).st = .bmeOff ∨
      ((b.chn h c).st = .active ∧ (b.chn h c).endMark = false ∧ (b.chn h c).desc.isSome = true)) :
    b.Turns (b.descRead h c ans) h c { (b.chn h c).readEnded with ahead := some d } := by
  have ended := b.turns_updChn h c Dch.readEnded
  have kept := ended.trans (Blk.turns_updChn _ h c (fun x => { x with ahead := some d }))
  rw [ended.chn] at kept
  subst came
  unfold Blk.descRead
  rw [if_neg (not_not.2 runs)]
  dsimp only
  rw [reading]
  dsimp only
  rw [data]
  dsimp only
  rw [if_neg (by rw [keep]; decide)]
  rcases waits with off | ⟨active, ahead, inHand⟩
  · rw [if_pos ⟨off, next, own, arm⟩]
    exact kept
  · have held : (b.chn h c).desc.isNone = false := by simpa using inHand
    rw [if_neg (by simp [active]), if_neg (by simp [active, next]), if_pos (by simp [ahead]), if_neg (by simp [held]),
      if_pos ⟨own, arm⟩]
    exact kept

/-- An end-mark read returns. -/
theorem Blk.descRead_marked (active : (b.chn h c).st = .active) (mark : (b.chn h c).endMark = true) :
    b.descRead h c ans = if dOwn d then
        (b.updChn h c Dch.readEnded).dmaTake h c d
      else if (b.chn h c).kick then (b.updChn h c Dch.readEnded).dmaGo h c
      else (b.updChn h c Dch.readEnded).updChn h c (fun x => { x with idleAt := x.next, st := .idle }) := by
  subst came
  unfold Blk.descRead
  rw [if_neg (not_not.2 runs)]
  dsimp only
  rw [reading]
  dsimp only
  rw [data]
  dsimp only
  rw [if_neg (by rw [keep]; decide), if_neg (by simp [active]), if_neg (by simp [active, next]), if_neg (by simp [mark])]
  rfl

/-- The end mark idles the channel. -/
theorem Blk.descRead_idles (active : (b.chn h c).st = .active) (mark : (b.chn h c).endMark = true) (other : dOwn d = false)
    (rest : (b.chn h c).kick = false) : b.Turns (b.descRead h c ans) h c
      { (b.chn h c).readEnded with idleAt := (b.chn h c).next, st := .idle } := by
  have ended := b.turns_updChn h c Dch.readEnded
  have idles := ended.trans (Blk.turns_updChn _ h c (fun x => { x with idleAt := x.next, st := .idle }))
  rw [Blk.descRead_marked runs reading data next keep came active mark, if_neg (by simp [other]), if_neg (by simp [rest])]
  rw [ended.chn] at idles
  exact idles

/-- After a kick the end mark is read again. -/
theorem Blk.descRead_rereads (active : (b.chn h c).st = .active) (mark : (b.chn h c).endMark = true) (none : (b.chn h c).desc = none)
    (other : dOwn d = false) (kick : (b.chn h c).kick = true) :
    b.Turns (b.descRead h c ans) h c (b.going h (b.chn h c).readEnded) := by
  have ended := b.turns_updChn h c Dch.readEnded
  have again := Blk.dmaGo_free ended.chn ⟨ended.runs runs, active, rfl, none⟩
  rw [ended.going] at again
  rw [Blk.descRead_marked runs reading data next keep came active mark, if_neg (by simp [other]), if_pos kick]
  exact ended.trans again

end Returned

end DescRead

/-! Bursts (R424). -/

/-- A channel that has issued a burst of `n` bytes. -/
def Dch.issued (x : Dch) (n : Nat) : Dch :=
  { x with bursts := x.bursts ++ [{ src := x.rdSrc, len := n }], rdSrc := x.rdSrc + n, rdLeft := x.rdLeft - n }

/-- Bursts outstanding at an engine. -/
def Dma.held (e : Dma) : Nat := e.chans.foldl (fun a c => a + c.2.bursts.length) 0

theorem Dch.ready_works {x : Dch} (ready : x.ready = true) : x.st = .active ∧ x.desc.isSome = true := by
  unfold Dch.ready at ready
  simp only [Bool.and_eq_true, beq_iff_eq] at ready
  exact ready.1.1

theorem Dma.pick_ready {e : Dma} {c : Nat} (picked : e.pick = some c) : (e.chans.get {} c).ready = true := by
  have member : c ∈ (List.range 32).filter (fun c => (e.chans.get {} c).ready) := by
    unfold Dma.pick at picked
    dsimp only at picked
    split at picked
    · cases picked
    · split at picked
      next found =>
        cases picked
        exact List.mem_of_mem_filter (List.mem_of_find?_eq_some found)
      next => exact List.mem_of_mem_filter (List.mem_of_head? picked)
  exact (List.mem_filter.1 member).2

section Bursts
variable {b : Blk} {h c : Nat} {ans : DmaAns} {u : Burst} {us : List Burst} {m : List Byte}

theorem Blk.burstIssue_none (none : b.dmaRuns h = false ∨ (b.eng h).pick = none ∨ 128 ≤ (b.eng h).held) :
    b.burstIssue h = b := by
  unfold Blk.burstIssue
  dsimp only
  split
  · rfl
  next goes =>
    rcases none with idle | none | full
    · exact absurd (.inl (by rw [idle]; decide)) goes
    · rw [none]
    · exact absurd (.inr full) goes

theorem Blk.turns_served (b : Blk) (h c : Nat) (f : Dma → Tab Nat) :
    b.Turns (b.updEng h (fun e => { e with served := f e })) h c (b.chn h c) where
  chn := by unfold Blk.chn; rw [Blk.eng_updEng]
  others _ _ := by unfold Blk.chn; rw [Blk.eng_updEng]
  engs _ hk := Blk.eng_updEng_ne _ _ _ hk
  st := by rw [Blk.eng_updEng]
  hums := .of_eq rfl rfl
  rest := rfl

/-- Where a channel that has issued a burst reads next. -/
theorem Blk.Turns.nextReady {t : Blk} {x y : Dch} (turned : b.Turns t h c y) (n : Nat) :
    t.nextReady h (x.issued n) ↔ b.nextReady h x := by
  unfold Blk.nextReady
  rw [turned.can]
  rfl

section Picked
variable (runs : b.dmaRuns h = true) (picked : (b.eng h).pick = some c) (room : (b.eng h).held < 128)
include runs picked room

theorem Blk.burstIssue_off (shut : b.dmaCan h (b.chn h c).srcSys = false) :
    b.Turns (b.burstIssue h) h c { b.chn h c with st := .bmeOff, before := .active } := by
  have off := b.turns_updChn h c Dch.bmeOff
  rw [Dch.bmeOff, (Dch.ready_works (x := b.chn h c) (Dma.pick_ready picked)).1] at off
  unfold Blk.burstIssue
  dsimp only
  rw [if_neg (by rw [runs]; exact not_or.2 ⟨not_not.2 rfl, Nat.not_le.2 room⟩), picked]
  dsimp only
  rw [if_pos (by rw [shut]; decide)]
  exact off

/-- A burst is issued, and the channel goes on. -/
theorem Blk.burstIssue_goes (can : b.dmaCan h (b.chn h c).srcSys = true) : ∃ t, b.burstIssue h = t.dmaGo h c ∧
    b.Turns t h c ((b.chn h c).issued (min (b.chn h c).rdLeft (512 - (b.chn h c).rdSrc % 512))) := by
  have awake := b.turns_awake h c (b.chn h c).srcSys
  have served := awake.trans (Blk.turns_served _ h c (fun e => e.served.put 31 (b.chn h c).cfg.priority.toNat c))
  have issued := served.trans (Blk.turns_updChn _ h c (Dch.issued · (min (b.chn h c).rdLeft (512 - (b.chn h c).rdSrc % 512))))
  rw [served.chn, awake.chn] at issued
  refine ⟨_, ?_, issued⟩
  unfold Blk.burstIssue
  dsimp only
  rw [if_neg (by rw [runs]; exact not_or.2 ⟨not_not.2 rfl, Nat.not_le.2 room⟩), picked]
  dsimp only
  rw [if_neg (not_not.2 can)]
  rfl

/-- A channel that has issued a burst, and has more to issue or may not read ahead, does no more. -/
theorem Blk.burstIssue_stays {n : Nat} (burst : n = min (b.chn h c).rdLeft (512 - (b.chn h c).rdSrc % 512))
    (can : b.dmaCan h (b.chn h c).srcSys = true) (why : n < (b.chn h c).rdLeft ∨ (b.chn h c).aheadDone = true ∨
      (b.chn h c).arm = true ∨ (b.chn h c).reading.isSome = true ∨ ¬ b.nextReady h (b.chn h c)) :
    b.Turns (b.burstIssue h) h c ((b.chn h c).issued n) := by
  subst burst
  obtain ⟨active, inHand⟩ := Dch.ready_works (x := b.chn h c) (Dma.pick_ready picked)
  obtain ⟨t, goes, issued⟩ := Blk.burstIssue_goes runs picked room can
  rw [goes]
  generalize min (b.chn h c).rdLeft (512 - (b.chn h c).rdSrc % 512) = n at why issued ⊢
  by_cases busy : (b.chn h c).reading.isSome = true ∨ (b.chn h c).rdLeft - n ≠ 0 ∨ (b.chn h c).aheadDone = true ∨
      (b.chn h c).arm = true
  · rw [Blk.dmaGo_busy issued.chn inHand busy]
    exact issued
  · obtain ⟨reading, left, fresh, arm⟩ : (b.chn h c).reading = none ∧ (b.chn h c).rdLeft - n = 0 ∧
        (b.chn h c).aheadDone = false ∧ (b.chn h c).arm = false := by simpa using busy
    have waits : ¬ b.nextReady h (b.chn h c) := by
      rw [reading, fresh, arm] at why
      simpa [Nat.not_lt.2 (Nat.sub_eq_zero_iff_le.1 left)] using why
    rw [Blk.dmaGo_ahead issued.chn (issued.runs runs) active inHand left reading fresh arm]
    exact issued.trans (Blk.dmaRead_waits issued.chn fun ready => waits ((issued.nextReady n).1 ready))

/-- A channel whose last burst is issued reads ahead. -/
theorem Blk.burstIssue_readsAhead {n : Nat} (burst : n = min (b.chn h c).rdLeft (512 - (b.chn h c).rdSrc % 512))
    (can : b.dmaCan h (b.chn h c).srcSys = true) (last : n = (b.chn h c).rdLeft) (fresh : (b.chn h c).aheadDone = false)
    (arm : (b.chn h c).arm = false) (reading : (b.chn h c).reading = none) (ready : b.nextReady h (b.chn h c)) :
    b.Turns (b.burstIssue h) h c { (b.chn h c).issued n with
      reading := some (b.chn h c).next, dropRead := false, endMark := false, aheadDone := true } := by
  subst burst
  obtain ⟨active, inHand⟩ := Dch.ready_works (x := b.chn h c) (Dma.pick_ready picked)
  obtain ⟨t, goes, issued⟩ := Blk.burstIssue_goes runs picked room can
  rw [goes]
  generalize min (b.chn h c).rdLeft (512 - (b.chn h c).rdSrc % 512) = n at last issued ⊢
  rw [Blk.dmaGo_ahead issued.chn (issued.runs runs) active inHand (Nat.sub_eq_zero_of_le (Nat.le_of_eq last.symm)) reading fresh arm]
  exact issued.trans (Blk.dmaRead_ahead issued.chn ((issued.nextReady n).2 ready))

end Picked

theorem Blk.burstData_late (idle : b.dmaRuns h = false) : b.burstData h c ans = b.dmaLate h := if_pos (by rw [idle]; decide)

theorem Blk.burstData_none (runs : b.dmaRuns h = true) (none : (b.chn h c).bursts = []) : b.burstData h c ans = b := by
  unfold Blk.burstData
  rw [if_neg (not_not.2 runs)]
  dsimp only
  rw [none]

theorem Blk.burstData_fails {z : StopCause} (runs : b.dmaRuns h = true) (oldest : (b.chn h c).bursts = u :: us)
    (failed : b.dmaData h (b.chn h c).srcSys u.src u.len ans = .fail z) :
    b.burstData h c ans = b.dmaFailed h z u.src (b.chn h c).srcSys := by
  unfold Blk.burstData
  rw [if_neg (not_not.2 runs)]
  dsimp only
  rw [oldest]
  dsimp only
  rw [failed]

/-- A channel whose oldest burst, `u`, has been written. -/
def Dch.wrote (x : Dch) (u : Burst) (us : List Burst) : Dch :=
  { x with bursts := us, curSrc := x.curSrc + BitVec.ofNat 64 u.len, curDst := x.curDst + BitVec.ofNat 64 u.len,
           remain := x.remain - BitVec.ofNat 25 u.len }

theorem Blk.burstData_ok (runs : b.dmaRuns h = true) (oldest : (b.chn h c).bursts = u :: us)
    (data : b.dmaData h (b.chn h c).srcSys u.src u.len ans = .ok m) : b.burstData h c ans =
      if (b.chn h c).st = .bmeOff then b
      else if ¬ b.dmaCan h (b.chn h c).dstSys then b.updChn h c Dch.bmeOff
      else (b.dmaWrite h (b.chn h c).dstSys (b.chn h c).curDst.toNat m).updChn h c (Dch.wrote · u us) := by
  unfold Blk.burstData
  rw [if_neg (not_not.2 runs)]
  dsimp only
  rw [oldest]
  dsimp only
  rw [data]
  rfl

theorem Blk.burstData_off (runs : b.dmaRuns h = true) (oldest : (b.chn h c).bursts = u :: us)
    (data : b.dmaData h (b.chn h c).srcSys u.src u.len ans = .ok m) (works : (b.chn h c).st ≠ .bmeOff)
    (shut : b.dmaCan h (b.chn h c).dstSys = false) : b.Turns (b.burstData h c ans) h c (b.chn h c).bmeOff := by
  rw [Blk.burstData_ok runs oldest data, if_neg works, if_pos (by rw [shut]; decide)]
  exact b.turns_updChn h c Dch.bmeOff

theorem Blk.burstData_writes (runs : b.dmaRuns h = true) (oldest : (b.chn h c).bursts = u :: us)
    (data : b.dmaData h (b.chn h c).srcSys u.src u.len ans = .ok m) (works : (b.chn h c).st ≠ .bmeOff)
    (can : b.dmaCan h (b.chn h c).dstSys = true) : b.Serves (b.burstData h c ans) h c ((b.chn h c).wrote u us) ∧
      (b.burstData h c ans).Written h (b.chn h c).dstSys (b.chn h c).curDst.toNat m := by
  obtain ⟨serves, written⟩ := b.dmaWrite_writes h c (b.chn h c).dstSys (b.chn h c).curDst.toNat m
  rw [Blk.burstData_ok runs oldest data, if_neg works, if_neg (not_not.2 can)]
  have wrote := Blk.turns_updChn (b.dmaWrite h (b.chn h c).dstSys (b.chn h c).curDst.toNat m) h c (Dch.wrote · u us)
  rw [serves.chn] at wrote
  exact ⟨serves.trans wrote.toServes, wrote.written written⟩

end Bursts

/-! Completions of descriptors (R421, R425). -/

section Completes
variable {b : Blk} {h c : Nat} {d : Desc}

theorem Blk.descComplete_none (none : b.dmaRuns h = false ∨ ((b.chn h c).st ≠ .active ∧ (b.chn h c).st ≠ .pausing)) :
    b.descComplete h c = b := by
  refine if_pos ?_
  rcases none with idle | ⟨active, pausing⟩
  · exact .inl (by rw [idle]; decide)
  · exact .inr (.inr (.inr (.inr (not_or.2 ⟨active, pausing⟩))))

section Done
variable (runs : b.dmaRuns h = true) (inHand : (b.chn h c).desc = some d) (issued : (b.chn h c).rdLeft = 0)
  (written : (b.chn h c).bursts = [])
include runs inHand issued written

theorem Blk.descComplete_may (works : (b.chn h c).st = .active ∨ (b.chn h c).st = .pausing) :
    ¬(¬ b.dmaRuns h = true ∨ (b.chn h c).desc.isNone = true ∨ (b.chn h c).rdLeft ≠ 0 ∨
    ¬ (b.chn h c).bursts.isEmpty = true ∨ ¬ ((b.chn h c).st = .active ∨ (b.chn h c).st = .pausing)) := by
  simp [runs, inHand, issued, written, works]

theorem Blk.descComplete_off (works : (b.chn h c).st = .active ∨ (b.chn h c).st = .pausing)
    (shut : b.dmaCan h (b.chn h c).curDesc.sys = false) :
    b.Turns (b.descComplete h c) h c (b.chn h c).bmeOff := by
  have off : b.descComplete h c = b.updChn h c Dch.bmeOff :=
    (if_neg (Blk.descComplete_may runs inHand issued written works)).trans (if_pos (by rw [shut]; decide))
  rw [off]
  exact b.turns_updChn h c Dch.bmeOff

/-- A descriptor completes; the channel goes on where it is ACTIVE. -/
theorem Blk.descComplete_goes (works : (b.chn h c).st = .active ∨ (b.chn h c).st = .pausing)
    (can : b.dmaCan h (b.chn h c).curDesc.sys = true)
    (fresh : (b.chn h c).st = .active → (b.chn h c).ahead = none ∨ (b.chn h c).arm = true) : b.descComplete h c =
      if (b.chn h c).st = .active then (b.dmaFinish h c 0 true).dmaGo h c else b.dmaFinish h c 0 true := by
  obtain ⟨finishes, -⟩ := Blk.dmaFinish_finishes (b := b) (h := h) (c := c) rfl inHand 0
  unfold Blk.descComplete
  dsimp only
  rw [if_neg (Blk.descComplete_may runs inHand issued written works), if_neg (not_not.2 can), finishes.chn,
    (Dch.completed_keeps _).1]
  split
  next active => rw [Dch.completed_ahead (fresh active)]
  · rfl

/-- A PAUSING channel completes its descriptor and reads no other. -/
theorem Blk.descComplete_pausing (pausing : (b.chn h c).st = .pausing) (can : b.dmaCan h (b.chn h c).curDesc.sys = true) :
    b.Serves (b.descComplete h c) h c (b.chn h c).completed ∧ (b.descComplete h c).Written h (b.chn h c).curDesc.sys
      ((b.chn h c).curDesc.byte + 20) (backBytes d 0 0) := by
  have other : (b.chn h c).st ≠ .active := by rw [pausing]; decide
  rw [Blk.descComplete_goes runs inHand issued written (.inr pausing) can (absurd · other), if_neg other]
  exact Blk.dmaFinish_finishes rfl inHand 0

/-- An ACTIVE channel completes its descriptor and reads the next. -/
theorem Blk.descComplete_active (active : (b.chn h c).st = .active) (can : b.dmaCan h (b.chn h c).curDesc.sys = true)
    (reading : (b.chn h c).reading = none) (fresh : (b.chn h c).ahead = none ∨ (b.chn h c).arm = true) :
    b.Serves (b.descComplete h c) h c (b.going h (b.chn h c).completed) ∧ (b.descComplete h c).Written h (b.chn h c).curDesc.sys
      ((b.chn h c).curDesc.byte + 20) (backBytes d 0 0) := by
  obtain ⟨finishes, backs⟩ := Blk.dmaFinish_finishes (b := b) (h := h) (c := c) rfl inHand 0
  obtain ⟨st, read, none⟩ := (b.chn h c).completed_keeps
  have goes := Blk.dmaGo_free finishes.chn ⟨finishes.runs runs, st.trans active, read.trans reading, none⟩
  rw [finishes.going] at goes
  rw [Blk.descComplete_goes runs inHand issued written (.inl active) can fun _ => fresh, if_pos active]
  exact ⟨finishes.trans goes.toServes, goes.written backs⟩

end Done

end Completes

/-! Reads that time out (R56), and the end of a stop (R431). -/

section Ends
variable {b : Blk} {h : Nat} {c : DmaCh}

theorem Blk.dmaRuns_aerTimeout (b : Blk) (h : Nat) : (b.aerTimeout h false).dmaRuns h = b.dmaRuns h := by
  unfold Blk.aerTimeout Blk.dmaRuns Blk.fn
  rw [Blk.port_updPort]
  rfl

theorem Blk.timeout_desc_none (reading : (b.chn h c.val).reading = none) : b.timeout h (.desc c) = b := by
  unfold Blk.timeout
  dsimp only
  rw [reading]

theorem Blk.timeout_desc {i : DAddr} (runs : b.dmaRuns h = true) (reading : (b.chn h c.val).reading = some i) (host : i.sys = false) :
    b.timeout h (.desc c) = (b.aerTimeout h false).dmaFailed h .timeout i.byte i.sys := by
  unfold Blk.timeout
  dsimp only
  rw [reading]
  dsimp only
  rw [if_neg (by rw [host]; decide)]
  exact Blk.descRead_fails ((b.dmaRuns_aerTimeout h).trans runs) reading (by rw [host]; rfl)

theorem Blk.timeout_burst_none (none : (b.chn h c.val).bursts = []) : b.timeout h (.burst c) = b :=
  if_pos (by rw [none]; simp)

theorem Blk.timeout_burst {u : Burst} {us : List Burst} (runs : b.dmaRuns h = true) (oldest : (b.chn h c.val).bursts = u :: us)
    (host : (b.chn h c.val).srcSys = false) :
    b.timeout h (.burst c) = (b.aerTimeout h false).dmaFailed h .timeout u.src (b.chn h c.val).srcSys := by
  refine (if_neg (by simp [host, oldest])).trans ?_
  exact Blk.burstData_fails (b := b.aerTimeout h false) ((b.dmaRuns_aerTimeout h).trans runs) oldest
    (by rw [show ((b.aerTimeout h false).chn h c.val).srcSys = false from host]; rfl)

theorem Blk.timeout_stops (runs : b.dmaRuns h = true) (c : Nat) (addr : Nat) (sys : Bool) :
    b.Stops ((b.aerTimeout h false).dmaFailed h .timeout addr sys) h c .timeout (BitVec.ofNat 64 addr) false sys 1 :=
  (Blk.dmaFailed_stops (b := b.aerTimeout h false) (Blk.dmaRuns_running (b := b) runs) c .timeout addr sys).of_ports rfl

theorem Blk.dmaHalted_none (none : ¬((b.eng h).st = .halting ∧
    ((b.eng h).ending = 0 ∨ (b.eng h).stopAt + 10000000 ≤ b.mono))) :
    b.dmaHalted h = b := by
  refine if_pos ?_
  by_cases halting : (b.eng h).st = .halting
  · obtain ⟨left, early⟩ := not_or.1 fun ended => none ⟨halting, ended⟩
    exact .inr ⟨left, Nat.not_le.1 early⟩
  · exact .inl halting

/-- An engine is HALTED, with its record (R149, R431). -/
theorem Blk.dmaHalted_halts (halting : (b.eng h).st = .halting)
    (ended : (b.eng h).ending = 0 ∨ (b.eng h).stopAt + 10000000 ≤ b.mono) :
    (b.dmaHalted h).eng h = { b.eng h with st := .halted, ending := 0, haltCount := sat32 (b.eng h).haltCount 1 } ∧
    (b.dmaHalted h).ctl.errs = b.ctl.errs ++ [{
      type := 2, reason := 0, index := h, port := h, mono := b.mono, epoch := b.ctl.newest,
      detail := ((b.dmaHalted h).eng h).statusReg }] := by
  have goes : ¬((b.eng h).st ≠ .halting ∨ ((b.eng h).ending ≠ 0 ∧ b.mono < (b.eng h).stopAt + 10000000)) := by
    rintro (other | ⟨left, early⟩)
    · exact other halting
    · exact ended.elim left (Nat.not_le.2 early)
  unfold Blk.dmaHalted
  rw [if_neg goes]
  extract_lets b1 b2 b3
  have told : b1.reports b2 := b1.reports_devEvent _ _ _ _ _
  have woken : b3.dma = b2.dma ∧ b3.ctl = b2.ctl := by
    unfold b3
    split
    · rw [Blk.unitEvent_rest]
      exact ⟨rfl, rfl⟩
    · exact ⟨rfl, rfl⟩
  have dma : b3.dma = b1.dma := woken.1.trans (congrArg Blk.dma told.rest :)
  have ctl : b3.ctl = b.ctl := woken.2.trans (congrArg Blk.ctl told.rest :)
  have eng : b3.eng h = _ := (Blk.eng_of_dma dma h).trans (Blk.eng_updEng b h _)
  clear_value b3
  exact ⟨eng, by rw [ctl]; rfl⟩

end Ends

end Sys2Proof.Machine
end

section
/-! SUPPORT. The proof of the statement on DMA transfers (R56, R420 to R426, R429 to R431, R512). -/

namespace Sys2Proof.Machine
open Sys2Proof

theorem exec_dmaDescRead (s : State) (h : PortId) (c : DmaCh) (ans : DmaAns) :
    exec (.dmaDescRead h c ans) s = .next { s with blk := s.blk.descRead h.val c.val ans } := rfl
theorem exec_dmaBurstIssue (s : State) (h : PortId) :
    exec (.dmaBurstIssue h) s = .next { s with blk := s.blk.burstIssue h.val } := rfl
theorem exec_dmaBurstData (s : State) (h : PortId) (c : DmaCh) (ans : DmaAns) :
    exec (.dmaBurstData h c ans) s = .next { s with blk := s.blk.burstData h.val c.val ans } := rfl
theorem exec_dmaDescComplete (s : State) (h : PortId) (c : DmaCh) :
    exec (.dmaDescComplete h c) s = .next { s with blk := s.blk.descComplete h.val c.val } := rfl
theorem exec_dmaBusErrorStop (s : State) (h : PortId) (c : StopCause) (addr : W64) (write sys : Bool) :
    exec (.dmaBusErrorStop h c addr write sys) s = .next { s with blk := s.blk.dmaBusError h.val c addr.toNat write sys } := rfl
theorem exec_dmaHalted (s : State) (h : PortId) : exec (.dmaHalted h) s = .next { s with blk := s.blk.dmaHalted h.val } := rfl
theorem exec_completionTimeout (s : State) (h : PortId) (req : OutReq) :
    exec (.completionTimeout h req) s = .next { s with blk := s.blk.timeout h.val req } := rfl

/-- Settles O41: each command by what it leaves of its channel, or by the stop of its engine. -/
theorem dmaTransfers : Obligations.DmaTransfers := by
  unfold Obligations.DmaTransfers
  intro s h c ans m d r u us a wr sys z i b e x chanP chan wrote back going inHand stops late held
  have serve : ∀ (k : Instr) (y : Dch) (f : State → Prop) (t : Blk), exec k s = .next { s with blk := t } →
      b.Serves t h.val c.val y → f { s with blk := t } → chanP k y f :=
    fun k y f t runs served holds => ⟨_, runs, served.chn, served.others, served.engs, holds⟩
  have turn : ∀ (k : Instr) (y : Dch) (t : Blk), exec k s = .next { s with blk := t } → b.Turns t h.val c.val y → chan k y :=
    fun k y t runs turned => serve k y _ t runs turned.toServes turned.rest
  have stop : ∀ (k : Instr) (cause : StopCause) (addr : W64) (wr sys : Bool) (n : Nat) (t : Blk),
      exec k s = .next { s with blk := t } → b.Stops t h.val c.val cause addr wr sys n → stops k cause addr wr sys n :=
    fun k cause addr wr sys n t runs stopped => ⟨_, runs, stopped.eng, stopped.chn⟩
  have still : ∀ (k : Instr) (t : Blk), exec k s = .next { s with blk := t } → t = b → exec k s = .next s :=
    fun k t runs same => runs.trans (by rw [same])
  have lates : ∀ (k : Instr) (t : Blk), exec k s = .next { s with blk := t } → t = b.dmaLate h.val → late k := by
    intro k t runs counted
    exact ⟨fun ends left => ⟨_, runs, by rw [counted]; exact (Blk.dmaLate_counts ends left)⟩,
      fun none => still k t runs (counted.trans (Blk.dmaLate_none none))⟩
  refine ⟨fun idle => ⟨?_, ?_, ?_, ?_⟩, fun runs => ⟨fun none => ⟨?_, ?_⟩, fun reading => ?_, fun none => ?_,
    fun picked room => ?_, fun none => ⟨?_, ?_⟩, fun oldest => ?_, fun inHand issued written => ?_, fun read => ?_, fun write fault => ?_,
    fun write other => ?_⟩, fun none => ?_, fun ended => ?_⟩
  · exact lates _ _ (exec_dmaDescRead s h c ans) (Blk.descRead_late idle)
  · exact lates _ _ (exec_dmaBurstData s h c ans) (Blk.burstData_late idle)
  · exact still _ _ (exec_dmaBurstIssue s h) (Blk.burstIssue_none (.inl idle))
  · exact still _ _ (exec_dmaDescComplete s h c) (Blk.descComplete_none (.inl idle))
  · exact still _ _ (exec_dmaDescRead s h c ans) (Blk.descRead_none runs none)
  · exact still _ _ (exec_completionTimeout s h (.desc c)) (Blk.timeout_desc_none none)
  · intro got reads own y
    refine ⟨fun host => ?_, fun failed => ?_, fun data next keep came => ?_⟩
    · have ends := Blk.timeout_stops (b := s.blk) runs c.val i.byte i.sys
      rw [← Blk.timeout_desc runs reading host, host] at ends
      exact stop _ _ _ _ _ _ _ (exec_completionTimeout s h (.desc c)) ends
    · have fails := Blk.dmaFailed_stops (b := s.blk) (Blk.dmaRuns_running runs) c.val z i.byte i.sys
      rw [← Blk.descRead_fails runs reading failed] at fails
      exact stop _ _ _ _ _ _ _ (exec_dmaDescRead s h c ans) fails
    · refine ⟨fun off own arm => ?_, fun active ahead inHand own arm => ?_,
        fun active mark none => ⟨fun other rest => ?_, fun other kick => ?_, fun own => ?_⟩⟩
      · exact turn _ _ _ (exec_dmaDescRead s h c ans)
          (Blk.descRead_kept runs reading data next keep came (came ▸ own) arm (.inl off))
      · exact turn _ _ _ (exec_dmaDescRead s h c ans)
          (Blk.descRead_kept runs reading data next keep came (came ▸ own) arm (.inr ⟨active, ahead, inHand⟩))
      · exact turn _ _ _ (exec_dmaDescRead s h c ans)
          (Blk.descRead_idles runs reading data next keep came active mark (came ▸ other) rest)
      · exact turn _ _ _ (exec_dmaDescRead s h c ans)
          (Blk.descRead_rereads runs reading data next keep came active mark none (came ▸ other) kick)
      · have ended := s.blk.turns_updChn h.val c.val Dch.readEnded
        have free : (s.blk.updChn h.val c.val Dch.readEnded).Free h.val x.readEnded := ⟨ended.runs runs, active, rfl, none⟩
        have marked := Blk.descRead_marked runs reading data next keep came active mark
        rw [if_pos (came ▸ own)] at marked
        refine ⟨fun good plain long => ?_, fun good link can => ?_, fun fault can => ?_, fun writes shut => ?_⟩
        · have takes := Blk.dmaTake_good ended.chn good plain long
          rw [← marked] at takes
          exact turn _ _ _ (exec_dmaDescRead s h c ans) (ended.trans takes)
        · obtain ⟨follows, backs⟩ := Blk.dmaTake_link ended.chn free good link ((ended.can _ _).trans can)
          rw [← marked, ended.going] at follows
          rw [← marked] at backs
          exact serve _ _ _ _ (exec_dmaDescRead s h c ans) (ended.toServes.trans follows) backs
        · obtain ⟨errs, backs⟩ := Blk.dmaTake_faulty ended.chn fault ((ended.can _ _).trans can)
          rw [← marked] at errs backs
          exact serve _ _ _ _ (exec_dmaDescRead s h c ans) (ended.toServes.trans errs) backs
        · have waits := Blk.dmaTake_waits ended.chn active writes ((ended.can _ _).trans shut)
          rw [← marked] at waits
          exact turn _ _ _ (exec_dmaDescRead s h c ans) (ended.trans waits)
  · exact still _ _ (exec_dmaBurstIssue s h) (Blk.burstIssue_none (.inr none))
  · intro n y ready
    exact ⟨fun shut => turn _ _ _ (exec_dmaBurstIssue s h) (Blk.burstIssue_off runs picked room shut), fun can =>
      ⟨fun why => turn _ _ _ (exec_dmaBurstIssue s h) (Blk.burstIssue_stays runs picked room rfl can why),
        fun last fresh arm reading ready =>
          turn _ _ _ (exec_dmaBurstIssue s h) (Blk.burstIssue_readsAhead runs picked room rfl can last fresh arm reading ready)⟩⟩
  · exact still _ _ (exec_dmaBurstData s h c ans) (Blk.burstData_none runs none)
  · exact still _ _ (exec_completionTimeout s h (.burst c)) (Blk.timeout_burst_none none)
  · intro got
    refine ⟨fun host => ?_, fun failed => ?_, fun data => ?_⟩
    · have ends := Blk.timeout_stops (b := s.blk) runs c.val u.src x.srcSys
      rw [← Blk.timeout_burst runs oldest host, host] at ends
      exact stop _ _ _ _ _ _ _ (exec_completionTimeout s h (.burst c)) ends
    · have fails := Blk.dmaFailed_stops (b := s.blk) (Blk.dmaRuns_running runs) c.val z u.src x.srcSys
      rw [← Blk.burstData_fails runs oldest failed] at fails
      exact stop _ _ _ _ _ _ _ (exec_dmaBurstData s h c ans) fails
    · refine ⟨fun off => ?_, fun works shut => ?_, fun works can => ?_⟩
      · exact still _ _ (exec_dmaBurstData s h c ans) ((Blk.burstData_ok runs oldest data).trans (if_pos off))
      · exact turn _ _ _ (exec_dmaBurstData s h c ans) (Blk.burstData_off runs oldest data works shut)
      · obtain ⟨serves, written⟩ := Blk.burstData_writes runs oldest data works can
        exact serve _ _ _ _ (exec_dmaBurstData s h c ans) serves written
  · intro y done
    refine ⟨fun active pausing => ?_, fun works shut => ?_, fun can => ⟨fun pausing => ?_, fun active reading fresh => ?_⟩⟩
    · exact still _ _ (exec_dmaDescComplete s h c) (Blk.descComplete_none (.inr ⟨active, pausing⟩))
    · exact turn _ _ _ (exec_dmaDescComplete s h c) (Blk.descComplete_off runs inHand issued written works shut)
    · obtain ⟨completes, backs⟩ := Blk.descComplete_pausing runs inHand issued written pausing can
      exact serve _ _ _ _ (exec_dmaDescComplete s h c) completes backs
    · obtain ⟨completes, backs⟩ := Blk.descComplete_active runs inHand issued written active can reading fresh
      exact serve _ _ _ _ (exec_dmaDescComplete s h c) completes backs
  · subst read
    have fails := Blk.dmaFailed_stops (b := s.blk) (Blk.dmaRuns_running runs) c.val z a.toNat sys
    rw [BitVec.ofNat_toNat, BitVec.setWidth_eq] at fails
    exact stop _ _ _ _ _ _ _ (exec_dmaBusErrorStop s h z a false sys) fails
  · subst write fault
    have stopped := Blk.dmaStop_stops (b := s.blk) (Blk.dmaRuns_running runs) c.val .fabric a.toNat true sys 0
    rw [BitVec.ofNat_toNat, BitVec.setWidth_eq] at stopped
    exact stop _ _ _ _ _ _ _ (exec_dmaBusErrorStop s h .fabric a true sys) stopped
  · subst write
    exact still _ _ (exec_dmaBusErrorStop s h z a true sys) (if_neg other)
  · exact still _ _ (exec_dmaHalted s h) (Blk.dmaHalted_none none)
  · exact ⟨_, exec_dmaHalted s h, Blk.dmaHalted_halts ended.1 ended.2⟩

end Sys2Proof.Machine
end

section
/-! SUPPORT. Threads that start and threads that move to a new image: what either leaves of the thread and of the others (R85,
R97, R98, R226, R238). -/

namespace Sys2Proof.Machine
open Sys2Proof

/-! Starts (R85, R238). -/

theorem Blk.thread_evalWait_other (b : Blk) {t u : Nat} (h : u ≠ t) : (b.evalWait t).thread u = b.thread u := by
  unfold Blk.evalWait
  split
  · exact b.thread_wake_other h
  · rfl

/-- An evaluation of any WAIT leaves a thread that is not in one. -/
theorem Blk.thread_evalWait_awake (b : Blk) (t : Nat) {u : Nat} (h : (b.thread u).st ≠ .waiting) :
    (b.evalWait t).thread u = b.thread u := by
  by_cases same : u = t
  · rw [b.evalWait_idle t (same ▸ h)]
  · exact b.thread_evalWait_other same

theorem Blk.agrees_updThread (b : Blk) (t u : Nat) {f : Thread → Thread} (hf : ∀ x : Thread, x.agrees (f x)) :
    (b.thread u).agrees ((b.updThread t f).thread u) := by
  rw [Blk.thread_updThread_if]
  split
  · exact hf _
  · exact Thread.agrees_refl _

/-- A thread that is not in WAIT goes through an event of any thread with its latched events alone changed (R246). -/
theorem Blk.agrees_latch (b : Blk) (t bits : Nat) {u : Nat} (h : (b.thread u).st ≠ .waiting) :
    (b.thread u).agrees ((b.latch t bits).thread u) := by
  have noted := b.agrees_updThread t u
    (f := fun x => { x with wt := { x.wt with latched := x.wt.latched ||| BitVec.ofNat 58 bits } }) (fun _ => ⟨rfl⟩)
  unfold Blk.latch
  rw [Blk.thread_evalWait_awake _ t (noted.st_eq ▸ h)]
  exact noted

theorem Blk.agrees_creditsRise (b : Blk) (c : Nat) {u : Nat} (h : (b.thread u).st ≠ .waiting) :
    (b.thread u).agrees ((b.creditsRise c).thread u) := by
  have fold : ∀ (l : List Nat) (bits : Nat) (d : Blk), (d.thread u).st ≠ .waiting →
      (d.thread u).agrees ((l.foldl (fun b t => b.latch t bits) d).thread u) := by
    intro l bits
    induction l with
    | nil => exact fun d _ => Thread.agrees_refl _
    | cons t l ih =>
      intro d awake
      have noted := d.agrees_latch t bits awake
      exact noted.trans (ih _ (noted.st_eq ▸ awake))
  exact fold _ _ (b.updChan c _) h

/-- Credits that a thread returns leave the threads that are not in WAIT (R251). -/
theorem Blk.agrees_returnCredits (b : Blk) (c : Nat) {t u : Nat} (other : u ≠ t) (h : (b.thread u).st ≠ .waiting) :
    (b.thread u).agrees ((b.returnCredits t c).thread u) := by
  unfold Blk.returnCredits
  extract_lets n d
  have same : d.thread u = b.thread u := b.thread_updThread_other _ other
  split
  · rw [same]
    exact Thread.agrees_refl _
  · rw [← same] at h ⊢
    exact d.agrees_creditsRise c h

/-- A start of one thread leaves the others that are not in WAIT. -/
theorem Blk.agrees_startThread (b : Blk) (pc : W64) {t u : Nat} (other : u ≠ t) (h : (b.thread u).st ≠ .waiting) :
    (b.thread u).agrees ((b.startThread t pc).thread u) := by
  have fold : ∀ (l : List Nat) (d : Blk), (d.thread u).st ≠ .waiting →
      (d.thread u).agrees ((l.foldl (fun b c => b.returnCredits t c) d).thread u) := by
    intro l
    induction l with
    | nil => exact fun d _ => Thread.agrees_refl _
    | cons c l ih =>
      intro d awake
      have returned := d.agrees_returnCredits c other awake
      exact returned.trans (ih _ (returned.st_eq ▸ awake))
  unfold Blk.startThread
  rw [Blk.thread_updThread_other _ _ other]
  exact fold _ b h

/-- A thread that runs as system code from an address. -/
structure Thread.RunsAt (x : Thread) (pc : W64) : Prop where
  runs : x.st = .running
  system : x.sr.priv = true
  pc : x.pc = pc

theorem Thread.RunsAt.agrees {x y : Thread} {pc : W64} (h : x.RunsAt pc) (k : x.agrees y) : y.RunsAt pc :=
  ⟨k.st_eq.trans h.runs, (congrArg SysRegs.priv k.sr_eq).trans h.system, k.pc_eq.trans h.pc⟩

theorem Blk.runsAt_startThread (b : Blk) (t : Nat) (pc : W64) : ((b.startThread t pc).thread t).RunsAt (pcOf pc) := by
  obtain ⟨runs, at_⟩ := b.thread_startThread t pc
  exact ⟨runs, by simp [Blk.startThread], at_⟩

/-! Moves (R97, R98, R226). -/

theorem Blk.leaveWait_rest (b : Blk) (t : Nat) : b.leaveWait t = { b with cores := (b.leaveWait t).cores } := by
  unfold Blk.leaveWait
  dsimp only
  split <;> rfl

/-- A thread that was moved in its WAIT wakes where its program counter stands, with its system registers (R226). -/
theorem Blk.evalWait_moved {b : Blk} {t : Nat} (moved : (b.thread t).wt.moved = true) :
    ((b.evalWait t).thread t).pc = (b.thread t).pc ∧ ((b.evalWait t).thread t).sr = (b.thread t).sr := by
  unfold Blk.evalWait
  split
  · unfold Blk.wake Thread.setReg
    dsimp only
    rw [Blk.leaveWait_thread, Blk.thread_updThread, Blk.thread_updThread, if_pos moved]
    split <;> exact ⟨rfl, rfl⟩
  · exact ⟨rfl, rfl⟩

theorem Blk.resumeWait_moved {b : Blk} {t : Nat} (moved : (b.thread t).wt.moved = true) :
    ((b.resumeWait t).thread t).pc = (b.thread t).pc ∧ ((b.resumeWait t).thread t).sr = (b.thread t).sr := by
  unfold Blk.resumeWait
  generalize hc : b.updThread t _ = c
  have held : c.thread t = { b.thread t with
      st := .waiting, wt := { (b.thread t).wt with waitResume := false, resumed := true, since := b.mono } } := by
    rw [← hc, Blk.thread_updThread]
  obtain ⟨pc, sr⟩ := Blk.evalWait_moved (b := c) (t := t) (by rw [held]; exact moved)
  rw [pc, sr, held]
  exact ⟨rfl, rfl⟩

/-- The system registers of a thread that has been moved: where it stood, and as what (R201). -/
def Thread.movedSr (y : Thread) : SysRegs :=
  { y.sr with migPc := y.pc, migValid := true, migWasExc := y.sr.exc, migOldPriv := y.sr.priv, priv := true }

/-- A thread as a move leaves it, before its WAIT, if it is in one, goes on (R97). -/
def Thread.movedTo (y : Thread) (x : Image) : Thread :=
  { y with
    pc := pcOf (BitVec.ofNat 64 x.migrate),
    wt := { y.wt with moved := y.wt.moved || (decide (y.st = .waiting) || y.wt.waitResume) }, sr := y.movedSr }

section Move
variable {b : Blk} {t : Nat} {x : Image}

theorem Blk.moveThread_unstarted (h : (b.thread t).started = false) : b.moveThread t x = b := if_neg (by simp [h])

theorem Blk.moveThread_awake (h : (b.thread t).started = true) (awake : (b.thread t).st ≠ .waiting) :
    b.moveThread t x = b.updThread t (fun _ => (b.thread t).movedTo x) := by
  unfold Blk.moveThread
  extract_lets y held b1 b2
  have put : b2 = b.updThread t (fun _ => (b.thread t).movedTo x) := by
    simp only [b2, b1, if_neg (show ¬ y.st = .waiting from awake)]
    rfl
  rw [if_pos (show y.started = true from h), if_neg (show ¬ y.st = .waiting from awake), put]

theorem Blk.moveThread_waiting (h : (b.thread t).started = true) (waits : (b.thread t).st = .waiting) :
    b.moveThread t x = ((b.leaveWait t).updThread t (fun _ => (b.thread t).movedTo x)).resumeWait t := by
  unfold Blk.moveThread
  extract_lets y held b1 b2
  have put : b2 = (b.leaveWait t).updThread t (fun _ => (b.thread t).movedTo x) := by
    simp only [b2, b1, if_pos (show y.st = .waiting from waits)]
    unfold Blk.updThread Tab.upd
    have left : (b.leaveWait t).cores.threads.get {} t = b.thread t := b.leaveWait_thread t t
    rw [left]
    rfl
  rw [if_pos (show y.started = true from h), if_pos (show y.st = .waiting from waits), put]

/-- A move leaves all but the cores. -/
theorem Blk.moveThread_rest (b : Blk) (t : Nat) (x : Image) :
    b.moveThread t x = { b with cores := (b.moveThread t x).cores } := by
  by_cases started : (b.thread t).started = true
  · by_cases waits : (b.thread t).st = .waiting
    · rw [Blk.moveThread_waiting started waits]
      unfold Blk.resumeWait
      rw [Blk.evalWait_rest]
      unfold Blk.updThread
      rw [Blk.leaveWait_rest]
    · rw [Blk.moveThread_awake started waits]
      rfl
  · rw [Blk.moveThread_unstarted (by simpa using started)]

/-- A move of one thread leaves the others. -/
theorem Blk.thread_moveThread_other (b : Blk) (x : Image) {t u : Nat} (h : u ≠ t) :
    (b.moveThread t x).thread u = b.thread u := by
  by_cases started : (b.thread t).started = true
  · by_cases waits : (b.thread t).st = .waiting
    · rw [Blk.moveThread_waiting started waits]
      unfold Blk.resumeWait
      rw [Blk.thread_evalWait_other _ h, Blk.thread_updThread_other _ _ h, Blk.thread_updThread_other _ _ h,
        Blk.leaveWait_thread]
    · rw [Blk.moveThread_awake started waits, Blk.thread_updThread_other _ _ h]
  · rw [Blk.moveThread_unstarted (by simpa using started)]

/-- A moved thread stands at migrate_entry as system code, its old address kept (R97, R201); one in WAIT too (the model's
choice, log 83), and the low two bits of the address read 0 (log 102). -/
theorem Blk.thread_moveThread (x : Image) (h : (b.thread t).started = true) :
    ((b.moveThread t x).thread t).pc = pcOf (BitVec.ofNat 64 x.migrate) ∧
      ((b.moveThread t x).thread t).sr = (b.thread t).movedSr := by
  by_cases waits : (b.thread t).st = .waiting
  · rw [Blk.moveThread_waiting h waits]
    obtain ⟨pc, sr⟩ := Blk.resumeWait_moved (b := (b.leaveWait t).updThread t (fun _ => (b.thread t).movedTo x)) (t := t)
      (by rw [Blk.thread_updThread]; simp [Thread.movedTo, waits])
    rw [pc, sr, Blk.thread_updThread]
    exact ⟨rfl, rfl⟩
  · rw [Blk.moveThread_awake h waits, Blk.thread_updThread]
    exact ⟨rfl, rfl⟩

end Move

end Sys2Proof.Machine
end

section
/-! SUPPORT. An image placed in firmware memory (R94, R97, R191): the bytes of its sections, and all others. -/

namespace Sys2Proof.Machine
open Sys2Proof

/-- One section of an image is copied to the firmware memory of a half (R94). -/
def Blk.placeSection (h : Half) (b : Blk) (c : Nat × List Byte) : Blk :=
  ((b.setBytes (fwLoc h c.1) c.2).setPoison (wholeGranules (fwLoc h c.1) c.2.length) false).l1iDrop (fwLoc h c.1 / 64)
    ((fwLoc h c.1 + c.2.length + 63) / 64)

/-- Sections in turn. -/
def Blk.placeSections (b : Blk) (h : Half) (l : List (Nat × List Byte)) : Blk := l.foldl (Blk.placeSection h) b

theorem Blk.placeImage_eq (b : Blk) (h : Half) (x : Image) : b.placeImage h x = b.placeSections h x.sections := rfl

/-- The two blocks differ in memory, its poison and the cores. -/
structure Blk.places (b c : Blk) : Prop where
  rest : c = { b with mem := c.mem, poison := c.poison, cores := c.cores }

theorem Blk.places.trans {b c d : Blk} (h : b.places c) (k : c.places d) : b.places d where
  rest := by conv => lhs; rw [k.rest, h.rest]

theorem Blk.places_placeSections (b : Blk) (h : Half) (l : List (Nat × List Byte)) : b.places (b.placeSections h l) := by
  induction l generalizing b with
  | nil => exact ⟨rfl⟩
  | cons c l ih => exact Blk.places.trans ⟨rfl⟩ (ih (b.placeSection h c))

/-- A section lies clear of another. -/
def placedApart (c d : Nat × List Byte) : Prop := c.1 + c.2.length ≤ d.1 ∨ d.1 + d.2.length ≤ c.1

section Place
variable {b : Blk} {h : Half}

theorem Blk.byte_placeSection (b : Blk) (h : Half) (c : Nat × List Byte) (j : Nat) : (b.placeSection h c).byte j =
    if fwLoc h c.1 ≤ j ∧ j < fwLoc h c.1 + c.2.length then c.2.getD (j - fwLoc h c.1) 0 else b.byte j :=
  b.byte_setBytes (fwLoc h c.1) c.2 j

/-- A byte of no section stays. -/
theorem Blk.byte_placeSections_other {l : List (Nat × List Byte)} {j : Nat}
    (out : ∀ c ∈ l, ∀ k < c.2.length, j ≠ fwLoc h c.1 + k) : (b.placeSections h l).byte j = b.byte j := by
  induction l generalizing b with
  | nil => rfl
  | cons c l ih =>
    refine (ih fun d hd => out d (List.mem_cons_of_mem c hd)).trans ?_
    rw [Blk.byte_placeSection, if_neg]
    rintro ⟨low, high⟩
    exact out c (List.mem_cons_self ..) (j - fwLoc h c.1) (by omega) (by omega)

/-- The sections of an image stand where they were placed. -/
theorem Blk.byte_placeSections {l : List (Nat × List Byte)} (clear : l.Pairwise placedApart) {c : Nat × List Byte} (hc : c ∈ l)
    {k : Nat} (hk : k < c.2.length) : (b.placeSections h l).byte (fwLoc h c.1 + k) = c.2[k] := by
  induction l generalizing b with
  | nil => cases hc
  | cons d l ih =>
    obtain ⟨first, rest⟩ := List.pairwise_cons.1 clear
    obtain rfl | later := List.mem_cons.1 hc
    · have kept : ∀ e ∈ l, ∀ n < e.2.length, fwLoc h c.1 + k ≠ fwLoc h e.1 + n := by
        intro e he n hn
        have clear := first e he
        unfold placedApart at clear
        unfold fwLoc
        omega
      refine (Blk.byte_placeSections_other kept).trans ?_
      rw [Blk.byte_placeSection, if_pos (by omega), Nat.add_sub_cancel_left, List.getD_eq_getElem _ _ hk]
    · exact ih rest later

end Place

/-- Sections that lie in firmware memory (R91, R191). -/
def inFirmware (l : List (Nat × List Byte)) : Prop := ∀ c ∈ l, fwBase ≤ c.1 ∧ c.1 + c.2.length ≤ fwBase + fwSize

/-- The block with an image in the firmware memory of both halves (R94, R97). -/
def Blk.placeBoth (b : Blk) (x : Image) : Blk := (b.placeImage .west x).placeImage .east x

theorem Blk.places_placeBoth (b : Blk) (x : Image) : b.places (b.placeBoth x) :=
  (b.places_placeSections .west x.sections).trans (Blk.places_placeSections _ .east x.sections)

/-- The sections stand in both halves, whose firmware memories lie apart. -/
theorem Blk.byte_placeBoth (b : Blk) {x : Image} (fits : inFirmware x.sections) (clear : x.sections.Pairwise placedApart)
    {c : Nat × List Byte} (hc : c ∈ x.sections) {k : Nat} (hk : k < c.2.length) :
    (b.placeBoth x).byte (c.1 + k) = c.2[k] ∧ (b.placeBoth x).byte (c.1 + 2 ^ 30 + k) = c.2[k] := by
  have west := Blk.byte_placeSections (b := b) (h := .west) clear hc hk
  have east := Blk.byte_placeSections (b := b.placeSections .west x.sections) (h := .east) clear hc hk
  refine ⟨?_, east⟩
  have kept : ∀ d ∈ x.sections, ∀ n < d.2.length, c.1 + k ≠ fwLoc .east d.1 + n := by
    intro d hd n hn
    have mine := fits c hc
    have other := fits d hd
    have size : fwSize = 2 ^ 30 := rfl
    simp only [fwLoc, reduceCtorEq, if_false]
    omega
  exact (Blk.byte_placeSections_other kept).trans west

theorem Blk.byte_placeBoth_other (b : Blk) {x : Image} {j : Nat}
    (out : ∀ c ∈ x.sections, ∀ k < c.2.length, j ≠ c.1 + k ∧ j ≠ c.1 + 2 ^ 30 + k) : (b.placeBoth x).byte j = b.byte j := by
  have east : (b.placeBoth x).byte j = (b.placeSections .west x.sections).byte j :=
    Blk.byte_placeSections_other fun c hc k hk => (out c hc k hk).2
  exact east.trans (Blk.byte_placeSections_other fun c hc k hk => (out c hc k hk).1)

end Sys2Proof.Machine
end

section
/-! SUPPORT. The image that wins at start-up, and meeting point 1 (R20, R85, R93, R94). -/

namespace Sys2Proof.Machine
open Sys2Proof

/-! Meeting point 1 (R20, R85, R94). -/

/-- Start-up with an image in force and meeting point 1 reached in both halves. -/
def Boot.atPoint1 (o : Boot) (x : Image) : Boot :=
  { o with image := some x, state := bsTraining, mpWest := 1, mpEast := 1, verifyLine := [], trainFailed := false }

theorem Blk.boot_point1 (b : Blk) (x : Image) : (b.point1 x).boot = b.boot.atPoint1 x := by
  unfold Blk.point1
  extract_lets b1
  exact Blk.boot_of_plane (c := _) (b := b1) (by simp)

/-- The cores of both halves start from the image, at its entry with the low two bits read 0 (R85; the model's choice,
log 102). -/
theorem Blk.runsAt_point1 (b : Blk) (x : Image) {k : Nat} (hk : k = 0 ∨ k = 256) :
    ((b.point1 x).thread k).RunsAt (pcOf (BitVec.ofNat 64 x.entry)) := by
  unfold Blk.point1 Blk.startHalf
  rw [if_pos rfl, if_neg (by decide : ¬ Half.east = .west)]
  obtain rfl | rfl := hk
  · have west := Blk.runsAt_startThread (((b.setBoot (·.atPoint1 x)).placeImage .west x).placeImage .east x) 0
      (BitVec.ofNat 64 x.entry)
    exact west.agrees (Blk.agrees_startThread _ _ (by decide) (by rw [west.runs]; decide))
  · exact Blk.runsAt_startThread _ 256 _

/-- Start-up goes on with an image from meeting point 1. -/
structure Blk.StartsWith (t : Blk) (x : Image) : Prop where
  state : t.boot.state = 2
  west : t.boot.mpWest = 1
  east : t.boot.mpEast = 1
  image : t.boot.image = some x
  cores : ∀ k, k = 0 ∨ k = 256 → (t.thread k).RunsAt (pcOf (BitVec.ofNat 64 x.entry))

theorem Blk.startsWith_point1 (b : Blk) (x : Image) : (b.point1 x).StartsWith x := by
  have boot := b.boot_point1 x
  exact ⟨congrArg Boot.state boot, congrArg Boot.mpWest boot, congrArg Boot.mpEast boot, congrArg Boot.image boot,
    fun _ => b.runsAt_point1 x⟩

/-! The image that wins (R93). -/

/-- The part of the BOOT block of the port whose image wins. -/
def BootPort.won (p : BootPort) (h : Nat) : BootPort := { p with status := 3, winner := BitVec.ofNat 4 h, area := [] }

/-- What the win of port `h` makes of port `k` (R93). -/
def Blk.winAt (h : Nat) (b : Blk) (k : Nat) : Blk :=
  if k = h then b.updBport k (·.won h)
  else if b.loaderAllowed k && !b.absent k then
    b.updBport k (fun p => { p with status := lsPresent, winner := BitVec.ofNat 4 h, area := [] })
  else b

theorem Blk.imageWins_eq (b : Blk) (h : Nat) (x : Image) : b.imageWins h x =
    (((List.range 16).foldl (Blk.winAt h) b).setBoot
      (fun o => { o with winner := BitVec.ofNat 4 h, imagePort := BitVec.ofNat 4 h })).point1 x := rfl

theorem Blk.bport_winAt (b : Blk) (h k : Nat) :
    (b.winAt h k).bport h = if k = h then (b.bport h).won h else b.bport h := by
  unfold Blk.winAt
  split
  next here => rw [here, Blk.bport_updBport]
  next elsewhere =>
    split
    · exact b.bport_updBport_ne k _ (Ne.symm elsewhere)
    · rfl

theorem Blk.bport_winAt_foldl (h : Nat) (l : List Nat) (b : Blk) :
    (l.foldl (Blk.winAt h) b).bport h = if h ∈ l then (b.bport h).won h else b.bport h := by
  induction l generalizing b with
  | nil => rfl
  | cons k l ih =>
    rw [List.foldl_cons, ih, Blk.bport_winAt]
    by_cases here : k = h
    · simp [here, BootPort.won]
    · simp [here, Ne.symm here]

/-- Only the ports' parts of the BOOT block tell who won. -/
theorem Blk.boot_winAt_foldl (h : Nat) (l : List Nat) (b : Blk) :
    (l.foldl (Blk.winAt h) b).boot = { b.boot with ports := (l.foldl (Blk.winAt h) b).boot.ports } := by
  induction l generalizing b with
  | nil => rfl
  | cons k l ih =>
    have one : (b.winAt h k).boot = { b.boot with ports := (b.winAt h k).boot.ports } := by
      unfold Blk.winAt
      repeat' split
      all_goals rfl
    rw [List.foldl_cons, ih, one]

/-- The winner's port, and start-up with its image. -/
theorem Blk.imageWins_wins (b : Blk) (x : Image) {h : Nat} (hh : h < 16) :
    (b.imageWins h x).bport h = (b.bport h).won h ∧ (b.imageWins h x).boot.retained = b.boot.retained ∧
      (b.imageWins h x).boot.verifyLine = [] ∧ (b.imageWins h x).StartsWith x := by
  have won := Blk.bport_winAt_foldl h (List.range 16) b
  have rest := Blk.boot_winAt_foldl h (List.range 16) b
  rw [if_pos (List.mem_range.2 hh)] at won
  rw [Blk.imageWins_eq]
  generalize (List.range 16).foldl (Blk.winAt h) b = c at won rest
  generalize hd : c.setBoot _ = d
  have boot := d.boot_point1 x
  have kept : d.boot.retained = b.boot.retained := by rw [← hd]; exact (congrArg Boot.retained rest :)
  have ports : d.boot.ports = c.boot.ports := by rw [← hd]; rfl
  refine ⟨?_, (congrArg Boot.retained boot).trans kept, congrArg Boot.verifyLine boot, d.startsWith_point1 x⟩
  rw [← won]
  unfold Blk.bport
  rw [boot, ← ports]
  rfl

end Sys2Proof.Machine
end

section
/-! SUPPORT. The proof of the statement on image loading (R89, R91 to R94, R96). -/

namespace Sys2Proof.Machine
open Sys2Proof

theorem exec_bootVerifyRequest {s : State} {h : PortId} (ho : s.blk.memOpen h.val false = true) :
    exec (.bootVerifyRequest h) s = .next { s with blk := s.blk.verifyRequest h.val } :=
  State.run_of_eq (f := fun b => b.f0Write h.val (·.verifyRequest h.val)) (if_pos ho)

theorem exec_bootLoadDiscard {s : State} {h : PortId} (ho : s.blk.memOpen h.val false = true) :
    exec (.bootLoadDiscard h) s = .next { s with blk := s.blk.loadDiscard h.val } :=
  State.run_of_eq (f := fun b => b.f0Write h.val (·.loadDiscard h.val)) (if_pos ho)

theorem exec_bootVerifyComplete (s : State) (us : W16) :
    exec (.bootVerifyComplete us) s = .next { s with blk := s.blk.verifyComplete us } := rfl

/-! Requests (R92, R93, R96). -/

/-- A verify is refused: the port's status and its reason (R89). -/
def Blk.verifyRefused (b : Blk) (h r : Nat) : Blk := (b.updBport h (fun p => { p with status := lsRefused })).bootRefuse h r 0

theorem Blk.bport_verifyRefused (b : Blk) (h r : Nat) : (b.verifyRefused h r).bport h =
    { b.bport h with status := 5, reason := BitVec.ofNat 16 r, source := 0 } := by
  unfold Blk.verifyRefused
  rw [Blk.bport_bootRefuse, Blk.bport_updBport]
  rfl

/-- A verify goes to the line: it begins at once, or waits for those before it (R93). -/
def Blk.verifyQueued (b : Blk) (h : Nat) : Blk :=
  (b.updBport h (fun p => { p with
    status := if b.boot.verifyLine = [] ∧ b.boot.retained = none then lsBusy else lsQueued })).setBoot (fun o => { o with
      verifyLine := o.verifyLine ++ [h], state := if b.loading then bsVerifying else o.state })

theorem Blk.bport_verifyQueued (b : Blk) (h : Nat) : (b.verifyQueued h).bport h = { b.bport h with
    status := if b.boot.verifyLine = [] ∧ b.boot.retained = none then 2 else 1 } :=
  b.bport_updBport h (fun p => { p with
    status := if b.boot.verifyLine = [] ∧ b.boot.retained = none then lsBusy else lsQueued })

section Request
variable {b : Blk} {h : Nat}

theorem Blk.verifyRequest_verifying (busy : (b.bport h).verifying = true) : b.verifyRequest h = b := if_pos busy

section Idle
variable (idle : (b.bport h).verifying = false)
include idle

/-- Between meeting point 1 and RUNNING a loader's verify ends at once (R93; from TRAINING to FAILED, log 82). -/
theorem Blk.verifyRequest_present (past : b.starting = true) (loader : b.loaderAllowed h = true) :
    b.verifyRequest h = b.updBport h (fun p => { p with status := lsPresent, winner := b.boot.winner }) := by
  unfold Blk.verifyRequest
  rw [if_neg (by simp [idle]), if_pos (by simp [past, loader])]

section Others
variable (other : b.starting = false ∨ b.loaderAllowed h = false)
include other

theorem Blk.verifyRequest_of_fault {r : Nat} (fault : b.loadFault h = some r) : b.verifyRequest h = b.verifyRefused h r := by
  unfold Blk.verifyRequest
  rw [if_neg (by simp [idle]), if_neg (by rcases other with no | no <;> simp [no]), fault]
  rfl

theorem Blk.verifyRequest_activating (may : b.loadFault h = none) (activates : b.boot.state = bsActivating) :
    b.verifyRequest h = b.verifyRefused h 0x0514 := by
  unfold Blk.verifyRequest
  rw [if_neg (by simp [idle]), if_neg (by rcases other with no | no <;> simp [no]), may]
  exact if_pos activates

/-- A verify that a port may ask for goes to the line (R93). -/
theorem Blk.verifyRequest_queued (may : b.loadFault h = none) (still : b.boot.state ≠ bsActivating) :
    b.verifyRequest h = b.verifyQueued h := by
  unfold Blk.verifyRequest Blk.verifyQueued
  rw [if_neg (by simp [idle]), if_neg (by rcases other with no | no <;> simp [no]), may]
  dsimp only
  rw [if_neg still]
  simp only [Bool.and_eq_true, List.isEmpty_iff, Option.isNone_iff_eq_none]

end Others

end Idle

/-- While an activation runs, the owner's port may load by the rules of live activation (R96). -/
theorem Blk.loadFault_activating (activates : b.boot.state = bsActivating) (owner : h = b.ownerPort) :
    b.starting = false ∧ b.loadFault h = none := by
  simp only [Blk.starting, Blk.loadFault, Blk.liveRules, Blk.loading, activates, owner]
  exact ⟨rfl, by simp [chk, bsActivating, bsJig, bsWait, bsVerifying]⟩

/-! Discards (R89). -/

theorem Blk.loadDiscard_held (held : (b.bport h).verifying = true ∨ b.activating h = true) : b.loadDiscard h = b :=
  if_pos (by simpa using held)

/-- A port's part of the BOOT block without its load area and staged image (R89). -/
def BootPort.discarded (p : BootPort) : BootPort := { p with area := [], status := if p.status = 6 then 0 else p.status }

/-- What a discard leaves. -/
structure Blk.Discards (b t : Blk) (h : Nat) : Prop where
  rest : t = { b with boot := t.boot }
  mine : t.bport h = (b.bport h).discarded
  staged : b.boot.stagedPort = h → t.boot.staged = none
  others : ∀ k ≠ h, t.bport k = b.bport k

theorem Blk.loadDiscard_discards (idle : (b.bport h).verifying = false) (still : b.activating h = false) :
    b.Discards (b.loadDiscard h) h := by
  unfold Blk.loadDiscard
  extract_lets p b1
  rw [if_neg (by simp [p, idle, still])]
  have mine : b1.bport h = (b.bport h).discarded := b.bport_updBport h _
  have others : ∀ k ≠ h, b1.bport k = b.bport k := fun k other => b.bport_updBport_ne h _ other
  split
  · exact ⟨rfl, mine, fun _ => rfl, others⟩
  next elsewhere => exact ⟨rfl, mine, fun here => absurd here elsewhere, others⟩

end Request

/-! The end of a verify (R91, R93, R94, R96). -/

/-- The verify in hand, the last of the line, has ended. -/
def Blk.verifyEnded (b : Blk) (h : Nat) (us : W16) : Blk :=
  (b.updBport h (fun p => { p with verifyUs := us })).setBoot (fun o => { o with
    verifyLine := [], state := if b.loading then bsWait else o.state })

theorem Blk.bport_verifyEnded (b : Blk) (h : Nat) (us : W16) :
    (b.verifyEnded h us).bport h = { b.bport h with verifyUs := us } :=
  b.bport_updBport h (fun p => { p with verifyUs := us })

section Complete
variable {b : Blk} {h : Nat} {us : W16}

theorem Blk.verifyNext_last (last : b.boot.verifyLine = []) :
    b.verifyNext = b.setBoot (fun o => { o with state := if b.loading then bsWait else o.state }) := by
  unfold Blk.verifyNext
  rw [last]
  dsimp only
  split <;> rfl

theorem Blk.verifyComplete_idle (fresh : b.boot.retained = none) (none : b.boot.verifyLine = []) : b.verifyComplete us = b := by
  unfold Blk.verifyComplete
  rw [fresh, none]

/-- The verify that begins next leaves what ports were refused for, and the image in force (R93). -/
theorem Blk.verifyNext_keeps (b : Blk) (k : Nat) : (b.verifyNext.bport k).reason = (b.bport k).reason ∧
    b.verifyNext.boot.retained = b.boot.retained ∧ b.verifyNext.boot.image = b.boot.image := by
  unfold Blk.verifyNext
  split
  next n _ _ =>
    refine ⟨?_, rfl, rfl⟩
    by_cases here : k = n
    · rw [here, Blk.bport_updBport]
    · rw [Blk.bport_updBport_ne _ _ _ here]
  next => split <;> exact ⟨rfl, rfl, rfl⟩

/-- A retained image that passes is in force again (R94). -/
theorem Blk.verifyComplete_again {x : Image} (kept : b.boot.retained = some (x, none)) :
    (b.verifyComplete us).boot.retained = none ∧ (b.verifyComplete us).StartsWith x := by
  have wins : b.verifyComplete us = (b.setBoot (fun o => { o with retained := none })).imageWins b.boot.imagePort.toNat x := by
    unfold Blk.verifyComplete
    rw [kept]
    rfl
  obtain ⟨-, retained, -, starts⟩ :=
    Blk.imageWins_wins (b.setBoot (fun o => { o with retained := none })) x b.boot.imagePort.isLt
  rw [wins]
  exact ⟨retained, starts⟩

/-- A retained image that fails is refused with its reason (R94; the model's choice of reasons, log 117). -/
theorem Blk.verifyComplete_lost {x : Image} {r : Nat} (kept : b.boot.retained = some (x, some r)) :
    (b.verifyComplete us).boot.retained = none ∧
      ((b.verifyComplete us).bport b.boot.imagePort.toNat).reason = BitVec.ofNat 16 r ∧
      (b.verifyComplete us).boot.image = b.boot.image := by
  have refused : b.verifyComplete us =
      ((b.setBoot (fun o => { o with retained := none })).verifyRefused b.boot.imagePort.toNat r).verifyNext := by
    unfold Blk.verifyComplete
    rw [kept]
    rfl
  obtain ⟨reason, retained, image⟩ := Blk.verifyNext_keeps
    ((b.setBoot (fun o => { o with retained := none })).verifyRefused b.boot.imagePort.toNat r) b.boot.imagePort.toNat
  rw [refused, reason, retained, image, Blk.bport_verifyRefused]
  exact ⟨rfl, rfl, rfl⟩

section Last
variable (fresh : b.boot.retained = none) (line : b.boot.verifyLine = [h]) (stands : (b.bport h).rst = false)
include fresh line stands

/-- The last verify of the line ends: the image is refused, staged, or it wins. -/
theorem Blk.verifyComplete_last : b.verifyComplete us =
    match imageFault (b.bport h).area false b.mss.fw.imageMinSec with
    | some r => (b.verifyEnded h us).verifyRefused h r
    | none =>
      if b.loading then (b.verifyEnded h us).imageWins h (imageOf (b.bport h).area)
      else if (imageOf (b.bport h).area).live then
        ((b.verifyEnded h us).setBoot (fun o => { o with staged := some (imageOf (b.bport h).area), stagedPort := h })).updBport h
          (fun p => { p with status := lsStaged })
      else (b.verifyEnded h us).verifyRefused h 0x0513 := by
  have ended : ((b.updBport h (fun p => { p with verifyUs := us })).setBoot (fun o => { o with verifyLine := [] })).verifyNext =
      b.verifyEnded h us := Blk.verifyNext_last rfl
  unfold Blk.verifyComplete
  rw [fresh, line]
  dsimp only
  rw [ended, stands]
  generalize b.verifyEnded h us = c
  cases imageFault (b.bport h).area false b.mss.fw.imageMinSec with
  | some r => rfl
  | none =>
    cases b.loading with
    | true => exact rfl
    | false =>
      generalize imageOf (b.bport h).area = x
      cases x.live <;>
        simp only [Bool.not_false, Bool.not_true, Bool.and_true, Bool.and_false, if_true, if_false, Bool.false_eq_true,
          Blk.verifyRefused]

/-- An image that fails a check is refused; with none left to verify at start-up, the part waits again (R91, R93). -/
theorem Blk.verifyComplete_refuses {r : Nat} (fault : imageFault (b.bport h).area false b.mss.fw.imageMinSec = some r) :
    (b.verifyComplete us).boot.verifyLine = [] ∧ (b.verifyComplete us).bport h =
      { b.bport h with status := 5, reason := BitVec.ofNat 16 r, source := 0, verifyUs := us } ∧
    (b.verifyComplete us).boot.state = if b.loading then 0 else b.boot.state := by
  rw [Blk.verifyComplete_last fresh line stands, fault]
  refine ⟨rfl, ?_, rfl⟩
  rw [Blk.bport_verifyRefused, Blk.bport_verifyEnded]

section Passes
variable (passes : imageFault (b.bport h).area false b.mss.fw.imageMinSec = none)
include passes

/-- At start-up an image that passes wins (R93). -/
theorem Blk.verifyComplete_wins (loads : b.loading = true) (hh : h < 16) : (b.verifyComplete us).boot.verifyLine = [] ∧
    (b.verifyComplete us).bport h = ({ b.bport h with verifyUs := us } : BootPort).won h ∧
      (b.verifyComplete us).StartsWith (imageOf (b.bport h).area) := by
  rw [Blk.verifyComplete_last fresh line stands, passes]
  dsimp only
  rw [if_pos loads]
  obtain ⟨won, -, done, starts⟩ := Blk.imageWins_wins (b.verifyEnded h us) (imageOf (b.bport h).area) hh
  rw [Blk.bport_verifyEnded] at won
  exact ⟨done, won, starts⟩

section Live
variable (past : b.loading = false)
include past

/-- After meeting point 1 an image that may be activated live is staged (R96). -/
theorem Blk.verifyComplete_stages (live : (imageOf (b.bport h).area).live = true) :
    (b.verifyComplete us).boot.verifyLine = [] ∧ (b.verifyComplete us).boot.state = b.boot.state ∧
      (b.verifyComplete us).bport h = { b.bport h with status := 6, verifyUs := us } ∧
      (b.verifyComplete us).boot.staged = some (imageOf (b.bport h).area) ∧ (b.verifyComplete us).boot.stagedPort = h := by
  rw [Blk.verifyComplete_last fresh line stands, passes]
  dsimp only
  rw [if_neg (by simp [past]), if_pos live]
  have state : (b.verifyEnded h us).boot.state = b.boot.state := if_neg (by simp [past])
  refine ⟨rfl, state, ?_, rfl, rfl⟩
  rw [Blk.bport_updBport]
  exact congrArg (fun p : BootPort => { p with status := 6 }) (b.bport_verifyEnded h us)

/-- One that may not be is refused (R96). -/
theorem Blk.verifyComplete_notLive (live : (imageOf (b.bport h).area).live = false) :
    (b.verifyComplete us).boot.verifyLine = [] ∧ (b.verifyComplete us).boot.state = b.boot.state ∧
      (b.verifyComplete us).bport h = { b.bport h with status := 5, reason := 0x0513, source := 0, verifyUs := us } ∧
      (b.verifyComplete us).boot.staged = b.boot.staged := by
  rw [Blk.verifyComplete_last fresh line stands, passes]
  dsimp only
  rw [if_neg (by simp [past]), if_neg (by simp [live])]
  have state : (b.verifyEnded h us).boot.state = b.boot.state := if_neg (by simp [past])
  refine ⟨rfl, state, ?_, rfl⟩
  rw [Blk.bport_verifyRefused, Blk.bport_verifyEnded]
  rfl

end Live

end Passes

end Last

end Complete


/-- A verify that is refused leaves the state of start-up and the line. -/
theorem Blk.verifyRefused_refuses (b : Blk) (h r : Nat) : (b.verifyRefused h r).bport h =
      { b.bport h with status := 5, reason := BitVec.ofNat 16 r, source := 0 } ∧
    (b.verifyRefused h r).boot.state = b.boot.state ∧ (b.verifyRefused h r).boot.verifyLine = b.boot.verifyLine :=
  ⟨b.bport_verifyRefused h r, rfl, rfl⟩

/-- Settles O20: each command by the row of the BOOT block that it comes to. -/
theorem imageLoading : Obligations.ImageLoading := by
  unfold Obligations.ImageLoading
  intro s h us r x b p refused starts
  have toStarts : ∀ {c : Blk} {x : Image}, c.StartsWith x → starts { s with blk := c } x := fun w =>
    ⟨w.state, w.west, w.east, w.image, fun k hk => ⟨(w.cores k hk).runs, (w.cores k hk).system, (w.cores k hk).pc⟩⟩
  refine ⟨fun ho => ?_, fun fresh none => ?_, fun fresh line stands => ?_, fun kept => ?_, fun kept => ?_⟩
  · rw [exec_bootVerifyRequest ho, exec_bootLoadDiscard ho]
    refine ⟨fun busy => ?_, fun idle past loader => ⟨_, rfl, ?_⟩, fun idle other fault => ⟨_, rfl, ?_⟩,
      fun idle activates owner => ⟨_, rfl, ?_⟩, fun idle other may still => ⟨_, rfl, ?_⟩, fun held => ?_,
      fun idle still => ⟨_, rfl, ?_⟩⟩
    · rw [Blk.verifyRequest_verifying busy]
    · rw [Blk.verifyRequest_present idle past loader]
      exact ⟨rfl, Blk.bport_updBport _ _ _, rfl⟩
    · rw [Blk.verifyRequest_of_fault idle other fault]
      exact Blk.verifyRefused_refuses _ _ _
    · obtain ⟨early, may⟩ := Blk.loadFault_activating activates owner
      rw [Blk.verifyRequest_activating idle (.inl early) may activates]
      exact Blk.verifyRefused_refuses _ _ _
    · rw [Blk.verifyRequest_queued idle other may still]
      exact ⟨rfl, b.bport_verifyQueued h.val, rfl, rfl⟩
    · rw [Blk.loadDiscard_held held]
    · obtain ⟨rest, mine, staged, others⟩ := Blk.loadDiscard_discards idle still
      exact ⟨rest, mine, staged, others⟩
  · rw [exec_bootVerifyComplete, Blk.verifyComplete_idle fresh none]
  · refine ⟨_, exec_bootVerifyComplete s us, ?_⟩
    cases fault : imageFault p.area false b.mss.fw.imageMinSec with
    | some r =>
      dsimp only
      exact Blk.verifyComplete_refuses (b := b) (us := us) fresh line stands fault
    | none =>
      dsimp only
      cases loads : b.loading with
      | true =>
        obtain ⟨done, won, again⟩ := Blk.verifyComplete_wins (b := b) (us := us) fresh line stands fault loads h.isLt
        refine ⟨done, ?_⟩
        rw [if_pos rfl, won]
        exact ⟨rfl, rfl, rfl, rfl, toStarts again⟩
      | false =>
        rw [if_neg Bool.false_ne_true]
        cases live : (imageOf p.area).live with
        | true =>
          exact Blk.verifyComplete_stages (b := b) (us := us) fresh line stands fault loads live
        | false =>
          exact Blk.verifyComplete_notLive (b := b) (us := us) fresh line stands fault loads live
  · obtain ⟨retained, again⟩ := Blk.verifyComplete_again (us := us) kept
    refine ⟨_, exec_bootVerifyComplete s us, retained, ?_⟩
    exact toStarts again
  · exact ⟨_, exec_bootVerifyComplete s us, Blk.verifyComplete_lost kept⟩

end Sys2Proof.Machine
end

section
/-! SUPPORT. The proof of the statement on live activation (R89, R97, R98). -/

namespace Sys2Proof.Machine
open Sys2Proof

theorem exec_liveActivate {s : State} {h : PortId} (ho : s.blk.memOpen h.val false = true) :
    exec (.liveActivate h) s = .next { s with blk := s.blk.activateWrite h.val } :=
  State.run_of_eq (f := fun b => b.f0Write h.val (·.activateWrite h.val)) (if_pos ho)

theorem exec_activationImagePlaced (s : State) : exec .activationImagePlaced s = .next { s with blk := s.blk.imagePlaced } := rfl
theorem exec_activationThreadMove (s : State) (h : Half) :
    exec (.activationThreadMove h) s = .next { s with blk := s.blk.threadMove h } := rfl
theorem exec_activationFinish (s : State) :
    exec .activationFinish s = .next { s with blk := s.blk.activationEnd.settleResets } := rfl

/-! The command (R96 to R98). -/

section Command
variable {b : Blk} {h : Nat}

/-- An activation begins with the staged image (R97). -/
def Blk.activationBegun (b : Blk) (x : Image) : Blk :=
  (b.setBoot (fun o => { o with
    state := bsActivating, staged := none, act := some { port := o.stagedPort, phase := 0, moved := [], image := x } })).updBport
    b.boot.stagedPort (fun p => { p with status := lsActivating })

theorem Blk.activate_begins {x : Image} (runs : b.boot.state = bsRunning) (staged : b.boot.staged = some x) :
    b.activate = .ok (b.activationBegun x) := by
  unfold Blk.activate
  rw [if_neg (by rw [runs]; decide), if_neg (by rw [runs]; decide), staged]
  exact if_neg (not_not_intro runs)

theorem Blk.activate_jig (jig : b.boot.state = bsJig) : b.activate = .error 0x0515 := if_pos jig

theorem Blk.activate_twice (activates : b.boot.state = bsActivating) : b.activate = .error 0x0514 := by
  unfold Blk.activate
  rw [if_neg (by rw [activates]; decide), if_pos activates]

theorem Blk.activate_unstaged (noJig : b.boot.state ≠ bsJig) (still : b.boot.state ≠ bsActivating) (none : b.boot.staged = none) :
    b.activate = .error 0x0513 := by
  unfold Blk.activate
  rw [if_neg noJig, if_neg still, none]

/-- The command of a port is refused with a reason, and nothing of the activation changes (R89). -/
structure Blk.TurnsDown (b t : Blk) (h r : Nat) : Prop where
  reason : (t.bport h).reason = BitVec.ofNat 16 r
  source : (t.bport h).source = 2
  act : t.boot.act = b.boot.act
  state : t.boot.state = b.boot.state
  staged : t.boot.staged = b.boot.staged

theorem Blk.turnsDown_bootRefuse (b : Blk) (h r : Nat) (f : BootPort → BootPort) :
    b.TurnsDown ((b.updBport h f).bootRefuse h r 2) h r := by
  refine ⟨?_, ?_, rfl, rfl, rfl⟩ <;> rw [Blk.bport_bootRefuse]
  rfl

theorem Blk.activateWrite_begins {c : Blk} (owner : h = b.ownerPort) (begins : b.activate = .ok c) : b.activateWrite h = c := by
  unfold Blk.activateWrite
  rw [if_neg (not_not_intro owner), begins]

theorem Blk.activateWrite_other (other : h ≠ b.ownerPort) : b.TurnsDown (b.activateWrite h) h 0x0210 := by
  unfold Blk.activateWrite
  rw [if_pos other]
  exact b.turnsDown_bootRefuse h _ _

theorem Blk.activateWrite_refused {r : Nat} (owner : h = b.ownerPort) (refused : b.activate = .error r) :
    b.TurnsDown (b.activateWrite h) h r := by
  unfold Blk.activateWrite
  rw [if_neg (not_not_intro owner), refused]
  exact b.turnsDown_bootRefuse h _ _

end Command

/-! The image placed (R97, step 2). -/

theorem Blk.inPhase_pos {b : Blk} {a : Activation} {n : Nat} {f : Activation → Blk} (act : b.boot.act = some a)
    (phase : a.phase = n) : b.inPhase n f = f a := by
  unfold Blk.inPhase
  rw [act]
  exact if_pos phase

theorem Blk.imagePlaced_places {b : Blk} {a : Activation} (act : b.boot.act = some a) (phase : a.phase = 0) :
    b.imagePlaced = (b.placeBoth a.image).setBoot (fun o => { o with act := some { a with phase := 1 } }) :=
  Blk.inPhase_pos act phase

/-! The threads moved (R97, step 3). -/

/-- The first thread of a half that a predicate holds of. -/
theorem find?_half {p : Nat → Bool} {h : Half} {u : Nat} (mine : u / 256 = h.code) (hu : p u = true)
    (before : ∀ v < u, v / 256 = h.code → p v = false) :
    ((List.range 256).map (· + 256 * h.code)).find? p = some u := by
  have place : u % 256 + 256 * h.code = u := by omega
  have first : (List.range 256).find? (p ∘ (· + 256 * h.code)) = some (u % 256) := by
    rw [List.find?_range_eq_some]
    refine ⟨?_, ?_, fun v hv => ?_⟩
    · rw [Function.comp_apply, place]; exact hu
    · exact List.mem_range.2 (Nat.mod_lt _ (by decide))
    · rw [Function.comp_apply, before (v + 256 * h.code) (by omega) (by omega)]
      rfl
  rw [List.find?_map, first, Option.map_some, place]

/-- The next thread of a half to be moved: the lowest that is left, the supervisor's after all others (R97). -/
theorem Blk.find?_moveOrder {b : Blk} {h : Half} {u : Nat} {moved : List Nat} (mine : u / 256 = h.code) (left : u ∉ moved)
    (next : (u ≠ (b.fq h).sup.toNat ∧ ∀ v < u, v / 256 = h.code → v ∈ moved ∨ v = (b.fq h).sup.toNat) ∨
      (u = (b.fq h).sup.toNat ∧ ∀ v, v / 256 = h.code → v ∈ moved ∨ v = (b.fq h).sup.toNat)) :
    (b.moveOrder h).find? (fun t => !moved.contains t) = some u := by
  unfold Blk.moveOrder
  extract_lets ts s
  simp only [List.find?_append, List.find?_filter, Bool.decide_and, Bool.decide_eq_true]
  obtain ⟨other, before⟩ | ⟨last, others⟩ := next
  · have found : ts.find? (fun t => (t != s) && !moved.contains t) = some u := by
      refine find?_half mine (by simp [s, other, left]) fun v hv half => ?_
      rcases before v hv half with done | sup
      · simp [done]
      · simp [s, sup]
    rw [found]
    rfl
  · have all : ts.find? (fun t => (t != s) && !moved.contains t) = none := by
      refine List.find?_eq_none.2 fun v hv => ?_
      obtain ⟨k, hk, rfl⟩ := List.mem_map.1 hv
      have small := List.mem_range.1 hk
      rcases others (k + 256 * h.code) (by omega) with done | sup
      · simp [done]
      · simp [s, sup]
    have found : ts.find? (fun t => (t == s) && !moved.contains t) = some u := by
      refine find?_half mine (by simpa [s, ← last] using left) fun v hv _ => ?_
      have below : v ≠ s := by omega
      simp [below]
    rw [all, found]
    rfl

section Move
variable {b : Blk} {a : Activation} {h : Half} {u : Nat}

theorem Blk.threadMove_moves (act : b.boot.act = some a) (phase : a.phase = 1)
    (first : (b.moveOrder h).find? (fun t => !a.moved.contains t) = some u) :
    b.threadMove h = (b.moveThread u a.image).setBoot (fun o => { o with act := some { a with
      moved := u :: a.moved, phase := if a.moved.length = 511 then 2 else 1 } }) := by
  unfold Blk.threadMove
  rw [Blk.inPhase_pos act phase]
  dsimp only
  rw [first]
  simp only [List.length_cons, Nat.reduceEqDiff]

theorem Thread.movedTo_awake {y : Thread} {x : Image} (awake : y.st ≠ .waiting) : y.movedTo x = { y with
    pc := pcOf (BitVec.ofNat 64 x.migrate), sr := y.movedSr, wt := { y.wt with moved := y.wt.moved || y.wt.waitResume } } := by
  simp [Thread.movedTo, awake]

/-- What the move of a thread leaves of start-up and of the threads (R97, R98). -/
structure Blk.Moves (b t : Blk) (a : Activation) (u : Nat) : Prop where
  boot : t.boot = { b.boot with act := some { a with moved := u :: a.moved, phase := if a.moved.length = 511 then 2 else 1 } }
  others : ∀ v ≠ u, t.thread v = b.thread v
  unstarted : (b.thread u).started = false → t.thread u = b.thread u
  entry : (b.thread u).started = true → (t.thread u).pc = pcOf (BitVec.ofNat 64 a.image.migrate)
  sr : (b.thread u).started = true → (t.thread u).sr = (b.thread u).movedSr
  awake : (b.thread u).started = true → (b.thread u).st ≠ .waiting → t.thread u = (b.thread u).movedTo a.image

theorem Blk.moves_threadMove (act : b.boot.act = some a) (phase : a.phase = 1)
    (first : (b.moveOrder h).find? (fun t => !a.moved.contains t) = some u) : b.Moves (b.threadMove h) a u := by
  rw [Blk.threadMove_moves act phase first]
  have rest := b.moveThread_rest u a.image
  refine ⟨?_, fun v other => b.thread_moveThread_other a.image other, fun idle => ?_,
    fun started => (Blk.thread_moveThread a.image started).1, fun started => (Blk.thread_moveThread a.image started).2,
    fun started awake => ?_⟩
  · exact congrArg (fun o : Boot => { o with act := some { a with
      moved := u :: a.moved, phase := if a.moved.length = 511 then 2 else 1 } }) (congrArg Blk.boot rest :)
  · rw [Blk.moveThread_unstarted idle]
    rfl
  · rw [Blk.moveThread_awake started awake]
    exact b.thread_updThread u _

end Move

/-! The end (R97, step 5). -/

/-- The two blocks agree in start-up, the MSS firmware and the responses that wait. -/
structure Blk.notes (b c : Blk) : Prop where
  boot : c.boot = b.boot
  fw : c.mss.fw = b.mss.fw
  resetting : c.mss.resetting = b.mss.resetting

theorem Blk.notes.trans {b c d : Blk} (h : b.notes c) (k : c.notes d) : b.notes d :=
  ⟨k.boot.trans h.boot, k.fw.trans h.fw, k.resetting.trans h.resetting⟩

theorem Blk.notes.bport {b c : Blk} (h : b.notes c) (k : Nat) : c.bport k = b.bport k :=
  congrArg (fun o : Boot => Tab.get ({} : BootPort) o.ports k) h.boot

theorem Blk.notes_reel (b : Blk) (type origin : Nat) (fields : List Nat) : b.notes (b.reel type origin fields) := by
  unfold Blk.reel Blk.reelRaw
  dsimp only
  split <;> exact ⟨rfl, rfl, rfl⟩

theorem Blk.notes_mssEvent (b : Blk) (type index reason value detail : Nat) :
    b.notes (b.mssEvent type index reason value detail) := by
  unfold Blk.mssEvent
  split
  · rw [(b.reports_devEvent type index reason value detail).rest]
    exact ⟨rfl, rfl, rfl⟩
  · exact ⟨rfl, rfl, rfl⟩

/-- What the end of an activation leaves (R97, step 5). -/
structure Blk.Activated (b t : Blk) (a : Activation) : Prop where
  act : t.boot.act = none
  state : t.boot.state = 5
  floor : t.mss.fw.imageMinSec = max b.mss.fw.imageMinSec a.image.secVersion
  status : (t.bport a.port).status = 8
  area : (t.bport a.port).area = []
  resetting : t.mss.resetting = b.mss.resetting

theorem Blk.activated_activationFinish {b : Blk} {a : Activation} (act : b.boot.act = some a) (phase : a.phase = 3) :
    b.Activated b.activationFinish a := by
  unfold Blk.activationFinish
  rw [Blk.inPhase_pos act phase]
  extract_lets b1 mss fw b2 b3
  have told := (b3.notes_mssEvent 0x0013 0 0 0 0).trans (Blk.notes_reel _ 0x000B 0 [a.image.version, a.image.secVersion])
  have mine := (told.bport a.port).trans (b2.bport_updBport a.port _)
  refine ⟨congrArg Boot.act told.boot, congrArg Boot.state told.boot, congrArg MssFw.imageMinSec told.fw, ?_, ?_, told.resetting⟩
  · rw [mine]
    rfl
  · rw [mine]

/-- With no reset of a half held, nothing follows the end (R98). -/
theorem Blk.activationEnd_free {b : Blk} {a : Activation} (act : b.boot.act = some a) (phase : a.phase = 3)
    (free : b.boot.heldReset = []) : b.activationEnd = b.activationFinish.setBoot (fun o => { o with heldReset := [] }) := by
  unfold Blk.activationEnd
  rw [act, free]
  exact if_pos (congrArg some phase)

theorem Blk.activated_activationEnd {b : Blk} {a : Activation} (act : b.boot.act = some a) (phase : a.phase = 3)
    (free : b.boot.heldReset = []) (quiet : b.mss.resetting = []) : b.Activated b.activationEnd.settleResets a := by
  obtain ⟨none, state, floor, status, area, resetting⟩ := Blk.activated_activationFinish act phase
  have ends : b.Activated (b.activationFinish.setBoot (fun o => { o with heldReset := [] })) a :=
    ⟨none, state, floor, status, area, resetting⟩
  rwa [Blk.activationEnd_free act phase free, Blk.settleResets_none (ends.resetting.trans quiet)]

/-- Settles O22: the command by what it finds staged, then the steps of an activation in their order. -/
theorem liveActivation : Obligations.LiveActivation := by
  unfold Obligations.LiveActivation
  intro s h x a h2 u b y sup turned
  have toTurned : ∀ {r : Nat}, s.blk.memOpen h.val false = true → b.TurnsDown (b.activateWrite h.val) h.val r → turned r :=
    fun ho d => ⟨_, exec_liveActivate ho, d.reason, d.source, d.act, d.state, d.staged⟩
  refine ⟨fun ho => ⟨fun owner runs staged => ?_, fun other => ?_, fun owner jig => ?_, fun owner activates => ?_,
    fun owner noJig still none => ?_⟩, fun act phase fits clear => ?_, fun act phase mine left next => ?_,
    fun act phase free quiet => ?_⟩
  · refine ⟨_, exec_liveActivate ho, ?_⟩
    rw [Blk.activateWrite_begins owner (Blk.activate_begins runs staged)]
    exact ⟨rfl, rfl, rfl, rfl, congrArg BootPort.status (Blk.bport_updBport _ _ _)⟩
  · exact toTurned ho (Blk.activateWrite_other other)
  · exact toTurned ho (Blk.activateWrite_refused owner (Blk.activate_jig jig))
  · exact toTurned ho (Blk.activateWrite_refused owner (Blk.activate_twice activates))
  · exact toTurned ho (Blk.activateWrite_refused owner (Blk.activate_unstaged noJig still none))
  · refine ⟨_, exec_activationImagePlaced s, ?_⟩
    rw [Blk.imagePlaced_places act phase]
    have rest := (b.places_placeBoth a.image).rest
    refine ⟨?_, ?_, fun c hc k hk => ?_, fun z out => ?_⟩
    · exact congrArg (fun o : Boot => { o with act := some { a with phase := 1 } }) (congrArg Blk.boot rest :)
    · exact congrArg (fun c : Blk => { c with
        boot := { (b.placeBoth a.image).boot with act := some { a with phase := 1 } } }) rest
    · obtain ⟨west, east⟩ := b.byte_placeBoth fits clear hc hk
      rw [List.getElem?_eq_getElem hk]
      exact ⟨congrArg some west.symm, congrArg some east.symm⟩
    · exact b.byte_placeBoth_other out
  · obtain ⟨boot, others, unstarted, entry, sr, awake⟩ := Blk.moves_threadMove act phase (Blk.find?_moveOrder mine left next)
    refine ⟨_, exec_activationThreadMove s h2, boot, others, unstarted, fun started => ⟨entry started, sr started, fun rest => ?_⟩⟩
    exact (awake started rest).trans (Thread.movedTo_awake rest)
  · refine ⟨_, exec_activationFinish s, ?_⟩
    obtain ⟨none, state, floor, status, area, -⟩ := Blk.activated_activationEnd act phase free quiet
    exact ⟨none, state, floor, status, area⟩

end Sys2Proof.Machine
end

section
/-! SUPPORT. The proof of the statement on power-up and Jig mode (R85, R87, R99, R100). -/

namespace Sys2Proof.Machine
open Sys2Proof

theorem exec_powerUp (s : State) (boot owner : BitVec 4) (any jig : Bool) :
    exec (.powerUp boot owner any jig) s = .next { s with blk := s.blk.powerUp boot owner any jig } := rfl
theorem exec_jigEntry (s : State) : exec .jigEntry s = .next { s with blk := s.blk.jigEntry } := rfl
theorem exec_jigTestDone (s : State) (item : JigItem) (cores : List CoreId) (units : List (PipeId × Fin 32))
    (others : List FailedUnit) : exec (.jigTestDone item cores units others) s =
      .next { s with blk := s.blk.jigDone item (jigFails cores units others) } := rfl

/-! Power-up (R85, R87). -/

/-- The bank that runs is the one on trial, else the active one, else the other, whichever verifies first (R85, R473). -/
theorem MssFw.nextBank_some {f : MssFw} {bank : Bool} (picks : (f.trialNext = true ∧ bank = !f.active) ∨
    (f.trialNext = false ∧ f.valid f.active = true ∧ bank = f.active) ∨
    (f.trialNext = false ∧ f.valid f.active = false ∧ f.valid (!f.active) = true ∧ bank = !f.active)) :
    f.nextBank = some bank := by
  unfold MssFw.nextBank
  rcases picks with ⟨trial, rfl⟩ | ⟨calm, verifies, rfl⟩ | ⟨calm, fails, verifies, rfl⟩
  · rw [if_pos trial]
  · rw [if_neg (by simp [calm]), if_pos verifies]
  · rw [if_neg (by simp [calm]), if_neg (by simp [fails]), if_pos verifies]

theorem MssFw.nextBank_none {f : MssFw} (noA : f.validA = false) (noB : f.validB = false) (calm : f.trialNext = false) :
    f.nextBank = none := by
  have neither : ∀ k, f.valid k = false := by
    intro k
    unfold MssFw.valid
    split <;> assumption
  unfold MssFw.nextBank
  rw [if_neg (by simp [calm]), if_neg (by simp [neither]), if_neg (by simp [neither])]

/-- ROM images are built at every port (R85). -/
theorem rom_foldl (l : List Nat) (t : Tab HostPort) {h : Nat} (built : h ∈ l ∨ (t.get {} h).rom = true) :
    ((l.foldl (fun t k => t.upd {} k (fun p => { p with rom := true })) t).get {} h).rom = true := by
  induction l generalizing t with
  | nil => exact built.resolve_left List.not_mem_nil
  | cons k l ih =>
    refine ih _ ?_
    by_cases here : h = k
    · rw [here, Tab.get_upd_same]
      exact .inr rfl
    · rw [Tab.get_upd_other _ _ _ here]
      exact built.imp_left fun listed => (List.mem_cons.1 listed).resolve_left here

theorem Blk.rom_railsUp (b : Blk) {h : Nat} (hh : h < 16) : (b.railsUp.port h).rom = true := by
  unfold Blk.railsUp Blk.port
  dsimp only
  exact rom_foldl (List.range 16) b.ports (.inl (List.mem_range.2 hh))

theorem Blk.port_reel (b : Blk) (type origin : Nat) (fields : List Nat) (h : Nat) :
    (b.reel type origin fields).port h = b.port h := by
  unfold Blk.reel Blk.reelRaw
  dsimp only
  split <;> rfl

/-- The straps as sampled (R507). -/
def Boot.strapped (o : Boot) (boot owner : BitVec 4) (any jig : Bool) : Boot :=
  { o with strapBoot := boot, strapOwner := owner, strapAny := any, strapJig := jig, jig := jig }

/-- What the rails leave as they come up (R85): start-up and the firmware stand. -/
structure Blk.RailsUp (b t : Blk) : Prop where
  boot : t.boot = b.boot
  fw : t.mss.fw = b.mss.fw
  elec : t.elec = b.elec
  powered : t.mss.powered = true
  clock : t.clk.on = true
  supply : ∀ d < 8, (Tab.get ({} : SpdDom) t.spd.doms d).supplyMv = BitVec.ofNat 12 (Config.nominalMv d)
  rom : ∀ h < 16, (t.port h).rom = true

theorem Blk.railsUp_keeps (b : Blk) : b.railsUp.boot = b.boot ∧ b.railsUp.mss.fw = b.mss.fw ∧ b.railsUp.elec = b.elec := by
  unfold Blk.railsUp
  exact ⟨rfl, rfl, rfl⟩

/-- The rails come up, and a record is written. -/
theorem Blk.railsUp_reel (b : Blk) (type origin : Nat) (fields : List Nat) : b.RailsUp (b.railsUp.reel type origin fields) := by
  have told := b.railsUp.notes_reel type origin fields
  have kept := b.railsUp.serves_reel type origin fields
  obtain ⟨boot, fw, elec⟩ := b.railsUp_keeps
  refine ⟨told.boot.trans boot, told.fw.trans fw, kept.elec.trans elec, kept.powered, (congrArg Clock.on kept.clk :),
    fun d hd => ?_, fun h hh => ?_⟩
  · rw [kept.spd]
    exact supplyMv_railsUp _ _ (.inl (List.mem_range.2 hd))
  · rw [Blk.port_reel]
    exact b.rom_railsUp hh

/-- The block as VIN reaches 9 V, with the straps sampled (R85, R496). -/
def Blk.vinUp (b : Blk) (boot owner : BitVec 4) (any jig : Bool) : Blk :=
  { b with elec := { b.elec with vin := true, warnDriven := true }, boot := b.boot.strapped boot owner any jig }

/-- The MSS with its firmware in a state. -/
def Blk.withFw (b : Blk) (f : MssFw) : Blk := { b with mss := { b.mss with fw := f } }

section PowerUp
variable {b : Blk} {boot owner : BitVec 4} {any jig : Bool} (dark : b.elec.vin = false)
include dark

/-- With no bank that verifies the MSS stays in its ROM, and the rails stay down (R87). -/
theorem Blk.powerUp_noBank (none : b.mss.fw.nextBank = none) : b.powerUp boot owner any jig =
    (b.vinUp boot owner any jig).withFw { b.mss.fw with up := false, inRom := true } := by
  unfold Blk.powerUp
  rw [if_neg (by simp [dark])]
  dsimp only
  rw [none]
  rfl

/-- A bank that verifies runs, the rails come up, and the BOOT record is written (R85). -/
theorem Blk.powerUp_bank {bank : Bool} (runs : b.mss.fw.nextBank = some bank) : b.powerUp boot owner any jig =
    (((b.vinUp boot owner any jig).withFw { b.mss.fw with up := true, inRom := false, running := bank }).railsUp).reel 1 0
      [if bank then 1 else 0, b.mss.fw.version bank, boot.toNat, owner.toNat, if any then 1 else 0, if jig then 1 else 0] := by
  unfold Blk.powerUp
  rw [if_neg (by simp [dark])]
  dsimp only
  rw [runs]
  rfl

end PowerUp

/-! Jig mode (R99, R100). -/

section Jig
variable {b : Blk}

theorem Blk.jigEntry_enters (jig : b.boot.jig = true) (powered : b.mss.powered = true) (out : b.boot.state ≠ 8) :
    b.jigEntry = { b with boot := { b.boot with state := 8, jigLeft := List.range 8, jigFailed := [] } } :=
  if_pos (by simpa [jig, powered, bsJig] using out)

theorem Blk.jigEntry_none (none : b.boot.jig = false ∨ b.mss.powered = false) : b.jigEntry = b :=
  if_neg (by rcases none with no | no <;> simp [no])

/-- The units of a test, none or one: those that no spare covers (R100). -/
theorem Blk.unitsFail_few {fails : List FailedUnit} {u : FailedUnit} (few : fails = [] ∨ fails = [u]) :
    (b.unitsFail fails).1.boot = b.boot ∧ (b.unitsFail fails).2 = if (b.spareFor u).isSome then [] else fails := by
  rcases few with rfl | rfl
  · exact ⟨rfl, by simp [Blk.unitsFail]⟩
  · rw [Blk.unitsFail_one]
    exact ⟨b.boot_unitFails u, rfl⟩

theorem Blk.boot_eraseSlots (ks : List Nat) (b : Blk) : (ks.foldl Blk.eraseSlot b).boot = b.boot :=
  Blk.boot_foldl (fun b k => Blk.boot_of_plane (b.plane_eraseSlot k)) ks b

theorem Blk.logs.slot {b c : Blk} (h : b.logs c) (k : Nat) : c.slot k = b.slot k :=
  congrArg (fun s : Keys => Tab.get ({} : Slot) s.slots k) h.keys

/-- A test that ends is done; what no spare covers is kept; the test of the arrays erases every key (R100). -/
structure Blk.JigDone (b t : Blk) (i : JigItem) (left : List FailedUnit) : Prop where
  boot : t.boot = { b.boot with jigLeft := b.boot.jigLeft.filter (· ≠ jigCode i), jigFailed := b.boot.jigFailed ++ left }
  slots : i = .arrays → ∀ k, (t.slot k).wiped

theorem Blk.jigDone_done {i : JigItem} {fails : List FailedUnit} (runs : jigCode i ∈ b.boot.jigLeft)
    (kept : (b.unitsFail fails).1.boot = b.boot) : b.JigDone (b.jigDone i fails) i (b.unitsFail fails).2 := by
  unfold Blk.jigDone
  rw [if_neg (by simp [runs])]
  generalize b.unitsFail fails = tested at kept ⊢
  obtain ⟨b1, left⟩ := tested
  dsimp -zeta only at kept ⊢
  extract_lets b2 b3
  have boot : b3.boot = b2.boot := by
    unfold b3
    split
    · exact b2.boot_eraseSlots _
    · rfl
  have erased : i = .arrays → ∀ k, (b3.slot k).wiped := by
    rintro rfl k
    obtain ⟨-, -, wiped⟩ := Blk.eraseSlots
      ((b2.keys.slots.filter (fun s => s.2.cur.isSome || s.2.old.isSome || s.2.next.isSome)).map (·.1)) b2
    exact wiped k (b2.slot_held k)
  have told := b3.logs_reel 3 0 ([jigCode i, if fails.isEmpty then 1 else 0] ++ fails.map unitNumber)
  refine ⟨(told.boot.trans boot).trans ?_, fun arrays k => ?_⟩
  · have sampled : b2.boot = { b1.boot with
        jigLeft := b1.boot.jigLeft.filter (· != jigCode i), jigFailed := b1.boot.jigFailed ++ left } := rfl
    rw [sampled, kept]
    have tests : b.boot.jigLeft.filter (· != jigCode i) = b.boot.jigLeft.filter (· ≠ jigCode i) :=
      List.filter_congr fun n _ => by by_cases same : n = jigCode i <;> simp [same]
    rw [tests]
  · rw [told.slot]
    exact erased arrays k

end Jig

/-- Settles O23: each command by the branch that it comes to. -/
theorem powerUpAndJig : Obligations.PowerUpAndJig := by
  unfold Obligations.PowerUpAndJig
  intro s boot owner any jig bank item u b f valid straps
  refine ⟨fun dark => ⟨fun noA noB calm => ?_, fun picks => ?_⟩, fun jig powered out => ?_, fun none => ?_,
    fun runs cores units others => ?_⟩
  · rw [exec_powerUp, Blk.powerUp_noBank dark (MssFw.nextBank_none noA noB calm)]
    exact ⟨_, rfl, rfl, rfl, rfl, rfl, rfl⟩
  · rw [exec_powerUp, Blk.powerUp_bank dark (MssFw.nextBank_some picks)]
    obtain ⟨strapped, fw, elec, powered, clock, supply, rom⟩ := Blk.railsUp_reel ((b.vinUp boot owner any jig).withFw
      { f with up := true, inRom := false, running := bank }) 1 0 [if bank then 1 else 0, f.version bank, boot.toNat,
        owner.toNat, if any then 1 else 0, if jig then 1 else 0]
    exact ⟨_, rfl, strapped.symm, (congrArg MssFw.up fw :), (congrArg MssFw.running fw :), powered, clock,
      (congrArg Elec.vin elec :), supply, rom⟩
  · rw [exec_jigEntry, Blk.jigEntry_enters jig powered out]
  · rw [exec_jigEntry, Blk.jigEntry_none none]
  · intro fails few
    obtain ⟨kept, left⟩ := Blk.unitsFail_few (b := b) few
    obtain ⟨done, slots⟩ := Blk.jigDone_done runs kept
    rw [left] at done
    exact ⟨_, exec_jigTestDone s item cores units others, done, slots⟩

end Sys2Proof.Machine
end

section
/-! SUPPORT. What an event of any queue changes, in its own queue and in the chain of interrupts that follows (R68 to R73,
R121). -/

namespace Sys2Proof.Machine
open Sys2Proof

/-- The two blocks differ in what an event changes: event queues, the writes of an instance, what of a host port events change,
what was sent and the power states of links. -/
structure Blk.signals (b c : Blk) : Prop where
  rest : c = { b with ports := c.ports, eqs := c.eqs, insts := c.insts, out := c.out, pm := c.pm }
  hums : b.hums c

namespace Blk.signals

theorem refl (b : Blk) : b.signals b := ⟨rfl, .refl b⟩

theorem trans {b c d : Blk} (h : b.signals c) (k : c.signals d) : b.signals d where
  rest := by conv => lhs; rw [k.rest, h.rest]
  hums := h.hums.trans k.hums

theorem ite {b c d : Blk} {p : Prop} [Decidable p] (h : b.signals c) (k : b.signals d) : b.signals (if p then c else d) := by
  split
  · exact h
  · exact k

theorem of_reports {b c : Blk} (h : b.reports c) (k : b.hums c) : b.signals c where
  rest := by rw [h.rest]
  hums := k

theorem ctl {b c : Blk} (h : b.signals c) : c.ctl = b.ctl := (congrArg Blk.ctl h.rest :)
theorem rmt {b c : Blk} (h : b.signals c) : c.rmt = b.rmt := (congrArg Blk.rmt h.rest :)
theorem cq {b c : Blk} (h : b.signals c) (i q : Nat) : c.cq i q = b.cq i q := (congrArg (·.cq i q) h.rest :)
theorem wq {b c : Blk} (h : b.signals c) (i q : Nat) : c.wq i q = b.wq i q := (congrArg (·.wq i q) h.rest :)

theorem wqOf {b c : Blk} (h : b.signals c) (r : WqR) : c.wqOf r = b.wqOf r := by
  cases r with
  | inst i q => exact h.wq i q
  | ctl k => exact (congrArg HostPort.ctlWq (h.hums.port k) :)
  | mss => exact (congrArg Blk.mssWq h.rest :)

theorem aerF1 {b c : Blk} (h : b.signals c) (j : Nat) : (c.port j).aerF1 = (b.port j).aerF1 :=
  (congrArg HostPort.aerF1 (h.hums.port j) :)

theorem updEvq (b : Blk) (r : EqR) (f : EvQ → EvQ) : b.signals (b.updEvq r f) := by
  cases r with
  | f0 h => exact ⟨rfl, hums.updEvq_f0 b h f⟩
  | inst i e => exact ⟨rfl, hums.of_eq rfl rfl⟩

theorem instWrite (b : Blk) (i writer va : Nat) (l : List Byte) : b.signals (b.instWrite i writer va l) :=
  ⟨rfl, (hums.emit b _).trans (hums.of_eq rfl rfl)⟩

theorem eqWrite (b : Blk) (r : EqR) (a : Nat) (l : List Byte) : b.signals (b.eqWrite r a l) := by
  cases r with
  | f0 h => exact ⟨rfl, hums.emit b (.bus h false a l)⟩
  | inst i e => exact instWrite b i 4 a l

theorem eqMirror (b : Blk) (r : EqR) : b.signals (b.eqMirror r) := by
  cases r with
  | f0 h => exact of_reports (b.reports_eqMirror_f0 h) (hums.eqMirror_f0 b h)
  | inst i e => exact ite (updEvq b (.inst i e) _) (eqWrite b _ _ _)

theorem eqPut (b : Blk) (r : EqR) (ev : Ev) (merged : Nat) : b.signals (b.eqPut r ev merged) :=
  ((eqWrite b _ _ _).trans (updEvq _ _ _)).trans (eqMirror _ _)

theorem eqTake (b : Blk) (r : EqR) (ev : Ev) : b.signals (b.eqTake r ev) :=
  ite (updEvq b _ _) (ite (updEvq b _ _) (ite (updEvq b _ _) (eqPut b _ _ _)))

theorem msiSend (b : Blk) (h : Nat) (f1 : Bool) (v : Nat) : b.signals (b.msiSend h f1 v) :=
  of_reports (b.reports_msiSend h f1 v) (hums.msiSend b h f1 v)

theorem evalIntx (b : Blk) (h : Nat) (f1 : Bool) : b.signals (b.evalIntx h f1) :=
  of_reports (b.reports_evalIntx h f1) (hums.evalIntx b h f1)

theorem raise (fuel : Nat) (b : Blk) (r : EqR) (ev : Ev) : b.signals (Blk.raise fuel b r ev) := by
  induction fuel generalizing b r ev with
  | zero => exact eqTake b r ev
  | succ n ih =>
    unfold Blk.raise
    extract_lets was b1 h v b2
    have took : b.signals b1 := eqTake b r ev
    have sent : b.signals b2 := (took.trans (msiSend b1 h r.isF1 v)).trans (evalIntx _ h r.isF1)
    exact ite (ite (sent.trans (ih b2 _ _)) sent) (took.trans (evalIntx b1 _ _))

theorem devEvent (b : Blk) (type index reason value detail : Nat) :
    b.signals (b.devEvent type index reason value detail) := raise 3 b _ _

theorem cqEvent (b : Blk) (r : CqR) (type : Nat) : b.signals (b.cqEvent r type) := by
  unfold Blk.cqEvent
  split
  · exact raise 3 b _ _
  · exact refl b

theorem wqErrorEvent (b : Blk) (r : WqR) (reason idx : Nat) : b.signals (b.wqErrorEvent r reason idx) := by
  cases r with
  | inst i q => exact raise 3 b _ _
  | ctl h => exact raise 3 b _ _
  | mss => exact refl b

theorem xlateFault (b : Blk) (i cause va : Nat) : b.signals (b.xlateFault i cause va) := by
  have counted (f : InstDyn → InstDyn) : b.signals (b.updInst i f) := ⟨rfl, hums.of_eq rfl rfl⟩
  exact ite (counted _) ((counted _).trans (devEvent _ _ _ _ _ _))

theorem linkAwake (b : Blk) (h : Nat) : b.signals (b.linkAwake h) := ⟨rfl, hums.of_eq rfl rfl⟩

end Blk.signals

/-! Interrupts of an event queue leave every event queue of an instance. -/

theorem Blk.reports_msiDue (b : Blk) (r : EqR) : b.reports (b.msiDue r) := by
  unfold Blk.msiDue
  extract_lets h v b1
  have sent : b.reports b1 := (b.reports_msiSend h r.isF1 v).trans (Blk.reports_evalIntx _ h r.isF1)
  split
  · exact sent.trans (b1.reports_devEvent _ _ _ _ _)
  · exact sent

theorem Blk.hums.msiDue (b : Blk) (r : EqR) : b.hums (b.msiDue r) := by
  unfold Blk.msiDue
  extract_lets h v b1
  have sent : b.hums b1 := (hums.msiSend b h r.isF1 v).trans (hums.evalIntx _ h r.isF1)
  exact ite (sent.trans (devEvent b1 _ _ _ _ _)) sent

theorem Blk.reports.eq {b c : Blk} (h : b.reports c) (i e : Nat) : c.eq i e = b.eq i e := (congrArg (·.eq i e) h.rest :)
theorem Blk.reports.inst {b c : Blk} (h : b.reports c) (i : Nat) : c.inst i = b.inst i := (congrArg (·.inst i) h.rest :)

end Sys2Proof.Machine
end

section
/-! SUPPORT. What an update of a work queue leaves of all queues, and what a scan that settles leaves of the queues that it passes
(R107 to R110). -/

namespace Sys2Proof.Machine
open Sys2Proof

@[simp] theorem Blk.wqOf_updWqOf (b : Blk) (r : WqR) (f : Wq → Wq) : (b.updWqOf r f).wqOf r = f (b.wqOf r) := by
  cases r with
  | inst i q => exact b.wq_updWq i q f
  | ctl h => exact congrArg HostPort.ctlWq (b.port_updPort h _)
  | mss => rfl

/-- A queue that an update of queue `r` reaches held what `r` held: two references may name one ring. -/
theorem Blk.wqOf_updWqOf_cases (b : Blk) (r x : WqR) (f : Wq → Wq) :
    (b.updWqOf r f).wqOf x = b.wqOf x ∨ b.wqOf x = b.wqOf r ∧ (b.updWqOf r f).wqOf x = f (b.wqOf x) := by
  cases r with
  | inst i q =>
    cases x with
    | inst j p =>
      by_cases same : j * 64 + p = i * 64 + q
      · have held : b.wq j p = b.wq i q := (congrArg (Tab.get {} b.wqs) same :)
        have after : (b.updWq i q f).wq j p = (b.updWq i q f).wq i q := (congrArg (Tab.get {} (b.updWq i q f).wqs) same :)
        exact .inr ⟨held, (after.trans (b.wq_updWq i q f)).trans (congrArg f held.symm)⟩
      · exact .inl (Tab.get_upd_other _ _ _ same)
    | ctl h => exact .inl rfl
    | mss => exact .inl rfl
  | ctl h =>
    cases x with
    | ctl k =>
      by_cases same : k = h
      · subst same
        exact .inr ⟨rfl, b.wqOf_updWqOf (.ctl k) f⟩
      · exact .inl (congrArg HostPort.ctlWq (b.port_updPort_ne h _ same))
    | inst j p => exact .inl rfl
    | mss => exact .inl rfl
  | mss =>
    cases x with
    | mss => exact .inr ⟨rfl, rfl⟩
    | inst j p => exact .inl rfl
    | ctl k => exact .inl rfl

theorem Blk.aerF1_updWqOf (b : Blk) (r : WqR) (f : Wq → Wq) (j : Nat) :
    ((b.updWqOf r f).port j).aerF1 = (b.port j).aerF1 := by
  cases r with
  | ctl h =>
    by_cases same : j = h
    · subst same
      exact (congrArg HostPort.aerF1 (b.port_updPort j fun p => { p with ctlWq := f p.ctlWq }) :)
    · exact congrArg HostPort.aerF1 (b.port_updPort_ne h _ same)
  | inst i q => rfl
  | mss => rfl

theorem Blk.ctl_updWqOf (b : Blk) (r : WqR) (f : Wq → Wq) : (b.updWqOf r f).ctl = b.ctl := by
  cases r <;> rfl

theorem Blk.wq_updWq_ne (b : Blk) {i q j r : Nat} (f : Wq → Wq) (hq : q < 64) (hr : r < 64) (other : (j, r) ≠ (i, q)) :
    (b.updWq i q f).wq j r = b.wq j r :=
  Tab.get_upd_other _ _ _ fun same => other (by rw [Prod.mk.injEq]; omega)

/-- The two blocks differ in no index and no fetched entry of a work queue, in nothing of a queue in ERROR, not in the control
plane, and not in the error status of F1. -/
structure Blk.settles (b c : Blk) : Prop where
  ctl : c.ctl = b.ctl
  aerF1 : ∀ j, (c.port j).aerF1 = (b.port j).aerF1
  ring : ∀ r, (c.wqOf r).pi = (b.wqOf r).pi ∧ (c.wqOf r).ci = (b.wqOf r).ci ∧ (c.wqOf r).fetched = (b.wqOf r).fetched
  halted : ∀ r, (b.wqOf r).st = .error → c.wqOf r = b.wqOf r

namespace Blk.settles

theorem refl (b : Blk) : b.settles b := ⟨rfl, fun _ => rfl, fun _ => ⟨rfl, rfl, rfl⟩, fun _ _ => rfl⟩

theorem trans {b c d : Blk} (h : b.settles c) (k : c.settles d) : b.settles d where
  ctl := k.ctl.trans h.ctl
  aerF1 j := (k.aerF1 j).trans (h.aerF1 j)
  ring r := by
    obtain ⟨pi, ci, fetched⟩ := h.ring r
    obtain ⟨pi', ci', fetched'⟩ := k.ring r
    exact ⟨pi'.trans pi, ci'.trans ci, fetched'.trans fetched⟩
  halted r stopped := by
    have kept := h.halted r stopped
    exact (k.halted r (by rw [kept, stopped])).trans kept

theorem of_signals {b c : Blk} (h : b.signals c) : b.settles c where
  ctl := h.ctl
  aerF1 := h.aerF1
  ring r := by rw [h.wqOf r]; exact ⟨rfl, rfl, rfl⟩
  halted r _ := h.wqOf r

theorem updScan (b : Blk) (k : CqKey) (f : Scan → Scan) : b.settles (b.updScan k f) where
  ctl := rfl
  aerF1 _ := rfl
  ring r := by cases r <;> exact ⟨rfl, rfl, rfl⟩
  halted r _ := by cases r <;> rfl

/-- A queue that has not stopped changes its state. -/
theorem updWqOf {b : Blk} {r : WqR} {f : Wq → Wq} (runs : (b.wqOf r).st ≠ .error)
    (hf : ∀ w, (f w).pi = w.pi ∧ (f w).ci = w.ci ∧ (f w).fetched = w.fetched) : b.settles (b.updWqOf r f) where
  ctl := b.ctl_updWqOf r f
  aerF1 := b.aerF1_updWqOf r f
  ring x := by
    obtain same | ⟨-, same⟩ := b.wqOf_updWqOf_cases r x f
    · rw [same]
      exact ⟨rfl, rfl, rfl⟩
    · rw [same]
      exact hf _
  halted x stopped := by
    obtain same | ⟨held, -⟩ := b.wqOf_updWqOf_cases r x f
    · exact same
    · exact absurd (held ▸ stopped) runs

theorem wqError {b : Blk} {r : WqR} (runs : (b.wqOf r).st ≠ .error) (reason : Nat) : b.settles (b.wqError r reason) := by
  unfold Blk.wqError
  extract_lets ci
  exact (updWqOf runs (f := fun w => { w with st := .error, errIndex := ci, errReason := BitVec.ofNat 16 reason })
    fun _ => ⟨rfl, rfl, rfl⟩).trans (of_signals (.wqErrorEvent _ _ _ _))

end Blk.settles

/-- A queue whose state reads READY has not stopped. -/
theorem Blk.st_of_wqState {b : Blk} {r : WqR} (ready : b.wqState r = 1) : (b.wqOf r).st = .ready := by
  unfold Blk.wqState at ready
  split at ready
  · cases ready
  · generalize (b.wqOf r).st = st at ready ⊢
    cases st with
    | ready => rfl
    | error => cases ready
    | cqWait => cases ready
    | bmeOff =>
      dsimp only at ready
      split at ready <;> cases ready

/-- A scan settles by passing over queues: one may stop or start to wait, none is fetched from (R108). -/
theorem Blk.settles_settle (fuel : Nat) (b : Blk) (k : CqKey) : b.settles (b.settle fuel k) := by
  induction fuel generalizing b with
  | zero => exact .refl b
  | succ n ih =>
    have go {c : Blk} (h : b.settles c) (f : Scan → Scan) : b.settles (Blk.settle n (c.updScan k f) k) :=
      (h.trans (.updScan c k f)).trans (ih _)
    have start (f : Scan → Scan) : b.settles (b.updScan k f) := .updScan b k f
    unfold Blk.settle
    extract_lets s
    split
    · exact .refl b
    · split
      · split
        · split
          · exact go (.refl b) _
          · exact start _
        · split
          · exact .refl b
          · exact go (.refl b) _
      · next q rest _ =>
        extract_lets r w drop
        split
        · exact go (.refl b) _
        · next serves =>
          have ready : b.wqState r = 1 := by
            by_contra other
            exact serves (.inl other)
          have runs : (b.wqOf r).st ≠ .error := by rw [Blk.st_of_wqState ready]; decide
          split
          · exact go (.wqError runs _) _
          · split
            · exact go (.refl b) _
            · split
              · exact go (.refl b) _
              · split
                · exact go (.updWqOf runs (f := fun w => { w with st := .cqWait }) fun _ => ⟨rfl, rfl, rfl⟩) _
                · split
                  · exact go (.updWqOf runs (f := fun w => { w with st := .bmeOff }) fun _ => ⟨rfl, rfl, rfl⟩) _
                  · exact .refl b

end Sys2Proof.Machine
end

section
/-! SUPPORT. The doorbell, the entry that a settled scan comes to and how its read ends, and the statement on both (R104, R107,
R108, R110, R111, R126). -/

namespace Sys2Proof.Machine
open Sys2Proof

theorem exec_doorbell (s : State) (h : PortId) (i : InstId) :
    exec (.doorbell h i) s = .next { s with blk := s.blk.pageWrite h.val i.val (·.doorbell i.val) } := rfl
theorem exec_ctlDoorbell (s : State) (h : PortId) :
    exec (.ctlDoorbell h) s = .next { s with blk := s.blk.f0Write h.val (·.ring h.val) } := rfl
theorem exec_wqeFetch (s : State) (q : QRef) (ans ext : Ans) :
    exec (.wqeFetch q ans ext) s = .next { s with blk := s.blk.fetchEntry (qRefWq q) ans ext } := rfl

theorem Blk.pageWrite_served {b : Blk} {h i : Nat} (opened : b.memOpen h true = true) (bound : b.boundTo i h = true)
    (f : Blk → Blk) : b.pageWrite h i f = f b := by
  unfold Blk.pageWrite
  simp [opened, bound]

theorem Blk.f0Write_served {b : Blk} {h : Nat} (opened : b.memOpen h false = true) (f : Blk → Blk) : b.f0Write h f = f b :=
  if_pos opened

/-- An instance of the configuration in force is described by it. -/
theorem Blk.instCfg_of_enabled {b : Blk} {i : Nat} (on : (b.cfg.inst i).life = .enabled) : b.instCfg i = b.cfg :=
  if_pos (by rw [on]; decide)

/-! The doorbell (R107). -/

theorem Blk.attached_of_boundTo {b : Blk} {i h : Nat} (bound : b.boundTo i h = true) : (b.inst i).detached = false := by
  unfold Blk.boundTo at bound
  simp only [Bool.and_eq_true, Bool.not_eq_true'] at bound
  obtain ⟨-, attached⟩ := bound
  exact attached

theorem Blk.doorbell_off {b : Blk} {i : Nat} (off : (b.cfg.inst i).life ≠ .enabled) : b.doorbell i = b := by
  unfold Blk.doorbell Blk.wqGone
  simp [off]

theorem Blk.doorbell_on {b : Blk} {i : Nat} (on : (b.cfg.inst i).life = .enabled) (attached : (b.inst i).detached = false)
    (takes : i = 0 ∨ b.serving (b.homeOf i) = true) : b.doorbell i = b.ring (16 + i) := by
  unfold Blk.doorbell Blk.wqGone
  obtain rfl | serves := takes
  · simp [on, attached]
  · simp [on, attached, serves]

theorem Blk.ring_rest (b : Blk) (k : CqKey) : b.ring k = { b with scans := (b.ring k).scans } := by
  unfold Blk.ring
  split <;> rfl

theorem Blk.scan_ring_ne (b : Blk) {k j : CqKey} (other : j ≠ k) : (b.ring k).scan j = b.scan j := by
  unfold Blk.ring
  split <;> exact b.scan_updScan_ne k _ other

/-- A scan that runs makes one more pass. -/
theorem Blk.scan_ring_again {b : Blk} {k : CqKey} (runs : (b.scan k).active = true) :
    (b.ring k).scan k = { b.scan k with rescan := true } := by
  unfold Blk.ring
  rw [if_pos runs]
  exact b.scan_updScan k _

/-- A scan starts over the queues that are READY. -/
theorem Blk.scan_ring_starts {b : Blk} {k : CqKey} (idle : (b.scan k).active = false) :
    (b.ring k).scan k = { active := true, list := b.readyList k } := by
  unfold Blk.ring
  rw [if_neg (by simp [idle])]
  exact b.scan_updScan k _

theorem Blk.mem_readyList_inst (b : Blk) (i : InstId) (j : Nat) :
    j ∈ b.readyList (16 + i.val) ↔ j < 64 ∧ b.wqState (.inst i.val j) = 1 := by
  have notPort : ¬ 16 + i.val < 16 := by omega
  have notMss : 16 + i.val ≠ mssKey := by unfold mssKey; omega
  unfold Blk.readyList
  rw [if_neg notPort, if_neg notMss, Nat.add_sub_cancel_left]
  simp

theorem Blk.readyList_ctl (b : Blk) (h : PortId) :
    b.readyList h.val = if b.wqState (.ctl h.val) = 1 then [0] else [] := if_pos h.isLt

/-! The entry that a settled scan comes to (R108). -/

/-- The link over which the entries of a queue are read is in L0 (R74). -/
def Blk.woken (b : Blk) (r : WqR) : Blk := b.linkAwake (b.wqPort r)

/-- The scan has settled on queue `r`, and the read of its next entry may be issued. -/
structure Blk.atEntry (b : Blk) (r : WqR) : Prop where
  listed : wqRefOf r.scanKey r.num = r
  active : (b.scan r.scanKey).active = true
  turn : (b.scan r.scanKey).turn.head? = some r.num
  ready : b.wqState r = 1
  present : b.wqGone r = false
  fits : (((b.wqOf r).pi - (b.wqOf r).ci).toNat ≤ b.wqSize r)
  stands : (b.wqOf r).pi ≠ (b.wqOf r).ci
  free : b.wqBusy r = false
  cqOn : b.cqOff r = false
  slot : b.cqSlotFree (b.wqCq r) = true
  issues : b.wqCanIssue r = true
  runs : b.wqRuns r = true

namespace Blk.atEntry

variable {b : Blk} {r : WqR}

theorem settle (e : b.atEntry r) (n : Nat) : b.settle (n + 1) r.scanKey = b := by
  obtain ⟨listed, active, turn, ready, present, fits, stands, free, cqOn, slot, issues, -⟩ := e
  obtain ⟨rest, turn⟩ := List.head?_eq_some_iff.1 turn
  unfold Blk.settle
  simp [active, turn, listed, ready, present, Nat.not_lt.2 fits, stands, free, cqOn, slot, issues, -BitVec.toNat_sub]

theorem st_ne_error (e : b.atEntry r) : (b.wqOf r).st ≠ .error := by
  rw [Blk.st_of_wqState e.ready]
  decide

theorem mayFetch (e : b.atEntry r) : b.mayFetch r = true := by
  unfold Blk.mayFetch Blk.nextIs
  simp [e.active, e.turn, e.runs, e.free]

/-- The entry is read, and the scan goes on. -/
theorem fetchEntry (e : b.atEntry r) (outside : r ≠ .mss) (ans ext : Ans) :
    b.fetchEntry r ans ext = ((b.woken r).entryRead r ans ext).settle settleFuel r.scanKey := by
  unfold Blk.fetchEntry
  rw [if_neg outside, show b.settle settleFuel r.scanKey = b from e.settle 399]
  exact if_pos e.mayFetch

end Blk.atEntry

theorem Blk.atEntry_ctl {b : Blk} {h : PortId} (active : (b.scan h.val).active = true)
    (turn : (b.scan h.val).turn.head? = some 0) (ready : b.wqState (.ctl h.val) = 1)
    (point : b.atPoint (halfOfPort h) 2 = true)
    (fits : ((b.port h.val).ctlWq.pi - (b.port h.val).ctlWq.ci).toNat ≤ 2 ^ (b.port h.val).ctlWqLog2.toNat)
    (stands : (b.port h.val).ctlWq.pi ≠ (b.port h.val).ctlWq.ci) (cqOn : (b.port h.val).ctlCqEn = true)
    (slot : b.cqSlotFree (.ctl h.val) = true) (issues : b.canIssue h.val false = true)
    (arrived : (b.ctlq h.val).arrived = none) (line : ∀ x ∈ b.ctl.line, x.queue ≠ h.val) : b.atEntry (.ctl h.val) where
  listed := if_pos h.isLt
  active := active
  turn := turn
  ready := ready
  present := rfl
  fits := fits
  stands := stands
  free := by unfold Blk.wqBusy WqR.key; simpa [arrived] using line
  cqOn := by unfold Blk.cqOff; simp [cqOn]
  slot := slot
  issues := issues
  runs := point

theorem Blk.atEntry_inst {b : Blk} {i : InstId} {q : Nat}
    (control : q = 0 → (b.ctlq (16 + i.val)).arrived = none ∧ ∀ x ∈ b.ctl.line, x.queue ≠ 16 + i.val)
    (active : (b.scan (16 + i.val)).active = true) (turn : (b.scan (16 + i.val)).turn.head? = some q)
    (ready : b.wqState (.inst i.val q) = 1) (on : (b.cfg.inst i.val).life = .enabled)
    (attached : (b.inst i.val).detached = false) (serves : b.serving (b.homeOf i.val) = true)
    (fits : ((b.wq i.val q).pi - (b.wq i.val q).ci).toNat ≤ b.wqSize (.inst i.val q))
    (stands : (b.wq i.val q).pi ≠ (b.wq i.val q).ci)
    (slot : b.cqSlotFree (.inst i.val (b.cfg.wq i.val q).cq.toNat) = true)
    (issues : b.canIssue (b.cfg.inst i.val).port.toNat true = true) : b.atEntry (.inst i.val q) where
  listed := by
    have notPort : ¬ 16 + i.val < 16 := by omega
    have notMss : 16 + i.val ≠ mssKey := by unfold mssKey; omega
    unfold wqRefOf WqR.scanKey WqR.num
    simp only [if_neg notPort, if_neg notMss, Nat.add_sub_cancel_left]
  active := active
  turn := turn
  ready := ready
  present := by unfold Blk.wqGone; simp [on, attached]
  fits := fits
  stands := stands
  free := by
    unfold Blk.wqBusy WqR.key
    by_cases zero : q = 0
    · obtain ⟨arrived, line⟩ := control zero
      simpa [zero, arrived] using line
    · simp [zero]
  cqOn := rfl
  slot := (congrArg (fun c : Cfg => b.cqSlotFree (.inst i.val (c.wq i.val q).cq.toNat)) (Blk.instCfg_of_enabled on)).trans slot
  issues := (congrArg (fun c : Cfg => b.canIssue (c.inst i.val).port.toNat true) (Blk.instCfg_of_enabled on)).trans issues
  runs := by unfold Blk.wqRuns; simp [on, attached, serves]

/-! How the read ends (R110, R111). -/

/-- A queue that is to stop at its next entry: its index latched, the reason given. -/
def Wq.stopped (w : Wq) (reason : Nat) : Wq :=
  { w with st := .error, errIndex := w.ci, errReason := BitVec.ofNat 16 reason }

theorem Blk.wqOf_wqError (b : Blk) (r : WqR) (reason : Nat) : (b.wqError r reason).wqOf r = (b.wqOf r).stopped reason :=
  (Blk.signals.wqErrorEvent _ r reason _).wqOf r |>.trans (b.wqOf_updWqOf r _)

theorem Blk.wqOf_updScan (b : Blk) (k : CqKey) (f : Scan → Scan) (r : WqR) : (b.updScan k f).wqOf r = b.wqOf r := by
  cases r <;> rfl

theorem Blk.wqOf_updCtlq (b : Blk) (k : CqKey) (f : CtlState → CtlState) (r : WqR) : (b.updCtlq k f).wqOf r = b.wqOf r := by
  cases r <;> rfl

theorem Blk.wqOf_fetchFailed (b : Blk) (r : WqR) (q reason : Nat) :
    (b.fetchFailed r q reason).wqOf r = (b.wqOf r).stopped reason :=
  (Blk.wqOf_updScan _ _ _ r).trans (b.wqOf_wqError r reason)

/-- A queue that stops stays so while its scan goes on. -/
theorem Blk.wqOf_settle_stopped {b : Blk} {r : WqR} {w : Wq} {reason : Nat} (stops : b.wqOf r = w.stopped reason) (fuel : Nat)
    (k : CqKey) : (b.settle fuel k).wqOf r = w.stopped reason :=
  ((b.settles_settle fuel k).halted r (by rw [stops]; rfl)).trans stops

theorem Blk.entryRead_busError {b : Blk} {r : WqR} (reached : b.reached r (b.entryAddr r) .busError = .busError) (ext : Ans) :
    b.entryRead r .busError ext = b.fetchFailed r r.num 0x0521 := by
  unfold Blk.entryRead
  rw [reached]

theorem Blk.wqOf_entryRead_xfault {b : Blk} {r : WqR} {c : XFault}
    (reached : b.reached r (b.entryAddr r) (.xfault c) = .xfault c) (ext : Ans) :
    (b.entryRead r (.xfault c) ext).wqOf r = (b.wqOf r).stopped (fetchReason c) := by
  unfold Blk.entryRead
  rw [reached]
  dsimp only
  rw [Blk.wqOf_fetchFailed]
  cases r with
  | inst i q => rw [(Blk.signals.xlateFault b i _ _).wqOf]
  | ctl h => rfl
  | mss => rfl

theorem Blk.entryRead_control {b : Blk} {r : WqR} {k : CqKey} {l : List Byte} (control : r.key = some k)
    (reached : b.reached r (b.entryAddr r) (.ok l) = .ok l) (ext : Ans) :
    b.entryRead r (.ok l) ext = b.takeInstr r k (entOf (slice l 0 64)) ext := by
  unfold Blk.entryRead
  rw [reached, control]

theorem Blk.entryRead_work {b : Blk} {i q : Nat} {l : List Byte} (work : q ≠ 0)
    (reached : b.reached (.inst i q) (b.entryAddr (.inst i q)) (.ok l) = .ok l) (ext : Ans) :
    b.entryRead (.inst i q) (.ok l) ext = b.takeEntry i q (entOf (slice l 0 64)) := by
  unfold Blk.entryRead
  rw [reached, show WqR.key (.inst i q) = none from if_neg work]

/-- A read of extension data reports its fault, and changes no more. -/
theorem Blk.signals_extRead (b : Blk) (r : WqR) (e : W512) (ext : Ans) : b.signals (b.extRead r e ext).1 := by
  unfold Blk.extRead
  split
  · exact .refl b
  · split
    · exact .refl b
    · exact .refl b
    · split
      · exact .xlateFault b _ _ _
      · exact .refl b

/-- A control instruction waits to be handled: CI one up, the instruction in hand (R126). -/
theorem Blk.takeInstr_waits (b : Blk) (r : WqR) (k : CqKey) (raw : W512) (ext : Ans) :
    ((b.takeInstr r k raw ext).wqOf r).ci = (b.wqOf r).ci + 1 ∧
      ∃ x f, ((b.takeInstr r k raw ext).ctlq k).arrived = some ((b.wqOf r).ci, raw, x, f) := by
  have read := b.signals_extRead r raw ext
  unfold Blk.takeInstr
  generalize b.extRead r raw ext = answer at read ⊢
  obtain ⟨b1, x, f⟩ := answer
  dsimp only at read ⊢
  rw [← read.wqOf r]
  refine ⟨?_, x, f, congrArg CtlState.arrived (Blk.ctlq_updCtlq _ _ _)⟩
  unfold Blk.served
  rw [Blk.wqOf_updScan, Blk.wqOf_updCtlq, Blk.wqOf_updWqOf]

/-- An entry that passes the format check belongs to the part, with CI one up (R104). -/
theorem Blk.takeEntry_passes {b : Blk} {i q : Nat} {raw : W512} (passes : fmtCheck (b.wqKind (.inst i q)) raw = none) :
    ∃ e : Entry, (b.takeEntry i q raw).wq i q = { b.wq i q with ci := (b.wq i q).ci + 1, fetched := (b.wq i q).fetched ++ [e] } ∧
      e.idx = (b.wq i q).ci ∧ e.raw = raw ∧ e.st = .fetched ∧ e.gen = (b.inst i).gen := by
  unfold Blk.takeEntry
  extract_lets r u e
  split
  · next reason fails => cases passes.symm.trans fails
  · exact ⟨e, b.wq_updWq i q fun w => { w with ci := w.ci + 1, fetched := w.fetched ++ [e] }, rfl, rfl, rfl, rfl⟩

theorem Blk.takeEntry_fails {b : Blk} {i q reason : Nat} {raw : W512} (fails : fmtCheck (b.wqKind (.inst i q)) raw = some reason) :
    (b.takeEntry i q raw).wqOf (.inst i q) = (b.wq i q).stopped reason := by
  unfold Blk.takeEntry
  dsimp only
  rw [fails]
  exact b.wqOf_wqError (.inst i q) reason

/-- A read below 2^48 of an instance with a page table is answered as it comes (R438). -/
theorem Blk.xlated_below {b : Blk} {i va : Nat} (on : (b.cfg.inst i).life = .enabled) (root : (b.cfg.inst i).root ≠ 0)
    (below : va < 2 ^ 48) (a : Ans) : b.xlated i va a = a := by
  have rooted : b.rootless i = false := by
    unfold Blk.rootless
    rw [Blk.instCfg_of_enabled on, beq_eq_false_iff_ne.2 root, Bool.false_and]
  unfold Blk.xlated preFault
  rw [rooted, if_neg (by omega)]
  rfl

theorem Blk.reached_below {b : Blk} {i q : Nat} (on : (b.cfg.inst i).life = .enabled) (root : (b.cfg.inst i).root ≠ 0)
    (below : (b.cfg.wq i q).base.toNat + (b.wq i q).ci.toNat % b.wqSize (.inst i q) * 64 < 2 ^ 48) (a : Ans) :
    b.reached (.inst i q) (b.entryAddr (.inst i q)) a = a := by
  refine Blk.xlated_below on root ?_ a
  unfold Blk.entryAddr
  dsimp only [WqR.num, Blk.wqOf]
  rwa [Blk.instCfg_of_enabled on]

/-- A queue whose entry does not serve stops, and stays stopped while the scan goes on. -/
theorem Blk.atEntry.fetch_stops {b : Blk} {r : WqR} {ans ext : Ans} {reason : Nat} (e : b.atEntry r) (outside : r ≠ .mss)
    (stops : ((b.woken r).entryRead r ans ext).wqOf r = (b.wqOf r).stopped reason) :
    (b.fetchEntry r ans ext).wqOf r = (b.wqOf r).stopped reason := by
  rw [e.fetchEntry outside]
  exact Blk.wqOf_settle_stopped stops _ _

/-- An instruction of a control queue waits to be handled. -/
theorem Blk.atEntry.fetch_control {b : Blk} {r : WqR} {k : CqKey} {l : List Byte} (e : b.atEntry r) (outside : r ≠ .mss)
    (control : r.key = some k) (reached : (b.woken r).reached r ((b.woken r).entryAddr r) (.ok l) =
      .ok l) (ext : Ans) : ((b.fetchEntry r (.ok l) ext).wqOf r).ci = (b.wqOf r).ci + 1 ∧
      ∃ x f, ((b.fetchEntry r (.ok l) ext).ctlq k).arrived = some ((b.wqOf r).ci, entOf (slice l 0 64), x, f) := by
  rw [e.fetchEntry outside, Blk.entryRead_control control reached]
  obtain ⟨taken, x, f, waits⟩ := (b.woken r).takeInstr_waits r k (entOf (slice l 0 64)) ext
  have same : (b.woken r).wqOf r = b.wqOf r := (Blk.signals.linkAwake b _).wqOf r
  rw [same] at taken waits
  have kept := Blk.settles_settle settleFuel ((b.woken r).takeInstr r k (entOf (slice l 0 64)) ext) r.scanKey
  obtain ⟨-, ci, -⟩ := kept.ring r
  exact ⟨ci.trans taken, x, f, (congrArg (fun c : Ctl => (Tab.get {} c.queues k).arrived) kept.ctl :).trans waits⟩

/-- An entry of another queue that passes the format check belongs to the part. -/
theorem Blk.atEntry.fetch_work {b : Blk} {i q : Nat} {l : List Byte} (e : b.atEntry (.inst i q)) (work : q ≠ 0)
    (reached : (b.woken (.inst i q)).reached (.inst i q)
      ((b.woken (.inst i q)).entryAddr (.inst i q)) (.ok l) = .ok l)
    (passes : fmtCheck (b.wqKind (.inst i q)) (entOf (slice l 0 64)) = none) (ext : Ans) :
    ∃ x : Entry, ((b.fetchEntry (.inst i q) (.ok l) ext).wq i q).ci = (b.wq i q).ci + 1 ∧
      ((b.fetchEntry (.inst i q) (.ok l) ext).wq i q).pi = (b.wq i q).pi ∧
      ((b.fetchEntry (.inst i q) (.ok l) ext).wq i q).fetched = (b.wq i q).fetched ++ [x] ∧
      x.idx = (b.wq i q).ci ∧ x.raw = entOf (slice l 0 64) ∧ x.st = .fetched ∧ x.gen = (b.inst i).gen := by
  rw [e.fetchEntry (by simp), Blk.entryRead_work work reached]
  obtain ⟨x, taken, fields⟩ := Blk.takeEntry_passes (b := b.woken (.inst i q)) passes
  have kept := Blk.settles_settle settleFuel ((b.woken (.inst i q)).takeEntry i q (entOf (slice l 0 64)))
    (WqR.scanKey (.inst i q))
  obtain ⟨pi, ci, fetched⟩ := kept.ring (.inst i q)
  exact ⟨x, ci.trans (congrArg Wq.ci taken), pi.trans (congrArg Wq.pi taken :), fetched.trans (congrArg Wq.fetched taken), fields⟩

/-! Reads that run out of time (R56). -/

/-- The read of the entry that a scan has come to ends with a bus error, and the scan goes on. -/
theorem Blk.atEntry.timeout_inst {b : Blk} {i : InstId} {q : Fin 64} {h : Nat} (e : b.atEntry (.inst i.val q.val))
    (mine : (b.cfg.inst i.val).port.toNat = h) : b.timeout h (.fetch (.wq i q)) =
      ((b.aerTimeout h true).entryRead (.inst i.val q.val) .busError .busError).settle settleFuel (16 + i.val) := by
  unfold Blk.timeout
  dsimp only [qRefWq]
  rw [show b.settle settleFuel (WqR.inst i.val q.val).scanKey = b from e.settle 399]
  exact if_pos (by simp [e.mayFetch, mine])

theorem Blk.atEntry.timeout_ctl {b : Blk} {h : PortId} (e : b.atEntry (.ctl h.val)) : b.timeout h.val (.fetch (.ctl h)) =
      ((b.aerTimeout h.val false).entryRead (.ctl h.val) .busError .busError).settle settleFuel h.val := by
  unfold Blk.timeout
  dsimp only [qRefWq]
  rw [show b.settle settleFuel (WqR.ctl h.val).scanKey = b from e.settle 399]
  exact if_pos (by simp [e.mayFetch])

theorem Blk.timeout_elsewhere {b : Blk} {i : InstId} {q : Fin 64} {h : Nat} (other : (b.cfg.inst i.val).port.toNat ≠ h) :
    b.timeout h (.fetch (.wq i q)) = b := by
  unfold Blk.timeout
  simp [qRefWq, other]

/-- The MSS queue lies on the management die: no host port reads it. -/
theorem Blk.timeout_mss (b : Blk) (h : Nat) : b.timeout h (.fetch .mss) = b := rfl

/-- A bus error stops the queue for good, and reports nothing in the error status of F1. -/
theorem Blk.settle_busError {b : Blk} {r : WqR} (runs : (b.wqOf r).st ≠ .error)
    (reached : b.reached r (b.entryAddr r) .busError = .busError) (ext : Ans) (fuel : Nat) (k : CqKey) :
    ((b.entryRead r .busError ext).settle fuel k).wqOf r = (b.wqOf r).stopped 0x0521 ∧
      ∀ j, (((b.entryRead r .busError ext).settle fuel k).port j).aerF1 = (b.port j).aerF1 := by
  rw [Blk.entryRead_busError reached]
  have stops : b.settles (b.fetchFailed r r.num 0x0521) := (Blk.settles.wqError runs 0x0521).trans (.updScan _ _ _)
  exact ⟨Blk.wqOf_settle_stopped (b.wqOf_fetchFailed r r.num 0x0521) _ _, (stops.trans (Blk.settles_settle _ _ _)).aerF1⟩

theorem Blk.wqOf_aerTimeout (b : Blk) (h : Nat) (f1 : Bool) (r : WqR) : (b.aerTimeout h f1).wqOf r = b.wqOf r := by
  cases r with
  | inst i q => rfl
  | mss => rfl
  | ctl k =>
    by_cases same : k = h
    · subst same
      refine (congrArg HostPort.ctlWq (b.port_updPort k _)).trans ?_
      cases f1 <;> rfl
    · exact congrArg HostPort.ctlWq (b.port_updPort_ne h _ same)

/-- The completion timeout stands in the error status of F1 (R56). -/
theorem Blk.aerF1_aerTimeout (b : Blk) (h : Nat) : ((b.aerTimeout h true).port h).aerF1.getLsbD 14 = true := by
  unfold Blk.aerTimeout
  rw [Blk.port_updPort]
  simp

theorem Blk.atEntry.timeout_inst_stops {b : Blk} {i : InstId} {q : Fin 64} {h : Nat} (e : b.atEntry (.inst i.val q.val))
    (mine : (b.cfg.inst i.val).port.toNat = h)
    (reached : b.reached (.inst i.val q.val) (b.entryAddr (.inst i.val q.val)) .busError = .busError) :
    (b.timeout h (.fetch (.wq i q))).wqOf (.inst i.val q.val) = (b.wq i.val q.val).stopped 0x0521 ∧
      ((b.timeout h (.fetch (.wq i q))).port h).aerF1.getLsbD 14 = true := by
  rw [e.timeout_inst mine]
  obtain ⟨ends, aer⟩ := Blk.settle_busError (b := b.aerTimeout h true) (r := .inst i.val q.val) e.st_ne_error reached .busError
    settleFuel (16 + i.val)
  rw [aer h]
  exact ⟨ends, b.aerF1_aerTimeout h⟩

theorem Blk.atEntry.timeout_ctl_stops {b : Blk} {h : PortId} (e : b.atEntry (.ctl h.val)) :
    (b.timeout h.val (.fetch (.ctl h))).wqOf (.ctl h.val) = (b.wqOf (.ctl h.val)).stopped 0x0521 := by
  have kept := b.wqOf_aerTimeout h.val false (.ctl h.val)
  rw [e.timeout_ctl, ← kept]
  obtain ⟨ends, -⟩ := Blk.settle_busError (b := b.aerTimeout h.val false) (r := .ctl h.val) (kept ▸ e.st_ne_error) rfl .busError
    settleFuel h.val
  exact ends

/-! Entries of the MSS queue (R125). -/

theorem Blk.mssEntry_hands {b : Blk} (up : b.mss.fw.up = true) (slot : b.cqSlotFree .mss = true)
    (arrived : (b.ctlq mssKey).arrived = none) (line : ∀ x ∈ b.ctl.line, x.queue ≠ mssKey) (l : List Byte) (ext : Ans) :
    b.fetchEntry .mss (.ok l) ext =
      (b.updWqOf .mss (fun w => { w with pi := w.pi + 1 })).takeInstr .mss mssKey (entOf (slice l 0 64)) ext := by
  have free : b.wqBusy .mss = false := by unfold Blk.wqBusy WqR.key; simpa [arrived] using line
  unfold Blk.fetchEntry Blk.mssEntry
  simp [show b.wqRuns .mss = true from up, free, slot]

/-- Settles O24: a doorbell by what `Blk.ring` leaves of its scan; a fetch by the entry that the scan has settled on, how its read
ends, and that the scan, going on, fetches from no queue and leaves one that has stopped. -/
theorem doorbellAndFetch : Obligations.DoorbellAndFetch := by
  unfold Obligations.DoorbellAndFetch
  intro s h inst q l ext c b w k p
  refine ⟨fun opened bound => ⟨fun off => ?_, fun on takes => ?_⟩, fun opened => ⟨fun runs => ?_, fun idle => ?_⟩,
    fun control active turn ready on attached serves fits stands slot issues root below => ?_, fun other => ?_, ?_,
    fun active turn ready point fits stands cqOn slot issues arrived line => ?_, fun up slot arrived line => ?_⟩
  · rw [exec_doorbell, Blk.pageWrite_served opened bound, Blk.doorbell_off off]
  · rw [exec_doorbell, Blk.pageWrite_served opened bound, Blk.doorbell_on on (Blk.attached_of_boundTo bound) takes]
    refine ⟨_, rfl, b.ring_rest k, fun j other => b.scan_ring_ne other, ?_⟩
    split
    · next runs => exact Blk.scan_ring_again runs
    · next idle =>
      rw [show (b.ring k).scan k = _ from Blk.scan_ring_starts (eq_false_of_ne_true idle)]
      exact ⟨rfl, rfl, b.mem_readyList_inst inst⟩
  · rw [exec_ctlDoorbell, Blk.f0Write_served opened]
    exact ⟨_, rfl, b.ring_rest h.val, Blk.scan_ring_again runs⟩
  · rw [exec_ctlDoorbell, Blk.f0Write_served opened]
    exact ⟨_, rfl, b.ring_rest h.val, (Blk.scan_ring_starts idle).trans (by rw [b.readyList_ctl h])⟩
  · have e := Blk.atEntry_inst control active turn ready on attached serves fits stands slot issues
    have cfg : b.instCfg inst.val = b.cfg := Blk.instCfg_of_enabled on
    have kind : b.wqKind (.inst inst.val q.val) = (b.cfg.wq inst.val q.val).kind.toNat :=
      congrArg (fun c : Cfg => (c.wq inst.val q.val).kind.toNat) cfg
    have through (a : Ans) := Blk.reached_below (b := b.woken (.inst inst.val q.val)) on root below a
    intro raw stops
    have stop {a : Ans} {reason : Nat} (ends : ((b.woken (.inst inst.val q.val)).entryRead
        (.inst inst.val q.val) a ext).wqOf (.inst inst.val q.val) = w.stopped reason) : stops a reason :=
      ⟨_, exec_wqeFetch s (.wq inst q) a ext, e.fetch_stops (by simp) ends⟩
    refine ⟨fun zero => ?_, fun work passes => ?_, fun reason work fails => stop ?_, stop ?_, stop ?_, fun mine => ?_⟩
    · obtain ⟨ci, x, f, waits⟩ := e.fetch_control (by simp) (if_pos zero) (through (.ok l)) ext
      exact ⟨_, x, f, exec_wqeFetch s (.wq inst q) (.ok l) ext, ci, waits⟩
    · obtain ⟨x, fields⟩ := e.fetch_work work (through (.ok l)) (kind ▸ passes) ext
      exact ⟨_, x, exec_wqeFetch s (.wq inst q) (.ok l) ext, fields⟩
    · rw [Blk.entryRead_work work (through _)]
      exact Blk.takeEntry_fails (b := b.woken (.inst inst.val q.val)) (kind ▸ fails)
    · rw [Blk.entryRead_busError (through _)]
      exact Blk.wqOf_fetchFailed _ _ _ _
    · exact Blk.wqOf_entryRead_xfault (through _) ext
    · obtain ⟨ends, aer⟩ := e.timeout_inst_stops mine (Blk.reached_below on root below .busError)
      exact ⟨_, exec_completionTimeout s h (.fetch (.wq inst q)), ends, aer⟩
  · rw [exec_completionTimeout, Blk.timeout_elsewhere other]
  · rw [exec_completionTimeout, Blk.timeout_mss]
  · have e := Blk.atEntry_ctl active turn ready point fits stands cqOn slot issues arrived line
    refine ⟨?_, fun g listed => ?_⟩
    · obtain ⟨ci, x, f, waits⟩ := e.fetch_control (l := l) (by simp) rfl rfl ext
      exact ⟨_, x, f, exec_wqeFetch s (.ctl h) (.ok l) ext, ci, waits⟩
    · simp only [List.mem_cons, List.not_mem_nil, or_false] at listed
      obtain rfl | rfl := listed
      · have ends := e.fetch_stops (ans := .busError) (ext := ext) (reason := 0x0521) (by simp) (by
          rw [Blk.entryRead_busError rfl]
          exact Blk.wqOf_fetchFailed _ _ _ _)
        exact ⟨_, exec_wqeFetch s (.ctl h) .busError ext, congrArg Wq.st ends, congrArg Wq.errIndex ends,
          congrArg Wq.errReason ends⟩
      · have ends := e.timeout_ctl_stops
        exact ⟨_, exec_completionTimeout s h (.fetch (.ctl h)), congrArg Wq.st ends, congrArg Wq.errIndex ends,
          congrArg Wq.errReason ends⟩
  · rw [exec_wqeFetch, show qRefWq .mss = .mss from rfl, Blk.mssEntry_hands up slot arrived line]
    obtain ⟨-, x, f, waits⟩ := (b.updWqOf .mss (fun w => { w with pi := w.pi + 1 })).takeInstr_waits .mss mssKey
      (entOf (slice l 0 64)) ext
    exact ⟨_, x, f, rfl, waits⟩

end Sys2Proof.Machine
end

section
/-! SUPPORT. Writes of a doorbell page, resumed queues, lifted fences, held writes, and the controls of the CTL and INT blocks, with
the statement on them (R105, R106, R109, R115, R120 to R124, R515). -/

namespace Sys2Proof.Machine
open Sys2Proof

theorem exec_wqPiWrite (s : State) (h : PortId) (i : InstId) (q : Fin 64) (v : W32) : exec (.wqPiWrite h i q v) s =
    .next { s with blk := s.blk.pageWrite h.val i.val (fun b => b.wqPiWrite (.inst i.val q.val) (v.setWidth 16)) } := rfl
theorem exec_cqCiWrite (s : State) (h : PortId) (i : InstId) (q : Fin 64) (v : W32) : exec (.cqCiWrite h i q v) s =
    .next { s with blk := (s.blk.pageWrite h.val i.val fun b =>
      (b.cqCiWrite (.inst i.val q.val) (v.setWidth 16) (v.getLsbD 31)).settleIncs) } := rfl
theorem exec_eqCiWrite (s : State) (h : PortId) (i : InstId) (e : Fin 8) (v : W32) : exec (.eqCiWrite h i e v) s =
    .next { s with blk := s.blk.pageWrite h.val i.val (fun b => b.eqCiWrite (.inst i.val e.val) (v.setWidth 16)) } := rfl
theorem exec_eqCtrlWrite (s : State) (h : PortId) (i : InstId) (e : Fin 8) (v : W32) : exec (.eqCtrlWrite h i e v) s =
    .next { s with blk := (s.blk.pageWrite h.val i.val fun b =>
      b.eqCtrlWrite (.inst i.val e.val) (v.getLsbD 0) (v.getLsbD 1)) } := rfl
theorem exec_queueResume (s : State) (q : QRef) :
    exec (.queueResume q) s = .next { s with blk := s.blk.resume (qRefWq q) } := rfl
theorem exec_fencedEntryStart (s : State) (i : InstId) (q : Fin 64) :
    exec (.fencedEntryStart i q) s = .next { s with blk := s.blk.fenceStart i.val q.val } := rfl
theorem exec_completionWriteFault_cq (s : State) (i : InstId) (q : Fin 64) (mirror : Bool) (c : XFault) :
    exec (.completionWriteFault i false q mirror c) s = .next { s with blk := s.blk.cqFaulted i.val q.val mirror c } := rfl
theorem exec_completionWriteFault_eq (s : State) (i : InstId) {q : Fin 64} (there : q.val < 8) (mirror : Bool) (c : XFault) :
    exec (.completionWriteFault i true q mirror c) s = .next { s with blk := s.blk.eqFaulted i.val q.val mirror c } :=
  congrArg (fun b : Blk => (.next { s with blk := b } : Host.Outcome State Fault Refusal)) (if_pos there)
theorem exec_ctlWqCtrlWrite (s : State) (h : PortId) (v : W32) : exec (.ctlWqCtrlWrite h v) s =
    .next { s with blk := s.blk.f0Write h.val (fun b => b.ctlWqWrite h.val v) } := rfl
theorem exec_ctlCqCtrlWrite (s : State) (h : PortId) (v : W32) : exec (.ctlCqCtrlWrite h v) s =
    .next { s with blk := s.blk.f0Write h.val (fun b => b.ctlCqCtrl h.val v) } := rfl
theorem exec_f0EqCtrlWrite (s : State) (h : PortId) (v : W32) : exec (.f0EqCtrlWrite h v) s =
    .next { s with blk := s.blk.f0Write h.val (fun b => b.f0EqCtrl h.val v) } := rfl

/-! Indices of a WQ (R105). -/

/-- A change of a WQ is one of that queue alone. -/
theorem Blk.updWq_alone (b : Blk) (i : Nat) {q : Nat} (f : Wq → Wq) (hq : q < 64) :
    b.updWq i q f = { b with wqs := (b.updWq i q f).wqs } ∧ (b.updWq i q f).wq i q = f (b.wq i q) ∧
      ∀ j r, (j, r) ≠ (i, q) → r < 64 → (b.updWq i q f).wq j r = b.wq j r :=
  ⟨rfl, b.wq_updWq i q f, fun _ _ other hr => b.wq_updWq_ne f hq hr other⟩

theorem Blk.wqPiWrite_fits {b : Blk} {r : WqR} {pi : W16} (fits : (pi - (b.wqOf r).ci).toNat ≤ b.wqSize r) :
    b.wqPiWrite r pi = b.updWqOf r (fun w => { w with pi := pi }) :=
  if_neg (by simp [Nat.not_lt.2 fits, -BitVec.toNat_sub])

theorem Blk.wqOf_wqPiWrite_beyond {b : Blk} {r : WqR} {pi : W16} (beyond : b.wqSize r < (pi - (b.wqOf r).ci).toNat)
    (on : b.wqEnabled r = true) (runs : (b.wqOf r).st ≠ .error) :
    (b.wqPiWrite r pi).wqOf r = { b.wqOf r with pi := pi, st := .error, errIndex := (b.wqOf r).ci, errReason := 0x0104 } := by
  have stops : b.wqPiWrite r pi = (b.updWqOf r (fun w => { w with pi := pi })).wqError r 0x0104 :=
    if_pos (by simp [beyond, on, runs, -BitVec.toNat_sub])
  rw [stops, Blk.wqOf_wqError, Blk.wqOf_updWqOf]
  rfl

/-! Indices of a CQ (R106, R115, R120). -/

theorem Blk.cqCiWrite_beyond {b : Blk} {r : CqR} {ci : W16} (arm : Bool) (beyond : b.cqSize r < ((b.cqOf r).pi - ci).toNat) :
    b.cqCiWrite r ci arm = (b.updCqOf r (fun q => { q with ciError := true })).cqEvent r 4 := if_pos beyond

theorem Blk.cqDrain_drained {b : Blk} {r : CqR} (held : (b.cqOf r).held = []) :
    Blk.cqDrain (b.cqOf r).held.length b r = b := by
  rw [held]
  rfl

/-- A CQ that is armed with nothing to consume past CI, or not armed, takes CI. -/
theorem Blk.cqCiWrite_quiet {b : Blk} {i q : Nat} {ci : W16} {arm : Bool}
    (fits : ((b.cqOf (.inst i q)).pi - ci).toNat ≤ b.cqSize (.inst i q)) (held : (b.cq i q).held = [])
    (quiet : arm = false ∨ (b.cq i q).pi = ci) :
    b.cqCiWrite (.inst i q) ci arm = b.updCq i q (fun x => { x with ci := ci, armed := x.armed || arm }) := by
  unfold Blk.cqCiWrite
  rw [if_neg (Nat.not_lt.2 fits)]
  extract_lets b1 b2
  have taken : b1.cq i q = { b.cq i q with ci := ci, armed := (b.cq i q).armed || arm } := b.cq_updCq i q _
  have silent : b2 = b1 := if_neg (by
    rw [show b1.cqOf (.inst i q) = _ from taken]
    obtain off | reached := quiet <;> simp [*])
  rw [silent]
  exact Blk.cqDrain_drained (congrArg Cq.held taken |>.trans held)

/-- The notice of an armed CQ disarms it (R120). -/
theorem Blk.cqNotify_armed {b : Blk} {i q : Nat} (armed : (b.cq i q).armed = true) (free : (b.cq i q).mirrorHeld = false) :
    (b.cqNotify (.inst i q)).cq i q = { b.cq i q with armed := false } ∧ (b.cqNotify (.inst i q)).rmt = b.rmt := by
  have writes : b.cqNotify (.inst i q) = (b.updCq i q (fun x => { x with armed := false })).cqEvent (.inst i q) 1 :=
    if_pos (by simp [Blk.cqOf, armed, free])
  have told := Blk.signals.cqEvent (b.updCq i q (fun x => { x with armed := false })) (.inst i q) 1
  rw [writes]
  exact ⟨(told.cq i q).trans (b.cq_updCq i q _), told.rmt⟩

/-- A CQ that is armed with completions to consume past CI writes its notice at once. -/
theorem Blk.cqCiWrite_notifies {b : Blk} {i q : Nat} {ci : W16}
    (fits : ((b.cqOf (.inst i q)).pi - ci).toNat ≤ b.cqSize (.inst i q)) (held : (b.cq i q).held = [])
    (past : (b.cq i q).pi ≠ ci) (free : (b.cq i q).mirrorHeld = false) :
    (b.cqCiWrite (.inst i q) ci true).cq i q = { b.cq i q with ci := ci, armed := false } ∧
      (b.cqCiWrite (.inst i q) ci true).rmt = b.rmt := by
  unfold Blk.cqCiWrite
  rw [if_neg (Nat.not_lt.2 fits)]
  extract_lets b1 b2
  have taken : b1.cq i q = { b.cq i q with ci := ci, armed := (b.cq i q).armed || true } := b.cq_updCq i q _
  have writes : b2 = b1.cqNotify (.inst i q) := if_pos (by
    rw [show b1.cqOf (.inst i q) = _ from taken]
    simp [past])
  obtain ⟨told, rmt⟩ := b1.cqNotify_armed (i := i) (q := q) (by rw [taken]; simp) (by rw [taken]; exact free)
  rw [taken] at told
  rw [← writes] at told rmt
  rw [Blk.cqDrain_drained (b := b2) (r := .inst i q) ((congrArg Cq.held told).trans held)]
  exact ⟨told, rmt⟩

/-! Indices and controls of an EQ (R106, R121, R122). -/

theorem Blk.eqCiWrite_beyond {b : Blk} {r : EqR} {ci : W16} (beyond : b.eqSize r < ((b.evq r).pi - ci).toNat) :
    b.eqCiWrite r ci = b.updEvq r (fun q => { q with ciError := true }) := if_pos beyond

theorem EvQ.consume_quiet {q : EvQ} (events : q.srcs = []) (ci : W16) : q.consume ci = { q with ci := ci } := by
  unfold EvQ.consume
  simp [events, Tab.mapVals]

/-- With no source that keeps events an EQ has none to write. -/
theorem Blk.eq_eqFlush_quiet {b : Blk} {i e : Nat} (events : (b.eq i e).srcs = []) :
    (b.eqFlush (.inst i e)).eq i e = b.eq i e := by
  have due : (b.evq (.inst i e)).due = [] := by
    unfold EvQ.due
    rw [show (b.evq (.inst i e)).srcs = [] from events]
    rfl
  unfold Blk.eqFlush
  rw [due]
  split
  · rfl
  · refine (b.eq_updEq i e _).trans ?_
    rw [show (b.eq i e).due = [] from due]
    simp

/-- The interrupt that follows a change of an EQ of an instance leaves the queue. -/
theorem Blk.eq_interrupt (b : Blk) (r : EqR) (due : Bool) (i e : Nat) :
    (if due then b.msiDue r else b.evalIntx (b.eqPort r) r.isF1).eq i e = b.eq i e := by
  split
  · exact (b.reports_msiDue r).eq i e
  · exact (b.reports_evalIntx _ _).eq i e

theorem Blk.eq_eqCiWrite {b : Blk} {i e : Nat} {ci : W16} (fits : ((b.evq (.inst i e)).pi - ci).toNat ≤ b.eqSize (.inst i e))
    (events : (b.eq i e).srcs = []) : (b.eqCiWrite (.inst i e) ci).eq i e = { b.eq i e with ci := ci } := by
  have taken : (b.updEvq (.inst i e) (fun q => q.consume ci)).eq i e = { b.eq i e with ci := ci } :=
    (b.eq_updEq i e _).trans (EvQ.consume_quiet events ci)
  unfold Blk.eqCiWrite
  rw [if_neg (Nat.not_lt.2 fits)]
  extract_lets b1
  exact ((b1.eq_interrupt _ _ i e).trans (Blk.eq_eqFlush_quiet (by rw [taken]; exact events))).trans taken

theorem Blk.eq_eqCtrlWrite (b : Blk) (i e : Nat) (intEn clear : Bool) : (b.eqCtrlWrite (.inst i e) intEn clear).eq i e =
    { b.eq i e with intEn := intEn, ciError := (b.eq i e).ciError && !clear } := by
  unfold Blk.eqCtrlWrite
  extract_lets was b1
  exact (b1.eq_interrupt _ _ i e).trans (b.eq_updEq i e _)

/-! Queues that go on (R109). -/

theorem Blk.resume_rejoins {b : Blk} {r : WqR} (can : b.canResume r = true) : b.resume r = b.resumeQueue r := if_pos can

theorem Blk.canResume_inst {b : Blk} {i q : Nat} (on : b.wqEnabled (.inst i q) = true)
    (clear : (b.wq i q).st = .cqWait ∧ b.cqSlotFree (b.wqCq (.inst i q)) = true ∨
      (b.wq i q).st = .bmeOff ∧ b.wqCanIssue (.inst i q) = true) : b.canResume (.inst i q) = true := by
  unfold Blk.canResume
  obtain ⟨st, slot⟩ | ⟨st, issues⟩ := clear
  · simp [Blk.wqOf, Blk.cqOff, on, st, slot]
  · simp [Blk.wqOf, Blk.cqOff, on, st, issues]

/-- A queue that resumes is in the list of a scan that runs. -/
theorem Blk.scan_resumeQueue (b : Blk) (r : WqR) :
    ((b.resumeQueue r).scan r.scanKey).active = true ∧ r.num ∈ ((b.resumeQueue r).scan r.scanKey).list := by
  unfold Blk.resumeQueue
  rw [Blk.scan_updScan]
  refine ⟨rfl, ?_⟩
  dsimp only
  split
  · next listed => simpa using listed
  · simp

/-- The fence of the oldest entry is lifted. -/
theorem Blk.fenceStart_lifts {b : Blk} {i q : Nat} {x : Entry} (oldest : (b.wq i q).fetched.head? = some x)
    (waits : x.st = .fetched) (down : x.lifted = false) (fence : weFence x.raw = true) :
    b.fenceStart i q = b.updWq i q (fun w => w.updEntry x.idx (fun e => { e with lifted := true })) := by
  have ready : (b.wq i q).fenceReady = true := by
    unfold Wq.fenceReady
    simp [oldest, waits, down, fence]
  unfold Blk.fenceStart
  rw [if_pos ready, oldest]

theorem Wq.updEntry_oldest {w : Wq} {x : Entry} (oldest : w.fetched.head? = some x) (f : Entry → Entry) :
    (w.updEntry x.idx f).fetched.head? = some (f x) ∧ (w.updEntry x.idx f).fetched.length = w.fetched.length := by
  obtain ⟨rest, listed⟩ := List.head?_eq_some_iff.1 oldest
  unfold Wq.updEntry
  simp [listed]

/-! Writes that fail translation (R515). -/

/-- An instance with one more translation fault counted, and reported (R439). -/
def InstDyn.faultCounted (d : InstDyn) : InstDyn := { d with xfaults := sat64 d.xfaults 1, faultReported := true }

theorem Blk.inst_xlateFault (b : Blk) (i cause va : Nat) : (b.xlateFault i cause va).inst i = (b.inst i).faultCounted := by
  have counted := b.inst_updInst i InstDyn.faultCounted
  unfold Blk.xlateFault
  dsimp only
  split
  · exact counted
  · exact ((Blk.reports_devEvent _ _ _ _ _ _).inst i).trans counted

theorem Blk.eq_xlateFault (b : Blk) (i cause va j e : Nat) : (b.xlateFault i cause va).eq j e = b.eq j e := by
  unfold Blk.xlateFault
  dsimp only
  split
  · rfl
  · exact (Blk.reports_devEvent _ _ _ _ _ _).eq j e

/-- A write of a CQ that fails translation is held, and the fault is counted. -/
theorem Blk.cqFaulted_holds {b : Blk} {i q : Nat} (there : ((b.instCfg i).cq i q).life ≠ .absent) (c : XFault) :
    ((b.cq i q).xfault = false → (b.cqFaulted i q false c).cq i q = { b.cq i q with xfault := true } ∧
      (b.cqFaulted i q false c).inst i = (b.inst i).faultCounted) ∧
    ((b.cq i q).mfault = false → (b.cqFaulted i q true c).cq i q = { b.cq i q with mfault := true } ∧
      (b.cqFaulted i q true c).inst i = (b.inst i).faultCounted) := by
  unfold Blk.cqFaulted
  dsimp only
  rw [if_neg there, if_neg there]
  refine ⟨fun clear => ?_, fun clear => ?_⟩
  · rw [if_neg (by decide), if_neg (by simp [clear])]
    exact ⟨((Blk.signals.xlateFault _ _ _ _).cq i q).trans (b.cq_updCq i q _), Blk.inst_xlateFault _ _ _ _⟩
  · rw [if_pos rfl, if_neg (by simp [clear])]
    exact ⟨((Blk.signals.xlateFault _ _ _ _).cq i q).trans (b.cq_updCq i q _), Blk.inst_xlateFault _ _ _ _⟩

/-- The same of an EQ. -/
theorem Blk.eqFaulted_holds {b : Blk} {i e : Nat} (there : ((b.instCfg i).eq i e).life ≠ .absent) (c : XFault) :
    ((b.eq i e).xfault = false → (b.eqFaulted i e false c).eq i e = { b.eq i e with xfault := true } ∧
      (b.eqFaulted i e false c).inst i = (b.inst i).faultCounted) ∧
    ((b.eq i e).mfault = false → (b.eqFaulted i e true c).eq i e = { b.eq i e with mfault := true } ∧
      (b.eqFaulted i e true c).inst i = (b.inst i).faultCounted) := by
  unfold Blk.eqFaulted
  dsimp only
  rw [if_neg there, if_neg there]
  refine ⟨fun clear => ?_, fun clear => ?_⟩
  · rw [if_neg (by decide), if_neg (by simp [clear])]
    exact ⟨(Blk.eq_xlateFault _ _ _ _ i e).trans (b.eq_updEq i e _), Blk.inst_xlateFault _ _ _ _⟩
  · rw [if_pos rfl, if_neg (by simp [clear])]
    exact ⟨(Blk.eq_xlateFault _ _ _ _ i e).trans (b.eq_updEq i e _), Blk.inst_xlateFault _ _ _ _⟩

/-! The controls of the CTL block (R123). -/

/-- A change of a port is one of that port alone. -/
theorem Blk.updPort_alone (b : Blk) (h : Nat) (f : HostPort → HostPort) : (b.updPort h f).port h = f (b.port h) ∧
    b.updPort h f = { b with ports := (b.updPort h f).ports } ∧ ∀ k ≠ h, (b.updPort h f).port k = b.port k :=
  ⟨b.port_updPort h f, rfl, fun _ other => b.port_updPort_ne h f other⟩

section Controls
variable {b : Blk} {h : Nat} {v : W32}

theorem Blk.ctlWqWrite_of_off (off : (b.port h).ctlWqEn = false) : b.ctlWqWrite h v = b.ctlWqCtrl h v :=
  if_neg (by simp [off])

theorem Blk.ctlWqCtrl_enables (off : (b.port h).ctlWqEn = false) (en : v.getLsbD 0 = true) (size : 4 ≤ fieldNat v 1 4) :
    b.ctlWqCtrl h v = b.updPort h (fun p => { p with
      ctlWqLog2 := BitVec.ofNat 4 (fieldNat v 1 4), ctlWqEn := true,
      ctlWq := { p.ctlWq with pi := 0, ci := 0, st := if p.ctlCqEn then .ready else .cqWait } }) := by
  have top : fieldNat v 1 4 < 16 := Nat.mod_lt _ (by decide)
  unfold Blk.ctlWqCtrl
  dsimp only
  rw [if_neg (by simp [off]), if_neg (by omega), en]
  rfl

theorem Blk.ctlWqCtrl_small (off : (b.port h).ctlWqEn = false) (small : fieldNat v 1 4 < 4) : b.ctlWqCtrl h v = b := by
  unfold Blk.ctlWqCtrl
  dsimp only
  rw [if_neg (by simp [off]), if_pos (.inl small)]

/-- Disabling the WQ drops its open program (R133). -/
theorem Blk.ctlWqWrite_disables (on : (b.port h).ctlWqEn = true) (en : v.getLsbD 0 = false) :
    b.ctlWqWrite h v = (b.updPort h (fun p => { p with ctlWqEn := false })).dropPrograms h := by
  unfold Blk.ctlWqWrite Blk.ctlWqCtrl
  dsimp only
  rw [if_pos (by rw [on, en]; rfl), if_pos on, en]

theorem Blk.prog_dropPrograms (b : Blk) (k : CqKey) : ((b.dropPrograms k).ctlq k).prog = none := by
  unfold Blk.dropPrograms
  extract_lets c gone b1 b2
  have emptied : b2.ctlq k = _ := b1.ctlq_updCtlq k _
  exact congrArg CtlState.prog emptied

theorem Blk.port_dropPrograms (b : Blk) (k : CqKey) (j : Nat) : (b.dropPrograms k).port j = b.port j :=
  (congrArg (·.port j) (b.dropPrograms_rest k) :)

theorem Blk.ctlCqCtrl_enables (off : (b.port h).ctlCqEn = false) (en : v.getLsbD 0 = true) (size : 4 ≤ fieldNat v 1 4)
    (held : (b.port h).ctlCq.held = []) : b.ctlCqCtrl h v = b.updPort h (fun p => { p with
      ctlCqLog2 := BitVec.ofNat 4 (fieldNat v 1 4), ctlCqEn := true, ctlCq := { p.ctlCq with pi := 0, ci := 0 } }) := by
  have top : fieldNat v 1 4 < 16 := Nat.mod_lt _ (by decide)
  unfold Blk.ctlCqCtrl
  dsimp only
  rw [if_neg (by simp [off]), if_neg (by omega), en]
  exact Blk.cqRetry_drained (r := .ctl h) rfl ((congrArg (·.ctlCq.held) (b.port_updPort h _)).trans held)

theorem Blk.ctlCqCtrl_small (off : (b.port h).ctlCqEn = false) (small : fieldNat v 1 4 < 4) : b.ctlCqCtrl h v = b := by
  unfold Blk.ctlCqCtrl
  dsimp only
  rw [if_neg (by simp [off]), if_pos (.inl small)]

/-- Disabling the CQ makes a READY WQ wait. -/
theorem Blk.ctlCqCtrl_disables (on : (b.port h).ctlCqEn = true) (en : v.getLsbD 0 = false) :
    b.ctlCqCtrl h v = b.updPort h (fun p => { p with
      ctlCqEn := false
      ctlWq := if p.ctlWqEn = true ∧ p.ctlWq.st = .ready then { p.ctlWq with st := .cqWait } else p.ctlWq }) := by
  unfold Blk.ctlCqCtrl
  dsimp only
  rw [if_pos on, en]
  simp

/-! The control of the INT block (R124). -/

/-- A port whose F0 event queue a write of F0_EQ_CTRL enables. -/
def HostPort.eqEnabled (p : HostPort) (v : W32) : HostPort :=
  { p with
    eqLog2 := BitVec.ofNat 4 (fieldNat v 1 4), eqEn := true, eqVector := v.extractLsb' 5 5,
    eq := { p.eq with pi := 0, ci := 0, intEn := v.getLsbD 10, ciError := p.eq.ciError && !v.getLsbD 11 } }

/-- Enabling an F0 event queue with no event held leaves it empty, and its INTx state to be told. -/
theorem Blk.f0EqCtrl_enables (off : (b.port h).eqEn = false) (en : v.getLsbD 0 = true) (size : 5 ≤ fieldNat v 1 4)
    (events : (b.port h).eq.srcs = []) : ∃ c : Blk, b.f0EqCtrl h v = c.evalIntx h false ∧
      c.port h = (b.port h).eqEnabled v ∧ c = { b with ports := c.ports } ∧ ∀ k ≠ h, c.port k = b.port k := by
  have top : fieldNat v 1 4 < 16 := Nat.mod_lt _ (by decide)
  unfold Blk.f0EqCtrl
  extract_lets p en' lg was fields after b1
  rw [if_neg (by simp [p, off]), if_neg (by omega), if_pos en]
  generalize start : (fun q : EvQ => { q with
    pi := 0, ci := 0, srcs := q.srcs.mapVals {} (fun _ s => { s with standing := none }) }) = f
  have port : (b1.updEvq (.f0 h) f).port h = (b.port h).eqEnabled v := by
    rw [← start]
    refine (b1.port_updPort h _).trans ?_
    rw [show b1.port h = _ from b.port_updPort h _]
    simp [fields, HostPort.eqEnabled, en', en, lg, events, Tab.mapVals]
  refine ⟨b1.updEvq (.f0 h) f, congrArg (Blk.evalIntx · h false) (Blk.f0Flush_idle ?_), port, rfl, fun k other => ?_⟩
  · rw [port]
    exact events
  · exact (b1.port_updPort_ne h _ other).trans (b.port_updPort_ne h _ other)

theorem Blk.f0EqCtrl_small (off : (b.port h).eqEn = false) (small : fieldNat v 1 4 < 5) : b.f0EqCtrl h v = b := by
  unfold Blk.f0EqCtrl
  dsimp only
  rw [if_neg (by simp [off]), if_pos (.inl small)]

/-- Disabling an F0 event queue keeps its size. -/
theorem Blk.f0EqCtrl_disables (on : (b.port h).eqEn = true) (en : v.getLsbD 0 = false) :
    ((b.f0EqCtrl h v).port h).eqEn = false ∧ ((b.f0EqCtrl h v).port h).eqLog2 = (b.port h).eqLog2 := by
  unfold Blk.f0EqCtrl
  extract_lets p en' lg was fields after b1
  rw [if_pos on]
  have set : (b.updPort h fields).port h = fields (b.port h) := b.port_updPort h fields
  have told : (b.updPort h fields).hums (after (b.updPort h fields)) := .ite (.msiDue _ _) (.evalIntx _ _ _)
  have kept := told.port h
  rw [set] at kept
  exact ⟨(congrArg HostPort.eqEn kept :).trans en, (congrArg HostPort.eqLog2 kept :)⟩

/-- With its queue empty a function has no interrupt source, and takes an asserted INTA back (R69). -/
theorem Blk.evalIntx_empty (up : (b.port h).linkUp = true) (runs : (b.port h).f0.flr = false)
    (high : (b.port h).f0.inta = true) (silent : b.intSource h false = false) :
    (b.evalIntx h false).port h = { b.port h with f0 := { (b.port h).f0 with inta := false } } ∧
      (b.evalIntx h false).out = .intx h false false :: b.out := by
  have falls : b.evalIntx h false = (b.updFn h false (fun x => { x with inta := false })).emit (.intx h false false) := by
    unfold Blk.evalIntx
    simp [Blk.fn, up, runs, high, silent]
  rw [falls]
  exact ⟨b.port_updPort h (fun p => { p with f0 := { p.f0 with inta := false } }), rfl⟩

end Controls

/-- Settles O25: each write by the operation that takes it; a WQ that stops by `Blk.wqOf_wqError`; notices, interrupts and
faults by what an event leaves (`Blk.signals`, `Blk.reports_msiDue`); the controls by the row of the block that the write comes to. -/
theorem queueIndicesAndControls : Obligations.QueueIndicesAndControls := by
  unfold Obligations.QueueIndicesAndControls
  refine ⟨?_, ?_⟩
  · intro s h inst q e v c x q8 b i w wr v16 cq counts
    refine ⟨fun opened bound => ⟨fun fits => ?_, fun beyond on runs => ?_, fun incs held fits => ⟨fun quiet => ?_,
      fun arm past free => ?_⟩, fun beyond incs => ?_, fun beyond => ?_, fun fits events => ?_, ?_⟩, fun on clear => ?_,
      fun oldest waits down fence => ?_, fun there => ?_, fun same there => ?_⟩
    · rw [exec_wqPiWrite, Blk.pageWrite_served opened bound, Blk.wqPiWrite_fits (b := b) (r := wr) fits]
      exact ⟨_, rfl, b.updWq_alone i (fun w => { w with pi := v16 }) q.isLt⟩
    · rw [exec_wqPiWrite, Blk.pageWrite_served opened bound]
      exact ⟨_, rfl, Blk.wqOf_wqPiWrite_beyond (b := b) (r := wr) beyond on runs⟩
    · rw [exec_cqCiWrite, Blk.pageWrite_served opened bound, Blk.cqCiWrite_quiet (b := b) (i := i) fits held quiet,
        Blk.settleIncs_nil (by exact incs)]
      exact ⟨_, rfl, rfl, b.cq_updCq i q.val _⟩
    · obtain ⟨told, rmt⟩ := Blk.cqCiWrite_notifies (b := b) (i := i) fits held past free
      rw [exec_cqCiWrite, Blk.pageWrite_served opened bound, arm, Blk.settleIncs_nil (by rw [rmt]; exact incs)]
      exact ⟨_, rfl, told⟩
    · have told := Blk.signals.cqEvent (b.updCqOf (.inst i q.val) (fun x => { x with ciError := true })) (.inst i q.val) 4
      rw [exec_cqCiWrite, Blk.pageWrite_served opened bound, Blk.cqCiWrite_beyond (b := b) (r := .inst i q.val) _ beyond,
        Blk.settleIncs_nil ((congrArg Rmt.incs told.rmt).trans incs)]
      exact ⟨_, rfl, (told.cq i q.val).trans (b.cq_updCq i q.val _)⟩
    · rw [exec_eqCiWrite, Blk.pageWrite_served opened bound, Blk.eqCiWrite_beyond (b := b) (r := .inst i e.val) beyond]
      exact ⟨_, rfl, rfl, b.eq_updEq i e.val _⟩
    · rw [exec_eqCiWrite, Blk.pageWrite_served opened bound]
      exact ⟨_, rfl, Blk.eq_eqCiWrite (b := b) (i := i) fits events⟩
    · rw [exec_eqCtrlWrite, Blk.pageWrite_served opened bound]
      exact ⟨_, rfl, b.eq_eqCtrlWrite i e.val _ _⟩
    · obtain ⟨active, listed⟩ := b.scan_resumeQueue wr
      rw [exec_queueResume, show qRefWq (.wq inst q) = wr from rfl, Blk.resume_rejoins (Blk.canResume_inst on clear)]
      exact ⟨_, rfl, rfl, (Blk.wqOf_updScan _ _ _ wr).trans (b.wqOf_updWqOf wr _), active, listed⟩
    · obtain ⟨lifted, length⟩ := Wq.updEntry_oldest oldest (fun e => { e with lifted := true })
      have after := b.wq_updWq i q.val (fun w => w.updEntry x.idx (fun e => { e with lifted := true }))
      rw [exec_fencedEntryStart, Blk.fenceStart_lifts oldest waits down fence]
      refine ⟨_, rfl, rfl, ?_⟩
      rw [after]
      exact ⟨lifted, length⟩
    · obtain ⟨ring, mirror⟩ := Blk.cqFaulted_holds there c
      exact ⟨fun clear => ⟨_, exec_completionWriteFault_cq s inst q false c, ring clear⟩,
        fun clear => ⟨_, exec_completionWriteFault_cq s inst q true c, mirror clear⟩⟩
    · obtain ⟨ring, mirror⟩ := Blk.eqFaulted_holds there c
      have small : q8.val < 8 := same ▸ e.isLt
      rw [← same] at ring mirror ⊢
      exact ⟨fun clear => ⟨_, exec_completionWriteFault_eq s inst small false c, ring clear⟩,
        fun clear => ⟨_, exec_completionWriteFault_eq s inst small true c, mirror clear⟩⟩
  · intro s h v b p lg becomes eqOn opened
    refine ⟨fun en size => ⟨fun off => ?_, fun off held => ?_⟩, fun en size off events => ?_,
      fun small => ⟨fun off => ?_, fun off => ?_⟩, fun small off => ?_, fun en => ⟨fun on => ?_, fun on => ?_, fun on => ?_⟩⟩
    · refine ⟨_, exec_ctlWqCtrlWrite s h v, ?_⟩
      rw [Blk.f0Write_served opened, Blk.ctlWqWrite_of_off off, Blk.ctlWqCtrl_enables off en size]
      exact b.updPort_alone h.val _
    · refine ⟨_, exec_ctlCqCtrlWrite s h v, ?_⟩
      rw [Blk.f0Write_served opened, Blk.ctlCqCtrl_enables off en size held]
      exact b.updPort_alone h.val _
    · obtain ⟨c, enables, port, rest, others⟩ := Blk.f0EqCtrl_enables off en size events
      have silent : c.intSource h.val false = false := by
        unfold Blk.intSource
        rw [port]
        rfl
      refine ⟨fun low => ?_, fun high up runs => ?_⟩
      · refine ⟨_, exec_f0EqCtrlWrite s h v, ?_⟩
        rw [Blk.f0Write_served opened, enables, Blk.evalIntx_still (.inr (.inr ⟨?_, .inr (.inr silent)⟩))]
        · exact ⟨port, rest, others⟩
        · unfold Blk.fn
          rw [port]
          exact low
      · refine ⟨_, exec_f0EqCtrlWrite s h v, ?_⟩
        obtain ⟨falls, sent⟩ := Blk.evalIntx_empty (b := c) (h := h.val) (by rw [port]; exact up) (by rw [port]; exact runs)
          (by rw [port]; exact high) silent
        have before : c.out = b.out := (congrArg Blk.out rest :)
        rw [port] at falls
        rw [before] at sent
        rw [Blk.f0Write_served opened, enables]
        exact ⟨falls, sent⟩
    · rw [exec_ctlWqCtrlWrite, Blk.f0Write_served opened, Blk.ctlWqWrite_of_off off, Blk.ctlWqCtrl_small off small]
    · rw [exec_ctlCqCtrlWrite, Blk.f0Write_served opened, Blk.ctlCqCtrl_small off small]
    · rw [exec_f0EqCtrlWrite, Blk.f0Write_served opened, Blk.f0EqCtrl_small off small]
    · refine ⟨_, exec_ctlWqCtrlWrite s h v, ?_⟩
      rw [Blk.f0Write_served opened, Blk.ctlWqWrite_disables on en]
      exact ⟨(Blk.port_dropPrograms _ _ _).trans (b.port_updPort h.val _), Blk.prog_dropPrograms _ _⟩
    · refine ⟨_, exec_ctlCqCtrlWrite s h v, ?_⟩
      rw [Blk.f0Write_served opened, Blk.ctlCqCtrl_disables on en]
      exact b.updPort_alone h.val _
    · refine ⟨_, exec_f0EqCtrlWrite s h v, ?_⟩
      rw [Blk.f0Write_served opened]
      exact Blk.f0EqCtrl_disables on en

end Sys2Proof.Machine
end
